-- ==== Sys2Proof/Word.lean ====
section
/-! DEFINITION. The plainest types of the model: bytes, sparse tables and byte memories. -/
namespace Sys2Proof

/-- One byte (R11: every multi-byte structure is stored least significant byte first). -/
abbrev Byte := BitVec 8

/-- A sparse table keyed by a number. Its canonical form: keys strictly rising, no entry equal to what an
unlisted key reads as (the operations that keep it are in Machine/Table.lean). -/
abbrev Map (β : Type) := List (Nat × β)

/-- A byte memory: the canonical list of the cells that do not read as zero. -/
abbrev Mem := List Host.Cell

end Sys2Proof
end

