-- ==== Sys2Proof/Syntax.lean ====
section
/-! DEFINITION. The commands of the block: one constructor per row of spec/opcode_table.json, with the operands
that the row's rule speaks of, and the types of those operands. A row that reports a physical outcome carries that
outcome as an operand (log 7). -/
namespace Sys2Proof.Machine

abbrev CoreId := Fin 16384      -- 1024 d + 32 x + y (R5, R242)
abbrev ThreadId := Fin 64
abbrev ClusterId := Fin 256     -- 16 d + c; also the gateway's number
abbrev DieId := Fin 16
abbrev LinkId := Fin 512        -- 32 d + link of the die
abbrev PortId := Fin 72
abbrev BarnId := Fin 256
abbrev BerthId := Fin 272
abbrev ModuleId := Fin 12
abbrev FnId := Fin 256
abbrev SensorId := Fin 592
abbrev QueueId := Fin 65536
abbrev GranuleId := Fin 1024    -- 64 d + g (R241)

/-- What the check bits of one SRAM row read find (R66): the 8-byte word corrected, or an uncorrectable error. -/
inductive Ecc where
  | ok
  | corrected (word : Fin 8)
  | uncorrectable
  deriving DecidableEq, Repr

/-- The bytes of a stored HBM line and its 8 check bytes that are wrong, with what their bits differ by (R265). -/
abbrev HbmErr := List (Fin 72 × BitVec 8)
/-- What a read by a copy engine finds: in the lines of HBM, or in the rows of a core's SRAM. -/
structure ReadErr where
  lines : List HbmErr
  rows : List Ecc
  deriving DecidableEq, Repr
/-- A reduction context: the core that submitted its descriptor and the handle (R158). -/
structure CtxRef where
  owner : CoreId
  handle : Fin 16
  deriving DecidableEq, Repr

/-- Whether the first bank access of a thread instruction is granted in its issue cycle (R63, R102). -/
inductive BankAcc where
  | free (e : Ecc)
  | delayed
  deriving DecidableEq, Repr

/-- A core's pending write-back whose bank no agent claims (R66): its place among the four. -/
structure WriteBack where
  core : CoreId
  slot : Fin 4
  deriving DecidableEq, Repr

/-- Format A (Table 4-6) issued by a thread. -/
structure IssueA where
  core : CoreId
  thread : ThreadId
  gn : Bool
  gp : BitVec 3
  d : BitVec 5
  a : BitVec 5
  b : BitVec 5
  deriving DecidableEq, Repr

/-- Format I. -/
structure IssueI where
  core : CoreId
  thread : ThreadId
  gn : Bool
  gp : BitVec 3
  d : BitVec 5
  a : BitVec 5
  imm : BitVec 12
  deriving DecidableEq, Repr

/-- Format M. -/
structure IssueM where
  core : CoreId
  thread : ThreadId
  gn : Bool
  gp : BitVec 3
  d : BitVec 5
  a : BitVec 5
  sz : BitVec 3
  off : BitVec 9
  deriving DecidableEq, Repr

/-- Format K. -/
structure IssueK where
  core : CoreId
  thread : ThreadId
  gn : Bool
  gp : BitVec 3
  d : BitVec 5
  a : BitVec 5
  imm : BitVec 32
  deriving DecidableEq, Repr

/-- Format J. -/
structure IssueJ where
  core : CoreId
  thread : ThreadId
  gn : Bool
  gp : BitVec 3
  off : BitVec 22
  deriving DecidableEq, Repr

/-- Format V. -/
structure IssueV where
  core : CoreId
  thread : ThreadId
  gn : Bool
  gp : BitVec 3
  vd : BitVec 6
  va : BitVec 6
  vb : BitVec 6
  vc : BitVec 6
  gs : BitVec 5
  rm : BitVec 3
  sat : Bool
  ety : BitVec 5
  imm : BitVec 12
  deriving DecidableEq, Repr

/-- A packet (R211, Table 9-1): the header's fields, the payload without its padding, the header check as received
and the trailer as received. -/
structure Pkt where
  ver : Nat
  op : Nat
  tc : Nat
  lvl : Nat
  hops : Nat
  hidx : Nat
  pair : Bool
  poison : Bool
  lrun : Nat
  skind : Nat
  dst : Nat
  src : Nat
  barn : Nat
  course : Nat
  wseq : Nat
  rtag : Nat
  pseq : Nat
  addr : Nat
  payload : List Byte
  hcrc : BitVec 16
  trailer : BitVec 32
  deriving DecidableEq, Repr

/-- What light does to the frame that a link sends next: the bytes that arrive wrong, with what their bits differ by (R167, R168). -/
structure LinkFrame where
  errs : List (Fin 256 × BitVec 8)
  deriving DecidableEq, Repr
/-- A training frame's payload (Table 8-6a). -/
structure TrainFrame where
  tkind : Nat
  ackReq : Bool
  ack : Bool
  sender : Nat
  laneMask : Nat
  seed : Nat
  deriving DecidableEq, Repr

/-- What a sweep or retrain of an edge port ends with: the lanes that trained, the latency measured, and the trims. -/
structure MaintDone where
  mask : BitVec 16
  cycles : BitVec 16
  trims : List (BitVec 32 × Byte)
  deriving DecidableEq, Repr

/-- The units of a pair's members that its checks found faulty (Table 12-6). -/
structure FaultyUnits where
  cores : List CoreId
  granules : List GranuleId
  links : List LinkId
  deriving DecidableEq, Repr

/-- A frame as the partner sent it, decrypted: ECTL (Table 11-4) and the packets that end in it. -/
structure EdgeFrame where
  kind : Nat
  seq : Nat
  start : Nat
  ackSeq : Nat
  nak : Bool
  avalid : Bool
  cvc : Nat
  cunits : Nat
  tagFrag : Nat
  pkts : List Pkt
  deriving DecidableEq, Repr

/-- A link-control payload (Tables 11-7 and 17-7). For key exchange messages `mtype` and what R422 checks of an offer: the alias flags'
factory test mode, the alias SVN and the identity digest of the device certificate. -/
structure LinkControl where
  lckind : Nat
  ackReq : Bool
  ack : Bool
  package : Nat
  port : Nat
  role : Nat
  mtu : Nat
  expectPeer : Nat
  expectPort : Nat
  digest : Nat
  mtype : Nat
  factory : Bool
  svn : Nat
  certDigest : Nat
  deriving DecidableEq, Repr

/-- A signed record presented as firmware (Table 17-3): TYPE, KEY_SLOT, SVN, VERSION, the digest of its body, for a revocation the slot it
revokes, and whether its keys match the slot's digest and its signature verifies. -/
structure FwImage where
  typ : Nat
  keySlot : Fin 4
  svn : Nat
  version : Nat
  digest : BitVec 384
  revokes : Fin 4
  signed : Bool
  deriving DecidableEq, Repr
/-- A calibration image (Tables 8-8 and 8-9): its capture time, the bytes of its sections by service address, the modules' serial numbers, and
whether MAGIC, FORMAT, PACKAGE_ID, the tag and every section's CRC32C hold. -/
structure CalImage where
  time : Nat
  cells : Mem
  serials : List Nat
  reason : Nat
  deriving DecidableEq, Repr

/-- The paths by which a sender other than a thread or a peer helm reaches a berth (R325): a PCIe function, I3C, JTAG. -/
inductive BerthPath where
  | pcie (fn : FnId)
  | i3c
  | jtag
  deriving DecidableEq, Repr

end Sys2Proof.Machine

namespace Sys2Proof
open Machine

/-- The commands. -/
inductive Instr where
  /-- ADD (R97). -/
  | add (i : IssueA)
  /-- SUB (R97). -/
  | sub (i : IssueA)
  /-- AND (R97). -/
  | and (i : IssueA)
  /-- OR (R97). -/
  | or (i : IssueA)
  /-- XOR (R97). -/
  | xor (i : IssueA)
  /-- SHL (R97). -/
  | shl (i : IssueA)
  /-- SHR (R97). -/
  | shr (i : IssueA)
  /-- SRA (R97). -/
  | sra (i : IssueA)
  /-- MUL (R97). -/
  | mul (i : IssueA)
  /-- MULHS (R97). -/
  | mulhs (i : IssueA)
  /-- MULHU (R97). -/
  | mulhu (i : IssueA)
  /-- DIV (R98). -/
  | div (i : IssueA)
  /-- DIVU (R98). -/
  | divu (i : IssueA)
  /-- REM (R98). -/
  | rem (i : IssueA)
  /-- REMU (R98). -/
  | remu (i : IssueA)
  /-- MIN (R97). -/
  | min (i : IssueA)
  /-- MINU (R97). -/
  | minu (i : IssueA)
  /-- MAX (R97). -/
  | max (i : IssueA)
  /-- MAXU (R97). -/
  | maxu (i : IssueA)
  /-- CLZ (R97). -/
  | clz (i : IssueA)
  /-- POPC (R97). -/
  | popc (i : IssueA)
  /-- ADDI (R97). -/
  | addi (i : IssueI)
  /-- ANDI (R97). -/
  | andi (i : IssueI)
  /-- ORI (R97). -/
  | ori (i : IssueI)
  /-- XORI (R97). -/
  | xori (i : IssueI)
  /-- SHI (R97). -/
  | shi (i : IssueI)
  /-- MOVI (R97). -/
  | movi (i : IssueK)
  /-- MOVHI (R97). -/
  | movhi (i : IssueK)
  /-- CMP (R97). -/
  | cmp (i : IssueA) (fn : BitVec 7)
  /-- CMPI (R97). -/
  | cmpi (i : IssueI)
  /-- PAND (R97). -/
  | pand (i : IssueA)
  /-- POR (R97). -/
  | por (i : IssueA)
  /-- PXOR (R97). -/
  | pxor (i : IssueA)
  /-- PANDN (R97). -/
  | pandn (i : IssueA)
  /-- PTOG (R97). -/
  | ptog (i : IssueA)
  /-- GTOP (R97). -/
  | gtop (i : IssueA)
  /-- BR (R97). -/
  | br (i : IssueJ)
  /-- BRL (R97). -/
  | brl (i : IssueJ)
  /-- JR (R97). -/
  | jr (i : IssueA)
  /-- LDL (R102). -/
  | ldl (i : IssueM) (acc : BankAcc)
  /-- STL (R102). -/
  | stl (i : IssueM) (acc : BankAcc)
  /-- LDS (R103). -/
  | lds (i : IssueM)
  /-- STS (R103). -/
  | sts (i : IssueM)
  /-- STSB (R101). -/
  | stsb (i : IssueA) (acc : BankAcc)
  /-- FENCE_S (R100). -/
  | fenceS (i : IssueA)
  /-- FENCE_A (R100). -/
  | fenceA (i : IssueA)
  /-- SYNCI (R62). -/
  | synci (i : IssueA)
  /-- ATOML (R102). -/
  | atoml (i : IssueA) (fn : BitVec 7) (acc : BankAcc)
  /-- ATOMS (R100). -/
  | atoms (i : IssueA) (fn : BitVec 7)
  /-- COPY (R251). -/
  | copy (i : IssueA) (acc : BankAcc)
  /-- TWAIT (R254). -/
  | twait (i : IssueA)
  /-- TRD (R254). -/
  | trd (i : IssueA)
  /-- TSET (R254). -/
  | tset (i : IssueA)
  /-- VADD (R105). -/
  | vadd (i : IssueV)
  /-- VSUB (R105). -/
  | vsub (i : IssueV)
  /-- VMUL (R105). -/
  | vmul (i : IssueV)
  /-- VFMA (R105). -/
  | vfma (i : IssueV)
  /-- VDIV (R105). -/
  | vdiv (i : IssueV)
  /-- VSQRT (R105). -/
  | vsqrt (i : IssueV)
  /-- VMIN (R105). -/
  | vmin (i : IssueV)
  /-- VMAX (R105). -/
  | vmax (i : IssueV)
  /-- VAND (R105). -/
  | vand (i : IssueV)
  /-- VOR (R105). -/
  | vor (i : IssueV)
  /-- VXOR (R105). -/
  | vxor (i : IssueV)
  /-- VSHL (R105). -/
  | vshl (i : IssueV)
  /-- VSHR (R105). -/
  | vshr (i : IssueV)
  /-- VCVT (R106). -/
  | vcvt (i : IssueV)
  /-- VMXPACK (R45). -/
  | vmxpack (i : IssueV)
  /-- VMXUNPACK (R490). -/
  | vmxunpack (i : IssueV)
  /-- VLDL (R105). -/
  | vldl (i : IssueV) (acc : BankAcc)
  /-- VSTL (R105). -/
  | vstl (i : IssueV) (acc : BankAcc)
  /-- VLDS (R105). -/
  | vlds (i : IssueV)
  /-- VSTS (R105). -/
  | vsts (i : IssueV)
  /-- VBCAST (R490). -/
  | vbcast (i : IssueV)
  /-- VEXT (R490). -/
  | vext (i : IssueV)
  /-- PLAUNCH (R79). -/
  | plaunch (i : IssueA)
  /-- PWAIT (R107). -/
  | pwait (i : IssueA)
  /-- PCANCEL (R80). -/
  | pcancel (i : IssueA)
  /-- PCLR (R80). -/
  | pclr (i : IssueA)
  /-- PSTAT (R107). -/
  | pstat (i : IssueA)
  /-- TKADD (R75). -/
  | tkadd (i : IssueA)
  /-- CCADD (R75). -/
  | ccadd (i : IssueA)
  /-- TKRD (R107). -/
  | tkrd (i : IssueA)
  /-- CCRD (R107). -/
  | ccrd (i : IssueA)
  /-- TKWAIT (R108). -/
  | tkwait (i : IssueA)
  /-- CCWAIT (R108). -/
  | ccwait (i : IssueA)
  /-- TKTAKE (R108). -/
  | tktake (i : IssueA)
  /-- CCTAKE (R108). -/
  | cctake (i : IssueA)
  /-- SHSUBMIT (R158). -/
  | shsubmit (i : IssueA) (acc : BankAcc)
  /-- SHWAIT (R107). -/
  | shwait (i : IssueA)
  /-- SHABORT (R163). -/
  | shabort (i : IssueA)
  /-- SHSTAT (R107). -/
  | shstat (i : IssueA)
  /-- MBPUT (R110). -/
  | mbput (i : IssueA) (acc : BankAcc)
  /-- MBGET (R110). -/
  | mbget (i : IssueA) (acc : BankAcc)
  /-- MBRING (R110). -/
  | mbring (i : IssueA)
  /-- MBWAIT (R110). -/
  | mbwait (i : IssueA)
  /-- MBPOLL (R110). -/
  | mbpoll (i : IssueA)
  /-- BARINIT (R111). -/
  | barinit (i : IssueA)
  /-- BARWAIT (R111). -/
  | barwait (i : IssueA)
  /-- TIME (R112). -/
  | time (i : IssueA)
  /-- WAITUNTIL (R112). -/
  | waituntil (i : IssueA)
  /-- IMARK_S (R400). -/
  | imarkS (i : IssueA)
  /-- IMARK_E (R112). -/
  | imarkE (i : IssueA)
  /-- TSTART (R114). -/
  | tstart (i : IssueA)
  /-- TSTOP (R113). -/
  | tstop (i : IssueA)
  /-- TKILL (R113). -/
  | tkill (i : IssueA)
  /-- TRESTART (R113). -/
  | trestart (i : IssueA)
  /-- TFWAIT (R113). -/
  | tfwait (i : IssueA)
  /-- VALLOC (R90). -/
  | valloc (i : IssueA)
  /-- VFREE (R90). -/
  | vfree (i : IssueA)
  /-- BRK (R113). -/
  | brk (i : IssueA)
  /-- SRD (R91). -/
  | srd (i : IssueA) (fn : BitVec 7)
  /-- SWR (R91). -/
  | swr (i : IssueA) (fn : BitVec 7)
  /-- SRDT (R113). -/
  | srdt (i : IssueA) (fn : BitVec 7)
  /-- LAUNCH_WAIT_END (R79). -/
  | launchWaitEnd (core : CoreId) (thread : ThreadId)
  /-- TALLY_WAIT_MET (R254). -/
  | tallyWaitMet (core : CoreId) (thread : ThreadId)
  /-- COUNTER_WAIT_MET (R108). -/
  | counterWaitMet (core : CoreId) (thread : ThreadId)
  /-- PHASE_WAIT_END (R107). -/
  | phaseWaitEnd (core : CoreId) (thread : ThreadId)
  /-- REDUCTION_WAIT_END (R107). -/
  | reductionWaitEnd (core : CoreId) (handle : Fin 16)
  /-- MAILBOX_WAIT_MET (R110). -/
  | mailboxWaitMet (core : CoreId) (thread : ThreadId)
  /-- WAITUNTIL_MET (R400). -/
  | waituntilMet (core : CoreId) (thread : ThreadId)
  /-- FAULT_WAIT_MET (R117). -/
  | faultWaitMet (core : CoreId) (thread : ThreadId)
  /-- FENCE_COMPLETE (R100). -/
  | fenceComplete (core : CoreId) (thread : ThreadId)
  /-- THREAD_BANK_ACCESS (R102). -/
  | threadBankAccess (core : CoreId) (thread : ThreadId) (e : Ecc)
  /-- SRAM_WRITE_BACK (R66). -/
  | sramWriteBack (w : WriteBack)
  /-- VECTOR_REGISTER_ZEROED (R90). -/
  | vectorRegisterZeroed (core : CoreId) (reg : Fin 256)
  /-- INBOUND_DELIVERY (R65). -/
  | inboundDelivery (core : CoreId) (es : List Ecc)
  /-- CORE_ZEROING_COMPLETE (R67). -/
  | coreZeroingComplete (core : CoreId) (badRows : List (Fin 6144))
  /-- PHASE_FIRE (R77). -/
  | phaseFire (core : CoreId)
  /-- GANG_FIRE (R130). -/
  | gangFire (die : DieId) (line : Fin 32)
  /-- GANG_LOST (R131). -/
  | gangLost (die : DieId) (line : Fin 32)
  /-- PHASE_STEP (R68). -/
  | phaseStep (core : CoreId) (sram : List (Fin 24 × Ecc)) (mesh : List (Fin 4 × Ecc))
  /-- PHASE_END (R129). -/
  | phaseEnd (core : CoreId)
  /-- HOLD_COUNT_APPLY (R83). -/
  | holdCountApply (die : DieId)
  /-- DYNAMIC_BEAT_FORWARD (R149). -/
  | dynamicBeatForward (core : CoreId) (link : Fin 6) (src : Fin 6) (e : Ecc)
  /-- SHEAF_WORD (R159). -/
  | sheafWord (p : Pkt)
  /-- SHEAF_NODE_FOLD (R159). -/
  | sheafNodeFold (node : Nat) (ctx : CtxRef) (es : List Ecc)
  /-- ROOT_WRITES_COMPLETE (R164). -/
  | rootWritesComplete (node : Nat) (ctx : CtxRef)
  /-- SHEAF_CTRL (R164). -/
  | sheafCtrl (p : Pkt)
  /-- SHEAF_TIMEOUT (R163). -/
  | sheafTimeout (node : Nat) (ctx : CtxRef)
  /-- SHEAF_BUSY_RESEND (R162). -/
  | sheafBusyResend (node : Nat) (ctx : CtxRef)
  /-- SHEAF_FORM_COMPLETE (R158). -/
  | sheafFormComplete (core : CoreId) (handle : Fin 16) (es : List Ecc)
  /-- SHEAF_FINISH_COMPLETE (R158). -/
  | sheafFinishComplete (core : CoreId) (handle : Fin 16) (es : List Ecc)
  /-- LINK_FRAME_RX (R169). -/
  | linkFrameRx (link : LinkId) (f : LinkFrame)
  /-- CANDIDATE_SET_CHANGE (R175). -/
  | candidateSetChange (die : DieId) (peer : DieId)
  /-- STEER_STAGE (R179). -/
  | steerStage (core : CoreId) (set : Fin 256) (tally : BitVec 16) (en : Bool)
  /-- STEER_COMMIT (R179). -/
  | steerCommit (core : CoreId) (set : Fin 256) (tally : BitVec 16) (en : Bool)
  /-- STEER_REQUEST_START (R179). -/
  | steerRequestStart (barn : BarnId)
  /-- STEER_STAGE_END (R179). -/
  | steerStageEnd (barn : BarnId)
  /-- LINK_DRAIN_COMPLETE (R180). -/
  | linkDrainComplete (link : LinkId)
  /-- STEER_ENTRY_LIVE (R180). -/
  | steerEntryLive (link : LinkId)
  /-- STEER_COMMIT_END (R179). -/
  | steerCommitEnd (barn : BarnId)
  /-- LIGHTHOUSE_MODULE_FAILURE (R186). -/
  | lighthouseModuleFailure (m : ModuleId) (trims : List (BitVec 32 × Byte))
  /-- LANE_EXCLUSION (R189). -/
  | laneExclusion (link : Fin 584) (lane : Fin 16)
  /-- WIDTH_CHANGE_COMPLETE (R189). -/
  | widthChangeComplete (link : Fin 584)
  /-- LANE_RETRAIN_COMPLETE (R203). -/
  | laneRetrainComplete (link : Fin 584) (lane : Fin 16)
  /-- LINK_SUBSTITUTION (R190). -/
  | linkSubstitution (link : LinkId)
  /-- SENSOR_SAMPLE (R454). -/
  | sensorSample (sensor : SensorId) (temp : BitVec 16)
  /-- ZONE_RETRIM_COMPLETE (R194). -/
  | zoneRetrimComplete (zone : Fin 64) (trims : List (BitVec 32 × Byte))
  /-- LOCK_LOOP_UPDATE (R194). -/
  | lockLoopUpdate (ring : Fin 212888) (residual : BitVec 16) (move : Fin 3)
  /-- EYE_WIDTH_MEASURE (R197). -/
  | eyeWidthMeasure (link : Fin 584) (lane : Fin 16) (width : Fin 65)
  /-- EYE_HEIGHT_MEASURE (R197). -/
  | eyeHeightMeasure (link : Fin 584) (lane : Fin 16) (height : BitVec 8)
  /-- BER_WINDOW_END (R197). -/
  | berWindowEnd (link : Fin 584) (lane : Fin 16) (exp : BitVec 8)
  /-- EXCLUSION_WINDOW_END (R198). -/
  | exclusionWindowEnd (link : Fin 584) (corrected : List (Fin 16 × Nat))
  /-- SENSOR_RESIDUAL_CHECK (R197). -/
  | sensorResidualCheck (sensor : Fin 576) (residual : BitVec 16)
  /-- ANALOGUE_RECHECK (R201). -/
  | analogueRecheck (rcal : BitVec 32) (currentSense : List Byte) (offsets : List Byte)
  /-- TRAINING_FRAME_RX (R202). -/
  | trainingFrameRx (link : Fin 584) (f : TrainFrame)
  /-- RING_RELOCK_COMPLETE (R203). -/
  | ringRelockComplete (ring : Fin 17536) (offset : BitVec 12)
  /-- DEFERRED_CAL_START (R205). -/
  | deferredCalStart (link : Fin 584)
  /-- LINK_SWEEP_COMPLETE (R203). -/
  | linkSweepComplete (link : LinkId) (mask : BitVec 16) (cycles : BitVec 16) (trims : List (BitVec 32 × Byte))
  /-- LINK_RETRAIN_COMPLETE (R203). -/
  | linkRetrainComplete (link : LinkId) (mask : BitVec 16) (cycles : BitVec 16) (trims : List (BitVec 32 × Byte))
  /-- CORE_BIST_COMPLETE (R206). -/
  | coreBistComplete (op : Nat) (failed : List (Fin 16384))
  /-- CAL_CAPTURE_COMPLETE (R209). -/
  | calCaptureComplete (op : Nat)
  /-- LOAD (R246). -/
  | load (p : Pkt) (e : List HbmErr)
  /-- STORE (R246). -/
  | store (p : Pkt) (e : List HbmErr)
  /-- COUNTER_STORE (R86). -/
  | counterStore (p : Pkt)
  /-- ATOMIC (R246). -/
  | atomic (p : Pkt) (e : List HbmErr)
  /-- LOAD_CPL (R104). -/
  | loadCpl (p : Pkt)
  /-- STORE_CPL (R255). -/
  | storeCpl (p : Pkt)
  /-- ATOMIC_CPL (R104). -/
  | atomicCpl (p : Pkt)
  /-- MESSAGE (R260). -/
  | message (p : Pkt)
  /-- COPY_WRITE (R255). -/
  | copyWrite (p : Pkt) (e : List HbmErr)
  /-- COPY_PULL (R252). -/
  | copyPull (p : Pkt) (e : List HbmErr)
  /-- WREQ (R226). -/
  | wreq (p : Pkt)
  /-- WUPDATE (R226). -/
  | wupdate (p : Pkt)
  /-- WGIVE (R385). -/
  | wgive (p : Pkt)
  /-- SALVAGE (R233). -/
  | salvage (p : Pkt)
  /-- ADVICE (R236). -/
  | advice (p : Pkt)
  /-- TIME_EXCH (R396). -/
  | timeExch (p : Pkt) (stamp : BitVec 64) (replayed : Bool)
  /-- HARVEST_REQ (R238). -/
  | harvestReq (p : Pkt)
  /-- HARVEST_DATA (R238). -/
  | harvestData (p : Pkt)
  /-- HELM_MSG (R339). -/
  | helmMsg (p : Pkt)
  /-- UNPAIR_TIMEOUT (R307). -/
  | unpairTimeout (gateway : ClusterId) (pair : Fin 16) (member : Fin 16) (pseq : BitVec 14)
  /-- PAIR_CHECKS_COMPLETE (R310). -/
  | pairChecksComplete (pair : Fin 16) (failA : Bool) (failB : Bool) (faulty : FaultyUnits)
  /-- EDGE_TX_PICK (R223). -/
  | edgeTxPick (port : PortId)
  /-- WINDOW_ADMIT (R227). -/
  | windowAdmit (dest : Fin 32768) (cls : Bool)
  /-- WINDOW_GRANT (R226). -/
  | windowGrant
  /-- WUPDATE_SEND (R226). -/
  | wupdateSend (src : Fin 32768) (cls : Bool)
  /-- WINDOW_IDLE_GIVEBACK (R226). -/
  | windowIdleGiveback (dest : Fin 32768) (cls : Bool)
  /-- WSEQ_GAP_SKIP (R228). -/
  | wseqGapSkip (src : Fin 32768) (cls : Bool)
  /-- PORT_LOSS (R286). -/
  | portLoss (port : PortId)
  /-- SALVAGE_TIMEOUT (R233). -/
  | salvageTimeout (port : PortId)
  /-- CONGESTION_SAMPLE (R237). -/
  | congestionSample
  /-- ORDERED_STORE_ISSUE (R249). -/
  | orderedStoreIssue (gateway : ClusterId) (core : CoreId) (tag : BitVec 12)
  /-- COPY_SEGMENT_SEND (R252). -/
  | copySegmentSend (gateway : ClusterId) (tracker : Fin 256) (e : ReadErr)
  /-- READ_AHEAD_FETCH (R257). -/
  | readAheadFetch (gateway : Fin 1073741824) (tracker : Fin 256) (e : HbmErr)
  /-- PATROL_READ (R267). -/
  | patrolRead (line : Nat) (e : HbmErr)
  /-- ROW_REPAIR_COMPLETE (R268). -/
  | rowRepairComplete (granule : GranuleId) (detail : BitVec 32) (spare : Bool)
  /-- GRANULE_SCRUB_COMPLETE (R262). -/
  | granuleScrubComplete (granule : GranuleId)
  /-- HBM_CHANNEL_RETRAIN_START (R386). -/
  | hbmChannelRetrainStart (die : DieId) (channel : Fin 32)
  /-- HBM_CHANNEL_RETRAIN_COMPLETE (R386). -/
  | hbmChannelRetrainComplete (die : DieId) (channel : Fin 32) (good : Bool)
  /-- QCFG_WRITE (R259). -/
  | qcfgWrite (queue : QueueId) (barn : BarnId) (v : BitVec 64)
  /-- QHEAD_WRITE (R260). -/
  | qheadWrite (queue : QueueId) (barn : BarnId) (v : BitVec 64)
  /-- EDGE_FRAME_RX (R277). -/
  | edgeFrameRx (port : PortId) (f : EdgeFrame) (errs : List (Fin 256 × BitVec 8)) (tag : Fin 3)
  /-- EDGE_REPLAY_TIMEOUT (R277). -/
  | edgeReplayTimeout (port : PortId)
  /-- LINK_CONTROL_FRAME_RX (R283). -/
  | linkControlFrameRx (port : PortId) (seq : BitVec 12) (lc : LinkControl) (verified : Bool)
  /-- PORT_LOCK_ACHIEVED (R282). -/
  | portLockAchieved (port : PortId) (mask : BitVec 16)
  /-- PORT_DESKEW_DONE (R282). -/
  | portDeskewDone (port : PortId) (cycles : BitVec 16)
  /-- PORT_EYE_DONE (R282). -/
  | portEyeDone (port : PortId)
  /-- PORT_WIDTH_AGREED (R285). -/
  | portWidthAgreed (port : PortId) (mask : BitVec 16)
  /-- PORT_UP (R287). -/
  | portUp (port : PortId)
  /-- MAINT_END (R288). -/
  | maintEnd (port : PortId) (done : MaintDone)
  /-- PROBE_BURST (R291). -/
  | probeBurst (port : PortId)
  /-- PARTNER_LIGHT_DETECT (R291). -/
  | partnerLightDetect (port : PortId) (power : BitVec 16)
  /-- RX_LIGHT_LOSS (R291). -/
  | rxLightLoss (port : PortId) (power : BitVec 16)
  /-- MODULATED_LIGHT_STOP (R290). -/
  | modulatedLightStop (port : PortId)
  /-- RETURN_TO_PROBE (R291). -/
  | returnToProbe (port : PortId)
  /-- KEY_UPDATE_START (R423). -/
  | keyUpdateStart (port : PortId)
  /-- KEY_UPDATE_TIMEOUT (R423). -/
  | keyUpdateTimeout (port : PortId)
  /-- HELM_OUTPUT_MISMATCH (R319). -/
  | helmOutputMismatch
  /-- HELM_SELF_CHECK_END (R319). -/
  | helmSelfCheckEnd (aBad : Bool) (bBad : Bool)
  /-- HELM_REFORM (R321). -/
  | helmReform (passed : Bool)
  /-- FW_UPDATE_TAKEOVER (R322). -/
  | fwUpdateTakeover (verified : Bool)
  /-- BERTH_SLOT_CLAIM (R328). -/
  | berthSlotClaim (berth : BerthId) (path : BerthPath) (off : Fin 4096) (bytes : List Byte)
  /-- BERTH_RING (R328). -/
  | berthRing (berth : BerthId) (path : BerthPath) (v : BitVec 32)
  /-- BERTH_TAKE (R329). -/
  | berthTake (berth : BerthId)
  /-- BERTH_REPLY (R328). -/
  | berthReply (berth : BerthId) (slot : Fin 7)
  /-- BERTH_REPLY_CLEAR (R328). -/
  | berthReplyClear (berth : BerthId) (path : BerthPath) (v : BitVec 32)
  /-- HELM_BEAT_TICK (R326). -/
  | helmBeatTick
  /-- OP_STATUS_PERIODIC (R332). -/
  | opStatusPeriodic (op : Nat)
  /-- OPERATION_END (R332). -/
  | operationEnd (op : Nat)
  /-- NOP (R342). -/
  | nop (berth : BerthId) (slot : Fin 7)
  /-- OP_STATUS (R333). -/
  | opStatus (berth : BerthId) (slot : Fin 7)
  /-- OP_CANCEL (R334). -/
  | opCancel (berth : BerthId) (slot : Fin 7)
  /-- OP_FORCE (R334). -/
  | opForce (berth : BerthId) (slot : Fin 7)
  /-- BERTH_INFO (R342). -/
  | berthInfo (berth : BerthId) (slot : Fin 7)
  /-- HELM_STATUS (R320). -/
  | helmStatus (berth : BerthId) (slot : Fin 7)
  /-- FW_UPDATE (R322). -/
  | fwUpdate (berth : BerthId) (slot : Fin 7) (image : FwImage)
  /-- FM_DESIGNATE (R339). -/
  | fmDesignate (berth : BerthId) (slot : Fin 7)
  /-- ATTEST (R418). -/
  | attest (berth : BerthId) (slot : Fin 7)
  /-- CERT_CHAIN (R417). -/
  | certChain (berth : BerthId) (slot : Fin 7)
  /-- MEASURE_EXTEND (R419). -/
  | measureExtend (berth : BerthId) (slot : Fin 7)
  /-- BARN_PEERS (R430). -/
  | barnPeers (berth : BerthId) (slot : Fin 7)
  /-- KEY_IMPORT (R419). -/
  | keyImport (berth : BerthId) (slot : Fin 7)
  /-- SVN_ADVANCE (R413). -/
  | svnAdvance (berth : BerthId) (slot : Fin 7)
  /-- PEER_MIN_SVN (R422). -/
  | peerMinSvn (berth : BerthId) (slot : Fin 7)
  /-- BARN_CREATE (R426). -/
  | barnCreate (berth : BerthId) (slot : Fin 7)
  /-- BARN_DESTROY (R429). -/
  | barnDestroy (berth : BerthId) (slot : Fin 7)
  /-- BARN_CLUSTERS (R428). -/
  | barnClusters (berth : BerthId) (slot : Fin 7)
  /-- GRANULE_ASSIGN (R262). -/
  | granuleAssign (berth : BerthId) (slot : Fin 7)
  /-- GRANULE_RELEASE (R261). -/
  | granuleRelease (berth : BerthId) (slot : Fin 7)
  /-- QUEUE_ASSIGN (R426). -/
  | queueAssign (berth : BerthId) (slot : Fin 7)
  /-- BARN_LIMITS (R426). -/
  | barnLimits (berth : BerthId) (slot : Fin 7)
  /-- BARN_RESET (R378). -/
  | barnReset (berth : BerthId) (slot : Fin 7)
  /-- BARN_INFO (R426). -/
  | barnInfo (berth : BerthId) (slot : Fin 7)
  /-- TAG_READ (R433). -/
  | tagRead (berth : BerthId) (slot : Fin 7)
  /-- TAG_WRITE (R433). -/
  | tagWrite (berth : BerthId) (slot : Fin 7)
  /-- RELEASE (R114). -/
  | release (berth : BerthId) (slot : Fin 7)
  /-- THREAD0 (R118). -/
  | thread0 (berth : BerthId) (slot : Fin 7)
  /-- PHASE_LOAD (R341). -/
  | phaseLoad (berth : BerthId) (slot : Fin 7)
  /-- PHASE_VALIDATION_COMPLETE (R138). -/
  | phaseValidationComplete (op : Nat)
  /-- PATHSET_LOAD (R177). -/
  | pathsetLoad (berth : BerthId) (slot : Fin 7)
  /-- PATHSET_DROP (R177). -/
  | pathsetDrop (berth : BerthId) (slot : Fin 7)
  /-- COURSE_LOAD (R218). -/
  | courseLoad (berth : BerthId) (slot : Fin 7)
  /-- PLAN_UPLOAD (R272). -/
  | planUpload (berth : BerthId) (slot : Fin 7) (host : List Byte)
  /-- PORT_RELEASE (R273). -/
  | portRelease (berth : BerthId) (slot : Fin 7)
  /-- SIGHTING (R292). -/
  | sighting (berth : BerthId) (slot : Fin 7)
  /-- HARVEST (R238). -/
  | harvest (berth : BerthId) (slot : Fin 7)
  /-- PAIR_LOAD (R300). -/
  | pairLoad (berth : BerthId) (slot : Fin 7)
  /-- PAIR_STATUS (R309). -/
  | pairStatus (berth : BerthId) (slot : Fin 7)
  /-- TWIN_SET (R311). -/
  | twinSet (berth : BerthId) (slot : Fin 7)
  /-- FABRIC_CONFIG (R222). -/
  | fabricConfig (berth : BerthId) (slot : Fin 7)
  /-- MODULE_RELEASE (R187). -/
  | moduleRelease (berth : BerthId) (slot : Fin 7) (trims : List (BitVec 32 × Byte))
  /-- MODULE_ADMIT (R187). -/
  | moduleAdmit (berth : BerthId) (slot : Fin 7) (serial : Option (BitVec 128)) (closed : Bool) (trims : List (BitVec 32 × Byte))
  /-- CAL_REQUEST (R203). -/
  | calRequest (berth : BerthId) (slot : Fin 7)
  /-- CAL_SAVE (R209). -/
  | calSave (berth : BerthId) (slot : Fin 7)
  /-- CAL_RESTORE (R210). -/
  | calRestore (berth : BerthId) (slot : Fin 7) (image : List (BitVec 8))
  /-- STANDBY_TEST (R313). -/
  | standbyTest (berth : BerthId) (slot : Fin 7)
  /-- STANDBY_TEST_COMPLETE (R313). -/
  | standbyTestComplete (op : Nat) (cores : List CoreId) (granules : List GranuleId) (links : List LinkId) (ports : List PortId) (modules : List ModuleId)
  /-- FLOORPLAN_READ (R372). -/
  | floorplanRead (berth : BerthId) (slot : Fin 7)
  /-- GLEANER_READ (R449). -/
  | gleanerRead (berth : BerthId) (slot : Fin 7)
  /-- GLEANER_ACK (R446). -/
  | gleanerAck (berth : BerthId) (slot : Fin 7)
  /-- COUNT_CONFIG (R441). -/
  | countConfig (berth : BerthId) (slot : Fin 7)
  /-- COUNT_READ (R449). -/
  | countRead (berth : BerthId) (slot : Fin 7)
  /-- THERMAL_READ (R449). -/
  | thermalRead (berth : BerthId) (slot : Fin 7)
  /-- TIME_CONFIG (R399). -/
  | timeConfig (berth : BerthId) (slot : Fin 7)
  /-- METER_CONFIG (R407). -/
  | meterConfig (berth : BerthId) (slot : Fin 7)
  /-- METER_READ (R407). -/
  | meterRead (berth : BerthId) (slot : Fin 7)
  /-- FAULT_INJECT (R451). -/
  | faultInject (berth : BerthId) (slot : Fin 7)
  /-- REGISTER_WRITE (R344). -/
  | registerWrite (fn : FnId) (off : Fin 1048576) (bytes : List Byte)
  /-- REGISTER_LOW_HALF_READ (R345). -/
  | registerLowHalfRead (fn : FnId) (off : Fin 1048576)
  /-- APERTURE_READ (R353). -/
  | apertureRead (fn : FnId) (off : Fin 268435456) (len : Fin 4097)
  /-- APERTURE_WRITE (R352). -/
  | apertureWrite (fn : FnId) (off : Fin 268435456) (bytes : List Byte)
  /-- FUNCTION_LEVEL_RESET (R348). -/
  | functionLevelReset (fn : FnId)
  /-- BU_GO (R356). -/
  | buGo (v : BitVec 32)
  /-- BU_ACCEPT (R356). -/
  | buAccept (v : BitVec 32)
  /-- BU_ABORT (R356). -/
  | buAbort (v : BitVec 32)
  /-- STANDBY_DOMAIN_SELF_CHECK (R366). -/
  | standbyDomainSelfCheck (railBad : Bool) (refBad : Bool) (rcal : BitVec 32) (aBad : Bool) (bBad : Bool)
  /-- FIRMWARE_AUTHENTICATION (R475). -/
  | firmwareAuthentication (host : Option FwImage)
  /-- VIN48_SOFT_START (R465). -/
  | vin48SoftStart (vinOk : Bool) (converterBad : Bool) (regulators : List ClusterId)
  /-- CLOCK_DISTRIBUTION (R389). -/
  | clockDistribution (pllLost : Bool) (generators : List ClusterId) (crossings : List (DieId × Fin 192))
  /-- LIGHT_CALIBRATION (R366). -/
  | lightCalibration (fit : List (ModuleId × BitVec 128)) (opened : List (Fin 4)) (abandoned : Bool) (unlocked : Bool) (trims : List (BitVec 32 × Byte))
  /-- CAL_IMAGE_WAIT_TIMEOUT (R368). -/
  | calImageWaitTimeout
  /-- DIE_BRINGUP (R366). -/
  | dieBringup (cores : List CoreId) (regulators : List ClusterId) (links : List (Fin 32768)) (fuseBad : List DieId)
  /-- HBM_BRINGUP (R366). -/
  | hbmBringup (stackBad : Bool) (repairBad : Bool) (retired : List GranuleId)
  /-- IN_PACKAGE_LINK_TRAINING (R366). -/
  | inPackageLinkTraining (trained : List (LinkId × BitVec 16 × BitVec 16))
  /-- EDGE_TRAINING_SIGHTING (R296). -/
  | edgeTrainingSighting
  /-- READY (R377). -/
  | ready
  /-- CORE_RESET (R379). -/
  | coreReset (core : CoreId)
  /-- CLUSTER_RESET (R379). -/
  | clusterReset (cluster : ClusterId)
  /-- ORPHAN_TAG_TIMEOUT (R380). -/
  | orphanTagTimeout (gateway : ClusterId) (who : Nat) (tag : BitVec 12)
  /-- PACKAGE_RESET (R384). -/
  | packageReset
  /-- PERST_ASSERT (R473). -/
  | perstAssert
  /-- REFCLK_FAULT (R388). -/
  | refclkFault
  /-- PPS_EDGE (R395). -/
  | ppsEdge (sub : Fin 20)
  /-- TIME_EXCH_PERIOD (R396). -/
  | timeExchPeriod
  /-- ALMANAC_SET (R362). -/
  | almanacSet (v : BitVec 32)
  /-- METER_BOUNDARY (R404). -/
  | meterBoundary
  /-- IND_DATA_READ (R363). -/
  | indDataRead (eight : Bool)
  /-- IND_DATA_WRITE (R363). -/
  | indDataWrite (v : BitVec 64) (eight : Bool)
  /-- FAULT_ACK (R359). -/
  | faultAck (cls : Fin 4)
  /-- FAULT_N_PULSE_END (R359). -/
  | faultNPulseEnd
  /-- FAULT_REPORT (R434). -/
  | faultReport
  /-- COUNT_WINDOW_END (R442). -/
  | countWindowEnd (kind : BitVec 16) (unit : Nat)
  /-- FAULT_NOTICE_POST (R447). -/
  | faultNoticePost
  /-- GOVERNOR_TICK (R457). -/
  | governorTick (die : DieId)
  /-- RNG_HEALTH_FAILURE (R416). -/
  | rngHealthFailure
  /-- VAUX_POWER_ON (R468). -/
  | vauxPowerOn (vbat : Bool)
  /-- STRAP_SAMPLE (R478). -/
  | strapSample (testmode : Bool) (sris : Bool) (i3cAddr : Fin 4)
  /-- VAUX_LOSS (R468). -/
  | vauxLoss
  /-- VIN48_LOSS (R467). -/
  | vin48Loss
  /-- VIN48_DISCHARGE_END (R466). -/
  | vin48DischargeEnd
  /-- INTERLOCK_OPEN (R483). -/
  | interlockOpen (block : Fin 4) (trims : List (BitVec 32 × Byte))
  /-- VBAT_LOSS (R401). -/
  | vbatLoss
  /-- PERST_RELEASE (R470). -/
  | perstRelease
  /-- FW_UPDATE_SPLIT (R322). -/
  | fwUpdateSplit
  /-- VF_ENABLE_CHANGE (R348). -/
  | vfEnableChange (en : Bool) (num : Fin 256)
  deriving DecidableEq, Repr

end Sys2Proof
end

