-- ==== Sys2Proof/Decode.lean ====
section
/-! DEFINITION. Commands as words. spec/opcode_table.json gives no row any bits: the commands of the block are happenings at
its units, at its registers and in its berths, so no word spells one (log 10). A core's instruction words stand in its instruction store and are read by
Machine/Insn.lean (log 13). -/
namespace Sys2Proof

/-- The command that a word spells by the table's bits: none, for no row gives any. -/
def decodeTableWord (_nbits _w : Nat) : Option Instr := none

end Sys2Proof
end

