-- ==== Sys2Proof/Config.lean ====
section
/-! DEFINITION. What the spec leaves open: uninterpreted constants that no proof can see into (log 4, log 10). -/
namespace Sys2Proof.Config

/-- The free value drawn at a count of the model's own counter (log 4). -/
opaque freeValue : Nat → Nat
/-- Which of several vector registers that a thread does not hold FADDR names (spec/04 Table 4-13). -/
opaque missingRegister : List Nat → Nat
/-- The DETAIL code of a reason for which a command refuses, where the spec gives the reason and no code: by opcode and the reason's place in
the rule (spec/13 Table 13-8, log 10). -/
opaque reasonCode : Nat → Nat → Nat
/-- DETAIL of a fault record whose detecting rule names none: by kind, unit and time (spec/18 Table 18-1, log 26). -/
opaque faultDetail : Nat → Nat → Nat → Nat
/-- SHA-384 (spec/17 R410, R419), uninterpreted (log 10). -/
opaque sha384 : List Byte → BitVec 384
/-- The 48-byte tag of a calibration image under the package's calibration key (spec/08 Table 8-8), uninterpreted. -/
opaque calTag : List Byte → BitVec 384
/-- The hybrid signature by the alias key (spec/17 R410), 4,723 bytes, uninterpreted. -/
opaque aliasSign : List Byte → List Byte
/-- The device certificate and the alias certificate of a firmware digest (spec/17 Table 17-3), uninterpreted. -/
opaque deviceCert : List Byte
opaque aliasCert : BitVec 384 → List Byte
/-- SHA-384 of the import key of a barn at its key epoch, and the secret that a ciphertext decapsulates to (spec/17 R418, R419). -/
opaque importKey : Nat → Nat → BitVec 384
opaque decapsulate : Nat → Nat → List Byte → List Byte
/-- Whether a fused multiply-add of infinity times zero with a NaN addend raises NV, which IEEE 754-2019 leaves to the implementation
(spec/02 R57, spec/04 R92, log 36). -/
opaque fmaZeroInfNan : Bool
/-- The default anchor of a lead MAC word whose operands are BF16, FP16 or FP32, which has no row in Table 2-3 (spec/02 R37, log 36). -/
opaque windowedAnchor : Int
/-- AES-256-XTS (IEEE 1619) of a line under a key pair and a tweak, and the key pair of a granule at its key epoch (spec/10 R264), uninterpreted. -/
opaque aesXts : Nat → Nat → List (BitVec 8) → List (BitVec 8)
opaque granuleKey : Nat → Nat → Nat
/-- AES-256-GCM of a superframe (spec/11 R280, spec/17 R420, R421), uninterpreted: a payload by port, key generation, superframe and place; the 128-bit
tag of a superframe's ECTL values and payloads; a key exchange message by port, MTYPE and key generation. -/
opaque edgeCipher : Nat → Nat → Nat → Nat → List (BitVec 8) → List (BitVec 8)
opaque edgeTag : Nat → Nat → Nat → List (Nat × List (BitVec 8)) → Nat
opaque keyMessage : Nat → Nat → Nat → List (BitVec 8)
/-- The SEED of a sender's training frames (spec/08 Table 8-6a); 0 stands for 1. -/
opaque trainSeed : Nat → Nat
/-- The zone of a ring (spec/08 R192): the spec places rings by nearness and gives no map. -/
opaque ringZone : Nat → Nat
/-- The neighbours of a temperature sensor (spec/08 R197): the spec gives no map. -/
opaque sensorNeighbours : Nat → List Nat
/-- The factory table point of a zone, a ring kind and a point number from 0 (20 °C) to 40 (100 °C) (spec/08 R193). -/
opaque factoryPoint : Nat → Nat → Nat → Int
/-- Whether a quotient that is no whole number is rounded up: a heater code from 1/32 code (spec/08 R193), a temperature in 0.1 °C from 1/16 °C
(R194, Table 8-8), a mean of temperatures (R197). The spec gives no rounding (log 10). -/
opaque heaterUp : Int → Bool
opaque tenthsUp : Int → Bool
opaque meanUp : Int → Nat → Bool

end Sys2Proof.Config
end

