-- ==== Sys2Proof/Machine/Table.lean ====
section
/-! DEFINITION. Sparse tables, byte memories, bit fields, byte order and check codes: the named operations that
every other file builds on. -/
namespace Sys2Proof

/-- The value a table holds at key `k`; `d` is what an unlisted key reads as. -/
def tget {β : Type} (d : β) : Map β → Nat → β
  | [], _ => d
  | (j, v) :: m, k => if j = k then v else tget d m k

/-- A table with the entry of `k` removed. -/
def tdel {β : Type} : Map β → Nat → Map β
  | [], _ => []
  | (j, v) :: m, k => if j = k then tdel m k else (j, v) :: tdel m k

/-- A table with key `k` listed with `v`. -/
def tput {β : Type} : Map β → Nat → β → Map β
  | [], k, v => [(k, v)]
  | (j, w) :: m, k, v => if k < j then (k, v) :: (j, w) :: m else if j = k then (k, v) :: m else (j, w) :: tput m k v

/-- Writing `v` at `k`: writing what an unlisted key reads as removes the entry, so equal tables are equal data. -/
def tset {β : Type} [DecidableEq β] (d : β) (m : Map β) (k : Nat) (v : β) : Map β :=
  if v = d then tdel m k else tput m k v

/-- Keys strictly rising, every key at least `lo`, no listed value equal to the default. -/
def twfFrom {β : Type} [DecidableEq β] (d : β) : Nat → Map β → Bool
  | _, [] => true
  | lo, (j, v) :: m => decide (lo ≤ j) && decide (v ≠ d) && twfFrom d (j + 1) m

/-- The canonical form of a table. -/
def twf {β : Type} [DecidableEq β] (d : β) (m : Map β) : Bool := twfFrom d 0 m

/-- The keys a table lists. -/
def tkeys {β : Type} (m : Map β) : List Nat := m.map (·.1)

/-! Byte memories: an unlisted byte reads zero. -/

def memGet (m : Mem) (a : Nat) : Byte := tget 0 m a
def memSet (m : Mem) (a : Nat) (v : Byte) : Mem := tset 0 m a v
/-- The canonical form of a byte memory. -/
def memWf (m : Mem) : Bool := twf (0 : Byte) m
/-- `n` bytes from address `a`, in increasing address. -/
def memRead (m : Mem) (a n : Nat) : List Byte := (List.range n).map fun i => memGet m (a + i)
/-- Writing bytes from address `a` upward. -/
def memWrite (m : Mem) (a : Nat) : List Byte → Mem
  | [] => m
  | b :: bs => memWrite (memSet m a b) (a + 1) bs
/-- Zeroing a range: the cells at `a` to `a + n - 1` are unlisted. -/
def memClear (m : Mem) (a n : Nat) : Mem := m.filter fun c => decide (c.1 < a) || decide (a + n ≤ c.1)

/-! Bits and bytes (R10, R11). -/

/-- The `w` bits of `x` from bit `lo` upward, as a number. -/
def bitsAt (x lo w : Nat) : Nat := (x >>> lo) % 2 ^ w
/-- Bit `i` of `x`. -/
def bitAt (x i : Nat) : Bool := x.testBit i
/-- A number of `w` bits read as two's complement. -/
def signedOf (w x : Nat) : Int := if 2 ^ (w - 1) ≤ x % 2 ^ w then ((x % 2 ^ w : Nat) : Int) - ((2 ^ w : Nat) : Int) else ((x % 2 ^ w : Nat) : Int)
/-- Two's complement of `w` bits, as a number. -/
def wrapTo (w : Nat) (i : Int) : Nat := (i % ((2 ^ w : Nat) : Int)).toNat
/-- `x` with the `w` bits from `lo` replaced by `v`. -/
def putBits (x lo w v : Nat) : Nat := x - (bitsAt x lo w) * 2 ^ lo + (v % 2 ^ w) * 2 ^ lo
/-- The number that bytes spell, least significant byte first (R11). -/
def leVal : List Byte → Nat
  | [] => 0
  | b :: bs => b.toNat + 256 * leVal bs
/-- `n` bytes of `x`, least significant byte first (R11). -/
def leBytes : Nat → Nat → List Byte
  | 0, _ => []
  | n + 1, x => BitVec.ofNat 8 x :: leBytes n (x / 256)
/-- A list cut or padded with zero bytes to length `n`. -/
def padTo (n : Nat) (l : List Byte) : List Byte := (l ++ List.replicate (n - l.length) 0).take n
def boolNat (b : Bool) : Nat := if b then 1 else 0
/-- Fields laid from bit 0 upward: a list of widths and values. -/
def packFields : List (Nat × Nat) → Nat
  | [] => 0
  | (w, v) :: fs => v % 2 ^ w + 2 ^ w * packFields fs
/-- The numbers of the bits set in `x` below `n`. -/
def bitsSet (n x : Nat) : List Nat := (List.range n).filter fun i => bitAt x i
/-- ceil(a / b). -/
def ceilDiv (a b : Nat) : Nat := (a + b - 1) / b
/-- ceil(log2 n), 0 for n ≤ 1. -/
def clog2 (n : Nat) : Nat := if n ≤ 1 then 0 else Nat.log2 (n - 1) + 1
/-- The list with element `i` replaced. -/
def listSet {α : Type} : List α → Nat → α → List α
  | [], _, _ => []
  | _ :: l, 0, v => v :: l
  | x :: l, i + 1, v => x :: listSet l i v
/-- The list with its first element equal to `x` removed. -/
def removeFirst {α : Type} [DecidableEq α] (x : α) : List α → List α
  | [] => []
  | y :: l => if y = x then l else y :: removeFirst x l
/-- The last `n` elements. -/
def lastN {α : Type} (n : Nat) (l : List α) : List α := l.drop (l.length - n)
/-- Saturating addition. -/
def satAdd (lim a b : Nat) : Nat := min lim (a + b)

/-! Check codes. CRC32C is the Castagnoli code (reflected, initial value and final complement all ones); the
packet header check is the CRC-16 of R213. -/

def crc32cBits : Nat → BitVec 32 → BitVec 32
  | 0, c => c
  | n + 1, c => crc32cBits n (if c.getLsbD 0 then (c >>> 1) ^^^ 0x82F63B78#32 else c >>> 1)
def crc32cFold : BitVec 32 → List Byte → BitVec 32
  | c, [] => c
  | c, b :: bs => crc32cFold (crc32cBits 8 (c ^^^ b.setWidth 32)) bs
def crc32c (bs : List Byte) : BitVec 32 := ~~~ crc32cFold (BitVec.allOnes 32) bs

def crc16Bits : Nat → BitVec 16 → BitVec 16
  | 0, c => c
  | n + 1, c => crc16Bits n (if c.getLsbD 15 then (c <<< 1) ^^^ 0x1021#16 else c <<< 1)
def crc16Fold : BitVec 16 → List Byte → BitVec 16
  | c, [] => c
  | c, b :: bs => crc16Fold (crc16Bits 8 (c ^^^ ((b.setWidth 16) <<< 8))) bs
/-- R213: polynomial x^16 + x^12 + x^5 + 1, initial value 0xFFFF, unreflected. -/
def crc16 (bs : List Byte) : BitVec 16 := crc16Fold 0xFFFF#16 bs

end Sys2Proof
end

