-- ==== Sys2Proof/Machine/Float.lean ====
section
/-! DEFINITION. Number formats, exact values, rounding and conversion (spec/02_arithmetic.md, R30 to R34, R43 to
R47, R57). Every operation computes an exact value and rounds it once. -/
namespace Sys2Proof

/-- The value classes of R30: NaN, infinity with its sign, and a finite (-1)^neg × m × 2^e. -/
inductive FVal where
  | nan
  | inf (neg : Bool)
  | fin (neg : Bool) (m : Nat) (e : Int)
  deriving DecidableEq, Repr

/-- How a format spends its top encodings (Table 2-1). -/
inductive FKind where
  | ieee        -- exponent all ones: infinity (f = 0) or NaN
  | nanOnly     -- E4M3: only the all-ones encoding is NaN, no infinity
  | finite      -- FP6, FP4: every encoding is finite
  deriving DecidableEq, Repr

/-- One row of Table 2-1. -/
structure FFmt where
  ebits : Nat
  fbits : Nat
  bias : Nat
  kind : FKind
  deriving DecidableEq, Repr

def fmtFP64 : FFmt := ⟨11, 52, 1023, .ieee⟩
def fmtFP32 : FFmt := ⟨8, 23, 127, .ieee⟩
def fmtBF16 : FFmt := ⟨8, 7, 127, .ieee⟩
def fmtFP16 : FFmt := ⟨5, 10, 15, .ieee⟩
def fmtE4M3 : FFmt := ⟨4, 3, 7, .nanOnly⟩
def fmtE5M2 : FFmt := ⟨5, 2, 15, .ieee⟩
def fmtE3M2 : FFmt := ⟨3, 2, 3, .finite⟩
def fmtE2M3 : FFmt := ⟨2, 3, 1, .finite⟩
def fmtE2M1 : FFmt := ⟨2, 1, 1, .finite⟩

/-- The width of a format in bits. -/
def FFmt.width (f : FFmt) : Nat := 1 + f.ebits + f.fbits

/-- R30: the value of an encoding. -/
def fdecode (f : FFmt) (x : Nat) : FVal :=
  let frac := bitsAt x 0 f.fbits
  let ex := bitsAt x f.fbits f.ebits
  let neg := bitAt x (f.fbits + f.ebits)
  let top := 2 ^ f.ebits - 1
  if f.kind = .ieee ∧ ex = top then (if frac = 0 then .inf neg else .nan)
  else if f.kind = .nanOnly ∧ ex = top ∧ frac = 2 ^ f.fbits - 1 then .nan
  else if ex = 0 then .fin neg frac (1 - (f.bias : Int) - f.fbits)
  else .fin neg (2 ^ f.fbits + frac) ((ex : Int) - f.bias - f.fbits)

/-- Canonical NaN (Table 2-1), sign 0 (R32). The FP6 and FP4 formats have none; a NaN never reaches them (R45). -/
def fnan (f : FFmt) : Nat :=
  match f.kind with
  | .ieee => (2 ^ f.ebits - 1) * 2 ^ f.fbits + 2 ^ (f.fbits - 1)
  | .nanOnly => 2 ^ (f.ebits + f.fbits) - 1
  | .finite => 0
/-- Largest finite magnitude's encoding. -/
def fmaxEnc (f : FFmt) : Nat :=
  match f.kind with
  | .ieee => (2 ^ f.ebits - 1) * 2 ^ f.fbits - 1
  | .nanOnly => 2 ^ (f.ebits + f.fbits) - 2
  | .finite => 2 ^ (f.ebits + f.fbits) - 1
def fsign (f : FFmt) (neg : Bool) (x : Nat) : Nat := x + boolNat neg * 2 ^ (f.ebits + f.fbits)
def finf (f : FFmt) (neg : Bool) : Nat := fsign f neg ((2 ^ f.ebits - 1) * 2 ^ f.fbits)

/-- Rounding modes (Table 2-6). -/
inductive RMode where
  | rne | rtz | sr | rup | rdn
  deriving DecidableEq, Repr

/-- FPFLAGS events (Table 4-5). -/
structure FFlags where
  nv : Bool := false
  dz : Bool := false
  ovf : Bool := false
  unf : Bool := false
  nx : Bool := false
  deriving DecidableEq, Repr

def FFlags.or (a b : FFlags) : FFlags := ⟨a.nv || b.nv, a.dz || b.dz, a.ovf || b.ovf, a.unf || b.unf, a.nx || b.nx⟩
/-- The flags in their places of Table 4-5. -/
def FFlags.bits (a : FFlags) : Nat := boolNat a.nv + 2 * boolNat a.dz + 4 * boolNat a.ovf + 8 * boolNat a.unf + 16 * boolNat a.nx

/-- Whether a magnitude with integer part `sig` and discarded part rem/2^sh rounds up; `r` is the random word of
R46, used by SR alone (R47: F = floor(D × 2^32), up when F + R ≥ 2^32). -/
def roundsUp (mode : RMode) (neg : Bool) (r sig rem sh : Nat) : Bool :=
  match mode with
  | .rne => decide (2 ^ sh < 2 * rem) || (decide (2 * rem = 2 ^ sh) && decide (sig % 2 = 1))
  | .rtz => false
  | .sr => decide (2 ^ 32 ≤ rem * 2 ^ 32 / 2 ^ sh + r)
  | .rup => !neg && decide (rem ≠ 0)
  | .rdn => neg && decide (rem ≠ 0)

/-- A magnitude m × 2^e rounded to a multiple of 2^q: the multiple, and whether it is inexact. -/
def roundGrid (mode : RMode) (neg : Bool) (r m : Nat) (e q : Int) : Nat × Bool :=
  if q ≤ e then (m * 2 ^ (e - q).toNat, false)
  else
    let sh := (q - e).toNat
    let sig := m / 2 ^ sh
    let rem := m % 2 ^ sh
    (sig + boolNat (roundsUp mode neg r sig rem sh), decide (rem ≠ 0))

/-- floor(log2) of a nonzero magnitude m × 2^e. -/
def flog2 (m : Nat) (e : Int) : Int := (Nat.log2 m : Int) + e

/-- The encoding of sig × 2^q in a format, q at least the subnormal grid, sig at most 2^(fbits+1). Answers the
biased exponent and fraction as one number, unbounded above. -/
def fpackMag (f : FFmt) (sig : Nat) (q : Int) : Nat :=
  let qmin : Int := 1 - (f.bias : Int) - f.fbits
  if sig < 2 ^ f.fbits then sig
  else (q - qmin).toNat * 2 ^ f.fbits + sig

/-- R43, R44: a finite value rounded to a format, with its flags. `sat` is the SAT bit; `satAlways` is set for MX
elements. -/
def froundFin (f : FFmt) (mode : RMode) (sat satAlways : Bool) (r : Nat) (neg : Bool) (m : Nat) (e : Int) : Nat × FFlags :=
  if m = 0 then (fsign f neg 0, FFlags.mk false false false false false)
  else
    let emin : Int := 1 - (f.bias : Int)
    let lg := flog2 m e
    let q := max lg emin - f.fbits
    let (sig, inex) := roundGrid mode neg r m e q
    let enc := fpackMag f sig q
    if fmaxEnc f < enc then
      let res :=
        if satAlways then fsign f neg (fmaxEnc f)
        else match f.kind with
          | .nanOnly => if sat then fsign f neg (fmaxEnc f) else fnan f
          | .finite => fsign f neg (fmaxEnc f)
          | .ieee =>
            if sat then fsign f neg (fmaxEnc f)
            else match mode with
              | .rne => finf f neg
              | .sr => finf f neg
              | .rtz => fsign f neg (fmaxEnc f)
              | .rup => if neg then fsign f neg (fmaxEnc f) else finf f neg
              | .rdn => if neg then finf f neg else fsign f neg (fmaxEnc f)
      (res, FFlags.mk false false true false true)
    else
      -- R92: tiny is judged after rounding, with the exponent unbounded
      let tiny := decide (lg < emin) && (
        let (s1, _) := roundGrid mode neg r m e (lg - f.fbits)
        decide (flog2 s1 (lg - f.fbits) < emin))
      (fsign f neg enc, FFlags.mk false false false (tiny && inex) inex)

/-- R44, R489: any value converted to a floating-point format. -/
def fround (f : FFmt) (mode : RMode) (sat : Bool) (r : Nat) (v : FVal) : Nat × FFlags :=
  match v with
  | .nan => (fnan f, FFlags.mk false false false false false)
  | .inf neg =>
    match f.kind with
    | .ieee => (finf f neg, FFlags.mk false false false false false)
    | _ => (if sat then fsign f neg (fmaxEnc f) else fnan f, FFlags.mk true false false false false)
  | .fin neg m e => froundFin f mode sat false r neg m e

/-- R44, R489: any value converted to a two's complement integer of `w` bits. -/
def froundInt (w : Nat) (mode : RMode) (v : FVal) : Nat × FFlags :=
  let lim (neg : Bool) : Nat := if neg then 2 ^ (w - 1) else 2 ^ (w - 1) - 1
  match v with
  | .nan => (0, FFlags.mk true false false false false)
  | .inf neg => (lim neg, FFlags.mk true false false false false)
  | .fin neg m e =>
    let (n, inex) := roundGrid mode neg 0 m e 0
    if lim neg < n then (lim neg, FFlags.mk true false false false false)
    else (if neg then wrapTo w (-(n : Int)) else n, FFlags.mk false false false false inex)

/-! Exact arithmetic. -/

/-- An exact signed value i × 2^e; zero takes the sign given. -/
def fofInt (zneg : Bool) (i e : Int) : FVal :=
  if i = 0 then .fin zneg 0 0 else .fin (decide (i < 0)) i.natAbs e
def fnum (neg : Bool) (m : Nat) : Int := if neg then -(m : Int) else m

/-- Exact sum; an exact zero from nonzero operands or opposite zeros is +0, or −0 under RDN (IEEE 754-2019). -/
def faddX (mode : RMode) (a b : FVal) : FVal × FFlags :=
  match a, b with
  | .nan, _ => (.nan, {})
  | _, .nan => (.nan, {})
  | .inf s, .inf t => if s = t then (.inf s, {}) else (.nan, { nv := true })
  | .inf s, _ => (.inf s, {})
  | _, .inf t => (.inf t, {})
  | .fin s m e, .fin t n g =>
    let q := min e g
    let i := fnum s m * ((2 ^ (e - q).toNat : Nat) : Int) + fnum t n * ((2 ^ (g - q).toNat : Nat) : Int)
    let zneg := if m = 0 ∧ n = 0 then (if s = t then s else decide (mode = .rdn)) else decide (mode = .rdn)
    (fofInt zneg i q, {})

def fneg : FVal → FVal
  | .nan => .nan
  | .inf s => .inf (!s)
  | .fin s m e => .fin (!s) m e

/-- Exact product. -/
def fmulX (a b : FVal) : FVal × FFlags :=
  match a, b with
  | .nan, _ => (.nan, {})
  | _, .nan => (.nan, {})
  | .inf s, .inf t => (.inf (s != t), {})
  | .inf s, .fin t n _ => if n = 0 then (.nan, { nv := true }) else (.inf (s != t), {})
  | .fin s m _, .inf t => if m = 0 then (.nan, { nv := true }) else (.inf (s != t), {})
  | .fin s m e, .fin t n g => (.fin (s != t) (m * n) (e + g), {})

/-- a × b + c, exact (R57: a fused multiply-add rounds once). With a NaN addend, infinity times zero raises NV or not as
Config.fmaZeroInfNan says: DESIGN CHOICE, the spec is silent (log 36). -/
def ffmaX (mode : RMode) (a b c : FVal) : FVal × FFlags :=
  let p := fmulX a b
  if c = .nan then (.nan, { nv := p.2.nv && Config.fmaZeroInfNan }) else
  let s := faddX mode p.1 c
  (s.1, p.2.or s.2)

/-- Quotient with a sticky last bit: at least 128 quotient bits, so that every rounding of the result to a format
of R57 is the rounding of the exact quotient. -/
def fdivX (a b : FVal) : FVal × FFlags :=
  match a, b with
  | .nan, _ => (.nan, {})
  | _, .nan => (.nan, {})
  | .inf _, .inf _ => (.nan, { nv := true })
  | .inf s, .fin t _ _ => (.inf (s != t), {})
  | .fin s _ _, .inf t => (.fin (s != t) 0 0, {})
  | .fin s m e, .fin t n g =>
    if n = 0 then (if m = 0 then (.nan, { nv := true }) else (.inf (s != t), { dz := true }))
    else if m = 0 then (.fin (s != t) 0 0, {})
    else
      let k := 192 + Nat.log2 n
      let num := m * 2 ^ k
      (.fin (s != t) (2 * (num / n) + boolNat (decide (num % n ≠ 0))) (e - g - k - 1), {})

/-- Integer square root by bits, `k` of them from the top. -/
def isqrtBits : Nat → Nat → Nat → Nat
  | 0, _, r => r
  | k + 1, n, r => let r' := r + 2 ^ k; isqrtBits k n (if r' * r' ≤ n then r' else r)
def isqrt (n : Nat) : Nat := isqrtBits (Nat.log2 n / 2 + 1) n 0

/-- Square root with a sticky last bit. -/
def fsqrtX : FVal → FVal × FFlags
  | .nan => (.nan, {})
  | .inf s => if s then (.nan, { nv := true }) else (.inf false, {})
  | .fin s m e =>
    if m = 0 then (.fin s 0 0, {})
    else if s then (.nan, { nv := true })
    else
      -- scale to an even exponent with at least 128 result bits
      let k : Int := 256 + (e % 2)
      let n := m * 2 ^ k.toNat
      let r := isqrt n
      (.fin false (2 * r + boolNat (decide (r * r ≠ n))) ((e - k) / 2 - 1), {})

/-- a < b on non-NaN values with −0 below +0 (R57). -/
def fltTotal : FVal → FVal → Bool
  | .nan, _ => false
  | _, .nan => false
  | .inf s, .inf t => s && !t
  | .inf s, .fin _ _ _ => s
  | .fin _ _ _, .inf t => !t
  | .fin s m e, .fin t n g =>
    if m = 0 ∧ n = 0 then s && !t
    else
      let q := min e g
      decide (fnum s m * ((2 ^ (e - q).toNat : Nat) : Int) < fnum t n * ((2 ^ (g - q).toNat : Nat) : Int))
/-- R57: minimum and maximum return a number when exactly one operand is a NaN. -/
def fminX (a b : FVal) : FVal :=
  if a = .nan then b else if b = .nan then a else if fltTotal b a then b else a
def fmaxX (a b : FVal) : FVal :=
  if a = .nan then b else if b = .nan then a else if fltTotal a b then b else a

/-! Stochastic rounding (R46): word x0 of Philox4x32-10. -/

def philoxRound (k0 k1 : BitVec 32) (c : BitVec 32 × BitVec 32 × BitVec 32 × BitVec 32) :
    BitVec 32 × BitVec 32 × BitVec 32 × BitVec 32 :=
  let p0 : BitVec 64 := (0xD2511F53#64) * c.1.setWidth 64
  let p1 : BitVec 64 := (0xCD9E8D57#64) * c.2.2.1.setWidth 64
  ((p1 >>> 32).setWidth 32 ^^^ c.2.1 ^^^ k0, p1.setWidth 32, (p0 >>> 32).setWidth 32 ^^^ c.2.2.2 ^^^ k1, p0.setWidth 32)
def philoxRounds : Nat → BitVec 32 → BitVec 32 → (BitVec 32 × BitVec 32 × BitVec 32 × BitVec 32) → BitVec 32
  | 0, _, _, c => c.1
  | n + 1, k0, k1, c => philoxRounds n (k0 + 0x9E3779B9#32) (k1 + 0xBB67AE85#32) (philoxRound k0 k1 c)
/-- The random word of Table 2-8's key and counter. -/
def srWord (seed : BitVec 64) (tag step : BitVec 32) (index : Nat) : Nat :=
  (philoxRounds 10 (seed.setWidth 32) ((seed >>> 32).setWidth 32)
    (BitVec.ofNat 32 index, BitVec.ofNat 32 (bitsAt index 32 16), tag, step)).toNat

/-! MX blocks (R34, R45, R488). -/

/-- emax of Table 2-2. -/
def mxEmax (f : FFmt) : Nat :=
  if f = fmtE4M3 then 8 else if f = fmtE5M2 then 15 else if f = fmtE3M2 then 4 else 2
/-- An element under its block scale: 2^(X − 127) × v; scale 0xFF makes every element NaN. -/
def mxScaled (f : FFmt) (x : Nat) (el : Nat) : FVal :=
  if x = 255 then .nan
  else match fdecode f el with
    | .fin s m e => .fin s m (e + x - 127)
    | v => v
def fvLog (v : FVal) : Option Int :=
  match v with
  | .fin _ m e => if m = 0 then none else some (flog2 m e)
  | _ => none
def maxLog : List FVal → Option Int
  | [] => none
  | v :: l => match fvLog v, maxLog l with
    | some a, some b => some (max a b)
    | some a, none => some a
    | none, x => x
/-- R45: 32 values to a scale and 32 elements; `r i` is the random word of element i. R489 gives the flags. -/
def mxPack (f : FFmt) (mode : RMode) (rs : List Nat) (vs : List FVal) : Nat × List Nat × FFlags :=
  let isInf : FVal → Bool := fun v => match v with | .inf _ => true | _ => false
  if vs.any (fun v => decide (v = .nan) || isInf v) then
    (255, vs.map (fun _ => 0), { nv := vs.any isInf })
  else match maxLog vs with
    | none => (127, vs.map (fun _ => 0), {})
    | some lg =>
      let x : Nat := (max 0 (min 254 (lg - (mxEmax f : Int) + 127))).toNat
      let rs' := (vs.zip rs).map fun (v, r) =>
        match v with
        | .fin s m e => froundFin f mode true true r s m (e + 127 - x)
        | _ => (0, FFlags.mk false false false false false)
      (x, rs'.map (·.1), (rs'.map (·.2)).foldl FFlags.or {})

end Sys2Proof
end

