-- ==== Sys2Proof/Machine/Accum.lean ====
section
/-! DEFINITION. Accumulators and reductions (spec/02_arithmetic.md R35 to R42, R48 to R56; spec/03_core.md R487):
the long accumulator, the windowed accumulator, their records, MX block terms and reduction words. -/
namespace Sys2Proof

/-- The long accumulator (R35, Table 2-4): A × 2^anchor, the special code of R38, the two flags and TERMS. -/
structure LongAcc where
  a : BitVec 64
  anchor : Int
  special : BitVec 2
  winHigh : Bool
  floorRounded : Bool
  terms : Nat
  deriving DecidableEq, Repr

/-- The windowed accumulator (R41, Table 2-5): S × 2^exp. -/
structure WinAcc where
  sum : Int
  exp : Int
  empty : Bool
  special : BitVec 2
  deriving DecidableEq, Repr

/-- What one accumulator entry holds (R487): an empty entry has no kind. -/
inductive AccEntry where
  | empty
  | long (r : LongAcc)
  | win (r : WinAcc)
  deriving DecidableEq, Repr

def LongAcc.new (w : Int) : LongAcc := ⟨0, w, 0, false, false, 0⟩
def WinAcc.new : WinAcc := ⟨0, 0, true, 0⟩

/-- The special code of a term (R38, R41). -/
def specialOf : FVal → BitVec 2
  | .nan => 3
  | .inf neg => if neg then 2 else 1
  | .fin _ _ _ => 0

/-- R35: a term enters the long accumulator; `top` is 43, or 48 for an MX block term; `count` is what it counts
toward TERMS. -/
def LongAcc.enter (r : LongAcc) (t : FVal) (top : Int) (count : Nat) : LongAcc :=
  let r := { r with terms := r.terms + count }
  match t with
  | .fin neg m e =>
    if m = 0 then r
    else if r.anchor + top ≤ flog2 m e then { r with winHigh := true }
    else
      let (n, inex) := roundGrid .rne neg 0 m e r.anchor
      { r with a := r.a + BitVec.ofInt 64 (fnum neg n), floorRounded := r.floorRounded || inex }
  | v => { r with special := r.special ||| specialOf v }

/-- The exact value A × 2^anchor. -/
def LongAcc.value (r : LongAcc) : FVal := fofInt false r.a.toInt r.anchor
/-- The value that special codes make of a result (R38). -/
def specialVal (c : BitVec 2) (v : FVal) : FVal :=
  if c = 3 then .nan else if c = 1 then .inf false else if c = 2 then .inf true else v
/-- R38: the value that conversion rounds. -/
def LongAcc.result (r : LongAcc) : FVal := specialVal r.special (if r.winHigh then .nan else r.value)

/-- R41: the pseudocode, one term. E is an unbounded integer here and wraps to its 10 bits only in the record: DESIGN CHOICE, the spec is
silent on an E that leaves the range of EXP (log 36). -/
def WinAcc.add (r : WinAcc) (t : FVal) : WinAcc :=
  match t with
  | .fin neg m e =>
    if m = 0 then r
    else
      let (s0, e0) : Int × Int := if r.empty then (0, e) else (r.sum, r.exp)
      let q := min e0 e
      let i := s0 * ((2 ^ (e0 - q).toNat : Nat) : Int) + fnum neg m * ((2 ^ (e - q).toNat : Nat) : Int)
      if i = 0 then { r with sum := 0 }
      else
        let lead := flog2 i.natAbs q
        let ex := if r.empty then lead - 40 else max r.exp (lead - 40)
        let (n, _) := roundGrid .rne (decide (i < 0)) 0 i.natAbs q ex
        { r with sum := fnum (decide (i < 0)) n, exp := ex, empty := false }
  | v => { r with special := r.special ||| specialOf v }

def WinAcc.value (r : WinAcc) : FVal := if r.empty then .fin false 0 0 else fofInt false r.sum r.exp
/-- R41: an empty accumulator converts to +0, a nonzero special code as in R38. -/
def WinAcc.result (r : WinAcc) : FVal := specialVal r.special r.value

/-- The value a drain converts, whatever the kind (R487). -/
def AccEntry.result : AccEntry → FVal
  | .empty => .fin false 0 0
  | .long r => r.result
  | .win r => r.result

/-- R487: an entry made ready for terms of the long kind at anchor `w`. -/
def AccEntry.asLong (e : AccEntry) (w : Int) : LongAcc :=
  match e with
  | .empty => .new w
  | .long r =>
    if r.anchor = w then r
    else
      let n : LongAcc := { LongAcc.new w with special := r.special, winHigh := r.winHigh, floorRounded := r.floorRounded }
      n.enter r.value 43 r.terms
  | .win r => ({ LongAcc.new w with special := r.special }).enter r.value 43 1
/-- R487: an entry made ready for terms of the windowed kind. -/
def AccEntry.asWin (e : AccEntry) : WinAcc :=
  match e with
  | .empty => .new
  | .win r => r
  | .long r =>
    let v := if r.winHigh ∧ r.special = 0 then .nan else r.value
    ({ WinAcc.new with special := r.special }).add v

/-- The terms that a MAC step or a block end presents to an entry, with the window top and what each counts (R35). -/
def AccEntry.take (x : AccEntry) (win : Bool) (anchor top : Int) (count : Nat) (ts : List FVal) : AccEntry :=
  if win then .win (ts.foldl WinAcc.add x.asWin)
  else .long (ts.foldl (fun r t => r.enter t top count) (x.asLong anchor))
/-- R38: whether an entry has room for more terms. -/
def AccEntry.room (x : AccEntry) (win : Bool) (anchor : Int) (n : Nat) : Bool :=
  win || decide ((x.asLong anchor).terms + n ≤ 2 ^ 20)
/-- Table 2-4. -/
def LongAcc.record (r : LongAcc) : Nat :=
  packFields [(64, r.a.toNat), (10, wrapTo 10 r.anchor), (2, r.special.toNat), (1, boolNat r.winHigh), (1, boolNat r.floorRounded), (21, r.terms)]
def LongAcc.ofRecord (x : Nat) : LongAcc :=
  ⟨BitVec.ofNat 64 x, signedOf 10 (bitsAt x 64 10), BitVec.ofNat 2 (bitsAt x 74 2), bitAt x 76, bitAt x 77, bitsAt x 78 21⟩
/-- Table 2-5. -/
def WinAcc.record (r : WinAcc) : Nat :=
  packFields [(48, wrapTo 48 r.sum), (10, wrapTo 10 r.exp), (1, boolNat r.empty), (2, r.special.toNat)]
def WinAcc.ofRecord (x : Nat) : WinAcc :=
  ⟨signedOf 48 (bitsAt x 0 48), signedOf 10 (bitsAt x 48 10), bitAt x 58, BitVec.ofNat 2 (bitsAt x 59 2)⟩

/-! MX block sums (R40): the exact sum of finite products and the OR of the special codes. -/

structure MxSum where
  sum : FVal
  special : BitVec 2
  deriving DecidableEq, Repr
def MxSum.zero : MxSum := ⟨.fin false 0 0, 0⟩
/-- One more element product of the block. -/
def MxSum.add (b : MxSum) (x y : FVal) : MxSum :=
  match (fmulX x y).1 with
  | .fin s m e => { b with sum := (faddX .rne b.sum (.fin s m e)).1 }
  | v => { b with special := b.special ||| specialOf v }
/-- The block term S × 2^(Xa + Xb − 254). -/
def MxSum.term (b : MxSum) (xa xb : Nat) : FVal :=
  if xa = 255 ∨ xb = 255 then .nan
  else specialVal b.special (match b.sum with
    | .fin s m e => .fin s m (e + xa + xb - 254)
    | v => v)

/-! FP32 additions of the fast mode (R48). -/

def fadd32 (a b : Nat) : Nat := (fround fmtFP32 .rne false 0 (faddX .rne (fdecode fmtFP32 a) (fdecode fmtFP32 b)).1).1

/-! Reduction words (R49, Table 2-9). -/

structure RedHdr where
  special : BitVec 64
  exp : Nat
  g : Nat
  abort : Bool
  inexact : Bool
  pass : Bool
  count : BitVec 32
  tag : BitVec 16
  deriving DecidableEq, Repr

/-- A reduction word of either pass; `els` is empty in the exponent pass and holds N0 to N31 in the sum pass. -/
structure RedWord where
  hdr : RedHdr
  els : List (BitVec 48)
  deriving DecidableEq, Repr

def RedHdr.bits (h : RedHdr) : Nat :=
  packFields [(64, h.special.toNat), (8, h.exp), (5, h.g), (1, boolNat h.abort), (1, boolNat h.inexact), (1, boolNat h.pass), (32, h.count.toNat), (16, h.tag.toNat)]
def RedHdr.ofBits (x : Nat) : RedHdr :=
  ⟨BitVec.ofNat 64 x, bitsAt x 64 8, bitsAt x 72 5, bitAt x 77, bitAt x 78, bitAt x 79, BitVec.ofNat 32 (bitsAt x 80 32), BitVec.ofNat 16 (bitsAt x 112 16)⟩

def zipAdd : List (BitVec 48) → List (BitVec 48) → List (BitVec 48)
  | a :: l, b :: m => (a + b) :: zipAdd l m
  | [], m => m
  | l, [] => l

/-- R52, Table 2-10: two headers of one pass. Where G, TAG, PASS or a sum pass's EXP differ, ABORT is set and the first operand's stay: DESIGN
CHOICE, the spec names no value for them (log 36). -/
def RedHdr.combine (a b : RedHdr) : RedHdr :=
  { special := a.special ||| b.special
    exp := if a.pass then a.exp else max a.exp b.exp
    g := a.g
    abort := a.abort || b.abort || decide (a.g ≠ b.g) || decide (a.tag ≠ b.tag) || decide (a.pass ≠ b.pass) || (a.pass && decide (a.exp ≠ b.exp))
    inexact := a.inexact || b.inexact
    pass := a.pass
    count := a.count + b.count
    tag := a.tag }
/-- R52, Table 2-10: two words of one pass. -/
def RedWord.combine (a b : RedWord) : RedWord := ⟨a.hdr.combine b.hdr, zipAdd a.els b.els⟩

/-- R50: the guard width of a declared count. -/
def redG (n : Nat) : Nat := max 16 (clog2 n)
/-- R50: q = 47 − G. -/
def redQ (n : Nat) : Nat := 47 - redG n
/-- R50, R51: a value as a contribution: magnitudes of 2^128 or more enter as ±∞. -/
def redClamp (v : FVal) : FVal :=
  match v with
  | .fin s m e => if m ≠ 0 ∧ 128 ≤ flog2 m e then .inf s else v
  | v => v
/-- R51: the candidate exponent of a block. -/
def redCandidate (vs : List FVal) : Nat :=
  match maxLog (vs.map redClamp) with
  | none => 1
  | some lg => (max 1 (lg + 127)).toNat
def specialMap : List FVal → Nat
  | [] => 0
  | v :: l => (specialOf (redClamp v)).toNat + 4 * specialMap l
/-- R53 step 1: the exponent-pass header of one contribution of 32 values. -/
def redExpHdr (n : Nat) (tag : BitVec 16) (count : Nat) (vs : List FVal) : RedHdr :=
  ⟨BitVec.ofNat 64 (specialMap vs), redCandidate vs, redG n, false, false, false, BitVec.ofNat 32 count, tag⟩
/-- R50: one value entered at shared exponent `e`, and whether it was rounded. -/
def redEntry (n e : Nat) (v : FVal) : BitVec 48 × Bool :=
  match redClamp v with
  | .fin s m x =>
    let (k, inex) := roundGrid .rne s 0 m (x + (redQ n : Int) + 126 - e) 0
    (BitVec.ofInt 48 (fnum s k), inex)
  | _ => (0, false)
/-- R53 step 4: the sum-pass word of one contribution at the broadcast exponent; a candidate above it sets ABORT. -/
def redSumWord (n e : Nat) (tag : BitVec 16) (count : Nat) (vs : List FVal) : RedWord :=
  let es := vs.map (redEntry n e)
  ⟨⟨BitVec.ofNat 64 (specialMap vs), e, redG n, decide (e < redCandidate vs), es.any (·.2), true, BitVec.ofNat 32 count, tag⟩, es.map (·.1)⟩
/-- R54: element i of a finished word, rounded once with RNE. -/
def redResult (f : FFmt) (n e : Nat) (code : BitVec 2) (x : BitVec 48) : Nat :=
  (fround f .rne false 0 (specialVal code (fofInt false x.toInt ((e : Int) - 126 - redQ n)))).1
def codeOf (h : RedHdr) (i : Nat) : BitVec 2 := BitVec.ofNat 2 (bitsAt h.special.toNat (2 * i) 2)
/-- R54 over a whole word. -/
def redFinish (f : FFmt) (n : Nat) (w : RedWord) : List Nat :=
  (List.range w.els.length).map fun i => redResult f n w.hdr.exp (codeOf w.hdr i) (w.els.getD i 0)
/-- R53 step 3 and R55: the root's checks on an exponent-pass header. -/
def redExpOk (n : Nat) (h : RedHdr) : Bool := !h.abort && decide (h.count = BitVec.ofNat 32 n)
/-- R53 step 6 and R55: the root's checks on the sum-pass word against the broadcast header. -/
def redSumOk (n : Nat) (broadcast : RedHdr) (w : RedWord) : Bool :=
  !w.hdr.abort && decide (w.hdr.count = BitVec.ofNat 32 n) && decide (w.hdr.special = broadcast.special)

/-! Layouts: Table 2-9 (packets and HBM) and Table 6-3 (SRAM and mesh). -/

def RedWord.bytes (w : RedWord) : List Byte := leBytes 16 w.hdr.bits ++ w.els.flatMap (fun n => leBytes 6 n.toNat)
def redElsOf (bs : List Byte) (n : Nat) : List (BitVec 48) :=
  (List.range n).map fun i => BitVec.ofNat 48 (leVal ((bs.drop (6 * i)).take 6))
def RedWord.ofBytes (bs : List Byte) : RedWord :=
  let h := RedHdr.ofBits (leVal (bs.take 16))
  ⟨h, if h.pass then redElsOf (bs.drop 16) 32 else []⟩
/-- Table 6-3, sum pass: four beats of one block. -/
def RedWord.mesh (w : RedWord) : List Byte :=
  leBytes 16 w.hdr.bits
    ++ (List.range 4).flatMap fun j => padTo (if j = 0 then 48 else 64) ((List.range 8).flatMap fun i => leBytes 6 (w.els.getD (8 * j + i) 0).toNat)
def RedWord.ofMesh (bs : List Byte) : RedWord :=
  ⟨RedHdr.ofBits (leVal (bs.take 16)),
    redElsOf (bs.drop 16) 8 ++ redElsOf (bs.drop 64) 8 ++ redElsOf (bs.drop 128) 8 ++ redElsOf (bs.drop 192) 8⟩

end Sys2Proof
end

