-- ==== Sys2Proof/Machine/CoreState.lean ====
section
/-! DEFINITION. What one core holds (spec/03_core.md, 04_thread_isa.md, 05_phase_tables.md, 06_mesh_and_sheaf.md). -/
namespace Sys2Proof.Machine

/-- What a thread in the state Waiting waits for (Table 3-2, R79, R100, R107 to R113), with the destination registers of
the waiting instruction. -/
inductive Wait where
  | tally (n : Nat) (thr : Nat)
  | launch (entry : Nat) (gd : Nat)
  | phase (seq : Nat) (gd : Nat)
  | reduction (handle : Nat) (gd : Nat)
  | counter (credit : Bool) (n : Nat) (thr : Nat) (take : Bool)
  | mailbox (mask : Nat) (gd : Nat)
  | barrier (n : Nat)
  | time (target : Nat)
  | fault (mask : Nat) (gd : Nat)
  | fence (all : Bool)
  deriving DecidableEq, Repr

/-- Table 3-2. -/
inductive TState where
  | stopped
  | running
  | waiting (w : Wait)
  | faulted
  deriving DecidableEq, Repr

/-- What a queued bank access of a thread does when its rows have been served (R102). -/
inductive BankWhat where
  | load (gd : Nat) (size : Nat) (sgn : Bool)
  | store (bytes : List Byte)
  | atomic (fn : Nat) (gd : Nat) (b : BitVec 64) (d : BitVec 64)
  | vload (vreg : Nat)
  | stsb (span : Nat)
  | copy (gd : Nat)
  | copyIdx (gd : Nat) (at_ : Nat) (desc : Nat)
  | shsubmit (gd : Nat)
  | mbput (off : Nat)
  | mbring (bits : Nat)
  | span (addr : Nat) (bytes : List Byte)
  deriving DecidableEq, Repr

/-- One access of a thread to core-local memory: the next offset, the bytes still to serve and those already read. `dead` is set when its
thread has stopped (R114). MBRING and span stores behind an STSB wait in the same queue (R102, R103). -/
structure BankOp where
  what : BankWhat
  pc : Nat
  addr : Nat
  rem : Nat
  got : List Byte
  dead : Bool := false
  deriving DecidableEq, Repr

/-- An open interval marker (R112, R400): the reckoning counter and the die cycle of its start. -/
structure Mark where
  at_ : Nat
  cycle : Nat
  deriving DecidableEq, Repr

/-- Table 4-1, with the accesses the thread has in flight. `g` lists the general registers that are not zero; `p` is p7
to p0; `vmap` lists the pool registers held as v0, v1 and so on; `pc` is the whole start PC until the first fetch
checks it (R114); `markers` lists the open interval markers with their start value; `sync` counts the writes of the instruction store that no
fetch of the thread can miss (R62, R114). -/
structure Thread where
  st : TState
  g : Map (BitVec 64)
  p : BitVec 8
  pc : Nat
  vmap : List Nat
  fpflags : BitVec 5
  srSeed : BitVec 64
  srTag : BitVec 32
  srStep : BitVec 32
  fcause : BitVec 24
  fpc : BitVec 15
  faddr : BitVec 64
  markers : Map (Option Mark)
  bankOps : List BankOp
  storeErr : Option (Nat × Nat)
  extra : Nat
  sync : Nat
  deriving DecidableEq, Repr

def Thread.init : Thread :=
  { st := .stopped, g := [], p := 1, pc := 0, vmap := [], fpflags := 0, srSeed := 0, srTag := 0, srStep := 0,
    fcause := 0, fpc := 0, faddr := 0, markers := [], bankOps := [], storeErr := none, extra := 0, sync := 0 }

/-- Who awaits the completion of a span request. -/
inductive Waiter where
  | load (t : Nat) (gd : Nat) (size : Nat) (sgn : Bool)
  | vload (t : Nat) (pool : Nat) (vreg : Nat)
  | atomic (t : Nat) (gd : Nat)
  | store (t : Nat)
  | post
  | sheaf (node : Nat) (tag : Nat)
  deriving DecidableEq, Repr

/-- A completion awaited (R252, R302, R303): its request tag, the endpoint that answers, and for a pull the other endpoint that may. -/
structure Await where
  rtag : Nat
  ep : Nat
  alt : Nat
  deriving DecidableEq, Repr
def Await.is (a : Await) (src rtag : Nat) : Bool := decide (a.rtag = rtag) && (decide (a.ep = src) || decide (a.alt = src))
/-- The awaited completions without the first that the reply of `src` under `rtag` is. -/
def dropAwait (src rtag : Nat) : List Await → List Await
  | [] => []
  | a :: l => if a.is src rtag then l else a :: dropAwait src rtag l

/-- A span request of a core, from its issue to its completion (R103, R104). `dead` is set when its thread stopped;
`station` is the station that performs an in-package store (R249), `sent` whether it has been issued there; `units` the quota units
it holds (R230); `want` the completions still awaited, two for a pair (R302), with the first nonzero status and the data so far. -/
structure Req where
  tag : Nat
  who : Waiter
  addr : Nat
  pc : Nat
  dead : Bool
  isStore : Bool
  inPkg : Bool
  station : Nat
  sent : Bool
  units : Nat
  tc3 : Bool
  want : List Await
  st : Nat
  data : List Byte
  deriving DecidableEq, Repr

/-- A launch in the phase queue (R79, R128): the entry and the rounding key captured at PLAUNCH. `armed` is R130's. -/
structure Launch where
  seq : Nat
  entry : Nat
  seed : BitVec 64
  tag : BitVec 32
  step : BitVec 32
  armed : Bool
  deriving DecidableEq, Repr

/-- An MX block in progress at one ACCBASE (R127): the MAC steps so far, the scales read on the block's first step and the
cells' exact sums. -/
structure MxBlock where
  steps : Nat
  sa : List Byte
  sb : List Byte
  sums : Map MxSum
  deriving DecidableEq, Repr

/-- A result of the sheaf adder on its way to source 6 (R156): the step that may output it, the beat, and how many reduction headers it holds as
its SH_MODE and its beat of the unit say (Table 6-3). -/
structure AdderOut where
  due : Nat
  data : List Byte
  hdrs : Nat
  deriving DecidableEq, Repr

/-- The phase being executed (R78, R123, R126, R133). -/
structure PhaseRun where
  launch : Launch
  parity : Nat
  word : Nat
  rep : Nat
  loops : List Nat
  sched : Nat
  schedRep : Nat
  use : List Nat
  stepNo : Nat
  drainNo : Nat
  blocks : Map MxBlock
  adder : List AdderOut
  deriving DecidableEq, Repr

/-- A beat of compiled traffic on its way into a router (R133): the link it arrives from (0 N, 1 E, 2 S, 3 W) and the step
of the receiver that takes it. -/
structure CBeat where
  dir : Nat
  step : Nat
  data : List Byte
  deriving DecidableEq, Repr

/-- A beat of dynamic traffic (R141, R149): its source's identity and its packet, which rides on the last beat. -/
structure Beat where
  ident : Nat
  dest : Nat
  last : Bool
  poison : Bool
  pkt : Option Pkt
  deriving DecidableEq, Repr

/-- An ended launch (R107): 0 completed, 1 cancelled, 2 faulted with the code of Table 5-11. -/
structure Outcome where
  seq : Nat
  result : Nat
  code : Nat
  deriving DecidableEq, Repr

/-- Power and reset state of a core (R67, R378, R379). -/
inductive CorePower where
  | off
  | reset
  | zeroing
  | running
  | bist
  deriving DecidableEq, Repr

/-- The state of a reduction handle (R107). -/
inductive Handle where
  | free
  | pending
  | ended (aborted : Bool)
  deriving DecidableEq, Repr

/-- One core. `rangeLocks` are the store ranges that loads hold locked: the operation, the store, the first entry and the count (R136). `recent`
names the threads of the last three issue slots, the newest first; `slots` and `stepped` count the instructions issued and the steps executed in
the present tick (R59, R60, R78), and `sentNow` the outbound links that have carried a dynamic beat in it, once for each beat (R141); `iHist`
keeps each write of the instruction store with the bytes it replaced, oldest first (R62). -/
structure Core where
  power : CorePower
  threads : Map Thread
  issuePtr : Nat
  recent : List (Option Nat)
  slots : Nat
  stepped : Nat
  sentNow : List Nat
  iHist : List (Nat × List Byte)
  vregs : Map Nat
  vzero : List Nat
  istore : Mem
  sram : Mem
  tk : Map Nat
  cc : Map Nat
  queue : List Launch
  run : Option PhaseRun
  ending : Option Launch
  held : Option Nat
  outcomes : List Outcome
  launchSeq : Nat
  acc : Map AccEntry
  phaseTab : Map Nat
  steps : Map Nat
  gens : Map Nat
  scheds : Map Nat
  valid : List Nat
  locked : List Nat
  rangeLocks : List (Nat × Nat × Nat × Nat)
  fires : Map Nat
  bars : Map Nat
  handles : Map Handle
  ovf : Bool
  ce : Bool
  ue : Bool
  writeBacks : List Nat
  inbound : List Beat
  inBad : Bool
  outQ : List Beat
  outWait : List Beat
  bufN : List Beat
  bufE : List Beat
  bufS : List Beat
  bufW : List Beat
  gwQ : List Beat
  gwWait : List Beat
  cbeats : List CBeat
  reqs : List Req
  deriving DecidableEq, Repr

/-- A core that has never been powered, and, but for `power`, a core right after a reset (R67, R119). -/
def Core.init : Core :=
  { power := .off, threads := [], issuePtr := 0, recent := [], slots := 0, stepped := 0, sentNow := [], iHist := []
    vregs := [], vzero := [], istore := [], sram := [], tk := [], cc := [],
    queue := [], run := none, ending := none, held := none, outcomes := [], launchSeq := 0, acc := [], phaseTab := [],
    steps := [], gens := [], scheds := [], valid := [], locked := [], rangeLocks := [], fires := [], bars := [], handles := [], ovf := false,
    ce := false, ue := false, writeBacks := [], inbound := [], inBad := false, outQ := [], outWait := [], bufN := [], bufE := [], bufS := [], bufW := [],
    gwQ := [], gwWait := [], cbeats := [], reqs := [] }

/-- A reduction node (R159): 0 to 16,383 a core's engine, 16,384 + gateway, 16,640 + edge port. -/
abbrev NodeId := Nat

/-- How far a tree context has come (R160 to R164). -/
inductive ShStage where
  | exp
  | broadcast
  | sum
  | writing
  | notice
  deriving DecidableEq, Repr

/-- A child's input at a node: its index, its endpoint and its word bytes (empty until they arrive), per pass. -/
structure ShChild where
  idx : Nat
  src : Nat
  exp : List Byte
  sum : List Byte
  deriving DecidableEq, Repr

/-- A packet that a context has sent under its engine's tag `rtag` and whose completions are awaited: a word, or a write of DEST. `busy` names the
endpoints that refused the word with "sheaf busy" (R162); `units` are the quota units it holds. -/
structure ShSent where
  rtag : Nat
  write : Bool
  busy : List Nat
  units : Nat
  want : List Await
  pkt : Pkt
  deriving DecidableEq, Repr

/-- A reduction context (R158, R159): the descriptor, the core, handle and barn that submitted it, and its progress. -/
structure ShCtx where
  node : NodeId
  tag : Nat
  desc : Nat
  owner : Nat
  handle : Nat
  barn : Nat
  stage : ShStage
  children : List ShChild
  bcast : List Byte
  sent : List ShSent
  failed : Bool
  deriving DecidableEq, Repr

/-- What an ended context had sent and whose completion is still awaited: its engine, its barn and the packet. The tag stays in use and the
quota units stay held until the completion comes. -/
structure ShLate where
  node : NodeId
  barn : Nat
  sent : ShSent
  deriving DecidableEq, Repr

end Sys2Proof.Machine
end

