-- ==== Sys2Proof/Machine/UnitState.lean ====
section
/-! DEFINITION. What the gateways, the memory controllers, the packet fabric, the edge ports, the pairs and the berths hold
(spec/09 to 13). -/
namespace Sys2Proof.Machine

/-! Gateways and memory controllers (spec/10). -/

/-- A segment in flight: its tag at the engine, its data bytes, the quota units it holds with their class, the completions still awaited
(two for a pair, R302) and the first nonzero status. -/
structure Seg where
  tag : Nat
  bytes : Nat
  units : Nat
  tc : Nat
  want : List Await
  st : Nat
  deriving DecidableEq, Repr

/-- A copy held by a tracker (R250 to R256): the descriptor, the submitting core and barn, the indices read at submission
(R253), the next element and byte offset to cut, and what has come back. -/
structure Tracker where
  desc : Nat
  core : Nat
  barn : Nat
  idx : List Nat
  elem : Nat
  off : Nat
  cut : Bool
  segs : List Seg
  done : Nat
  status : Nat
  deriving DecidableEq, Repr

/-- A store waiting at its issuing gateway for the previous store of its path (R249). -/
structure OrdStore where
  core : Nat
  tag : Nat
  pkt : Pkt
  deriving DecidableEq, Repr

/-- A request tag whose unit was reset before its replies came (R380): the core, or 16,384 + gateway for the tags of copies, the tag, the
replies awaited and the quota units it still holds for a barn. -/
structure Orphan where
  who : Nat
  tag : Nat
  units : Nat
  tc : Nat
  barn : Nat
  want : List Await
  deriving DecidableEq, Repr
/-- A counter post of an ended copy (R255) whose completion is awaited, with the quota units it holds. -/
structure CtrPost where
  trk : Nat
  barn : Nat
  units : Nat
  want : List Await
  deriving DecidableEq, Repr
/-- One cluster gateway (R154). `bad` the cores of which a beat of the packet being reassembled is poisoned (R142, R150); `posts` the counter
posts under way. -/
structure Gateway where
  tallies : Map Nat
  trackers : Map (Option Tracker)
  ordered : List OrdStore
  orphans : List Orphan
  bad : List Nat
  posts : List CtrPost
  deriving DecidableEq, Repr
def Gateway.init : Gateway := ⟨[], [], [], [], [], []⟩

/-- A granule's state (R261, R262). -/
inductive GranState where
  | free
  | scrubbing (barn : Nat)
  | owned (barn : Nat)
  deriving DecidableEq, Repr
/-- A granule: `epoch` counts its key pairs (R264). -/
structure Granule where
  st : GranState
  retired : Bool
  epoch : Nat
  deriving DecidableEq, Repr
def Granule.init : Granule := ⟨.free, false, 0⟩

/-- A message queue (Table 10-9). -/
structure MQueue where
  cfg : Nat
  base : Nat
  head : Nat
  tail : Nat
  deriving DecidableEq, Repr
def MQueue.init : MQueue := ⟨0, 0, 0, 0⟩

/-- An HBM channel (R241, R386). -/
structure HbmChan where
  training : Bool
  failedOnce : Bool
  outOfService : Bool
  deriving DecidableEq, Repr
def HbmChan.init : HbmChan := ⟨false, false, false⟩

/-- The lines read ahead for one copy (R257): the gateway that submitted it, which may lie in another package, and its tracker; the copy's
barn; whether its segments run on from one another; the line behind the segment served last; the bytes read ahead in all, the lines held. -/
structure ReadAhead where
  who : Nat
  trk : Nat
  barn : Nat
  linear : Bool
  next : Nat
  bytes : Nat
  lines : List Nat
  deriving DecidableEq, Repr

/-! Packet fabric (spec/09). -/

/-- A packet waiting for its window (R230 check 4), with the reckoning counter at its arrival. -/
structure WaitPkt where
  pkt : Pkt
  since : Nat
  deriving DecidableEq, Repr

/-- The source side of one window (R224 to R227). `extra` is the grant above the standing grant. -/
structure SrcWin where
  extra : Nat
  inUse : Nat
  next : Nat
  waiting : List WaitPkt
  asked : Bool
  deriving DecidableEq, Repr
def SrcWin.init : SrcWin := ⟨0, 0, 0, [], false⟩

/-- The destination side of one window (R226, R228): the WSEQ expected next, whether the packet before it is still being performed,
packets held for order with the die on which they came, WSEQ numbers skipped and the gaps counted, the units freed and granted that no WUPDATE has carried yet, and the
units granted in all above the standing grant. -/
structure DstWin where
  expect : Nat
  busy : Bool
  held : List (Nat × Pkt)
  skipped : List Nat
  gaps : Nat
  freed : Nat
  granted : Nat
  total : Nat
  deriving DecidableEq, Repr
def DstWin.init : DstWin := ⟨0, false, [], [], 0, 0, 0, 0⟩

/-- A queued window request (R226). -/
structure WinReq where
  src : Nat
  cls : Nat
  units : Nat
  deriving DecidableEq, Repr

/-- Table 9-9. -/
structure FabCtr where
  sentPkts : Nat
  sentBytes : Nat
  delayed : Nat
  delayTime : Nat
  refQFull : Nat
  refQuota : Nat
  refOther : Nat
  ended : Nat
  useTc1 : Nat
  useTc3 : Nat
  deriving DecidableEq, Repr
def FabCtr.init : FabCtr := ⟨0, 0, 0, 0, 0, 0, 0, 0, 0, 0⟩

/-- Table 10-11. MEM_GRANULES is read from the granules themselves. -/
structure MemCtr where
  ce : Nat
  ue : Nat
  denied : Nat
  raBytes : Nat
  raDropped : Nat
  copyErr : Nat
  copyLate : Nat
  msgRefused : Nat
  deriving DecidableEq, Repr
def MemCtr.init : MemCtr := ⟨0, 0, 0, 0, 0, 0, 0, 0⟩

/-! Edge ports (spec/11). -/

/-- Table 11-6. -/
inductive PortState where
  | dark | probe | lock | deskew | eye | ident | keying | up | width | maint | lost | disagree
  deriving DecidableEq, Repr
def PortState.code : PortState → Nat
  | .dark => 0 | .probe => 1 | .lock => 2 | .deskew => 3 | .eye => 4 | .ident => 5
  | .keying => 6 | .up => 7 | .width => 8 | .maint => 9 | .lost => 10 | .disagree => 11

/-- A packet queued at an edge port: `arr` is the port by which a transit packet arrived and the virtual channel whose units it holds, 12 once it
holds none; none for a packet that the package injects. -/
structure QPkt where
  pkt : Pkt
  arr : Option (Nat × Nat)
  deriving DecidableEq, Repr

/-- A frame in a replay buffer (R275, R277): its number, KIND, START and payload, and the packets that end in it. -/
structure TxFrame where
  seq : Nat
  kind : Nat
  start : Nat
  payload : List Byte
  pkts : List QPkt
  deriving DecidableEq, Repr

/-- Key state of a port (R279, R280, R420 to R423): the key generations by which it sends and receives, the superframe numbers and the
frame's place in its superframe, the ECTL values and payloads that the superframe under way has sent and the tag of the one
before, and how far an update has come: the number of the own confirm frame, whether the partner has acknowledged it, whether the partner's
confirm has been delivered, and which direction has moved to its new key. -/
structure PortKeys where
  txGen : Nat
  rxGen : Nat
  sigmaTx : Nat
  sigmaRx : Nat
  txPos : Nat
  rxPos : Nat
  txFrames : List (Nat × List Byte)
  txTag : Nat
  updating : Bool
  confirmSeq : Option Nat
  confirmAcked : Bool
  peerConfirmed : Bool
  txMoved : Bool
  rxMoved : Bool
  deriving DecidableEq, Repr
def PortKeys.init : PortKeys := ⟨0, 0, 0, 0, 0, 0, [], 0, false, none, false, false, false, false⟩

/-- Deficit round robin state of Table 9-6: deficits of TC1 and TC3 per level, the class served last, whether the last packet of
a VC was transit, and the barns' deficits per VC. -/
structure ArbState where
  deficit : Map Nat
  turn : Map Nat
  lastTransit : Map Bool
  barnDef : Map Nat
  barnTurn : Map Nat
  deriving DecidableEq, Repr

/-- The congestion record of a port (Table 9-11). -/
structure CongRec where
  occ : List Nat
  txBytes : Nat
  stall : List Nat
  rxBytes : Nat
  recoursed : Nat
  ended : Nat
  sat : Bool
  deriving DecidableEq, Repr
def CongRec.init : CongRec := ⟨List.replicate 8 0, 0, List.replicate 4 0, 0, 0, 0, false⟩

/-- A sweep or retrain of a port in progress (R288): whether it is a retrain, and the operations that it ends. -/
structure Maint where
  retrain : Bool
  ops : List Nat
  deriving DecidableEq, Repr

/-- One edge port (R275 to R297). `digest` is the ID_DIGEST that IDENT recorded; `held` says that a salvage is awaited, `early` holds the
LAST_COMPLETE of a SALVAGE that came before the port's own loss; `lastDone` is the frame in which the last packet completely received
ended; `credSeen` the last CUNITS of each virtual channel, `freed` the units freed; `drain` that the port is being released (R273) and
`shut` that it stays in DISAGREE until its plan entry changes (Table 18-4). `freedSent` are the counts last sent of `freed`, `credPtr` the channel
behind the one sent last (R278), `ctlQ` the link-control payloads that wait for a full replay buffer with their LCKIND, `pos` the place of the
next received frame in the striping (R167). -/
structure EdgePort where
  st : PortState
  width : Nat
  laneMask : Nat
  propose : Nat
  peer : Nat
  peerPort : Nat
  peerValid : Bool
  peerRole : Nat
  peerMtu : Nat
  peerExpect : Nat
  peerExpectPort : Nat
  digest : Nat
  keyed : Bool
  attested : Bool
  maint : Option Maint
  maintDeferred : Bool
  lossSeen : Bool
  lightOff : Bool
  light : Bool
  rxPower : Nat
  latency : Nat
  trained : Bool
  txSeq : Nat
  replay : List TxFrame
  resent : Bool
  replayFails : Nat
  rxNext : Nat
  delivered : Bool
  discarding : Bool
  nakDue : Bool
  tagFails : Nat
  lastDone : Option Nat
  keys : PortKeys
  credit : Map Nat
  credSeen : Map Nat
  freed : Map Nat
  freedSent : Map Nat
  credPtr : Nat
  ctlQ : List (Nat × List Byte)
  pos : Nat
  queue : List QPkt
  held : Bool
  early : Option Nat
  arb : ArbState
  cong : CongRec
  drain : Bool
  shut : Bool
  deriving DecidableEq, Repr
def EdgePort.init : EdgePort :=
  { st := .dark, width := 0, laneMask := 0, propose := 0, peer := 0, peerPort := 0, peerValid := false, peerRole := 0, peerMtu := 0,
    peerExpect := 0, peerExpectPort := 0, digest := 0, keyed := false, attested := true, maint := none, maintDeferred := false,
    lossSeen := false, lightOff := true, light := false, rxPower := 0, latency := 0, trained := false, txSeq := 0, replay := [],
    resent := false, replayFails := 0, rxNext := 0, delivered := false, discarding := false, nakDue := false, tagFails := 0,
    lastDone := none, keys := .init, credit := [], credSeen := [], freed := [], freedSent := [], credPtr := 0, ctlQ := [], pos := 0, queue := [], held := false, early := none,
    arb := ⟨[], [], [], [], []⟩, cong := .init, drain := false, shut := false }

/-! Pairs (spec/12). -/

/-- An entry of a chaff window (R305, R306): resolved, or one copy held with its check, member and outcome, or a copy
discarded for its trailer. -/
structure ChaffEntry where
  state : Nat
  unpaired : Bool
  check : Nat
  memberB : Bool
  performed : Option (Nat × List Byte)
  waiting : List Pkt
  deriving DecidableEq, Repr
/-- A chaff window: its top and the entries that are not resolved. -/
structure ChaffWin where
  top : Nat
  entries : Map ChaffEntry
  deriving DecidableEq, Repr
def ChaffEntry.resolved : ChaffEntry := ⟨0, false, 0, false, none, []⟩
def ChaffWin.init : ChaffWin := ⟨0, []⟩

/-- Table 12-4, and R310's sequence. -/
structure PairRec where
  delivered : Nat
  matched : Nat
  unpairedA : Nat
  unpairedB : Nat
  mismatch : Nat
  overrun : Nat
  late : Nat
  dup : Nat
  trailerDrop : Nat
  firstPseq : Nat
  firstFlags : Nat
  outcome : Nat
  firstChecks : Nat
  firstTime : Nat
  checking : Bool
  frozen : Bool
  fromA : Bool
  fromB : Bool
  formedAt : Nat
  deriving DecidableEq, Repr
def PairRec.init : PairRec := ⟨0, 0, 0, 0, 0, 0, 0, 0, 0, 0, 0, 0, 0, 0, false, false, false, false, 0⟩

/-! Helm and berths (spec/13). -/

/-- State of one request slot (R328). -/
inductive SlotSt where
  | free | claimed | serving | served
  deriving DecidableEq, Repr
def SlotSt.code : SlotSt → Nat
  | .free => 0 | .claimed => 1 | .serving => 2 | .served => 3
/-- A request slot: its claimer's identity (Table 13-4), whether its claim was released while SERVING (R338), and the request
copied at the take, and the reply that the helm has ready and not yet written. -/
structure Slot where
  st : SlotSt
  who : Nat
  dropped : Bool
  req : List Byte
  rep : Option (List Byte)
  deriving DecidableEq, Repr
def Slot.init : Slot := ⟨.free, 0, false, [], none⟩

/-- One berth (R326 to R337). `rings` holds the rung slots in the order of their rings with the ringer's identity; `prioCount` the
priority notices written since the reset. -/
structure Berth where
  reqArea : Mem
  repArea : Mem
  rings : List (Nat × Nat)
  slots : Map Slot
  bin : BitVec 32
  mask : BitVec 32
  denied : Nat
  rseq : Nat
  prioCount : Nat
  deriving DecidableEq, Repr
def Berth.init : Berth := ⟨[], [], [], [], 0, 0, 0, 0, 0⟩

/-- A reply or notice posted (R337): berth, slot or none, its bytes. Kept so that a takeover can post it again. -/
structure Posted where
  berth : Nat
  slot : Option Nat
  time : Nat
  bytes : List Byte
  deriving DecidableEq, Repr

/-- One PCIe function (R343, R345, R348, R351 to R353): MSI-X table bytes, the vectors not masked, the pending bits, the aperture registers,
the halves that 4-byte accesses have captured, by register offset, and Advisory Non-Fatal of the AER correctable error status. -/
structure Fn where
  table : Mem
  unmasked : Nat
  pend : Nat
  aptBase : Nat
  aptLast : Nat
  aptErr : Bool
  aptErrAddr : Nat
  highCap : Map Nat
  lowLatch : Map Nat
  advisory : Bool
  deriving DecidableEq, Repr
def Fn.init : Fn := ⟨[], 0, 0, 0, 0, false, 0, [], [], false⟩

/-! Usage meters (spec/16). -/

/-- An open meter interval (R403, Table 16-3): times in units of 2^-24 s and 1/16 ns; `core` and `hbm` in core times 1/16 ns and
granules times 1/16 ns. -/
structure MeterOpen where
  start : Nat
  rkStart : Nat
  core : Nat
  hbm : Nat
  tx : Nat
  rx : Nat
  orphans : Nat
  unset : Bool
  deriving DecidableEq, Repr
/-- A meter: its open interval, the SEQ of its next record and its ring of records (R406). -/
structure Meter where
  opened : MeterOpen
  next : Nat
  ring : List (List Byte)
  deriving DecidableEq, Repr
def Meter.init : Meter := ⟨⟨0, 0, 0, 0, 0, 0, 0, false⟩, 1, []⟩

/-- A piece of an aperture access in flight (R352): its request tag, function, span address, bytes, and for a read the number of the host
read it serves; the completions awaited and their first nonzero status. -/
structure AptReq where
  tag : Nat
  fn : Nat
  addr : Nat
  len : Nat
  read : Option Nat
  units : Nat
  station : Nat
  want : List Await
  st : Nat
  deriving DecidableEq, Repr
/-- A host read through an aperture: its function, address, the pieces awaited, whether one has failed, and the bytes that have come. -/
structure AptRead where
  id : Nat
  fn : Nat
  addr : Nat
  len : Nat
  left : Nat
  bad : Bool
  data : Mem
  deriving DecidableEq, Repr

/-- A long operation (R332, Table 13-10). `args` is the request's payload, `work` the operation's own progress
data, `fin` the state and result with which it is to end. -/
structure Op where
  num : Nat
  opcode : Nat
  berth : Nat
  who : Nat
  st : Nat
  result : Nat
  progress : Nat
  total : Nat
  partialBytes : Nat
  updates : Nat
  akind : Nat
  sdb : Bool
  statusAddr : Nat
  bufAddr : Nat
  bufLen : Nat
  barn : Nat
  args : List Byte
  work : List Nat
  fin : Option (Nat × Nat)
  deriving DecidableEq, Repr

end Sys2Proof.Machine
end

