-- ==== Sys2Proof/Machine/PlantState.lean ====
section
/-! DEFINITION. What the photonic network, its light supply and its calibration hold (spec/07, spec/08). -/
namespace Sys2Proof.Machine

/-- STATE of Table 14-14. -/
inductive LinkSt where
  | dark | live | staged | changing | withdrawn | lost
  deriving DecidableEq, Repr
def LinkSt.code : LinkSt → Nat
  | .dark => 0 | .live => 1 | .staged => 2 | .changing => 3 | .withdrawn => 4 | .lost => 5
/-- What is being done to a link outside steering (R186, R189, R203 to R205): a width change toward a lane mask; the relock after a feed
failover; a sweep or retrain that waits for the link's drain; or one that runs, with the operations that it ends and the spare transmit link
that carries its traffic, if one does. -/
inductive LinkWork where
  | none
  | width (mask : Nat)
  | relock
  | calWait (retrain : Bool) (ops : List Nat) (sub : Option Nat)
  | calib (retrain : Bool) (ops : List Nat) (sub : Option Nat)
  deriving DecidableEq, Repr
/-- A packet on its way between two dies: the edge port and virtual channel by which a transit packet came, and the edge port by which it
leaves the package. -/
structure LinkPkt where
  pkt : Pkt
  arr : Option (Nat × Nat)
  port : Option Nat
  deriving DecidableEq, Repr
/-- A data frame in a replay buffer (Tables 7-1, 7-2): SEQ, START, the payload and the packets that end in it. -/
structure LFrame where
  seq : Nat
  start : Nat
  payload : List Byte
  pkts : List LinkPkt
  deriving DecidableEq, Repr
/-- In-package transmit link n with receive link n of the same die (R165 to R170, Table 14-14). `rx` is the receive link at which the
transmit path ends; `subst` that it carries a substituted standing path; `taken` that it left the pool as a substitute (R190); `drain` that it
forms no new frames (R180). `txQ` are the packets that wait, `txCur` the packet of which a part is framed with its other bytes, `txNext` the
next SEQ, `replay` the frames not acknowledged (R169), `sendAt` the first of them that is to be sent, `pos` the place of the next frame in
the striping over the lanes (R167). The rest is the receive side: the next SEQ, whether frames are discarded until a replay, the replays that
failed, the acknowledgement and NAK due. -/
structure Link where
  st : LinkSt
  mask : Nat
  rx : Option Nat
  subst : Bool
  taken : Bool
  latency : Nat
  work : LinkWork
  drain : Bool
  txQ : List LinkPkt
  txCur : Option (LinkPkt × List Byte)
  txNext : Nat
  replay : List LFrame
  sendAt : Nat
  pos : Nat
  rxNext : Nat
  discarding : Bool
  failedReplays : Nat
  ackDue : Bool
  nakDue : Bool
  deriving DecidableEq, Repr
def Link.init : Link :=
  { st := .dark, mask := 0, rx := none, subst := false, taken := false, latency := 0, work := .none, drain := false, txQ := [], txCur := none
    txNext := 0, replay := [], sendAt := 0, pos := 0, rxNext := 0, discarding := false, failedReplays := 0, ackDue := false, nakDue := false }

/-- A lane of a receiver, 16·l + k (Table 8-5). Bit 0 of `warn` and `action` stands for the eye width, bit 1 for the eye height, bit 2 for
the BER exponent; `updated` is the reckoning counter at the last update of a figure; `corr` the corrected symbols of the present window (R198).
`retired` holds it excluded until the next bring-up (Table 18-4). -/
structure Lane where
  eyeW : Nat
  eyeH : Nat
  ber : Nat
  share : Nat
  warn : Nat
  action : Nat
  excluded : Bool
  updated : Option Nat
  corr : Nat
  retired : Bool
  deriving DecidableEq, Repr
def Lane.init : Lane := ⟨0, 0, 0, 0, 0, 0, false, none, 0, false⟩

/-- A lighthouse module (R185 to R187). `retired` refuses admission until another serial number is fitted (Table 18-4). -/
structure Module where
  fitted : Bool
  admitted : Bool
  failed : Bool
  released : Bool
  serial : Nat
  retired : Option Nat
  deriving DecidableEq, Repr
def Module.init : Module := ⟨false, false, false, false, 0, none⟩

/-- An entry of a path set (R177). -/
structure PathEntry where
  tx : Nat
  rx : Nat
  dark : Bool
  deriving DecidableEq, Repr
structure PathSet where
  barn : Nat
  entries : List PathEntry
  deriving DecidableEq, Repr
/-- A steering request (R179): the set, whether it only stages, and its tally with the gateway that holds it. -/
structure SteerReq where
  set : Nat
  stage : Bool
  tally : Option (Nat × Nat)
  deriving DecidableEq, Repr
/-- How far an entry of a request in progress has come (Table 7-8). -/
inductive EntryPh where
  | waiting | drain | switching | relock | done | skipped
  deriving DecidableEq, Repr
structure SteerEntry where
  e : PathEntry
  ph : EntryPh
  deriving DecidableEq, Repr
/-- A barn's steering controller view (Tables 7-6, 7-7); `commit` is the value last written to STEER_COMMIT. -/
structure Steer where
  commit : Nat
  lastSet : Nat
  result : Nat
  ended : Nat
  queue : List SteerReq
  cur : Option (SteerReq × List SteerEntry)
  deriving DecidableEq, Repr
def Steer.init : Steer := ⟨0, 0, 0, 0, [], none⟩

/-- A temperature zone of the base layer (R194): whether a zone retrim runs, and the operations that asked for it. The centre
of its validated band is calibration section 2. -/
structure Zone where
  retrim : Bool
  ops : List Nat
  deriving DecidableEq, Repr
def Zone.init : Zone := ⟨false, []⟩

/-- A temperature sensor (R452 to R456), numbered as in Table 18-2: the last valid sample in 1/16 °C, the outputs still marked invalid after
a synchronising reset, the place among the 20 outputs of slow mode, the mode, the flags, the consecutive samples at or above shutdown,
whether it is retired, its residual in 0.1 °C and whether that is beyond its warning limit (R197). -/
structure Sensor where
  last : Option Int
  invalid : Nat
  phase : Nat
  fast : Bool
  warn : Bool
  throttle : Bool
  run : Nat
  retired : Bool
  residWarn : Bool
  resid : Int
  deriving DecidableEq, Repr
def Sensor.init : Sensor := ⟨none, 3, 0, false, false, false, 0, false, false, 0⟩

/-- A deferred sweep or retrain of a link (R205): the link, whether it is a retrain, the operations that asked (0 for the device),
and whether it is forced; numbers from 512 are edge ports. -/
structure CalReq where
  link : Nat
  retrain : Bool
  ops : List Nat
  force : Bool
  deriving DecidableEq, Repr

end Sys2Proof.Machine
end

