-- ==== Sys2Proof/Machine/SystemState.lean ====
section
/-! DEFINITION. What the helm, the clocks, the gleaner, the supplies and bring-up hold (spec/13 to spec/19). -/
namespace Sys2Proof.Machine

/-- Table 13-1, and the time before stage 1 when the helm stands in its boot ROM. -/
inductive HelmSt where
  | rom | paired | single | split
  deriving DecidableEq, Repr
def HelmSt.code : HelmSt → Nat
  | .rom => 0 | .paired => 1 | .single => 2 | .split => 3
/-- A firmware update in progress (Table 13-2): its operation and image, and whether the standby half has taken over. -/
structure FwUpdate where
  op : Nat
  image : FwImage
  takenOver : Bool
  deriving DecidableEq, Repr
/-- The helm pair (R319 to R323). `retired` is the half out of service, `hold` a held mismatching output, `checked` the halves that report
an error; `fwA` and `fwB` the halves' firmware versions; `image` the running firmware and `bootSlot` the
flash slot it came from (2: the host buffer); `final` that the retired half stays out until package reset. -/
structure Helm where
  st : HelmSt
  retired : Option Nat
  retireA : Nat
  retireB : Nat
  hold : Bool
  stopped : Bool
  fwA : Nat
  fwB : Nat
  image : Option FwImage
  bootSlot : Nat
  final : Bool
  update : Option FwUpdate
  deriving DecidableEq, Repr
def Helm.init : Helm := ⟨.rom, none, 0, 0, false, false, 0, 0, none, 2, false, none⟩

/-- The reckoning counter's source and servo (R392 to R399). `owed` is the correction still to be slewed, in 1/16 ns, `sinceSlew` the ticks since
the last slewed one; `exch` the newest request still unanswered: SEQ and T1; `next` a configuration that takes effect at the next
period or edge. -/
structure Clock where
  source : Nat
  port : Nat
  period : Nat
  next : Option (Nat × Nat × Nat)
  locked : Bool
  good : Nat
  miss : Nat
  offset : Int
  owed : Int
  sinceSlew : Nat
  ppsSeen : Bool
  ppsCapture : Nat
  ppsEn : Bool
  ppsAlign : Bool
  ppsLast : Option Nat
  exchSeq : Nat
  exch : Option (Nat × Nat)
  depth : Nat
  depthNoted : Bool
  pllHeld : Bool
  deriving DecidableEq, Repr
def Clock.init : Clock := ⟨0, 0, 10, none, false, 0, 0, 0, 0, 0, false, 0, false, false, none, 0, none, 0, false, false⟩
/-- The almanac and the meter interval (R361, R401 to R407). `time` in 2^-24 s, `sub` the part of a step in 1/(8·10^8); `owed` the discipline
error that is being removed by rate over the next `left` ticks. -/
structure Almanac where
  time : Nat
  sub : Nat
  valid : Bool
  vbatLow : Bool
  drift : Int
  owed : Int
  left : Nat
  set : Nat
  discipline : Nat
  setback : Bool
  interval : Nat
  nextInterval : Nat
  lastBoundary : Option Nat
  deriving DecidableEq, Repr
def Almanac.init : Almanac := ⟨0, 0, false, false, 0, 0, 0, 0, 0, false, 3600, 3600, none⟩

/-- A fault record (Table 18-1). -/
structure FaultRec where
  seq : Nat
  cls : Nat
  base : Nat
  promoted : Bool
  escalated : Bool
  saturation : Bool
  injected : Bool
  noCounter : Bool
  kind : Nat
  unit : Nat
  action : Nat
  barn : Option Nat
  reckon : Nat
  detail : Nat
  deriving DecidableEq, Repr
/-- A source counter (R441 to R444): the count of its open window (none open at 0), when the window opened, whether the counter is saturated,
and the classes marked unacknowledged. -/
structure Counter where
  kind : Nat
  unit : Nat
  count : Nat
  opened : Nat
  sat : Bool
  marks : List Nat
  deriving DecidableEq, Repr
/-- Threshold, window in ms and OVERFLOW of a source kind. -/
structure KindCfg where
  n : Nat
  window : Nat
  overflow : Nat
  deriving DecidableEq, Repr
/-- The gleaner and the fault summary (R358, R359, R434 to R446). `level` is the level of HOLD that FAULT_N took after the last pulse,
none before the first; `notices` are records whose notices the helm has still to post. -/
structure Gleaner where
  pending : List Nat
  fatal : Bool
  shutdown : Bool
  shutWhere : Nat
  pulse : Bool
  level : Option Bool
  hold : Bool
  minClass : Nat
  lastSeq : Nat
  lastClass : Nat
  counts : List Nat
  ring : List FaultRec
  latched : List FaultRec
  seq : Nat
  counters : List Counter
  kinds : Map (Option KindCfg)
  notices : List FaultRec
  deriving DecidableEq, Repr
def Gleaner.init : Gleaner := ⟨[], false, false, 0xFF, false, none, true, 2, 0, 0, [0, 0, 0, 0, 0], [], [], 0, [], [], []⟩

/-- Pins and supplies (spec/19). Supplies are in range or not; `vinOpen` says that the input path is open, `discharging` that the package is
discharging its capacitance; `lhEn` and `intlk` are bits by module and block (1: driven high, loop closed);
`sampled` that the straps have been sampled since VAUX rose; `thermN` that THERM_N is asserted, pulled low (R448). -/
structure Pins where
  vaux : Bool
  vin48 : Bool
  vbat : Bool
  perst : Bool
  pcie : Bool
  testmode : Bool
  sris : Bool
  i3cAddr : Nat
  lhEn : Nat
  intlk : Nat
  vinOpen : Bool
  discharging : Bool
  sampled : Bool
  thermN : Bool
  deriving DecidableEq, Repr

/-- STATE of Table 14-6. -/
inductive BuSt where
  | idle | running | done | failed | disagree | ready | aborted
  deriving DecidableEq, Repr
def BuSt.code : BuSt → Nat
  | .idle => 0 | .running => 1 | .done => 2 | .failed => 3 | .disagree => 4 | .ready => 5 | .aborted => 6
/-- The units out of service as they stood when stage 6 was reached (R370). -/
structure UnitMarks where
  cores : List Nat
  clusters : List Nat
  links : List Nat
  dies : List Nat
  causes : Map Nat
  deriving DecidableEq, Repr
/-- The bring-up block (Table 14-5). `goal` is the last stage of the run in progress; `took` holds what the running stage took at its
start: the four buffer registers, FW_SOURCE and CAL_SOURCE. -/
structure BringUp where
  target : Nat
  calSource : Nat
  fwSource : Nat
  fwOwned : Nat
  stage : Nat
  st : BuSt
  goal : Nat
  warm : Bool
  result : Nat
  accepting : Bool
  accepted : Bool
  refused : Bool
  why : Nat
  done : Nat
  total : Nat
  start : Nat
  bufAddr : Nat
  bufLen : Nat
  repAddr : Nat
  repLen : Nat
  repBytes : Nat
  took : List Nat
  marks : UnitMarks
  deriving DecidableEq, Repr
def BringUp.init : BringUp :=
  ⟨0, 0, 0, 0, 0, .idle, 0, false, 0, false, false, false, 0, 0, 0, 0, 0, 0, 0, 0, 0, [0, 0, 0, 0, 0, 0], ⟨[], [], [], [], []⟩⟩

/-- The indirect pair (Table 14-12), with the half that a 4-byte service read captured (R364). -/
structure Indirect where
  addr : Nat
  inc : Bool
  err : Bool
  rejected : Bool
  errAddr : Nat
  cap : Option (Nat × Nat)
  deriving DecidableEq, Repr
def Indirect.init : Indirect := ⟨0, false, false, false, 0, none⟩

/-- Fuses, factory identity and the non-volatile stores but for repairs (R375, R412 to R414, R433, R450, R475). `tagWrites` counts writes of package
block b at key b and of die d's tag at 64 + d. -/
structure NonVol where
  stepping : Nat
  serial : Nat
  idDigest : Nat
  rom : Nat
  fusedCores : List Nat
  rollback : Nat
  revoked : Nat
  factoryClosed : Bool
  tags : Mem
  tagWrites : Map Nat
  fw0 : Option FwImage
  fw1 : Option FwImage
  cal0 : Option CalImage
  cal1 : Option CalImage
  deriving DecidableEq, Repr

/-- A part as shipped (log 5): FN72-A, no core fused off, empty stores, the factory-close fuse blown (R450). -/
def NonVol.init : NonVol :=
  { stepping := 0, serial := 0, idDigest := 0, rom := 0, fusedCores := [], rollback := 0, revoked := 0, factoryClosed := true, tags := []
    tagWrites := [], fw0 := none, fw1 := none, cal0 := none, cal1 := none }
/-- After power-up (Table 19-6, log 6): VAUX in range, PERST# high, PCIe ready, the straps sampled low, the connector blocks closed. -/
def Pins.init : Pins :=
  { vaux := true, vin48 := false, vbat := true, perst := true, pcie := true, testmode := false, sris := false, i3cAddr := 0, lhEn := 0
    intlk := 15, vinOpen := true, discharging := false, sampled := true, thermN := false }

end Sys2Proof.Machine
end

