-- ==== Sys2Proof/Machine/State.lean ====
section
/-! DEFINITION. The state of one FN72 package: everything the spec gives it, the queue of commands that wait, and the
outcomes a command can have. -/
namespace Sys2Proof.Machine

/-- A fault report on its way to the gleaner (R434): the source kind of Table 18-4, the unit of Table 18-2, DETAIL, the reckoning
counter at detection, and the class where the rule that reports it names another than the table. -/
structure Report where
  kind : Nat
  unit : Nat
  detail : Nat
  at_ : Nat
  base : Option Nat
  deriving DecidableEq, Repr

/-- What the package sends out of itself: MSI-X messages (R351), writes to host memory, completions of host reads, in-band interrupts of I3C
(R327), frames of edge ports, training frames by their sender, and other light of a port by a number (R282, R291), THERM_N pulled low or
released (R448). -/
inductive OutMsg where
  | msix (fn : Nat) (vec : Nat)
  | hostWrite (fn : Nat) (addr : Nat) (data : List Byte)
  | hostRead (fn : Nat) (addr : Nat) (data : List Byte)
  | i3c
  | edge (port : Nat) (bytes : List Byte)
  | train (sender : Nat) (payload : List Byte)
  | link (port : Nat) (kind : Nat)
  | thermN (low : Bool)
  | regRead (value : Nat)
  | unsupported (fn : Nat)
  deriving DecidableEq, Repr

/-- A barn (R419, R424, R425). -/
structure Barn where
  weight : Nat
  quota1 : Nat
  quota3 : Nat
  peersOpen : Bool
  peers : List Nat
  measure : BitVec 384
  configSeq : Nat
  keyEpoch : Nat
  deriving DecidableEq, Repr

/-- A gang line (R130): its barn, its members, and whether a member has been lost (R131). -/
structure Gang where
  barn : Nat
  members : List Nat
  lost : Bool
  deriving DecidableEq, Repr
def Gang.init : Gang := ⟨0, [], false⟩

/-- The machine. -/
structure State where
  pending : List Instr
  freeCtr : Nat
  net : List Pkt
  out : List OutMsg
  reports : List Report
  reckon : Nat
  dieCycle : Map Nat
  dieStep : Map Nat
  hold : Map Nat
  holdNotice : Map Nat
  meshDown : List Nat
  selfNum : Nat
  selfValid : Bool
  variant : Nat
  ready : Bool
  cores : Map Core
  gateways : Map Gateway
  coreDown : List Nat
  dieDown : List Nat
  clusterDown : List Nat
  clusterUp : List Nat
  clusterOwner : Map Nat
  barns : Map (Option Barn)
  gangs : Map Gang
  sheaf : List ShCtx
  sheafEarly : List (Nat × Pkt)
  shLate : List ShLate
  hbm : Mem
  poison : List Nat
  granules : Map Granule
  channels : Map HbmChan
  queueOwner : Map Nat
  queues : Map MQueue
  readAhead : List ReadAhead
  rowWait : List (Nat × Nat)
  repairs : List (Nat × Nat)
  courses : Map Nat
  srcWin : Map SrcWin
  dstWin : Map DstWin
  pool1 : Nat
  pool3 : Nat
  grantQ : List WinReq
  grantMax1 : Nat
  grantMax3 : Nat
  slices : List Nat
  fabCtr : Map FabCtr
  memCtr : Map MemCtr
  plan : Mem
  ports : Map EdgePort
  pairTable : Map Nat
  pairRecs : Map PairRec
  pseq : Map Nat
  chaff : Map ChaffWin
  twin : Option Nat
  berths : Map Berth
  posted : List Posted
  inbox : List Pkt
  inboxLost : Nat
  ops : List Op
  opsEnded : List Op
  opNext : Nat
  fmPeers : List Nat
  factoryMode : Bool
  fns : Map Fn
  vfEnable : Bool
  numVfs : Nat
  aptReqs : List AptReq
  aptReads : List AptRead
  aptNext : Nat
  aptWait : List (Nat × Pkt)
  hseq : Nat
  hstart : Nat
  advised : Map Nat
  meters : Map Meter
  frozen : List Nat
  links : Map Link
  lanes : Map Lane
  modules : Map Module
  pathSets : Map (Option PathSet)
  steers : Map Steer
  cands : Map (List Nat)
  dieWait : Map (List LinkPkt)
  ackPtr : Map Nat
  unreached : Map Nat
  zones : Map Zone
  cal : Mem
  calQueue : List CalReq
  relocks : List Nat
  ringWarn : List Nat
  ringAct : List Nat
  ringRes : Map Int
  rxOut : List Nat
  sensors : Map Sensor
  accepted : Bool
  peerMinSvn : Nat
  rngStopped : Bool
  helm : Helm
  clock : Clock
  alm : Almanac
  gleaner : Gleaner
  pins : Pins
  bu : BringUp
  ind : Indirect
  nv : NonVol
  resValid : Bool
  rcalBoot : Nat
  rcalHeld : Bool
  cross : Map Nat
  dieCause : Map Nat
  generation : Nat
  changed : Nat
  calImage : Option CalImage
  bist : List Nat
  releaseWait : List (Nat × Nat)
  capture : Option (Nat × Bool)
  calHeld : List (Nat × Nat × List Byte)
  standby : Option Nat
  deriving DecidableEq, Repr

/-- The machine right after reset (R384, R392; values that the spec does not give: log 5, log 6). -/
def State.reset : State :=
  { pending := [], freeCtr := 0, net := [], out := [], reports := [], reckon := 0, dieCycle := [], dieStep := [], hold := [], holdNotice := []
    meshDown := [], selfNum := 0, selfValid := false, variant := 1, ready := false, cores := [], gateways := [], coreDown := [], dieDown := []
    clusterDown := [], clusterUp := [], clusterOwner := [], barns := [], gangs := [], sheaf := [], sheafEarly := [], shLate := [], hbm := [], poison := []
    granules := [], channels := [], queueOwner := [], queues := [], readAhead := [], rowWait := [], repairs := [], courses := [], srcWin := [], dstWin := []
    pool1 := 524288, pool3 := 524288, grantQ := [], grantMax1 := 256, grantMax3 := 1024
    slices := [128, 128, 128, 512, 512, 512, 512, 512, 512, 1984, 1376, 1376], fabCtr := [], memCtr := [], plan := [], ports := []
    pairTable := [], pairRecs := [], pseq := [], chaff := [], twin := none, berths := [], posted := [], inbox := [], inboxLost := 0, ops := []
    opsEnded := [], opNext := 1, fmPeers := [], factoryMode := false, fns := [], vfEnable := false, numVfs := 0, aptReqs := [], aptReads := []
    aptNext := 0, aptWait := [], hseq := 0, hstart := 0, advised := []
    meters := [(256, { Meter.init with opened := ⟨0, 0, 0, 0, 0, 0, 0, true⟩ })], frozen := [], links := [], lanes := [], modules := []
    pathSets := [], steers := [], cands := [], dieWait := [], ackPtr := [], unreached := [], zones := [], cal := [], calQueue := [], relocks := []
    ringWarn := [], ringAct := [], ringRes := [], rxOut := []
    sensors := [], accepted := false, peerMinSvn := 0, rngStopped := false, helm := .init, clock := .init, alm := .init, gleaner := .init
    pins := .init, bu := .init, ind := .init, nv := .init, resValid := false, rcalBoot := 0, rcalHeld := false, cross := [], dieCause := []
    generation := 0, changed := 0, calImage := none, bist := [], releaseWait := [], capture := none, calHeld := [], standby := none }

/-- The faults that stop a run: none, every happening of the spec leaves a state. -/
inductive Fault where
  /-- Never raised: kept so that the type names the case of a step outside the machine. Safe. -/
  | outside
  deriving DecidableEq, Repr

/-- The refusals. -/
inductive Refusal where
  /-- An arm of Dispatch whose meaning is not yet written; the string is the row's mnemonic. Safe. -/
  | notModelled (mnemonic : String)
  deriving DecidableEq, Repr

abbrev Out := Host.Outcome State Fault Refusal

end Sys2Proof.Machine
end

