-- ==== Sys2Proof/Machine/Ops.lean ====
section
/-! DEFINITION. The named operations over the state that the meanings share: registers, threads, cores, counters, notices,
interrupt messages, fault reports, thread exceptions and the SRAM of a core. -/
namespace Sys2Proof.Machine

/-! Geometry (R5, R6, R20, R242). A core number is 1024 d + 32 x + y. -/

def coreDie (c : Nat) : Nat := c / 1024
def coreX (c : Nat) : Nat := c / 32 % 32
def coreY (c : Nat) : Nat := c % 32
/-- R6, with the die in front: the package cluster number. -/
def coreCluster (c : Nat) : Nat := 16 * coreDie c + 4 * (coreY c / 8) + coreX c / 8
/-- The cores of a package cluster. -/
def clusterCores (k : Nat) : List Nat :=
  (List.range 64).map fun i => 1024 * (k / 16) + 32 * (8 * (k % 4) + i / 8) + 8 * (k % 16 / 4) + i % 8
/-- The package number in 29-bit coordinates (Table 0-2). -/
def coordOf (selfNum c : Nat) : Nat := selfNum * 16384 + c
/-- A plane-1 endpoint address (Table 1-3). -/
def plane1 (selfNum d x y : Nat) : Nat := 2 ^ 29 + coordOf selfNum (1024 * d + 32 * x + y)
def gatewayEp (selfNum g : Nat) : Nat := plane1 selfNum (g / 16) 1 (g % 16)
def portEp (selfNum p : Nat) : Nat := plane1 selfNum (p % 16) 2 (p / 16)
def memEp (selfNum d : Nat) : Nat := plane1 selfNum d 0 0
def bridgeEp (selfNum : Nat) : Nat := plane1 selfNum 0 30 31
def helmEp (selfNum : Nat) : Nat := plane1 selfNum 0 31 31
/-- The fields of an endpoint address. -/
def epPlane (e : Nat) : Bool := bitAt e 29
def epPkg (e : Nat) : Nat := bitsAt e 14 15
def epDie (e : Nat) : Nat := bitsAt e 10 4
def epX (e : Nat) : Nat := bitsAt e 5 5
def epY (e : Nat) : Nat := bitsAt e 0 5
/-- Edge ports of a variant (R22): FN72-E fits block positions 0 to 9. -/
def portFitted (variant p : Nat) : Bool := decide (p < 72) && (decide (variant ≠ 3) || decide (p % 18 < 10))
/-- Slots that hold a package in a variant (R8). -/
def slotsOf (variant : Nat) : Nat := if variant = 3 then 32 else 64

/-! Tables of the state. -/

def State.core (s : State) (c : Nat) : Core := tget Core.init s.cores c
def State.setCore (s : State) (c : Nat) (k : Core) : State := { s with cores := tset Core.init s.cores c k }
def State.onCore (s : State) (c : Nat) (f : Core → Core) : State := s.setCore c (f (s.core c))
def Core.th (k : Core) (t : Nat) : Thread := tget Thread.init k.threads t
def Core.setTh (k : Core) (t : Nat) (h : Thread) : Core := { k with threads := tset Thread.init k.threads t h }
def State.th (s : State) (c t : Nat) : Thread := (s.core c).th t
def State.setTh (s : State) (c t : Nat) (h : Thread) : State := s.setCore c ((s.core c).setTh t h)
def State.gw (s : State) (g : Nat) : Gateway := tget Gateway.init s.gateways g
def State.setGw (s : State) (g : Nat) (w : Gateway) : State := { s with gateways := tset Gateway.init s.gateways g w }
def State.berth (s : State) (b : Nat) : Berth := tget Berth.init s.berths b
def State.setBerth (s : State) (b : Nat) (h : Berth) : State := { s with berths := tset Berth.init s.berths b h }
def State.port (s : State) (p : Nat) : EdgePort := tget EdgePort.init s.ports p
def State.setPort (s : State) (p : Nat) (e : EdgePort) : State := { s with ports := tset EdgePort.init s.ports p e }
def State.fn (s : State) (f : Nat) : Fn := tget Fn.init s.fns f
def State.setFn (s : State) (f : Nat) (x : Fn) : State := { s with fns := tset Fn.init s.fns f x }
def State.barn (s : State) (b : Nat) : Option Barn := tget none s.barns b
def State.barnExists (s : State) (b : Nat) : Bool := (s.barn b).isSome
def State.onBarn (s : State) (b : Nat) (f : Barn → Barn) : State := { s with barns := tset none s.barns b ((s.barn b).map f) }
/-- A change of a barn's configuration record advances CONFIG_SEQ (R419). -/
def State.configChanged (s : State) (b : Nat) : State := s.onBarn b fun x => { x with configSeq := (x.configSeq + 1) % 2 ^ 32 }
/-- The barn that owns a cluster (R425), if any barn does. -/
def State.clusterBarn (s : State) (k : Nat) : Option Nat :=
  let b := tget 0 s.clusterOwner k
  if s.barnExists b then some b else none
def State.coreBarn (s : State) (c : Nat) : Option Nat := s.clusterBarn (coreCluster c)
/-- The barn number hardware stamps on what a core sends (R325). -/
def State.coreStamp (s : State) (c : Nat) : Nat := (s.coreBarn c).getD 0
def State.queueBarn (s : State) (q : Nat) : Option Nat :=
  let b := tget 0 s.queueOwner q
  if s.barnExists b then some b else none
def State.mctr (s : State) (b : Nat) : MemCtr := tget MemCtr.init s.memCtr b
def State.onMctr (s : State) (b : Nat) (f : MemCtr → MemCtr) : State :=
  { s with memCtr := tset MemCtr.init s.memCtr b (f (s.mctr b)) }
def State.fctr (s : State) (b : Nat) : FabCtr := tget FabCtr.init s.fabCtr b
def State.onFctr (s : State) (b : Nat) (f : FabCtr → FabCtr) : State :=
  { s with fabCtr := tset FabCtr.init s.fabCtr b (f (s.fctr b)) }

/-- R7, R25: a unit the floor-plan map marks unavailable. -/
def State.clusterOut (s : State) (k : Nat) : Bool := s.clusterDown.contains k
def State.coreOut (s : State) (c : Nat) : Bool := s.coreDown.contains c || s.nv.fusedCores.contains c || s.clusterOut (coreCluster c)

/-! Threads and registers (R88, R89). -/

def Thread.gr (h : Thread) (n : Nat) : BitVec 64 := if n = 0 then 0 else tget 0 h.g n
def Thread.setG (h : Thread) (n : Nat) (v : BitVec 64) : Thread := if n = 0 then h else { h with g := tset 0 h.g n v }
def Thread.pr (h : Thread) (n : Nat) : Bool := decide (n = 0) || h.p.getLsbD n
def Thread.setP (h : Thread) (n : Nat) (b : Bool) : Thread :=
  if n = 0 then h else { h with p := if b then h.p ||| (1#8 <<< n) else h.p &&& ~~~(1#8 <<< n) }
def Thread.gNat (h : Thread) (n : Nat) : Nat := (h.gr n).toNat

/-- A core that executes: it accepts work (R67), and no frozen pair member holds its die (R310). -/
def State.coreActive (s : State) (c : Nat) : Bool :=
  decide ((s.core c).power = .running) && !s.frozen.contains (coreDie c)

/-- R83: whether a position of the 64-cycle frame is a hold cycle under H. -/
def isHold (h j : Nat) : Bool := decide ((j * h) / 64 < ((j + 1) * h) / 64)
/-- Hold count in effect on a die (R83). -/
def State.holdOf (s : State) (d : Nat) : Nat := tget 0 s.hold d
/-- The cycles of the present tick's two that are no hold cycles on a die (R84, R389). -/
def State.freeCycles (s : State) (d : Nat) : Nat :=
  let n := tget 0 s.dieCycle d
  boolNat (!isHold (s.holdOf d) (n % 64)) + boolNat (!isHold (s.holdOf d) ((n + 1) % 64))
/-- A core whose engines act in the present tick: it executes, and not both cycles are hold cycles (R84, R109). -/
def State.coreSteps (s : State) (c : Nat) : Bool := s.coreActive c && decide (s.freeCycles (coreDie c) ≠ 0)

/-! Free values (log 4): an uninterpreted constant applied to a counter that the step advances. -/

def State.free (s : State) (w : Nat) : Nat × State := (Config.freeValue s.freeCtr % 2 ^ w, { s with freeCtr := s.freeCtr + 1 })

/-! Fault reports (R434). -/

def State.report (s : State) (kind unit detail : Nat) : State := { s with reports := s.reports ++ [⟨kind, unit, detail, s.reckon, none⟩] }
/-- A report whose rule names its class itself (R321). -/
def State.reportAs (s : State) (base kind unit detail : Nat) : State :=
  { s with reports := s.reports ++ [⟨kind, unit, detail, s.reckon, some base⟩] }

/-! Interrupt messages (R351) and berth doorbells (R327, R335). -/

def State.fnExists (s : State) (f : Nat) : Bool := decide (f = 0) || (s.vfEnable && decide (f ≤ s.numVfs))
def State.msix (s : State) (f vec : Nat) : State :=
  if s.fnExists f then
    if bitAt (s.fn f).unmasked vec then { s with out := s.out ++ [.msix f vec] }
    else s.setFn f { s.fn f with pend := (s.fn f).pend ||| 2 ^ vec }
  else s
/-- The notification of a berth whose BERTH_IN gained bit `n` (R327). -/
def State.berthNotify (s : State) (b n : Nat) : State :=
  if n = 31 ∨ (s.berth b).mask.getLsbD n then
    if b < 256 then s.msix b 0
    else if b = 256 then s.msix 0 1
    else if b = 257 then s.msix 0 2
    else if b = 258 then { s with out := s.out ++ [.i3c] }
    else s
  else s
def State.berthRaise (s : State) (b n : Nat) : State :=
  (s.setBerth b { s.berth b with bin := (s.berth b).bin ||| (1#32 <<< n) }).berthNotify b n
/-- A core thread berth exists while its barn does; the service berths always do. -/
def State.berthServed (s : State) (b : Nat) : Bool := if b < 256 then s.barnExists b else decide (b < 259) || decide (b = 271)

def noticeTail (h : Berth) : Nat := leVal (memRead h.repArea 0xF08 2)
def noticeHead (h : Berth) : Nat := leVal (memRead h.reqArea 0xF00 2)
def noticeLost (h : Berth) : Nat := leVal (memRead h.repArea 0xF0A 4)
/-- R335: the 64 bytes of a notice. -/
def noticeBytes (rseq nkind reckon : Nat) (body : List Byte) : List Byte :=
  leBytes 4 rseq ++ leBytes 2 nkind ++ leBytes 2 0 ++ leBytes 8 reckon ++ padTo 48 body
def keepPosted (now : Nat) (l : List Posted) (p : Posted) : List Posted :=
  (l.filter fun q => decide (now ≤ 1600000 + q.time)) ++ [p]
/-- R335: one notice to one berth, or its loss when the ring is full; a stopped helm posts none (R319). -/
def State.postNotice (s : State) (b nkind : Nat) (body : List Byte) : State :=
  if s.berthServed b && !s.helm.stopped then
    let h := s.berth b
    let t := noticeTail h
    if (65536 + t - noticeHead h) % 65536 = 32 then
      (s.setBerth b { h with repArea := memWrite h.repArea 0xF0A (leBytes 4 (noticeLost h + 1)) }).berthRaise b 30
    else
      let bytes := noticeBytes (h.rseq + 1) nkind s.reckon body
      let r1 := memWrite h.repArea (0x700 + 64 * (t % 32)) bytes
      let h' := { h with repArea := memWrite r1 0xF08 (leBytes 2 (t + 1)), rseq := (h.rseq + 1) % 2 ^ 32 }
      ({ s with posted := keepPosted s.reckon s.posted ⟨b, none, s.reckon, bytes⟩ }.setBerth b h').berthRaise b 8
  else s
/-- R336: a priority notice to one berth. -/
def State.postPriority (s : State) (b nkind : Nat) (body : List Byte) : State :=
  if s.berthServed b && !s.helm.stopped then
    let h := s.berth b
    let n := h.prioCount + 1
    let bytes := noticeBytes (h.rseq + 1) nkind s.reckon (padTo 44 body ++ leBytes 4 n)
    let h' := { h with repArea := memWrite h.repArea 0xFC0 bytes, rseq := (h.rseq + 1) % 2 ^ 32, prioCount := n % 2 ^ 32 }
    (s.setBerth b h').berthRaise b 31
  else s

/-! Thread exceptions (R115 to R118). -/

/-- R118, Table 13-11: the notice of a fault of thread 0. -/
def State.thread0Notice (s : State) (c : Nat) : State :=
  match s.coreBarn c with
  | some b =>
    let h := s.th c 0
    s.postNotice b 0x01 (leBytes 4 (coordOf s.selfNum c) ++ leBytes 8 h.fcause.toNat ++ leBytes 2 h.fpc.toNat)
  | none => s
/-- R115, R116: thread `t` of core `c` becomes faulted; a faulted thread keeps its first cause until it is restarted, and a stopped one takes
none (R114). -/
def State.raise (s : State) (c t code status extra pc addr : Nat) : State :=
  let h := s.th c t
  if h.st = .faulted ∨ h.st = .stopped then s
  else
  let s' := s.setTh c t { h with
    st := .faulted
    fcause := BitVec.ofNat 24 (code + 256 * status + 65536 * min 255 extra)
    fpc := BitVec.ofNat 15 pc
    faddr := BitVec.ofNat 64 addr }
  if t = 0 then s'.thread0Notice c else s'
/-- R117: bit t of FAULTED. -/
def Core.faultedMask (k : Core) : Nat :=
  k.threads.foldl (fun a (t, h) => if h.st = .faulted then a ||| 2 ^ t else a) 0
def Core.activeThreads (k : Core) : Nat := (k.threads.filter fun (_, h) => decide (h.st ≠ .stopped)).length

/-- The span requests of a core (R103); an STSB that still reads its source, and a store that waits behind one, count. -/
def BankOp.isSpan (o : BankOp) : Bool :=
  match o.what with
  | .stsb _ => true
  | .span _ _ => true
  | _ => false
def Core.spanCount (k : Core) : Nat := k.reqs.length + (k.threads.flatMap fun (_, h) => h.bankOps.filter BankOp.isSpan).length

/-! Phase faults (R80, R131, R139) and counters (R75, R76). -/

/-- R107: the outcomes of the 256 most recent launches are kept. -/
def Core.recentSeq (k : Core) (seq : Nat) : Bool := decide ((2 ^ 32 + k.launchSeq - 1 - seq) % 2 ^ 32 < 256)
def Core.trimOutcomes (k : Core) : Core := { k with outcomes := k.outcomes.filter fun o => k.recentSeq o.seq }
def Core.outcome (k : Core) (o : Outcome) : Core := { k with outcomes := k.outcomes ++ [o] }.trimOutcomes
/-- The gang line of a phase table entry, 0 for none (Table 5-2). -/
def Core.gangOf (k : Core) (entry : Nat) : Nat := bitsAt (tget 0 k.phaseTab entry) 54 6
def State.gang (s : State) (key : Nat) : Gang := tget Gang.init s.gangs key
/-- The launch of core `c` that is armed for a gang line. -/
def Core.armedFor (k : Core) (line : Nat) : Option (Launch × List Launch) :=
  match k.queue with
  | l :: q => if l.armed ∧ k.gangOf l.entry = line ∧ k.run.isNone then some (l, q) else none
  | [] => none
/-- Whether a core's armed or running phase belongs to a gang line. -/
def Core.inGang (k : Core) (line : Nat) : Bool :=
  match k.run with
  | some r => decide (k.gangOf r.launch.entry = line)
  | none => (k.armedFor line).isSome
/-- R131: core `c`'s phase of a gang line is lost; `hit` says that it was armed or running. A gang of which some member is armed or running loses a
member then. -/
def State.gangLose (s : State) (c line : Nat) (hit : Bool) : State :=
  if line = 0 then s
  else
    let key := 32 * coreDie c + line - 1
    let g := s.gang key
    if hit || g.members.any fun m => decide (m ≠ c) && (s.core m).inGang line then
      { s with gangs := tset Gang.init s.gangs key { g with lost := true } }
    else s
/-- R80, R139: a phase fault of the running phase, or else of the launch at the head of the queue. Every code but 0x05 is
reported as class 2 (kind 0x05). -/
def State.phaseFault (s : State) (c code : Nat) : State :=
  let k := s.core c
  let hit : Option (Launch × Core × Bool) :=
    match k.run with
    | some r => some (r.launch, { k with run := none }, true)
    | none =>
      match k.queue with
      | l :: q => some (l, { k with queue := q }, l.armed)
      | [] => none
  match hit with
  | none => s
  | some (l, k', fired) =>
    let s1 := s.setCore c { k'.outcome ⟨l.seq, 2, code⟩ with held := some code, cbeats := [] }
    let s2 := s1.gangLose c (k.gangOf l.entry) fired
    if code = 5 then s2 else s2.report 0x05 c code
def Core.ctr (k : Core) (credit : Bool) (n : Nat) : Nat := if credit then tget 0 k.cc n else tget 0 k.tk n
def Core.setCtr (k : Core) (credit : Bool) (n v : Nat) : Core :=
  if credit then { k with cc := tset 0 k.cc n v } else { k with tk := tset 0 k.tk n v }

/-- The increments of one cycle that reach one counter, summed (R75). -/
def sumTo (l : List (Bool × Nat × Nat)) (credit : Bool) (n : Nat) : Nat :=
  (l.filter fun x => x.1 == credit && decide (x.2.1 = n)).foldl (fun a x => a + x.2.2) 0
/-- R75, R76: the increments of one cycle; each is a counter's kind (credit or token), its number and the amount. A counter that would pass 65,535
stays there, and one phase raises the fault. -/
def State.addCounters (s : State) (c : Nat) (l : List (Bool × Nat × Nat)) : State :=
  let k := s.core c
  let keys := (l.map fun x => (x.1, x.2.1)).eraseDups
  let k1 := keys.foldl (fun k (cr, n) => k.setCtr cr n (min 65535 (k.ctr cr n + sumTo l cr n))) k
  if keys.any fun (cr, n) => decide (65535 < k.ctr cr n + sumTo l cr n) then (s.setCore c { k1 with ovf := true }).phaseFault c 3
  else s.setCore c k1
/-- One increment of token counter (`credit` false) or credit counter `n` of core `c`. -/
def State.addCounter (s : State) (c : Nat) (credit : Bool) (n amt : Nat) : State := s.addCounters c [(credit, n, amt)]

/-! SRAM of a core (R62 to R66, R86). -/

/-- A write into SRAM; it cancels the write-backs of the 8-byte words it touches (R66). -/
def Core.sramWrite (k : Core) (a : Nat) (bs : List Byte) : Core :=
  { k with
    sram := memWrite k.sram a bs
    writeBacks := k.writeBacks.filter fun w => decide (w + 8 ≤ a) || decide (a + bs.length ≤ w) }
/-- R66: what the check bits of a row read mean: whether the read fails, and the effects on the core and the gleaner. -/
def State.sramCheck (s : State) (c row : Nat) (e : Ecc) : Bool × State :=
  match e with
  | .ok => (true, s)
  | .corrected w =>
    let word := row / 64 * 64 + 8 * w.val
    let k := s.core c
    if k.writeBacks.contains word then (true, s)
    else
      let k' := { k with ce := true, writeBacks := if k.writeBacks.length < 4 then k.writeBacks ++ [word] else k.writeBacks }
      (true, (s.setCore c k').report 0x01 c word)
  | .uncorrectable => (false, (s.setCore c { s.core c with ue := true }).report 0x02 c row)
/-- The rows of a read from `row` on: corrected words are met in order, and the first uncorrectable one fails the read. -/
def sramChecks (s : State) (c row : Nat) : List Ecc → Bool × State
  | [] => (true, s)
  | e :: l =>
    let (ok, s1) := s.sramCheck c row e
    if ok then sramChecks s1 c (row + 64) l else (false, s1)

/-- A write into the instruction store; what it replaces is kept for the fetches that may still miss it (R62). -/
def Core.istoreWrite (k : Core) (a : Nat) (bs : List Byte) : Core :=
  { k with istore := memWrite k.istore a bs, iHist := k.iHist ++ [(a, memRead k.istore a bs.length)] }

/-- Regions of the core window (Table 3-5). -/
inductive Region where
  | sram | istore | counter | status | none
  deriving DecidableEq, Repr
def regionOf (a n : Nat) : Region :=
  if a + n ≤ 0x60000 then .sram
  else if 0x80000 ≤ a ∧ a + n ≤ 0x88000 then .istore
  else if 0xC0000 ≤ a ∧ a + n ≤ 0xC0100 ∧ n = 4 ∧ a % 4 = 0 then .counter
  else if a = 0xC0100 ∧ n = 4 then .status
  else .none
inductive AccKind where
  | load | store | atomic
  deriving DecidableEq, Repr
/-- Whether Table 3-5 allows an access of `n` bytes at `a`. -/
def localAllowed (kind : AccKind) (a n : Nat) : Bool :=
  match regionOf a n, kind with
  | .sram, _ => true
  | .istore, .atomic => false
  | .istore, _ => true
  | .counter, .atomic => false
  | .counter, _ => true
  | .status, .atomic => false
  | .status, _ => true
  | .none, _ => false

/-- Bit [11:0] of one word of Table 5-2: a condition. -/
structure Cond where
  en : Bool
  ctr : Nat
  thr : Nat
  deriving DecidableEq, Repr
def condAt (desc lo : Nat) : Cond := ⟨bitAt desc lo, bitsAt desc (lo + 1) 5, bitsAt desc (lo + 6) 16⟩
/-- TOKEN0 to TOKEN3 and CREDIT0 to CREDIT3 of a descriptor (Table 5-2); the flag says credit. -/
def descConds (desc : Nat) : List (Bool × Cond) :=
  ((List.range 4).map fun i => (false, condAt desc (72 + 22 * i))) ++ ((List.range 4).map fun i => (true, condAt desc (160 + 22 * i)))
/-- R77: every enabled condition holds. -/
def Core.condsHold (k : Core) (entry : Nat) : Bool :=
  (descConds (tget 0 k.phaseTab entry)).all fun (cr, x) => !x.en || decide (x.thr ≤ k.ctr cr x.ctr)
/-- R77: each named counter reduced by its threshold. -/
def Core.takeConds (k : Core) (entry : Nat) : Core :=
  (descConds (tget 0 k.phaseTab entry)).foldl (fun k (cr, x) => if x.en then k.setCtr cr x.ctr (k.ctr cr x.ctr - x.thr) else k) k
/-- R77, R108: the head phase fires in the present cycle and takes from this counter before any thread does. -/
def Core.headTakes (k : Core) (credit : Bool) (n : Nat) : Bool :=
  match k.queue with
  | l :: _ => !l.armed && k.run.isNone && k.held.isNone && k.condsHold l.entry
      && (descConds (tget 0 k.phaseTab l.entry)).any fun (cr, x) => x.en && cr == credit && decide (x.ctr = n)
  | [] => false
/-- R108: a waiting TKTAKE or CCTAKE of a thread below `t` whose test on this counter holds. -/
def Core.takeBefore (k : Core) (credit : Bool) (n t : Nat) : Bool :=
  k.threads.any fun (u, h) => decide (u < t) && match h.st with
    | .waiting (.counter cr m thr take) => take && cr == credit && decide (m = n) && decide (thr ≤ k.ctr credit n)
    | _ => false
/-- Table 3-6. -/
def State.coreStatus (s : State) (c : Nat) : Nat :=
  let k := s.core c
  let waiting := match k.queue with
    | l :: _ => !l.armed && k.run.isNone && k.held.isNone && !k.condsHold l.entry
    | [] => false
  packFields [(7, k.activeThreads), (1, 0), (4, k.queue.length + (if k.run.isSome then 1 else 0)), (1, boolNat k.run.isSome),
    (1, boolNat waiting), (1, boolNat k.ovf), (1, boolNat k.ce), (1, boolNat k.ue),
    (1, boolNat (decide (k.power = .zeroing) || decide (k.power = .reset))), (1, boolNat k.held.isSome), (6, s.holdOf (coreDie c))]
/-- A read of the core window at a place its region allows (R86); `a` and `n` as in `regionOf`. -/
def State.windowRead (s : State) (c a n : Nat) : List Byte :=
  let k := s.core c
  match regionOf a n with
  | .sram => memRead k.sram a n
  | .istore => memRead k.istore (a - 0x80000) n
  | .counter => leBytes 4 (k.ctr (decide (0xC0080 ≤ a)) (a % 0x80 / 4))
  | .status => leBytes 4 (s.coreStatus c)
  | .none => List.replicate n 0
/-- A write of the core window (R86): a store to a counter adds bits [15:0]; CORE_STATUS clears the W1C bits written 1. -/
def State.windowWrite (s : State) (c a : Nat) (bs : List Byte) : State :=
  let k := s.core c
  match regionOf a bs.length with
  | .sram => s.setCore c (k.sramWrite a bs)
  | .istore => s.setCore c (k.istoreWrite (a - 0x80000) bs)
  | .counter => s.addCounter c (decide (0xC0080 ≤ a)) (a % 0x80 / 4) (leVal bs % 65536)
  | .status =>
    let v := leVal bs
    s.setCore c { k with ovf := k.ovf && !bitAt v 14, ce := k.ce && !bitAt v 15, ue := k.ue && !bitAt v 16 }
  | .none => s

/-! Atomics (Table 4-9). -/

/-- The new contents of 8 bytes under atomic `fn`; `d` is the comparand of CAS. None for a code that is not listed. -/
def atomicNew (fn : Nat) (old b d : BitVec 64) : Option (BitVec 64) :=
  match fn with
  | 0 => some (old + b)
  | 1 => some (old &&& b)
  | 2 => some (old ||| b)
  | 3 => some (old ^^^ b)
  | 4 => some b
  | 5 => some (if old = d then b else old)
  | 6 => some (if b.slt old then b else old)
  | 7 => some (if old.slt b then b else old)
  | 8 => some (if b.ult old then b else old)
  | 9 => some (if old.ult b then b else old)
  | _ => none

/-! Meters (R400, R403). -/

def State.meter (s : State) (b : Nat) : Meter := tget Meter.init s.meters b
def State.onMeter (s : State) (b : Nat) (f : MeterOpen → MeterOpen) : State :=
  { s with meters := tset Meter.init s.meters b { s.meter b with opened := f (s.meter b).opened } }
/-- R400: an orphan stop of a barn's core. -/
def State.meterOrphan (s : State) (b : Nat) : State := s.onMeter b fun m => { m with orphans := min (2 ^ 32 - 1) (m.orphans + 1) }

/-! Tallies (R254). -/

def State.tally (s : State) (g n : Nat) : Nat := tget 0 (s.gw g).tallies n
def State.setTally (s : State) (g n v : Nat) : State :=
  s.setGw g { s.gw g with tallies := tset 0 (s.gw g).tallies n (v % 2 ^ 32) }
def State.addTally (s : State) (g n v : Nat) : State := s.setTally g n (s.tally g n + v)
/-- "tally ≥ T" modulo 2^32. -/
def tallyMet (v thr : Nat) : Bool := decide ((2 ^ 32 + v - thr % 2 ^ 32) % 2 ^ 32 < 2 ^ 31)

end Sys2Proof.Machine
end

