-- ==== Sys2Proof/Machine/Insn.lean ====
section
/-! DEFINITION. The words of the thread engine's instructions (R93, R95, Tables 4-6 to 4-12a): the fields of each format, which fields and types
each instruction admits, the encoder that lays an instruction's fields out as words, and the decoder that picks the instruction from them. -/
namespace Sys2Proof.Machine

/-! Encodings (Table 4-6). -/

/-- The place, guard and encoding facts of one issue. -/
structure Site where
  c : Nat
  t : Nat
  gn : Bool
  gp : Nat
  word0 : Nat
  word1 : Nat
  words : Nat
  legal : Bool
  g : List Nat
  v : List Nat

def headWord (gn : Bool) (gp : BitVec 3) (op : Nat) : Nat := boolNat gn * 2 ^ 31 + gp.toNat * 2 ^ 28 + op * 2 ^ 22
def IssueA.word (i : IssueA) (op fn : Nat) : Nat :=
  headWord i.gn i.gp op + i.d.toNat * 2 ^ 17 + i.a.toNat * 2 ^ 12 + i.b.toNat * 2 ^ 7 + fn
def IssueI.word (i : IssueI) (op : Nat) : Nat := headWord i.gn i.gp op + i.d.toNat * 2 ^ 17 + i.a.toNat * 2 ^ 12 + i.imm.toNat
def IssueM.word (i : IssueM) (op : Nat) : Nat :=
  headWord i.gn i.gp op + i.d.toNat * 2 ^ 17 + i.a.toNat * 2 ^ 12 + i.sz.toNat * 2 ^ 9 + i.off.toNat
def IssueK.word (i : IssueK) (op fn : Nat) : Nat := headWord i.gn i.gp op + i.d.toNat * 2 ^ 17 + i.a.toNat * 2 ^ 12 + fn
def IssueJ.word (i : IssueJ) (op : Nat) : Nat := headWord i.gn i.gp op + i.off.toNat
def IssueV.word (i : IssueV) (op fn : Nat) : Nat :=
  headWord i.gn i.gp op + i.vd.toNat * 2 ^ 16 + i.va.toNat * 2 ^ 10 + i.vb.toNat * 2 ^ 4 + fn
/-- Word 1 of format V; that of format K is IMM32. -/
def IssueV.word1 (i : IssueV) : Nat :=
  i.vc.toNat * 2 ^ 26 + i.gs.toNat * 2 ^ 21 + i.rm.toNat * 2 ^ 18 + boolNat i.sat * 2 ^ 17 + i.ety.toNat * 2 ^ 12 + i.imm.toNat

/-- How format A uses one of its register fields: a g register, a predicate, or not at all (R93, R95). R95 names D[4:3] of a predicate; the bits
[4:3] of A and B of PAND, POR, PXOR and PANDN, which use A[2:0] and B[2:0], must be zero too: DEDUCED from R95's last clause (log 37). -/
inductive Use where
  | g | p | none
  deriving DecidableEq, Repr
def Use.ok (u : Use) (x : BitVec 5) : Bool :=
  match u with
  | .g => true
  | .p => decide (x.toNat < 8)
  | .none => decide (x = 0)
def Use.reg (u : Use) (x : BitVec 5) : List Nat := if u = .g then [x.toNat] else []

/-- The site of a format A instruction; `ok` is the legality of its FN. -/
def IssueA.site (i : IssueA) (op fn : Nat) (d a b : Use) (ok : Bool) : Site :=
  { c := i.core.val, t := i.thread.val, gn := i.gn, gp := i.gp.toNat, word0 := i.word op fn, word1 := 0, words := 1
    legal := ok && d.ok i.d && a.ok i.a && b.ok i.b
    g := d.reg i.d ++ a.reg i.a ++ b.reg i.b, v := [] }
def IssueI.site (i : IssueI) (op : Nat) (useD : Bool) (ok : Bool) : Site :=
  { c := i.core.val, t := i.thread.val, gn := i.gn, gp := i.gp.toNat, word0 := i.word op, word1 := 0, words := 1
    legal := ok, g := (if useD then [i.d.toNat] else []) ++ [i.a.toNat], v := [] }
/-- SZ 0b111 is illegal (R95). -/
def IssueM.site (i : IssueM) (op : Nat) : Site :=
  { c := i.core.val, t := i.thread.val, gn := i.gn, gp := i.gp.toNat, word0 := i.word op, word1 := 0, words := 1
    legal := decide (i.sz ≠ 7), g := [i.d.toNat, i.a.toNat], v := [] }
def IssueK.site (i : IssueK) (op fn : Nat) : Site :=
  { c := i.core.val, t := i.thread.val, gn := i.gn, gp := i.gp.toNat, word0 := i.word op fn, word1 := i.imm.toNat, words := 2
    legal := decide (i.a = 0), g := [i.d.toNat], v := [] }
def IssueJ.site (i : IssueJ) (op : Nat) (g : List Nat) : Site :=
  { c := i.core.val, t := i.thread.val, gn := i.gn, gp := i.gp.toNat, word0 := i.word op, word1 := 0, words := 1, legal := true, g := g, v := [] }

/-! Element types and rounding modes (Tables 2-6 and 4-7, R93, R95). -/

/-- An element type that arithmetic and conversions accept: a float format, or an integer of a width. -/
inductive EType where
  | flt (f : FFmt)
  | int (w : Nat)
  deriving DecidableEq, Repr
/-- Table 4-7 without the MX block types. -/
def etypeOf (code : Nat) : Option EType :=
  match code with
  | 0x00 => some (.flt fmtFP64)
  | 0x01 => some (.flt fmtFP32)
  | 0x02 => some (.flt fmtBF16)
  | 0x03 => some (.flt fmtFP16)
  | 0x04 => some (.flt fmtE4M3)
  | 0x05 => some (.flt fmtE5M2)
  | 0x09 => some (.int 32)
  | 0x0A => some (.int 8)
  | 0x0B => some (.int 4)
  | 0x0C => some (.int 64)
  | _ => none
def EType.width (t : EType) : Nat :=
  match t with
  | .flt f => f.width
  | .int w => w
def EType.count (t : EType) : Nat := 2048 / t.width
/-- The MX element formats of codes 0x04 to 0x08. -/
def mxOf (code : Nat) : Option FFmt :=
  match code with
  | 0x04 => some fmtE4M3
  | 0x05 => some fmtE5M2
  | 0x06 => some fmtE3M2
  | 0x07 => some fmtE2M3
  | 0x08 => some fmtE2M1
  | _ => none
def rmOf (rm : BitVec 3) : Option RMode :=
  match rm.toNat with
  | 0 => some .rne
  | 1 => some .rtz
  | 2 => some .sr
  | 4 => some .rup
  | 5 => some .rdn
  | _ => none
def rmIsSr (m : RMode) : Bool := decide (m = .sr)
/-- R95: SR only on BF16, FP16, FP8 or MX results; RUP and RDN not on FP8 or MX results. -/
def rmLegal (m : RMode) (t : EType) : Bool :=
  let fp8 := decide (t = .flt fmtE4M3) || decide (t = .flt fmtE5M2)
  match m with
  | .sr => decide (t = .flt fmtBF16) || decide (t = .flt fmtFP16) || fp8
  | .rup => !fp8
  | .rdn => !fp8
  | _ => true
def arithType (code : Nat) : Bool := code == 0 || code == 1 || code == 2 || code == 3 || code == 9 || code == 12
def floatType (code : Nat) : Bool := decide (code ≤ 3)
def intType (code : Nat) : Bool := code == 9 || code == 10 || code == 11 || code == 12
/-- The format of code 0 to 5, FP64 for any other (callers check the code first). -/
def fltOf (code : Nat) : FFmt :=
  match etypeOf code with
  | some (.flt f) => f
  | _ => fmtFP64
def widthOf (code : Nat) : Nat :=
  match etypeOf code with
  | some t => t.width
  | none => 64

/-! Fields of format V. -/

structure VUse where
  vd : Bool := false
  va : Bool := false
  vb : Bool := false
  vc : Bool := false
  gs : Bool := false
  ety : Bool := false
  rm : Bool := false
  sat : Bool := false
  imm : Bool := false
/-- R95: every field that the instruction does not use is zero. -/
def VUse.ok (u : VUse) (i : IssueV) : Bool :=
  (u.vd || i.vd == 0) && (u.va || i.va == 0) && (u.vb || i.vb == 0) && (u.vc || i.vc == 0) && (u.gs || i.gs == 0)
    && (u.ety || i.ety == 0) && (u.rm || i.rm == 0) && (u.sat || !i.sat) && (u.imm || i.imm == 0)
/-- The vector registers named; `vbReg` is false where VB holds a type. -/
def VUse.regs (u : VUse) (vbReg : Bool) (i : IssueV) : List Nat :=
  (if u.vd then [i.vd.toNat] else []) ++ (if u.va then [i.va.toNat] else [])
    ++ (if u.vb && vbReg then [i.vb.toNat] else []) ++ (if u.vc then [i.vc.toNat] else [])
def IssueV.site (i : IssueV) (op fn : Nat) (u : VUse) (vbReg ok : Bool) : Site :=
  { c := i.core.val, t := i.thread.val, gn := i.gn, gp := i.gp.toNat, word0 := i.word op fn, word1 := i.word1, words := 2
    legal := ok && u.ok i, g := if u.gs then [i.gs.toNat] else [], v := u.regs vbReg i }

/-- The fields that an arithmetic instruction uses: RM and the rounding base gS only where a float result is rounded (R95, R106). -/
def arithUse (i : IssueV) (u : VUse) (round : Bool) : VUse :=
  let flt := floatType i.ety.toNat
  { u with ety := true, rm := round && flt, gs := round && flt && rmIsSr ((rmOf i.rm).getD .rne) }
/-- Its type and rounding mode are legal. -/
def arithOk (i : IssueV) (typeOk : Nat → Bool) (round : Bool) : Bool :=
  let ety := i.ety.toNat
  typeOk ety && (rmOf i.rm).isSome
    && (!(round && floatType ety) || rmLegal ((rmOf i.rm).getD .rne) (.flt (fltOf ety)))

def vabd : VUse := { vd := true, va := true, vb := true }
def vabcd : VUse := { vabd with vc := true }
def vad : VUse := { vd := true, va := true }
def vmem : VUse := { vd := true, gs := true, imm := true }
def fp8Result (t : EType) : Bool := decide (t = .flt fmtE4M3) || decide (t = .flt fmtE5M2)
/-- The result type of VCVT and VBCAST is a plain FP8, the only one that takes SAT (R95). -/
def IssueV.toFp8 (i : IssueV) : Bool := ((etypeOf i.ety.toNat).map fp8Result).getD false
/-- The element type in VB[4:0] of VCVT. -/
def IssueV.srcType (i : IssueV) : Option EType := if i.vb.toNat < 32 then etypeOf i.vb.toNat else none
def vcvtUse (i : IssueV) : VUse :=
  { vd := true, va := true, vb := true, ety := true, rm := true, imm := true, gs := rmIsSr ((rmOf i.rm).getD .rne), sat := i.toFp8 }
def vcvtOk (i : IssueV) : Bool :=
  match etypeOf i.ety.toNat, i.srcType, rmOf i.rm with
  | some t, some _, some m => rmLegal m t
  | _, _, _ => false
def vmxpackUse : VUse := { vd := true, va := true, gs := true, ety := true, rm := true }
def vmxpackOk (i : IssueV) : Bool :=
  match mxOf i.ety.toNat, rmOf i.rm with
  | some _, some m => decide (m ≠ .rup) && decide (m ≠ .rdn)
  | _, _ => false
def vmxunpackUse : VUse := { vd := true, va := true, gs := true, ety := true }
def vbcastUse (i : IssueV) : VUse := { vd := true, gs := true, ety := true, rm := true, sat := i.toFp8 }
def vbcastOk (i : IssueV) : Bool :=
  match etypeOf i.ety.toNat, rmOf i.rm with
  | some t, some m => rmLegal m t
  | _, _ => false
def vextUse : VUse := { va := true, gs := true, ety := true, imm := true }

/-! The table of instructions (Tables 4-8 to 4-12a). -/

/-- The words, legality and registers of a thread instruction; none for a command that is none. -/
def siteOf : Instr → Option Site
  | .add i => some (i.site 0x01 0 .g .g .g true)
  | .sub i => some (i.site 0x01 1 .g .g .g true)
  | .and i => some (i.site 0x01 2 .g .g .g true)
  | .or i => some (i.site 0x01 3 .g .g .g true)
  | .xor i => some (i.site 0x01 4 .g .g .g true)
  | .shl i => some (i.site 0x01 5 .g .g .g true)
  | .shr i => some (i.site 0x01 6 .g .g .g true)
  | .sra i => some (i.site 0x01 7 .g .g .g true)
  | .mul i => some (i.site 0x01 8 .g .g .g true)
  | .mulhs i => some (i.site 0x01 9 .g .g .g true)
  | .mulhu i => some (i.site 0x01 10 .g .g .g true)
  | .div i => some (i.site 0x01 11 .g .g .g true)
  | .divu i => some (i.site 0x01 12 .g .g .g true)
  | .rem i => some (i.site 0x01 13 .g .g .g true)
  | .remu i => some (i.site 0x01 14 .g .g .g true)
  | .min i => some (i.site 0x01 15 .g .g .g true)
  | .minu i => some (i.site 0x01 16 .g .g .g true)
  | .max i => some (i.site 0x01 17 .g .g .g true)
  | .maxu i => some (i.site 0x01 18 .g .g .g true)
  | .clz i => some (i.site 0x01 19 .g .g .none true)
  | .popc i => some (i.site 0x01 20 .g .g .none true)
  | .addi i => some (i.site 0x02 true true)
  | .andi i => some (i.site 0x03 true true)
  | .ori i => some (i.site 0x04 true true)
  | .xori i => some (i.site 0x05 true true)
  | .shi i => some (i.site 0x06 true (decide (i.imm.toNat < 192)))
  | .movi i => some (i.site 0x07 0)
  | .movhi i => some (i.site 0x07 1)
  | .cmp i fn => some (i.site 0x08 fn.toNat .p .g .g (decide (fn.toNat ≤ 5)))
  | .cmpi i => some (i.site 0x09 false true)
  | .pand i => some (i.site 0x0A 0 .p .p .p true)
  | .por i => some (i.site 0x0A 1 .p .p .p true)
  | .pxor i => some (i.site 0x0A 2 .p .p .p true)
  | .pandn i => some (i.site 0x0A 3 .p .p .p true)
  | .ptog i => some (i.site 0x0A 4 .g .none .none true)
  | .gtop i => some (i.site 0x0A 5 .none .g .none true)
  | .br i => some (i.site 0x10 [])
  | .brl i => some (i.site 0x11 [31])
  | .jr i => some (i.site 0x12 0 .g .g .none true)
  | .ldl i _ => some (i.site 0x18)
  | .stl i _ => some (i.site 0x19)
  | .lds i => some (i.site 0x1A)
  | .sts i => some (i.site 0x1B)
  | .stsb i _ => some (i.site 0x1C 0 .g .g .g true)
  | .fenceS i => some (i.site 0x1D 0 .none .none .none true)
  | .fenceA i => some (i.site 0x1D 1 .none .none .none true)
  | .synci i => some (i.site 0x1E 0 .none .none .none true)
  | .atoml i fn _ => some (i.site 0x20 fn.toNat .g .g .g (decide (fn.toNat ≤ 9)))
  | .atoms i fn => some (i.site 0x21 fn.toNat .g .g .g (decide (fn.toNat ≤ 9)))
  | .copy i _ => some (i.site 0x24 0 .g .g .none true)
  | .twait i => some (i.site 0x24 1 .none .g .g true)
  | .trd i => some (i.site 0x24 2 .g .g .none true)
  | .tset i => some (i.site 0x24 3 .none .g .g true)
  | .vadd i => some (i.site 0x14 0 (arithUse i vabd true) true (arithOk i arithType true))
  | .vsub i => some (i.site 0x14 1 (arithUse i vabd true) true (arithOk i arithType true))
  | .vmul i => some (i.site 0x14 2 (arithUse i vabd true) true (arithOk i arithType true))
  | .vfma i => some (i.site 0x14 3 (arithUse i vabcd true) true (arithOk i arithType true))
  | .vdiv i => some (i.site 0x14 4 (arithUse i vabd true) true (arithOk i floatType true))
  | .vsqrt i => some (i.site 0x14 5 (arithUse i vad true) true (arithOk i floatType true))
  | .vmin i => some (i.site 0x14 6 (arithUse i vabd false) true (arithOk i arithType false))
  | .vmax i => some (i.site 0x14 7 (arithUse i vabd false) true (arithOk i arithType false))
  | .vand i => some (i.site 0x14 8 { vabd with ety := true } true (intType i.ety.toNat))
  | .vor i => some (i.site 0x14 9 { vabd with ety := true } true (intType i.ety.toNat))
  | .vxor i => some (i.site 0x14 10 { vabd with ety := true } true (intType i.ety.toNat))
  | .vshl i => some (i.site 0x14 11 { vabd with ety := true } true (intType i.ety.toNat))
  | .vshr i => some (i.site 0x14 12 { vabd with ety := true } true (intType i.ety.toNat))
  | .vcvt i => some (i.site 0x15 0 (vcvtUse i) false (vcvtOk i))
  | .vmxpack i => some (i.site 0x15 1 vmxpackUse true (vmxpackOk i))
  | .vmxunpack i => some (i.site 0x15 2 vmxunpackUse true (mxOf i.ety.toNat).isSome)
  | .vldl i _ => some (i.site 0x16 0 vmem true true)
  | .vstl i _ => some (i.site 0x16 1 vmem true true)
  | .vlds i => some (i.site 0x16 2 vmem true true)
  | .vsts i => some (i.site 0x16 3 vmem true true)
  | .vbcast i => some (i.site 0x16 4 (vbcastUse i) true (vbcastOk i))
  | .vext i => some (i.site 0x16 5 vextUse true (etypeOf i.ety.toNat).isSome)
  | .plaunch i => some (i.site 0x28 0 .g .g .none true)
  | .pwait i => some (i.site 0x28 1 .g .g .none true)
  | .pcancel i => some (i.site 0x28 2 .g .g .none true)
  | .pclr i => some (i.site 0x28 3 .none .none .none true)
  | .pstat i => some (i.site 0x28 4 .g .g .none true)
  | .tkadd i => some (i.site 0x2C 0 .none .g .g true)
  | .ccadd i => some (i.site 0x2C 1 .none .g .g true)
  | .tkrd i => some (i.site 0x2C 2 .g .g .none true)
  | .ccrd i => some (i.site 0x2C 3 .g .g .none true)
  | .tkwait i => some (i.site 0x2C 4 .none .g .g true)
  | .ccwait i => some (i.site 0x2C 5 .none .g .g true)
  | .tktake i => some (i.site 0x2C 6 .none .g .g true)
  | .cctake i => some (i.site 0x2C 7 .none .g .g true)
  | .shsubmit i _ => some (i.site 0x34 0 .g .g .none true)
  | .shwait i => some (i.site 0x34 1 .g .g .none true)
  | .shabort i => some (i.site 0x34 2 .none .g .none true)
  | .shstat i => some (i.site 0x34 3 .g .g .none true)
  | .mbput i _ => some (i.site 0x30 0 .g .g .g true)
  | .mbget i _ => some (i.site 0x30 1 .g .g .g true)
  | .mbring i => some (i.site 0x30 2 .none .g .none true)
  | .mbwait i => some (i.site 0x30 3 .g .g .none true)
  | .mbpoll i => some (i.site 0x30 4 .g .g .none true)
  | .barinit i => some (i.site 0x38 0 .none .g .g true)
  | .barwait i => some (i.site 0x38 1 .none .g .none true)
  | .time i => some (i.site 0x39 0 .g .none .none true)
  | .waituntil i => some (i.site 0x39 1 .none .g .none true)
  | .imarkS i => some (i.site 0x39 2 .none .g .none true)
  | .imarkE i => some (i.site 0x39 3 .g .g .none true)
  | .tstart i => some (i.site 0x3C 0 .p .g .g true)
  | .tstop i => some (i.site 0x3C 1 .none .none .none true)
  | .tkill i => some (i.site 0x3C 2 .none .g .none true)
  | .trestart i => some (i.site 0x3C 3 .p .g .g true)
  | .tfwait i => some (i.site 0x3C 4 .g .g .none true)
  | .valloc i => some (i.site 0x3C 5 .p .g .none true)
  | .vfree i => some (i.site 0x3C 6 .none .none .none true)
  | .brk i => some (i.site 0x3C 7 .none .none .none true)
  | .srd i fn => some (i.site 0x3D fn.toNat .g .none .none (decide (fn.toNat ≤ 0x0D)))
  | .swr i fn => some (i.site 0x3E fn.toNat .none .g .none (decide (fn.toNat ≤ 0x0D)))
  | .srdt i fn => some (i.site 0x3F fn.toNat .g .g .none (decide (fn.toNat ≤ 0x0D)))
  | _ => none

def fieldsA (c : CoreId) (t : ThreadId) (w : Nat) : IssueA :=
  ⟨c, t, bitAt w 31, BitVec.ofNat 3 (w / 2 ^ 28), BitVec.ofNat 5 (w / 2 ^ 17), BitVec.ofNat 5 (w / 2 ^ 12), BitVec.ofNat 5 (w / 2 ^ 7)⟩
def fieldsI (c : CoreId) (t : ThreadId) (w : Nat) : IssueI :=
  ⟨c, t, bitAt w 31, BitVec.ofNat 3 (w / 2 ^ 28), BitVec.ofNat 5 (w / 2 ^ 17), BitVec.ofNat 5 (w / 2 ^ 12), BitVec.ofNat 12 w⟩
def fieldsM (c : CoreId) (t : ThreadId) (w : Nat) : IssueM :=
  ⟨c, t, bitAt w 31, BitVec.ofNat 3 (w / 2 ^ 28), BitVec.ofNat 5 (w / 2 ^ 17), BitVec.ofNat 5 (w / 2 ^ 12), BitVec.ofNat 3 (w / 2 ^ 9),
    BitVec.ofNat 9 w⟩
def fieldsK (c : CoreId) (t : ThreadId) (w w1 : Nat) : IssueK :=
  ⟨c, t, bitAt w 31, BitVec.ofNat 3 (w / 2 ^ 28), BitVec.ofNat 5 (w / 2 ^ 17), BitVec.ofNat 5 (w / 2 ^ 12), BitVec.ofNat 32 w1⟩
def fieldsJ (c : CoreId) (t : ThreadId) (w : Nat) : IssueJ := ⟨c, t, bitAt w 31, BitVec.ofNat 3 (w / 2 ^ 28), BitVec.ofNat 22 w⟩
def fieldsV (c : CoreId) (t : ThreadId) (w w1 : Nat) : IssueV :=
  ⟨c, t, bitAt w 31, BitVec.ofNat 3 (w / 2 ^ 28), BitVec.ofNat 6 (w / 2 ^ 16), BitVec.ofNat 6 (w / 2 ^ 10), BitVec.ofNat 6 (w / 2 ^ 4),
    BitVec.ofNat 6 (w1 / 2 ^ 26), BitVec.ofNat 5 (w1 / 2 ^ 21), BitVec.ofNat 3 (w1 / 2 ^ 18), bitAt w1 17, BitVec.ofNat 5 (w1 / 2 ^ 12),
    BitVec.ofNat 12 w1⟩

/-- R93, R95: the instruction that two words spell at a thread; none for an OP or FN that the tables do not list. `acc` is the first bank access
of an instruction that makes one. -/
def decodeInsn (c : CoreId) (t : ThreadId) (acc : BankAcc) (w w1 : Nat) : Option Instr :=
  let a := fieldsA c t w
  let i := fieldsI c t w
  let m := fieldsM c t w
  let v := fieldsV c t w w1
  let fn := w % 2 ^ 7
  match w / 2 ^ 22 % 2 ^ 6 with
  | 0x01 => [.add a, .sub a, .and a, .or a, .xor a, .shl a, .shr a, .sra a, .mul a, .mulhs a, .mulhu a, .div a, .divu a, .rem a, .remu a,
      .min a, .minu a, .max a, .maxu a, .clz a, .popc a][fn]?
  | 0x02 => some (.addi i)
  | 0x03 => some (.andi i)
  | 0x04 => some (.ori i)
  | 0x05 => some (.xori i)
  | 0x06 => some (.shi i)
  | 0x07 => [.movi (fieldsK c t w w1), .movhi (fieldsK c t w w1)][w % 2 ^ 12]?
  | 0x08 => if fn ≤ 5 then some (.cmp a (BitVec.ofNat 7 w)) else none
  | 0x09 => some (.cmpi i)
  | 0x0A => [.pand a, .por a, .pxor a, .pandn a, .ptog a, .gtop a][fn]?
  | 0x10 => some (.br (fieldsJ c t w))
  | 0x11 => some (.brl (fieldsJ c t w))
  | 0x12 => [.jr a][fn]?
  | 0x14 => [.vadd v, .vsub v, .vmul v, .vfma v, .vdiv v, .vsqrt v, .vmin v, .vmax v, .vand v, .vor v, .vxor v, .vshl v,
      .vshr v][w % 2 ^ 4]?
  | 0x15 => [.vcvt v, .vmxpack v, .vmxunpack v][w % 2 ^ 4]?
  | 0x16 => [.vldl v acc, .vstl v acc, .vlds v, .vsts v, .vbcast v, .vext v][w % 2 ^ 4]?
  | 0x18 => some (.ldl m acc)
  | 0x19 => some (.stl m acc)
  | 0x1A => some (.lds m)
  | 0x1B => some (.sts m)
  | 0x1C => [.stsb a acc][fn]?
  | 0x1D => [.fenceS a, .fenceA a][fn]?
  | 0x1E => [.synci a][fn]?
  | 0x20 => if fn ≤ 9 then some (.atoml a (BitVec.ofNat 7 w) acc) else none
  | 0x21 => if fn ≤ 9 then some (.atoms a (BitVec.ofNat 7 w)) else none
  | 0x24 => [.copy a acc, .twait a, .trd a, .tset a][fn]?
  | 0x28 => [.plaunch a, .pwait a, .pcancel a, .pclr a, .pstat a][fn]?
  | 0x2C => [.tkadd a, .ccadd a, .tkrd a, .ccrd a, .tkwait a, .ccwait a, .tktake a, .cctake a][fn]?
  | 0x30 => [.mbput a acc, .mbget a acc, .mbring a, .mbwait a, .mbpoll a][fn]?
  | 0x34 => [.shsubmit a acc, .shwait a, .shabort a, .shstat a][fn]?
  | 0x38 => [.barinit a, .barwait a][fn]?
  | 0x39 => [.time a, .waituntil a, .imarkS a, .imarkE a][fn]?
  | 0x3C => [.tstart a, .tstop a, .tkill a, .trestart a, .tfwait a, .valloc a, .vfree a, .brk a][fn]?
  | 0x3D => if fn ≤ 13 then some (.srd a (BitVec.ofNat 7 w)) else none
  | 0x3E => if fn ≤ 13 then some (.swr a (BitVec.ofNat 7 w)) else none
  | 0x3F => if fn ≤ 13 then some (.srdt a (BitVec.ofNat 7 w)) else none
  | _ => none

/-- Whether the tables list the OP and FN of a word. -/
def wordKnown (w : Nat) : Bool := (decodeInsn 0 0 .delayed w 0).isSome

end Sys2Proof.Machine
end

