-- ==== Sys2Proof/Machine/Operands.lean ====
section
/-! DEFINITION. How a thread instruction issues: its fetch (R62), its thread's turn (R59, R60), its operands, the checks before it
runs (R94, R95, R99, R104, R114, R115) and what its completion does to the PC and the issue pointer. -/
namespace Sys2Proof.Machine

/-- What the body of an instruction does: it completes, with the next PC where it is no fall-through; it raises an exception of Table
4-13; its span request is refused at the source, which raises "load completion error" with the status (R104, R230); or it is not ready to issue, so nothing happens. -/
inductive Body where
  | done (s : State)
  | jump (s : State) (pc : Nat)
  | raise (code : Nat) (addr : Nat)
  | refused (s : State) (status : Nat) (addr : Nat)
  | notReady

/-- General registers with a result outstanding (R99). -/
def BankOp.gd (o : BankOp) : List Nat :=
  if o.dead then [] else
  match o.what with
  | .load gd _ _ => [gd]
  | .atomic _ gd _ _ => [gd]
  | .copy gd => [gd]
  | .copyIdx gd _ _ => [gd]
  | .shsubmit gd => [gd]
  | _ => []
def BankOp.vd (o : BankOp) : List Nat :=
  if o.dead then [] else
  match o.what with
  | .vload v => [v]
  | _ => []
def Req.gd (r : Req) (t : Nat) : List Nat :=
  if r.dead then [] else
  match r.who with
  | .load u gd _ _ => if u = t then [gd] else []
  | .atomic u gd => if u = t then [gd] else []
  | _ => []
def Req.vd (r : Req) (t : Nat) : List Nat :=
  if r.dead then [] else
  match r.who with
  | .vload u _ v => if u = t then [v] else []
  | _ => []
def Core.busyG (k : Core) (t : Nat) : List Nat := (k.th t).bankOps.flatMap BankOp.gd ++ k.reqs.flatMap (fun r => r.gd t)
def Core.busyV (k : Core) (t : Nat) : List Nat := (k.th t).bankOps.flatMap BankOp.vd ++ k.reqs.flatMap (fun r => r.vd t)
/-- R99: no register the instruction reads or writes has a result outstanding; g0 never has. -/
def Site.clear (x : Site) (k : Core) : Bool :=
  (x.g.all fun n => decide (n = 0) || !(k.busyG x.t).contains n) && x.v.all fun n => !(k.busyV x.t).contains n

/-! Fetch (R62). -/

/-- The two words at an offset of the instruction store. -/
def wordPair (m : Mem) (pc : Nat) : Nat × Nat := (leVal (memRead m pc 4), leVal (memRead m (pc + 4) 4))
/-- The words at an offset now and before each of some writes, the newest first. -/
def pairsBack (pc : Nat) (m : Mem) : List (Nat × List Byte) → List (Nat × Nat)
  | [] => [wordPair m pc]
  | (a, old) :: l => wordPair m pc :: pairsBack pc (memWrite m a old) l
/-- The words that a thread's fetch at its PC may find: those in the store now, or those before a write that no SYNCI or start of the thread
has ordered before the fetch. -/
def Core.fetchable (k : Core) (t : Nat) : List (Nat × Nat) := pairsBack (k.th t).pc k.istore (k.iHist.drop (k.th t).sync).reverse
/-- The instruction of this site is one that the thread's fetch may find at `pc`; a second word past the store is judged by its fetch. -/
def Site.fetched (x : Site) (pc : Nat) (ps : List (Nat × Nat)) : Bool :=
  ps.any fun p => p.1 == x.word0 && (x.words == 1 || decide (0x7FFC < pc + 4) || p.2 == x.word1)

/-! Readiness and the turn (R59, R60, R99, R103). -/

/-- R103: a thread may have 8 span loads and atomics outstanding, a core 256 span requests. -/
def Core.spanRoom (k : Core) (t : Nat) (posted : Bool) : Bool :=
  decide (k.spanCount < 256) && (posted || decide ((k.reqs.filter fun r =>
    match r.who with
    | .load u _ _ _ => decide (u = t)
    | .vload u _ _ => decide (u = t)
    | .atomic u _ => decide (u = t)
    | _ => false).length < 8))
/-- Writes to a core's instruction store that have not completed: of its threads, and in its inbound buffer (R62). -/
def Core.istoreBusy (k : Core) : Bool :=
  (k.threads.any fun (_, h) => h.bankOps.any fun o => match o.what with
    | .store _ => decide (regionOf o.addr 1 = .istore)
    | _ => false)
  || (k.inbound.any fun b => match b.pkt with
    | some p => (p.op == 0x02 || p.op == 0x11) && decide (0x80000 ≤ p.addr % 2 ^ 20) && decide (p.addr % 2 ^ 20 < 0x88000)
    | none => false)
/-- Whether an instruction that waits for room or for an end can go (R62, R99, R103); `w` is its word 0. -/
def Core.hasRoom (k : Core) (t w : Nat) : Bool :=
  let fn := w % 2 ^ 4
  match w / 2 ^ 22 % 2 ^ 6 with
  | 0x1A => k.spanRoom t false
  | 0x1B => k.spanRoom t true
  | 0x1C => k.spanRoom t true
  | 0x1E => !k.istoreBusy
  | 0x21 => k.spanRoom t false
  | 0x16 => if fn = 2 then k.spanRoom t false else if fn = 3 then k.spanRoom t true else true
  | 0x3C => fn != 6 || (k.busyV t).isEmpty
  | _ => true
/-- R94: pGP XOR GN. -/
def Site.guard (x : Site) (h : Thread) : Bool := xor (h.pr x.gp) x.gn
/-- R60: the thread is running, at least 4 free cycles past its last issue, and its next instruction, or the exception at its fetch, could go now
(R81's claim of the vector unit is left out, log 3). -/
def Core.threadReady (k : Core) (t : Nat) : Bool :=
  let h := k.th t
  decide (h.st = .running) && !k.recent.contains (some t) &&
    (h.storeErr.isSome || decide (h.pc % 4 ≠ 0) || decide (0x7FFC < h.pc) ||
      let p := wordPair k.istore h.pc
      match (decodeInsn 0 0 .delayed p.1 p.2).bind siteOf with
      | none => true
      | some y =>
        let x := { y with t := t }
        !x.legal || !x.guard h || (x.clear k && k.hasRoom t x.word0))
/-- The threads that the engine examines before thread `t` (R59). -/
def Core.before (k : Core) (t : Nat) : List Nat := (List.range ((64 + t - k.issuePtr) % 64)).map fun j => (k.issuePtr + j) % 64
/-- R59, R60, R84: an issue slot is free in the present tick, the thread's last issue is at least 4 free cycles back, and no thread that the engine
examines before it is ready. -/
def State.inTurn (s : State) (c t : Nat) : Bool :=
  let k := s.core c
  decide (k.slots < s.freeCycles (coreDie c)) && !k.recent.contains (some t) && (k.before t).all fun u => !k.threadReady u
/-- The core accepts work (R67), the thread is running (R60) and it is its turn. -/
def State.canIssue (s : State) (c t : Nat) : Bool :=
  s.coreActive c && decide ((s.th c t).st = .running) && s.inTurn c t
/-- R59: the slot is taken and p := t + 1 modulo 64. -/
def Core.issued (k : Core) (t : Nat) : Core :=
  { k with issuePtr := (t + 1) % 64, slots := k.slots + 1, recent := (some t :: k.recent).take 3 }
def State.issued (s : State) (c t : Nat) : State := s.onCore c fun k => k.issued t
def State.setPc (s : State) (c t pc : Nat) : State := s.setTh c t { s.th c t with pc := pc }

/-- One instruction of thread `t` of core `c` (R59 to R62, R94, R95, R99, R104, R114, R115). A thread that is not ready, or whose fetch does not find
this instruction, leaves everything as it was (log 2); a fetched word whose OP or FN no table lists raises "illegal instruction" whatever
instruction the command names. A pending store error is raised before the instruction is fetched, so before its guard and its legality are
judged: DEDUCED from R104's "the first instruction the thread would issue", beside R94 (log 37). -/
def issue (x : Site) (body : State → Body) (s : State) : Out :=
  let h := s.th x.c x.t
  if !s.canIssue x.c x.t then .next s
  else match h.storeErr with
    | some (addr, status) =>
      .next ((s.setTh x.c x.t { h with storeErr := none, extra := 0 }).raise x.c x.t 0x09 status h.extra h.pc addr)
    | none =>
      let ps := (s.core x.c).fetchable x.t
      if h.pc % 4 ≠ 0 then .next (s.raise x.c x.t 0x05 0 0 h.pc h.pc)
      else if 0x7FFC < h.pc then .next (s.raise x.c x.t 0x02 0 0 h.pc h.pc)
      else if !x.fetched h.pc ps then
        match ps.find? fun p => !wordKnown p.1 with
        | some p => .next ((s.issued x.c x.t).raise x.c x.t 0x01 0 0 h.pc p.1)
        | none => .next s
      else if x.words = 2 ∧ 0x7FFC < h.pc + 4 then .next (s.raise x.c x.t 0x02 0 0 h.pc (h.pc + 4))
      else if !x.legal then .next ((s.issued x.c x.t).raise x.c x.t 0x01 0 0 h.pc x.word0)
      else if !x.guard h then .next ((s.issued x.c x.t).setPc x.c x.t (h.pc + 4 * x.words))
      else if !x.clear (s.core x.c) then .next s
      else match body s with
        | .done s' => .next ((s'.issued x.c x.t).setPc x.c x.t (h.pc + 4 * x.words))
        | .jump s' pc => .next ((s'.issued x.c x.t).setPc x.c x.t pc)
        | .raise code addr => .next ((s.issued x.c x.t).raise x.c x.t code 0 0 h.pc addr)
        | .refused s' status addr => .next ((s'.issued x.c x.t).raise x.c x.t 0x08 status 0 h.pc addr)
        | .notReady => .next s

/-! Operands. -/

def IssueA.th (i : IssueA) (s : State) : Thread := s.th i.core.val i.thread.val
def IssueA.put (i : IssueA) (s : State) (f : Thread → Thread) : State := s.setTh i.core.val i.thread.val (f (i.th s))
/-- Writing gD. -/
def IssueA.setD (i : IssueA) (s : State) (v : BitVec 64) : State := i.put s fun h => h.setG i.d.toNat v
def IssueI.th (i : IssueI) (s : State) : Thread := s.th i.core.val i.thread.val
def IssueI.put (i : IssueI) (s : State) (f : Thread → Thread) : State := s.setTh i.core.val i.thread.val (f (i.th s))
def IssueM.th (i : IssueM) (s : State) : Thread := s.th i.core.val i.thread.val
def IssueK.th (i : IssueK) (s : State) : Thread := s.th i.core.val i.thread.val
def IssueK.put (i : IssueK) (s : State) (f : Thread → Thread) : State := s.setTh i.core.val i.thread.val (f (i.th s))
def IssueJ.th (i : IssueJ) (s : State) : Thread := s.th i.core.val i.thread.val
def IssueJ.put (i : IssueJ) (s : State) (f : Thread → Thread) : State := s.setTh i.core.val i.thread.val (f (i.th s))

/-- gD ← f gA gB (Table 4-8). -/
def IssueA.alu (i : IssueA) (fn : Nat) (f : BitVec 64 → BitVec 64 → BitVec 64) (s : State) : Out :=
  issue (i.site 0x01 fn .g .g .g true) (fun s => .done (i.setD s (f ((i.th s).gr i.a.toNat) ((i.th s).gr i.b.toNat)))) s
/-- gD ← f gA, with B unused. -/
def IssueA.alu1 (i : IssueA) (fn : Nat) (f : BitVec 64 → BitVec 64) (s : State) : Out :=
  issue (i.site 0x01 fn .g .g .none true) (fun s => .done (i.setD s (f ((i.th s).gr i.a.toNat)))) s
/-- gD ← f gA (sign-extended IMM12). -/
def IssueI.alu (i : IssueI) (op : Nat) (ok : Bool) (f : BitVec 64 → BitVec 64 → BitVec 64) (s : State) : Out :=
  issue (i.site op true ok) (fun s => .done (i.put s fun h => h.setG i.d.toNat (f (h.gr i.a.toNat) (i.imm.signExtend 64)))) s
/-- pD ← f pA pB, using A[2:0] and B[2:0] (Table 4-8). -/
def IssueA.pred (i : IssueA) (fn : Nat) (f : Bool → Bool → Bool) (s : State) : Out :=
  issue (i.site 0x0A fn .p .p .p true)
    (fun s => .done (i.put s fun h => h.setP i.d.toNat (f (h.pr i.a.toNat) (h.pr i.b.toNat)))) s

end Sys2Proof.Machine
end

