-- ==== Sys2Proof/Machine/Packet.lean ====
section
/-! DEFINITION. Packets: layout, check codes, cost, endpoints and span addresses (spec/09 R211 to R219, spec/10 R239 to R243). -/
namespace Sys2Proof.Machine

/-- The 256 bits of a header (Table 9-1), the header check given. -/
def Pkt.bits (p : Pkt) (hcrc : Nat) : Nat :=
  packFields [(4, p.ver), (6, p.op), (2, p.tc), (2, p.lvl), (3, p.hops), (3, p.hidx), (1, boolNat p.pair), (1, boolNat p.poison),
    (2, p.lrun), (13, p.payload.length), (3, p.skind), (30, p.dst), (30, p.src), (8, p.barn), (42, p.course), (16, p.wseq),
    (12, p.rtag), (14, p.pseq), (48, p.addr), (16, hcrc)]
def Pkt.header (p : Pkt) : List Byte := leBytes 32 (p.bits p.hcrc.toNat)
/-- R213: the header check over header bytes 0 to 29. -/
def Pkt.goodHcrc (p : Pkt) : BitVec 16 := crc16 (leBytes 30 (p.bits 0))
def Pkt.padded (p : Pkt) : List Byte := padTo (4 * ceilDiv p.payload.length 4) p.payload
/-- R213: the correct trailer. -/
def Pkt.goodTrailer (p : Pkt) : BitVec 32 :=
  crc32c (leBytes 32 ({ p with lvl := 0, lrun := 0, hidx := 0, hops := 0, course := 0 }.bits 0) ++ p.padded)
/-- R305: the pair check, with SRC, WSEQ and RTAG taken as zero too, and prefix bits [127:64] of copies. -/
def Pkt.pairCheck (p : Pkt) : BitVec 32 :=
  let pay := if p.op = 0x11 ∨ p.op = 0x12 then p.payload.take 8 ++ List.replicate (min 8 (p.payload.length - 8)) 0 ++ p.payload.drop 16 else p.payload
  let q := { p with lvl := 0, lrun := 0, hidx := 0, hops := 0, course := 0, src := 0, wseq := 0, rtag := 0, payload := pay }
  crc32c (leBytes 32 (q.bits 0) ++ q.padded)
/-- A packet with its check codes computed. -/
def Pkt.seal (p : Pkt) : Pkt :=
  let q := { p with trailer := p.goodTrailer }
  { q with hcrc := q.goodHcrc }
/-- R213: a hop that rewrites LVL, LRUN, HIDX or COURSE recomputes the header check only. -/
def Pkt.rehop (p : Pkt) : Pkt := { p with hcrc := p.goodHcrc }
def Pkt.trailerOk (p : Pkt) : Bool := decide (p.trailer = p.goodTrailer)
def Pkt.stomped (p : Pkt) : Bool := decide (p.trailer = ~~~p.goodTrailer)
/-- R211: the cost in credit units of 64 bytes. -/
def pktUnits (len : Nat) : Nat := ceilDiv (36 + 4 * ceilDiv len 4) 64
def Pkt.units (p : Pkt) : Nat := pktUnits p.payload.length

/-- The traffic class of an OP (Table 9-2); 4 for an invalid code. -/
def opTc (op : Nat) : Nat :=
  if op = 0x01 ∨ op = 0x02 ∨ op = 0x03 ∨ op = 0x12 ∨ (0x20 ≤ op ∧ op ≤ 0x29) then 1
  else if op = 0x08 ∨ op = 0x09 ∨ op = 0x0A then 2
  else if op = 0x10 ∨ op = 0x11 ∨ op = 0x18 ∨ op = 0x3B then 3
  else if op = 0x19 ∨ op = 0x30 ∨ op = 0x31 ∨ op = 0x32 ∨ op = 0x34 ∨ op = 0x35 ∨ op = 0x38 ∨ op = 0x3A ∨ op = 0x3C then 0
  else 4
/-- The payload lengths an OP allows on a course of this MTU (Table 9-2). -/
def opLenOk (mtu op len : Nat) : Bool :=
  if op = 0x01 then len == 4
  else if op = 0x02 then decide (1 ≤ len) && decide (len ≤ 256)
  else if op = 0x03 then len == 4
  else if op = 0x08 then decide (len ≤ 256)
  else if op = 0x09 then len == 0
  else if op = 0x0A then len == 8 || len == 0
  else if op = 0x10 then decide (1 ≤ len) && decide (len ≤ mtu)
  else if op = 0x11 then decide (17 ≤ len) && decide (len ≤ mtu)
  else if op = 0x12 then len == 32
  else if op = 0x18 then decide (16 ≤ len) && len % 16 == 0 && decide (len ≤ mtu)
  else if op = 0x19 then decide (len ≤ 64)
  else if 0x20 ≤ op ∧ op ≤ 0x29 then len == 16
  else if op = 0x30 ∨ op = 0x32 then len == 8
  else if op = 0x31 ∨ op = 0x34 ∨ op = 0x35 ∨ op = 0x3A then len == 16
  else if op = 0x38 then len == 32
  else if op = 0x3B then decide (len ≤ mtu)
  else if op = 0x3C then decide (len ≤ 64)
  else false
/-- R212: what a receiving port of a package with this MTU accepts; anything else is a corrupted frame. -/
def Pkt.headerOk (p : Pkt) (mtu : Nat) : Bool :=
  p.ver == 1 && decide (opTc p.op = p.tc) && opLenOk mtu p.op p.payload.length && decide (p.hops ≤ 6) && decide (p.hcrc = p.goodHcrc)

/-- A packet from its sender's fields. -/
def mkPkt (op skind dst src barn rtag addr : Nat) (payload : List Byte) : Pkt :=
  { ver := 1, op := op, tc := opTc op, lvl := 0, hops := 0, hidx := 0, pair := false, poison := false, lrun := 0, skind := skind,
    dst := dst, src := src, barn := barn, course := 0, wseq := 0, rtag := rtag, pseq := 0, addr := addr, payload := payload,
    hcrc := 0, trailer := 0 }
/-- A completion of `p` (R214): to the requester's endpoint, with its RTAG, its barn and STATUS in ADDR. -/
def cplPkt (op status : Nat) (p : Pkt) (data : List Byte) : Pkt :=
  (mkPkt op p.skind p.src p.dst p.barn p.rtag status data).seal
/-- LENGTH of a LOAD, and of a COPY_PULL (Table 9-4). -/
def loadLen (p : Pkt) : Nat := leVal (p.payload.take 4) % 512
def pullLen (p : Pkt) : Nat := leVal ((p.payload.drop 22).take 2)
/-- A request that a core performs in its window: an access, not a completion and not a reduction word. -/
def isAccessOp (op : Nat) : Bool :=
  op == 0x01 || op == 0x02 || op == 0x03 || op == 0x11 || op == 0x12 || (decide (0x20 ≤ op) && decide (op ≤ 0x29))
/-- The core-local offset and the bytes that a request to a core window touches. -/
def Pkt.coreSpan (p : Pkt) : Nat × Nat :=
  (p.addr % 2 ^ 20,
    if !isAccessOp p.op then 0 else if p.op = 0x01 then loadLen p else if p.op = 0x12 then pullLen p else if p.op = 0x11 then p.payload.length - 16
    else if 0x20 ≤ p.op then 8 else p.payload.length)
/-- The completion OP of a request OP, where it has one. -/
def cplOp (op : Nat) : Nat :=
  if op = 0x01 ∨ op = 0x12 then 0x08 else if 0x20 ≤ op ∧ op ≤ 0x29 then 0x0A else 0x09
def isStoreOp (op : Nat) : Bool := op == 0x02 || op == 0x03
def isCplOp (op : Nat) : Bool := op == 0x08 || op == 0x09 || op == 0x0A

/-! Span addresses (Tables 10-1 and 10-2). -/

def addrSlot (a : Nat) : Nat := bitsAt a 42 6
def addrLocal (a : Nat) : Nat := bitsAt a 0 42
/-- The regions of a local window. -/
inductive LocalRegion where
  | hbm (station off : Nat)
  | core (c off : Nat)
  | reg (off : Nat)
  | none
  deriving DecidableEq, Repr
def localRegion (l : Nat) : LocalRegion :=
  if l < 2 ^ 40 then .hbm (l / 2 ^ 36) (l % 2 ^ 36)
  else if 0x20000000000 ≤ l ∧ l < 0x20400000000 then .core ((l - 0x20000000000) / 2 ^ 20) (l % 2 ^ 20)
  else if 0x30000000000 ≤ l ∧ l < 0x30000400000 then .reg (l - 0x30000000000)
  else .none
/-- The registers of the register window (R243, Tables 7-6, 7-7, 9-9, 10-9, 10-11): offset of a register, 8 bytes each. -/
def regAssigned (o : Nat) : Bool :=
  decide (o < 0x10) || (decide (0x1000 ≤ o) && decide (o < 0x1050)) || (decide (0x2000 ≤ o) && decide (o < 0x2050))
    || (decide (0x100000 ≤ o) && decide (o < 0x300000))
/-- R240: an offset whose assignment is the same in every package and variant. -/
def sourceAssigned (l : Nat) : Bool :=
  match localRegion l with
  | .hbm _ _ => true
  | .core _ o => decide (regionOf o 1 ≠ .none) || (decide (0xC0000 ≤ o) && decide (o < 0xC0104))
  | .reg o => regAssigned o
  | .none => false
/-- The pieces of a range between 4 KB boundaries. -/
def pieces4k : Nat → Nat → Nat → List (Nat × Nat)
  | 0, _, _ => []
  | f + 1, l, n => if n = 0 then [] else let k := min n (4096 - l % 4096); (l, k) :: pieces4k f (l + k) (n - k)
/-- R240: whether every byte of a range lies at an offset that is assigned in every package; the assigned bytes of a 4 KB page stand together. -/
def rangeAssigned (l n : Nat) : Bool := (pieces4k 4 l n).all fun x => sourceAssigned x.1 && sourceAssigned (x.1 + x.2 - 1)
/-- HBM bytes fitted per station (R241). -/
def hbmLimit (variant : Nat) : Nat := if variant = 2 then 0xC00000000 else 0x1000000000
/-- The gateway through which a packet enters its destination die (R241, R303): for HBM by address, for cores and gateways the
target's cluster, for queue q cluster q mod 16. -/
def entryGateway (l : Nat) : Nat :=
  match localRegion l with
  | .hbm d o => 16 * d + bitsAt o 8 4
  | .core c _ => coreCluster c
  | .reg o => if 0x100000 ≤ o then let q := (o - 0x100000) / 32; 16 * (q / 4096) + q % 16 else 0
  | .none => 0
/-- The station that serves a local offset: the die of HBM and cores; register pages are served at station 0, the queue page at the
queue's station (log 11). -/
def localStation (l : Nat) : Nat :=
  match localRegion l with
  | .hbm d _ => d
  | .core c _ => coreDie c
  | .reg o => if 0x100000 ≤ o then (o - 0x100000) / 32 / 4096 else 0
  | .none => 0
/-- The destination endpoint of a span address in package `pkg` (log 11): the core, or the memory controller of the station. -/
def addrEp (pkg l : Nat) : Nat :=
  match localRegion l with
  | .core c _ => coordOf pkg c
  | _ => memEp pkg (localStation l)

/-- The node of an endpoint address in a package of a variant: a core's engine, a gateway's or that of a fitted edge port (R159, R20). -/
def nodeOfEp (variant e : Nat) : Option Nat :=
  if !epPlane e then some (e % 16384)
  else if epX e = 1 ∧ epY e < 16 then some (16384 + 16 * epDie e + epY e)
  else if epX e = 2 ∧ portFitted variant (16 * epY e + epDie e) then some (16640 + 16 * epY e + epDie e)
  else none
def nodeEp (selfNum n : Nat) : Nat :=
  if n < 16384 then coordOf selfNum n else if n < 16640 then gatewayEp selfNum (n - 16384) else portEp selfNum (n - 16640)
/-- A plane-1 endpoint that Table 1-3 lists and the variant has (R20, R21). -/
def epAssigned (variant e : Nat) : Bool :=
  if epPlane e then
    let d := epDie e; let x := epX e; let y := epY e
    (x == 0 && y == 0) || (x == 1 && decide (y < 16)) || (x == 2 && portFitted variant (16 * y + d))
      || (d == 0 && y == 31 && (x == 30 || x == 31))
  else true

/-! In-step pairs (R300 to R303). -/

structure PairDesc where
  valid : Bool
  pkgPair : Bool
  slotA : Nat
  dieA : Nat
  slotB : Nat
  dieB : Nat
  barn : Nat
  unpairUs : Nat
  deriving DecidableEq, Repr
def pairDesc (x : Nat) : PairDesc :=
  ⟨bitAt x 0, bitAt x 1, bitsAt x 2 6, bitsAt x 8 4, bitsAt x 12 6, bitsAt x 18 4, bitsAt x 22 8, bitsAt x 30 10⟩
/-- Whether a slot and die lie in a member: none, A (false) or B (true). -/
def PairDesc.member (r : PairDesc) (slot die : Nat) : Option Bool :=
  if !r.valid then none
  else if slot = r.slotA ∧ (r.pkgPair ∨ die = r.dieA) then some false
  else if slot = r.slotB ∧ (r.pkgPair ∨ die = r.dieB) then some true
  else none
/-- The first valid record in which a slot and die lie: its number, the record and the member. -/
def findPair (tab : Map Nat) (slot die : Nat) : Option (Nat × PairDesc × Bool) :=
  ((List.range 16).filterMap fun n =>
    let r := pairDesc (tget 0 tab n)
    (r.member slot die).map fun b => (n, r, b)).head?
/-- The member's units do not include the helm, the host bridge and the edge ports (R300). -/
def epInMember (e : Nat) : Bool := !epPlane e || decide (epX e < 2)
/-- The other member's slot and die. -/
def PairDesc.twin (r : PairDesc) (isB : Bool) (die : Nat) : Nat × Nat :=
  if isB then (r.slotA, if r.pkgPair then die else r.dieA) else (r.slotB, if r.pkgPair then die else r.dieB)
def epWith (e slot die : Nat) : Nat := putBits (putBits e 10 4 die) 14 6 slot
/-- A span address of HBM or a core window moved to another slot and die. -/
def addrWith (a slot die : Nat) : Nat :=
  let a := putBits a 42 6 slot
  match localRegion (addrLocal a) with
  | .hbm _ _ => putBits a 36 4 die
  | .core _ _ => putBits a 30 4 die
  | _ => a

end Sys2Proof.Machine
end

