-- ==== Sys2Proof/Machine/Rs.lean ====
section
/-! DEFINITION. Reed-Solomon codes over GF(2⁸) with the field polynomial x⁸ + x⁴ + x³ + x² + 1 and the generator
(x − α⁰)(x − α¹)…, α = 0x02 (spec/07 R168, spec/10 R265): the parity of a message and the correction of a codeword. A codeword's first byte
is its highest power (DEDUCED from "the parity bytes come last", log 39). -/
namespace Sys2Proof.Machine

/-- Times α. -/
def gfStep (a : Nat) : Nat := if 128 ≤ a then (2 * a) ^^^ 0x11D else 2 * a
def gfMulN : Nat → Nat → Nat → Nat
  | 0, _, _ => 0
  | f + 1, a, b => (if b % 2 = 1 then a else 0) ^^^ gfMulN f (gfStep a) (b / 2)
def gfMul (a b : Nat) : Nat := gfMulN 8 a b
/-- α to a power. -/
def gfPow : Nat → Nat
  | 0 => 1
  | n + 1 => gfStep (gfPow n)
def gfInvN : Nat → Nat → Nat
  | 0, _ => 1
  | f + 1, a => let q := gfMul a a; gfMul q (gfInvN f q)
/-- The inverse, a²⁵⁴. -/
def gfInv (a : Nat) : Nat := gfInvN 7 a
/-- A polynomial, lowest coefficient first, at a point; and the sum of two. -/
def gfEval (c : List Nat) (x : Nat) : Nat := c.foldr (fun a r => a ^^^ gfMul x r) 0
def gfAdd : List Nat → List Nat → List Nat
  | [], l => l
  | l, [] => l
  | a :: l, b :: m => (a ^^^ b) :: gfAdd l m

/-- The generator of `p` parity bytes, highest coefficient first, without its leading one. -/
def rsGen : Nat → List Nat
  | 0 => []
  | p + 1 => gfAdd (rsGen p ++ [0]) ((1 :: rsGen p).map (gfMul (gfPow p)))
def rsShift (g : List Nat) (r : List Nat) (d : Nat) : List Nat :=
  let f := d ^^^ r.headD 0
  gfAdd (r.drop 1 ++ [0]) (g.map (gfMul f))
/-- The `p` parity bytes of a message. -/
def rsParity (p : Nat) (msg : List Nat) : List Nat := msg.foldl (rsShift (rsGen p)) (List.replicate p 0)
/-- The codeword at α to the power `j`. -/
def rsSyndrome (cw : List Nat) (j : Nat) : Nat := cw.foldl (fun a c => gfMul a (gfPow j) ^^^ c) 0
def rsSyndromes (p : Nat) (cw : List Nat) : List Nat := (List.range p).map (rsSyndrome cw)

/-- The shortest recurrence of the syndromes (Berlekamp and Massey): the error locator, the last one kept, its length, the shift and the last
discrepancy. -/
structure RsLoc where
  c : List Nat
  b : List Nat
  len : Nat
  m : Nat
  d : Nat
def RsLoc.step (syn : List Nat) (s : RsLoc) (n : Nat) : RsLoc :=
  let d := (List.range (s.len + 1)).foldl (fun a i => a ^^^ gfMul (s.c.getD i 0) (syn.getD (n - i) 0)) 0
  if d = 0 then { s with m := s.m + 1 }
  else
    let q := gfMul d (gfInv s.d)
    let c := gfAdd s.c (List.replicate s.m 0 ++ s.b.map (gfMul q))
    if 2 * s.len ≤ n then ⟨c, s.c, n + 1 - s.len, 1, d⟩ else { s with c := c, m := s.m + 1 }
def rsLocator (p : Nat) (syn : List Nat) : RsLoc := (List.range p).foldl (RsLoc.step syn) ⟨[1], [1], 0, 1, 1⟩
/-- The magnitude of the error at power `i` (Forney). -/
def rsMagnitude (p : Nat) (syn c : List Nat) (i : Nat) : Nat :=
  let x := gfPow (255 - i % 255)
  let omega := (List.range p).map fun n => (List.range (n + 1)).foldl (fun a k => a ^^^ gfMul (c.getD k 0) (syn.getD (n - k) 0)) 0
  let slope := (List.range c.length).foldl (fun a k => if k % 2 = 1 then a ^^^ gfMul (c.getD k 0) (gfEval (List.replicate (k - 1) 0 ++ [1]) x) else a) 0
  gfMul (gfPow i) (gfMul (gfEval omega x) (gfInv slope))
/-- The codeword with `p` parity bytes and at most `t` wrong bytes, and where they were; none where it cannot be corrected. -/
def rsDecode (p t : Nat) (cw : List Nat) : Option (List Nat × List Nat) :=
  let syn := rsSyndromes p cw
  if syn.all (· == 0) then some (cw, [])
  else
    let loc := rsLocator p syn
    let n := cw.length
    let at_ := (List.range n).filter fun i => gfEval loc.c (gfPow (255 - i % 255)) == 0
    if t < loc.len ∨ at_.length ≠ loc.len then none
    else
      let fixed := at_.foldl (fun l i => l.set (n - 1 - i) (l.getD (n - 1 - i) 0 ^^^ rsMagnitude p syn loc.c i)) cw
      if (rsSyndromes p fixed).all (· == 0) then some (fixed, at_.map fun i => n - 1 - i) else none

end Sys2Proof.Machine
end

