-- ==== Sys2Proof/Machine/Steering.lean ====
section
/-! DEFINITION. In-package links and how the pool is steered (spec/07 R171 to R183, R190). -/
namespace Sys2Proof.Machine

/-! Link roles (Table 7-4) and standing paths (R172). -/

inductive LinkRole where
  | standing (i : Nat)
  | attachment (k : Nat)
  | pool
  | spare
  deriving DecidableEq, Repr
def linkRole (l : Nat) : LinkRole :=
  let n := l % 32; let d := l / 32
  if n = 1 then .attachment 0 else if n = 7 then .attachment 1 else if n = 13 then .attachment 2 else if n = 19 then .attachment 3
  else if n = 25 then (if d < 8 then .attachment 4 else .spare)
  else if n % 2 = 0 ∧ n ≤ 28 then .standing (n / 2)
  else .pool
def LinkRole.code : LinkRole → Nat
  | .standing _ => 0 | .attachment _ => 1 | .pool => 2 | .spare => 3
def isPool (l : Nat) : Bool := decide (linkRole l = .pool)
def isFabric (l : Nat) : Bool := match linkRole l with
  | .attachment _ => false
  | _ => true
/-- The receive link to which standing transmit link `l` carries light (R172). -/
def standingRx (l : Nat) : Nat := 32 * ((l / 32 + l % 32 / 2 + 1) % 16) + 2 * (14 - l % 32 / 2)
/-- The cluster that owns a link (spec/07, "Link numbers and roles"). -/
def linkCluster (l : Nat) : Nat := l / 2
/-- The edge port of an attachment link (R173). -/
def attachPort (l : Nat) : Option Nat := match linkRole l with
  | .attachment k => some (l / 32 + 16 * k)
  | _ => none

def State.link (s : State) (l : Nat) : Link := tget Link.init s.links l
def State.setLink (s : State) (l : Nat) (x : Link) : State := { s with links := tset Link.init s.links l x }
def State.lane (s : State) (n : Nat) : Lane := tget Lane.init s.lanes n
def State.setLane (s : State) (n : Nat) (x : Lane) : State := { s with lanes := tset Lane.init s.lanes n x }
def maskWidth (m : Nat) : Nat := (bitsSet 16 m).length
/-- Frames sent and not acknowledged (R169). -/
def Link.unacked (x : Link) : Nat := x.replay.length
/-- A link that holds no packet and no frame. -/
def Link.idle (x : Link) : Bool := x.replay.isEmpty && x.txQ.isEmpty && x.txCur.isNone
/-- The transmit link whose path ends at a receive link; the fixed path of an attachment joins its two links (R173). -/
def State.txOf (s : State) (rx : Nat) : Option Nat :=
  match attachPort rx with
  | some _ => some rx
  | none => (s.links.find? fun (_, x) => decide (x.rx = some rx) && decide (x.st ≠ .dark)).map (·.1)
/-- The receive link whose lanes a link's light falls on: of an attachment, its own (Table 18-2). -/
def State.laneLink (s : State) (l : Nat) : Option Nat := if (attachPort l).isSome then some l else (s.link l).rx

/-! Candidate sets (R175, R176). -/

/-- A link that carries new traffic: live, not draining, and neither under a sweep or retrain nor about to be. In a width change or a relock its
traffic waits (R186, R189). -/
def Link.carries (x : Link) : Bool := decide (x.st = .live) && !x.drain && match x.work with
  | .calib _ _ _ => false
  | .calWait _ _ _ => false
  | _ => true
/-- Framed light (R181): a live link that nothing is changing, or one that still drains. -/
def Link.framed (x : Link) : Bool := (decide (x.st = .live) || (decide (x.st = .changing) && x.drain)) && match x.work with
  | .none => true
  | .calWait _ _ _ => true
  | _ => false
def State.directLinks (s : State) (d e : Nat) : List Nat :=
  (s.links.filter fun (l, x) => decide (l / 32 = d) && x.carries && match x.rx with
    | some r => decide (r / 32 = e)
    | none => false).map (·.1)
/-- The relay die toward `e` (R176). -/
def State.relayDie (s : State) (d e : Nat) : Option Nat :=
  (List.range 16).find? fun f => decide (f ≠ d) && decide (f ≠ e) && !(s.directLinks d f).isEmpty && !(s.directLinks f e).isEmpty
/-- A link toward die `e` that is to carry traffic again: one in a sweep or retrain (R205, R207), or lost and not yet substituted (R190). -/
def State.linkAwaited (s : State) (d e : Nat) : Bool :=
  s.links.any fun (l, x) => decide (l / 32 = d) && (decide (x.st = .live) || decide (x.st = .lost)) && match x.rx with
    | some r => decide (r / 32 = e)
    | none => false
/-- The candidate links that the live paths give now; none, while packets wait for a link that is to come back. -/
def State.wantCands (s : State) (d e : Nat) : List Nat :=
  let l := s.directLinks d e
  if !l.isEmpty then l
  else if s.linkAwaited d e then []
  else match s.relayDie d e with
    | some f => s.directLinks d f
    | none => []
/-- R176: no link and no relay joins two dies of a package that is ready. -/
def State.noPath (s : State) (d e : Nat) : Bool := s.ready && decide (d ≠ e) && !s.linkAwaited d e && (s.wantCands d e).isEmpty

/-! Steering requests (R178, R179). -/

def State.steer (s : State) (b : Nat) : Steer := tget Steer.init s.steers b
def State.setSteer (s : State) (b : Nat) (x : Steer) : State := { s with steers := tset Steer.init s.steers b x }
def Steer.queued (x : Steer) : Nat := x.queue.length + (if x.cur.isSome then 1 else 0)
/-- Table 7-7. -/
def Steer.status (x : Steer) : Nat := packFields [(8, x.lastSet), (8, x.result), (32, x.ended), (4, x.queued)]
/-- The end of a request: ENDED, then the tally (R179). -/
def State.steerEnd (s : State) (b : Nat) (q : SteerReq) (result : Nat) : State :=
  let x := s.steer b
  let s1 := s.setSteer b { x with lastSet := q.set, result := result, ended := (x.ended + 1) % 2 ^ 32 }
  match q.tally with
  | some (g, n) => s1.addTally g n 1
  | none => s1
/-- A store to STEER_COMMIT by barn `b`, its tally at gateway `g`: its completion status and the state (R179, R254). -/
def State.steerStore (s : State) (b g v : Nat) : Nat × State :=
  let n := bitsAt v 16 16
  if 1023 < n then (0x06, s)
  else
    let q : SteerReq := ⟨bitsAt v 0 8, bitAt v 8, if bitAt v 32 then some (g, n) else none⟩
    let x := { s.steer b with commit := v % 512 + n * 2 ^ 16 + 2 ^ 32 * boolNat (bitAt v 32) }
    let s := s.setSteer b x
    if 8 ≤ x.queued then (0, s.steerEnd b q 4)
    else (0, s.setSteer b { x with queue := x.queue ++ [q] })

end Sys2Proof.Machine
end

