-- ==== Sys2Proof/Machine/Links.lean ====
section
/-! DEFINITION. Packets between the dies of the package: frames and their codewords, acknowledgement records, the choice of a link, relays
(spec/07 R167 to R169, R175, R176, spec/06 R147). -/
namespace Sys2Proof.Machine

/-! Frames (Tables 7-1 and 7-2). -/

/-- A packet as its stream carries it: header, payload to a whole word, trailer. -/
def Pkt.stream (p : Pkt) : List Byte := p.header ++ p.padded ++ leBytes 4 p.trailer.toNat
/-- A payload as it is filled. -/
structure FrameFill where
  payload : List Byte
  start : Nat
  ended : List LinkPkt
  cur : Option (LinkPkt × List Byte)
  q : List LinkPkt
  deriving DecidableEq, Repr
def FrameFill.step (f : FrameFill) : FrameFill :=
  let room := 240 - f.payload.length
  if room = 0 then f
  else match f.cur with
    | some (p, bs) =>
      if bs.length ≤ room then { f with payload := f.payload ++ bs, ended := f.ended ++ [p], cur := none }
      else { f with payload := f.payload ++ bs.take room, cur := some (p, bs.drop room) }
    | none => match f.q with
      | [] => f
      | p :: l => { f with start := if f.start = 63 then f.payload.length / 4 else f.start, cur := some (p, p.pkt.stream), q := l }
def fillFrame : Nat → FrameFill → FrameFill
  | 0, f => f
  | n + 1, f => fillFrame n f.step
/-- R169: the frame that a link sends next: one of its replay buffer not yet sent, or a new one while fewer than 64 are unacknowledged; none
for an idle frame. A draining link only ends the packet of which a part is sent (R180). -/
def Link.nextFrame (x : Link) : Option LFrame × Link :=
  match x.replay[x.sendAt]? with
  | some f => (some f, { x with sendAt := x.sendAt + 1 })
  | none =>
    if 64 ≤ x.replay.length ∨ (x.txCur.isNone ∧ (x.txQ.isEmpty ∨ x.drain)) then (none, x)
    else
      let f := fillFrame 16 ⟨[], 63, [], x.txCur, if x.drain then [] else x.txQ⟩
      let fr : LFrame := ⟨x.txNext, f.start, padTo 240 f.payload, f.ended⟩
      (some fr, { x with
        txNext := (x.txNext + 1) % 256, replay := x.replay ++ [fr], sendAt := x.replay.length + 1, txCur := f.cur
        txQ := if x.drain then x.txQ else f.q })
/-- FCTL (Table 7-2): KIND, SEQ, START and the record, if one rides on the frame. -/
def frameCtl (f : Option LFrame) (rec : Option (Nat × Nat × Bool)) : Nat :=
  let (l, a, n) := rec.getD (0, 0, false)
  packFields [(2, boolNat f.isSome), (8, match f with
    | some f => f.seq
    | none => 0), (6, match f with
    | some f => f.start
    | none => 63), (5, l), (8, a), (1, boolNat n), (1, boolNat rec.isSome)]
/-- Every other byte of a list, from the first: the even bytes, and of the tail the odd ones. -/
def evens : List Byte → List Nat
  | [] => []
  | [a] => [a.toNat]
  | a :: _ :: l => a.toNat :: evens l
def weave : List Nat → List Nat → List Byte
  | a :: l, b :: m => BitVec.ofNat 8 a :: BitVec.ofNat 8 b :: weave l m
  | _, _ => []
/-- R168: the 256 bytes of a frame. -/
def frameBytes (f : Option LFrame) (rec : Option (Nat × Nat × Bool)) : List Byte :=
  let body := leBytes 4 (frameCtl f rec) ++ match f with
    | some f => f.payload
    | none => List.replicate 240 0
  body ++ weave (rsParity 6 (evens body)) (rsParity 6 (evens (body.drop 1)))
/-- What a receiver makes of 256 bytes: the corrected bytes and the places that it corrected, or none. -/
def frameDecode (bs : List Byte) : Option (List Byte × List Nat) :=
  match rsDecode 6 3 (evens bs), rsDecode 6 3 (evens (bs.drop 1)) with
  | some (a, i), some (b, j) => some (weave a b, i.map (2 * ·) ++ j.map (2 * · + 1))
  | _, _ => none
/-- Bytes with the errors that the light suffered. -/
def hitBytes (bs : List Byte) (errs : List (Fin 256 × Byte)) : List Byte :=
  errs.foldl (fun l (i, v) => l.set i.val (l.getD i.val 0 ^^^ v)) bs
/-- R167: the lane that carries byte `b` of the frame stream. -/
def laneOf (mask b : Nat) : Nat :=
  let l := bitsSet 16 mask
  l.getD (b % l.length) 0

/-! Acknowledgement records (R169). -/

/-- The transmit links of die `b` whose frames die `a` receives, with an acknowledgement or NAK due. -/
def State.dueRecords (s : State) (a b : Nat) : List Nat :=
  (s.links.filter fun (l, x) => decide (l / 32 = b) && (x.ackDue || x.nakDue) && match x.rx with
    | some r => decide (r / 32 = a)
    | none => false).map (·.1)
/-- The record that die `a` puts on its next frame to die `b`: the first one due behind the last one sent. -/
def State.nextRecord (s : State) (a b : Nat) : Option Nat :=
  let l := s.dueRecords a b
  match l.find? fun m => decide (tget 0 s.ackPtr (16 * a + b) ≤ m) with
  | some m => some m
  | none => l.head?
def State.recordOf (s : State) (m : Nat) : Nat × Nat × Bool := (m % 32, ((s.link m).rxNext + 255) % 256, (s.link m).nakDue)
/-- A record acts on the transmit link that it names: frames up to ACKSEQ leave the replay buffer; on NAK every frame left is sent again, and
`failedReplays` counts the replays begun since the last frame was acknowledged. -/
def Link.takeAck (x : Link) (seq : Nat) (nak : Bool) : Link :=
  let n := if x.replay.any (fun f => decide (f.seq = seq)) then (x.replay.takeWhile fun f => decide (f.seq ≠ seq)).length + 1 else 0
  let x1 := if n = 0 then x else { x with replay := x.replay.drop n, sendAt := x.sendAt - n, failedReplays := 0 }
  if nak ∧ !x1.replay.isEmpty then { x1 with sendAt := 0, failedReplays := x1.failedReplays + 1 } else x1

/-! The choice of a link (R175, R176). -/

/-- A packet queued at an edge port (R216, R220). -/
def State.toPort (s : State) (port : Nat) (p : Pkt) (arr : Option (Nat × Nat)) : State :=
  s.setPort port { s.port port with queue := (s.port port).queue ++ [⟨p, arr⟩] }
/-- R175: the flow key of a packet inside the package. -/
def Pkt.linkKey (p : Pkt) : List Byte := leBytes 8 (p.src % 2 ^ 30 + p.dst % 2 ^ 30 * 2 ^ 30 + p.tc * 2 ^ 60)
/-- The die that a packet makes for inside the package. -/
def LinkPkt.toDie (q : LinkPkt) : Nat := match q.port with
  | some n => n % 16
  | none => epDie q.pkt.dst
def State.linkPut (s : State) (l : Nat) (q : LinkPkt) : State := s.setLink l { s.link l with txQ := (s.link l).txQ ++ [q] }
/-- A packet at die `d` for another die: it waits while the candidate set changes or is empty, or takes the candidate at CRC32C of its key; none
where no link and no relay leads there. -/
def State.linkSend (s : State) (d : Nat) (q : LinkPkt) : Option State :=
  let k := 16 * d + q.toDie
  let now := tget [] s.cands k
  if now ≠ s.wantCands d q.toDie ∨ (now.isEmpty ∧ !s.noPath d q.toDie) then
    some { s with dieWait := tset [] s.dieWait k (tget [] s.dieWait k ++ [q]) }
  else match now[(crc32c q.pkt.linkKey).toNat % now.length]? with
    | some l => some (s.linkPut l q)
    | none => none

end Sys2Proof.Machine
end

