-- ==== Sys2Proof/Machine/Send.lean ====
section
/-! DEFINITION. How the package sends: course choice, source outcomes, windows, pair copies, and the way from an agent to the
fabric (spec/09 R216 to R230, spec/10 R239 to R249, spec/12 R301 to R303). -/
namespace Sys2Proof.Machine

/-! The plan in force (Tables 11-1 and 11-2). -/

def State.planEntry (s : State) (p : Nat) : Nat := leVal (memRead s.plan (64 + 8 * p) 8)
def State.planRole (s : State) (p : Nat) : Nat := bitsAt (s.planEntry p) 0 2
def State.planMtuCode (s : State) : Nat := leVal (memRead s.plan 11 1)
def State.mtu (s : State) : Nat := 256 * 2 ^ s.planMtuCode
def State.planSlots (s : State) : Nat := leVal (memRead s.plan 10 1)
def State.selfSlot (s : State) : Nat := s.selfNum % 64

/-! Courses (R217 to R219). -/

def courseValid (e : Nat) : Bool := bitAt e 45
def courseDown (e : Nat) : Bool := bitAt e 46
def courseHops (e : Nat) : Nat := bitsAt e 0 3
def coursePorts (e : Nat) : Nat := bitsAt e 3 42
def coursePort (course i : Nat) : Nat := bitsAt course (7 * i) 7
def State.alternatives (s : State) (dest : Nat) : List Nat := (List.range 4).map fun a => tget 0 s.courses (4 * dest + a)
/-- R219: the live alternatives in index order. -/
def State.liveAlts (s : State) (dest : Nat) : List Nat :=
  let v := (s.alternatives dest).filter courseValid
  let l := v.filter fun e => !courseDown e
  if l.isEmpty then v else l
/-- R219: the flow key. -/
def Pkt.flowKey (p : Pkt) : List Byte := leBytes 8 (p.src % 2 ^ 30 + epPkg p.dst * 2 ^ 30 + p.tc * 2 ^ 45)
def State.chooseAlt (s : State) (p : Pkt) : Option Nat :=
  let l := s.liveAlts (epPkg p.dst)
  if l.isEmpty then none else l[(crc32c p.flowKey).toNat % l.length]?

/-! Between the dies (R147, R176). -/

/-- The packet with the course of an alternative, before its first hop. -/
def Pkt.onCourse (p : Pkt) (e : Nat) : Pkt :=
  { p with hops := courseHops e, course := coursePorts e, hidx := 0, lvl := 0, lrun := 0 }.rehop
/-- R176: no link and no relay leads on: the die's memory controller counts the packet and answers its request "target unavailable". -/
def State.unreachedAt (s : State) (d : Nat) (p : Pkt) : State :=
  let s1 := { s with unreached := tset 0 s.unreached d (tget 0 s.unreached d + 1) }
  let q := cplPkt (cplOp p.op) 0x03 p []
  if p.tc ≠ 1 ∧ p.tc ≠ 3 then s1
  else if epPkg p.src = s.selfNum then { s1 with net := s1.net ++ [q] }
  else match s.chooseAlt q with
    | some e => s1.toPort (coursePort (coursePorts e) 0) (q.onCourse e) none
    | none => s1
/-- A packet on die `d` for an endpoint of this package: on its own die it is there. -/
def State.inside (s : State) (d : Nat) (p : Pkt) : State :=
  if epDie p.dst = d then { s with net := s.net ++ [p] } else (s.linkSend d ⟨p, none, none⟩).getD (s.unreachedAt d p)
/-- A packet on die `d` that leaves by an edge port, whose attachment lies on the port's own station (R173). -/
def State.towardPort (s : State) (d port : Nat) (p : Pkt) (arr : Option (Nat × Nat)) : State :=
  if port % 16 = d then s.toPort port p arr else (s.linkSend d ⟨p, arr, some port⟩).getD (s.unreachedAt d p)
/-- A packet that a link has brought to die `d`: it is there, or die `d` is its relay. -/
def State.dieTake (s : State) (d : Nat) (q : LinkPkt) : State :=
  match q.port with
  | some n => s.towardPort d n q.pkt q.arr
  | none => s.inside d q.pkt
def dieTakeAll (s : State) (d : Nat) : List LinkPkt → State
  | [] => s
  | q :: l => dieTakeAll (s.dieTake d q) d l
/-- The die on which a packet of this package starts; a packet made in the name of another package's unit starts where it is needed. -/
def State.srcDie (s : State) (p : Pkt) : Option Nat := if epPkg p.src = s.selfNum then some (epDie p.src) else none

/-! Windows, source side (R224 to R227). -/

def winKey (pkg tc : Nat) : Nat := 2 * pkg + (if tc = 1 then 0 else 1)
def State.swin (s : State) (k : Nat) : SrcWin := tget SrcWin.init s.srcWin k
def State.setSwin (s : State) (k : Nat) (w : SrcWin) : State := { s with srcWin := tset SrcWin.init s.srcWin k w }
/-- R225: the standing grant: 8 units of TC1 toward every other package from ready on. -/
def State.standing (s : State) (k : Nat) : Nat := if k % 2 = 0 ∧ s.ready then 8 else 0
def State.grant (s : State) (k : Nat) : Nat := s.standing k + (s.swin k).extra

def FabCtr.addUse (f : FabCtr) (tc n : Nat) : FabCtr :=
  if tc = 1 then { f with useTc1 := f.useTc1 + n } else if tc = 3 then { f with useTc3 := f.useTc3 + n } else f
def FabCtr.subUse (f : FabCtr) (tc n : Nat) : FabCtr :=
  if tc = 1 then { f with useTc1 := f.useTc1 - n } else if tc = 3 then { f with useTc3 := f.useTc3 - n } else f
def FabCtr.refuse (f : FabCtr) (status : Nat) : FabCtr :=
  if status = 0x07 then { f with refQFull := (f.refQFull + 1) % 2 ^ 64 }
  else if status = 0x08 then { f with refQuota := (f.refQuota + 1) % 2 ^ 64 }
  else if status = 0x01 ∨ status = 0x02 ∨ status = 0x09 ∨ status = 0x0C then { f with refOther := (f.refOther + 1) % 2 ^ 64 }
  else f

/-- Payload bytes sent off-package and received from off-package (R403). -/
def State.meterTx (s : State) (p : Pkt) : State :=
  if s.barnExists p.barn then s.onMeter p.barn fun m => { m with tx := m.tx + p.payload.length } else s
def State.meterRx (s : State) (p : Pkt) : State :=
  if epPkg p.src ≠ s.selfNum ∧ s.barnExists p.barn then s.onMeter p.barn fun m => { m with rx := m.rx + p.payload.length } else s
/-- The window packets of a source (log 18): class, then units. -/
def winBody (tc : Nat) (ns : List Nat) : List Byte := leBytes 4 tc ++ ns.flatMap (leBytes 4)
/-- A packet on its way out of its source: the course written at the choice of R219, or its end with "no course". -/
def State.dispatch (s : State) (p : Pkt) : State :=
  match s.chooseAlt p with
  | some e =>
    let port := coursePort (coursePorts e) 0
    match s.srcDie p with
    | some d => (s.meterTx p).towardPort d port (p.onCourse e) none
    | none => (s.meterTx p).toPort port (p.onCourse e) none
  | none =>
    if p.tc = 1 ∨ p.tc = 3 then
      State.onFctr { s with net := s.net ++ [cplPkt (cplOp p.op) 0x0C p []] } p.barn fun f => f.refuse 0x0C
    else s
/-- R226: a source whose packets wait asks for the units it lacks, at most up to GRANT_MAX; one request at a time. -/
def State.askWindow (s : State) (dest tc : Nat) : State :=
  let k := winKey dest tc
  let w := s.swin k
  let lack := w.inUse + (w.waiting.foldl (fun a x => a + x.pkt.units) 0) - s.grant k
  let n := min lack ((if tc = 1 then s.grantMax1 else s.grantMax3) - s.grant k)
  if w.asked ∨ w.waiting.isEmpty ∨ n = 0 then s
  else
    (s.setSwin k { w with asked := true }).dispatch (mkPkt 0x30 4 (memEp dest 0) (memEp s.selfNum 0) 0 0 0 (winBody tc [n])).seal
/-- R227: a packet leaves the window unit: it takes its units and the next WSEQ. -/
def State.serve (s : State) (k : Nat) (p : Pkt) : State :=
  let w := s.swin k
  let q := { p with wseq := w.next }.seal
  let s1 := s.setSwin k { w with inUse := w.inUse + p.units, next := (w.next + 1) % 65536 }
  (s1.onFctr p.barn fun f => { f with
    sentPkts := (f.sentPkts + 1) % 2 ^ 64, sentBytes := (f.sentBytes + p.payload.length) % 2 ^ 64 }).dispatch q
/-- R230 checks 4 and 5: a windowed packet at the window unit of its destination. -/
def State.atWindow (s : State) (p : Pkt) : State :=
  let k := winKey (epPkg p.dst) p.tc
  let w := s.swin k
  if w.waiting.isEmpty ∧ w.inUse + p.units ≤ s.grant k then s.serve k p
  else ((s.setSwin k { w with waiting := w.waiting ++ [⟨p, s.reckon⟩] }).onFctr p.barn fun f =>
    { f with delayed := (f.delayed + 1) % 2 ^ 64 }).askWindow (epPkg p.dst) p.tc
/-- A packet leaves its gateway or engine: to its die in the package, or toward an edge port. -/
def State.egress (s : State) (p : Pkt) : State :=
  if epPkg p.dst = s.selfNum then s.inside ((s.srcDie p).getD (epDie p.dst)) p
  else if p.tc = 1 ∨ p.tc = 3 then s.atWindow p
  else s.dispatch p

/-- The packets of a class that an engine has in its injection queue (R230): those that wait for a window, whatever their destination. -/
def State.queuedBy (s : State) (p : Pkt) : Nat :=
  (s.srcWin.filter fun (k, _) => decide (k % 2 = winKey 0 p.tc)).foldl (fun a (_, w) =>
    a + (w.waiting.filter fun x => decide (x.pkt.src = p.src) && decide (x.pkt.skind = p.skind)).length) 0
/-- R230 checks 1 to 3 for a packet bound off-package; none when it may be served. `engine` says whether check 3 applies, `units` and `count`
what earlier copies of the same submission take. -/
def State.offRefusal (s : State) (p : Pkt) (engine : Bool) (units count : Nat) : Option Nat :=
  let dest := epPkg p.dst
  if !epAssigned s.variant p.dst ∨ slotsOf s.variant ≤ dest % 64 then some 0x01
  else if p.tc = 1 ∧ dest / 64 ≠ s.selfNum / 64 ∧ p.op ≠ 0x12 then some 0x02
  else if p.tc = 3 ∧ s.mtu < p.payload.length then some 0x09
  else if (s.liveAlts dest).isEmpty then some 0x0C
  else
    let f := s.fctr p.barn
    let quota := match s.barn p.barn with
      | some b => if p.tc = 1 then b.quota1 else b.quota3
      | none => 0
    let use := if p.tc = 1 then f.useTc1 else f.useTc3
    if (p.tc = 1 ∨ p.tc = 3) ∧ quota < use + units + p.units then some 0x08
    else if engine ∧ 64 ≤ s.queuedBy p + count then some 0x07
    else none

/-! Pair copies (R301 to R303). -/

/-- R303: the gateway of its destination die through which a packet enters. -/
def Pkt.entryGw (p : Pkt) : Nat :=
  if !epPlane p.dst then coreCluster (p.dst % 16384)
  else if epX p.dst = 1 then 16 * epDie p.dst + epY p.dst % 16
  else if epX p.dst = 0 then
    (if p.op = 0x10 then 16 * epDie p.dst + p.addr % 16 else entryGateway (addrLocal p.addr))
  else 16 * epDie p.dst
/-- R303: PAIR, PSEQ and RTAG of a packet that leaves a member; any other packet is sent as it is. -/
def State.stampPair (s : State) (p : Pkt) : Pkt × State :=
  match findPair s.pairTable s.selfSlot (epDie p.src) with
  | none => (p.seal, s)
  | some (_, r, isB) =>
    let inside := decide (epPkg p.dst / 64 = s.selfNum / 64) && epInMember p.dst
      && decide (r.member (epPkg p.dst % 64) (epDie p.dst) = some isB)
    if inside ∨ !epInMember p.src then (p.seal, s)
    else
      let key := (epDie p.src * 32768 + epPkg p.dst) * 256 + p.entryGw
      let n := tget 0 s.pseq key
      let req := opTc p.op ≠ 2
      ({ p with pair := true, pseq := n, rtag := if req then n % 4096 else p.rtag }.seal,
       { s with pseq := tset 0 s.pseq key ((n + 1) % 16384) })
/-- R301, R302: the copies of a request toward its destination: none for a member's own twin; two for a destination inside a member,
unless the OP is LOAD or COPY_PULL. -/
def State.copies (s : State) (p : Pkt) : Option (List Pkt) :=
  let d := epPkg p.dst
  if d / 64 ≠ s.selfNum / 64 ∨ !epInMember p.dst then some [p]
  else match findPair s.pairTable (d % 64) (epDie p.dst) with
    | none => some [p]
    | some (_, r, isB) =>
      let mine := if epInMember p.src then r.member s.selfSlot (epDie p.src) else none
      let (ts, td) := r.twin isB (epDie p.dst)
      let twinned := { p with
        dst := epWith p.dst ts td
        addr := if p.op = 0x10 ∨ p.op = 0x18 then p.addr else addrWith p.addr ts td }
      if mine = some isB then some [p]
      else if mine = some (!isB) then (if p.dst = epWith p.src (d % 64) (epDie p.dst) then none else some [p])
      else if p.op = 0x01 ∨ p.op = 0x12 then some [p]
      else some [p, twinned]
/-- The first refusal among the copies of a submission: R21 in the package, Table 9-8 outside it. -/
def firstRefusal (s : State) (engine : Bool) (units count : Nat) : List Pkt → Option Nat
  | [] => none
  | p :: l =>
    if epPkg p.dst = s.selfNum then (if epAssigned s.variant p.dst then firstRefusal s engine units count l else some 0x01)
    else match s.offRefusal p engine units count with
      | some c => some c
      | none => firstRefusal s engine (units + p.units) (count + 1) l
def stampAll (s : State) : List Pkt → List Pkt × State
  | [] => ([], s)
  | p :: l =>
    let (q, s1) := s.stampPair p
    let (qs, s2) := stampAll s1 l
    (q :: qs, s2)
/-- The quota units of off-package copies (R230). -/
def offUnits (s : State) (ps : List Pkt) : Nat :=
  (ps.filter fun p => decide (epPkg p.dst ≠ s.selfNum)).foldl (fun a p => a + p.units) 0
/-- The submission of a request by an agent (R230, R301, R302): a refusal's status, or the stamped copies and the state with their
quota taken. -/
def State.submit (s : State) (p : Pkt) (engine : Bool) : Nat ⊕ (List Pkt × State) :=
  match s.copies p with
  | none => .inl 0x0F
  | some ps =>
    match firstRefusal s engine 0 0 ps with
    | some c => .inl c
    | none =>
      let (qs, s1) := stampAll s ps
      .inr (qs, s1.onFctr p.barn fun f => f.addUse p.tc (offUnits s ps))
/-- The source checks of `n` bytes at a span address (R21, R24, R239, R240). -/
def State.addrRefusal (s : State) (a n : Nat) : Option Nat :=
  if slotsOf s.variant ≤ addrSlot a then some 0x01
  else if !rangeAssigned (addrLocal a) (max 1 n) then some 0x06
  else none
/-- The bytes that a request of a thread touches. -/
def reqLen (op : Nat) (payload : List Byte) : Nat :=
  if op = 0x01 then leVal payload % 512 else if 0x20 ≤ op then 8 else payload.length
/-- The completions that the copies of a request await. -/
def awaits (ps : List Pkt) : List Await := ps.map fun q => ⟨q.rtag, q.dst, q.dst⟩
/-- The package that a span address of this span names. -/
def State.addrPkg (s : State) (a : Nat) : Nat := s.selfNum / 64 * 64 + addrSlot a

/-! From a core to its gateway (R149, R154). -/

/-- The beats of a packet: one per 64 bytes (log 12); the packet rides on the last. -/
def beatsOf (ident dest : Nat) (p : Pkt) : List Beat :=
  List.replicate (p.units - 1) ⟨ident, dest, false, false, none⟩ ++ [⟨ident, dest, true, false, some p⟩]
/-- The identity of a core as a dynamic source of its cluster (R150): its cluster-local number; 64 is the gateway's. -/
def coreIdent (c : Nat) : Nat := 8 * (coreY c % 8) + coreX c % 8
/-- Beats move up from what waits into a queue of `n` (R149). -/
def Core.fillOut (k : Core) : Core :=
  { k with outQ := k.outQ ++ k.outWait.take (4 - k.outQ.length), outWait := k.outWait.drop (4 - k.outQ.length) }
def Core.fillGw (k : Core) : Core :=
  { k with gwQ := k.gwQ ++ k.gwWait.take (8 - k.gwQ.length), gwWait := k.gwWait.drop (8 - k.gwQ.length) }
/-- A packet of a core: its beats enter the outbound queue of 4 as there is room. -/
def State.coreSend (s : State) (c : Nat) (p : Pkt) : State :=
  s.onCore c fun k => { k with outWait := k.outWait ++ beatsOf (coreIdent c) c p }.fillOut
def coreSendAll (s : State) (c : Nat) : List Pkt → State
  | [] => s
  | p :: l => coreSendAll (s.coreSend c p) c l
def egressAll (s : State) : List Pkt → State
  | [] => s
  | p :: l => egressAll (s.egress p) l

/-- The lowest request tag free at a core: neither outstanding nor orphaned (R103, R380); 256 can be outstanding and as many orphaned. -/
def State.freeTag (s : State) (c : Nat) : Nat :=
  let k := s.core c
  let w := s.gw (coreCluster c)
  ((List.range 600).find? fun n => !(k.reqs.any fun r => decide (r.tag = n)) && !(w.orphans.any fun o => decide (o.who = c) && decide (o.tag = n))).getD 600

/-- R380: a reply with an orphaned tag is discarded, with a note of the cluster; with the last one awaited the tag is freed. -/
def State.orphanReply (s : State) (g who src tag : Nat) : State :=
  match (s.gw g).orphans.find? fun o => decide (o.who = who) && o.want.any fun a => a.is src tag with
  | some o =>
    let left := dropAwait src tag o.want
    let w := s.gw g
    if left.isEmpty then
      ((s.setGw g { w with orphans := removeFirst o w.orphans }).onFctr o.barn fun f => f.subUse o.tc o.units).report 0x1A g tag
    else (s.setGw g { w with orphans := w.orphans.map fun x => if x = o then { o with want := left } else x }).report 0x1A g tag
  | none => s

/-- A span request of a core (R100, R103, R230): refused with a status, or sent, its record added to the core. -/
def State.sendReq (s : State) (c : Nat) (who : Waiter) (skind pc op addr : Nat) (payload : List Byte) : Option Nat × State :=
  let refuse (st : Nat) : Option Nat × State := (some st, s.onFctr (s.coreStamp c) fun f => f.refuse st)
  match s.addrRefusal addr (reqLen op payload) with
  | some st => refuse st
  | none =>
    let tag := s.freeTag c
    let pkg := s.addrPkg addr
    let p := mkPkt op skind (addrEp pkg (addrLocal addr)) (coordOf s.selfNum c) (s.coreStamp c) tag addr payload
    match s.submit p false with
    | .inl st => refuse st
    | .inr (ps, s1) =>
      let r : Req := {
        tag := tag
        who := who, addr := addr, pc := pc, dead := false, isStore := isStoreOp op, inPkg := decide (pkg = s.selfNum)
        station := localStation (addrLocal addr), sent := false, units := offUnits s ps, tc3 := false, want := awaits ps
        st := 0, data := [] }
      (none, coreSendAll (s1.onCore c fun k => { k with reqs := k.reqs ++ [r] }) c ps)

end Sys2Proof.Machine
end

