-- ==== Sys2Proof/Machine/Target.lean ====
section
/-! DEFINITION. What a target does with an access: the checks of Table 10-4, HBM with its error rules, and the register window
(spec/10 R240 to R269). -/
namespace Sys2Proof.Machine

/-! Windows, destination side (R226, R228). -/

def State.dwin (s : State) (k : Nat) : DstWin := tget DstWin.init s.dstWin k
def State.setDwin (s : State) (k : Nat) (w : DstWin) : State := { s with dstWin := tset DstWin.init s.dstWin k w }
/-- The next packet of a window in WSEQ order goes to its target, once the one before it has been performed. -/
def State.pump (s : State) (k : Nat) : State :=
  let w := s.dwin k
  if w.busy then s
  else match w.held.find? fun p => decide (p.2.wseq = w.expect) with
    | none => s
    | some p => (s.setDwin k { w with busy := true, expect := (w.expect + 1) % 65536, held := removeFirst p w.held }).inside p.1 p.2
/-- A windowed packet from another package has been performed or answered: its units are freed (R226, R381) and the next goes on. -/
def State.freed (s : State) (p : Pkt) : State :=
  if epPkg p.src ≠ s.selfNum ∧ (p.tc = 1 ∨ p.tc = 3) then
    let k := winKey (epPkg p.src) p.tc
    (s.setDwin k { s.dwin k with freed := (s.dwin k).freed + p.units, busy := false }).pump k
  else s

/-! Granules and lines (R241, R261, R266). -/

def State.granule (s : State) (n : Nat) : Granule := tget Granule.init s.granules n
def State.setGranule (s : State) (n : Nat) (g : Granule) : State := { s with granules := tset Granule.init s.granules n g }
/-- The package granule number of a local HBM offset. -/
def granuleOf (l : Nat) : Nat := 64 * (l / 2 ^ 36) + l % 2 ^ 36 / 2 ^ 30
/-- The barn that owns a granule, if any. -/
def State.granuleBarn (s : State) (n : Nat) : Option Nat :=
  match (s.granule n).st with
  | .owned b => some b
  | _ => none
/-- DETAIL of an HBM row (Table 18-2): channel, bank and row of R241's mapping. -/
def hbmRowDetail (l : Nat) : Nat := packFields [(5, bitsAt l 8 5), (6, bitsAt l 16 6), (21, bitsAt l 22 14)]
def lineOf (l : Nat) : Nat := l / 64
/-- R268: a row waits for its repair. -/
def State.wantRepair (s : State) (g detail : Nat) : State :=
  if s.rowWait.contains (g, detail) then s else { s with rowWait := s.rowWait ++ [(g, detail)] }
/-- The lines of a range. -/
def linesOf (l n : Nat) : List Nat := (List.range (ceilDiv (l % 64 + n) 64)).map fun i => l / 64 + i
def insertSorted (x : Nat) : List Nat → List Nat
  | [] => [x]
  | y :: l => if x < y then x :: y :: l else if x = y then y :: l else y :: insertSorted x l
/-- MEM_POISONED (Table 10-11). -/
def State.poisonedOf (s : State) (b : Nat) : Nat :=
  (s.poison.filter fun w => decide (s.granuleBarn (granuleOf (64 * w)) = some b)).length
/-- MEM_GRANULES (Table 10-11). -/
def State.granulesOf (s : State) (b : Nat) : Nat :=
  let owned := s.granules.filter fun (_, g) => decide (g.st = .owned b)
  packFields [(16, owned.length), (16, (s.granules.filter fun (_, g) => decide (g.st = .scrubbing b)).length),
    (16, (owned.filter fun (_, g) => g.retired).length), (16, 0)]

/-- R264: what the stack stores of a line that has been written: its bytes under the granule's key pair, the tweak its package HBM byte offset. -/
def State.lineCipher (s : State) (w : Nat) : List Byte :=
  Config.aesXts (Config.granuleKey (granuleOf (64 * w)) (s.granule (granuleOf (64 * w))).epoch) (64 * w % 2 ^ 40) (memRead s.hbm (64 * w) 64)
/-- R265: the 72 stored bytes, the 8 check bytes taken over the ciphertext. -/
def State.lineStored (s : State) (w : Nat) : List Byte :=
  s.lineCipher w ++ (rsParity 8 ((s.lineCipher w).map (·.toNat))).map (BitVec.ofNat 8)
/-- What the decoder of R265 finds in a line: up to 3 wrong bytes are corrected. The code is linear, so the outcome is that of the errors alone. -/
def hbmOutcome (e : HbmErr) : Ecc :=
  let w := e.foldl (fun (l : List Nat) (i, v) => l.set i.val (l.getD i.val 0 ^^^ v.toNat)) (List.replicate 72 0)
  if w.all (· == 0) then .ok
  else match rsDecode 8 3 w with
    | some (c, _) => if c.all (· == 0) then .corrected 0 else .uncorrectable
    | none => .uncorrectable
/-- R266: an error met in the line at offset `l` of HBM: corrected, or uncorrectable with the line poisoned. Either is reported against the row
(Table 18-4) and counted for the owning barn; a row with an uncorrectable line is to be repaired (R268). -/
def State.hbmError (s : State) (l : Nat) (e : HbmErr) : Bool × State :=
  let own (s : State) (f : MemCtr → MemCtr) : State :=
    match s.granuleBarn (granuleOf l) with
    | some b => s.onMctr b f
    | none => s
  match hbmOutcome e with
  | .ok => (true, s)
  | .corrected _ =>
    (true, (own s fun m => { m with ce := (m.ce + 1) % 2 ^ 64 }).report 0x20 (granuleOf l) (hbmRowDetail l))
  | .uncorrectable =>
    (false, ((own s fun m => { m with ue := (m.ue + 1) % 2 ^ 64 }).report 0x21 (granuleOf l) (hbmRowDetail l))
      |> fun s => { s.wantRepair (granuleOf l) (hbmRowDetail l) with
        poison := insertSorted (lineOf l) s.poison, hbm := memClear s.hbm (l / 64 * 64) 64 })
/-- The lines of an access, in order: it fails where one of them cannot be corrected. `es` are the errors of those lines. -/
def hbmErrors (s : State) (es : List HbmErr) : List Nat → Bool × State
  | [] => (true, s)
  | w :: l =>
    let (ok, s1) := s.hbmError (64 * w) (es.headD [])
    let (ok', s2) := hbmErrors s1 (es.drop 1) l
    (ok && ok', s2)

/-! Alignment and operations (R245, Table 10-5). -/

inductive TKind where
  | load | store | atomic | counter
  deriving DecidableEq, Repr
def alignedReq (kind : TKind) (l n : Nat) : Bool :=
  if n = 1 ∨ n = 2 ∨ n = 4 ∨ n = 8 then l % n == 0
  else if kind = .atomic then false
  else if n = 3 ∨ n = 5 ∨ n = 6 ∨ n = 7 then decide (l % 8 + n ≤ 8)
  else decide (9 ≤ n) && decide (n ≤ 256) && l % 64 == 0 && decide (l % 4096 + n ≤ 4096)
/-- Check 3 of Table 10-4; `al` says that R245's alignment applies (a copy segment has none). -/
def State.opAllowed (s : State) (own al : Bool) (kind : TKind) (l n : Nat) : Bool :=
  (!al || alignedReq kind l n) &&
  match localRegion l with
  | .hbm _ o => decide (kind ≠ .counter) && decide (o + n ≤ hbmLimit s.variant)
  | .core _ o =>
    match regionOf o n with
    | .sram => decide (kind ≠ .counter)
    | .istore => decide (kind = .load) || decide (kind = .store)
    | .counter => decide (kind = .load) || decide (kind = .counter)
    | .status => decide (kind = .load) || decide (kind = .store)
    | .none => false
  | .reg o => own && decide (n = 8) && o % 8 == 0 && regAssigned o
    && (decide (kind = .load) || decide (kind = .store))
  | .none => false

/-- R430: whether a package may reach a barn's resources. -/
def State.peerAdmitted (s : State) (b pkg : Nat) : Bool :=
  decide (pkg = s.selfNum) ||
  match s.barn b with
  | some x => x.peersOpen || x.peers.contains pkg
  | none => false
/-- The owner of the resource at a local offset, for check 4; `none` where no barn owns it. -/
def State.targetOwner (s : State) (l : Nat) : Option Nat :=
  match localRegion l with
  | .hbm _ _ => s.granuleBarn (granuleOf l)
  | .core c _ => s.coreBarn c
  | .reg o => if 0x100000 ≤ o then s.queueBarn ((o - 0x100000) / 32) else none
  | .none => none
/-- Table 10-4: the status of an access by `barn` of package `pkg` to `n` bytes at local offset `l`, 0 when it may be performed, and
the state with a failed check 4 counted. -/
def State.targetCheckAl (s : State) (pkg barn : Nat) (al : Bool) (kind : TKind) (l n : Nat) : Nat × State :=
  let own := decide (pkg = s.selfNum)
  let (out, busy) : Bool × Bool := match localRegion l with
    | .core c _ => (s.coreOut c || s.dieDown.contains (coreDie c), decide ((s.core c).power ≠ .running))
    | .hbm d _ => (s.dieDown.contains d, false)
    | .reg _ => (s.dieDown.contains (localStation l), false)
    | .none => (false, false)
  if out then (0x03, s)
  else if busy then (0x04, s)
  else if !s.opAllowed own al kind l n then (0x06, s)
  else
    let owner := s.targetOwner l
    let paged := match localRegion l with
      | .reg o => decide (o < 0x100000)
      | _ => false
    let ok := if paged then s.barnExists barn else decide (owner = some barn) && s.peerAdmitted barn pkg
    if !ok then (0x0F, match owner with
      | some b => s.onMctr b fun m => { m with denied := (m.denied + 1) % 2 ^ 64 }
      | none => s)
    else match localRegion l with
      | .hbm _ _ =>
        let covers (w : Nat) : Bool := decide (kind = .store) && decide (l ≤ 64 * w) && decide (64 * w + 64 ≤ l + n)
        if (linesOf l n).any fun w => s.poison.contains w && !covers w then (0x05, s) else (0, s)
      | _ => (0, s)

def State.targetCheck (s : State) (pkg barn : Nat) (kind : TKind) (l n : Nat) : Nat × State :=
  s.targetCheckAl pkg barn true kind l n
def checkPieces (s : State) (pkg barn : Nat) (kind : TKind) : List (Nat × Nat) → Nat × State
  | [] => (0, s)
  | (l, n) :: rest =>
    match s.targetCheckAl pkg barn false kind l n with
    | (0, s') => checkPieces s' pkg barn kind rest
    | r => r
/-- Table 10-4 over the bytes of a copy segment. -/
def State.rangeCheck (s : State) (pkg barn : Nat) (kind : TKind) (l n : Nat) : Nat × State :=
  checkPieces s pkg barn kind (pieces4k 4 l n)
/-- The bytes at a local offset: HBM or a core window. -/
def State.localRead (s : State) (l n : Nat) : List Byte :=
  match localRegion l with
  | .hbm _ _ => memRead s.hbm l n
  | .core c o => s.windowRead c o n
  | _ => List.replicate n 0

/-- R386: an access of `n` bytes to an HBM channel that retrains waits for its end. -/
def State.hbmWaits (s : State) (l n : Nat) : Bool :=
  match localRegion l with
  | .hbm d off => decide (n ≠ 0) && s.channels.any fun (k, x) => x.training && decide (k / 32 = d)
      && decide ((32 + k % 32 - off / 256 % 32) % 32 ≤ (off + n - 1) / 256 - off / 256)
  | _ => false
/-- What the check bits of a read of `n` bytes at a local offset find: HBM (R266) or core SRAM (R66). -/
def State.readCheck (s : State) (l n : Nat) (e : ReadErr) : Bool × State :=
  match localRegion l with
  | .hbm _ _ => hbmErrors s e.lines (linesOf l n)
  | .core c o => if o < 0x60000 then sramChecks s c (o / 64 * 64) e.rows else (true, s)
  | _ => (true, s)

/-! HBM accesses (R246, R263, R266). -/

/-- A store's lines that it covers whole lose the poison marker; a performed store removes its lines from read-ahead buffers (R257). -/
def State.hbmStore (s : State) (l : Nat) (bs : List Byte) : State :=
  let n := bs.length
  let ls := linesOf l n
  { s with
    hbm := memWrite s.hbm l bs
    poison := s.poison.filter fun w => !(decide (l ≤ 64 * w) && decide (64 * w + 64 ≤ l + n))
    readAhead := s.readAhead.map fun r => { r with lines := r.lines.filter fun w => !ls.contains w } }
/-- The lines of which a store covers a part only, so that they are read and merged. -/
def partialLines (l n : Nat) : List Nat := (linesOf l n).filter fun w => decide (64 * w < l) || decide (l + n < 64 * w + 64)

/-! Read-ahead buffers (R257). -/

/-- The record of a copy: by the gateway that submitted it, here or in another package, and the tracker. -/
def ReadAhead.of (r : ReadAhead) (who trk : Nat) : Bool := decide (r.who = who) && decide (r.trk = trk)
def State.aheadOf (s : State) (who trk : Nat) : Option ReadAhead := s.readAhead.find? fun r => r.of who trk
def State.putAhead (s : State) (r : ReadAhead) : State := { s with readAhead := r :: s.readAhead.filter fun x => !x.of r.who r.trk }
/-- A segment of a copy is served from HBM: its lines leave the buffer. A segment that runs on from the one before keeps the record; `linear` says
that the copy is known to be one (a pull does not tell: log 14). -/
def State.served (s : State) (who trk barn src len : Nat) (linear : Bool) : State :=
  match localRegion src with
  | .hbm _ _ =>
    let fresh : ReadAhead := ⟨who, trk, barn, linear, (src + len + 63) / 64, 0, []⟩
    match s.aheadOf who trk with
    | some r =>
      if r.barn = barn ∧ (r.next = src / 64 ∨ r.next = src / 64 + 1) then
        s.putAhead { r with linear := true, next := (src + len + 63) / 64, lines := r.lines.filter fun w => !(linesOf src len).contains w }
      else s.putAhead fresh
    | none => s.putAhead fresh
  | _ => s

/-! Message queues (R258 to R260) and the register window (R243, Tables 9-9, 10-9, 10-11). -/

def State.queue (s : State) (q : Nat) : MQueue := tget MQueue.init s.queues q
def State.setQueue (s : State) (q : Nat) (x : MQueue) : State := { s with queues := tset MQueue.init s.queues q x }
def MQueue.en (x : MQueue) : Bool := bitAt x.cfg 0
def MQueue.entryBytes (x : MQueue) : Nat := 2 ^ (6 + bitsAt x.cfg 1 3)
def MQueue.entries (x : MQueue) : Nat := 2 ^ (4 + bitsAt x.cfg 4 4)
/-- QBASE's rule: aligned to the ring, wholly in granules the barn owns. -/
def State.qbaseOk (s : State) (b cfg base : Nat) : Bool :=
  let ring := 2 ^ (6 + bitsAt cfg 1 3) * 2 ^ (4 + bitsAt cfg 4 4)
  decide (base % ring = 0) && decide (base + ring ≤ 2 ^ 40) && decide (base % 2 ^ 36 + ring ≤ hbmLimit s.variant)
    && decide (s.granuleBarn (granuleOf base) = some b)
/-- R259: a write of QCFG by the queue's barn. -/
def State.writeQcfg (s : State) (b q v : Nat) : State :=
  let x := s.queue q
  let v := v % 2 ^ 23
  if x.en then (if bitAt v 0 then s else s.setQueue q { x with cfg := v })
  else
    let bad := bitsAt v 1 3 = 7 ∨ bitsAt v 4 4 = 15
    if bitAt v 0 ∧ bad then s.setQueue q { x with cfg := v - 1 }
    else if bitAt v 0 ∧ !s.qbaseOk b v x.base then s
    else s.setQueue q { x with cfg := v }
def State.writeQbase (s : State) (q v : Nat) : State :=
  let x := s.queue q
  if x.en then s else s.setQueue q { x with base := v % 2 ^ 42 }
def State.writeQhead (s : State) (q v : Nat) : State := s.setQueue q { s.queue q with head := v % 2 ^ 32 }

/-- R260: a message at its queue: its status and the state. The entry is written behind its header, padded with zeros. -/
def State.enqueue (s : State) (p : Pkt) (q : Nat) : Nat × State :=
  let x := s.queue q
  let refuse (st : Nat) (s : State) : Nat × State :=
    (st, match s.queueBarn q with
      | some b => s.onMctr b fun m => { m with msgRefused := (m.msgRefused + 1) % 2 ^ 64 }
      | none => s)
  let n := p.payload.length
  if (2 ^ 32 + x.tail - x.head) % 2 ^ 32 = x.entries then refuse 0x07 s
  else if x.entryBytes < n + 16 then refuse 0x09 s
  else
    let hdr := leBytes 8 (packFields [(30, p.src), (3, p.skind), (13, n)]) ++ leBytes 8 s.reckon
    let s1 := s.hbmStore (x.base + x.tail % x.entries * x.entryBytes) (padTo x.entryBytes (hdr ++ p.payload))
    let s2 := s1.setQueue q { x with tail := (x.tail + 1) % 2 ^ 32 }
    (0, if bitAt x.cfg 8 then s2.addTally (16 * (q / 4096) + bitsAt x.cfg 19 4) (bitsAt x.cfg 9 10) 1 else s2)

/-- A register of the fabric page (Table 9-9). -/
def State.fabReg (s : State) (b o : Nat) : Nat :=
  let f := s.fctr b
  match o with
  | 0x00 => f.sentPkts
  | 0x08 => f.sentBytes
  | 0x10 => f.delayed
  | 0x18 => f.delayTime
  | 0x20 => f.refQFull
  | 0x28 => f.refQuota
  | 0x30 => f.refOther
  | 0x38 => f.ended
  | 0x40 => f.useTc1 % 2 ^ 32 + 2 ^ 32 * (f.useTc3 % 2 ^ 32)
  | 0x48 => match s.barn b with
    | some x => x.quota1 % 2 ^ 32 + 2 ^ 32 * (x.quota3 % 2 ^ 32)
    | none => 0
  | _ => 0
/-- A register of the memory page (Table 10-11). -/
def State.memReg (s : State) (b o : Nat) : Nat :=
  let m := s.mctr b
  match o with
  | 0x00 => s.granulesOf b
  | 0x08 => m.ce
  | 0x10 => m.ue
  | 0x18 => s.poisonedOf b
  | 0x20 => m.denied
  | 0x28 => m.raBytes
  | 0x30 => m.raDropped
  | 0x38 => m.copyErr
  | 0x40 => m.copyLate
  | 0x48 => m.msgRefused
  | _ => 0
/-- A register of the message queue page (Table 10-9). -/
def State.queueReg (s : State) (o : Nat) : Nat :=
  let x := s.queue (o / 32)
  match o % 32 with
  | 0x00 => x.cfg
  | 0x08 => x.base
  | 0x10 => x.head
  | _ => x.tail
/-- A load of a register of the register window by barn `b` (R14, Table 0-3). -/
def State.regLoad (s : State) (b o : Nat) : Option Nat :=
  if o < 8 then some (s.steer b).commit
  else if o < 0x10 then some (s.steer b).status
  else if o < 0x2000 then some (s.fabReg b (o - 0x1000))
  else if o < 0x100000 then some (s.memReg b (o - 0x2000))
  else some (s.queueReg (o - 0x100000))
/-- The bytes that a segment of a copy of barn `b` reads in this package. -/
def State.sourceBytes (s : State) (b l n : Nat) : List Byte :=
  match localRegion l with
  | .reg o => leBytes 8 ((s.regLoad b o).getD 0)
  | _ => s.localRead l n

end Sys2Proof.Machine
end

