-- ==== Sys2Proof/Machine/Copies.lean ====
section
/-! DEFINITION. The copy engine (spec/10 R250 to R257): descriptors, submission, segments, completion. -/
namespace Sys2Proof.Machine

/-- 32-bit words of a byte list. -/
def wordsOf : List Byte → List Nat
  | a :: b :: c :: d :: l => leVal [a, b, c, d] :: wordsOf l
  | _ => []

/-! Table 10-7. -/

def cdKind (d : Nat) : Nat := bitsAt d 0 4
def cdCtrEn (d : Nat) : Bool := bitAt d 23
def cdSrcPkg (d : Nat) : Nat := bitsAt d 42 9 * 64 + bitsAt d 106 6
def cdDstPkg (d : Nat) : Nat := bitsAt d 51 9 * 64 + bitsAt d 170 6
def cdSrc (d : Nat) : Nat := bitsAt d 64 42
def cdDst (d : Nat) : Nat := bitsAt d 128 42
def cdQueue (d : Nat) : Nat := bitsAt d 176 16
def cdCount (d : Nat) : Nat := bitsAt d 192 32 + 1
def cdElem (d : Nat) : Nat := bitsAt d 224 13 + 1
def cdStride (d : Nat) : Nat := bitsAt d 256 32
def cdIdx (d : Nat) : Nat := bitsAt d 288 19
def cdStat (d : Nat) : Nat := bitsAt d 320 19
def cdIndexed (d : Nat) : Bool := cdKind d == 1 || cdKind d == 2
def cdReserved (d : Nat) : Bool :=
  bitsAt d 60 4 == 0 && bitsAt d 112 16 == 0 && bitsAt d 237 19 == 0 && bitsAt d 307 13 == 0 && bitsAt d 339 173 == 0
/-- The end of the region of Table 10-2 in which a local offset lies; the unassigned rows of the table count as regions. -/
def regionEnd (l : Nat) : Nat :=
  if l < 2 ^ 40 then 2 ^ 40
  else if l < 0x20000000000 then 0x20000000000
  else if l < 0x20400000000 then 0x20400000000
  else if l < 0x30000000000 then 0x30000000000
  else if l < 0x30000400000 then 0x30000400000
  else 2 ^ 42
/-- R251: a range within its region of Table 10-2. -/
def inRegion (l n : Nat) : Bool := decide (l + n ≤ regionEnd l)
/-- R251: the whole range in one core's SRAM window. -/
def inOneSram (l n : Nat) : Bool :=
  match localRegion l with
  | .core _ o => decide (o + n ≤ 0x60000)
  | _ => false
/-- R251: the checks that need no index. -/
def State.copyDescOk (s : State) (d : Nat) : Bool :=
  let k := cdKind d; let n := cdCount d
  let home (p : Nat) : Bool := decide (p = s.selfNum)
  cdReserved d && decide (k ≤ 3)
    && (cdIndexed d || (bitsAt d 224 13 == 0 && cdStride d == 0 && cdIdx d == 0))
    && (k == 3 || cdQueue d == 0)
    && (!cdIndexed d || (decide (n ≤ 65536) && decide (4 ≤ cdElem d) && decide (cdElem d ≤ 4096) && cdElem d % 4 == 0
        && cdStride d % 4 == 0 && decide (cdElem d ≤ cdStride d) && cdIdx d % 4 == 0 && decide (cdIdx d + 4 * n ≤ 0x60000)))
    && (k != 3 || (decide (n ≤ 4096) && cdDst d == 0 && home (cdSrcPkg d)))
    && (!bitAt d 30 || (cdStat d % 8 == 0 && decide (cdStat d + 8 ≤ 0x60000)))
    && (home (cdSrcPkg d) || home (cdDstPkg d))
    && (!cdCtrEn d || (decide (k ≠ 2) && decide (k ≠ 3) && inOneSram (cdDst d) (if k = 1 then n * cdElem d else n)))
    && (match k with
        | 0 => inRegion (cdSrc d) n && inRegion (cdDst d) n
        | 1 => inRegion (cdDst d) (n * cdElem d)
        | 2 => inRegion (cdSrc d) (n * cdElem d)
        | _ => inRegion (cdSrc d) n)
/-- R251: the indexed ranges. -/
def copyIdxOk (d : Nat) (idx : List Nat) : Bool :=
  let base := if cdKind d = 1 then cdSrc d else cdDst d
  idx.all fun i => inRegion (base + i * cdStride d) (cdElem d)

/-! Segments (R252, R253). -/

/-- The next segment of a tracker: source offset, destination offset, bytes; and the tracker that has cut it. `p` is the payload limit. -/
def Tracker.next (t : Tracker) (p : Nat) : Option (Nat × Nat × Nat × Tracker) :=
  if t.cut then none
  else
    let d := t.desc
    let n := cdCount d
    if cdKind d = 3 then some (cdSrc d, 0, n, { t with cut := true })
    else if cdKind d = 0 then
      let dst := cdDst d + t.off
      let len := min (min p (n - t.off)) (4096 - dst % 4096)
      some (cdSrc d + t.off, dst, len, { t with off := t.off + len, cut := decide (n ≤ t.off + len) })
    else
      let e := cdElem d
      let i := t.idx.getD t.elem 0
      let (src0, dst0) := if cdKind d = 1 then (cdSrc d + i * cdStride d, cdDst d + t.elem * e)
        else (cdSrc d + t.elem * e, cdDst d + i * cdStride d)
      let dst := dst0 + t.off
      let len := min (min p (e - t.off)) (4096 - dst % 4096)
      let wrap := decide (e ≤ t.off + len)
      some (src0 + t.off, dst, len, { t with
        off := if wrap then 0 else t.off + len
        elem := if wrap then t.elem + 1 else t.elem
        cut := wrap && decide (n ≤ t.elem + 1) })
/-- R252: P, by the path that the COPY_WRITE takes: in the package when source and destination lie in one. -/
def State.copyP (s : State) (d : Nat) : Nat := if cdDstPkg d = cdSrcPkg d then 4080 else s.mtu - 16
/-- Table 10-8. -/
def copyPrefix (d g trk : Nat) : List Byte :=
  leBytes 16 (packFields [(10, bitsAt d 5 10), (1, bitsAt d 4 1), (4, bitsAt d 15 4), (4, bitsAt d 19 4), (45, 0),
    (8, trk), (4, g % 16), (4, g / 16)])
/-- The packet of a segment whose data is `data`; without data for a pull. -/
def State.segPkt (s : State) (g trk tag barn d src dst len : Nat) (data : List Byte) : Pkt :=
  let me := gatewayEp s.selfNum g
  if cdKind d = 3 then
    mkPkt 0x10 2 (memEp (cdDstPkg d) (cdQueue d / 4096)) me barn tag (cdQueue d) data
  else if cdSrcPkg d = s.selfNum then
    mkPkt 0x11 2 (addrEp (cdDstPkg d) dst) me barn tag (cdDstPkg d % 64 * 2 ^ 42 + dst) (copyPrefix d g trk ++ data)
  else
    mkPkt 0x12 2 (addrEp (cdSrcPkg d) src) me barn tag (cdSrcPkg d % 64 * 2 ^ 42 + src)
      (copyPrefix d g trk ++ leBytes 6 (cdDstPkg d % 64 * 2 ^ 42 + dst) ++ leBytes 2 len ++ List.replicate 8 0)

/-! Completion (R255, R256). -/

/-- The end of a copy with its status: its tracker, its tags' read-ahead record, the completion record, the source tally. -/
def State.copyOver (s : State) (g trk : Nat) (t : Tracker) (st : Nat) : State :=
  let d := t.desc
  let s1 := s.setGw g { s.gw g with trackers := tset none (s.gw g).trackers trk none }
  let s1 := { s1 with readAhead := s1.readAhead.filter fun r => !r.of (gatewayEp s.selfNum g) trk }
  let s2 := if bitAt d 30 then
      s1.onCore t.core fun k => if k.power ≠ .running then k else k.sramWrite (cdStat d) (leBytes 4 st ++ leBytes 4 t.done)
    else s1
  let s3 := if bitAt d 31 then s2.addTally g (bitsAt d 32 10) 1 else s2
  if st = 0 then s3 else s3.onMctr t.barn fun m => { m with copyErr := (m.copyErr + 1) % 2 ^ 64 }
/-- A copy that has nothing left ends: counter post, completion record, source tally. A post refused for quota or a full queue is sent later, and
any other refusal ends the copy with its status (log 14). -/
def State.copyEnd (s : State) (g trk : Nat) : State :=
  match tget none (s.gw g).trackers trk with
  | none => s
  | some t =>
    if t.cut ∧ t.segs.isEmpty then
      let d := t.desc
      let post : Nat ⊕ State :=
        if cdCtrEn d ∧ t.status = 0 then
          match localRegion (cdDst d) with
          | .core c _ =>
            let a := cdDstPkg d % 64 * 2 ^ 42 + (0x20000000000 + c * 2 ^ 20 + 0xC0000 + (if bitAt d 24 then 0x80 else 0) + 4 * bitsAt d 25 5)
            let p := mkPkt 0x03 2 (coordOf (cdDstPkg d) c) (gatewayEp s.selfNum g) t.barn (16 * trk + 15) a (leBytes 4 1)
            match s.submit p true with
            | .inl st => .inl st
            | .inr (ps, s') =>
              .inr (egressAll (s'.setGw g { s'.gw g with posts := (s'.gw g).posts ++ [⟨trk, t.barn, offUnits s ps, awaits ps⟩] }) ps)
          | _ => .inr s
        else .inr s
      match post with
      | .inl st =>
        if st = 0x07 ∨ st = 0x08 then s.onFctr t.barn fun f => f.refuse st
        else (s.onFctr t.barn fun f => f.refuse st).copyOver g trk t st
      | .inr s1 => s1.copyOver g trk t t.status
    else s
/-- A completion of `src` under tag `tag` at gateway `g` (R255, R303): a pair's segment completes with both, its status the first nonzero one
(R302). That of a counter post returns its units. One whose tracker is gone counts for the barn that it is stamped with (R256). -/
def State.segDone (s : State) (g barn src tag status : Nat) : State :=
  let w := s.gw g
  let mine (x : Seg) : Bool := x.want.any fun a => a.is src tag
  match (w.trackers.find? fun (_, t) => match t with
    | some t => t.segs.any mine
    | none => false) with
  | some (trk, some t) =>
    match t.segs.find? mine with
    | none => s
    | some x =>
      let st := if x.st = 0 then status else x.st
      let left := dropAwait src tag x.want
      let t' :=
        if !left.isEmpty then { t with segs := t.segs.map fun y => if y.tag = x.tag then { y with want := left, st := st } else y }
        else { t with
          segs := t.segs.filter fun y => decide (y.tag ≠ x.tag)
          done := if st = 0 then t.done + x.bytes else t.done
          status := if t.status = 0 then st else t.status }
      let s1 := s.setGw g { w with trackers := tset none w.trackers trk (some t') }
      let s2 := if !left.isEmpty then s1 else s1.onFctr t.barn fun f => f.subUse x.tc x.units
      s2.copyEnd g trk
  | _ =>
    match w.posts.find? fun x => x.want.any fun a => a.is src tag with
    | some x =>
      let left := dropAwait src tag x.want
      if left.isEmpty then (s.setGw g { w with posts := removeFirst x w.posts }).onFctr x.barn fun f => f.subUse 1 x.units
      else s.setGw g { w with posts := w.posts.map fun y => if y = x then { x with want := left } else y }
    | none =>
      let s1 := s.orphanReply g (16384 + g) src tag
      if s1.barnExists barn then s1.onMctr barn fun m => { m with copyLate := (m.copyLate + 1) % 2 ^ 64 } else s1

/-! Submission (R251, R253). -/

/-- The outcome of R230 for the first packet that a copy sends off-package. -/
def State.copyFirstRefusal (s : State) (g barn d : Nat) (t : Tracker) : Option Nat :=
  match t.next (s.copyP d) with
  | none => none
  | some (src, dst, len, _) =>
    let p := s.segPkt g 0 0 barn d src dst len (List.replicate len 0)
    match s.copies p with
    | none => some 0x0F
    | some ps => firstRefusal s true 0 0 ps
/-- A copy whose descriptor and indices have been read takes a tracker, or is refused with the status in gD. -/
def State.copySubmit (s : State) (c t gd d : Nat) (idx : List Nat) : State :=
  let g := coreCluster c
  let barn := s.coreStamp c
  let setD (s : State) (v : Nat) : State := s.setTh c t ((s.th c t).setG gd (BitVec.ofNat 64 v))
  let tr : Tracker := ⟨d, c, barn, idx, 0, 0, false, [], 0, 0⟩
  match (List.range 256).find? fun n => (tget none (s.gw g).trackers n).isNone with
  | none => setD s 0x07
  | some n =>
    match s.copyFirstRefusal g barn d tr with
    | some st => setD (s.onFctr barn fun f => f.refuse st) st
    | none => setD (s.setGw g { s.gw g with trackers := tset none (s.gw g).trackers n (some tr) }) 0
/-- The descriptor of a COPY has been read: "bad operand" with gA, the reads of an index array, or the submission. -/
def State.copyRead (s : State) (c t pc gd at_ d : Nat) (dead : Bool) : State :=
  if !s.copyDescOk d then s.raise c t 0x0C 0 0 pc at_
  else if cdIndexed d then
    let h := s.th c t
    s.setTh c t { h with bankOps := ⟨.copyIdx gd at_ d, pc, cdIdx d, 4 * cdCount d, [], dead⟩ :: h.bankOps }
  else s.copySubmit c t gd d []
/-- The indices have been read too. -/
def State.copyIndexed (s : State) (c t pc gd at_ d : Nat) (idx : List Nat) : State :=
  if copyIdxOk d idx then s.copySubmit c t gd d idx else s.raise c t 0x0C 0 0 pc at_

/-- A failed posted store of a thread (R104, R116): the first is kept, later ones are counted; once "store completion error" has been raised they
are counted in EXTRA of FCAUSE until the thread is restarted. -/
def State.storeFailed (s : State) (c t addr status : Nat) : State :=
  let h := s.th c t
  s.setTh c t (
    if h.st = .faulted ∧ h.fcause.toNat % 256 = 0x09 then
      { h with fcause := BitVec.ofNat 24 (h.fcause.toNat % 65536 + 65536 * min 255 (h.fcause.toNat / 65536 + 1)) }
    else match h.storeErr with
    | none => { h with storeErr := some (addr, status) }
    | some _ => { h with extra := min 255 (h.extra + 1) })

/-- A segment's tag is free: neither outstanding nor orphaned (R380). -/
def State.segTagFree (s : State) (g : Nat) (t : Tracker) (n : Nat) : Bool :=
  !(t.segs.any fun x => decide (x.tag = n)) && !((s.gw g).orphans.any fun o => decide (o.who = 16384 + g) && decide (o.tag = n))
/-- The completions that a segment awaits: a pull's comes from its destination, or failed from its source (R252). -/
def segAwaits (d dst : Nat) (ps : List Pkt) : List Await :=
  if cdKind d = 3 then awaits ps
  else ps.map fun q => ⟨q.rtag, q.dst, if q.op = 0x12 then addrEp (cdDstPkg d) dst else q.dst⟩
/-- The copy engine cuts and sends the next segment or pull of a copy (R252). A segment refused for quota or a full queue waits; any other
refusal, or a failed read of the source, fails the segment (log 14). `e` is what an HBM read of the source finds. -/
def execCopySegmentSend (gateway : ClusterId) (tracker : Fin 256) (e : ReadErr) (s : State) : Out :=
  let g := gateway.val; let trk := tracker.val
  match tget none (s.gw g).trackers trk with
  | none => .next s
  | some t =>
    match t.next (s.copyP t.desc), (List.range 15).find? fun n => s.segTagFree g t (16 * trk + n) with
    | some (src, dst, len, t'), some slot =>
      let d := t.desc
      let tag := 16 * trk + slot
      let put (s : State) (t : Tracker) : State := s.setGw g { s.gw g with trackers := tset none (s.gw g).trackers trk (some t) }
      let fail (s : State) (st : Nat) : Out :=
        .next ((put s { t' with status := if t.status = 0 then st else t.status }).copyEnd g trk)
      let home := decide (cdSrcPkg d = s.selfNum)
      if !rangeAssigned src len || (home && cdKind d != 3 && !rangeAssigned dst len) then fail s 0x06
      else if home && s.hbmWaits src len then .next s
      else
        let (st, s1) := if home then s.rangeCheck s.selfNum t.barn .load src len else (0, s)
        if st ≠ 0 then fail s1 st
        else
          let (ok, s2) := if home then s1.readCheck src len e else (true, s1)
          if !ok then fail s2 0x05
          else
            let p := s2.segPkt g trk tag t.barn d src dst len (if home then s2.sourceBytes t.barn src len else [])
            match s2.submit p true with
            | .inl st =>
              if st = 0x07 ∨ st = 0x08 then .next (s2.onFctr t.barn fun f => f.refuse st)
              else fail (s2.onFctr t.barn fun f => f.refuse st) st
            | .inr (ps, s3) =>
              let x : Seg := ⟨tag, len, offUnits s2 ps, p.tc, segAwaits d dst ps, 0⟩
              let s4 := if home then s3.served (gatewayEp s.selfNum g) trk t.barn src len (decide (cdKind d = 0)) else s3
              .next (egressAll (put s4 { t' with segs := t.segs ++ [x] }) ps)
    | none, _ => .next (s.copyEnd g trk)
    | _, none => .next s

end Sys2Proof.Machine
end

