-- ==== Sys2Proof/Machine/Pairs.lean ====
section
/-! DEFINITION. Answers of a target and the chaff filter of in-step pairs (spec/09 R213, R228, R235, spec/12 R300 to R310). -/
namespace Sys2Proof.Machine

/-! Answers (R214, R235). -/

/-- Where the completion of `p` goes: the requester, or for the COPY_WRITE of a pull the tracker's gateway that its prefix names. -/
def Pkt.requester (p : Pkt) : Nat :=
  if p.op = 0x11 ∧ epPlane p.src ∧ epX p.src = 0 then
    let x := leVal (p.payload.take 16)
    gatewayEp (epPkg p.dst) (16 * bitsAt x 76 4 + bitsAt x 72 4)
  else p.src
/-- The completion of `p` as its target sends it, stamped when the target is in a pair (R303). -/
def State.stampCpl (s : State) (p : Pkt) (op st : Nat) (data : List Byte) : Pkt × State :=
  s.stampPair { cplPkt op st p data with dst := p.requester }
/-- An answer from a memory controller, a gateway or the base layer. -/
def State.answer (s : State) (p : Pkt) (op st : Nat) (data : List Byte) : State :=
  let (q, s1) := (s.freed p).stampCpl p op st data
  s1.egress q

/-! Pair records and the filter. -/

def State.pairRec (s : State) (n : Nat) : PairRec := tget PairRec.init s.pairRecs n
def State.onPairRec (s : State) (n : Nat) (f : PairRec → PairRec) : State :=
  { s with pairRecs := tset PairRec.init s.pairRecs n (f (s.pairRec n)) }
def sat32 (n : Nat) : Nat := min (2 ^ 32 - 1) n
/-- The dies of this package that belong to a pair's members. -/
def State.pairDies (s : State) (r : PairDesc) : List Nat :=
  let me := s.selfSlot
  if r.pkgPair then (if me = r.slotA ∨ me = r.slotB then List.range 16 else [])
  else (if me = r.slotA then [r.dieA] else []) ++ (if me = r.slotB then [r.dieB] else [])
def State.freezePair (s : State) (r : PairDesc) : State :=
  { s with frozen := s.frozen ++ (s.pairDies r).filter fun d => !s.frozen.contains d }
/-- A message of this helm to another package's helm; its first payload byte says what it is (log 17). -/
def State.helmSend (s : State) (pkg : Nat) (what : Nat) (body : List Byte) : State :=
  s.egress (mkPkt 0x3C 4 (helmEp pkg) (helmEp s.selfNum) 0 0 0 (leBytes 1 what ++ body)).seal
/-- Table 12-5, steps 1 to 3: the first mismatch or overrun of a pair, or a promoted unpaired count, is reported, and both members freeze. -/
def State.pairFault (s : State) (n : Nat) (report : Bool) : State :=
  if (s.pairRec n).checking then s
  else
    let r := pairDesc (tget 0 s.pairTable n)
    let s1 := s.onPairRec n fun x => { x with checking := true, frozen := true }
    let s2 := (if report then s1.report 0x1C n 0 else s1).freezePair r
    let span := s.selfNum / 64 * 64
    [r.slotA, r.slotB].eraseDups.foldl (fun s sl => if sl = s.selfSlot then s else s.helmSend (span + sl) 0x11 (leBytes 1 n)) s2
/-- R307: an entry resolved as unpaired; `fromB` says that member B's copy was delivered. -/
def State.unpairedEvent (s : State) (n : Nat) (fromB : Bool) : State :=
  let s1 := s.onPairRec n fun x =>
    if fromB then { x with unpairedB := sat32 (x.unpairedB + 1) } else { x with unpairedA := sat32 (x.unpairedA + 1) }
  if (s1.pairRec n).checking then s1 else s1.report 0x1B n 0
def State.overrunEvent (s : State) (n : Nat) : State :=
  (s.onPairRec n fun x => { x with overrun := sat32 (x.overrun + 1) }).pairFault n true
/-- R305, R308: two copies whose pair checks differ. -/
def State.mismatchEvent (s : State) (n pseq checkA checkB : Nat) (fromB : Bool) : State :=
  let s1 := s.onPairRec n fun x =>
    let y := if bitAt x.firstFlags 0 then x
      else { x with firstPseq := pseq, firstFlags := 1 + 2 * boolNat fromB, firstChecks := checkA + 2 ^ 32 * checkB, firstTime := s.reckon }
    { y with mismatch := sat32 (y.mismatch + 1), fromA := y.fromA || !fromB, fromB := y.fromB || fromB }
  s1.pairFault n true

/-- A window of the filter: by gateway, record and member die index. -/
def chaffKey (g n m : Nat) : Nat := (g * 16 + n) * 16 + m
def State.chaffWin (s : State) (k : Nat) : ChaffWin := tget ChaffWin.init s.chaff k
def State.setChaff (s : State) (k : Nat) (w : ChaffWin) : State := { s with chaff := tset ChaffWin.init s.chaff k w }
def ChaffWin.at (w : ChaffWin) (q : Nat) : ChaffEntry := tget ChaffEntry.resolved w.entries q
def ChaffWin.put (w : ChaffWin) (q : Nat) (e : ChaffEntry) : ChaffWin := { w with entries := tset ChaffEntry.resolved w.entries q e }
/-- The pair, member and window of a packet whose source lies in a pair of this span. -/
def State.chaffOf (s : State) (p : Pkt) : Option (Nat × Nat × Bool) :=
  if epPkg p.src / 64 ≠ s.selfNum / 64 then none
  else match findPair s.pairTable (epPkg p.src % 64) (epDie p.src) with
    | some (n, r, isB) => some (chaffKey p.entryGw n (if r.pkgPair then epDie p.src else 0), n, isB)
    | none => none
def isReadOp (op : Nat) : Bool := op == 0x01 || op == 0x12
def answerAll (s : State) (st : Nat) (data : List Byte) : List Pkt → State
  | [] => s
  | p :: l => answerAll (s.answer p (cplOp p.op) st data) st data l
/-- An entry leaves the window (Table 12-3, R306, R307). -/
def State.chaffLeave (s : State) (n : Nat) (e : ChaffEntry) : State :=
  match e.state with
  | 0 => s
  | 1 => answerAll (s.overrunEvent n) 0x05 [] e.waiting
  | _ => answerAll (s.unpairedEvent n e.memberB) 0x05 [] e.waiting
/-- The top moves up by one: the entry of T − 1,024 leaves and that of T is empty. Copies of a resolved entry still wait for the delivered one to be
performed (R306). -/
def chaffAdvance : Nat → State → Nat → Nat → State
  | 0, s, _, _ => s
  | f + 1, s, k, n =>
    let w := s.chaffWin k
    let out := (15360 + w.top) % 16384
    let stays := decide ((w.at out).state = 0) && !(w.at out).waiting.isEmpty
    let w1 := ({ w with entries := if stays then w.entries else tdel w.entries out }).put w.top ⟨1, false, 0, false, none, []⟩
    chaffAdvance f ((s.setChaff k { w1 with top := (w.top + 1) % 16384 }).chaffLeave n (w.at out)) k n
/-- The completion of a delivered copy is recorded, and the copies waiting for it are answered with it. -/
def State.chaffDone (s : State) (p : Pkt) (st : Nat) (data : List Byte) : State :=
  if !p.pair then s
  else match s.chaffOf p with
    | none => s
    | some (k, _, _) =>
      let w := s.chaffWin k
      let e := w.at p.pseq
      let e' := if e.state = 0 then { ChaffEntry.resolved with unpaired := e.unpaired } else { e with performed := some (st, data), waiting := [] }
      answerAll (s.setChaff k (w.put p.pseq e')) st data e.waiting
/-- The answer of a target that performs a packet, recorded by the filter first. -/
def State.reply (s : State) (p : Pkt) (op st : Nat) (data : List Byte) : State :=
  (s.chaffDone p st data).answer p op st data
/-- A completion from a core: it leaves over the mesh. -/
def State.coreReply (s : State) (c : Nat) (p : Pkt) (op st : Nat) (data : List Byte) : State :=
  let (q, s1) := ((s.chaffDone p st data).freed p).stampCpl p op st data
  s1.coreSend c q
/-- Table 12-3 and R306: a packet with PAIR = 1; `f` performs it. -/
def State.chaffTake (s : State) (p : Pkt) (bad : Bool) (f : State → State) : State :=
  match s.chaffOf p with
  | none => if bad then s.freed p else f s
  | some (k, n, isB) =>
    let q := p.pseq
    let w0 := s.chaffWin k
    let ahead := (16384 + q - w0.top) % 16384
    let late (s : State) : State := s.onPairRec n fun x => { x with late := sat32 (x.late + 1) }
    if 8192 ≤ ahead ∧ 1024 ≤ (16383 + w0.top - q) % 16384 then (late s).freed p
    else
      let s1 := if ahead < 8192 then chaffAdvance (ahead + 1) s k n else s
      let w := s1.chaffWin k
      let e := w.at q
      if bad then
        let s2 := s1.onPairRec n fun x => { x with trailerDrop := sat32 (x.trailerDrop + 1) }
        if isCplOp p.op then s2
        else if isReadOp p.op then s2.answer p (cplOp p.op) 0x05 []
        else match e.state, e.performed with
          | 2, some (st, data) => s2.answer p (cplOp p.op) st data
          | 0, _ => s2.answer p (cplOp p.op) 0x05 []
          | _, _ => s2.setChaff k (w.put q { e with waiting := e.waiting ++ [p] })
      else match e.state with
        | 0 => (if e.unpaired then late s1 else s1.onPairRec n fun x => { x with dup := sat32 (x.dup + 1) }).freed p
        | 1 =>
          let e' : ChaffEntry := ⟨2, false, p.pairCheck.toNat, isB, none, e.waiting⟩
          f ((s1.setChaff k (w.put q e')).onPairRec n fun x => { x with delivered := sat32 (x.delivered + 1) })
        | _ =>
          if e.memberB = isB then (s1.onPairRec n fun x => { x with dup := sat32 (x.dup + 1) }).freed p
          else
            let c := p.pairCheck.toNat
            let waits := !isReadOp p.op && !isCplOp p.op && e.performed.isNone
            let s2 := s1.setChaff k (w.put q { ChaffEntry.resolved with waiting := if waits then e.waiting ++ [p] else [] })
            let s3 := if e.check = c then s2.onPairRec n fun x => { x with matched := sat32 (x.matched + 1) }
              else s2.mismatchEvent n q (if isB then e.check else c) (if isB then c else e.check) e.memberB
            if isReadOp p.op then f s3
            else if isCplOp p.op then s3
            else match e.performed with
              | some (st, data) => s3.answer p (cplOp p.op) st data
              | none => s3

/-! Order of a path (R248, R249). -/

/-- The issuer of a request of a core: a thread, or the posts of its phases. -/
def Req.has (r : Req) (ep rtag : Nat) : Bool := r.want.any fun a => a.is ep rtag
def State.issuerOf (s : State) (p : Pkt) : Option Waiter :=
  if epPlane p.src then none
  else ((s.core (p.src % 16384)).reqs.find? fun r => r.has p.dst p.rtag).map fun r => match r.who with
    | .store t => .store t
    | _ => .post
def beforeIn (p : Pkt) : List Pkt → List Pkt
  | [] => []
  | q :: l => if q = p then [] else q :: beforeIn p l
/-- The bytes that a request reads or writes at its target. -/
def accessLen (p : Pkt) : Nat :=
  if p.op = 0x01 then loadLen p else if p.op = 0x12 then pullLen p else if p.op = 0x11 then p.payload.length - 16
  else if p.op = 0x02 then p.payload.length else if 0x20 ≤ p.op ∧ p.op ≤ 0x29 then 8 else 0
/-- A packet that waits at its target: its HBM channel retrains (R386), or it is an in-package store behind an earlier store of its path to the same
station, which has arrived and is not performed yet. -/
def State.behind (s : State) (p : Pkt) : Bool :=
  s.hbmWaits (addrLocal p.addr) (accessLen p) || s.net.contains p && decide (epPkg p.src = s.selfNum) && isStoreOp p.op && (beforeIn p s.net).any fun q =>
    isStoreOp q.op && decide (q.src = p.src) && decide (q.skind = p.skind) && decide (q.barn = p.barn) && decide (epDie q.dst = epDie p.dst)
      && decide (s.issuerOf q = s.issuerOf p)
/-- A packet reaches its final receiver, a store not before those of its path: it leaves the in-package network; a stomped one is discarded (R213), one whose trailer fails or
that carries POISON is answered "data error" (R235), a copy from a pair meets the filter, and any other is performed by `f`. -/
def State.arrive (s : State) (p : Pkt) (f : State → State) : State :=
  let s0 := { s with net := removeFirst p s.net }.meterRx p
  let bad := !p.trailerOk || p.poison
  if s.behind p then s
  else if p.stomped then s0
  else if p.pair then s0.chaffTake p bad f
  else if bad then
    (s0.onFctr p.barn fun x => { x with ended := (x.ended + 1) % 2 ^ 64 }).answer p (cplOp p.op) 0x05 []
  else f s0

/-- R307: an entry that has held one copy, or a copy discarded for its trailer, for UNPAIR_TIME. -/
def execUnpairTimeout (gateway : ClusterId) (pair : Fin 16) (member : Fin 16) (pseq : BitVec 14) (s : State) : Out :=
  let k := chaffKey gateway.val pair.val member.val
  let w := s.chaffWin k
  let e := w.at pseq.toNat
  match e.state with
  | 2 =>
    let s1 := s.setChaff k (w.put pseq.toNat { ChaffEntry.resolved with unpaired := true })
    .next (answerAll (s1.unpairedEvent pair.val e.memberB) 0x05 [] e.waiting)
  | 1 =>
    if e.waiting.isEmpty then .next s
    else
      let s1 := s.setChaff k (w.put pseq.toNat ChaffEntry.resolved)
      .next (answerAll (s1.overrunEvent pair.val) 0x05 [] e.waiting)
  | _ => .next s

end Sys2Proof.Machine
end

