-- ==== Sys2Proof/Machine/PhaseFmt.lean ====
section
/-! DEFINITION. The formats of a phase (spec/05 Tables 5-2 to 5-8) and the walk over its steps (R121 to R128, R133). -/
namespace Sys2Proof.Machine

/-! Descriptor (Table 5-2). -/

def pdBase (d : Nat) : Nat := bitsAt d 0 10
def pdLast (d : Nat) : Nat := bitsAt d 10 10
def pdSched (d : Nat) : Nat := bitsAt d 20 10
def pdSchedCount (d : Nat) : Nat := bitsAt d 30 11
def pdRsv (d : Nat) : Nat := bitsAt d 41 10
def pdRsvCount (d : Nat) : Nat := bitsAt d 51 3
def pdGang (d : Nat) : Nat := bitsAt d 54 6
def pdAnchorSet (d : Nat) : Bool := bitAt d 60
def pdAnchor (d : Nat) : Int := signedOf 10 (bitsAt d 61 10)
def pdGenBase (d : Nat) : Nat := bitsAt d 488 6
def pdLoopStart (d i : Nat) : Nat := bitsAt d (400 + 22 * i) 10
def pdLoopCount (d i : Nat) : Nat := bitsAt d (410 + 22 * i) 12 + 1
/-- A completion post. -/
structure Post where
  en : Bool
  credit : Bool
  ctr : Nat
  amount : Nat
  remote : Bool
  core : Nat
  deriving DecidableEq, Repr
def pdPosts (d : Nat) : List Post :=
  (List.range 4).map fun i =>
    let f := bitsAt d (248 + 38 * i) 38
    ⟨bitAt f 0, bitAt f 1, bitsAt f 2 5, bitsAt f 7 16, bitAt f 23, 1024 * bitsAt f 24 4 + 32 * bitsAt f 28 5 + bitsAt f 33 5⟩

/-! Step word (Table 5-3). -/

structure StepWord where
  rep : Nat
  loopEnd : Bool
  lsel : Nat
  mac : Bool
  accSel : Nat
  fmtA : Nat
  fmtB : Nat
  ga : Nat
  gb : Nat
  gsa : Nat
  gsb : Nat
  drain : Bool
  init : Bool
  dsel : Nat
  gd : Nat
  cfmt : Nat
  rm : Nat
  sat : Bool
  vclaim : Bool
  accBase : Nat
  dbase : Nat
  reserved : Bool
  deriving DecidableEq, Repr
def stepWord (x : Nat) : StepWord :=
  { rep := bitsAt x 0 12, loopEnd := bitAt x 12, lsel := bitsAt x 13 2, mac := bitAt x 15, accSel := bitsAt x 16 2, fmtA := bitsAt x 18 4
    fmtB := bitsAt x 22 4, ga := bitsAt x 26 4, gb := bitsAt x 30 4, gsa := bitsAt x 34 4, gsb := bitsAt x 38 4, drain := bitAt x 42
    init := bitAt x 43, dsel := bitsAt x 44 2, gd := bitsAt x 46 4, cfmt := bitsAt x 50 4, rm := bitsAt x 54 2, sat := bitAt x 56
    vclaim := bitAt x 57, accBase := bitsAt x 64 10, dbase := bitsAt x 74 10, reserved := bitsAt x 58 6 ≠ 0 || bitsAt x 84 44 ≠ 0 }
def Core.stepAt (k : Core) (w : Nat) : StepWord := stepWord (tget 0 k.steps w)

/-- ACCSEL and DSEL (Table 5-3). -/
def accBank (sel parity : Nat) : Nat := if sel = 2 then parity else if sel = 3 then 1 - parity else sel
def isMx (f : Nat) : Bool := decide (2 ≤ f) && decide (f ≤ 6)
/-- Bits of an element of Table 5-4. -/
def opWidth (f : Nat) : Nat :=
  if f ≤ 3 ∨ f = 7 then 8 else if f ≤ 5 then 6 else if f = 6 ∨ f = 8 then 4 else if f = 9 ∨ f = 0xA then 16 else 32
/-- Bytes of an operand access of a MAC step (Tables 3-3 and 5-6): `n` elements; MXFP4 and INT4 take 32 bytes also where a wider partner makes the
step one element deep, and the elements are then the first 16 bytes: DESIGN CHOICE (log 16). -/
def opBytes (f n : Nat) : Nat := if f = 6 ∨ f = 8 then 32 else n * opWidth f / 8
/-- R124, Table 3-3: M, N and K of a pair of formats, and whether it accumulates in windowed entries; none when they do not pair. -/
def macShape (a b : Nat) : Option (Nat × Nat × Nat × Bool) :=
  if isMx a ∧ isMx b then some (32, 32, if a = 6 ∧ b = 6 then 2 else 1, false)
  else if a = b ∧ (a = 9 ∨ a = 0xA) then some (16, 32, 1, true)
  else if a = 0xB ∧ b = 0xB then some (8, 16, 1, true)
  else if a ≤ 1 ∧ b ≤ 1 then some (32, 32, 1, false)
  else if a = 8 ∧ b = 8 then some (32, 32, 2, false)
  else if (a = 7 ∨ a = 8) ∧ (b = 7 ∨ b = 8) then some (32, 32, 1, false)
  else none
/-- MAC steps per MX block (R127), 0 for other operands. -/
def StepWord.blk (w : StepWord) : Nat := if w.mac && isMx w.fmtA && isMx w.fmtB then (if w.fmtA = 6 ∧ w.fmtB = 6 then 16 else 32) else 0
/-- The anchor of a MAC word (R37, R487). BF16, FP16 and FP32 have no row in Table 2-3, so the anchor that such a lead word gives an empty
entry stored under CFMT 0x6 is Config.windowedAnchor: DESIGN CHOICE (log 36). -/
def macAnchor (d : Nat) (w : StepWord) : Int :=
  if pdAnchorSet d then pdAnchor d
  else if w.fmtA = 1 ∧ w.fmtB = 1 then -11
  else if w.fmtA ≤ 1 ∧ w.fmtB ≤ 1 then -18
  else if 9 ≤ w.fmtA ∧ w.fmtA ≤ 0xB then Config.windowedAnchor
  else 0
/-- The lead MAC word of a phase (R487). -/
def Core.leadMac (k : Core) (d : Nat) : Option StepWord :=
  ((List.range (pdLast d + 1 - pdBase d)).map fun i => k.stepAt (pdBase d + i)).find? (·.mac)
/-- Bytes per entry of a CFMT, and the rows of its access (Table 5-6). -/
def cfmtBytes (c : Nat) : Nat :=
  if c = 1 ∨ c = 2 then 2 else if c = 3 ∨ c = 4 then 1 else if c = 6 then 16 else if c = 7 then 8 else 4
def cfmtRows (c : Nat) : Nat := if 1 ≤ c ∧ c ≤ 4 then 1 else if c = 6 then 8 else if c = 7 then 4 else 2

/-! Generators (Table 5-5, R126). -/

def genAddr (g parity u : Nat) : Int :=
  let c1 := bitsAt g 38 10 + 1; let c2 := bitsAt g 68 10 + 1; let c3 := bitsAt g 98 10 + 1
  let base : Nat := if parity = 0 then bitsAt g 0 19 else bitsAt g 19 19
  base + (u % c1 : Nat) * signedOf 20 (bitsAt g 48 20) + (u / c1 % c2 : Nat) * signedOf 20 (bitsAt g 78 20)
    + (u / (c1 * c2) % c3 : Nat) * signedOf 20 (bitsAt g 108 20)
/-- The address of generator field `g` (1 to 8) at its use count. -/
def Core.genAt (k : Core) (d parity : Nat) (use : List Nat) (g : Nat) : Int :=
  genAddr (tget 0 k.gens (pdGenBase d + g - 1)) parity (use.getD (g - 1) 0)

/-! Mesh schedule entries (Table 5-7). -/

structure SchedEntry where
  outN : Nat
  outE : Nat
  outS : Nat
  outW : Nat
  outL : Nat
  shA : Nat
  shB : Nat
  shC : Bool
  shMode : Nat
  rdGen : Nat
  wrGen : Nat
  post : Bool
  postCredit : Bool
  postCtr : Nat
  rep : Nat
  reserved : Bool
  deriving DecidableEq, Repr
def schedEntry (x : Nat) : SchedEntry :=
  { outN := bitsAt x 0 3, outE := bitsAt x 3 3, outS := bitsAt x 6 3, outW := bitsAt x 9 3, outL := bitsAt x 12 3, shA := bitsAt x 15 3
    shB := bitsAt x 18 3, shC := bitAt x 21, shMode := bitsAt x 22 2, rdGen := bitsAt x 24 4, wrGen := bitsAt x 28 4, post := bitAt x 32
    postCredit := bitAt x 33, postCtr := bitsAt x 34 5, rep := bitsAt x 48 12, reserved := bitsAt x 39 9 ≠ 0 || bitsAt x 60 4 ≠ 0 }
def Core.schedAt (k : Core) (n : Nat) : SchedEntry := schedEntry (tget 0 k.scheds n)
/-- The sources of the outputs N, E, S, W and L. -/
def SchedEntry.outs (e : SchedEntry) : List Nat := [e.outN, e.outE, e.outS, e.outW, e.outL]
/-- Directions (0 N, 1 E, 2 S, 3 W) whose arriving beat the entry names. -/
def SchedEntry.dirs (e : SchedEntry) : List Nat :=
  (List.range 4).filter fun i => (e.outs ++ [e.shA, e.shB]).contains (i + 1)
/-- Whether the entry reads SRAM through RD_GEN. -/
def SchedEntry.reads (e : SchedEntry) : Bool := (e.outs.take 4).contains 5 || e.shC
def SchedEntry.hasSheaf (e : SchedEntry) : Bool := e.shA ≠ 0 || e.shB ≠ 0 || e.shC

/-! Reservation words (Table 5-8). -/

def rvLink (x : Nat) : Nat := bitsAt x 0 3
def rvPlog (x : Nat) : Nat := bitsAt x 3 3
def rvSlots (x : Nat) : List (Nat × Nat) :=
  (List.range (bitsAt x 6 4)).map fun i => (bitsAt x (10 + 9 * i) 6, bitsAt x (16 + 9 * i) 3)
/-- The source that owns step `n` in a word. -/
def rvOwner (x n : Nat) : Option Nat := ((rvSlots x).find? fun (p, _) => decide (p = n % 2 ^ rvPlog x)).map (·.2)
def Core.rsvWord (k : Core) (d link : Nat) : Option Nat :=
  ((List.range (pdRsvCount d)).map fun i => tget 0 k.scheds (pdRsv d + i)).find? fun x => decide (rvLink x = link)

/-! Routers (R140, R143, R146 to R149). -/

/-- The neighbour in direction 0 N, 1 E, 2 S, 3 W, if the die has one. -/
def neighbour (c dir : Nat) : Option Nat :=
  let x := coreX c; let y := coreY c
  match dir with
  | 0 => if y = 0 then none else some (c - 1)
  | 1 => if x = 31 then none else some (c + 32)
  | 2 => if y = 31 then none else some (c + 1)
  | _ => if x = 0 then none else some (c - 32)
def opposite (dir : Nat) : Nat := (dir + 2) % 4
/-- The mesh link number of Table 18-2. -/
def meshLink (c dir : Nat) : Nat :=
  let base (n : Nat) : Nat := 2048 * coreDie n + 2 * (n % 1024)
  match dir with
  | 0 => base (c - 1) + 1
  | 1 => base c
  | 2 => base c + 1
  | _ => base (c - 32)
/-- A link that exists at a router and is available. -/
def State.linkOpen (s : State) (c dir : Nat) : Bool := (neighbour c dir).isSome && !s.meshDown.contains (meshLink c dir)
/-- The crossing table word of R365 is the helm's; here: whether the link joins two clusters. -/
def isCrossing (c dir : Nat) : Bool :=
  match neighbour c dir with
  | some n => decide (coreCluster n ≠ coreCluster c)
  | none => false

/-- Cluster-local coordinates, and those of the quadrant's central router (R146). -/
def locX (c : Nat) : Nat := coreX c % 8
def locY (c : Nat) : Nat := coreY c % 8
def ctrX (c : Nat) : Nat := 3 + locX c / 4
def ctrY (c : Nat) : Nat := 3 + locY c / 4
def isCentral (c : Nat) : Bool := decide (locX c = ctrX c) && decide (locY c = ctrY c)
/-- The central router of a core's quadrant. -/
def centralOf (c : Nat) : Nat := c - 32 * locX c - locY c + 32 * ctrX c + ctrY c
/-- Directions toward and away from the centre, along a row and a column. -/
def rowIn (c : Nat) : Nat := if ctrX c = 3 then 1 else 3
def colIn (c : Nat) : Nat := if ctrY c = 3 then 2 else 0
/-- Table 6-2: the dynamic sources of an outbound link of a router, in its order. Links 0 to 3 are N, E, S, W; 4 is L; 5 the gateway port.
Sources 0 to 3 are N, E, S, W; 4 the gateway, 5 the core itself. -/
def dynSources (c link : Nat) : List Nat :=
  let x := locX c; let y := locY c
  let onRow := decide (y = ctrY c)
  let edgeX := decide (x = 0) || decide (x = 7)
  let edgeY := decide (y = 0) || decide (y = 7)
  let central := isCentral c
  let outward := (if onRow && !edgeX then [opposite (rowIn c)] else []) ++ (if onRow && !edgeY then [opposite (colIn c)] else [])
  if link = 4 then
    (if central then [4] else if onRow then [rowIn c] else [colIn c])
  else if link = 5 then (if central then outward ++ [5] else [])
  else if onRow ∧ link = opposite (rowIn c) ∧ !edgeX then [if central then 4 else rowIn c]
  else if link = opposite (colIn c) ∧ !edgeY then
    (if onRow then [if central then 4 else rowIn c] else [colIn c])
  else if onRow ∧ !central ∧ link = rowIn c then outward ++ [5]
  else if !onRow ∧ link = colIn c then (if edgeY then [] else [opposite (colIn c)]) ++ [5]
  else []
/-- The outbound link that a beat at router `c` takes: `dest` is a core for an inbound beat; an outbound beat names its own source core. -/
def dynRoute (c : Nat) (inbound : Bool) (dest : Nat) : Nat :=
  if inbound then
    if c = dest then 4
    else if locX c ≠ locX dest then (if locX c < locX dest then 1 else 3)
    else if locY c < locY dest then 2 else 0
  else if isCentral c then 5
  else if locY c = ctrY c then rowIn c
  else colIn c

/-! The walk (R123, R133). -/

structure Walk where
  word : Nat
  rep : Nat
  loops : List Nat
  sched : Nat
  schedRep : Nat
  deriving DecidableEq, Repr
def walkStart (d : Nat) : Walk := ⟨pdBase d, 0, (List.range 4).map (pdLoopCount d), pdSched d, 0⟩
/-- The place of the next step, none after the last. -/
def Core.walkNext (k : Core) (d : Nat) (w : Walk) : Option Walk :=
  let e := k.schedAt w.sched
  let w := if pdSchedCount d = 0 then w
    else if w.schedRep < e.rep then { w with schedRep := w.schedRep + 1 } else { w with sched := w.sched + 1, schedRep := 0 }
  let x := k.stepAt w.word
  if w.rep < x.rep then some { w with rep := w.rep + 1 }
  else if x.loopEnd && decide (1 < w.loops.getD x.lsel 1) then
    some { w with word := pdLoopStart d x.lsel, rep := 0, loops := listSet w.loops x.lsel (w.loops.getD x.lsel 1 - 1) }
  else
    let ls := if x.loopEnd then listSet w.loops x.lsel (pdLoopCount d x.lsel) else w.loops
    if w.word = pdLast d then none else some { w with word := w.word + 1, rep := 0, loops := ls }

/-- What one access of a step is for. -/
inductive Role where
  | a | b | sa | sb | d | rd | wr
  deriving DecidableEq, Repr
/-- One access of a step: its role, address, bytes per row, rows, alignment and direction. -/
structure Access where
  role : Role
  gen : Nat
  addr : Int
  bytes : Nat
  rows : Nat
  align : Nat
  write : Bool
  deriving DecidableEq, Repr
/-- The accesses of a step (Table 5-6); `first` says that the step opens an MX block. -/
def Core.accesses (k : Core) (d parity : Nat) (use : List Nat) (w : StepWord) (e : Option SchedEntry) (first : Bool) : List Access :=
  let at_ (g : Nat) : Int := k.genAt d parity use g
  let mk (r : Role) (g n rows al : Nat) (wr : Bool) : List Access := if g = 0 then [] else [⟨r, g, at_ g, n, rows, al, wr⟩]
  (match if w.mac then macShape w.fmtA w.fmtB else none with
   | some (m, n, kk, _) =>
     mk .a w.ga (opBytes w.fmtA (m * kk)) 1 8 false ++ mk .b w.gb (opBytes w.fmtB (n * kk)) 1 8 false
       ++ (if first then mk .sa w.gsa 32 1 32 false ++ mk .sb w.gsb 32 1 32 false else [])
   | none => [])
  ++ (if w.drain || w.init then
       mk .d w.gd (32 * cfmtBytes w.cfmt / cfmtRows w.cfmt) (cfmtRows w.cfmt) (if 3 ≤ w.cfmt ∧ w.cfmt ≤ 4 then 32 else 64) w.drain
     else [])
  ++ (match e with
      | some e => (if e.reads then mk .rd e.rdGen 64 1 64 false else []) ++ (if e.outL ≠ 0 then mk .wr e.wrGen 64 1 64 true else [])
      | none => [])
/-- The generators a step uses (R126): those through which its step word or its schedule entry makes an access. -/
def genUses (w : StepWord) (e : Option SchedEntry) (first : Bool) : List Nat :=
  (if w.mac then [w.ga, w.gb] ++ (if first then [w.gsa, w.gsb] else []) else [])
  ++ (if w.drain || w.init then [w.gd] else [])
  ++ (match e with
      | some e => (if e.reads then [e.rdGen] else []) ++ (if e.outL ≠ 0 then [e.wrGen] else [])
      | none => [])
def bumpUses (use : List Nat) (gs : List Nat) : List Nat :=
  (List.range 8).map fun i => use.getD i 0 + (if gs.contains (i + 1) then 1 else 0)

end Sys2Proof.Machine
end

