-- ==== Sys2Proof/Machine/Sheaf.lean ====
section
/-! DEFINITION. Reductions (spec/06 R158 to R164): descriptors, tree contexts, their words and notices, form and finish. -/
namespace Sys2Proof.Machine

/-! Table 6-4. -/

def shKind (d : Nat) : Nat := bitsAt d 0 4
def shNodeSel (d : Nat) : Nat := bitsAt d 4 2
def shVfmt (d : Nat) : Nat := bitsAt d 6 3
def shOfmt (d : Nat) : Nat := bitsAt d 9 3
def shFanin (d : Nat) : Nat := bitsAt d 16 8
def shChildIdx (d : Nat) : Nat := bitsAt d 24 8
def shTag (d : Nat) : Nat := bitsAt d 32 32
def shN (d : Nat) : Nat := bitsAt d 64 32
def shLocal (d : Nat) : Nat := bitsAt d 96 32
def shBlocks (d : Nat) : Nat := bitsAt d 128 12 + 1
def shParent (d : Nat) : Nat := bitsAt d 144 30
def shRoot (d : Nat) : Bool := bitAt d 174
def shPort (d : Nat) : Nat := bitsAt d 176 7
def shSrc (d : Nat) : Nat := bitsAt d 192 19
def shDest (d : Nat) : Nat := bitsAt d 224 48
def shTimeout (d : Nat) : Nat := bitsAt d 288 32
def shExp (d : Nat) : Nat := bitsAt d 320 8
def shMapSrc (d : Nat) : Nat := bitsAt d 352 19
def vfmtBytes (f : Nat) : Nat := if f = 0 then 4 else if f = 3 then 16 else 2
/-- The bytes of the descriptor's SRC region and of its MAPSRC region (R158). -/
def shSrcBytes (d : Nat) : Nat :=
  if shKind d = 3 then 256 * shBlocks d else shLocal d * 32 * shBlocks d * vfmtBytes (shVfmt d)
/-- The 64-byte rows of `n` bytes from `a`, and those of the SRC region. -/
def rowsOf (a n : Nat) : Nat := ceilDiv (a % 64 + n) 64
def shSrcRows (d : Nat) : Nat := rowsOf (shSrc d) (shSrcBytes d)
def shMapBytes (d : Nat) : Nat :=
  if shKind d = 2 then (if shExp d = 0 then ceilDiv (shBlocks d) 4 * 64 else shBlocks d * 256)
  else if shKind d = 3 then ceilDiv (shBlocks d) 4 * 64
  else 0
/-- R158: no reserved field set, every code valid, every value in its range; DEST lies in the package of the root that writes it. -/
def State.shDescOk (s : State) (d : Nat) : Bool :=
  let k := shKind d; let tree := decide (k < 2)
  decide (k ≤ 3) && decide (shNodeSel d ≤ 2) && (tree || shNodeSel d == 0) && decide (shVfmt d ≤ 3) && decide (shOfmt d ≤ 2)
    && bitsAt d 12 4 == 0 && bitsAt d 140 4 == 0 && bitsAt d 175 1 == 0 && bitsAt d 183 9 == 0 && bitsAt d 211 13 == 0
    && bitsAt d 272 16 == 0 && bitsAt d 328 24 == 0 && bitsAt d 371 141 == 0
    && decide (1 ≤ shN d) && decide (shN d ≤ 2 ^ 31)
    && (k != 0 || decide (shLocal d ≤ 1)) && (shNodeSel d == 0 || shLocal d == 0)
    && (shNodeSel d != 2 || portFitted s.variant (shPort d))
    && (!tree || shMapSrc d == 0) && (tree || decide (shExp d ≤ 254)) && (k != 3 || decide (1 ≤ shExp d))
    && decide (shSrc d + shSrcBytes d ≤ 0x60000) && decide (shMapSrc d + shMapBytes d ≤ 0x60000)
    && !(tree && shFanin d == 0 && shLocal d == 0)
    && ((tree && !shRoot d) || decide (addrSlot (shDest d) = s.selfSlot))

/-! Nodes. -/

def nodeCap (n : NodeId) : Nat := if n < 16384 then 16 else if n < 16640 then 64 else 32
def nodeEarly (n : NodeId) : Nat := if n < 16384 then 32 else 64
def shNode (c d : Nat) : NodeId :=
  if shNodeSel d = 0 then c else if shNodeSel d = 1 then 16384 + coreCluster c else 16640 + shPort d
/-- A context is told by the core that submitted it and its handle (R159). -/
def State.ctx (s : State) (n : NodeId) (r : CtxRef) : Option ShCtx :=
  s.sheaf.find? fun x => decide (x.node = n) && decide (x.owner = r.owner.val) && decide (x.handle = r.handle.val)
def ShCtx.is (x y : ShCtx) : Bool := decide (x.owner = y.owner) && decide (x.handle = y.handle)
def State.putCtx (s : State) (x : ShCtx) : State := { s with sheaf := s.sheaf.map fun y => if x.is y then x else y }
/-- The context of a node that takes words of a tag for a barn: the first submitted. -/
def State.wordCtx (s : State) (n : NodeId) (barn tag : Nat) : Option ShCtx :=
  s.sheaf.find? fun x => decide (x.node = n) && decide (shKind x.desc < 2) && decide (x.tag = tag) && decide (x.barn = barn)
def ShSent.has (y : ShSent) (src rtag : Nat) : Bool := y.want.any fun a => a.is src rtag
/-- What ended contexts still await: a word that waits for its resend is given up, and its units returned. -/
def shLeave (s : State) (n : NodeId) (barn : Nat) : List ShSent → State
  | [] => s
  | y :: l =>
    shLeave (if y.want.isEmpty then s.onFctr barn fun f => f.subUse y.pkt.tc y.units
      else { s with shLate := s.shLate ++ [⟨n, barn, { y with busy := [] }⟩] }) n barn l
/-- Contexts leave their nodes. -/
def State.dropCtxs (s : State) (hit : ShCtx → Bool) : State :=
  (s.sheaf.filter hit).foldl (fun s x => shLeave s x.node x.barn x.sent) { s with sheaf := s.sheaf.filter fun x => !hit x }
/-- The context ends with an outcome, which its handle returns (R107, R164). -/
def State.endCtx (s : State) (x : ShCtx) (aborted : Bool) : State :=
  (s.dropCtxs x.is).onCore x.owner fun k =>
    if tget Handle.free k.handles x.handle = .pending then { k with handles := tset Handle.free k.handles x.handle (.ended aborted) } else k

/-! Sending. A word names its sender's CHILDIDX in ADDR[39:32]; ADDR[40] marks a broadcast (log 15). -/

/-- The lowest request tag free among what a node's contexts have sent. -/
def State.shTagFree (s : State) (n : NodeId) : Nat :=
  let used := ((s.sheaf.filter fun x => decide (x.node = n)).flatMap fun x => x.sent.map (·.rtag))
    ++ (s.shLate.filter fun x => decide (x.node = n)).map (·.sent.rtag)
  ((List.range 4096).find? fun t => !used.contains t).getD 0
/-- What a node sends: a core's engine over its mesh, a gateway's or a port's from where it is. -/
def State.nodeSend (s : State) (n : NodeId) (ps : List Pkt) : State := if n < 16384 then coreSendAll s n ps else egressAll s ps
/-- One packet of a context: submitted under R230, remembered until its completion, or its send has failed at once. -/
def State.shSend (s : State) (x : ShCtx) (write : Bool) (op dst addr : Nat) (bytes : List Byte) : ShCtx × State :=
  let rt := s.shTagFree x.node
  let p := mkPkt op 3 dst (nodeEp s.selfNum x.node) x.barn rt addr bytes
  match s.submit p true with
  | .inl st => ({ x with failed := x.failed || write }, s.onFctr x.barn fun f => f.refuse st)
  | .inr (ps, s1) =>
    let x' := { x with sent := x.sent ++ [⟨rt, write, [], offUnits s ps, awaits ps, p⟩] }
    (x', (s1.putCtx x').nodeSend x.node ps)
/-- Bytes sent in packets of at most `m` bytes each. -/
def shSendAll : Nat → State → ShCtx → Nat → Nat → Nat → List Byte → ShCtx × State
  | 0, s, x, _, _, _, _ => (x, s)
  | f + 1, s, x, dst, addr, m, bs =>
    if bs.isEmpty then (x, s)
    else
      let (x', s') := s.shSend x false 0x18 dst addr (bs.take m)
      shSendAll f s' x' dst addr m (bs.drop m)
/-- The payload limit toward a node: the MTU where a copy may leave the package (R301). -/
def State.shLimit (s : State) (dst : Nat) : Nat :=
  if epPkg dst = s.selfNum ∧ (findPair s.pairTable s.selfSlot (epDie dst)).isNone then 4096 else s.mtu
/-- Units of `u` bytes to a node, whole units to a packet. -/
def State.shWords (s : State) (x : ShCtx) (dst : Nat) (bcast : Bool) (u : Nat) (bs : List Byte) : ShCtx × State :=
  let addr := x.tag + 2 ^ 32 * shChildIdx x.desc + (if bcast then 2 ^ 40 else 0)
  shSendAll (bs.length + 1) s x dst addr (s.shLimit dst / u * u) bs
/-- A control packet (log 15): byte 16 is 0 for an abort, 1 for "completed", 2 for "aborted"; bytes 0 to 15 hold a header with ABORT. -/
def abortHdr (tag : Nat) : RedHdr := ⟨0, 1, 16, true, false, false, 0, BitVec.ofNat 16 tag⟩
def State.shCtrl (s : State) (x : ShCtx) (dst what : Nat) : State :=
  let p := mkPkt 0x19 3 dst (nodeEp s.selfNum x.node) x.barn 0 x.tag (leBytes 16 (abortHdr x.tag).bits ++ leBytes 1 what)
  if !epAssigned s.variant dst then s
  else
    let (q, s1) := s.stampPair p
    s1.nodeSend x.node [q]
def ShCtx.childEps (x : ShCtx) : List Nat := x.children.map (·.src)
def ctrlAll (s : State) (x : ShCtx) (what : Nat) : List Nat → State
  | [] => s
  | e :: l => ctrlAll (s.shCtrl x e what) x what l
/-- R163: a context aborts: an ABORT header to the parent and to every recorded child, and its end. After the root's decision an abort has
no effect (R164). -/
def State.shAbort (s : State) (x : ShCtx) : State :=
  if x.stage = .writing then s
  else
    let s1 := if shRoot x.desc ∨ 2 ≤ shKind x.desc then s else s.shCtrl x (shParent x.desc) 0
    (ctrlAll s1 x 0 x.childEps).endCtx x true

/-! Values and words (R158, R160, R161). -/

def shFmt (f : Nat) : FFmt := if f = 1 then fmtBF16 else if f = 2 then fmtFP16 else fmtFP32
/-- The value of one stored element of VFMT. -/
def shValue (f : Nat) (bs : List Byte) : FVal :=
  if f = 3 then (LongAcc.ofRecord (leVal bs)).result else fdecode (shFmt f) (leVal bs)
/-- The 32 values of block `b` of contribution `k`. -/
def Core.shVals (k : Core) (d cno b : Nat) : List FVal :=
  let w := vfmtBytes (shVfmt d)
  (List.range 32).map fun i => shValue (shVfmt d) (memRead k.sram (shSrc d + ((cno * shBlocks d + b) * 32 + i) * w) w)
/-- Block `b` of the local contributions as FP32 values (R160). -/
def Core.shFp32 (k : Core) (d b : Nat) : List Nat := (k.shVals d 0 b).map fun v => (fround fmtFP32 .rne false 0 v).1
def zeroHdr (d : Nat) : RedHdr := ⟨0, 1, redG (shN d), false, false, false, 0, BitVec.ofNat 16 (shTag d)⟩
/-- The exponent-pass header of the local contributions of block `b`, combined (R53). -/
def Core.shExpHdr (k : Core) (d b : Nat) : RedHdr :=
  let hs := (List.range (shLocal d)).map fun n => redExpHdr (shN d) (BitVec.ofNat 16 (shTag d)) 1 (k.shVals d n b)
  match hs with
  | [] => zeroHdr d
  | h :: l => l.foldl RedHdr.combine h
/-- The sum-pass word of the local contributions of block `b` at exponent `e`; `bad` sets ABORT (step 4 of Table 2-11). -/
def Core.shSumWord (k : Core) (d b e : Nat) (bad : Bool) : RedWord :=
  let ws := (List.range (shLocal d)).map fun n => redSumWord (shN d) e (BitVec.ofNat 16 (shTag d)) 1 (k.shVals d n b)
  let w : RedWord := match ws with
    | [] => ⟨{ zeroHdr d with exp := e, pass := true }, List.replicate 32 0⟩
    | w :: l => l.foldl RedWord.combine w
  { w with hdr := { w.hdr with abort := w.hdr.abort || bad } }

def chunk (n : Nat) (bs : List Byte) (i : Nat) : List Byte := (bs.drop (n * i)).take n
def hdrAt (bs : List Byte) (b : Nat) : RedHdr := RedHdr.ofBits (leVal (chunk 16 bs b))
def wordAt (bs : List Byte) (b : Nat) : RedWord := RedWord.ofBytes (chunk 208 bs b)
/-- The children in increasing CHILDIDX. -/
def insChild (x : ShChild) : List ShChild → List ShChild
  | [] => [x]
  | y :: l => if x.idx ≤ y.idx then x :: y :: l else y :: insChild x l
def sortChildren (l : List ShChild) : List ShChild := l.foldl (fun a x => insChild x a) []
/-- R163: some unit of `u` bytes of a payload has ABORT = 1 in its header. -/
def anyAbort (u : Nat) (bs : List Byte) : Bool := (List.range (ceilDiv bs.length u)).any fun i => (RedHdr.ofBits (leVal (chunk u bs i))).abort
/-- Units of a pass: header bytes, FP32 block bytes or word bytes, times the blocks. -/
def ShCtx.expLen (x : ShCtx) : Nat := 16 * shBlocks x.desc
def ShCtx.unit (x : ShCtx) : Nat := if shKind x.desc = 0 then 128 else 208
def ShCtx.sumLen (x : ShCtx) : Nat := x.unit * shBlocks x.desc
/-- Every child's input of the stage has arrived (R159). -/
def ShCtx.inputsReady (x : ShCtx) : Bool :=
  decide (x.children.length = shFanin x.desc) && x.children.all fun y =>
    if x.stage = .exp then decide (y.exp.length = x.expLen) else decide (y.sum.length = x.sumLen)

/-- A word at its context: from the parent a broadcast, from a child its input; a duplicate or excess child, and a header with ABORT,
abort the context (R159, R163). -/
def State.shAccept (s : State) (x : ShCtx) (p : Pkt) : State :=
  let hs := p.payload
  if bitAt p.addr 40 then
    if x.stage ≠ .broadcast then s
    else
      let b := x.bcast ++ hs
      if anyAbort 16 hs then s.shAbort x
      else if b.length < x.expLen then s.putCtx { x with bcast := b }
      else
        let x1 := { x with bcast := b, stage := .sum }
        let (x2, s2) := x.childEps.foldl (fun (y, t) e => t.shWords y e true 16 b) (x1, s.putCtx x1)
        s2.putCtx x2
  else
    let idx := bitsAt p.addr 32 8
    if shFanin x.desc ≤ idx then s.shAbort x
    else
      let old := (x.children.find? fun y => decide (y.idx = idx)).getD ⟨idx, p.src, [], []⟩
      let expWord := shKind x.desc = 1 ∧ !(hdrAt hs 0).pass
      let new := if expWord then { old with exp := old.exp ++ hs } else { old with sum := old.sum ++ hs }
      let long := if expWord then decide (x.expLen < new.exp.length) else decide (x.sumLen < new.sum.length)
      if long ∨ old.src ≠ p.src ∨ (shKind x.desc = 1 ∧ anyAbort (if expWord then 16 else 208) hs) then s.shAbort x
      else s.putCtx { x with children := new :: x.children.filter fun y => decide (y.idx ≠ idx) }
/-- Words that waited for a context are given to it (R162). -/
def shEarly : List (Nat × Pkt) → State → NodeId → Nat → Nat → State
  | [], s, _, _, _ => s
  | (n, p) :: l, s, node, barn, tag =>
    if n = node ∧ p.addr % 2 ^ 32 = tag ∧ p.barn = barn then
      match s.wordCtx node barn tag with
      | some x => shEarly l ({ s with sheafEarly := removeFirst (n, p) s.sheafEarly }.shAccept x p) node barn tag
      | none => s
    else shEarly l s node barn tag

/-! Submission (R158, R159). -/

/-- The descriptor of an SHSUBMIT has been read: "bad operand", or a handle, or −1 when 16 are outstanding. A node with no free context
completes the reduction at once as aborted. -/
def State.shRead (s : State) (c t pc gd at_ d : Nat) : State :=
  if !s.shDescOk d then s.raise c t 0x0C 0 0 pc at_
  else
    let k := s.core c
    let setD (s : State) (v : BitVec 64) : State := s.setTh c t ((s.th c t).setG gd v)
    match (List.range 16).find? fun h => decide (tget Handle.free k.handles h = .free) with
    | none => setD s (BitVec.allOnes 64)
    | some h =>
      let n := shNode c d
      let full := decide (nodeCap n ≤ (s.sheaf.filter fun x => decide (x.node = n)).length)
      let s1 := s.setCore c { k with handles := tset Handle.free k.handles h (if full then .ended true else .pending) }
      let s2 := setD s1 (BitVec.ofNat 64 h)
      if full then s2
      else
        let x : ShCtx := ⟨n, shTag d, d, c, h, s.coreStamp c, if shKind d = 1 then .exp else .sum, [], [], [], false⟩
        let s3 := { s2 with sheaf := s2.sheaf ++ [x] }
        if shKind d < 2 then shEarly s3.sheafEarly s3 n (s.coreStamp c) (shTag d) else s3


/-! Row meanings. -/

/-- Into a core (R65, R149): the packet's beats wait in the gateway injection queue of the quadrant's central router. -/
def State.inject (s : State) (c : Nat) (p : Pkt) : State :=
  s.onCore (centralOf c) fun k => { k with gwWait := k.gwWait ++ beatsOf 64 c p }.fillGw

/-- A completion of `src` for what a sheaf engine sent (R162, R163): "sheaf busy" marks the word for its resend; "target reset", "target unavailable"
and "data error" abort the context; a failed write of DEST fails the reduction. -/
def State.shCpl (s : State) (n : NodeId) (src rtag status : Nat) : State :=
  match s.sheaf.find? fun x => decide (x.node = n) && x.sent.any fun y => y.has src rtag with
  | some x =>
    match x.sent.find? fun y => y.has src rtag with
    | none => s
    | some y =>
      let refused := decide (status = 0x0E) && !y.write
      let y1 := { y with want := dropAwait src rtag y.want, busy := if refused then src :: y.busy else y.busy }
      let ended := y1.want.isEmpty && y1.busy.isEmpty
      let x1 := { x with
        sent := if ended then x.sent.filter fun z => decide (z.rtag ≠ y.rtag) else x.sent.map fun z => if z.rtag = y.rtag then y1 else z
        failed := x.failed || (y.write && decide (status ≠ 0)) }
      let s1 := s.putCtx x1
      let s2 := if ended then s1.onFctr x.barn fun f => f.subUse y.pkt.tc y.units else s1
      if !y.write ∧ (status = 0x03 ∨ status = 0x04 ∨ status = 0x05) then s2.shAbort x1 else s2
  | none =>
    match s.shLate.find? fun z => decide (z.node = n) && z.sent.has src rtag with
    | none => s
    | some z =>
      let left := dropAwait src rtag z.sent.want
      if left.isEmpty then State.onFctr { s with shLate := removeFirst z s.shLate } z.barn fun f => f.subUse z.sent.pkt.tc z.sent.units
      else { s with shLate := s.shLate.map fun x => if x = z then { z with sent := { z.sent with want := left } } else x }

/-- The answer of a node to a word: a core's engine answers over its mesh. -/
def State.nodeReply (s : State) (n : NodeId) (p : Pkt) (st : Nat) : State :=
  if n < 16384 then s.coreReply n p 0x09 st [] else s.reply p 0x09 st []
/-- R159, R162: a word at its node: accepted, stored early, or refused with "sheaf busy". -/
def State.sheafTake (s : State) (n : NodeId) (p : Pkt) : State :=
  match s.wordCtx n p.barn (p.addr % 2 ^ 32) with
  | some x => (s.nodeReply n p 0).shAccept x p
  | none =>
    if nodeEarly n ≤ (s.sheafEarly.filter fun y => decide (y.1 = n)).length then s.nodeReply n p 0x0E
    else { s.nodeReply n p 0 with sheafEarly := s.sheafEarly ++ [(n, p)] }
/-- Whether a node is out of service (R25), and whether it is in reset. -/
def State.nodeOut (s : State) (n : NodeId) : Bool :=
  if n < 16384 then s.coreOut n || s.dieDown.contains (coreDie n)
  else if n < 16640 then s.clusterOut (n - 16384) || s.dieDown.contains ((n - 16384) / 16)
  else s.dieDown.contains ((n - 16640) % 16)
def State.nodeInReset (s : State) (n : NodeId) : Bool := decide (n < 16384) && decide ((s.core n).power ≠ .running)
/-- A word reaches its node; one that the in-package network brings to a core goes on over the mesh (R146; log 41). -/
def execSheafWord (p : Pkt) (s : State) : Out :=
  .next (s.arrive p fun t =>
    match nodeOfEp s.variant p.dst with
    | none => t.reply p 0x09 0x01 []
    | some n =>
      if s.nodeOut n then t.reply p 0x09 0x03 []
      else if s.nodeInReset n then t.reply p 0x09 0x04 []
      else if n < 16384 ∧ s.net.contains p then t.inject n p
      else t.sheafTake n p)

/-- The bytes of a result written to DEST as stores that meet R245. -/
def destPieces : Nat → Nat → List Byte → List (Nat × List Byte)
  | 0, _, _ => []
  | f + 1, a, bs =>
    if bs.isEmpty then []
    else
      let k :=
        if a % 64 = 0 ∧ 9 ≤ bs.length then min (min 256 bs.length) (4096 - a % 4096)
        else if a % 8 = 0 ∧ 8 ≤ bs.length then 8 else if a % 4 = 0 ∧ 4 ≤ bs.length then 4 else if a % 2 = 0 ∧ 2 ≤ bs.length then 2 else 1
      (a, bs.take k) :: destPieces f (a + k) (bs.drop k)
/-- R164: the root decides and begins to write DEST: from here an abort has no effect. -/
def State.shDecide (s : State) (x : ShCtx) (els : List Nat) : State :=
  let w := if shOfmt x.desc = 0 then 4 else 2
  let bytes := els.flatMap fun v => leBytes w v
  let x0 := { x with stage := .writing, failed := false }
  let (x1, s1) := (destPieces (bytes.length + 1) (shDest x.desc) bytes).foldl (fun (y, t) (a, bs) =>
    match t.addrRefusal a bs.length with
    | some _ => ({ y with failed := true }, t)
    | none => t.shSend y true 0x02 (addrEp (t.addrPkg a) (addrLocal a)) a bs) (x0, s.putCtx x0)
  s1.putCtx x1

/-- R159 to R161: a node with all its inputs folds them: the exponent pass and its broadcast, the sum pass, or the fast fold; the root
decides. -/
def execSheafNodeFold (node : Nat) (ctx : CtxRef) (es : List Ecc) (s : State) : Out :=
  match s.ctx node ctx with
  | none => .next s
  | some x =>
    let d := x.desc
    let nb := shBlocks d
    if 2 ≤ shKind d ∨ !x.inputsReady ∨ !(x.stage = .exp ∨ x.stage = .sum) then .next s
    else
      let (ok, s1) := if node < 16384 ∧ shLocal d ≠ 0 then sramChecks s x.owner (shSrc d / 64 * 64) (es.take (shSrcRows d)) else (true, s)
      if !ok then .next (s1.shAbort x)
      else
        let k := s1.core x.owner
        let ch := sortChildren x.children
        let up (u : Nat) (st : ShStage) (bs : List Byte) : Out :=
          let (x1, s2) := s1.shWords { x with stage := st } (shParent d) false u bs
          .next (s2.putCtx x1)
        if shKind d = 0 then
          let blk (b : Nat) : List Nat :=
            let cs := ch.map fun y => (List.range 32).map fun i => leVal (chunk 4 (chunk 128 y.sum b) i)
            let all := cs ++ (if shLocal d = 1 then [k.shFp32 d b] else [])
            match all with
            | [] => []
            | v :: l => l.foldl (fun a w => (a.zip w).map fun (p, q) => fadd32 p q) v
          let els := (List.range nb).flatMap blk
          if shRoot d then
            .next (s1.shDecide x (els.map fun v => (fround (shFmt (shOfmt d)) .rne false 0 (fdecode fmtFP32 v)).1))
          else up 128 .notice (els.flatMap fun v => leBytes 4 v)
        else if x.stage = .exp then
          let hdr (b : Nat) : RedHdr :=
            let own := if shLocal d = 0 then [] else [k.shExpHdr d b]
            match ch.map (fun y => hdrAt y.exp b) ++ own with
            | [] => zeroHdr d
            | h :: l => l.foldl RedHdr.combine h
          let hs := (List.range nb).map hdr
          let bytes := hs.flatMap fun h => leBytes 16 h.bits
          if shRoot d then
            if hs.all (redExpOk (shN d)) then
              let x1 := { x with bcast := bytes, stage := .sum }
              let (x2, s2) := x.childEps.foldl (fun (y, t) e => t.shWords y e true 16 bytes) (x1, s1.putCtx x1)
              .next (s2.putCtx x2)
            else .next (s1.shAbort x)
          else if hs.any (·.abort) then .next (s1.shAbort x)
          else up 16 .broadcast bytes
        else
          let word (b : Nat) : RedWord :=
            let own := if shLocal d = 0 then []
              else [k.shSumWord d b (hdrAt x.bcast b).exp (decide ((hdrAt x.bcast b).tag ≠ BitVec.ofNat 16 (shTag d)))]
            match ch.map (fun y => wordAt y.sum b) ++ own with
            | [] => ⟨zeroHdr d, []⟩
            | w :: l => l.foldl RedWord.combine w
          let ws := (List.range nb).map word
          if shRoot d then
            if (ws.zip (List.range nb)).all fun (w, b) => redSumOk (shN d) (hdrAt x.bcast b) w then
              .next (s1.shDecide x (ws.flatMap fun w => redFinish (shFmt (shOfmt d)) (shN d) w))
            else .next (s1.shAbort x)
          else if ws.any (·.hdr.abort) then .next (s1.shAbort x)
          else up 208 .notice (ws.flatMap RedWord.bytes)

/-- R164: every write of DEST has completed: the outcome, its notices, the context's end. -/
def execRootWritesComplete (node : Nat) (ctx : CtxRef) (s : State) : Out :=
  match s.ctx node ctx with
  | none => .next s
  | some x =>
    if x.stage = .writing ∧ !x.sent.any (·.write) then
      .next ((ctrlAll s x (if x.failed then 2 else 1) x.childEps).endCtx x x.failed)
    else .next s

/-- An abort or completion notice takes effect at its node (R163, R164). -/
def State.ctrlTake (s : State) (p : Pkt) : State :=
  match nodeOfEp s.variant p.dst with
  | none => s
  | some n =>
    match s.wordCtx n p.barn (p.addr % 2 ^ 32) with
    | none => s
    | some x =>
      let what := leVal ((p.payload.drop 16).take 1)
      if what = 0 then s.shAbort x
      else if x.stage = .notice then (ctrlAll s x what x.childEps).endCtx x (decide (what = 2))
      else if what = 2 then s.shAbort x
      else s
/-- R163, R164: the node's TIMEOUT expires: before its inputs or the broadcast it aborts, before the notice it ends as aborted. -/
def execSheafTimeout (node : Nat) (ctx : CtxRef) (s : State) : Out :=
  match s.ctx node ctx with
  | none => .next s
  | some x =>
    if shTimeout x.desc = 0 then .next s
    else if x.stage = .notice then .next (s.endCtx x true)
    else .next (s.shAbort x)

/-- R162: 1 µs after "sheaf busy" the sender resends the word to the endpoints that refused it. -/
def execSheafBusyResend (node : Nat) (ctx : CtxRef) (s : State) : Out :=
  match s.ctx node ctx with
  | none => .next s
  | some x =>
    match x.sent.find? fun y => !y.busy.isEmpty with
    | none => .next s
    | some y =>
      let (qs, s1) := stampAll s (y.busy.map fun e => { y.pkt with dst := e })
      let y1 := { y with busy := [], want := y.want ++ awaits qs }
      .next ((s1.putCtx { x with sent := x.sent.map fun z => if z.rtag = y.rtag then y1 else z }).nodeSend node qs)

def State.handleCtx (s : State) (c h kind : Nat) : Option ShCtx :=
  s.sheaf.find? fun x => decide (x.owner = c) && decide (x.handle = h) && decide (shKind x.desc = kind)
/-- A form-words descriptor (R158): the headers, four to 64 bytes, or the words at the given EXP, written at MAPSRC in mesh layout. -/
def execSheafFormComplete (core : CoreId) (handle : Fin 16) (es : List Ecc) (s : State) : Out :=
  match s.handleCtx core.val handle.val 2 with
  | none => .next s
  | some x =>
    let d := x.desc
    let (ok, s1) := sramChecks s core.val (shSrc d / 64 * 64) (es.take (shSrcRows d))
    if !ok then .next (s1.endCtx x true)
    else
      let k := s1.core core.val
      let mark (h : RedHdr) : RedHdr := { h with abort := h.abort || x.failed }
      let bytes :=
        if shExp d = 0 then padTo (shMapBytes d) ((List.range (shBlocks d)).flatMap fun b => leBytes 16 (mark (k.shExpHdr d b)).bits)
        else (List.range (shBlocks d)).flatMap fun b => (k.shSumWord d b (shExp d) x.failed).mesh
      .next ((s1.setCore core.val (k.sramWrite (shMapSrc d) bytes)).endCtx x false)
/-- A finish descriptor (R158): the root checks of Table 2-11 block by block, then DEST, or the abort. -/
def execSheafFinishComplete (core : CoreId) (handle : Fin 16) (es : List Ecc) (s : State) : Out :=
  match s.handleCtx core.val handle.val 3 with
  | none => .next s
  | some x =>
    if x.stage ≠ .sum then .next s
    else
      let d := x.desc
      let (ok0, s0) := sramChecks s core.val (shSrc d / 64 * 64) (es.take (shSrcRows d))
      let (ok, s1) := if ok0 then sramChecks s0 core.val (shMapSrc d / 64 * 64) ((es.drop (shSrcRows d)).take (rowsOf (shMapSrc d) (shMapBytes d)))
        else (false, s0)
      if !ok then .next (s1.endCtx x true)
      else
        let k := s1.core core.val
        let hdr (b : Nat) : RedHdr := RedHdr.ofBits (leVal (memRead k.sram (shMapSrc d + 16 * b) 16))
        let word (b : Nat) : RedWord := RedWord.ofMesh (memRead k.sram (shSrc d + 256 * b) 256)
        let fits (h : RedHdr) (pass : Bool) : Bool :=
          decide (h.tag = BitVec.ofNat 16 (shTag d)) && decide (h.pass = pass) && decide (h.g = redG (shN d)) && decide (h.exp = shExp d)
        let good (b : Nat) : Bool :=
          fits (hdr b) false && fits (word b).hdr true && redExpOk (shN d) (hdr b) && redSumOk (shN d) (hdr b) (word b)
        let bs := List.range (shBlocks d)
        if bs.all good then .next (s1.shDecide x (bs.flatMap fun b => redFinish (shFmt (shOfmt d)) (shN d) (word b)))
        else .next (s1.endCtx x true)

end Sys2Proof.Machine
end

