-- ==== Sys2Proof/Machine/Arrive.lean ====
section
/-! DEFINITION. Requests at their targets and completions at their requesters (spec/10 R240 to R260, spec/03 R65, R86, spec/04 R104,
spec/06 R149, R150, spec/15 R380). -/
namespace Sys2Proof.Machine

/-! The register window (R178, R243, R259, R260). -/

/-- A store to a register by barn `b` whose core's gateway is `g`: its status and the state. A write of a read-only register is ignored (R14). -/
def State.regStore (s : State) (b g o v : Nat) : Nat × State :=
  if o < 8 then s.steerStore b g v
  else if o < 0x100000 then (0, s)
  else
    let q := (o - 0x100000) / 32
    match o % 32 with
    | 0x00 => (0, s.writeQcfg b q v)
    | 0x08 => (0, s.writeQbase q v)
    | 0x10 => (0, s.writeQhead q v)
    | _ => (0, s)
/-- The gateway of a packet's source core, or the gateway that is its source. -/
def srcGateway (p : Pkt) : Nat :=
  if !epPlane p.src then coreCluster (p.src % 16384) else if epX p.src = 1 then 16 * epDie p.src + epY p.src % 16 else 0

/-! Requests at their targets. -/

/-- R255: the destination tally of a copy prefix gains the segment's bytes. -/
def State.destTally (s : State) (x n : Nat) : State :=
  if bitAt x 10 then s.addTally (16 * bitsAt x 11 4 + bitsAt x 15 4) (bitsAt x 0 10) n else s
/-- What the source of a pull finds about the way of its COPY_WRITE (R222, R230): with a refusal the puller learns its status. -/
def State.pullRefusal (s : State) (p : Pkt) : Option Nat :=
  let pkg := epPkg p.src / 64 * 64 + addrSlot (leVal ((p.payload.drop 16).take 6))
  if pkg = s.selfNum then none
  else if slotsOf s.variant ≤ pkg % 64 then some 0x01
  else if s.mtu < pullLen p + 16 then some 0x09
  else if (s.liveAlts pkg).isEmpty then some 0x0C
  else none
/-- The answer of a COPY_PULL whose data has been read: the COPY_WRITE to the destination named in its payload (R252). -/
def State.pullSend (s : State) (p : Pkt) (data : List Byte) : State :=
  let da := leVal ((p.payload.drop 16).take 6)
  let pkg := epPkg p.src / 64 * 64 + addrSlot da
  let q := mkPkt 0x11 2 (addrEp pkg (addrLocal da)) (memEp s.selfNum (localStation (addrLocal p.addr))) p.barn p.rtag da (p.payload.take 16 ++ data)
  let (q1, s1) := (s.freed p).stampPair q
  s1.egress q1

def State.performLoad (s : State) (p : Pkt) (e : List HbmErr) : State :=
  let n := loadLen p; let l := addrLocal p.addr
  if n = 0 ∨ 256 < n then s.reply p 0x08 0x06 []
  else
    let (st, s1) := s.targetCheck (epPkg p.src) p.barn .load l n
    if st ≠ 0 then s1.reply p 0x08 st []
    else match localRegion l with
      | .core c _ => s1.inject c p
      | .hbm _ _ =>
        let (ok, s2) := hbmErrors s1 e (linesOf l n)
        if ok then s2.reply p 0x08 0 (s2.localRead l n) else s2.reply p 0x08 0x05 []
      | .reg o =>
        match s1.regLoad p.barn o with
        | some v => s1.reply p 0x08 0 (leBytes 8 v)
        | none => s1.reply p 0x08 0x06 []
      | .none => s1
def State.performStore (s : State) (p : Pkt) (e : List HbmErr) : State :=
  let l := addrLocal p.addr
  let (st, s1) := s.targetCheck (epPkg p.src) p.barn .store l p.payload.length
  if st ≠ 0 then s1.reply p 0x09 st []
  else match localRegion l with
    | .core c _ => s1.inject c p
    | .hbm _ _ =>
      let (ok, s2) := hbmErrors s1 e (partialLines l p.payload.length)
      if ok then (s2.hbmStore l p.payload).reply p 0x09 0 [] else s2.reply p 0x09 0x05 []
    | .reg o =>
      let (st, s2) := s1.regStore p.barn (srcGateway p) o (leVal p.payload)
      s2.reply p 0x09 st []
    | .none => s1
def State.performCounter (s : State) (p : Pkt) : State :=
  let l := addrLocal p.addr
  let (st, s1) := s.targetCheck (epPkg p.src) p.barn .counter l 4
  if st ≠ 0 then s1.reply p 0x09 st []
  else match localRegion l with
    | .core c _ => s1.inject c p
    | _ => s1.reply p 0x09 0x06 []
def State.performAtomic (s : State) (p : Pkt) (e : List HbmErr) : State :=
  let l := addrLocal p.addr
  let (st, s1) := s.targetCheck (epPkg p.src) p.barn .atomic l 8
  if st ≠ 0 then s1.reply p 0x0A st []
  else match localRegion l with
    | .core c _ => s1.inject c p
    | .hbm _ _ =>
      let (ok, s2) := hbmErrors s1 e (linesOf l 8)
      if !ok then s2.reply p 0x0A 0x05 []
      else
        let old := memRead s2.hbm l 8
        match atomicNew (p.op - 0x20) (BitVec.ofNat 64 (leVal old)) (BitVec.ofNat 64 (leVal (p.payload.take 8)))
            (BitVec.ofNat 64 (leVal (p.payload.drop 8))) with
        | some v => (s2.hbmStore l (leBytes 8 v.toNat)).reply p 0x0A 0 old
        | none => s2.reply p 0x0A 0x06 []
    | _ => s1.reply p 0x0A 0x06 []
/-- R258, R260: a queue that is not enabled fails check 3 of Table 10-4. -/
def State.performMessage (s : State) (p : Pkt) : State :=
  let q := p.addr % 65536
  let owner := s.queueBarn q
  if s.dieDown.contains (q / 4096) then s.reply p 0x09 0x03 []
  else if !(s.queue q).en then s.reply p 0x09 0x06 []
  else if !(decide (owner = some p.barn) && s.peerAdmitted p.barn (epPkg p.src)) then
    (match owner with
     | some b => s.onMctr b fun m => { m with denied := (m.denied + 1) % 2 ^ 64 }
     | none => s).reply p 0x09 0x0F []
  else
    let (st, s1) := s.enqueue p q
    s1.reply p 0x09 st []
def State.performCopyWrite (s : State) (p : Pkt) (e : List HbmErr) : State :=
  let l := addrLocal p.addr
  let data := p.payload.drop 16
  let (st, s1) := s.rangeCheck (epPkg p.src) p.barn .store l data.length
  if st ≠ 0 then s1.reply p 0x09 st []
  else match localRegion l with
    | .core c _ => s1.inject c p
    | .hbm _ _ =>
      let (ok, s2) := hbmErrors s1 e (partialLines l data.length)
      if ok then ((s2.hbmStore l data).destTally (leVal (p.payload.take 16)) data.length).reply p 0x09 0 [] else s2.reply p 0x09 0x05 []
    | .reg o =>
      let (st, s2) := s1.regStore p.barn (srcGateway p) o (leVal data)
      (if st = 0 then s2.destTally (leVal (p.payload.take 16)) data.length else s2).reply p 0x09 st []
    | .none => s1.reply p 0x09 0x06 []
def State.performPull (s : State) (p : Pkt) (e : List HbmErr) : State :=
  let l := addrLocal p.addr
  let n := pullLen p
  let (st, s1) := s.rangeCheck (epPkg p.src) p.barn .load l n
  if st ≠ 0 then s1.reply p 0x08 st []
  else if !rangeAssigned (addrLocal (leVal ((p.payload.drop 16).take 6))) n then s1.reply p 0x08 0x06 []
  else match s1.pullRefusal p with
  | some st => s1.reply p 0x08 st []
  | none =>
    match localRegion l with
    | .core c _ => s1.inject c p
    | .hbm _ _ =>
      let (ok, s2) := hbmErrors s1 e (linesOf l n)
      if ok then (s2.served p.src (bitsAt (leVal (p.payload.take 16)) 64 8) p.barn l n false).pullSend p (s2.localRead l n) else s2.reply p 0x08 0x05 []
    | _ => s1.reply p 0x08 0x06 []

def execLoad (p : Pkt) (e : List HbmErr) (s : State) : Out := .next (s.arrive p fun s => s.performLoad p e)
def execStore (p : Pkt) (e : List HbmErr) (s : State) : Out := .next (s.arrive p fun s => s.performStore p e)
def execCounterStore (p : Pkt) (s : State) : Out := .next (s.arrive p fun s => s.performCounter p)
def execAtomic (p : Pkt) (e : List HbmErr) (s : State) : Out := .next (s.arrive p fun s => s.performAtomic p e)
def execMessage (p : Pkt) (s : State) : Out := .next (s.arrive p fun s => s.performMessage p)
def execCopyWrite (p : Pkt) (e : List HbmErr) (s : State) : Out := .next (s.arrive p fun s => s.performCopyWrite p e)
def execCopyPull (p : Pkt) (e : List HbmErr) (s : State) : Out := .next (s.arrive p fun s => s.performPull p e)

/-! Queue registers written by a thread of the barn (R259, R260). -/

def execQcfgWrite (queue : QueueId) (barn : BarnId) (v : BitVec 64) (s : State) : Out :=
  if s.queueBarn queue.val = some barn.val then .next (s.writeQcfg barn.val queue.val v.toNat) else .next s
def execQheadWrite (queue : QueueId) (barn : BarnId) (v : BitVec 64) (s : State) : Out :=
  if s.queueBarn queue.val = some barn.val then .next (s.writeQhead queue.val v.toNat) else .next s

/-! Steering stores of a thread (R178, R179). -/

def steerRow (core : CoreId) (set : Fin 256) (stage : Bool) (tally : BitVec 16) (en : Bool) (s : State) : Out :=
  match s.coreBarn core.val with
  | none => .next s
  | some b =>
    let v := packFields [(8, set.val), (1, boolNat stage), (7, 0), (16, tally.toNat), (1, boolNat en)]
    .next (s.steerStore b (coreCluster core.val) v).2
def execSteerStage (core : CoreId) (set : Fin 256) (tally : BitVec 16) (en : Bool) (s : State) : Out := steerRow core set true tally en s
def execSteerCommit (core : CoreId) (set : Fin 256) (tally : BitVec 16) (en : Bool) (s : State) : Out := steerRow core set false tally en s

/-! Completions at their requesters (R104, R107, R255, R302, R353, R380). -/

/-- A completion of `src` for a request of a core. -/
def State.reqDone (s : State) (c src tag st : Nat) (data : List Byte) : State :=
  let k := s.core c
  match k.reqs.find? fun r => r.has src tag with
  | none => s.orphanReply (coreCluster c) c src tag
  | some r =>
    let st' := if r.st = 0 then st else r.st
    let data' := if data.isEmpty then r.data else data
    let left := dropAwait src tag r.want
    if !left.isEmpty then
      s.setCore c { k with reqs := k.reqs.map fun x => if x.tag = r.tag then { x with want := left, st := st', data := data' } else x }
    else
      let s1 := (s.setCore c { k with reqs := k.reqs.filter fun x => decide (x.tag ≠ r.tag) }).onFctr (s.coreStamp c) fun f =>
        f.subUse (if r.tc3 then 3 else 1) r.units
      if r.dead then s1
      else
        let setG (t gd : Nat) (v : BitVec 64) : State := s1.setTh c t ((s1.th c t).setG gd v)
        match r.who with
        | .load t gd n sgn =>
          if st' = 0 then setG t gd (if sgn then BitVec.ofInt 64 (signedOf (8 * n) (leVal data')) else BitVec.ofNat 64 (leVal data'))
          else s1.raise c t 0x08 st' 0 r.pc r.addr
        | .vload t pool _ =>
          if st' = 0 then s1.onCore c fun k => { k with vregs := tset 0 k.vregs pool (leVal data') }
          else s1.raise c t 0x08 st' 0 r.pc r.addr
        | .atomic t gd =>
          if st' = 0 then setG t gd (BitVec.ofNat 64 (leVal data')) else s1.raise c t 0x08 st' 0 r.pc r.addr
        | .store t => if st' = 0 then s1 else s1.storeFailed c t r.addr st'
        | .post => s1
        | .sheaf _ _ => s1

/-- R353: a failed aperture access. -/
def State.aptError (s : State) (f addr st : Nat) : State :=
  s.setFn f { s.fn f with aptLast := st, aptErr := true, aptErrAddr := addr }
/-- A host read whose pieces have all come is answered. -/
def State.aptReadDone (s : State) (id : Nat) : State :=
  match s.aptReads.find? fun r => decide (r.id = id) with
  | none => s
  | some r =>
    if r.left = 0 then
      let bs := if r.bad then List.replicate r.len 0xFF#8 else memRead r.data 0 r.len
      { s with aptReads := s.aptReads.filter fun x => decide (x.id ≠ id), out := s.out ++ [.hostRead r.fn r.addr bs] }
    else s
def State.aptPiece (s : State) (id off : Nat) (bs : Option (List Byte)) : State :=
  let put (r : AptRead) : AptRead :=
    if r.id ≠ id then r
    else match bs with
      | some l => { r with left := r.left - 1, data := memWrite r.data off l }
      | none => { r with left := r.left - 1, bad := true }
  { s with aptReads := s.aptReads.map put }.aptReadDone id
/-- R249, with the function as the issuer: an in-package store waits while an earlier one of the function waits, or one to another station has not
been performed. -/
def State.aptHeld (s : State) (f st : Nat) (earlier : List (Nat × Pkt)) : Bool :=
  earlier.any (fun x => decide (x.1 = f)) ||
    s.aptReqs.any fun r => decide (r.fn = f) && r.read.isNone && decide (r.station < 16) && decide (r.station ≠ st)
      && !(s.aptWait.any fun x => decide (x.2.rtag = r.tag))
/-- The waiting stores that need wait no longer go out, in order. -/
def aptPump (kept : List (Nat × Pkt)) (s : State) : List (Nat × Pkt) → State
  | [] => s
  | x :: l =>
    if s.aptHeld x.1 (localStation (addrLocal x.2.addr)) kept then aptPump (kept ++ [x]) s l
    else aptPump kept (State.egress { s with aptWait := removeFirst x s.aptWait } x.2) l
/-- R352, R353: a completion for a piece of an aperture access: a failed read returns 0xFF in every byte. -/
def State.bridgeDone (s : State) (src tag st : Nat) (data : List Byte) : State :=
  match s.aptReqs.find? fun r => r.want.any fun a => a.is src tag with
  | none => s
  | some r =>
    let st' := if r.st = 0 then st else r.st
    let left := dropAwait src tag r.want
    if !left.isEmpty then { s with aptReqs := s.aptReqs.map fun x => if x.tag = r.tag then { x with want := left, st := st' } else x }
    else
      let s0 := State.onFctr { s with aptReqs := s.aptReqs.filter fun x => decide (x.tag ≠ r.tag) } r.fn fun f => f.subUse 1 r.units
      let s1 := aptPump [] s0 s0.aptWait
      let s2 := if st' = 0 then s1 else s1.aptError r.fn r.addr st'
      match r.read with
      | none => s2
      | some id =>
        match s2.aptReads.find? fun x => decide (x.id = id) with
        | none => s2
        | some x => s2.aptPiece id ((2 ^ 48 + r.addr - x.addr) % 2 ^ 48) (if st' = 0 then some data else none)

/-- A completion at the endpoint that it names. -/
def State.deliverCpl (s : State) (p : Pkt) (st : Nat) (data : List Byte) : State :=
  let e := p.dst
  if p.skind = 3 then
    match nodeOfEp s.variant e with
    | some n => s.shCpl n p.src p.rtag st
    | none => s
  else if !epPlane e then s.reqDone (e % 16384) p.src p.rtag st data
  else if epX e = 1 then s.segDone (16 * epDie e + epY e % 16) p.barn p.src p.rtag st
  else if e = bridgeEp s.selfNum then s.bridgeDone p.src p.rtag st data
  else s
/-- A core awaits this completion, so that its gateway sends it on; any other is an orphan's (R380). -/
def State.cplWanted (s : State) (p : Pkt) : Bool :=
  let c := p.dst % 16384
  if p.skind = 3 then
    (s.sheaf.any fun x => decide (x.node = c) && x.sent.any fun y => y.has p.src p.rtag)
      || s.shLate.any fun z => decide (z.node = c) && z.sent.has p.src p.rtag
  else (s.core c).reqs.any fun r => r.has p.src p.rtag
/-! Requests performed by a core from its inbound buffer (R65, R66, R86). -/

/-- The rows of core SRAM that an access of `n` bytes at `o` reads (R66); `es` is what their check bits find. -/
def State.windowCheck (s : State) (c o n : Nat) (es : List Ecc) : Bool × State :=
  if o < 0x60000 then sramChecks s c (o / 64 * 64) (es.take (rowsOf o n)) else (true, s)
def State.corePerform (s : State) (c : Nat) (p : Pkt) (es : List Ecc) : State :=
  let o := p.addr % 2 ^ 20
  if p.op = 0x01 then
    let (ok, s1) := s.windowCheck c o (loadLen p) es
    if ok then s1.coreReply c p 0x08 0 (s1.windowRead c o (loadLen p)) else s1.coreReply c p 0x08 0x05 []
  else if p.op = 0x02 ∨ p.op = 0x03 then (s.windowWrite c o p.payload).coreReply c p 0x09 0 []
  else if p.op = 0x11 then
    let data := p.payload.drop 16
    ((s.windowWrite c o data).destTally (leVal (p.payload.take 16)) data.length).coreReply c p 0x09 0 []
  else if p.op = 0x12 then
    let (ok, s1) := s.windowCheck c o (pullLen p) es
    if ok then s1.pullSend p (s1.windowRead c o (pullLen p)) else s1.coreReply c p 0x08 0x05 []
  else if 0x20 ≤ p.op ∧ p.op ≤ 0x29 then
    let (ok, s1) := s.windowCheck c o 8 es
    if !ok then s1.coreReply c p 0x0A 0x05 []
    else
      let old := s1.windowRead c o 8
      match atomicNew (p.op - 0x20) (BitVec.ofNat 64 (leVal old)) (BitVec.ofNat 64 (leVal (p.payload.take 8)))
          (BitVec.ofNat 64 (leVal (p.payload.drop 8))) with
      | some v => (s1.windowWrite c o (leBytes 8 v.toNat)).coreReply c p 0x0A 0 old
      | none => s1
  else if p.op = 0x18 then s.sheafTake c p
  else if p.op = 0x19 then s.ctrlTake p
  else if isCplOp p.op then s.deliverCpl p (p.addr % 256) p.payload
  else s
/-- A packet of which a beat was poisoned on the mesh (R142): a request is answered "data error", a completion is one. -/
def State.corePoisoned (s : State) (c : Nat) (p : Pkt) : State :=
  if isCplOp p.op then s.deliverCpl p 0x05 [] else if p.tc = 0 then s else s.coreReply c p (cplOp p.op) 0x05 []
/-- The head of the inbound buffer: a beat of a packet still arriving is taken; with the last beat its request is performed, or discarded
when a beat was poisoned (R142). -/
def execInboundDelivery (core : CoreId) (es : List Ecc) (s : State) : Out :=
  let c := core.val
  let k := s.core c
  match k.inbound with
  | [] => .next s
  | b :: rest =>
    let bad := k.inBad || b.poison
    let s1 := s.setCore c { k with inbound := rest, inBad := bad && !b.last }
    if !b.last then .next s1
    else match b.pkt with
      | none => .next s1
      | some p => .next (if bad then s1.corePoisoned c p else s1.corePerform c p es)

/-! Dynamic traffic of the mesh (R142, R149 to R153). -/

def Core.buf (k : Core) (src : Nat) : List Beat :=
  match src with
  | 0 => k.bufN | 1 => k.bufE | 2 => k.bufS | 3 => k.bufW | 4 => k.gwQ | _ => k.outQ
def Core.setBuf (k : Core) (src : Nat) (l : List Beat) : Core :=
  match src with
  | 0 => { k with bufN := l } | 1 => { k with bufE := l } | 2 => { k with bufS := l } | 3 => { k with bufW := l }
  | 4 => { k with gwQ := l }.fillGw | _ => { k with outQ := l }.fillOut
/-- The idle reservation's owner of step `n` on an outbound link (R152). -/
def idleOwner (c link n : Nat) : Option Nat :=
  let l := dynSources c link
  if l.isEmpty then none else l[n % l.length]?
/-- The steps of the present tick in which source `src` owns an outbound link and nothing dynamic has taken it yet (R141, R149, R152, R153): the
first of them. A running phase with a schedule has one step before its next PHASE_STEP; a gateway port takes a beat of each input in every cycle. -/
def State.linkSlot (s : State) (c link src : Nat) : Option Nat :=
  let k := s.core c
  let free := s.freeCycles (coreDie c)
  let idle : Option Nat := (List.range free).find? fun j =>
    decide (idleOwner c link (tget 0 s.dieStep (coreDie c) + j) = some src) && !k.sentNow.any fun x => decide (x % 16 = link ∧ 16 * j ≤ x)
  if link = 5 then
    (if (dynSources c 5).contains src then (List.range free).find? fun j => !k.sentNow.contains (16 * j + 8 + src) else none)
  else match k.run with
  | some r =>
    let d := tget 0 k.phaseTab r.launch.entry
    if pdSchedCount d = 0 then idle
    else match k.rsvWord d link with
      | some x => if free ≠ 0 ∧ rvOwner x r.stepNo = some src ∧ !k.sentNow.contains link then some 0 else none
      | none => none
  | none => idle

/-- Whether two requests of a core belong to one path inside the package (R248). -/
def Req.samePath (a b : Req) : Bool :=
  a.isStore && b.isStore && a.inPkg && b.inPkg && match a.who, b.who with
    | .store t, .store u => decide (t = u)
    | .post, .post => true
    | _, _ => false
def earlierOf (tag : Nat) : List Req → List Req
  | [] => []
  | r :: l => if r.tag = tag then [] else r :: earlierOf tag l
/-- R249: an earlier store of the path has not been issued, or goes to another station and has not been performed. `ep` and `tag` are those of a
packet of the request. -/
def Core.orderHeld (k : Core) (ep tag : Nat) : Bool :=
  match k.reqs.find? fun r => r.has ep tag with
  | none => false
  | some r => (earlierOf r.tag k.reqs).any fun x => x.samePath r && (!x.sent || decide (x.station ≠ r.station))
def Core.markSent (k : Core) (ep tag : Nat) : Core :=
  { k with reqs := k.reqs.map fun r => if r.has ep tag then { r with sent := true } else r }
/-- A packet of a core has reached its gateway. -/
def State.gatewayTake (s : State) (c : Nat) (p : Pkt) : State :=
  let g := coreCluster c
  if isStoreOp p.op ∧ p.skind ≠ 3 ∧ p.src = coordOf s.selfNum c ∧ epPkg p.dst = s.selfNum then
    if (s.core c).orderHeld p.dst p.rtag then s.setGw g { s.gw g with ordered := (s.gw g).ordered ++ [⟨c, p.rtag, p⟩] }
    else (s.onCore c fun k => k.markSent p.dst p.rtag).egress p
  else s.egress p
/-- R142, R150: a beat at the gateway port; with the last beat the packet is whole, or its requester learns "data error". -/
def State.gatewayBeat (s : State) (g : Nat) (b : Beat) : State :=
  let w := s.gw g
  let bad := w.bad.contains b.dest || b.poison
  if !b.last then (if bad ∧ !w.bad.contains b.dest then s.setGw g { w with bad := b.dest :: w.bad } else s)
  else
    let s1 := s.setGw g { w with bad := w.bad.filter fun x => decide (x ≠ b.dest) }
    match b.pkt with
    | none => s1
    | some p =>
      if !bad then s1.gatewayTake b.dest p
      else if p.tc = 0 then s1
      else if isCplOp p.op then s1.egress { p with addr := 0x05, payload := [] }.seal
      else { s1 with net := s1.net ++ [cplPkt (cplOp p.op) 0x05 p []] }

/-- One beat moves on one outbound link of a router, from the buffer of the slot's owner, when its route takes the link and the next buffer
has room; the gateway port takes a beat from any input (R149, R153). -/
def execDynamicBeatForward (core : CoreId) (link : Fin 6) (src : Fin 6) (e : Ecc) (s : State) : Out :=
  let c := core.val
  let k := s.core c
  match s.linkSlot c link.val src.val, k.buf src.val with
  | some j, b :: rest =>
    if dynRoute c (decide (b.ident = 64)) b.dest ≠ link.val then .next s
    else
      let key := 16 * j + (if link.val = 5 then 8 + src.val else link.val)
      let pop (s : State) : State := s.onCore c fun k => { k.setBuf src.val rest with sentNow := key :: k.sentNow }
      if link.val = 5 then .next ((pop s).gatewayBeat (coreCluster c) b)
      else if link.val = 4 then
        if 8 ≤ k.inbound.length then .next s
        else .next ((pop s).onCore c fun k => { k with inbound := k.inbound ++ [b] })
      else match neighbour c link.val with
        | none => .next s
        | some n =>
          let inp := opposite link.val
          if 4 ≤ ((s.core n).buf inp).length then .next s
          else
            let s1 := match e with
              | .ok => s
              | .corrected _ => s.report 0x06 (meshLink c link.val) 0
              | .uncorrectable => s.report 0x07 (meshLink c link.val) 0
            let b1 := if e = .uncorrectable then { b with poison := true } else b
            .next ((pop s1).onCore n fun k => k.setBuf inp (k.buf inp ++ [b1]))
  | _, _ => .next s

/-- R249: a store that waited at its gateway is issued. -/
def execOrderedStoreIssue (gateway : ClusterId) (core : CoreId) (tag : BitVec 12) (s : State) : Out :=
  let g := gateway.val; let c := core.val
  let w := s.gw g
  match w.ordered.find? fun o => decide (o.core = c) && decide (o.tag = tag.toNat) with
  | none => .next s
  | some o =>
    if (s.core c).orderHeld o.pkt.dst o.tag then .next s
    else .next (((s.setGw g { w with ordered := removeFirst o w.ordered }).onCore c fun k => k.markSent o.pkt.dst o.tag).egress o.pkt)

/-! Completions as packets (R142, R154, R235). -/

/-- A completion has come: one that the in-package network brings to a core goes on over the mesh (R146; log 41). -/
def State.cplTake (s : State) (fromNet : Bool) (p : Pkt) : State :=
  if fromNet ∧ !epPlane p.dst ∧ s.cplWanted p then s.inject (p.dst % 16384) p
  else s.deliverCpl p (p.addr % 256) p.payload
/-- R235: a completion whose trailer fails, or with POISON, is ended: "response lost" at the requester. -/
def State.takeCpl (s : State) (p : Pkt) : State :=
  let s0 := { s with net := removeFirst p s.net }.meterRx p
  if p.stomped then s0
  else
    let bad := !p.trailerOk || p.poison
    let fromNet := s.net.contains p
    if p.pair then s0.chaffTake p bad fun s => s.cplTake fromNet p
    else if bad then
      (s0.onFctr p.barn fun x => { x with ended := (x.ended + 1) % 2 ^ 64 }).cplTake fromNet { p with addr := 0x0B, payload := [] }.seal
    else s0.cplTake fromNet p
def execLoadCpl (p : Pkt) (s : State) : Out := .next (s.takeCpl p)
def execStoreCpl (p : Pkt) (s : State) : Out := .next (s.takeCpl p)
def execAtomicCpl (p : Pkt) (s : State) : Out := .next (s.takeCpl p)

end Sys2Proof.Machine
end

