-- ==== Sys2Proof/Machine/BerthArea.lean ====
section
/-! DEFINITION. The areas and doorbells of a berth as their senders reach them (spec/13 R324 to R328). -/
namespace Sys2Proof.Machine

/-- Table 13-4. -/
def idThread (barn coord t : Nat) : Nat := packFields [(4, 0), (8, barn), (29, coord), (6, t)]
def idPf : Nat := packFields [(4, 1), (8, 0)]
def idVf (f : Nat) : Nat := packFields [(4, 2), (8, f), (8, f)]
def idPeer (pkg : Nat) : Nat := packFields [(4, 3), (8, 0), (15, pkg)]
def idI3c : Nat := 4
def idJtag : Nat := 5
def idHelm : Nat := 6
def idKind (who : Nat) : Nat := bitsAt who 0 4
def idBarn (who : Nat) : Nat := bitsAt who 4 8
def idPkg (who : Nat) : Nat := bitsAt who 12 15
/-- The identity of a PCIe function. -/
def idFn (f : Nat) : Nat := if f = 0 then idPf else idVf f

/-- R324, Table 13-3: the identities a berth admits. -/
def State.admits (s : State) (b who : Nat) : Bool :=
  if b < 256 then
    s.barnExists b && (
      if idKind who = 0 then decide (idBarn who = b)
      else if idKind who = 1 then decide (b = 0)
      else if idKind who = 2 then decide (idBarn who = b) && s.fnExists b
      else false)
  else if b = 256 then decide (idKind who = 1)
  else if b = 257 then decide (idKind who = 1) || (decide (idKind who = 3) && s.fmPeers.contains (idPkg who))
  else if b = 258 then decide (idKind who = 4)
  else if b = 271 then decide (idKind who = 5) && s.factoryMode
  else false
def Berth.deny (h : Berth) : Berth := { h with denied := h.denied + 1 }
def Berth.slot (h : Berth) (k : Nat) : Slot := tget Slot.init h.slots k
def Berth.setSlot (h : Berth) (k : Nat) (x : Slot) : Berth := { h with slots := tset Slot.init h.slots k x }

/-- A write of bytes within one 512-byte part of the request area by an admitted sender (R326, R328): a write to a free slot claims it; a
write to a slot another identity holds is discarded and counted; one to a slot being served is discarded. -/
def Berth.writePart (h : Berth) (who off : Nat) (bs : List Byte) : Berth :=
  if off < 0xE00 then
    let k := off / 0x200
    let x := h.slot k
    match x.st with
    | .free => { h.setSlot k { Slot.init with st := .claimed, who := who } with reqArea := memWrite h.reqArea off bs }
    | .claimed => if x.who = who then { h with reqArea := memWrite h.reqArea off bs } else h.deny
    | _ => h
  else if 0xF00 ≤ off ∧ off + bs.length ≤ 0xF10 then { h with reqArea := memWrite h.reqArea off bs }
  else h
/-- Bytes cut at the boundaries of the areas' parts: slots of 512 bytes, then words of 16 bytes. -/
def berthParts : Nat → Nat → List Byte → List (Nat × List Byte)
  | 0, _, _ => []
  | f + 1, off, bs =>
    if bs.isEmpty then []
    else
      let k := if off < 0xE00 then 0x200 - off % 0x200 else 16 - off % 16
      (off, bs.take k) :: berthParts f (off + k) (bs.drop k)
/-- A write to the request area (R324, R325): stamped with the sender's identity. -/
def State.berthWrite (s : State) (b who off : Nat) (bs : List Byte) : State :=
  if !s.admits b who then s.setBerth b (s.berth b).deny
  else s.setBerth b ((berthParts 300 off bs).foldl (fun h (o, x) => h.writePart who o x) (s.berth b))
/-- A read of the reply area (R328): reply slot k reads as zero to every identity but its claimer. -/
def Berth.readByte (h : Berth) (who a : Nat) : Byte :=
  if a < 0x700 then
    let x := h.slot (a / 0x100)
    if x.st ≠ .free ∧ x.who = who then memGet h.repArea a else 0
  else memGet h.repArea a
def State.berthRead (s : State) (b who off n : Nat) : List Byte × State :=
  if !s.admits b who then (List.replicate n 0, s.setBerth b (s.berth b).deny)
  else ((List.range n).map fun i => (s.berth b).readByte who (off + i), s)
/-- A BERTH_OUT write (R327, R328): the selected RING bits take their values; a ring is kept in the order of its ringing with the ringer's
identity, a 0 withdraws it. -/
def Berth.ring (h : Berth) (who sel val : Nat) : Berth :=
  (List.range 7).foldl (fun h k =>
    if bitAt sel k then
      if bitAt val k then (if h.rings.contains (k, who) then h else { h with rings := h.rings ++ [(k, who)] })
      else { h with rings := h.rings.filter fun r => decide (r.1 ≠ k) }
    else h) h
def State.berthRingWrite (s : State) (b who sel val : Nat) : State :=
  if !s.admits b who then s.setBerth b (s.berth b).deny
  else s.setBerth b ((s.berth b).ring who sel val)
/-- A clear of BERTH_IN bits (R327, R328): a REPLY bit cleared by the slot's claimer frees the slot. -/
def Berth.clearIn (h : Berth) (who bits : Nat) : Berth :=
  let h1 := { h with bin := h.bin &&& ~~~(BitVec.ofNat 32 bits) }
  (List.range 7).foldl (fun h k =>
    if bitAt bits k ∧ (h.slot k).st = .served ∧ (h.slot k).who = who then h.setSlot k Slot.init else h) h1

/-! The berth of a core's barn (R110). -/

def State.threadId (s : State) (c t : Nat) : Nat := idThread (s.coreStamp c) (coordOf s.selfNum c) t
def State.berthPut (s : State) (c t off : Nat) (bs : List Byte) : State :=
  match s.coreBarn c with
  | some b => s.berthWrite b (s.threadId c t) off bs
  | none => s
/-- MBRING: a BERTH_OUT write that selects the bits of gA[6:0] with value 1. -/
def State.berthOut (s : State) (c t bits : Nat) : State :=
  match s.coreBarn c with
  | some b => s.berthRingWrite b (s.threadId c t) (bits % 128) (bits % 128)
  | none => s
/-- The incoming doorbells of the thread's berth ANDed with a mask, and the state with them cleared. -/
def State.berthTakeIn (s : State) (c t mask : Nat) : Nat × State :=
  match s.coreBarn c with
  | some b =>
    let v := ((s.berth b).bin &&& BitVec.ofNat 32 mask).toNat
    (v, if v = 0 then s else s.setBerth b ((s.berth b).clearIn (s.threadId c t) v))
  | none => (0, s)

/-- R338: a released claim returns its slot to FREE, or, while it is SERVING, drops the reply to come. -/
def Berth.release (h : Berth) (p : Nat → Bool) : Berth :=
  { h with
    slots := h.slots.filterMap fun (k, x) =>
      if x.st ≠ .free && p x.who then
        (if x.st = .serving then some (k, { x with dropped := true }) else none)
      else some (k, x)
    bin := (List.range 7).foldl (fun v k =>
      if (h.slot k).st = .served && p (h.slot k).who then v &&& ~~~(1#32 <<< k) else v) h.bin }
def State.releaseClaims (s : State) (p : Nat → Bool) : State :=
  { s with berths := s.berths.filterMap fun (b, h) =>
      let h' := h.release p
      if h' = Berth.init then none else some (b, h') }

end Sys2Proof.Machine
end

