-- ==== Sys2Proof/Machine/CalState.lean ====
section
/-! DEFINITION. The calibration state registers and whose they are (spec/08 R192, R195, R208, Table 8-9; spec/14 Table 14-13). The table `cal`
is keyed by service address. -/
namespace Sys2Proof.Machine

/-- Lengths of sections 1 to 9 (Table 8-9). -/
def calLengths : List Nat := [425776, 128, 8192, 9344, 1024, 1152, 1728, 18688, 4608]
def calBase (sec : Nat) : Nat := 0x04000000 + 0x100000 * sec
/-- Section and offset of a service address, if it lies in the calibration state. -/
def calPlace (a : Nat) : Option (Nat × Nat) :=
  let sec := (a - 0x04000000) / 0x100000
  let off := a % 0x100000
  if 0x04100000 ≤ a ∧ sec ≤ 9 ∧ off < calLengths.getD (sec - 1) 0 then some (sec, off) else none
def State.calRead (s : State) (sec off n : Nat) : Nat := leVal (memRead s.cal (calBase sec + off) n)
/-- The bits that a byte of the calibration state has (Table 8-2): 12-bit offsets, 6-bit gains and swings, 10-bit sensor codes. -/
def calMask (sec off : Nat) : Byte :=
  match sec with
  | 1 => if off % 2 = 0 then 0xFF else 0x0F
  | 3 => 0x3F
  | 4 => 0x3F
  | 6 => if off % 2 = 0 then 0xFF else 0x03
  | _ => 0xFF
def calFit (sec : Nat) : Nat → List Byte → List Byte
  | _, [] => []
  | off, b :: l => (b &&& calMask sec off) :: calFit sec (off + 1) l
def State.calWrite (s : State) (sec off : Nat) (bs : List Byte) : State :=
  { s with cal := memWrite s.cal (calBase sec + off) (calFit sec off bs) }
/-- R209: while a capture freezes them, new ring offsets and bands are held back. -/
def State.calPut (s : State) (sec off : Nat) (bs : List Byte) : State :=
  if s.capture.isSome ∧ (sec = 1 ∨ sec = 2) then { s with calHeld := s.calHeld ++ [(sec, off, bs)] } else s.calWrite sec off bs
def State.calRelease (s : State) : State := s.calHeld.foldl (fun s x => s.calWrite x.1 x.2.1 x.2.2) { s with calHeld := [] }
/-- The fabric transmit links in increasing number, one bus each with 440 switch cells (Table 7-5). -/
def busLinks : List Nat := (List.range 512).filter isFabric
/-- The transmitter or receive link that a ring stands at, in the order of Table 8-1: modulator 16·transmitter + lane, demultiplexer
16·receive link + lane, switch cells by bus, feed selectors three per transmitter (log 20). -/
def ringPlace (r : Nat) : Option Nat :=
  if r < 9344 then some (r / 16)
  else if r < 17536 then some ((r - 9344) / 16)
  else if r < 211136 then busLinks[(r - 17536) / 440]?
  else if r < 212888 then some ((r - 211136) / 3)
  else none
/-- The transmit link or, from 512, the edge port that a ring serves. -/
def State.ringLink (s : State) (r : Nat) : Option Nat :=
  match ringPlace r with
  | some n => if 9344 ≤ r ∧ r < 17536 then s.txOf n else some n
  | none => none
/-- The transmit link or port to which a calibration address belongs; none for an address of no link, or of a receive link at which no path
ends. -/
def State.calOwner (s : State) (sec off : Nat) : Option Nat :=
  match sec with
  | 1 => s.ringLink (off / 2)
  | 3 => s.txOf (off / 16)
  | 4 => some (off / 16)
  | 8 => some (off / 32)
  | 9 => some (512 + off / 64)
  | _ => none
/-- Trims that a procedure measured, at the addresses that it may set. -/
def State.calApply (s : State) (may : Nat → Nat → Bool) (trims : List (BitVec 32 × Byte)) : State :=
  trims.foldl (fun s (a, v) =>
    match calPlace a.toNat with
    | some (sec, off) => if may sec off then s.calPut sec off [v] else s
    | none => s) s
/-- R170: a latency that training has measured, in the link's entry of section 8 too: its first two bytes (log 40). -/
def State.setLatency (s : State) (l cycles : Nat) : State :=
  let s1 := s.calWrite 8 (32 * l) (leBytes 2 cycles)
  if 512 ≤ l then s1.setPort (l - 512) { s1.port (l - 512) with latency := cycles } else s1.setLink l { s1.link l with latency := cycles }
/-- R209: the training state of an edge port, in section 9: its lane mask, its width and a mark that it has trained (log 40). -/
def State.portTrained (s : State) (p : Nat) : State :=
  let x := s.port p
  s.calWrite 9 (64 * p) (leBytes 2 x.laneMask ++ leBytes 1 x.width ++ leBytes 1 1)
/-- The trims of one link or port. -/
def State.calApplyLink (s : State) (l : Nat) (trims : List (BitVec 32 × Byte)) : State :=
  s.calApply (fun sec off => decide (s.calOwner sec off = some l)) trims

end Sys2Proof.Machine
end

