-- ==== Sys2Proof/Machine/Fabric.lean ====
section
/-! DEFINITION. Windows, congestion maps, HBM upkeep (spec/09 R224 to R238, spec/10 R257 to R268, spec/15 R385, R386). -/
namespace Sys2Proof.Machine

def clsTc (cls : Bool) : Nat := if cls then 3 else 1

/-! Source side. -/

/-- A waiting packet is admitted (R227); its wait adds to FAB_DELAY_TIME. -/
def execWindowAdmit (dest : Fin 32768) (cls : Bool) (s : State) : Out :=
  let k := winKey dest.val (clsTc cls)
  let w := s.swin k
  match w.waiting with
  | [] => .next s
  | x :: rest =>
    if s.grant k < w.inUse + x.pkt.units then .next s
    else
      let s1 := (s.setSwin k { w with waiting := rest }).onFctr x.pkt.barn fun f =>
        { f with delayTime := (f.delayTime + (s.reckon - x.since)) % 2 ^ 64 }
      .next ((s1.serve k x.pkt).askWindow dest.val (clsTc cls))
def bodyAt (p : Pkt) (i : Nat) : Nat := leVal ((p.payload.drop (4 * i)).take 4)
/-- The class that a window packet names: TC1 or TC3. -/
def bodyTc (p : Pkt) : Nat := if bodyAt p 0 % 4 = 3 then 3 else 1
/-- TC0 packets leave the network when they are consumed (R232). -/
def State.consume (s : State) (p : Pkt) : State := { s with net := removeFirst p s.net }
/-- A control packet is taken unless its trailer fails or it is stomped (R213, R235). -/
def Pkt.taken (p : Pkt) : Bool := p.trailerOk && !p.poison
/-- R235: a packet of TC0 that is not taken is counted and not answered; a stomped one is discarded (R213). -/
def State.endTc0 (s : State) (p : Pkt) : State :=
  if p.stomped then s else s.onFctr p.barn fun f => { f with ended := (f.ended + 1) % 2 ^ 64 }
def execWupdate (p : Pkt) (s : State) : Out :=
  let s0 := s.consume p
  if !p.taken then .next (s0.endTc0 p)
  else
    let tc := bodyTc p
    let k := winKey (epPkg p.src) tc
    let w := s0.swin k
    let s1 := s0.setSwin k { w with
      inUse := w.inUse - bodyAt p 1, extra := w.extra + bodyAt p 2, asked := w.asked && decide (bodyAt p 2 = 0) }
    .next (s1.askWindow (epPkg p.src) tc)
/-- R226: an idle source gives back what it holds above the standing grant. -/
def execWindowIdleGiveback (dest : Fin 32768) (cls : Bool) (s : State) : Out :=
  let k := winKey dest.val (clsTc cls)
  let w := s.swin k
  if w.inUse = 0 ∧ w.waiting.isEmpty ∧ w.extra ≠ 0 then
    .next ((s.setSwin k { w with extra := 0 }).dispatch
      (mkPkt 0x32 4 (memEp dest.val 0) (memEp s.selfNum 0) 0 0 0 (winBody (clsTc cls) [w.extra])).seal)
  else .next s

/-! Destination side. -/

/-- R226: a request is queued, at most one per window. -/
def execWreq (p : Pkt) (s : State) : Out :=
  let s0 := s.consume p
  let tc := bodyTc p
  if !p.taken then .next (s0.endTc0 p)
  else if s0.grantQ.any fun r => decide (r.src = epPkg p.src) && decide (r.cls = tc) then .next s0
  else .next { s0 with grantQ := s0.grantQ ++ [⟨epPkg p.src, tc, bodyAt p 1⟩] }
/-- The oldest queued request is served when the pool holds what it asks (R226). -/
def execWindowGrant (s : State) : Out :=
  match s.grantQ with
  | [] => .next s
  | r :: rest =>
    let pool := if r.cls = 1 then s.pool1 else s.pool3
    if pool < r.units then .next s
    else
      let k := winKey r.src r.cls
      let w := s.dwin k
      let s1 := { s.setDwin k { w with granted := w.granted + r.units, total := w.total + r.units } with grantQ := rest }
      .next (if r.cls = 1 then { s1 with pool1 := pool - r.units } else { s1 with pool3 := pool - r.units })
def execWupdateSend (src : Fin 32768) (cls : Bool) (s : State) : Out :=
  let k := winKey src.val (clsTc cls)
  let w := s.dwin k
  if w.freed = 0 ∧ w.granted = 0 then .next s
  else
    .next ((s.setDwin k { w with freed := 0, granted := 0 }).dispatch
      (mkPkt 0x31 4 (memEp src.val 0) (memEp s.selfNum 0) 0 0 0 (winBody (clsTc cls) [w.freed, w.granted, 0])).seal)
/-- R228: missing numbers are skipped up to the lowest held one; the gap is counted and noted (class 0). -/
def execWseqGapSkip (src : Fin 32768) (cls : Bool) (s : State) : Out :=
  let k := winKey src.val (clsTc cls)
  let w := s.dwin k
  let dist (p : Nat × Pkt) : Nat := (65536 + p.2.wseq - w.expect) % 65536
  match w.held with
  | [] => .next s
  | p :: l =>
    let n := l.foldl (fun a q => min a (dist q)) (dist p)
    if n = 0 then .next s
    else
      let lost := (List.range n).map fun i => (w.expect + i) % 65536
      let s1 := s.setDwin k { w with expect := (w.expect + n) % 65536, skipped := w.skipped ++ lost, gaps := w.gaps + 1 }
      .next ((s1.report 0x19 s.selfNum src.val).pump k)
/-- R226 and R385: returned units go to the pool; all ones reset the windows toward the sender. -/
def execWgive (p : Pkt) (s : State) : Out :=
  let s0 := s.consume p
  if !p.taken then .next (s0.endTc0 p)
  else
    let tc := bodyTc p
    let k := winKey (epPkg p.src) tc
    let w := s0.dwin k
    let all := decide (bodyAt p 1 = 2 ^ 32 - 1)
    let n := if all then w.total else bodyAt p 1
    let s1 := if tc = 1 then { s0 with pool1 := s0.pool1 + n } else { s0 with pool3 := s0.pool3 + n }
    if !all then .next (s1.setDwin k { w with total := w.total - n })
    else
      let x := s1.swin k
      .next ((s1.setDwin k { DstWin.init with gaps := w.gaps }).setSwin k { SrcWin.init with waiting := x.waiting } |>.askWindow (epPkg p.src) tc)

/-! Course advice (R236). -/

/-- The body of ADVICE (log 18): the original COURSE in bytes 0 to 5, the failed hop in byte 8. -/
def execAdvice (p : Pkt) (s : State) : Out :=
  let s0 := s.consume p
  if !p.taken then .next (s0.endTc0 p)
  else
    let dest := p.addr % 32768
    let course := leVal (p.payload.take 6)
    let h := leVal ((p.payload.drop 8).take 1)
    let hit (e : Nat) : Bool := courseValid e && decide (h < courseHops e) && (List.range (h + 1)).all fun i =>
      decide (coursePort (coursePorts e) i = coursePort course i)
    .next { s0 with courses := (List.range 4).foldl (fun t a =>
      let e := tget 0 t (4 * dest + a)
      if hit e ∧ !courseDown e then tset 0 t (4 * dest + a) (e + 2 ^ 46) else t) s0.courses }

/-! Congestion maps (R237, R238). -/

def binOf (n : Nat) : Nat :=
  if n = 0 then 0 else if n < 64 then 1 else if n < 256 then 2 else if n < 1024 then 3 else if n < 4096 then 4
  else if n < 16384 then 5 else if n < 65536 then 6 else 7
/-- The virtual channel of a packet on its next hop: the level it will have on arrival (R220). -/
def vcOf (global : Bool) (p : Pkt) : Nat := 3 * p.tc + (if global then p.lvl + 1 else p.lvl)
def bump16 (l : List Nat) (i : Nat) : List Nat × Bool := (listSet l i (min 65535 (l.getD i 0 + 1)), decide (65535 ≤ l.getD i 0 + 1))
/-- One sample of one port. -/
def State.sampleOf (s : State) (p : Nat) : CongRec :=
  let x := s.port p
  let c := x.cong
  let units := x.queue.foldl (fun a q => a + q.pkt.units) 0
  let (occ, sat0) := bump16 c.occ (binOf units)
  let glob := decide (s.planRole p = 2)
  let stalls := (List.range 4).filter fun tc =>
    match x.queue.find? fun q => decide (q.pkt.tc = tc) with
    | some q => decide (tget 0 x.credit (vcOf glob q.pkt) < q.pkt.units)
    | none => false
  let (st, sat1) := stalls.foldl (fun (l, b) tc => let (l', b') := bump16 l tc; (l', b || b')) (c.stall, false)
  { c with occ := occ, stall := st, sat := c.sat || sat0 || sat1 }
def execCongestionSample (s : State) : Out :=
  .next ((List.range 72).foldl (fun (t : State) p =>
    if portFitted s.variant p then t.setPort p { s.port p with cong := s.sampleOf p } else t) s)
/-- ROLE of a port in maps and status: down unless it is in UP. -/
def State.shownRole (s : State) (p : Nat) : Nat :=
  let r := s.planRole p
  if !portFitted s.variant p then 0 else if (r = 1 ∨ r = 2) ∧ (s.port p).st ≠ .up then 4 else r
/-- Table 11-11 and R270: a record of the map (Table 9-11). -/
def State.congRecord (s : State) (p : Nat) : List Byte :=
  if !portFitted s.variant p then List.replicate 64 0
  else
    let x := s.port p
    let c := x.cong
    padTo 64 (leBytes 1 p ++ leBytes 1 (s.shownRole p) ++ leBytes 2 x.peer ++ c.occ.flatMap (leBytes 2) ++ leBytes 8 c.txBytes
      ++ c.stall.flatMap (leBytes 2) ++ leBytes 8 c.rxBytes ++ leBytes 4 c.recoursed ++ leBytes 4 c.ended ++ leBytes 1 (boolNat c.sat))
def State.congMap (s : State) : List Byte :=
  padTo 64 (leBytes 2 1 ++ leBytes 2 s.selfNum ++ leBytes 4 s.hseq ++ leBytes 8 s.hstart ++ leBytes 8 s.reckon)
    ++ (List.range 72).flatMap s.congRecord
/-- The interval of every record closes and the next opens. -/
def State.closeMap (s : State) : State :=
  (List.range 72).foldl (fun (t : State) p => t.setPort p { s.port p with cong := .init })
    { s with hseq := (s.hseq + 1) % 2 ^ 32, hstart := s.reckon }
def sendMap : Nat → State → Pkt → Nat → List Byte → State
  | 0, s, _, _, _ => s
  | f + 1, s, p, off, bs =>
    if bs.isEmpty then s
    else
      let n := s.mtu
      let q := mkPkt 0x3B 4 p.src (helmEp s.selfNum) 0 0 off (bs.take n)
      sendMap f (s.egress q.seal) p (off + n) (bs.drop n)
def execHarvestReq (p : Pkt) (s : State) : Out :=
  let s0 := s.consume p
  if !p.taken then .next (s0.endTc0 p)
  else
    let s1 := { s0 with hseq := (s0.hseq + 1) % 2 ^ 32 }
    .next (sendMap 20 { s0.closeMap with hseq := s1.hseq } p 0 s1.congMap)

/-! HBM upkeep. -/

/-- The last source byte of a copy that a gateway of this package submitted; none of another's. -/
def State.homeCopy (s : State) (who trk : Nat) : Option Nat :=
  if epPkg who ≠ s.selfNum then none
  else match tget none (s.gw (16 * epDie who + epY who % 16)).trackers trk with
    | some t => some (bitsAt t.desc 64 42 + bitsAt t.desc 192 32)
    | none => none
/-- R257: a line is read ahead of a linear copy from HBM, named by its gateway's endpoint and its tracker; one that may not be read, or that
fails, is dropped. `e` is what it finds. -/
def execReadAheadFetch (gateway : Fin 1073741824) (tracker : Fin 256) (e : HbmErr) (s : State) : Out :=
  match s.aheadOf gateway.val tracker.val with
  | none => .next s
  | some r =>
    let line := r.next + r.lines.length
    let past : Bool := match s.homeCopy gateway.val tracker.val with
      | some last => decide (last < 64 * line)
      | none => false
    if !r.linear ∨ past ∨ 64 ≤ r.lines.length ∨ 16384 ≤ r.bytes then .next s
    else
      let drop (s : State) : Out := .next (s.onMctr r.barn fun m => { m with raDropped := (m.raDropped + 1) % 2 ^ 64 })
      if 2 ^ 34 ≤ line ∨ s.granuleBarn (granuleOf (64 * line)) ≠ some r.barn ∨ s.poison.contains line ∨ hbmLimit s.variant ≤ 64 * line % 2 ^ 36 then
        drop s
      else if s.hbmWaits (64 * line) 64 then .next s
      else
        let (ok, s1) := s.hbmError (64 * line) e
        if !ok then drop s1
        else
          .next ((s1.putAhead { r with bytes := r.bytes + 64, lines := r.lines ++ [line] }).onMctr r.barn fun m =>
            { m with raBytes := (m.raBytes + 64) % 2 ^ 64 })
/-- R267: the patrol reads a line of an owned granule. -/
def execPatrolRead (line : Nat) (e : HbmErr) (s : State) : Out :=
  if 2 ^ 34 ≤ line ∨ (s.granuleBarn (granuleOf (64 * line))).isNone ∨ s.poison.contains line ∨ s.hbmWaits (64 * line) 64 then .next s
  else .next (s.hbmError (64 * line) e).2
def State.retireGranule (s : State) (g : Nat) : State :=
  if (s.granule g).retired then s else (s.setGranule g { s.granule g with retired := true }).report 0x22 g 0
/-- R268: the repair of a row that waits for one ends and is recorded; a bank without a spare row retires the granule. -/
def execRowRepairComplete (granule : GranuleId) (detail : BitVec 32) (spare : Bool) (s : State) : Out :=
  let ch := s.channels
  let row := (granule.val, detail.toNat)
  if !s.rowWait.contains row ∨ (tget HbmChan.init ch (32 * (granule.val / 64) + detail.toNat % 32)).training then .next s
  else
    let s1 := { s with rowWait := removeFirst row s.rowWait }
    if spare then .next { s1 with repairs := s1.repairs ++ [row] } else .next (s1.retireGranule granule.val)
/-- R262: the fill of a granule ends: it is owned, reads as zero and holds no poison. -/
def execGranuleScrubComplete (granule : GranuleId) (s : State) : Out :=
  let g := granule.val
  match (s.granule g).st with
  | .scrubbing b =>
    let base := g / 64 * 2 ^ 36 + g % 64 * 2 ^ 30
    if s.hbmWaits base (2 ^ 30) then .next s
    else .next { s.setGranule g { s.granule g with st := .owned b } with
      hbm := memClear s.hbm base (2 ^ 30), poison := s.poison.filter fun w => decide (64 * w < base) || decide (2 ^ 30 + base ≤ 64 * w) }
  | _ => .next s
def State.channel (s : State) (d c : Nat) : HbmChan := tget HbmChan.init s.channels (32 * d + c)
def State.setChannel (s : State) (d c : Nat) (x : HbmChan) : State := { s with channels := tset HbmChan.init s.channels (32 * d + c) x }
/-- R386: a controller retrains at most one channel at a time. -/
def execHbmChannelRetrainStart (die : DieId) (channel : Fin 32) (s : State) : Out :=
  let x := s.channel die.val channel.val
  if x.outOfService ∨ (List.range 32).any fun c => (s.channel die.val c).training then .next s
  else .next (s.setChannel die.val channel.val { x with training := true })
/-- R386: a failed retrain is retried once; a second failure takes the channel out of service and retires the stack's granules. -/
def execHbmChannelRetrainComplete (die : DieId) (channel : Fin 32) (good : Bool) (s : State) : Out :=
  let d := die.val
  let x := s.channel d channel.val
  if !x.training then .next s
  else if good then .next (s.setChannel d channel.val HbmChan.init)
  else if !x.failedOnce then .next (s.setChannel d channel.val { x with failedOnce := true })
  else
    let s1 := (s.setChannel d channel.val ⟨false, false, true⟩).report 0x23 d channel.val
    .next ((List.range 64).foldl (fun s g => s.retireGranule (64 * d + g)) s1)

end Sys2Proof.Machine
end

