-- ==== Sys2Proof/Machine/Operation.lean ====
section
/-! DEFINITION. Long operations and where a command's data goes (spec/13 R330 to R335). -/
namespace Sys2Proof.Machine

/-- The PCIe function of an identity (Table 13-4). -/
def idFnNum (who : Nat) : Nat := if idKind who = 2 then bitsAt who 12 8 else 0

/-! Space of STATUS_ADDR and BUF_ADDR (Table 13-7): 1 is the requester's host memory, 2 a local offset its barn owns. -/

/-- Whether `n` bytes at a local offset lie in HBM or core SRAM that barn `b` owns. -/
def State.ownsLocal (s : State) (b l n : Nat) : Bool :=
  match localRegion l with
  | .hbm _ o => decide (o + n ≤ hbmLimit s.variant) && decide (s.granuleBarn (granuleOf l) = some b)
      && decide (s.granuleBarn (granuleOf (l + n - 1)) = some b)
  | .core c o => decide (o + n ≤ 0x60000) && decide (s.coreBarn c = some b)
  | _ => false
/-- A write by the helm at a local offset. -/
def State.localWrite (s : State) (l : Nat) (bs : List Byte) : State :=
  match localRegion l with
  | .hbm _ _ => s.hbmStore l bs
  | .core c o => s.onCore c fun k => k.sramWrite o bs
  | _ => s
/-- Whether an address of a request is one its requester may name: of kind 1 for PCIe functions only, of kind 2 within its barn. -/
def State.addrOk (s : State) (akind who barn a n : Nat) : Bool :=
  match akind with
  | 1 => idKind who == 1 || idKind who == 2
  | 2 => s.ownsLocal barn a n
  | _ => false
/-- The helm writes bytes where a request said; a write that fails is dropped (R333). -/
def State.putAt (s : State) (akind who barn a : Nat) (bs : List Byte) : State :=
  if !s.addrOk akind who barn a bs.length then s
  else if akind = 1 then { s with out := s.out ++ [.hostWrite (idFnNum who) a bs] }
  else s.localWrite a bs

/-! Operations (R332, R333). -/

def State.op (s : State) (n : Nat) : Option Op := s.ops.find? fun o => decide (o.num = n)
def State.setOp (s : State) (o : Op) : State := { s with ops := s.ops.map fun x => if x.num = o.num then o else x }
/-- Table 13-10. -/
def Op.record (o : Op) (reckon : Nat) : List Byte :=
  leBytes 4 o.num ++ leBytes 2 o.opcode ++ leBytes 1 o.st ++ leBytes 1 o.result ++ leBytes 4 o.progress ++ leBytes 4 o.total
    ++ leBytes 4 o.partialBytes ++ leBytes 4 o.updates ++ leBytes 8 reckon
/-- A write of the status record: bytes 0 to 19 and 24 to 31 first, UPDATES last; then OPSTAT where STATUS_DB asks for it. A failed write ends
the writing (R333). -/
def State.opWrite (s : State) (o : Op) : State :=
  if o.statusAddr = 0 then s
  else
    let o1 := { o with updates := (o.updates + 1) % 2 ^ 32 }
    if !s.addrOk o.akind o.who o.barn o.statusAddr 32 then s.setOp { o with statusAddr := 0 }
    else
      let r := o1.record s.reckon
      let put (s : State) (i : Nat) (bs : List Byte) : State := s.putAt o.akind o.who o.barn (o.statusAddr + i) bs
      let s1 := put (put (put (s.setOp o1) 0 (r.take 20)) 24 (r.drop 24)) 20 ((r.drop 20).take 4)
      if o.sdb then s1.berthRaise o.berth 9 else s1
/-- A change of an operation, with its record written. -/
def State.opChange (s : State) (n : Nat) (f : Op → Op) : State :=
  match s.op n with
  | none => s
  | some o => (s.setOp (f o)).opWrite (f o)
/-- An operation moves to another state that is not an end: running, deferred. -/
def State.opState (s : State) (n st result : Nat) : State := s.opChange n fun o => { o with st := st, result := result }
/-- The work of an operation is over: OPERATION_END will end it with this state and result. The first end stands. -/
def State.opFin (s : State) (n st result : Nat) : State :=
  match s.op n with
  | none => s
  | some o => if o.fin.isSome then s else s.setOp { o with fin := some (st, result) }
def opFinAll (s : State) (st result : Nat) : List Nat → State
  | [] => s
  | n :: l => opFinAll (s.opFin n st result) st result l
/-- Bytes of the result buffer become final (R333). -/
def State.opBuffer (s : State) (n : Nat) (bs : List Byte) : State :=
  match s.op n with
  | none => s
  | some o =>
    let cut := bs.take o.bufLen
    (s.putAt o.akind o.who o.barn o.bufAddr cut).setOp { o with partialBytes := cut.length }

/-- Whether a core still goes through the zeroing of its reset. -/
def State.zeroingIn (s : State) (k : Nat) : Bool := (clusterCores k).any fun c => decide ((s.core c).power = .zeroing)
/-- R273, R419: what the end of an operation changes: a port released stays in DISAGREE; granules assigned enter the barn's configuration. -/
def State.opReleased (s : State) (o : Op) (st : Nat) : State :=
  let p := o.work.headD 0
  if o.opcode = 0x0204 ∧ st = 2 ∧ o.work.tail ≠ [] then s.configChanged p
  else if o.opcode = 0x0403 ∧ (s.port p).drain then s.setPort p { s.port p with st := .disagree, drain := false, keyed := false } else s
/-- Whether the work of an operation is over: its end is set, it waited for granules to be scrubbed or for clusters to be zeroed (R262, R428), or
for a port to drain (R273), which a loss of the port ends.
`work` of a barn operation lists the barn, then the units. -/
def State.opOver (s : State) (o : Op) : Option (Nat × Nat) :=
  match o.fin with
  | some x => some x
  | none =>
    if o.opcode = 0x0204 then
      (if o.work.tail.any fun g => decide ((s.granule g).st = .scrubbing (o.work.headD 0)) then none else some (2, 0))
    else if o.opcode = 0x0201 ∨ o.opcode = 0x0202 ∨ o.opcode = 0x0203 ∨ o.opcode = 0x0208 then
      (if o.work.tail.any fun k => s.zeroingIn k then none else some (2, 0))
    else if o.opcode = 0x0403 then
      (let x := s.port (o.work.headD 0)
       if !x.drain then some (3, 0x24) else if x.queue.isEmpty && x.replay.isEmpty then some (2, 0) else none)
    else none
/-- R332, R335: a long operation ends: its last status record, the notice "operation ended" at its berth, and its place among the 1,024 kept. -/
def execOperationEnd (op : Nat) (s : State) : Out :=
  match s.op op with
  | none => .next s
  | some o =>
    match s.opOver o with
    | none => .next s
    | some (st, result) =>
      let s1 := (s.opState op st result).opReleased o st
      let o1 := (s1.op op).getD o
      let s2 := { s1 with ops := s1.ops.filter fun x => decide (x.num ≠ op), opsEnded := lastN 1024 (s1.opsEnded ++ [o1]) }
      .next (s2.postNotice o.berth 0x02 (leBytes 4 o.num ++ leBytes 1 st ++ leBytes 1 result))
/-- R332: the record is written again while the operation runs. -/
def execOpStatusPeriodic (op : Nat) (s : State) : Out :=
  match s.op op with
  | none => .next s
  | some o => .next (s.opWrite o)

end Sys2Proof.Machine
end

