-- ==== Sys2Proof/Machine/Edge.lean ====
section
/-! DEFINITION. Edge ports: re-coursing and salvage, transmit arbitration, frames, training, light and keys, sighting
(spec/09 R216 to R238, spec/11 R275 to R297, spec/17 R420 to R423). -/
namespace Sys2Proof.Machine

def State.onPort (s : State) (p : Nat) (f : EdgePort → EdgePort) : State := s.setPort p (f (s.port p))
def State.onCong (s : State) (p : Nat) (f : CongRec → CongRec) : State := s.onPort p fun x => { x with cong := f x.cong }
/-- Light of a port that is no frame: 0x10 a probe burst (R291). -/
def State.portOut (s : State) (p kind : Nat) : State := { s with out := s.out ++ [.link p kind] }
/-- A count of the congestion record that saturates (Table 9-11). -/
def CongRec.recourse (c : CongRec) : CongRec := { c with recoursed := sat32 (c.recoursed + 1), sat := c.sat || decide (2 ^ 32 ≤ c.recoursed + 1) }
def CongRec.drop (c : CongRec) : CongRec := { c with ended := sat32 (c.ended + 1), sat := c.sat || decide (2 ^ 32 ≤ c.ended + 1) }

/-! Training frames (Table 8-6a). -/

/-- PRBS31, x³¹ + x²⁸ + 1: `n` bytes from a 31-bit state, the least significant bit of a byte first (log 40). -/
def prbsByte : Nat → Nat → Nat → Nat × Nat
  | 0, r, b => (b, r)
  | n + 1, r, b =>
    let o := (r / 2 ^ 30 + r / 2 ^ 27) % 2
    prbsByte n ((2 * r + o) % 2 ^ 31) (b / 2 + 128 * o)
def prbs : Nat → Nat → List Byte
  | 0, _ => []
  | n + 1, r => let (b, r') := prbsByte 8 r 0; BitVec.ofNat 8 b :: prbs n r'
def TrainFrame.payload (f : TrainFrame) : List Byte :=
  leBytes 1 f.tkind ++ leBytes 1 (boolNat f.ackReq + 2 * boolNat f.ack) ++ leBytes 2 f.sender ++ leBytes 2 f.laneMask ++ leBytes 2 0 ++ leBytes 4 f.seed
    ++ (if f.tkind = 4 then List.replicate 228 0 else prbs 228 (f.seed % 2 ^ 31))
/-- A training frame of a transmitter: link `l` below 512, edge port `l` − 512. -/
def State.train (s : State) (l tkind mask : Nat) (ack : Bool) : State :=
  { s with out := s.out ++ [.train l (TrainFrame.payload ⟨tkind, decide (tkind = 4) && !ack, ack, l, mask, max 1 (Config.trainSeed l % 2 ^ 32)⟩)] }

/-! Frames that a port sends (R275 to R280). -/

def PortKeys.settle (k : PortKeys) : PortKeys :=
  if k.txMoved ∧ k.rxMoved then { k with updating := false, txMoved := false, rxMoved := false } else k
/-- The new key at a superframe boundary, once the partner has acknowledged the confirm frame (R423). -/
def PortKeys.boundary (k : PortKeys) : PortKeys :=
  if k.txPos = 0 ∧ k.updating ∧ k.confirmAcked then
    { k with txGen := k.txGen + 1, sigmaTx := 0, confirmSeq := none, confirmAcked := false, txMoved := true }.settle
  else k
/-- One frame leaves: its place in the superframe; with the eighth the tag of the superframe is known (R280). -/
def PortKeys.sendFrame (k : PortKeys) (p ectl : Nat) (payload : List Byte) : PortKeys :=
  let l := k.txFrames ++ [(ectl, payload)]
  if k.txPos = 7 then { k with txPos := 0, sigmaTx := k.sigmaTx + 1, txFrames := [], txTag := Config.edgeTag p k.txGen k.sigmaTx l }
  else { k with txPos := k.txPos + 1, txFrames := l }
/-- R278: the channel whose count goes out next: the first changed one behind the last sent. -/
def EdgePort.nextCredit (x : EdgePort) : Option Nat :=
  ((List.range 12).map fun i => (x.credPtr + i) % 12).find? fun vc => decide (tget 0 x.freed vc ≠ tget 0 x.freedSent vc)
/-- ECTL (Table 11-4) but TAGFRAG. -/
def EdgePort.ectl (x : EdgePort) (kind seq start : Nat) : Nat :=
  let (vc, n) := match x.nextCredit with
    | some vc => (vc, tget 0 x.freed vc % 512)
    | none => (15, 0)
  packFields [(3, kind), (12, seq), (6, start), (12, (x.rxNext + 4095) % 4096), (1, boolNat x.nakDue), (1, boolNat x.delivered), (4, vc), (9, n)]
def edgeBytes (ectl : Nat) (payload : List Byte) : List Byte :=
  let body := leBytes 8 ectl ++ padTo 240 (payload.take 240)
  body ++ weave (rsParity 4 (evens body)) (rsParity 4 (evens (body.drop 1)))
/-- A frame of any kind but training: ECTL, the payload under the transmit key once there is one, parity. -/
def State.sendFrame (s : State) (p kind seq start : Nat) (payload : List Byte) : State :=
  let x := s.port p
  let k := if x.keyed then x.keys.boundary else x.keys
  let ectl := x.ectl kind seq start
  let tag := if x.keyed then bitsAt k.txTag (16 * k.txPos) 16 else 0
  let sent := if x.keyed then Config.edgeCipher p k.txGen k.sigmaTx k.txPos (padTo 240 payload) else payload
  let y := { x with
    nakDue := false, keys := if x.keyed then k.sendFrame p ectl (padTo 240 payload) else k
    freedSent := match x.nextCredit with
      | some vc => tset 0 x.freedSent vc (tget 0 x.freed vc)
      | none => x.freedSent
    credPtr := match x.nextCredit with
      | some vc => (vc + 1) % 12
      | none => x.credPtr }
  { s.setPort p y with out := s.out ++ [.edge p (edgeBytes (ectl + tag * 2 ^ 48) sent)] }
/-- A data or link-control frame takes the next number and stays until it is acknowledged (R277). -/
def State.keepFrame (s : State) (p kind start : Nat) (payload : List Byte) (pkts : List QPkt) : State :=
  let n := (s.port p).txSeq
  (s.onPort p fun x => { x with txSeq := (n + 1) % 4096, replay := x.replay ++ [⟨n, kind, start, payload, pkts⟩] }).sendFrame p kind n start payload
/-- Bytes in pieces of 240. -/
def pieces240 : Nat → List Byte → List (List Byte)
  | 0, _ => []
  | f + 1, bs => if bs.length ≤ 240 then [bs] else bs.take 240 :: pieces240 f (bs.drop 240)
def keepAll (s : State) (p start : Nat) (q : QPkt) : List (List Byte) → State
  | [] => s
  | [b] => s.keepFrame p 1 start b [q]
  | b :: l => keepAll (s.keepFrame p 1 start b []) p 63 q l
/-- The frames of a packet: it starts one and ends in the last (log 40). -/
def QPkt.pieces (q : QPkt) : List (List Byte) := pieces240 18 q.pkt.stream
def State.sendPkt (s : State) (p : Nat) (q : QPkt) : State := keepAll s p 0 q q.pieces
def sendIdles (s : State) (p : Nat) : Nat → State
  | 0 => s
  | n + 1 => sendIdles (s.sendFrame p 0 0 63 []) p n
/-- R280: before the port leaves UP it completes its superframe and sends one more of idle frames. -/
def State.closeSuper (s : State) (p : Nat) : State :=
  let x := s.port p
  if x.st = .up ∧ x.keyed then sendIdles s p ((8 - x.keys.txPos) % 8 + 8) else s
/-- Every frame of the replay buffer goes out again, in new places of the superframes. -/
def State.resendAll (s : State) (p : Nat) : State :=
  (s.port p).replay.foldl (fun s f => s.sendFrame p f.kind f.seq f.start f.payload) s

/-! The plan entry of a port (Table 11-2); a spare entry with a partner expected is judged as a span entry (R294). -/

def State.peerSet (s : State) (p : Nat) : Bool := bitAt (s.planEntry p) 2
def State.planPeer (s : State) (p : Nat) : Nat := bitsAt (s.planEntry p) 3 15
def State.planPeerPort (s : State) (p : Nat) : Nat := bitsAt (s.planEntry p) 18 7
def State.sightRole (s : State) (p : Nat) : Nat := if s.planRole p = 3 ∧ s.peerSet p then 1 else s.planRole p

/-! Packets that end (R235) and new courses (R234). -/

/-- A packet ends with the status of its cause. -/
def State.endPkt (s : State) (p : Pkt) (cause : Nat) : State :=
  let s1 := s.onFctr p.barn fun x => { x with ended := (x.ended + 1) % 2 ^ 64 }
  if p.tc = 2 then
    s1.egress { p with addr := 0x0B, payload := [], hops := 0, hidx := 0, course := 0, lvl := 0, lrun := 0 }.seal
  else if p.tc = 0 then s1
  else s1.egress { cplPkt (cplOp p.op) cause p [] with dst := p.requester }.seal
/-- The first three conditions of R217 for a hop on port `q`, and its slot condition from the partner that sighting recorded. -/
def State.hopOk (s : State) (p : Pkt) (q : Nat) : Bool :=
  portFitted s.variant q &&
  (if s.planRole q = 2 then decide (p.lvl ≤ 1)
   else if s.planRole q = 1 then
     decide (p.lrun ≤ 1) && (decide (p.lrun ≠ 1) || decide (s.selfSlot < (s.port q).peer % 64))
   else false)
def State.portTakes (s : State) (q : Nat) : Bool := decide ((s.port q).st = .up) && !(s.port q).drain
/-- The first live alternative whose first port is up and that fits behind hops 0 to h − 1 (R234). -/
def State.reAlt (s : State) (p : Pkt) : Option Nat :=
  (s.liveAlts (epPkg p.dst)).find? fun e =>
    let q := coursePort (coursePorts e) 0
    s.portTakes q && decide (p.hidx + courseHops e ≤ 6) && s.hopOk p q
/-- R234's ADVICE, at most once per destination every 100 µs. -/
def State.advise (s : State) (p : Pkt) : State :=
  let d := epPkg p.dst
  if epPkg p.src = s.selfNum ∨ s.reckon < tget 0 s.advised d then s
  else
    { s with advised := tset 0 s.advised d (s.reckon + 1600000) }.dispatch
      (mkPkt 0x35 4 (memEp (epPkg p.src) 0) (memEp s.selfNum 0) 0 0 d (padTo 16 (leBytes 8 p.course ++ leBytes 1 p.hidx))).seal
/-- A packet re-coursed at die `die` of this package after its hop HIDX failed at port `at_`; none where it has no alternative. -/
def State.reCourse (s : State) (q : QPkt) (die at_ : Nat) (advice : Bool) : Option State :=
  let p := q.pkt
  match s.reAlt p with
  | none => none
  | some e =>
    let h := p.hidx
    let kept := p.course % 2 ^ (7 * h)
    let p' := { p with course := kept + coursePorts e % 2 ^ (7 * (6 - h)) * 2 ^ (7 * h), hops := h + courseHops e }.rehop
    let s1 := if advice then s.advise p else s
    some ((s1.onCong at_ CongRec.recourse).towardPort die (coursePort (coursePorts e) 0) p' q.arr)
/-- The credit units of a packet that leaves this package's receive buffer (R221, R278). -/
def State.freeArrival (s : State) (q : QPkt) : State :=
  match q.arr with
  | none => s
  | some (a, vc) => if 12 ≤ vc then s else s.onPort a fun x => { x with freed := tset 0 x.freed vc (tget 0 x.freed vc + q.pkt.units) }
/-- Packets re-coursed in order; those with no alternative end with "course lost". Says how many ended. -/
def reCourseAll (s : State) (die at_ : Nat) : List QPkt → Nat × State
  | [] => (0, s)
  | q :: l =>
    match s.reCourse q die at_ true with
    | some s1 => reCourseAll s1 die at_ l
    | none =>
      let s1 := ((s.freeArrival q).endPkt q.pkt 0x0A).onCong at_ CongRec.drop
      let (n, s2) := reCourseAll s1 die at_ l
      (n + 1, s2)
/-- R288: the queued packets of a port in maintenance, re-coursed without ADVICE; one with no alternative waits. -/
def reCourseQuiet (s : State) (at_ : Nat) : List QPkt → State
  | [] => s
  | q :: l =>
    match s.reCourse q (at_ % 16) at_ false with
    | some s1 => reCourseQuiet s1 at_ l
    | none => reCourseQuiet (s.toPort at_ q.pkt q.arr) at_ l
def State.drainQuiet (s : State) (p : Nat) : State :=
  let q := (s.port p).queue
  reCourseQuiet (s.onPort p fun x => { x with queue := [] }) p q
/-- A transit packet that came by port `a` on its way to its next port: a port that is down, draining or in maintenance re-courses it. -/
def State.forward (s : State) (a : Nat) (q : QPkt) : State :=
  let n := coursePort q.pkt.course q.pkt.hidx
  let on (s : State) : State := s.towardPort (a % 16) n q.pkt q.arr
  let quiet := (s.reCourse q (a % 16) n false).getD (on s)
  if !portFitted s.variant n ∨ (s.planRole n ≠ 1 ∧ s.planRole n ≠ 2) then
    (((s.freeArrival q).endPkt q.pkt 0x0D).report 0x19 s.selfNum 0).onCong a CongRec.drop
  else match (s.port n).st with
    | .up => if (s.port n).drain ∨ (s.port n).maint.isSome then quiet else on s
    | .width => on s
    | .maint => quiet
    | .lost => if (s.port n).held then on s else (reCourseAll s (a % 16) n [q]).2
    | _ => (reCourseAll s (a % 16) n [q]).2

/-! The states of a port (Table 11-6). -/

/-- The payload of a link-control frame (Table 11-7). A key exchange message is one frame's body (log 40). -/
def State.lcPayload (s : State) (p kind mtype : Nat) : List Byte :=
  leBytes 1 kind ++ leBytes 1 0 ++ leBytes 2 s.selfNum ++ leBytes 1 p ++ leBytes 1 (s.planRole p) ++ leBytes 1 s.planMtuCode ++ leBytes 1 0
    ++ leBytes 2 (if s.peerSet p then s.planPeer p else 0x8000) ++ leBytes 1 (s.planPeerPort p) ++ leBytes 1 0 ++ leBytes 16 s.nv.idDigest
    ++ padTo 212 (if kind = 2 ∨ kind = 3 then (Config.keyMessage p mtype (s.port p).keys.txGen).take 212 else [])
/-- A link-control frame; with 2,048 frames unacknowledged it waits (R277). -/
def State.control (s : State) (p kind : Nat) (payload : List Byte) : State :=
  if 2048 ≤ (s.port p).replay.length then s.onPort p fun x => { x with ctlQ := x.ctlQ ++ [(kind, payload)] }
  else
    let n := (s.port p).txSeq
    (s.onPort p fun x => { x with keys := if kind = 3 then { x.keys with confirmSeq := some n } else x.keys }).keepFrame p 3 63 payload []
def State.sendControl (s : State) (p kind mtype : Nat) : State := s.control p kind (s.lcPayload p kind mtype)
/-- Control frames that waited go out as the replay buffer empties. -/
def flushControl : Nat → State → Nat → State
  | 0, s, _ => s
  | f + 1, s, p =>
    match (s.port p).ctlQ with
    | (k, b) :: l => if 2048 ≤ (s.port p).replay.length then s else flushControl f ((s.onPort p fun x => { x with ctlQ := l }).control p k b) p
    | [] => s
/-- A port enters a state and sends its light. -/
def State.enter (s : State) (p : Nat) (st : PortState) : State :=
  let s1 := s.onPort p fun x => { x with st := st }
  let m := (s1.port p).laneMask
  match st with
  | .lock => s1.train (512 + p) 1 0xFFFF false
  | .deskew => s1.train (512 + p) 2 m false
  | .eye => s1.train (512 + p) 3 m false
  | .ident => s1.sendControl p 1 0
  | .keying => s1.sendControl p 2 1
  | .width => s1.train (512 + p) 5 (s1.port p).propose false
  | .maint => s1.train (512 + p) 1 m false
  | .disagree => s1.sendFrame p 0 0 63 []
  | _ => s1

/-! Loss and salvage (R233, R286). -/

/-- LAST_COMPLETE when no packet was received: no frame number (log 18). -/
def noFrame : Nat := 4096
/-- The frames that a partner's LAST_COMPLETE says have arrived are released. -/
def releaseTo (last : Nat) (l : List TxFrame) : List TxFrame :=
  if l.any fun f => decide (f.seq = last) then (l.dropWhile fun f => decide (f.seq ≠ last)).drop 1 else l
def framePkts (l : List TxFrame) : List QPkt := l.flatMap (·.pkts)
/-- The end of a salvage: the replay buffer and the queue are empty, and the port goes to LOCK or PROBE (R287). -/
def State.salvageEnd (s : State) (p ended : Nat) : State :=
  let x := s.port p
  let s1 := (s.onPort p fun x => { x with held := false, early := none, lightOff := x.lightOff || !x.light }).enter p
    (if x.shut then .disagree else if x.light then .lock else .probe)
  if ended = 0 then s1.report 0x16 p 0 else s1.report 0x17 p 0
/-- Table 9-10, step 4. -/
def State.salvageTake (s : State) (p last : Nat) : State :=
  let x := s.port p
  let rest := framePkts (releaseTo last x.replay) ++ x.queue
  let (n, s1) := reCourseAll (s.onPort p fun x => { x with replay := [], ctlQ := [], queue := [] }) (p % 16) p rest
  s1.salvageEnd p n
/-- SALVAGE leaves by an alternative that does not start at the lost port, where there is one. -/
def State.dispatchAround (s : State) (p : Pkt) (bad : Nat) : State :=
  let l := (s.liveAlts (epPkg p.dst)).filter fun e => decide (coursePort (coursePorts e) 0 ≠ bad) && s.portTakes (coursePort (coursePorts e) 0)
  match l[(crc32c p.flowKey).toNat % l.length]? with
  | some e => s.towardPort (epDie p.src) (coursePort (coursePorts e) 0) (p.onCourse e) none
  | none => s.dispatch p
/-- R286: the port enters LOST; its link and edge keys go (Table 17-4); a running sweep or retrain ends with 0x24 (R289). -/
def State.portLost (s : State) (p : Nat) : State :=
  let x := s.port p
  if x.st ≠ .up ∧ x.st ≠ .width ∧ x.st ≠ .maint then s
  else
    let s0 := match x.maint with
      | some m => opFinAll s 3 0x24 m.ops
      | none => s
    let s1 := s0.setPort p { x with
      st := .lost, lossSeen := true, held := true, keyed := false, maint := none, discarding := false, nakDue := false, drain := false,
      keys := { PortKeys.init with txGen := x.keys.txGen + 1, rxGen := x.keys.rxGen + 1 } }
    let s2 := if x.peerValid then
        s1.dispatchAround (mkPkt 0x34 4 (helmEp x.peer) (helmEp s.selfNum) 0 0 p (leBytes 16 (x.lastDone.getD noFrame))).seal p
      else s1
    match x.early with
    | some last => s2.salvageTake p last
    | none => s2
def execPortLoss (port : PortId) (s : State) : Out :=
  if (s.port port.val).st = .up then .next (s.portLost port.val) else .next s
/-- A salvage report: ADDR names the sender's own lost port. -/
def execSalvage (p : Pkt) (s : State) : Out :=
  let s0 := s.consume p
  if !p.taken then .next (s0.endTc0 p)
  else
    let last := leVal p.payload
    match (List.range 72).find? fun q =>
        let x := s0.port q
        x.peerValid && decide (x.peer = epPkg p.src) && decide (x.peerPort = p.addr % 128) with
    | none => .next s0
    | some q =>
      let x := s0.port q
      if x.st = .lost ∧ x.held then .next (s0.salvageTake q last)
      else if x.st = .up ∨ x.st = .width then .next (s0.onPort q fun x => { x with early := some last })
      else .next s0
/-- No SALVAGE within 30 µs: packets in unacknowledged frames end, packets never sent are re-coursed. -/
def execSalvageTimeout (port : PortId) (s : State) : Out :=
  let p := port.val
  let x := s.port p
  if x.st ≠ .lost ∨ !x.held then .next s
  else
    let doubt := framePkts x.replay
    let s1 := s.onPort p fun x => { x with replay := [], ctlQ := [], queue := [] }
    let s2 := doubt.foldl (fun s q => (s.endPkt q.pkt 0x0A).onCong p CongRec.drop) s1
    let (n, s3) := reCourseAll s2 (p % 16) p x.queue
    .next (s3.salvageEnd p (n + doubt.length))

/-! Transmit arbitration (Table 9-6). -/

/-- The next key of a rising list, cyclically. -/
def nextKey (keys : List Nat) (cur : Nat) : Nat := (keys.find? fun k => decide (cur < k)).getD (keys.headD 0)
/-- Deficit round robin: the key served, with the deficits after it. A turn begins with its quantum. -/
def drr (size quantum : Nat → Nat) (keys : List Nat) : Nat → Map Nat → Nat → Nat × Map Nat
  | 0, d, cur => (cur, d)
  | f + 1, d, cur =>
    if keys.contains cur ∧ size cur ≤ tget 0 d cur then (cur, tset 0 d cur (tget 0 d cur - size cur))
    else
      let n := nextKey keys cur
      drr size quantum keys f (tset 0 d n (tget 0 d n + quantum n)) n
def Pkt.streamBytes (p : Pkt) : Nat := 36 + 4 * ceilDiv p.payload.length 4
def State.vcOnPort (s : State) (port : Nat) (p : Pkt) : Nat := vcOf (decide (s.planRole port = 2)) p
/-- Rules 5 and 6: the head packet of a virtual channel. `tagged` keys barns from 1 so that 0 is no key. -/
def State.vcHead (s : State) (port vc : Nat) : Option (QPkt × ArbState) :=
  let x := s.port port
  let qs := x.queue.filter fun q => decide (s.vcOnPort port q.pkt = vc)
  let transit := qs.find? fun q => q.arr.isSome
  let inj := qs.filter fun q => q.arr.isNone
  let pickInj : Option (QPkt × ArbState) :=
    let barns := inj.foldl (fun (l : List Nat) q => insertSorted q.pkt.barn l) []
    let headOf (b : Nat) : Option QPkt := inj.find? fun q => decide (q.pkt.barn = b)
    let size (k : Nat) : Nat := match headOf (k - 1) with
      | some q => q.pkt.streamBytes
      | none => 0
    let quantum (k : Nat) : Nat := 256 * match s.barn (k - 1) with
      | some b => b.weight
      | none => 1
    if barns.isEmpty then none
    else
      let d0 := (x.arb.barnDef.filter fun (k, _) => decide (k / 512 = vc)).map fun (k, v) => (k % 512, v)
      let (k, d) := drr size quantum (barns.map (· + 1)) 8192 d0 (tget 0 x.arb.barnTurn vc)
      let kept := d.filter fun (j, _) => barns.contains (j - 1)
      let others := x.arb.barnDef.filter fun (k, _) => decide (k / 512 ≠ vc)
      (headOf (k - 1)).map fun q => (q, { x.arb with
        barnDef := kept.foldl (fun m (j, v) => tset 0 m (512 * vc + j) v) others, barnTurn := tset 0 x.arb.barnTurn vc k })
  let asTransit (q : QPkt) : QPkt × ArbState := (q, { x.arb with lastTransit := tset false x.arb.lastTransit vc true })
  let asInj (r : QPkt × ArbState) : QPkt × ArbState := (r.1, { r.2 with lastTransit := tset false r.2.lastTransit vc false })
  match transit, pickInj with
  | some q, some r => if tget false x.arb.lastTransit vc then some (asInj r) else some (asTransit q)
  | some q, none => some (asTransit q)
  | none, some r => some (asInj r)
  | none, none => none
/-- Rules 1 to 4: the packet sent next. -/
def State.txPick (s : State) (port : Nat) : Option (QPkt × ArbState) :=
  let x := s.port port
  let head (tc lvl : Nat) : Option (QPkt × ArbState) :=
    match s.vcHead port (3 * tc + lvl) with
    | some r => if r.1.pkt.units ≤ tget 0 x.credit (3 * tc + lvl) then some r else none
    | none => none
  let tc0 := [2, 1, 0].findSome? fun l => head 0 l
  let level (l : Nat) : Option (QPkt × ArbState) :=
    match head 2 l with
    | some r => some r
    | none =>
      match head 1 l, head 3 l with
      | some a, some b =>
        let size (k : Nat) : Nat := if k = 1 then a.1.pkt.streamBytes else b.1.pkt.streamBytes
        let d0 := [(1, tget 0 x.arb.deficit (4 * l + 1)), (3, tget 0 x.arb.deficit (4 * l + 3))]
        let (k, d) := drr size (fun _ => 4096) [1, 3] 16 d0 (tget 0 x.arb.turn l)
        let r := if k = 1 then a else b
        some (r.1, { r.2 with
          deficit := tset 0 (tset 0 r.2.deficit (4 * l + 1) (tget 0 d 1)) (4 * l + 3) (tget 0 d 3), turn := tset 0 r.2.turn l k })
      | some a, none => some (a.1, { a.2 with deficit := tset 0 a.2.deficit (4 * l + 3) 0 })
      | none, some b => some (b.1, { b.2 with deficit := tset 0 b.2.deficit (4 * l + 1) 0 })
      | none, none => none
  match tc0 with
  | some r => some r
  | none => [2, 1, 0].findSome? level
/-- R396: the port logic stamps a TIME_EXCH packet of its own package as it frames it: T1 of a request, T3 of a response. -/
def State.stampTime (s : State) (p : Pkt) : Pkt × State :=
  if p.op ≠ 0x38 ∨ epPkg p.src ≠ s.selfNum then (p, s)
  else if leVal (p.payload.take 1) = 2 then ({ p with payload := p.payload.take 16 ++ leBytes 8 s.reckon ++ p.payload.drop 24 }.seal, s)
  else
    let seq := leVal ((p.payload.drop 2).take 2)
    (p, { s with clock := { s.clock with exch := s.clock.exch.map fun (n, t) => if n = seq then (n, s.reckon) else (n, t) } })
/-- A port with packets that it does not send: one that is down and awaits no salvage (R234), in maintenance or draining (R273, R288). -/
def State.portStops (s : State) (p : Nat) : Bool :=
  let x := s.port p
  let may (q : QPkt) : Bool := (s.reCourse q (p % 16) p false).isSome
  match x.st with
  | .up => (x.drain || x.maint.isSome) && x.queue.any may
  | .width => false
  | .maint => x.queue.any may
  | .lost => !x.held && !x.queue.isEmpty
  | _ => !x.queue.isEmpty
/-- The packet leaves such a port by another course; at a port that is down it ends where it has none. -/
def State.reCourseHead (s : State) (p : Nat) : State :=
  let x := s.port p
  let quiet := decide (x.st = .up) || decide (x.st = .maint)
  match x.queue.find? fun q => !quiet || (s.reCourse q (p % 16) p false).isSome with
  | none => s
  | some q =>
    let s1 := s.setPort p { x with queue := removeFirst q x.queue }
    if quiet then (s1.reCourse q (p % 16) p false).getD s else (reCourseAll s1 (p % 16) p [q]).2
/-- A packet that fails the conditions of R217 ends. -/
def State.courseInvalid (s : State) (p : Nat) (q : QPkt) : State :=
  ((((s.onPort p fun x => { x with queue := removeFirst q x.queue }).freeArrival q).endPkt q.pkt 0x0D).report 0x19 s.selfNum 0).onCong p CongRec.drop
/-- A packet is sent, re-coursed or ended at the transmitting port (R217, R223, R234). A packet of no virtual channel fails R217. -/
def execEdgeTxPick (port : PortId) (s : State) : Out :=
  let p := port.val
  let x := s.port p
  if s.portStops p then .next (s.reCourseHead p)
  else if x.st ≠ .up ∨ x.maint.isSome ∨ 2 ^ 36 ≤ x.keys.sigmaTx then .next s
  else match x.queue.find? fun q => decide (12 ≤ s.vcOnPort p q.pkt) with
    | some q => .next (s.courseInvalid p q)
    | none => match s.txPick p with
      | none => .next s
      | some (q, arb) =>
        if !s.hopOk q.pkt p then .next ((s.onPort p fun x => { x with arb := arb }).courseInvalid p q)
        else if 2048 < x.replay.length + q.pieces.length then .next s
        else
          let vc := s.vcOnPort p q.pkt
          let s1 := (s.onPort p fun x => { x with queue := removeFirst q x.queue, arb := arb }).freeArrival q
          let (pkt, s2) := s1.stampTime q.pkt
          .next ((s2.onPort p fun x => { x with
            credit := tset 0 x.credit vc (tget 0 x.credit vc - q.pkt.units)
            cong := { x.cong with txBytes := (x.cong.txBytes + q.pkt.payload.length) % 2 ^ 64 } }).sendPkt p ⟨pkt, q.arr.map fun a => (a.1, 12)⟩)

/-! Receiving (R212, R213, R216, R217, R228, R277 to R280). -/

/-- A packet at its final package on die `d`: it goes to its window or straight on. -/
def State.landed (s : State) (d : Nat) (p : Pkt) : State :=
  if p.stomped then s
  else if p.tc = 1 ∨ p.tc = 3 then
    let k := winKey (epPkg p.src) p.tc
    let w := s.dwin k
    if 32768 ≤ (65536 + p.wseq - w.expect) % 65536 then
      if w.skipped.contains p.wseq then
        (s.setDwin k { w with skipped := removeFirst p.wseq w.skipped, freed := w.freed + p.units }).endPkt p 0x0A
      else s
    else (s.setDwin k { w with held := w.held ++ [(d, p)] }).pump k
  else s.inside d p
/-- A packet as the receiving port `port` passes it on. -/
def State.portDeliver (s : State) (port : Nat) (p0 : Pkt) : State :=
  let glob := decide (s.planRole port = 2)
  let vc := vcOf glob p0
  let p := { p0 with hidx := p0.hidx + 1, lvl := if glob then p0.lvl + 1 else p0.lvl, lrun := if glob then 0 else p0.lrun + 1 }.rehop
  let s1 := s.onCong port fun c => { c with rxBytes := (c.rxBytes + p.payload.length) % 2 ^ 64 }
  let q : QPkt := ⟨p, some (port, vc)⟩
  if p.hidx < p.hops then s1.forward port q
  else if epPkg p.dst ≠ s.selfNum then (((s1.freeArrival q).endPkt p 0x0D).report 0x19 s.selfNum 0).onCong port CongRec.drop
  else (s1.freeArrival q).landed (port % 16) p
def portDeliverAll (s : State) (port : Nat) : List Pkt → State
  | [] => s
  | p :: l => portDeliverAll (s.portDeliver port p) port l
/-- Acknowledgements, NAK and the count of failed replays at the transmitter. -/
def EdgePort.takeAck (x : EdgePort) (ackSeq : Nat) (nak : Bool) : EdgePort :=
  let r := releaseTo ackSeq x.replay
  let moved := decide (r.length < x.replay.length)
  let conf := match x.keys.confirmSeq with
    | some c => moved && !(r.any fun f => decide (f.seq = c))
    | none => false
  let x1 := { x with replay := r, keys := if conf then { x.keys with confirmAcked := true } else x.keys }
  let x2 := if moved then { x1 with resent := false, replayFails := 0 } else x1
  if nak ∧ !r.isEmpty then { x2 with resent := true, replayFails := if x2.resent then x2.replayFails + 1 else x2.replayFails } else x2
/-- R278: the difference modulo 512 adds to the credit. -/
def EdgePort.takeCredit (x : EdgePort) (vc units : Nat) : EdgePort :=
  if 12 ≤ vc then x
  else { x with
    credit := tset 0 x.credit vc (tget 0 x.credit vc + (units + 512 - tget 0 x.credSeen vc) % 512), credSeen := tset 0 x.credSeen vc (units % 512) }
/-- A frame that cannot be used: later numbered frames are discarded until the replay (R277), and the note of Table 18-4. -/
def State.edgeDiscard (s : State) (p : Nat) (numbered : Bool) : State :=
  let x := s.port p
  (s.setPort p { x with discarding := true, nakDue := x.nakDue || (numbered && !x.discarding) }).report 0x09 (512 + p) 0
/-- The superframe of a frame: its number, the failures in a row, and the switch to the partner's new key (R280, R423). `tag` is 0 for a
tag that fails, 1 for the present key, 2 for the new key. -/
def EdgePort.superframe (x : EdgePort) (tag : Nat) : EdgePort :=
  let k := x.keys
  let k0 := if tag = 2 ∧ k.peerConfirmed then 
      { k with rxGen := k.rxGen + 1, sigmaRx := 0, rxPos := 0, peerConfirmed := false, rxMoved := true }.settle
    else k
  let fails := if k0.rxPos ≠ 0 then x.tagFails else if tag = 0 ∨ (tag = 2 ∧ !k.peerConfirmed) then x.tagFails + 1 else 0
  { x with
    tagFails := fails
    keys := if k0.rxPos = 7 then { k0 with rxPos := 0, sigmaRx := k0.sigmaRx + 1 } else { k0 with rxPos := k0.rxPos + 1 } }
/-- R276: what the two codewords make of the bytes that arrived wrong: the places that were corrected, or none. The code is linear, so the outcome
is that of the errors alone; a wrong correction counts as none (log 39). -/
def edgeOutcome (errs : List (Fin 256 × Byte)) : Option (List Nat) :=
  let w := hitBytes (List.replicate 256 0) errs
  if w.all (· == 0) then some []
  else match rsDecode 4 2 (evens w), rsDecode 4 2 (evens (w.drop 1)) with
    | some (a, i), some (b, j) =>
      if a.all (· == 0) && b.all (· == 0) then some (i.map (2 * ·) ++ j.map (2 * · + 1)) else none
    | _, _ => none
/-- R198: corrections are attributed to lanes by the striping of R167. -/
def countLanes (s : State) (n mask pos : Nat) (places : List Nat) : State :=
  places.foldl (fun s b =>
    let i := 16 * n + laneOf mask (pos + b)
    s.setLane i { s.lane i with corr := (s.lane i).corr + 1 }) s
/-- The corrections of a received frame, and the place of the next in the striping. -/
def State.edgeHeard (s : State) (p : Nat) (places : List Nat) : State :=
  let x := s.port p
  countLanes (s.setPort p { x with pos := x.pos + 256 }) (512 + p) x.laneMask x.pos places
/-- R288, step 3: a port that stops for maintenance enters it when every frame is acknowledged. -/
def State.maintReady (s : State) (p : Nat) : State :=
  let x := s.port p
  if x.st = .up ∧ x.maint.isSome ∧ x.replay.isEmpty ∧ x.ctlQ.isEmpty then (s.closeSuper p).enter p .maint else s
/-- An acknowledgement or NAK has arrived: the frames left go out again on NAK, and what waited for room or for the last of them goes on. -/
def State.ackTake (s : State) (p ackSeq : Nat) (nak : Bool) : State :=
  let s1 := s.onPort p fun x => x.takeAck ackSeq nak
  let s2 := if nak then s1.resendAll p else s1
  (flushControl 64 s2 p).maintReady p
/-- R277: a frame as decoded, with its superframe's tag. Light in any state but UP is unframed (R181, R286). -/
def execEdgeFrameRx (port : PortId) (f : EdgeFrame) (errs : List (Fin 256 × Byte)) (tag : Fin 3) (s : State) : Out :=
  let p := port.val
  if (s.port p).st ≠ .up ∨ f.kind = 2 then .next s
  else
    let sc := edgeOutcome errs
    let s0 := s.edgeHeard p (sc.getD [])
    let s1 := s0.onPort p fun x => if x.keyed then x.superframe tag.val else x
    let authOk := tag.val = 1 ∨ (tag.val = 2 ∧ (s.port p).keys.peerConfirmed) ∨ !(s.port p).keyed
    if 8 ≤ (s1.port p).tagFails then .next ((s1.report 0x18 p 0).portLost p)
    else if !authOk then .next (s1.onPort p fun x => { x with discarding := true, nakDue := true })
    else if sc.isNone ∨ 3 < f.kind ∨ (11 < f.cvc ∧ f.cvc < 15) ∨ !(f.pkts.all fun q => q.headerOk s.mtu) then .next (s1.edgeDiscard p true)
    else
      let s2 := (if f.avalid then s1.ackTake p f.ackSeq f.nak else s1).onPort p fun x => x.takeCredit f.cvc f.cunits
      if 8 ≤ (s2.port p).replayFails then .next (s2.portLost p)
      else if f.kind = 0 then .next s2
      else if f.seq ≠ (s2.port p).rxNext then
        (if (s2.port p).discarding then .next s2 else .next (s2.edgeDiscard p true))
      else
        let s3 := s2.onPort p fun x => { x with
          rxNext := (x.rxNext + 1) % 4096, delivered := true, discarding := false, nakDue := false
          lastDone := if f.pkts.isEmpty then x.lastDone else some f.seq }
        .next (portDeliverAll s3 p f.pkts)
/-- R277: every unacknowledged frame is sent again; a replay that is repeated without an acknowledgement has failed. -/
def execEdgeReplayTimeout (port : PortId) (s : State) : Out :=
  let p := port.val
  let x := s.port p
  if x.st ≠ .up ∨ x.replay.isEmpty then .next s
  else
    let n := if x.resent then x.replayFails + 1 else x.replayFails
    let s1 := s.setPort p { x with resent := true, replayFails := n }
    if 8 ≤ n then .next (s1.portLost p) else .next (s1.resendAll p)

/-! Sighting (R292 to R296). -/

def State.found (s : State) (p pkg port : Nat) : Bool :=
  let x := s.port p
  x.peerValid && decide (x.peer = pkg) && decide (x.peerPort = port)
def State.expected (s : State) (p : Nat) : Bool := s.peerSet p && decide (s.planRole p ≠ 0)
/-- The found partner of `p` is the partner that `q` expects. -/
def State.foundOf (s : State) (p q : Nat) : Bool := s.expected q && s.found p (s.planPeer q) (s.planPeerPort q)
/-- SWAP_WITH (R295). -/
def State.swapWith (s : State) (p : Nat) : Nat :=
  ((List.range 72).find? fun q => decide (q ≠ p) && s.foundOf p q).getD 127
/-- Table 11-10, in the order of R294. -/
def State.sightResult (s : State) (p : Nat) : Nat :=
  let x := s.port p
  let exp := s.expected p
  let wrong := exp && x.peerValid && !s.foundOf p p
  if exp ∧ !x.light then 0x10
  else if s.planRole p = 0 ∧ x.light then 0x11
  else if x.light ∧ x.width < 8 then 0x17
  else if x.peerValid ∧ x.peer = s.selfNum then 0x16
  else if !x.attested then 0x18
  else if wrong ∧ (List.range 72).any (fun q => decide (q ≠ p) && s.foundOf p q && s.foundOf q p) then 0x13
  else if wrong then 0x12
  else if exp ∧ x.peerValid ∧ (x.peerRole ≠ s.sightRole p ∨ x.peerExpect ≠ s.selfNum ∨ x.peerExpectPort ≠ p) then 0x14
  else if exp ∧ x.peerValid ∧ x.peerMtu ≠ s.planMtuCode then 0x15
  else if s.planRole p = 0 then 0x02
  else if s.planRole p = 3 ∧ !s.peerSet p then 0x03
  else if x.width = 16 then 0x00
  else 0x01
def sightDisagrees (r : Nat) : Bool := decide (0x10 ≤ r)
/-- The result as sighting reports it: DISAGREE ports hold theirs through their found partner and light. -/
def PortState.transient (x : PortState) : Bool :=
  match x with
  | .width => true | .maint => true | .lost => true | .lock => true | .deskew => true | .eye => true | .ident => true | .keying => true
  | _ => false
/-- Table 11-9. -/
def State.sightRecord (s : State) (p : Nat) : List Byte :=
  let x := s.port p
  leBytes 16 (packFields [(7, p), (1, boolNat x.st.transient), (8, s.sightResult p), (2, s.planRole p), (4, x.st.code), (5, x.width), (5, 0),
    (15, s.planPeer p), (1, boolNat (s.peerSet p)), (7, s.planPeerPort p), (1, 0), (15, if x.peerValid then x.peer else 0),
    (1, boolNat x.peerValid), (7, if x.peerValid then x.peerPort else 0), (1, 0),
    (7, if s.sightResult p = 0x12 ∨ s.sightResult p = 0x13 then s.swapWith p else 127), (1, 0), (16, x.rxPower), (24, 0)])
/-- The sighting report (R292). -/
def State.sightReport (s : State) : List Byte :=
  let n := ((List.range 72).filter fun p => portFitted s.variant p && sightDisagrees (s.sightResult p)).length
  padTo 32 (leBytes 2 1 ++ leBytes 2 s.selfNum ++ leBytes 1 n ++ leBytes 1 (boolNat s.accepted) ++ leBytes 2 0 ++ leBytes 8 s.reckon)
    ++ (List.range 72).flatMap fun p => if portFitted s.variant p then s.sightRecord p else leBytes 16 (p + 127 * 2 ^ 80)

/-! Training and light (R282 to R291). -/

def execProbeBurst (port : PortId) (s : State) : Out :=
  if (s.port port.val).st = .probe then .next (s.portOut port.val 0x10) else .next s
/-- R291: partner light is detected; `power` is the received power, 0.01 dBm. -/
def execPartnerLightDetect (port : PortId) (power : BitVec 16) (s : State) : Out :=
  let x := s.port port.val
  let y := { x with light := true, rxPower := power.toNat }
  if x.st = .probe then .next ((s.setPort port.val { y with lightOff := false }).enter port.val .lock)
  else .next (s.setPort port.val y)
def execPortLockAchieved (port : PortId) (mask : BitVec 16) (s : State) : Out :=
  let x := s.port port.val
  let w := (bitsSet 16 mask.toNat).length
  if x.st ≠ .lock then .next s
  else if w < 8 then .next (s.setPort port.val { x with width := w, laneMask := mask.toNat })
  else .next ((s.setPort port.val { x with width := w, laneMask := mask.toNat }).enter port.val .deskew)
def execPortDeskewDone (port : PortId) (cycles : BitVec 16) (s : State) : Out :=
  let x := s.port port.val
  if x.st = .deskew then .next (((s.setPort port.val { x with pos := 0 }).setLatency (512 + port.val) cycles.toNat).enter port.val .eye) else .next s
/-- The port's own identity goes out as a link-control frame; frames count from 0 on light newly trained (log 40). -/
def execPortEyeDone (port : PortId) (s : State) : Out :=
  let x := s.port port.val
  if x.st = .eye then
    .next (((s.setPort port.val { x with
      txSeq := 0, rxNext := 0, replay := [], ctlQ := [], delivered := false, discarding := false, nakDue := false }).portTrained port.val).enter port.val .ident)
  else .next s
/-- R285: the new width is the AND of both lane masks; below 8 the port is lost. -/
def execPortWidthAgreed (port : PortId) (mask : BitVec 16) (s : State) : Out :=
  let x := s.port port.val
  if x.st ≠ .width then .next s
  else
    let m := x.propose &&& mask.toNat
    let w := (bitsSet 16 m).length
    let s1 := s.setPort port.val { x with laneMask := m, width := w, st := .up }
    if w < 8 then .next (s1.portLost port.val) else .next s1
/-- R286: the received power, 0.01 dBm, has stayed below −20 dBm. -/
def execRxLightLoss (port : PortId) (power : BitVec 16) (s : State) : Out :=
  let x := s.port port.val
  if -2000 ≤ signedOf 16 power.toNat then .next (s.setPort port.val { x with rxPower := power.toNat })
  else
    let s1 := s.setPort port.val { x with light := false, rxPower := power.toNat }
    .next (if x.st = .up then s1.portLost port.val else s1)
def execModulatedLightStop (port : PortId) (s : State) : Out :=
  let x := s.port port.val
  if x.light then .next s else .next (s.setPort port.val { x with lightOff := true })
/-- R291: any lit port without received light; a port in DISAGREE stays there (R284), one in salvage ends it first. -/
def execReturnToProbe (port : PortId) (s : State) : Out :=
  let x := s.port port.val
  let lit := match x.st with
    | .dark => false | .probe => false | .disagree => false | .lost => !x.held | _ => true
  if x.light ∨ !lit then .next s
  else
    .next ((s.portLost port.val).onPort port.val fun x => { x with lightOff := true, st := if x.st = .lost then .lost else .probe })

/-- The return to UP is reported at the fabric manager's berth (R287). -/
def State.portUpNotice (s : State) (p : Nat) : State :=
  let x := s.port p
  s.postNotice 257 0x05 (leBytes 1 p ++ leBytes 2 x.peer ++ leBytes 1 x.peerPort)
/-- R282, R287: keys are confirmed; credits start with the receiver's whole slices (R278). -/
def execPortUp (port : PortId) (s : State) : Out :=
  let p := port.val
  let x := s.port p
  if x.st ≠ .keying ∨ !x.keyed then .next s
  else
    let credit := (s.slices.zipIdx.foldl (fun m (v, i) => tset 0 m i v) ([] : Map Nat))
    .next ((s.setPort p { x with
      st := .up, trained := true, credit := credit, credSeen := [], freed := [], lastDone := none, discarding := false, resent := false,
      replayFails := 0, tagFails := 0, freedSent := [], credPtr := 0 }).portUpNotice p)

/-! Maintenance (R288). -/

/-- R288, step 1: every destination that an alternative reaches through this port is reached through another port too. -/
def State.portSubstitute (s : State) (p : Nat) : Bool :=
  s.courses.all fun (k, _) =>
    let l := (s.liveAlts (k / 4)).map fun e => coursePort (coursePorts e) 0
    !l.contains p || l.any fun q => decide (q ≠ p)
/-- The port stops admitting packets, with a notice where it asks for the maintenance itself, and trains when every frame is acknowledged. -/
def State.maintStart (s : State) (p : Nat) (retrain notice : Bool) (ops : List Nat) : State :=
  let s1 := s.onPort p fun x => { x with maint := some ⟨retrain, ops⟩, maintDeferred := false }
  ((if notice then s1.sendControl p 4 0 else s1).drainQuiet p).maintReady p
/-- A request joins one that waits for a link or port (R207). -/
def State.joinDeferred (s : State) (l op : Nat) (force : Bool) : Option State :=
  match s.calQueue.find? fun c => decide (c.link = l) with
  | some c => some { s with calQueue := s.calQueue.map fun x => if x = c then { x with ops := x.ops ++ [op], force := x.force || force } else x }
  | none => none
/-- A request waits in the helm's calibration queue of 64 (R205). -/
def State.deferCal (s : State) (l : Nat) (retrain : Bool) (op : Nat) (force : Bool) : State :=
  match s.joinDeferred l op force with
  | some s1 => s1.opState op 4 0x20
  | none =>
    if 64 ≤ s.calQueue.length then s.opFin op 3 0x23
    else State.opState { s with calQueue := s.calQueue ++ [⟨l, retrain, [op], force⟩] } op 4 0x20
/-- The requests that wait for a link are joined by one that starts. -/
def State.takeDeferred (s : State) (l op : Nat) : List Nat × State :=
  (((s.calQueue.filter fun c => decide (c.link = l)).flatMap (·.ops)) ++ [op], { s with calQueue := s.calQueue.filter fun c => decide (c.link ≠ l) })
/-- A sweep or retrain asked of port `p`: it joins a running one, starts, is deferred (result 0x20) or refused. -/
def State.portCalAsk (s : State) (p : Nat) (retrain : Bool) (op : Nat) (force : Bool) : State :=
  let x := s.port p
  if !portFitted s.variant p then s.opFin op 3 0x22
  else match x.st, x.maint with
    | .maint, some m => (s.setPort p { x with maint := some ⟨m.retrain, m.ops ++ [op]⟩ }).opState op 1 0
    | .up, some m => (s.setPort p { x with maint := some ⟨m.retrain, m.ops ++ [op]⟩ }).opState op 1 0
    | .up, none =>
      if force ∨ s.portSubstitute p then
        let (ops, s1) := s.takeDeferred (512 + p) op
        ops.foldl (fun s n => s.opState n 1 0) (s1.maintStart p retrain true ops)
      else (s.deferCal (512 + p) retrain op force).onPort p fun x => { x with maintDeferred := true }
    | .width, _ => (s.deferCal (512 + p) retrain op force).onPort p fun x => { x with maintDeferred := true }
    | _, _ => s.opFin op 3 0x22
/-- The lanes of receiver `r` take the mask that a sweep or retrain found. -/
def State.setLanes (s : State) (r mask : Nat) : State :=
  (List.range 16).foldl (fun (s : State) k => s.setLane (16 * r + k) { s.lane (16 * r + k) with excluded := !bitAt mask k }) s
/-- A mask without the lanes of receiver `r` that stay excluded until the next bring-up (Table 18-4, kind 0x10). -/
def State.maskLeft (s : State) (r mask : Nat) : Nat :=
  (List.range 16).foldl (fun m k => if bitAt mask k && !(s.lane (16 * r + k)).retired then m + 2 ^ k else m) 0
/-- R288, step 4: the sweep or retrain ends and sets the width (R289) and the latency; below 8 lanes the port is lost. -/
def execMaintEnd (port : PortId) (done : MaintDone) (s : State) : Out :=
  let p := port.val
  let x := s.port p
  if x.st ≠ .maint then .next s
  else
    let ops := match x.maint with
      | some m => m.ops
      | none => []
    let mask := s.maskLeft (512 + p) done.mask.toNat
    let w := maskWidth mask
    let s1 := ((s.calApplyLink (512 + p) done.trims).setLanes (512 + p) mask).onPort p fun y => { y with laneMask := mask, width := w, pos := 0 }
    if w < 8 then .next (s1.portLost p)
    else
      let s2 := ((s1.onPort p fun y => { y with st := .up, maint := none }).setLatency (512 + p) done.cycles.toNat).portTrained p
      .next (((opFinAll s2 2 (if w = 16 then 0x00 else 0x01) ops).sendControl p 5 0).portUpNotice p)

/-! Link control (R283, R284, R420 to R423). -/

/-- The key exchange of a port starts afresh (R420); with the random generator stopped none starts (R416). -/
def State.toKeying (s : State) (p : Nat) : State :=
  if s.rngStopped then s
  else (s.onPort p fun x => { x with keyed := false, keys := { PortKeys.init with txGen := x.keys.txGen, rxGen := x.keys.rxGen } }).enter p .keying
/-- R284: the found partner is recorded; a result that disagrees leads to DISAGREE, any other to KEYING. -/
def State.identTake (s : State) (p : Nat) (lc : LinkControl) : State :=
  let s1 := s.onPort p fun x => { x with
    peer := lc.package, peerPort := lc.port, peerValid := true, peerRole := lc.role, peerMtu := lc.mtu, peerExpect := lc.expectPeer
    peerExpectPort := lc.expectPort, digest := lc.digest, attested := true }
  if sightDisagrees (s1.sightResult p) then s1.enter p .disagree else s1.toKeying p
/-- R422: a partner whose offer meets every check is attested. -/
def State.offerOk (s : State) (p : Nat) (lc : LinkControl) (verified : Bool) : Bool :=
  verified && !lc.factory && decide (s.peerMinSvn ≤ lc.svn) && decide (lc.certDigest = (s.port p).digest)
def State.toDisagree (s : State) (p : Nat) : State :=
  (s.onPort p fun x => { x with attested := false, keyed := false }).enter p .disagree
/-- A key exchange message (Table 17-7): an offer is checked and answered with an encapsulation, an encapsulation with the confirm, a confirm
that verifies lets the port carry data. -/
def State.keyTake (s : State) (p : Nat) (lc : LinkControl) (verified : Bool) : State :=
  let x := s.port p
  let up := decide (x.st = .up)
  if lc.lckind = 0x02 ∧ (lc.mtype = 1 ∨ lc.mtype = 3) then
    if !s.offerOk p lc verified then (if up then s.toKeying p else s.toDisagree p)
    else
      let s1 := if up ∧ !x.keys.updating then (s.onPort p fun x => { x with keys := { x.keys with updating := true } }).sendControl p 2 3 else s
      s1.sendControl p 2 2
  else if lc.lckind = 0x02 then s.sendControl p 3 0
  else if up then
    (if verified then s.onPort p fun x => { x with keys := { x.keys with peerConfirmed := true } } else s.toKeying p)
  else if verified then s.onPort p fun x => { x with
      keyed := true
      keys := { x.keys with sigmaTx := 0, sigmaRx := 0, txPos := 0, rxPos := 0, txFrames := [], txTag := 0, updating := false } }
  else s.toDisagree p
/-- R283: a link-control frame in SEQ order; `verified` is the outcome of its signatures, certificates and check codes. -/
def execLinkControlFrameRx (port : PortId) (seq : BitVec 12) (lc : LinkControl) (verified : Bool) (s : State) : Out :=
  let p := port.val
  let x := s.port p
  let hears := match x.st with
    | .ident => true | .keying => true | .up => true | .maint => true | _ => false
  if !hears ∨ lc.lckind = 0 ∨ 5 < lc.lckind then .next s
  else if seq.toNat ≠ x.rxNext then .next (s.edgeDiscard p true)
  else
    let s1 := s.setPort p { x with rxNext := (x.rxNext + 1) % 4096, delivered := true, discarding := false, nakDue := false }
    match x.st with
    | .ident => if lc.lckind = 0x01 then .next (s1.identTake p lc) else .next s1
    | .keying => if lc.lckind = 0x02 ∨ lc.lckind = 0x03 then .next (s1.keyTake p lc verified) else .next s1
    | .up =>
      if lc.package ≠ x.peer ∨ lc.port ≠ x.peerPort then .next ((s1.report 0x18 p 0).portLost p)
      else if lc.lckind = 0x04 then .next (if x.maint.isSome then s1 else s1.maintStart p false false [])
      else if lc.lckind = 0x02 ∨ lc.lckind = 0x03 then .next (s1.keyTake p lc verified)
      else .next s1
    | .maint =>
      if lc.lckind = 0x05 ∧ x.maint.all fun m => m.ops.isEmpty then .next ((s1.onPort p fun x => { x with st := .up, maint := none }).portUpNotice p)
      else .next s1
    | _ => .next s1
/-- R423: an update starts with an update offer while the port stays in UP. -/
def execKeyUpdateStart (port : PortId) (s : State) : Out :=
  let p := port.val
  let x := s.port p
  if x.st ≠ .up ∨ x.keys.updating ∨ s.rngStopped then .next s
  else .next ((s.onPort p fun x => { x with keys := { x.keys with updating := true } }).sendControl p 2 3)
/-- R287, R423: an update that has not completed in 1 s has failed: full KEYING. -/
def execKeyUpdateTimeout (port : PortId) (s : State) : Out :=
  let p := port.val
  let x := s.port p
  if x.st = .up ∧ x.keys.updating then .next (s.toKeying p) else .next s

end Sys2Proof.Machine
end

