-- ==== Sys2Proof/Machine/Photonic.lean ====
section
/-! DEFINITION. The photonic network: light supply, lost links and their substitutes, frames, candidate sets (spec/07 R165 to R176, R184 to R191),
and how sweeps and retrains are asked for (spec/08 R203 to R207). -/
namespace Sys2Proof.Machine

/-! Light supply (R184, R185). -/

def State.module (s : State) (m : Nat) : Module := tget Module.init s.modules m
def State.setModule (s : State) (m : Nat) (x : Module) : State := { s with modules := tset Module.init s.modules m x }
def Module.available (x : Module) : Bool := x.fitted && x.admitted && !x.failed && !x.released
def State.availModules (s : State) : List Nat := (List.range 12).filter fun m => (s.module m).available
/-- Station, group and place of a transmitter (Table 7-10). -/
def txPlace (t : Nat) : Nat × Nat :=
  let st := if t < 512 then t / 32 else (t - 512) % 16
  let u := if t < 512 then t % 32 else 32 + (t - 512) / 16
  if st < 8 then (if u < 10 then (4 * st, u) else (4 * st + 1 + (u - 10) / 9, (u - 10) % 9))
  else (4 * st + u / 9, u % 9)
def groupSize (g : Nat) : Nat := if g / 4 < 8 ∧ g % 4 = 0 then 10 else 9
/-- R185: the feeds of a group, in increasing place. -/
def assignFeeds (avail : List Nat) (g : Nat) : Nat → List (Option Nat)
  | 0 => []
  | j + 1 =>
    let done := assignFeeds avail g j
    done ++ [[(g + j) % 12, (g + j + 1) % 12, (g + j + 2) % 12].find? fun m => avail.contains m && !done.contains (some m)]
def feedOf (avail : List Nat) (t : Nat) : Option Nat :=
  let (g, j) := txPlace t
  ((assignFeeds avail g (groupSize g))[j]?).getD none
/-! Traffic that leaves a link (R175). -/

/-- Packets that die `d` sends before those that wait there for their dies already. -/
def State.waitFirst (s : State) (d : Nat) : List LinkPkt → State
  | [] => s
  | q :: l =>
    let s1 := s.waitFirst d l
    let k := 16 * d + q.toDie
    { s1 with dieWait := tset [] s1.dieWait k (q :: tget [] s1.dieWait k) }
/-- The packets of a link that have not reached its receiver, oldest first. -/
def Link.undelivered (x : Link) : List LinkPkt :=
  (x.replay.dropWhile fun f => decide (f.seq ≠ x.rxNext)).flatMap (·.pkts) ++ (x.txCur.map (·.1)).toList ++ x.txQ
def Link.emptied (x : Link) : Link :=
  { x with txQ := [], txCur := none, replay := [], sendAt := 0, rxNext := x.txNext, discarding := false, failedReplays := 0, ackDue := false, nakDue := false }
/-- A link gives its traffic up: what has not arrived waits at the die for another link. -/
def State.evict (s : State) (l : Nat) : State :=
  let x := s.link l
  (s.setLink l x.emptied).waitFirst (l / 32) x.undelivered
/-- The dark link, its traffic given up. -/
def State.goDark (s : State) (l : Nat) : State :=
  let s1 := s.evict l
  s1.setLink l { s1.link l with st := .dark, rx := none, mask := 0, work := .none, drain := false }
/-- The lanes of a receive link that are not excluded (R189). -/
def State.rxMask (s : State) (r : Nat) : Nat :=
  (List.range 16).foldl (fun m k => if (s.lane (16 * r + k)).excluded then m else m + 2 ^ k) 0
/-- R170: a link that trained or changed width has another latency, which the spec does not give (log 4). -/
def State.newLatency (s : State) (l : Nat) : State :=
  let (v, s1) := s.free 16
  s1.setLatency l v

/-! Lost links and their substitutes (R188, R190). -/

/-- The candidate receive side of a substitute of die `e`: the lowest healthy spare, else the highest pool receive link still in use. -/
def State.rxTaken (s : State) (r : Nat) : Bool := s.rxOut.contains r || s.links.any fun (_, x) => x.subst && decide (x.rx = some r)
def State.spareRx (s : State) (e : Nat) : Option Nat :=
  let ns := (List.range 32).map fun n => 32 * e + n
  match ns.find? fun r => decide (linkRole r = .spare) && !s.rxOut.contains r && !(s.links.any fun (_, x) => decide (x.rx = some r)) with
  | some r => some r
  | none => ns.reverse.find? fun r => isPool r && !s.rxTaken r
/-- The transmit side: a dark spare of die `d`, else the highest healthy pool link; without a feed neither is healthy (R188). -/
def State.spareTx (s : State) (d : Nat) : Option Nat :=
  let avail := s.availModules
  let ns := (List.range 32).map fun n => 32 * d + n
  match ns.find? fun l => decide (linkRole l = .spare) && decide ((s.link l).st = .dark) && (feedOf avail l).isSome with
  | some l => some l
  | none => ns.reverse.find? fun l => isPool l && !(s.link l).taken && decide ((s.link l).st ≠ .withdrawn) && decide ((s.link l).st ≠ .lost)
      && (feedOf avail l).isSome
def workOps (w : LinkWork) : List Nat :=
  match w with
  | .calib _ ops _ => ops
  | .calWait _ ops _ => ops
  | _ => []
def workSub (w : LinkWork) : Option Nat :=
  match w with
  | .calib _ _ sub => sub
  | .calWait _ _ sub => sub
  | _ => none
/-- A spare that carried a swept link's traffic goes dark again (R204). -/
def State.dropSub (s : State) (w : LinkWork) : State :=
  match workSub w with
  | some t => s.goDark t
  | none => s
/-- A procedure on a link ends with result `r` (R207). -/
def State.endWork (s : State) (l r : Nat) : State :=
  let w := (s.link l).work
  let s1 := (opFinAll s 3 r (workOps w)).dropSub w
  s1.setLink l { s1.link l with work := .none }
/-- The attachment link of a port that the variant does not fit (R173). -/
def State.linkAbsent (s : State) (l : Nat) : Bool :=
  match attachPort l with
  | some p => !portFitted s.variant p
  | none => false
/-- A link is lost: a running procedure ends with 0x24 (R207), an attachment takes its edge port with it (R286), and the loss is reported
as kind `kind` (Table 18-4): 0x12 for one that finds no feed, dark as it may be. -/
def State.linkLost (s : State) (l kind : Nat) : State :=
  let x := s.link l
  if x.st = .lost ∨ x.st = .withdrawn ∨ (x.st = .dark ∧ (attachPort l).isNone ∧ kind ≠ 0x12) ∨ s.linkAbsent l then s
  else
    let s1 := s.endWork l 0x24
    let s2 := (s1.setLink l { s1.link l with st := .lost, discarding := false, drain := false }).report kind l 0
    match attachPort l with
    | some p => s2.portLost p
    | none => s2
/-- R188: a port whose transmitter goes dark is lost, and the package reports its attachment link. -/
def State.txDark (s : State) (t : Nat) : State :=
  if t < 512 then s.linkLost t 0x12
  else
    let p := t - 512
    if (s.port p).st = .dark then s else (s.portLost p).report 0x12 (32 * (p % 16) + [1, 7, 13, 19, 25].getD (p / 16) 1) 0
/-- A pool link is withdrawn (R190). -/
def State.withdraw (s : State) (l : Nat) : State :=
  let s1 := s.goDark l
  s1.setLink l { s1.link l with st := .withdrawn, subst := false }
/-- The transmit link `t` that is to carry a lost standing path: a pool link gives its traffic up, ends its procedure and is reported. -/
def State.takeTx (s : State) (t : Nat) : State :=
  if isPool t then ((s.endWork t 0x24).goDark t).report 0x11 t 0 else s
/-- The receive link `q` that is to end it: paths that end there go dark, and a pool link leaves the pool. -/
def State.takeRx (s : State) (q : Nat) : State :=
  let s1 := (s.links.filter fun (_, x) => decide (x.rx = some q)).foldl (fun s y => (s.endWork y.1 0x24).goDark y.1) s
  if isPool q then { s1 with rxOut := insertSorted q s1.rxOut } else s1
/-- R190: the helm replaces a lost standing link, or withdraws a lost pool link. The substitute has the SEQ state of the link that it replaces,
with every unacknowledged frame to be sent again. -/
def State.substitute (s : State) (l : Nat) : State :=
  let x := s.link l
  if x.st ≠ .lost then s
  else if isPool l ∧ !x.subst then s.withdraw l
  else match linkRole l, x.subst, x.rx with
    | .attachment _, _, _ => s
    | .spare, false, _ => if x.rx.isSome then (s.evict l).setLink l { (s.evict l).link l with rx := none, mask := 0 } else s
    | _, _, none => s
    | _, _, some r =>
      match s.spareTx (l / 32), s.spareRx (r / 32) with
      | some t, some q =>
        let s1 := s.setLink l { x.emptied with rx := none, subst := false, mask := 0, drain := false }
        let s2 := (s1.takeTx t).takeRx q
        let y : Link := { x with
          st := .live, mask := s2.rxMask q, rx := some q, subst := true, taken := isPool t, work := .none, drain := false, sendAt := 0, pos := 0, failedReplays := 0 }
        let s3 := (s2.setLink t y).newLatency t
        if maskWidth y.mask < 8 then s3.linkLost t 0x11 else s3
      | _, _ =>
        let s1 := s.evict l
        (s1.setLink l { s1.link l with rx := none, mask := 0 }).report 0x51 s.selfNum 0
def execLinkSubstitution (link : LinkId) (s : State) : Out := .next (s.substitute link.val)

/-! Frames (R167 to R169). -/

/-- The record that a good frame carries acts on transmit link `m`, of the die that receives the frame; die `a` sent it to die `b`. -/
def State.recordTake (s : State) (a b m : Nat) (n : Nat × Nat × Bool) : State :=
  let y := { (s.link m).takeAck n.2.1 n.2.2 with ackDue := false, nakDue := false }
  let s1 := { s.setLink m y with ackPtr := tset 0 s.ackPtr (16 * a + b) (m + 1) }
  if 8 < y.failedReplays then s1.linkLost m 0x11 else s1
/-- R169: what the receiver of link `l` at die `b` does with a good frame: one in order is delivered, any other data frame is discarded. -/
def State.frameTake (s : State) (l b : Nat) (f : Option LFrame) : State :=
  let y := s.link l
  match f with
  | none => s
  | some f =>
    if f.seq = y.rxNext then
      dieTakeAll (s.setLink l { y with rxNext := (f.seq + 1) % 256, discarding := false, ackDue := true, nakDue := false }) b f.pkts
    else if y.discarding then s
    else (s.setLink l { y with discarding := true, nakDue := true }).report 0x09 l 0
/-- R169: transmit link `link` sends its next frame, with the next record of its die, and the receiver takes it: it decodes the bytes as they
arrive, counts corrections by lane (R198), lets the record act, and delivers. Light of a link that is not live, or that something is
changing, is unframed (R181). Attachments carry the frames of their ports (R173). -/
def execLinkFrameRx (link : LinkId) (f : LinkFrame) (s : State) : Out :=
  let l := link.val
  let x := s.link l
  match x.rx with
  | none => .next s
  | some r =>
    if !x.framed ∨ !isFabric l then .next s
    else
      let a := l / 32
      let b := r / 32
      let (fr, x1) := x.nextFrame
      let m := s.nextRecord a b
      let rc := m.map s.recordOf
      let sent := frameBytes fr rc
      let s1 := s.setLink l { x1 with pos := x1.pos + 256 }
      match frameDecode (hitBytes sent f.errs) with
      | some (got, places) =>
        if got = sent then
          let s2 := countLanes s1 r x.mask x.pos places
          let s3 := match m, rc with
            | some m, some n => s2.recordTake a b m n
            | _, _ => s2
          .next (s3.frameTake l b fr)
        else .next ((s1.setLink l { s1.link l with discarding := true, nakDue := true }).report 0x09 l 0)
      | none => .next ((s1.setLink l { s1.link l with discarding := true, nakDue := true }).report 0x09 l 0)

/-! Candidate sets (R175, R176). -/

/-- Whether a packet on a link started on die `d`: the edge port by which it came, or the die of its source, says so. -/
def State.startedOn (s : State) (d : Nat) (q : LinkPkt) : Bool :=
  match q.arr with
  | some (port, _) => decide (port % 16 = d)
  | none => match s.srcDie q.pkt with
    | some c => decide (c = d)
    | none => true
/-- The packets of a link, delivered or not yet acknowledged as they may be. -/
def Link.held (x : Link) : List LinkPkt := x.replay.flatMap (·.pkts) ++ (x.txCur.map (·.1)).toList ++ x.txQ
/-- What keeps the candidate set of die `d` toward die `e` from changing to `want`: unacknowledged frames and begun packets on its links, packets
that a link has yet to take, and with a relay, packets of `d` not yet delivered at `e`. -/
def State.candBusy (s : State) (d e : Nat) (want : List Nat) : Bool :=
  let now := tget [] s.cands (16 * d + e)
  let direct (l : Nat) : Bool := match (s.link l).rx with
    | some r => decide (r / 32 = e)
    | none => true
  now.any (fun l =>
    let x := s.link l
    !x.replay.isEmpty || x.txCur.isSome || (x.carries && x.txQ.any fun q => decide (q.toDie = e)))
  || (!(now.all direct && want.all direct) && s.links.any fun (_, x) => x.held.any fun q => decide (q.toDie = e) && s.startedOn d q)
/-- The packets that waited take a link each, or find none. -/
def linkSendAll (s : State) (d : Nat) : List LinkPkt → State
  | [] => s
  | q :: l => linkSendAll ((s.linkSend d q).getD (s.unreachedAt d q.pkt)) d l
/-- The packets toward die `e` that links which carry no longer have yet to frame go back to the die. -/
def takeBack (s : State) (e : Nat) : List Nat → List LinkPkt × State
  | [] => ([], s)
  | l :: ls =>
    let x := s.link l
    let back := if x.carries then [] else x.txQ.filter fun q => decide (q.toDie = e)
    let (more, s1) := takeBack (if x.carries then s else s.setLink l { x with txQ := x.txQ.filter fun q => decide (q.toDie ≠ e) }) e ls
    (back ++ more, s1)
/-- Sweeps and retrains whose links have drained, and left every candidate set of die `d`, begin (R204). -/
def State.startDrained (s : State) (d : Nat) : State :=
  s.links.foldl (fun (s : State) (y : Nat × Link) =>
    let l := y.1
    let x := s.link l
    match x.work with
    | .calWait r ops sub =>
      if l / 32 = d ∧ x.idle ∧ s.cands.all (fun c => decide (c.1 / 16 ≠ d) || !c.2.contains l) then
        ops.foldl (fun s n => s.opState n 1 0) (s.setLink l { x with work := .calib r ops sub })
      else s
    | _ => s) s
/-- A set changes at a moment when no link of it holds an unacknowledged frame; the packets that waited for it then go. -/
def execCandidateSetChange (die peer : DieId) (s : State) : Out :=
  let d := die.val
  let e := peer.val
  let k := 16 * d + e
  let now := tget [] s.cands k
  let want := s.wantCands d e
  let wait := tget [] s.dieWait k
  if die = peer ∨ (now ≠ want ∧ s.candBusy d e want) then .next s
  else if now = want ∧ wait.isEmpty then .next (s.startDrained d)
  else
    let (back, s1) := takeBack s e now
    .next ((linkSendAll { s1 with cands := tset [] s1.cands k want, dieWait := tset [] s1.dieWait k [] } d (back ++ wait)).startDrained d)

/-! Sweeps and retrains of links (R204, R205, R207). -/

/-- R204, option 1: another live link toward the same die; option 2: an unused healthy spare on both sides. -/
def State.otherCand (s : State) (l : Nat) : Bool :=
  match (s.link l).rx with
  | some r => (s.directLinks (l / 32) (r / 32)).any fun m => decide (m ≠ l)
  | none => false
def State.sparePair (s : State) (l : Nat) : Option (Nat × Nat) :=
  match (s.link l).rx with
  | none => none
  | some r =>
    let t := 32 * (l / 32) + 25
    let q := 32 * (r / 32) + 25
    if linkRole t = .spare ∧ linkRole q = .spare ∧ (s.link t).st = .dark ∧ (feedOf s.availModules t).isSome ∧ !s.rxOut.contains q
        ∧ 8 ≤ maskWidth (s.rxMask q) ∧ !(s.links.any fun (_, x) => decide (x.rx = some q)) then some (t, q)
    else none
def State.hasSubstitute (s : State) (l : Nat) : Bool := s.otherCand l || (s.sparePair l).isSome
/-- The procedure begins: with a substitute the link first drains and leaves its candidate sets, and the spare pair joins them where option 1
fails; without one, which must be forced, its light is unframed at once. -/
def State.calStart (s : State) (l : Nat) (retrain : Bool) (ops : List Nat) : State :=
  let go (s : State) (w : LinkWork) : State := s.setLink l { s.link l with work := w }
  if s.otherCand l then go s (.calWait retrain ops none)
  else match s.sparePair l with
    | some (t, q) =>
      go ((s.setLink t { s.link t with st := .live, mask := s.rxMask q, rx := some q, pos := 0 }).newLatency t) (.calWait retrain ops (some t))
    | none => ops.foldl (fun s n => s.opState n 1 0) (go s (.calib retrain ops none))
/-- A sweep or retrain asked for transmit link `l` below 512, or for edge port `l` − 512: refused, joined, started or deferred. -/
def State.calAsk (s : State) (l : Nat) (retrain : Bool) (op : Nat) (force : Bool) : State :=
  if 512 ≤ l then s.portCalAsk (l - 512) retrain op force
  else match attachPort l with
  | some p => s.portCalAsk p retrain op force
  | none =>
    let x := s.link l
    if x.st = .dark ∨ x.st = .withdrawn ∨ x.st = .lost then s.opFin op 3 0x22
    else match x.work with
      | .calib r ops sub => (s.setLink l { x with work := .calib r (ops ++ [op]) sub }).opState op 1 0
      | .calWait r ops sub => s.setLink l { x with work := .calWait r (ops ++ [op]) sub }
      | w =>
        if x.st = .live ∧ w = .none ∧ (force ∨ s.hasSubstitute l) then
          let (ops, s1) := s.takeDeferred l op
          s1.calStart l retrain ops
        else if op = 0 ∧ s.calQueue.any fun c => decide (c.link = l) then s
        else s.deferCal l retrain op force
/-- R205: a deferred request starts as soon as it can: its link is live, nothing changes it, and it is forced or has a substitute. A link
that has gone dark, been withdrawn or lost ends it. -/
def State.deferredStart (s : State) (l : Nat) : State :=
  match s.calQueue.find? fun c => decide (c.link = l) with
  | none => s
  | some c =>
    let s1 := { s with calQueue := removeFirst c s.calQueue }
    if 512 ≤ l then
      let x := s.port (l - 512)
      if x.st = .up ∧ x.maint.isNone ∧ (c.force ∨ s.portSubstitute (l - 512)) then
        c.ops.foldl (fun s n => s.opState n 1 0) (s1.maintStart (l - 512) c.retrain true c.ops)
      else if x.st = .up ∨ x.st = .width ∨ x.st = .maint then s
      else opFinAll (s1.onPort (l - 512) fun x => { x with maintDeferred := false }) 3 0x24 c.ops
    else
      let x := s.link l
      if x.st = .lost ∨ x.st = .withdrawn ∨ x.st = .dark then opFinAll s1 3 0x24 c.ops
      else if x.st = .live ∧ x.work = .none ∧ (c.force ∨ s.hasSubstitute l) then s1.calStart l c.retrain c.ops
      else s
def execDeferredCalStart (link : Fin 584) (s : State) : Out := .next (s.deferredStart link.val)
/-- The end of a procedure: the link is framed again at the lanes that trained, and what was not acknowledged goes out again; below 8 lanes it
is lost with result 0x24. -/
def State.calEnd (s : State) (l : Nat) (retrain : Bool) (mask cycles : Nat) : State :=
  let x := s.link l
  match x.work with
  | .calib r ops _ =>
    if r ≠ retrain then s
    else if maskWidth mask < 8 then s.linkLost l 0x11
    else
      let lanes := match s.laneLink l with
        | some q => s.setLanes q mask
        | none => s
      let s1 := lanes.dropSub x.work
      opFinAll ((s1.setLink l { s1.link l with work := .none, mask := mask, sendAt := 0, pos := 0 }).setLatency l cycles)
        2 (if mask = 0xFFFF then 0x00 else 0x01) ops
  | _ => s
/-- R203: a sweep retrims gain, swing and every ring of the link; a retrain records its skew. `trims` are the new codes. -/
def State.calDone (s : State) (l : Nat) (retrain : Bool) (mask cycles : Nat) (trims : List (BitVec 32 × Byte)) : State :=
  match (s.link l).work with
  | .calib r _ _ =>
    if r = retrain then
      (s.calApplyLink l trims).calEnd l retrain (match s.laneLink l with
        | some q => s.maskLeft q mask
        | none => mask) cycles
    else s
  | _ => s
def execLinkSweepComplete (link : LinkId) (mask cycles : BitVec 16) (trims : List (BitVec 32 × Byte)) (s : State) : Out :=
  .next (s.calDone link.val false mask.toNat cycles.toNat trims)
def execLinkRetrainComplete (link : LinkId) (mask cycles : BitVec 16) (trims : List (BitVec 32 × Byte)) (s : State) : Out :=
  .next (s.calDone link.val true mask.toNat cycles.toNat trims)

/-! Lane faults and width (R189, R285). -/

/-- A port proposes a width (R285): from UP the superframe is completed first; each change is reported with its lane. -/
def State.portWidth (s : State) (p mask : Nat) : State :=
  let s1 := if (s.port p).st = .up then s.closeSuper p else s
  (s1.onPort p fun x => { x with propose := mask }).enter p .width
/-- A lane leaves the width: the width change begins, and the lane is marked. A lane fault (`fault`) is judged only on a live link that nothing is
changing (R181), and reported; a ring's re-lock may join a width change that runs. -/
def State.excludeLane (s : State) (l k : Nat) (fault : Bool) : State :=
  let note (s : State) : State := if fault then s.report 0x10 (16 * l + k) 0 else s
  if 512 ≤ l then
    let p := l - 512
    let x := s.port p
    let m := if x.st = .width then x.propose else x.laneMask
    if ((x.st = .up ∧ x.maint.isNone) ∨ (x.st = .width ∧ !fault)) ∧ bitAt m k then
      note ((s.portWidth p (m - 2 ^ k)).setLane (16 * l + k) { s.lane (16 * l + k) with excluded := true })
    else s
  else
    let x := s.link l
    let ok : Bool := match x.work with
      | .none => true
      | .width _ => !fault
      | _ => false
    let m := match x.work with
      | .width m => m
      | _ => x.mask
    match s.laneLink l with
    | some r =>
      if x.st = .live ∧ ok ∧ bitAt m k then
        note (((s.setLink l { x with work := .width (m - 2 ^ k) }).train l 5 (m - 2 ^ k) false).setLane (16 * r + k)
          { s.lane (16 * r + k) with excluded := true })
      else s
    | none => s
def execLaneExclusion (link : Fin 584) (lane : Fin 16) (s : State) : Out := .next (s.excludeLane link.val lane.val true)
/-- The width change of a link ends: it has a new latency, and below width 8 it is lost. -/
def State.linkWidth (s : State) (l mask : Nat) : State :=
  let s1 := s.setLink l { s.link l with mask := mask, work := .none, pos := 0 }
  if maskWidth mask < 8 then s1.linkLost l 0x11 else s1.newLatency l
/-- The width change of an edge port ends. -/
def State.portWidthEnd (s : State) (p mask : Nat) : State :=
  let w := maskWidth mask
  let s1 := s.onPort p fun x => { x with laneMask := mask, width := w, st := .up, pos := 0 }
  if w < 8 then s1.portLost p else (s1.newLatency (512 + p)).portTrained p
/-- R189: the width change ends at the width that both ends' proposals have left (TRAINING_FRAME_RX ANDs them). -/
def execWidthChangeComplete (link : Fin 584) (s : State) : Out :=
  let l := link.val
  if 512 ≤ l then
    let x := s.port (l - 512)
    .next (if x.st ≠ .width then s else s.portWidthEnd (l - 512) x.propose)
  else match (s.link l).work with
    | .width m => .next (s.linkWidth l m)
    | _ => .next s
/-- A lane comes back: the width is restored by another width change (Table 8-6). -/
def State.restoreLane (s : State) (l k : Nat) : State :=
  if 512 ≤ l then
    let p := l - 512
    let x := s.port p
    let e := s.lane (16 * l + k)
    if x.st = .up ∧ x.maint.isNone ∧ e.excluded ∧ !e.retired ∧ !bitAt x.laneMask k then
      ((s.portWidth p (x.laneMask + 2 ^ k)).setLane (16 * l + k) { e with excluded := false }).report 0x10 (16 * l + k) 0
    else s
  else
    let x := s.link l
    match s.laneLink l with
    | some r =>
      let e := s.lane (16 * r + k)
      if x.st = .live ∧ x.work = .none ∧ e.excluded ∧ !e.retired ∧ !bitAt x.mask k then
        ((s.setLink l { x with work := .width (x.mask + 2 ^ k) }).train l 5 (x.mask + 2 ^ k) false).setLane (16 * r + k) { e with excluded := false }
      else s
    | none => s
def execLaneRetrainComplete (link : Fin 584) (lane : Fin 16) (s : State) : Out := .next (s.restoreLane link.val lane.val)

/-! Feed failover (R186 to R188). -/

/-- R188, Table 7-11: with the feeds assigned anew, a transmitter that finds none goes dark, and a live link whose feed changed relocks, its light
unframed until the receiver's handshake. `old` are the modules that were available. -/
def State.refeed (s : State) (old : List Nat) : State :=
  let avail := s.availModules
  (List.range 584).foldl (fun s t =>
    if (feedOf avail t).isNone then s.txDark t
    else if feedOf old t ≠ feedOf avail t ∧ isFabric t ∧ t < 512 ∧ (s.link t).st = .live ∧ (s.link t).work = .none then
      (s.setLink t { s.link t with work := .relock }).train t 4 (s.link t).mask false
    else s) s
/-- The relock ends: what was not acknowledged goes out again. -/
def State.relocked (s : State) (l : Nat) : State := s.setLink l { s.link l with work := .none, sendAt := 0, pos := 0 }
/-- R186: the module is marked failed and the groups are recomputed; the failure is reported, and noticed at berth 256. -/
def State.moduleFail (s : State) (m : Nat) : State :=
  let x := s.module m
  if !x.fitted ∨ x.failed then s
  else
    let s1 := s.setModule m { x with failed := true }
    if x.admitted ∧ !x.released then
      ((s1.report 0x13 m 0).postNotice 256 0x07 (leBytes 1 m ++ leBytes 1 1)).refeed s.availModules
    else s1
/-- R186, R203: the feed retrim sets modulator offsets, feed levels and driver swing of the transmitters whose feed is another than under the
modules `old`; `trims` are the new codes. -/
def State.feedRetrim (s : State) (old : List Nat) (trims : List (BitVec 32 × Byte)) : State :=
  let avail := s.availModules
  let moved (t : Nat) : Bool := decide (feedOf old t ≠ feedOf avail t)
  s.calApply (fun sec off =>
    (decide (sec = 1) && decide (off < 18688) && moved (off / 32)) || (decide (sec = 4) && moved (off / 16))
      || (decide (sec = 7) && decide (off < 1536) && decide (old ≠ avail))) trims
def execLighthouseModuleFailure (m : ModuleId) (trims : List (BitVec 32 × Byte)) (s : State) : Out :=
  .next ((s.moduleFail m.val).feedRetrim s.availModules trims)

end Sys2Proof.Machine
end

