-- ==== Sys2Proof/Machine/Paths.lean ====
section
/-! DEFINITION. How the steering controller carries requests out (spec/07 R177 to R183, R191). -/
namespace Sys2Proof.Machine

/-- Fault handling, a sweep or a substitution to come goes before an entry (R191, R207). -/
def State.linkBusy (s : State) (l : Nat) : Bool := decide ((s.link l).work ≠ .none) || decide ((s.link l).st = .lost)
/-- An entry names a withdrawn link, or one that carries a substituted path now (R190). -/
def State.entryWithdrawn (s : State) (e : PathEntry) : Bool :=
  (s.link e.tx).taken || decide ((s.link e.tx).st = .withdrawn) || (!e.dark && s.rxOut.contains e.rx)
/-- An entry is skipped when it names a withdrawn link, or one whose cluster the barn no longer owns (R183). -/
def State.entrySkips (s : State) (b : Nat) (e : PathEntry) : Bool :=
  s.entryWithdrawn e || decide (s.clusterBarn (linkCluster e.tx) ≠ some b)
    || (!e.dark && decide (s.clusterBarn (linkCluster e.rx) ≠ some b))
/-- Another bus drops into receive link `r` (R174). -/
def State.rxHeld (s : State) (l r : Nat) : Bool := s.links.any fun (m, x) => decide (m ≠ l) && decide (x.rx = some r) && decide (x.st ≠ .dark)
/-- A link whose cells have left their path. -/
def State.offPath (s : State) (l : Nat) (st : LinkSt) : State :=
  s.setLink l { s.link l with st := st, rx := none, mask := 0, drain := false }
/-- The state of an entry at the start of its time (Table 7-8). A receive link that another path still holds is waited for. -/
def State.commitEntry (s : State) (b : Nat) (e : PathEntry) : SteerEntry × State :=
  let x := s.link e.tx
  if s.entrySkips b e then (⟨e, .skipped⟩, s)
  else if s.linkBusy e.tx then (⟨e, .waiting⟩, s)
  else if x.st = .live then
    (if !e.dark ∧ x.rx = some e.rx then (⟨e, .done⟩, s) else (⟨e, .drain⟩, s.setLink e.tx { x with st := .changing, drain := true }))
  else if e.dark then (⟨e, .done⟩, s.offPath e.tx .dark)
  else if x.st = .staged ∧ x.rx = some e.rx then (⟨e, .relock⟩, (s.setLink e.tx { x with st := .changing }).train e.tx 4 (s.rxMask e.rx) false)
  else if s.rxHeld e.tx e.rx then (⟨e, .waiting⟩, s)
  else (⟨e, .switching⟩, s.setLink e.tx { x with st := .changing, rx := some e.rx, drain := false })
def commitAll (s : State) (b : Nat) : List PathEntry → List SteerEntry × State
  | [] => ([], s)
  | e :: l =>
    let (x, s1) := s.commitEntry b e
    let (xs, s2) := commitAll s1 b l
    (x :: xs, s2)
/-- R179: the live paths, of links that the set does not name, that end at receive links which the set assigns to other links: they are darkened. -/
def State.clears (s : State) (b : Nat) (es : List PathEntry) : List PathEntry :=
  es.flatMap fun e =>
    if e.dark ∨ s.entrySkips b e then []
    else (s.links.filter fun (l, x) => decide (x.rx = some e.rx) && decide (x.st = .live) && isPool l && !x.subst && !(es.any fun d => decide (d.tx = l))).map
      fun y => ⟨y.1, e.rx, true⟩
def stageEntry (s : State) (b : Nat) (e : PathEntry) : State :=
  let x := s.link e.tx
  if s.entrySkips b e ∨ e.dark ∨ x.st ≠ .dark ∨ s.rxHeld e.tx e.rx then s
  else s.setLink e.tx { x with st := .staged, rx := some e.rx }
/-- A staging whose TX or RX a later commit changes is cancelled (R179). -/
def State.cancelStaged (s : State) (es : List PathEntry) : State :=
  s.links.foldl (fun (s : State) (y : Nat × Link) =>
    let hit := es.any fun e => decide (e.tx = y.1) || (!e.dark && decide (y.2.rx = some e.rx))
    let same := es.any fun e => !e.dark && decide (e.tx = y.1) && decide (y.2.rx = some e.rx)
    if y.2.st = .staged ∧ hit ∧ !same then s.offPath y.1 .dark else s) s
/-- The next request of a barn's queue starts; a set that is not loaded or not the barn's refuses it (Table 7-9). -/
def execSteerRequestStart (barn : BarnId) (s : State) : Out :=
  let b := barn.val
  let x := s.steer b
  match x.cur, x.queue with
  | none, q :: rest =>
    let s0 := s.setSteer b { x with queue := rest }
    match tget none s.pathSets q.set with
    | none => .next (s0.steerEnd b q 2)
    | some set =>
      if set.barn ≠ b then .next (s0.steerEnd b q 3)
      else if q.stage then
        let s1 := set.entries.foldl (fun s e => stageEntry s b e) s0
        .next (s1.setSteer b { s1.steer b with cur := some (q, []) })
      else
        let s1 := s0.cancelStaged (set.entries.filter fun e => !s0.entrySkips b e)
        let (es, s2) := commitAll s1 b (s1.clears b set.entries ++ set.entries)
        .next (s2.setSteer b { s2.steer b with cur := some (q, es) })
  | _, _ => .next s
/-- R182: 0x01 where an entry was skipped that names a withdrawn link. -/
def State.setReduced (s : State) (n : Nat) : Bool := match tget none s.pathSets n with
  | some set => set.entries.any s.entryWithdrawn
  | none => false
/-- R179: a stage ends 2.5 µs after it started. -/
def execSteerStageEnd (barn : BarnId) (s : State) : Out :=
  let x := s.steer barn.val
  match x.cur with
  | some (q, _) =>
    if q.stage then .next ((s.setSteer barn.val { x with cur := none }).steerEnd barn.val q (boolNat (s.setReduced q.set))) else .next s
  | none => .next s
/-- The request entry that is changing a transmit link, with its barn. -/
def State.entryOf (s : State) (l : Nat) : Option (Nat × SteerEntry) :=
  s.steers.findSome? fun (b, x) =>
    match x.cur with
    | some (q, es) => if q.stage then none else (es.find? fun e => decide (e.e.tx = l)).map fun e => (b, e)
    | none => none
def State.setEntry (s : State) (b l : Nat) (ph : EntryPh) : State :=
  let x := s.steer b
  match x.cur with
  | some (q, es) => s.setSteer b { x with cur := some (q, es.map fun e => if e.e.tx = l then { e with ph := ph } else e) }
  | none => s
/-- An entry that is skipped after its link began to change: the link, if it is still the pool's, stays dark. -/
def State.skipEntry (s : State) (b l : Nat) : State :=
  let x := s.link l
  (if x.st = .changing then s.goDark l else s).setEntry b l .skipped
/-- R180: a drain ends when every frame on the link is acknowledged and it has left its candidate sets: its cells switch. -/
def execLinkDrainComplete (link : LinkId) (s : State) : Out :=
  let l := link.val
  let x := s.link l
  match s.entryOf l with
  | some (b, e) =>
    if e.ph ≠ .drain ∨ s.linkBusy l then .next s
    else if s.entrySkips b e.e then .next (s.skipEntry b l)
    else if !x.idle ∨ s.cands.any (fun c => decide (c.1 / 16 = l / 32) && c.2.contains l) then .next s
    else if e.e.dark then .next ((s.offPath l .dark).setEntry b l .done)
    else if s.rxHeld l e.e.rx then .next ((s.offPath l .changing).setEntry b l .waiting)
    else .next ((s.setLink l { x with rx := some e.e.rx, drain := false }).setEntry b l .switching)
  | none => .next s
/-- The link is live on its path, with the lanes that are not excluded and the latency that its training measured; below 8 lanes it is lost. -/
def State.pathLive (s : State) (l r : Nat) : State :=
  let m := s.rxMask r
  let s1 := s.setLink l { s.link l with st := .live, mask := m, discarding := false, drain := false, sendAt := 0, pos := 0 }
  if maskWidth m < 8 then s1.linkLost l 0x11 else s1.newLatency l
/-- R180, R191: the entry becomes live; an entry that waited for fault handling, or for its receive link, starts its own time. -/
def execSteerEntryLive (link : LinkId) (s : State) : Out :=
  let l := link.val
  match s.entryOf l with
  | none => .next s
  | some (b, e) =>
    if e.ph = .done ∨ e.ph = .skipped ∨ s.linkBusy l then .next s
    else if s.entrySkips b e.e then .next (s.skipEntry b l)
    else match e.ph with
      | .waiting =>
        let (e', s1) := s.commitEntry b e.e
        .next (s1.setEntry b l e'.ph)
      | .switching => .next ((s.pathLive l e.e.rx).setEntry b l .done)
      | .relock => .next ((s.pathLive l e.e.rx).setEntry b l .done)
      | _ => .next s
def execSteerCommitEnd (barn : BarnId) (s : State) : Out :=
  let x := s.steer barn.val
  match x.cur with
  | some (q, es) =>
    if q.stage ∨ es.any fun e => decide (e.ph ≠ .done) && decide (e.ph ≠ .skipped) then .next s
    else
      let reduced := es.any fun e => decide (e.ph = .skipped) && s.entryWithdrawn e.e
      .next ((s.setSteer barn.val { x with cur := none }).steerEnd barn.val q (boolNat reduced))
  | none => .next s
/-- R183: the pool links of a cluster, and the paths that end at its pool receive links, are darkened before it leaves a barn. A procedure on
one is cancelled (log 40). -/
def State.darkenCluster (s : State) (k : Nat) : State :=
  let own (l : Nat) (x : Link) : Bool := isPool l && !x.subst && (decide (linkCluster l = k) || match x.rx with
    | some r => decide (linkCluster r = k)
    | none => false)
  s.links.foldl (fun (s : State) (y : Nat × Link) =>
    if own y.1 y.2 ∧ (y.2.st = .live ∨ y.2.st = .staged ∨ y.2.st = .changing) then (s.endWork y.1 0x25).goDark y.1 else s) s

end Sys2Proof.Machine
end

