-- ==== Sys2Proof/Machine/Phase.lean ====
section
/-! DEFINITION. The step sequencer and the tensor datapath (R68 to R80, R123 to R131, R133, R156, R157, R487). -/
namespace Sys2Proof.Machine

/-! Firing (R77, R78, R125, R130). -/

/-- The phase of a launch starts: parity from the earlier firings of its entry, every loop and use count set. Its first step follows in the next
tick (R78). -/
def Core.fire (k : Core) (l : Launch) : Core :=
  let d := tget 0 k.phaseTab l.entry
  let w := walkStart d
  let n := tget 0 k.fires l.entry
  { k with
    fires := tset 0 k.fires l.entry (n + 1)
    cbeats := []
    stepped := 2
    run := some { launch := l, parity := n % 2, word := w.word, rep := w.rep, loops := w.loops, sched := w.sched, schedRep := w.schedRep
                  use := List.replicate 8 0, stepNo := 0, drainNo := 0, blocks := [], adder := [] } }
def execPhaseFire (core : CoreId) (s : State) : Out :=
  let k := s.core core.val
  match k.queue with
  | [] => .next s
  | l :: q =>
    if !s.coreSteps core.val ∨ k.run.isSome ∨ k.held.isSome ∨ l.armed ∨ !k.condsHold l.entry then .next s
    else
      let k1 := k.takeConds l.entry
      .next (s.setCore core.val (
        if k.gangOf l.entry ≠ 0 then { k1 with queue := { l with armed := true } :: q }
        else { k1 with queue := q }.fire l))

/-- R130: every member fires in the same cycle. -/
def execGangFire (die : DieId) (line : Fin 32) (s : State) : Out :=
  let g := s.gang (32 * die.val + line.val)
  let ready (c : Nat) : Bool := s.coreSteps c && ((s.core c).armedFor (line.val + 1)).isSome
  if g.members.isEmpty ∨ g.lost ∨ !g.members.all ready then .next s
  else
    .next (g.members.foldl (fun s c => s.onCore c fun k =>
      match k.armedFor (line.val + 1) with
      | some (l, q) => { k with queue := q }.fire l
      | none => k) s)
/-- R131: every other member's armed or running phase takes phase fault 0x06. -/
def execGangLost (die : DieId) (line : Fin 32) (s : State) : Out :=
  let key := 32 * die.val + line.val
  let g := s.gang key
  if !g.lost then .next s
  else
    let s1 := g.members.foldl (fun s c => if (s.core c).inGang (line.val + 1) then s.phaseFault c 6 else s) s
    .next { s1 with gangs := tset Gang.init s1.gangs key { s1.gang key with lost := false } }

/-! The tensor datapath (R68 to R73, R127, R128, R487). -/

/-- Element `i` of an operand row (R33, R34). -/
def opElem (f : Nat) (data : Nat) (i : Nat) : FVal :=
  let w := opWidth f
  let x := bitsAt data (w * i) w
  match f with
  | 0 => fdecode fmtE4M3 x
  | 2 => fdecode fmtE4M3 x
  | 1 => fdecode fmtE5M2 x
  | 3 => fdecode fmtE5M2 x
  | 4 => fdecode fmtE3M2 x
  | 5 => fdecode fmtE2M3 x
  | 6 => fdecode fmtE2M1 x
  | 9 => fdecode fmtBF16 x
  | 0xA => fdecode fmtFP16 x
  | 0xB => fdecode fmtFP32 x
  | _ => fofInt false (signedOf w x) 0
def accKey (bank e : Nat) : Nat := 1024 * bank + e
def Core.accAt (k : Core) (bank e : Nat) : AccEntry := tget .empty k.acc (accKey bank e)
def Core.setAcc (k : Core) (bank e : Nat) (v : AccEntry) : Core := { k with acc := tset .empty k.acc (accKey bank e) v }
/-- The MAC of a step (R69 to R71, R127): none when a term would pass the limit of R38. Element r·K + k of an operand row is row r at k
(log 16). -/
def Core.macStep (k : Core) (r : PhaseRun) (d : Nat) (w : StepWord) (a b sa sb : List Byte) : Option (Core × PhaseRun) :=
  match macShape w.fmtA w.fmtB with
  | none => some (k, r)
  | some (m, n, kk, win) =>
    let va := leVal a; let vb := leVal b
    let bank := accBank w.accSel r.parity
    let anchor := macAnchor d w
    let cells := List.range (m * n)
    let prods (i : Nat) : List (FVal × FVal) :=
      (List.range kk).map fun x => (opElem w.fmtA va (i / n * kk + x), opElem w.fmtB vb (i % n * kk + x))
    let blk := w.blk
    if blk = 0 then
      let ts (i : Nat) : List FVal := (prods i).map fun (x, y) => (fmulX x y).1
      if cells.all fun i => (k.accAt bank (w.accBase + i)).room win anchor kk then
        some (cells.foldl (fun k i => k.setAcc bank (w.accBase + i) ((k.accAt bank (w.accBase + i)).take win anchor 43 1 (ts i))) k, r)
      else none
    else
      let old := tget ⟨0, [], [], []⟩ r.blocks w.accBase
      let b0 := if old.steps = 0 then { old with sa := sa, sb := sb } else old
      let sums := cells.foldl (fun t i => tput t i ((prods i).foldl (fun q (x, y) => q.add x y) (tget MxSum.zero t i))) b0.sums
      if b0.steps + 1 < blk then
        some (k, { r with blocks := tput r.blocks w.accBase { b0 with steps := b0.steps + 1, sums := sums } })
      else
        let term (i : Nat) : FVal := (tget MxSum.zero sums i).term (b0.sa.getD (i / n) 0).toNat (b0.sb.getD (i % n) 0).toNat
        if cells.all fun i => (k.accAt bank (w.accBase + i)).room win anchor 32 then
          some (cells.foldl (fun k i =>
            k.setAcc bank (w.accBase + i) ((k.accAt bank (w.accBase + i)).take win anchor 48 32 [term i])) k,
            { r with blocks := tdel r.blocks w.accBase })
        else none

/-- The anchor that an empty entry drains with under CFMT 0x6, and the kind and anchor of INIT values (R487). -/
def Core.leadKind (k : Core) (d : Nat) : Bool × Int :=
  match k.leadMac d with
  | some w => ((match macShape w.fmtA w.fmtB with
      | some (_, _, _, win) => win
      | none => false), macAnchor d w)
  | none => (false, if pdAnchorSet d then pdAnchor d else 0)
/-- First entry drained or initialised in this step (R128). -/
def drainBase (w : StepWord) (j : Nat) : Nat := w.dbase + 32 * (j % 32)
/-- R487: a DRAIN of a record meets the other kind. -/
def Core.kindMismatch (k : Core) (r : PhaseRun) (w : StepWord) : Bool :=
  w.drain && (List.range 32).any fun i =>
    match k.accAt (accBank w.dsel r.parity) (drainBase w r.rep + i), w.cfmt with
    | .win _, 6 => true
    | .long _, 7 => true
    | _, _ => false
/-- One drained entry under CFMT, `i` its number in the step. -/
def drainEntry (r : PhaseRun) (w : StepWord) (anchor : Int) (i : Nat) (e : AccEntry) : List Byte :=
  let mode : RMode := if w.rm = 1 then .rtz else if w.rm = 2 then .sr else .rne
  let rnd := if w.rm = 2 then srWord r.launch.seed r.launch.tag r.launch.step (32 * r.drainNo + i) else 0
  let fl (f : FFmt) : List Byte := leBytes (cfmtBytes w.cfmt) (fround f mode w.sat rnd e.result).1
  match w.cfmt with
  | 0 => fl fmtFP32
  | 1 => fl fmtBF16
  | 2 => fl fmtFP16
  | 3 => fl fmtE4M3
  | 4 => fl fmtE5M2
  | 5 => leBytes 4 (froundInt 32 mode e.result).1
  | 6 => leBytes 16 (match e with
      | .long x => x.record
      | _ => (LongAcc.new anchor).record)
  | _ => leBytes 8 (match e with
      | .win x => x.record
      | _ => WinAcc.new.record)
/-- A DRAIN step: 32 entries converted and left empty. -/
def Core.drainStep (k : Core) (r : PhaseRun) (d : Nat) (w : StepWord) : Core × List Byte :=
  let bank := accBank w.dsel r.parity
  let base := drainBase w r.rep
  let anchor := (k.leadKind d).2
  let bytes := (List.range 32).flatMap fun i => drainEntry r w anchor i (k.accAt bank (base + i))
  ((List.range 32).foldl (fun k i => k.setAcc bank (base + i) .empty) k, bytes)
/-- An INIT step: 32 entries from the bytes read. -/
def Core.initStep (k : Core) (r : PhaseRun) (d : Nat) (w : StepWord) (bs : List Byte) : Core :=
  let bank := accBank w.dsel r.parity
  let base := drainBase w r.rep
  let n := cfmtBytes w.cfmt
  let (win, anchor) := k.leadKind d
  let val (i : Nat) : AccEntry :=
    let x := leVal ((bs.drop (n * i)).take n)
    let num (v : FVal) : AccEntry := AccEntry.empty.take win anchor 43 1 [v]
    match w.cfmt with
    | 6 => .long (LongAcc.ofRecord x)
    | 7 => .win (WinAcc.ofRecord x)
    | 1 => num (fdecode fmtBF16 x)
    | 2 => num (fdecode fmtFP16 x)
    | _ => num (fdecode fmtFP32 x)
  (List.range 32).foldl (fun k i => k.setAcc bank (base + i) (val i)) k

/-! The sheaf adder (R155, R156). -/

def hdrOfBeat (b : List Byte) (i : Nat) : RedHdr := RedHdr.ofBits (leVal ((b.drop (16 * i)).take 16))
/-- One combination of two beats under an SH_MODE; `j` is the beat of a sum-pass unit. -/
def adderPair (mode j : Nat) (a b : List Byte) : List Byte :=
  match mode with
  | 1 => (List.range 16).flatMap fun i => leBytes 4 (fadd32 (leVal ((a.drop (4 * i)).take 4)) (leVal ((b.drop (4 * i)).take 4)))
  | 2 => (List.range 4).flatMap fun i => leBytes 16 ((hdrOfBeat a i).combine (hdrOfBeat b i)).bits
  | _ =>
    let off := if j = 0 then 16 else 0
    let head := if j = 0 then leBytes 16 ((hdrOfBeat a 0).combine (hdrOfBeat b 0)).bits else []
    padTo 64 (head ++ (List.range 8).flatMap fun i =>
      leBytes 6 (leVal ((a.drop (off + 6 * i)).take 6) + leVal ((b.drop (off + 6 * i)).take 6)))
def adderResult (mode j : Nat) : List (List Byte) → Option (List Byte)
  | [] => none
  | b :: l => some (l.foldl (adderPair mode j) b)

/-! One step (R68, R82, R122, R133, R139). -/

def eccOf (l : List (Fin 24 × Ecc)) (bank : Nat) : Ecc := ((l.find? fun x => decide (x.1.val = bank)).map (·.2)).getD .ok
def eccDir (l : List (Fin 4 × Ecc)) (dir : Nat) : Ecc := ((l.find? fun x => decide (x.1.val = dir)).map (·.2)).getD .ok
/-- The rows of an access, in the order of R126. -/
def Access.rowAddrs (x : Access) : List Nat := (List.range x.rows).map fun (j : Nat) => (x.addr + 0x4000 * (j : Int)).toNat
def Access.data (x : Access) (k : Core) : List Byte := x.rowAddrs.flatMap fun a => memRead k.sram a x.bytes
/-- The rows read in a step are checked (R66): whether every one is good. -/
def readRows (sram : List (Fin 24 × Ecc)) (c : Nat) : List Nat → State → Bool × State
  | [], s => (true, s)
  | a :: l, s =>
    let (ok, s1) := s.sramCheck c (a / 64 * 64) (eccOf sram (a / 0x4000))
    let (oks, s2) := readRows sram c l s1
    (ok && oks, s2)
/-- The arriving compiled beats are checked (R142). -/
def beatErrors (mesh : List (Fin 4 × Ecc)) (c : Nat) : List Nat → State → Bool × State
  | [], s => (true, s)
  | dir :: l, s =>
    let (oks, s1) := beatErrors mesh c l s
    match eccDir mesh dir with
    | .ok => (oks, s1)
    | .corrected _ => (oks, s1.report 0x06 (meshLink c dir) 0)
    | .uncorrectable => (false, s1.report 0x07 (meshLink c dir) 0)
def roleData (xs : List Access) (k : Core) (r : Role) : List Byte := ((xs.find? fun x => decide (x.role = r)).map fun x => x.data k).getD []
def Core.writeRows (k : Core) (x : Access) (bs : List Byte) : Core :=
  (List.range x.rows).foldl (fun k (j : Nat) => k.sramWrite ((x.addr + 0x4000 * (j : Int)).toNat) ((bs.drop (x.bytes * j)).take x.bytes)) k
def writeRole (xs : List Access) (r : Role) (bs : List Byte) (k : Core) : Core :=
  match xs.find? fun x => decide (x.role = r) with
  | some x => k.writeRows x bs
  | none => k
/-- The adder's result of two steps ago. -/
def PhaseRun.adderNow (r : PhaseRun) : Option AdderOut := r.adder.find? fun x => decide (x.due = r.stepNo)
/-- The beat that an output code names: an arriving beat, the local read, or the adder's result of two steps ago. -/
def Core.meshSource (k : Core) (r : PhaseRun) (xs : List Access) (code : Nat) : List Byte :=
  if code = 5 then roleData xs k .rd
  else if code = 6 then ((r.adderNow).map (·.data)).getD (List.replicate 64 0)
  else ((k.cbeats.find? fun b => decide (b.step = r.stepNo) && decide (b.dir + 1 = code)).map (·.data)).getD []
/-- Compiled beats leave toward the neighbours: taken one step later, or four over a crossing (R133, R145). -/
def sendBeats (c step : Nat) : List (Nat × List Byte) → State → State
  | [], s => s
  | (dir, bs) :: l, s =>
    let s1 := match neighbour c dir with
      | some n => if s.linkOpen c dir then s.onCore n fun k =>
          { k with cbeats := k.cbeats ++ [⟨opposite dir, step + (if isCrossing c dir then 4 else 1), bs⟩] } else s
      | none => s
    sendBeats c step l s1

/-- The headers in an adder result of a mode: four in the exponent pass, one in beat 0 of a sum-pass unit (Table 6-3). -/
def adderHdrs (mode j : Nat) : Nat := if mode = 2 then 4 else if mode = 3 ∧ j = 0 then 1 else 0
/-- The schedule part of a step: the beat for SRAM, the beats sent, the adder's new result; whether a root wrote a header with ABORT
(R157). The headers of a result are those of the entry that formed it, two steps earlier: DEDUCED from R156 (log 16). -/
def Core.meshStep (k : Core) (r : PhaseRun) (xs : List Access) (e : SchedEntry) :
    (Option (List Byte)) × List (Nat × List Byte) × List AdderOut × Bool :=
  let src (code : Nat) : List Byte := k.meshSource r xs code
  let local_ := if e.outL = 0 then none else some (src e.outL)
  let sent := ([e.outN, e.outE, e.outS, e.outW].zip (List.range 4)).filterMap fun (code, dir) => if code = 0 then none else some (dir, src code)
  let ins := (if e.shA = 0 then [] else [src e.shA]) ++ (if e.shB = 0 then [] else [src e.shB]) ++ (if e.shC then [src 5] else [])
  let adder := match if e.shMode = 0 then none else adderResult e.shMode (r.schedRep % 4) ins with
    | some b => [⟨r.stepNo + 2, b, adderHdrs e.shMode (r.schedRep % 4)⟩]
    | none => []
  let aborts := e.outL == 6 && match r.adderNow with
    | some x => (List.range x.hdrs).any fun i => (hdrOfBeat x.data i).abort
    | none => false
  (local_, sent, adder, aborts)

/-- One step of the running phase. `sram` and `mesh` say what the check bits of the rows read and of the arriving beats find. A step that
needs a beat which has not been sent yet is not due (log 2), and each cycle that is no hold cycle has one step (R78, R84). A POST of the last step that
overflows faults the phase of that step (R76). -/
def execPhaseStep (core : CoreId) (sram : List (Fin 24 × Ecc)) (mesh : List (Fin 4 × Ecc)) (s : State) : Out :=
  let c := core.val
  let k := s.core c
  match k.run with
  | none => .next s
  | some r =>
    let d := tget 0 k.phaseTab r.launch.entry
    let w := k.stepAt r.word
    let e := if pdSchedCount d = 0 then none else some (k.schedAt r.sched)
    let dirs := match e with
      | some e => e.dirs
      | none => []
    let due := dirs.all fun dir => k.cbeats.any fun b => decide (b.dir = dir) && decide (b.step = r.stepNo)
    if !s.coreSteps c ∨ s.freeCycles (coreDie c) ≤ k.stepped ∨ k.ending.isSome ∨ !due then .next s
    else
      let first := w.blk ≠ 0 && (tget ⟨0, [], [], []⟩ r.blocks w.accBase).steps == 0
      let xs := k.accesses d r.parity r.use w e first
      let rows := ((xs.filter fun x => !x.write).flatMap Access.rowAddrs)
      let (okRows, s1) := readRows sram c rows s
      let (okBeats, s2) := beatErrors mesh c dirs s1
      if !okRows then .next (s2.phaseFault c 2)
      else if !okBeats then .next (s2.phaseFault c 4)
      else
        let k := s2.core c
        if k.kindMismatch r w then .next (s2.phaseFault c 7)
        else
          let macd := if w.mac then
              k.macStep r d w (roleData xs k .a) (roleData xs k .b) (roleData xs k .sa) (roleData xs k .sb)
            else some (k, r)
          match macd with
          | none => .next (s2.phaseFault c 1)
          | some (k1, r1) =>
            let k2 := if w.drain then let (k', bs) := k1.drainStep r d w; writeRole xs .d bs k'
              else if w.init then k1.initStep r d w (roleData xs k .d) else k1
            let (local_, sent, adder, aborts) := match e with
              | some e => k.meshStep r xs e
              | none => (none, [], [], false)
            let k3 := match local_ with
              | some bs => writeRole xs .wr bs k2
              | none => k2
            let next := k.walkNext d ⟨r.word, r.rep, r.loops, r.sched, r.schedRep⟩
            let r2 : PhaseRun := { r1 with
              use := bumpUses r.use (genUses w e first)
              stepNo := r.stepNo + 1
              drainNo := r.drainNo + (if w.drain then 1 else 0)
              adder := (r.adder.filter fun x => decide (r.stepNo < x.due)) ++ adder }
            let k4 := { k3 with
              cbeats := k3.cbeats.filter fun b => decide (r.stepNo < b.step)
              stepped := k3.stepped + 1
              sentNow := []
              run := some (match next with
                | some v => { r2 with word := v.word, rep := v.rep, loops := v.loops, sched := v.sched, schedRep := v.schedRep }
                | none => r2) }
            let s3 := sendBeats c r.stepNo sent (s2.setCore c k4)
            let s4 := match e with
              | some e => if e.post && decide (r.schedRep = e.rep) then s3.addCounter c e.postCredit e.postCtr 1 else s3
              | none => s3
            let s5 := if aborts && (s4.core c).run.isSome then s4.phaseFault c 5 else s4
            .next (if next.isNone && (s5.core c).run.isSome then s5.onCore c fun k => { k with run := none, ending := some r.launch } else s5)

/-- R129: the remote posts of an ended phase: counter stores to cores of the package. -/
def postRemote (c : Nat) : List Post → State → State
  | [], s => s
  | p :: l, s =>
    let a := s.selfSlot * 2 ^ 42 + (0x20000000000 + p.core * 2 ^ 20 + (if p.credit then 0xC0080 else 0xC0000) + 4 * p.ctr)
    postRemote c l (s.sendReq c .post 1 0 0x03 a (leBytes 4 p.amount)).2
/-- R75, R129: the posts of an ended phase; the local ones reach their counters in one cycle. -/
def postAll (c : Nat) (ps : List Post) (s : State) : State :=
  let on := ps.filter (·.en)
  postRemote c (on.filter (·.remote)) (s.addCounters c ((on.filter fun p => !p.remote).map fun p => (p.credit, p.ctr, p.amount)))
/-- The phase ends; its remote posts count among the core's 256 span requests and await room (R103). -/
def execPhaseEnd (core : CoreId) (s : State) : Out :=
  let c := core.val
  let k := s.core c
  match k.ending with
  | none => .next s
  | some l =>
    let ps := pdPosts (tget 0 k.phaseTab l.entry)
    if 256 < k.spanCount + (ps.filter fun p => p.en && p.remote).length then .next s
    else .next (postAll c ps (s.setCore c ({ k with ending := none }.outcome ⟨l.seq, 0, 0⟩)))

/-- R83: a new hold count takes effect at a frame boundary. -/
def execHoldCountApply (die : DieId) (s : State) : Out :=
  match tget 0 s.holdNotice die.val with
  | 0 => .next s
  | n + 1 => if tget 0 s.dieCycle die.val % 64 ≠ 0 then .next s else .next { s with hold := tset 0 s.hold die.val n, holdNotice := tset 0 s.holdNotice die.val 0 }

end Sys2Proof.Machine
end

