-- ==== Sys2Proof/Machine/Reset.lean ====
section
/-! DEFINITION. Partial resets, and units that leave service (spec/15 R372 to R383, spec/01 R7). -/
namespace Sys2Proof.Machine

/-! The floor-plan map as it changes (R374). -/

/-- A unit leaves the map: GENERATION and CHANGED advance, once stage 6 has written it. -/
def State.mapChange (s : State) : State :=
  if s.generation = 0 then s else { s with generation := (s.generation + 1) % 2 ^ 32, changed := s.reckon }
/-- Core minimum per die (Table 15-5). -/
def coreMinimum (variant : Nat) : Nat := if variant = 2 then 960 else 992
def State.coreUsable (s : State) (c : Nat) : Bool :=
  !s.coreOut c && !s.nv.fusedCores.contains c && !s.dieDown.contains (coreDie c) && s.clusterUp.contains (coreCluster c)
def State.usableOn (s : State) (d : Nat) : Nat := ((List.range 1024).filter fun i => s.coreUsable (1024 * d + i)).length
/-- A die leaves the map for a cause of Table 15-4. -/
def State.dieOut (s : State) (d cause : Nat) : State := { s with dieDown := insertSorted d s.dieDown, dieCause := tset 0 s.dieCause d cause }
/-- The dies have been brought up: stage 6 is over. -/
def State.diesUp (s : State) : Bool := decide (6 < s.bu.stage) || (decide (s.bu.stage = 6) && decide (s.bu.st = .done))
/-- R376: the usable cores of a die fall below the variant's minimum after ready: class 3. A die with none left is unavailable. Between stage 6
and ready too, where it keeps the package from becoming ready (R27, log 19). -/
def State.dieCheck (s : State) (before d : Nat) : State :=
  let m := coreMinimum s.variant
  let s1 := if s.diesUp ∧ s.usableOn d = 0 ∧ !s.dieDown.contains d then s.dieOut d 5 else s
  if s.diesUp ∧ m ≤ before ∧ s1.usableOn d < m then s1.report 0x50 d 0 else s1

/-! Core, cluster and barn resets (Tables 15-6 and 15-7). -/

/-- What becomes of the traffic of a core that leaves: requests to it are answered `st`; replies that it has issued go on (R25), and those to it
end as for any core that has no request left (R380). -/
def answerReset (st : Nat) (s : State) (c : Nat) : List Beat → State
  | [] => s
  | b :: l =>
    let own := coordOf s.selfNum c
    match b.pkt with
    | some p =>
      if isCplOp p.op then answerReset st (if p.src = own then s.egress p else s.deliverCpl p (p.addr % 256) p.payload) c l
      else if p.dst = own ∧ p.tc ≠ 0 then answerReset st (s.answer p (cplOp p.op) st []) c l
      else answerReset st s c l
    | none => answerReset st s c l
/-- The beats of a core's traffic leave the routers and the gateway of its cluster (step 3). -/
def dropBeats (c : Nat) (l : List Beat) : List Beat := l.filter fun b => decide (b.dest ≠ c)
def beatsFor (c : Nat) (k : Core) : List Beat :=
  (k.bufN ++ k.bufE ++ k.bufS ++ k.bufW ++ k.gwQ ++ k.gwWait).filter fun b => decide (b.dest = c)
def Core.dropTraffic (k : Core) (c : Nat) : Core :=
  { k with
    bufN := dropBeats c k.bufN, bufE := dropBeats c k.bufE, bufS := dropBeats c k.bufS, bufW := dropBeats c k.bufW
    gwQ := dropBeats c k.gwQ, gwWait := dropBeats c k.gwWait }.fillGw
/-- The packets of `hit` that wait for a window or a link (step 3). -/
def State.waitingOf (s : State) (hit : Pkt → Bool) : List Pkt :=
  ((s.srcWin.flatMap fun (_, w) => w.waiting.map (·.pkt)) ++ s.dieWait.flatMap fun (_, l) => l.map (·.pkt)).filter hit
/-- They are discarded. -/
def State.dropWaiting (s : State) (hit : Pkt → Bool) : State :=
  { s with
    srcWin := s.srcWin.filterMap fun (k, w) =>
      let w' := { w with waiting := w.waiting.filter fun x => !hit x.pkt }
      if w' = SrcWin.init then none else some (k, w')
    dieWait := s.dieWait.filterMap fun (k, l) =>
      let l' := l.filter fun x => !hit x.pkt
      if l'.isEmpty then none else some (k, l') }
/-- A request of a core: its own, or one that its copies have sent. -/
def State.ofCore (s : State) (c : Nat) (p : Pkt) : Bool :=
  let g := coreCluster c
  !isCplOp p.op && (decide (p.src = coordOf s.selfNum c) || (decide (p.src = gatewayEp s.selfNum g) && (s.gw g).trackers.any fun (_, t) => match t with
    | some t => decide (t.core = c) && t.segs.any fun x => x.want.any fun a => a.is p.dst p.rtag
    | none => false))
/-- The quota units that an outstanding request holds once the packets `gone` are discarded and theirs returned (step 3). -/
def unitsLeft (s : State) (gone : List Pkt) (want : List Await) (units : Nat) : Nat :=
  units - offUnits s (gone.filter fun p => want.any fun a => a.is p.dst p.rtag)
/-- An orphaned tag, its discarded packets' quota returned. -/
def State.orphan (s : State) (g : Nat) (gone : List Pkt) (o : Orphan) : State :=
  let o' := { o with units := unitsLeft s gone o.want o.units }
  (s.setGw g { s.gw g with orphans := (s.gw g).orphans ++ [o'] }).onFctr o.barn fun f => f.subUse o.tc (o.units - o'.units)
/-- The tags that a core's requests still hold. -/
def orphansOf (s : State) (c : Nat) : List Orphan :=
  (s.core c).reqs.map fun r => ⟨c, r.tag, r.units, if r.tc3 then 3 else 1, s.coreStamp c, r.want⟩
/-- The trackers that a core submitted, or all of a gateway's, are discarded (R256), their tags orphaned. -/
def State.dropTrackers (s : State) (g : Nat) (gone : List Pkt) (mine : Tracker → Bool) : State :=
  let w := s.gw g
  let hit (t : Option Tracker) : Bool := match t with
    | some t => mine t
    | none => false
  let lost := w.trackers.filter fun (_, t) => hit t
  let tags := lost.flatMap fun (_, t) => match t with
    | some t => t.segs.map fun x => (⟨16384 + g, x.tag, x.units, x.tc, t.barn, x.want⟩ : Orphan)
    | none => []
  let s1 := s.setGw g { w with trackers := w.trackers.filter fun (_, t) => !hit t }
  let s2 := { s1 with readAhead := s1.readAhead.filter fun r => !lost.any fun (k, _) => r.of (gatewayEp s.selfNum g) k }
  tags.foldl (fun s o => s.orphan g gone o) s2
/-- A core without its state: only its router stays, with other cores' traffic. -/
def Core.cleared (k : Core) (p : CorePower) : Core :=
  { Core.init with
    power := p, sentNow := k.sentNow, bufN := k.bufN, bufE := k.bufE, bufS := k.bufS, bufW := k.bufW, gwQ := k.gwQ, gwWait := k.gwWait }
/-- The armed or running gangs of which the core is a member lose it (R131). -/
def State.gangsLose (s : State) (c : Nat) : State :=
  (s.gangs.filter fun x => decide (x.1 / 32 = coreDie c) && x.2.members.contains c).foldl (fun s x =>
    s.gangLose c (x.1 % 32 + 1) ((s.core c).inGang (x.1 % 32 + 1))) s
/-- The mesh traffic of core `c` and its stores that wait for order go. -/
def State.forgetTraffic (s : State) (c : Nat) : State :=
  let g := coreCluster c
  let s1 := (clusterCores g).foldl (fun s n => s.onCore n fun k => k.dropTraffic c) s
  s1.setGw g { s1.gw g with
    ordered := (s1.gw g).ordered.filter fun o => decide (o.core ≠ c), bad := (s1.gw g).bad.filter fun x => decide (x ≠ c) }
/-- Its requests become orphans, and its copies are dropped (R380). `gone` are the requests that no reply will come for. -/
def State.forgetRequests (s : State) (c : Nat) (gone : List Pkt) : State :=
  let g := coreCluster c
  let s1 := ((orphansOf s c).foldl (fun s o => s.orphan g gone o) s).dropWaiting (s.ofCore c)
  s1.dropTrackers g gone fun t => decide (t.core = c)
/-- Its reduction contexts, the words that came before one, and its threads' claims of slots go (R338, R379). -/
def State.forgetUnits (s : State) (c : Nat) : State :=
  let own := coordOf s.selfNum c
  let s1 := s.dropCtxs fun x => decide (x.owner = c) || decide (x.node = c)
  State.releaseClaims { s1 with sheafEarly := s1.sheafEarly.filter fun x => decide (x.1 ≠ c) }
    fun who => decide (idKind who = 0) && decide (bitsAt who 12 29 = own)
/-- A core reset (R378, R379) that ends in power state `p`: zeroing for a reset, off where the unit leaves service: then what is under way to it
is answered "target unavailable" (R25). -/
def State.resetCore (s : State) (c : Nat) (p : CorePower) : State :=
  let k := s.core c
  let g := coreCluster c
  if k.power = .off ∧ p ≠ .off then s
  else
    let s1 := s.gangsLose c
    let beats := k.inbound ++ k.outQ ++ k.outWait ++ (clusterCores g).flatMap fun n => beatsFor c (s1.core n)
    let gone := beats.filterMap (·.pkt) ++ s1.waitingOf (s.ofCore c)
    answerReset (if p = .off then 0x03 else 0x04) ((((s1.forgetTraffic c).forgetRequests c gone).forgetUnits c).onCore c fun k => k.cleared p) c beats
def resetCores (p : CorePower) (s : State) : List Nat → State
  | [] => s
  | c :: l => resetCores p (s.resetCore c p) l
/-- R382: a steering request does not increment a tally of a gateway that was reset. -/
def SteerReq.forget (g : Nat) (q : SteerReq) : SteerReq := { q with tally := q.tally.filter fun x => decide (x.1 ≠ g) }
def State.steerForget (s : State) (g : Nat) : State :=
  { s with steers := s.steers.map fun (b, x) =>
      (b, { x with queue := x.queue.map fun q => q.forget g, cur := x.cur.map fun (q, es) => (q.forget g, es) }) }
/-- A cluster reset: its 64 cores and its gateway, whose tallies are zeroed and whose trackers and sheaf contexts are lost. -/
def State.resetCluster (s : State) (g : Nat) (p : CorePower) : State :=
  let s := s.steerForget g
  let mine (p : Pkt) : Bool := decide (p.src = gatewayEp s.selfNum g) && !isCplOp p.op
  let gone := s.waitingOf mine
  let s0 := (s.dropTrackers g gone fun _ => true).dropWaiting mine
  let s1 := (s0.gw g).posts.foldl (fun s x => s.orphan g gone ⟨16384 + g, 16 * x.trk + 15, x.units, 1, x.barn, x.want⟩) s0
  let s2 := resetCores p s1 (clusterCores g)
  let s3 := (s2.setGw g { s2.gw g with tallies := [], ordered := [], bad := [], posts := [] }).dropCtxs fun x => decide (x.node = 16384 + g)
  { s3 with sheafEarly := s3.sheafEarly.filter fun x => decide (x.1 ≠ 16384 + g) }
def resetClusters (p : CorePower) (s : State) : List Nat → State
  | [] => s
  | g :: l => resetClusters p (s.resetCluster g p) l

def execCoreReset (core : CoreId) (s : State) : Out := .next (s.resetCore core.val .zeroing)
def execClusterReset (cluster : ClusterId) (s : State) : Out := .next (s.resetCluster cluster.val .zeroing)
/-- R380: an orphaned tag that no reply has freed becomes free. -/
def execOrphanTagTimeout (gateway : ClusterId) (who : Nat) (tag : BitVec 12) (s : State) : Out :=
  let w := s.gw gateway.val
  match w.orphans.find? fun o => decide (o.who = who) && decide (o.tag = tag.toNat) with
  | some o => .next ((s.setGw gateway.val { w with orphans := removeFirst o w.orphans }).onFctr o.barn fun f => f.subUse o.tc o.units)
  | none => .next s

/-! Units that leave service (R7, R143, R374). -/

def State.retireCore (s : State) (c : Nat) : State :=
  if s.coreDown.contains c then s
  else
    let n := s.usableOn (coreDie c)
    let s1 := s.resetCore c .off
    (({ s1 with coreDown := insertSorted c s1.coreDown }).mapChange).dieCheck n (coreDie c)
def State.retireCluster (s : State) (g : Nat) : State :=
  if s.clusterDown.contains g then s
  else
    let n := s.usableOn (g / 16)
    let s1 := s.resetCluster g .off
    (({ s1 with clusterDown := insertSorted g s1.clusterDown }).mapChange).dieCheck n (g / 16)
/-- R143: a mesh link inside a cluster takes its cluster with it; one between clusters is unavailable in both directions. `l` is the link
number of Table 18-2. -/
def State.retireMeshLink (s : State) (l : Nat) : State :=
  let c := 1024 * (l / 2048) + l % 2048 / 2
  let dir := if l % 2 = 0 then 1 else 2
  if !isCrossing c dir then s.retireCluster (coreCluster c)
  else if s.meshDown.contains l then s
  else { s with meshDown := insertSorted l s.meshDown }.mapChange
/-- The mesh link of a crossing table word (R365), and the word of a mesh link between clusters. -/
def crossingLink (d i : Nat) : Nat :=
  if i < 96 then 2048 * d + 2 * (32 * (8 * (i / 32) + 7) + i % 32)
  else 2048 * d + 2 * (32 * ((i - 96) % 32) + 8 * ((i - 96) / 32) + 7) + 1
/-- R144: a crossing that cannot be trained is unavailable. -/
def State.retireCrossing (s : State) (u : Nat) : State :=
  { s with cross := tset 0 s.cross u 0xFFFF }.retireMeshLink (crossingLink (u / 256) (u % 256))

end Sys2Proof.Machine
end

