-- ==== Sys2Proof/Machine/Gleaner.lean ====
section
/-! DEFINITION. The gleaner: fault records, counting and escalation, FAULT_N, notices and the actions of Table 18-4 (spec/18 R434 to R447),
the fault summary's acknowledgement (spec/14 R359), the governor (R457) and the random generator's stop (spec/17 R416). -/
namespace Sys2Proof.Machine

/-- A row of Table 18-4: base class, unit type, default N and window in ms (1 s where the table says off, log 6). -/
def kindRow (kind : Nat) : Option (Nat × Nat × Nat × Nat) :=
  match kind with
  | 0x01 => some (0, 3, 64, 1000) | 0x02 => some (2, 3, 0, 1000) | 0x03 => some (2, 3, 0, 1000) | 0x04 => some (2, 3, 0, 1000)
  | 0x05 => some (2, 3, 0, 1000) | 0x06 => some (0, 4, 256, 1000) | 0x07 => some (2, 4, 0, 1000) | 0x08 => some (2, 16, 0, 1000)
  | 0x09 => some (0, 5, 1024, 1000) | 0x10 => some (1, 7, 4, 3600000) | 0x11 => some (2, 5, 0, 1000) | 0x12 => some (2, 5, 0, 1000)
  | 0x13 => some (1, 9, 2, 86400000) | 0x14 => some (0, 8, 16, 3600000) | 0x15 => some (0, 7, 0, 1000) | 0x16 => some (1, 6, 8, 3600000)
  | 0x17 => some (2, 6, 0, 1000) | 0x18 => some (2, 6, 0, 1000) | 0x19 => some (0, 0, 0, 1000) | 0x1A => some (0, 2, 0, 1000)
  | 0x1B => some (1, 14, 16, 1000) | 0x1C => some (2, 14, 0, 1000) | 0x1D => some (3, 0, 0, 1000) | 0x20 => some (0, 12, 16, 86400000)
  | 0x21 => some (2, 12, 0, 1000) | 0x22 => some (2, 11, 0, 1000) | 0x23 => some (2, 10, 0, 1000) | 0x30 => some (1, 15, 0, 1000)
  | 0x31 => some (4, 0, 0, 1000) | 0x32 => some (3, 0, 0, 1000) | 0x33 => some (4, 17, 0, 1000) | 0x34 => some (0, 17, 0, 1000)
  | 0x35 => some (2, 17, 0, 1000) | 0x40 => some (0, 13, 0, 1000) | 0x41 => some (1, 13, 0, 1000) | 0x42 => some (4, 13, 0, 1000)
  | 0x43 => some (1, 13, 0, 1000) | 0x44 => some (2, 2, 0, 1000) | 0x50 => some (3, 1, 0, 1000) | 0x51 => some (3, 0, 0, 1000)
  | 0x52 => some (3, 0, 0, 1000)
  | _ => none
/-- The unit of a report (Table 18-2): kind 0x09 names edge port p as 512 + p, kind 0x15 carries the unit type above bit 24. -/
def reportUnit (kind unit : Nat) : Nat × Nat :=
  if kind = 0x09 ∧ 512 ≤ unit then (6, unit - 512)
  else if kind = 0x15 then (unit / 2 ^ 24, unit % 2 ^ 24)
  else match kindRow kind with
    | some (_, t, _, _) => (t, unit)
    | none => (0, unit)
def Gleaner.cfg (g : Gleaner) (kind : Nat) : KindCfg :=
  match tget none g.kinds kind, kindRow kind with
  | some c, _ => c
  | none, some (_, _, n, w) => ⟨n, w, 0⟩
  | none, none => ⟨0, 1000, 0⟩
/-- The key of a source's unit: its type and number. -/
def unitKey (ut unit : Nat) : Nat := 2 ^ 32 * ut + unit % 2 ^ 32
def Counter.windowOpen (c : Counter) (now windowMs : Nat) : Bool := decide (c.count ≠ 0) && decide (now < 16000000 * windowMs + c.opened)
def Gleaner.counter (g : Gleaner) (kind key : Nat) : Option Counter := g.counters.find? fun c => decide (c.kind = kind) && decide (c.unit = key)
/-- R442: the entries that are still held: their window is open, or a class is marked unacknowledged. -/
def Gleaner.live (g : Gleaner) (now : Nat) : List Counter :=
  g.counters.filter fun c => c.windowOpen now (g.cfg c.kind).window || decide (c.marks ≠ [])
def Gleaner.putCounter (g : Gleaner) (c : Counter) : Gleaner :=
  { g with counters := (g.counters.filter fun x => decide (x.kind ≠ c.kind) || decide (x.unit ≠ c.unit)) ++ [c] }

/-- What R441 to R445 make of one event: the class, and the flags promoted, escalated, saturation, no counter. -/
structure Judged where
  cls : Nat
  promoted : Bool
  escalated : Bool
  saturation : Bool
  noCounter : Bool
  deriving DecidableEq, Repr
/-- R442, R443: an event that finds no free entry. -/
def Gleaner.judgeOverflow (g : Gleaner) (kind base : Nat) : Judged × Gleaner :=
  let cfg := g.cfg kind
  let o := min 65535 (cfg.overflow + 1)
  let sat := decide (cfg.overflow < 65535) && decide (o = 65535)
  (⟨min 4 (if sat then base + 1 else base), false, false, sat, true⟩, { g with kinds := tput g.kinds kind (some { cfg with overflow := o }) })
/-- R441, R443, R444: an event of a source with an entry. -/
def Gleaner.judgeCounter (g : Gleaner) (c : Counter) (base now : Nat) : Judged × Gleaner :=
  let cfg := g.cfg c.kind
  let c1 := if c.windowOpen now cfg.window then { c with count := min 65535 (c.count + 1) } else { c with count := 1, opened := now, sat := false }
  let promoted := decide (cfg.n ≠ 0) && decide (cfg.n ≤ c1.count)
  let sat := !promoted && decide (c1.count = 65535) && !c1.sat
  let c2 := if promoted then { c1 with count := 0 } else { c1 with sat := c1.sat || sat }
  let cls := min 4 (if promoted ∨ sat then base + 1 else base)
  let marks := decide (1 ≤ cls) && decide (cls ≤ 3)
  let escalated := marks && c2.marks.contains cls
  let c3 := if marks then { c2 with marks := insertSorted cls c2.marks } else c2
  (⟨if escalated then cls + 1 else cls, promoted, escalated, sat, false⟩, g.putCounter c3)
def Gleaner.judge (g : Gleaner) (kind key base now : Nat) : Judged × Gleaner :=
  match g.counter kind key with
  | some c => g.judgeCounter c base now
  | none =>
    let l := g.live now
    if 8192 ≤ l.length then { g with counters := l }.judgeOverflow kind base
    else { g with counters := l }.judgeCounter ⟨kind, key, 0, 0, false, []⟩ base now

/-! Actions (R438, Table 18-4) and class 4 (R439). -/

/-- The ACTION code of a record: the row's action at the class for which the row gives it. -/
def actionCode (kind cls : Nat) : Nat :=
  if cls = 4 then 5
  else match kind, cls with
    | 0x02, 2 => 1 | 0x03, 2 => 1 | 0x04, 2 => 1 | 0x07, 2 => 1 | 0x08, 2 => 1 | 0x10, 2 => 1
    | 0x11, 2 => 2 | 0x12, 2 => 2 | 0x13, 2 => 1 | 0x14, 1 => 4 | 0x16, 2 => 1 | 0x1B, 2 => 4 | 0x1C, 2 => 4
    | 0x20, 1 => 3 | 0x21, 2 => 3 | 0x22, 2 => 1 | 0x23, 2 => 1 | 0x30, 1 => 1 | 0x43, 1 => 1 | 0x44, 2 => 1
    | _, _ => 0
def State.sensor (s : State) (n : Nat) : Sensor := tget Sensor.init s.sensors n
def State.setSensor (s : State) (n : Nat) (x : Sensor) : State := { s with sensors := tset Sensor.init s.sensors n x }
/-- R448: THERM_N follows ANY_THROTTLE and SHUTDOWN of the thermal summary. -/
def State.thermWant (s : State) : Bool := s.gleaner.shutdown || s.sensors.any fun x => x.2.throttle
def State.thermFollow (s : State) : State :=
  if s.pins.thermN = s.thermWant then s
  else { s with pins := { s.pins with thermN := s.thermWant }, out := s.out ++ [.thermN s.thermWant] }
/-- A lost link leaves the map; one that an injected report names is lost with it. -/
def State.linkOut (s : State) (l : Nat) : State :=
  let x := s.link l
  if x.st = .lost ∨ x.st = .withdrawn ∨ 512 ≤ l then s.mapChange
  else
    let s1 := s.endWork l 0x24
    (s1.setLink l { s1.link l with st := .lost, drain := false }).mapChange
/-- The action that takes a unit out of service or starts a procedure. The detecting unit has already done its own part; an injected report
has only this (R451). -/
def State.act (s : State) (kind cls unit detail : Nat) : State :=
  match kind, cls with
  | 0x02, 2 => s.retireCore (unit % 16384)
  | 0x03, 2 => s.retireCore (unit % 16384)
  | 0x04, 2 => s.retireCore (unit % 16384)
  | 0x07, 2 => s.retireMeshLink (unit % 32768)
  | 0x08, 2 => s.retireCrossing (unit % 4096)
  | 0x10, 2 =>
    let l := unit / 16
    let n := if 512 ≤ l then unit else match s.laneLink l with
      | some r => 16 * r + unit % 16
      | none => unit
    let s1 := s.excludeLane l (unit % 16) false
    s1.setLane n { s1.lane n with excluded := true, retired := true }
  | 0x11, 2 => s.linkOut unit
  | 0x12, 2 => s.linkOut unit
  | 0x13, 2 => s.setModule (unit % 12) { s.module (unit % 12) with retired := some (s.module (unit % 12)).serial }
  | 0x14, 1 => match s.ringLink unit with
    | some l => s.calAsk l false 0 false
    | none => s
  | 0x16, 2 => s.onPort unit fun x => { x with st := .disagree, shut := true }
  | 0x1B, 2 => s.pairFault (unit % 16) false
  | 0x1C, 2 => s.pairFault (unit % 16) false
  | 0x20, 1 => s.wantRepair (unit % 1024) detail
  | 0x21, 2 => s.wantRepair (unit % 1024) detail
  | 0x22, 2 => (s.setGranule (unit % 1024) { s.granule (unit % 1024) with retired := true }).mapChange
  | 0x23, 2 => State.mapChange ((List.range 64).foldl (fun s g =>
      let n := 64 * (unit % 16) + g
      s.setGranule n { s.granule n with retired := true }) s)
  | 0x35, 2 => { s with rcalHeld := true }
  | 0x43, 1 => s.setSensor unit { s.sensor unit with retired := true }
  | 0x44, 2 => s.retireCluster (unit % 256)
  | _, _ => s
/-- All light of the package stops at once: every link and port is dark. -/
def State.lightStop (s : State) : State :=
  { s with
    links := s.links.filterMap fun (l, x) => if x.st = .withdrawn then some (l, { Link.init with st := .withdrawn }) else none
    ports := s.ports.filterMap fun (p, x) =>
      let y := { EdgePort.init with cong := x.cong, shut := x.shut }
      if y = EdgePort.init then none else some (p, y) }
/-- R439. Every cluster is held in reset with its rail off, the HBM supplies are off, and no light leaves the package. -/
def State.latchFatal (s : State) : State :=
  if s.gleaner.fatal then s
  else
    let s1 := resetClusters .off s (List.range 256)
    let s2 := s1.lightStop
    { s2 with
      gleaner := { s2.gleaner with fatal := true }, clusterUp := [], dieDown := List.range 16
      dieCause := (List.range 16).map fun d => (d, 5) }

/-! Records (R434 to R436). -/

def FaultRec.bytes (r : FaultRec) : List Byte :=
  leBytes 4 r.seq
    ++ leBytes 1 (packFields [(3, r.cls), (3, r.base), (1, boolNat r.promoted), (1, boolNat r.escalated)])
    ++ leBytes 1 (packFields [(1, boolNat r.saturation), (1, boolNat r.injected), (1, boolNat r.noCounter), (5, 0)])
    ++ leBytes 2 r.kind ++ leBytes 1 (r.unit / 2 ^ 32) ++ leBytes 1 r.action ++ leBytes 2 (r.barn.getD 0xFFFF)
    ++ leBytes 4 r.unit ++ leBytes 8 r.reckon ++ leBytes 8 r.detail
/-- The barn that owns a unit: of a core or cluster its cluster's, of a granule or HBM row the granule's, of a pair the pair's. -/
def State.unitBarn (s : State) (ut unit : Nat) : Option Nat :=
  match ut with
  | 2 => s.clusterBarn unit
  | 3 => s.coreBarn unit
  | 11 => s.granuleBarn unit
  | 12 => s.granuleBarn unit
  | 14 => if (pairDesc (tget 0 s.pairTable unit)).valid then some (pairDesc (tget 0 s.pairTable unit)).barn else none
  | _ => none
/-- FAULT_N as it stands (R359). -/
def Gleaner.faultN (g : Gleaner) : Bool := g.fatal || g.shutdown || g.pulse || g.level.getD false
/-- SHUT_WHERE of a sensor (Table 14-9). -/
def shutWhere (sensor : Nat) : Nat := if sensor < 512 then sensor / 32 else if sensor < 576 then 0x20 + (sensor - 512) else 0x10 + (sensor - 576)
/-- One report is recorded: its class fixed, the ring, the latched store and the summary updated, a FAULT_N pulse started, its notice
queued for the helm, and its action taken. `kind` and `unit` are of Table 18-4 and Table 18-2, `ut` is the unit type, `rule` the base class that
the reporting rule names in place of the table's. -/
def State.record (s : State) (kind ut unit detail at_ : Nat) (rule : Option Nat) (injected : Bool) : State :=
  let base := rule.getD (match kindRow kind with
    | some (b, _, _, _) => b
    | none => 0)
  let (j, g) := s.gleaner.judge kind (unitKey ut unit) base at_
  let r : FaultRec := ⟨(g.seq + 1) % 2 ^ 32, j.cls, base, j.promoted, j.escalated, j.saturation, injected, j.noCounter, kind, unitKey ut unit,
    actionCode kind j.cls, s.unitBarn ut unit, at_, detail⟩
  let before := (s.gleaner.pending, s.gleaner.fatal, s.gleaner.shutdown)
  let g1 : Gleaner := { g with
    seq := r.seq, lastSeq := r.seq, lastClass := r.cls, ring := lastN 4096 (g.ring ++ [r])
    latched := if 3 ≤ r.cls then lastN 16 (g.latched ++ [r]) else g.latched
    counts := listSet g.counts r.cls (min (2 ^ 32 - 1) (g.counts.getD r.cls 0 + 1))
    pending := if r.cls < 4 then insertSorted r.cls g.pending else g.pending
    pulse := g.pulse || decide (g.minClass ≤ r.cls)
    notices := if 1 ≤ r.cls then g.notices ++ [r] else g.notices }
  let g2 : Gleaner := if kind = 0x42 then { g1 with shutdown := true, shutWhere := if g1.shutdown then g1.shutWhere else shutWhere unit } else g1
  let s1 := { s with gleaner := g2 }.act kind r.cls unit detail
  let s2 := (if r.cls = 4 then s1.latchFatal else s1).thermFollow
  if (s2.gleaner.pending, s2.gleaner.fatal, s2.gleaner.shutdown) = before then s2 else s2.msix 0 4
/-- R445: of the reports of one cycle the least in KIND, then UNIT_TYPE, then UNIT goes first. -/
def reportLess (a b : Report) : Bool :=
  let x := reportUnit a.kind a.unit
  let y := reportUnit b.kind b.unit
  decide (a.kind < b.kind) || (decide (a.kind = b.kind) && (decide (x.1 < y.1) || (decide (x.1 = y.1) && decide (x.2 < y.2))))
def leastReport (r : Report) : List Report → Report
  | [] => r
  | x :: l => leastReport (if reportLess x r then x else r) l
/-- DETAIL of the record of a report: what the detecting rule names for a phase fault, an HBM row and a temperature, else a free value. -/
def Report.detailOf (r : Report) : Nat :=
  if [0x05, 0x20, 0x21, 0x40, 0x41, 0x42].contains r.kind then r.detail else Config.faultDetail r.kind r.unit r.at_ % 2 ^ 64
def execFaultReport (s : State) : Out :=
  match s.reports with
  | [] => .next s
  | r0 :: l =>
    let r := leastReport r0 (l.filter fun x => decide (x.at_ = r0.at_))
    let (ut, unit) := reportUnit r.kind r.unit
    .next ({ s with reports := removeFirst r s.reports }.record r.kind ut unit r.detailOf r.at_ r.base false)
/-- R441, R442: a source's window ends: no window is open, and an entry without a mark is freed. The unit number carries its type from bit 32. -/
def execCountWindowEnd (kind : BitVec 16) (unit : Nat) (s : State) : Out :=
  let g := s.gleaner
  match g.counter kind.toNat unit with
  | none => .next s
  | some c =>
    if s.reckon < 16000000 * (g.cfg c.kind).window + c.opened then .next s
    else
      let rest := g.counters.filter fun x => decide (x ≠ c)
      .next { s with gleaner := { g with counters := if c.marks = [] then rest else rest ++ [{ c with count := 0, sat := false }] } }

/-! Acknowledgement (R359, R446). -/

/-- The classes of a mask are acknowledged: PENDING bits clear, marks of those classes clear, entries without window or mark are freed. -/
def State.ackClasses (s : State) (mask : Nat) : State :=
  let g := s.gleaner
  let keep (c : Nat) : Bool := !(bitAt mask c)
  let g1 : Gleaner := { g with
    pending := g.pending.filter keep, counters := g.counters.map fun c => { c with marks := c.marks.filter keep } }
  let s1 : State := { s with gleaner := { g1 with counters := g1.live s.reckon } }
  if s1.gleaner.pending = g.pending then s1 else s1.msix 0 4
def execFaultAck (cls : Fin 4) (s : State) : Out := .next (s.ackClasses (2 ^ cls.val))
/-- R359: at the end of the pulse FAULT_N takes the level of HOLD. -/
def execFaultNPulseEnd (s : State) : Out :=
  let g := s.gleaner
  if g.pulse then .next { s with gleaner := { g with pulse := false, level := some g.hold } } else .next s

/-! Notices (R447). -/

/-- The helm serves from its stage 1 on, until it stops (R319). -/
def State.helmServes (s : State) : Bool := decide (s.helm.st ≠ .rom) && !s.helm.stopped
/-- BODY of a fault notice: the record, then zeros. -/
def State.faultNotice (s : State) (r : FaultRec) : State :=
  let body := r.bytes
  let s1 := (s.postNotice 256 0x03 body).postNotice 258 0x03 body
  let s2 := match r.barn with
    | some b => if 2 ≤ r.cls ∧ s1.barnExists b then s1.postNotice b 0x03 body else s1
    | none => s1
  if 3 ≤ r.cls then ([256, 257, 258] ++ tkeys s2.barns).foldl (fun s b => s.postPriority b 0x03 body) s2 else s2
def execFaultNoticePost (s : State) : Out :=
  match s.gleaner.notices with
  | [] => .next s
  | r :: l => if s.helmServes then .next ({ s with gleaner := { s.gleaner with notices := l } }.faultNotice r) else .next s
/-- R416: the generator stops; keys that exist stay in use. -/
def execRngHealthFailure (s : State) : Out :=
  if s.rngStopped then .next s else .next ({ s with rngStopped := true }.report 0x32 s.selfNum 0)

/-! The governor (R457). -/

/-- Throttle-set threshold of a sensor in 1/16 °C (Table 18-7). -/
def throttleSet (sensor : Nat) : Int := if sensor < 512 then 1648 else if sensor < 576 then 1408 else 1472
/-- The sensors a die's governor watches: its junction, its stack's readout, its four zones. -/
def governorInputs (d : Nat) : List Nat :=
  (List.range 32).map (fun k => 32 * d + k) ++ [576 + d] ++ (List.range 4).map fun k => 512 + 4 * d + k
/-- At a millisecond of reckoning time the hold count rises by 8, stays or falls by 4; the new count waits for its frame boundary (R83). -/
def execGovernorTick (die : DieId) (s : State) : Out :=
  let d := die.val
  let xs := (governorInputs d).filter fun n => (s.sensor n).throttle
  let hot := xs.any fun n => match (s.sensor n).last with
    | some t => decide (throttleSet n ≤ t)
    | none => false
  let h := match tget 0 s.holdNotice d with
    | 0 => s.holdOf d
    | n + 1 => n
  let h' := if hot then min 48 (h + 8) else if xs ≠ [] then h else h - 4
  if h' = h then .next s else .next { s with holdNotice := tset 0 s.holdNotice d (h' + 1) }

end Sys2Proof.Machine
end

