-- ==== Sys2Proof/Machine/Calib.lean ====
section
/-! DEFINITION. Light control and calibration in service: sensors, heater codes, quality figures, retrims and captures (spec/08), and the
temperature thresholds (spec/18 R452 to R459). -/
namespace Sys2Proof.Machine

/-- Whether bring-up has completed stage `n` since the last package reset. -/
def State.stageDone (s : State) (n : Nat) : Bool :=
  decide (n < s.bu.stage) || (decide (s.bu.stage = n) && (decide (s.bu.st = .done) || decide (s.bu.st = .ready)))

/-! Temperature sensors (R452 to R456, Table 18-7). Temperatures in 1/16 °C. -/

/-- WARN set and clear, THROTTLE set and clear, shutdown, fast mode from, slow mode at. -/
structure Thresholds where
  warnSet : Int
  warnClear : Int
  throttleSet : Int
  throttleClear : Int
  shutdown : Int
  fast : Int
  slow : Int
  deriving DecidableEq, Repr
def thresholds (sensor : Nat) : Thresholds :=
  if sensor < 512 then ⟨1520, 1472, 1648, 1584, 1840, 1568, 1536⟩
  else if sensor < 576 then ⟨1280, 1232, 1408, 1344, 1600, 1328, 1296⟩
  else ⟨1360, 1312, 1472, 1424, 1600, 1392, 1360⟩
/-- A flag set at or above one value and cleared at or below another. -/
def flagAt (old : Bool) (set clear t : Int) : Bool := if set ≤ t then true else if t ≤ clear then false else old
/-- Table 18-6: die sensors start in stage 4, base-layer sensors in stage 1, HBM readouts in stage 7. -/
def State.sensorOn (s : State) (n : Nat) : Bool :=
  if n < 512 then decide (4 ≤ s.bu.stage) else if n < 576 then decide (1 ≤ s.bu.stage) else decide (7 ≤ s.bu.stage)
/-- The sensors behind one flag pair of the thermal summary: a die's, a zone's or a stack's. -/
def summarySensors (n : Nat) : List Nat := if n < 512 then (List.range 32).map fun k => 32 * (n / 32) + k else [n]
def State.anyWarn (s : State) (l : List Nat) : Bool := l.any fun n => (s.sensor n).warn
def State.anyThrottle (s : State) (l : List Nat) : Bool := l.any fun n => (s.sensor n).throttle
/-- A quotient, rounded up or down where it is no whole number. -/
def roundQuot (v n : Int) (up : Bool) : Int := if v % n = 0 ∨ !up then v / n else v / n + 1
/-- The mean of temperatures, and a temperature in 0.1 °C (log 10). -/
def meanTemp (l : List Int) : Int :=
  let a := l.foldl (· + ·) 0
  roundQuot a l.length (Config.meanUp a l.length)
def tenths (t : Int) : Int := roundQuot (10 * t) 16 (Config.tenthsUp t)
/-- The mean that stands for a retired sensor (R197). -/
def State.sensorMean (s : State) (n : Nat) : Option Int :=
  match (Config.sensorNeighbours n).filterMap fun k => (s.sensor k).last with
  | [] => none
  | l => some (meanTemp l)
/-- The flags of a sensor follow a valid sample (R455); each flag that becomes set is reported, and MSI-X vector 5 tells of a flag of the summary
that becomes set (R351). -/
def State.judgeFlags (s : State) (n : Nat) (t : Int) : State :=
  let x := s.sensor n
  let th := thresholds n
  let w := flagAt x.warn th.warnSet th.warnClear t
  let h := flagAt x.throttle th.throttleSet th.throttleClear t
  let l := summarySensors n
  let s1 := s.setSensor n { x with last := some t, warn := w, throttle := h }
  let s2 := if w ∧ !x.warn then s1.report 0x40 n (wrapTo 16 t) else s1
  let s3 := if h ∧ !x.throttle then s2.report 0x41 n (wrapTo 16 t) else s2
  let s4 := if w ∧ !s.anyWarn l then s3.msix 0 5 else s3
  (if h ∧ !s.anyThrottle l then s4.msix 0 5 else s4).thermFollow
/-- R194: a zone whose temperature leaves its validated band starts a retrim, once its offsets have been fitted; after a restore no earlier than
ready (R210). -/
def State.zoneBand (s : State) (z : Nat) (t : Int) : State :=
  let centre := signedOf 16 (s.calRead 2 (2 * z) 2)
  let zn := tget Zone.init s.zones z
  if s.stageDone 5 ∧ (s.ready ∨ !s.bu.warm) ∧ !zn.retrim ∧ (10 * t - 16 * centre > 1600 ∨ 16 * centre - 10 * t > 1600) then
    { s with zones := tset Zone.init s.zones z { zn with retrim := true } }
  else s
/-- A valid sample, or the mean that stands for one: flags, mode, the shutdown run, and for a zone its band. -/
def State.validSample (s : State) (n : Nat) (t : Int) : State :=
  let x := s.sensor n
  let th := thresholds n
  let run := if th.shutdown ≤ t ∧ !(x.retired ∧ n < 512) then min 2 (x.run + 1) else 0
  let fast := if th.fast ≤ t then true else if t ≤ th.slow then false else x.fast
  let s1 := (s.setSensor n { x with run := run, fast := fast }).judgeFlags n t
  let s2 := if run = 2 ∧ x.run = 1 then s1.report 0x42 n (wrapTo 16 t) else s1
  if 512 ≤ n ∧ n < 576 then s2.zoneBand (n - 512) t else s2
/-- One output of a sensor. The first three after a synchronising reset are invalid; slow mode takes one output in 20. -/
def execSensorSample (sensor : SensorId) (temp : BitVec 16) (s : State) : Out :=
  let n := sensor.val
  let x := s.sensor n
  if !s.sensorOn n then .next s
  else if n < 576 ∧ !x.retired ∧ x.invalid ≠ 0 then .next (s.setSensor n { x with invalid := x.invalid - 1 })
  else
    let fast := if x.retired then (Config.sensorNeighbours n).any fun k => (s.sensor k).fast else x.fast
    let s1 := s.setSensor n { x with phase := (x.phase + 1) % 20 }
    if !fast ∧ x.phase ≠ 0 then .next s1
    else if x.retired then
      (match s1.sensorMean n with
       | some t => .next (s1.validSample n t)
       | none => .next s1)
    else .next (s1.validSample n (signedOf 16 temp.toNat))
/-- R197, R459: a sensor retires; its flags are recomputed at once from its neighbours' mean. Without both sensors a cluster is unwatched. -/
def State.retireSensor (s : State) (n : Nat) : State :=
  let x := s.sensor n
  if x.retired then s
  else
    let s1 := (s.setSensor n { x with retired := true, residWarn := false, run := 0 }).report 0x43 n 0
    let s2 := match s1.sensorMean n with
      | some t => s1.judgeFlags n t
      | none => s1
    let s3 := if n < 512 then s2.setSensor n { s2.sensor n with last := none } else s2
    let mate := if n % 2 = 0 then n + 1 else n - 1
    if n < 512 ∧ (s3.sensor mate).retired then s3.report 0x44 (n / 2) 0 else s3
/-- Every 10 s: the residual of a trimmed sensor against its neighbours' mean, signed, 0.1 °C. -/
def execSensorResidualCheck (sensor : Fin 576) (residual : BitVec 16) (s : State) : Out :=
  let n := sensor.val
  let x := s.sensor n
  let r := (signedOf 16 residual.toNat).natAbs
  if !s.sensorOn n ∨ x.retired ∨ x.last.isNone then .next s
  else
    let s1 := s.setSensor n { x with residWarn := decide (15 < r), resid := signedOf 16 residual.toNat }
    let s2 := if 15 < r ∧ !x.residWarn then s1.report 0x15 (13 * 2 ^ 24 + n) r else s1
    .next (if 30 < r then s2.retireSensor n else s2)

/-! Heater codes (R193). -/

/-- Zone temperature: the zone sensor's sample, or the mean that stands for it. -/
def State.zoneTemp (s : State) (z : Nat) : Option Int :=
  if (s.sensor (512 + z)).retired then s.sensorMean (512 + z) else (s.sensor (512 + z)).last
def ringKind (r : Nat) : Nat := if r < 9344 then 0 else if r < 17536 then 1 else if r < 211136 then 2 else 3
/-- Table value at a temperature in 1/16 °C: linear between the points of every 2 °C, and beyond the ends along the end pair. -/
def tableValue (zone kind : Nat) (t : Int) : Int :=
  let i := min 39 ((t - 320) / 32).toNat
  let p := Config.factoryPoint zone kind i
  let q := Config.factoryPoint zone kind (i + 1)
  let v := 32 * p + (q - p) * (t - 320 - 32 * (i : Int))
  roundQuot v 32 (Config.heaterUp v)
def State.ringOffset (s : State) (r : Nat) : Int := signedOf 12 (s.calRead 1 (2 * r) 2)
/-- The code before the clamp to 0 to 4,095. -/
def State.heaterWant (s : State) (r : Nat) : Option Int :=
  let z := Config.ringZone r % 64
  (s.zoneTemp z).map fun t => tableValue z (ringKind r) t + s.ringOffset r
/-- R192: rings of absent ports and of the attachment links that serve them are parked and take no part. -/
def State.linkParked (s : State) (l : Nat) : Bool :=
  if 512 ≤ l then !portFitted s.variant (l - 512)
  else match attachPort l with
    | some p => !portFitted s.variant p
    | none => false
def State.ringParked (s : State) (r : Nat) : Bool := match ringPlace r with
  | some n => s.linkParked n
  | none => false
def State.heaterCode (s : State) (r : Nat) : Nat :=
  if s.ringParked r then 0
  else match s.heaterWant r with
    | some v => (max 0 (min 4095 v)).toNat
    | none => 0
/-- A ring held at a limit of its code counts as beyond the action limit. -/
def State.ringHeld (s : State) (r : Nat) : Bool := !s.ringParked r && (s.heaterWant r).any fun v => decide (v < 0) || decide (4095 < v)

/-! Quality figures (R197 to R199). -/

/-- The transmitting side of a receiver: the link whose path ends at receive link `n`, or port n − 512. -/
def State.txLink (s : State) (n : Nat) : Option Nat := if 512 ≤ n then some n else s.txOf n
/-- The edge port behind a receiver: a port's own, or an attachment receive link (R173). -/
def rxPort (n : Nat) : Option Nat := if 512 ≤ n then some (n - 512) else attachPort n
/-- Light at a receiver that is live and framed (R181). -/
def State.rxFramed (s : State) (n : Nat) : Bool :=
  match rxPort n with
  | some p => decide ((s.port p).st = .up)
  | none => match s.txOf n with
    | some l => (s.link l).framed
    | none => false
def State.rxSwept (s : State) (n : Nat) : Bool :=
  match rxPort n with
  | some p => decide ((s.port p).st = .maint)
  | none => match s.txOf n with
    | some l => (match (s.link l).work with
      | .calib _ _ _ => true
      | _ => false)
    | none => false
/-- STALE of Table 8-5. -/
def State.laneStale (s : State) (n k : Nat) : Bool :=
  !s.rxFramed n || (match (s.lane (16 * n + k)).updated with
    | some t => decide (1600000000 + t < s.reckon)
    | none => true)
/-- A figure crosses its limits on framed light: the warning is a note, the action a sweep of the link. Inside the warning limit both conditions
clear. -/
def State.judgeLane (s : State) (n k bit : Nat) (warn act : Bool) : State :=
  let i := 16 * n + k
  let x := s.lane i
  if !warn then
    s.setLane i { x with warn := x.warn &&& (7 - 2 ^ bit), action := x.action &&& (7 - 2 ^ bit) }
  else
    let newWarn := !bitAt x.warn bit
    let newAct := act && !bitAt x.action bit
    let s1 := s.setLane i { x with warn := x.warn ||| 2 ^ bit, action := if act then x.action ||| 2 ^ bit else x.action }
    let s2 := if newWarn then s1.report 0x15 (7 * 2 ^ 24 + i) bit else s1
    if newAct then
      (match s2.txLink n with
       | some l => s2.calAsk l false 0 false
       | none => s2)
    else s2
/-- A new figure of a lane: kept from framed light and from a sweep, judged only on framed light. -/
def State.laneFigure (s : State) (n k bit : Nat) (warn act : Bool) (f : Lane → Lane) : State :=
  if s.linkParked n then s
  else if s.rxFramed n then
    (s.setLane (16 * n + k) { f (s.lane (16 * n + k)) with updated := some s.reckon }).judgeLane n k bit warn act
  else if s.rxSwept n then s.setLane (16 * n + k) { f (s.lane (16 * n + k)) with updated := some s.reckon }
  else s
/-- `link` is a receive link, or 512 + port. The limits are 0.40 and 0.30 UI, in 1/64 UI. -/
def execEyeWidthMeasure (link : Fin 584) (lane : Fin 16) (width : Fin 65) (s : State) : Out :=
  .next (s.laneFigure link.val lane.val 0 (decide (width.val < 26)) (decide (width.val < 20)) fun x => { x with eyeW := width.val })
def execEyeHeightMeasure (link : Fin 584) (lane : Fin 16) (height : BitVec 8) (s : State) : Out :=
  .next (s.laneFigure link.val lane.val 1 (decide (height.toNat < 60)) (decide (height.toNat < 40)) fun x => { x with eyeH := height.toNat })
def execBerWindowEnd (link : Fin 584) (lane : Fin 16) (exp : BitVec 8) (s : State) : Out :=
  .next (s.laneFigure link.val lane.val 2 (decide (exp.toNat < 90)) (decide (exp.toNat < 70)) fun x => { x with ber := exp.toNat })
/-- R198: over 2^20 frames, a lane with more than half of the corrected symbols, and at least 4,096, is excluded. `corrected` counts by lane those of
the window's frames that came by no row of their own. -/
def execExclusionWindowEnd (link : Fin 584) (corrected : List (Fin 16 × Nat)) (s : State) : Out :=
  let n := link.val
  if s.linkParked n ∨ !s.rxFramed n then .next s
  else
    let count (k : Nat) : Nat := ((corrected.find? fun x => decide (x.1.val = k)).map (·.2)).getD 0 + (s.lane (16 * n + k)).corr
    let total := (List.range 16).foldl (fun a k => a + count k) 0
    let s1 := (List.range 16).foldl (fun (s : State) k =>
      s.setLane (16 * n + k) { s.lane (16 * n + k) with
        share := if total = 0 then 0 else min 255 (256 * count k / total), updated := some s.reckon, corr := 0 }) s
    match (List.range 16).find? fun k => decide (total < 2 * count k) && decide (4096 ≤ count k), s1.txLink n with
    | some k, some l => .next (s1.excludeLane l k true)
    | _, _ => .next s1

/-! Ring residuals (R194, R197, R203). -/

def ringLane (r : Nat) : Nat := if r < 9344 then r % 16 else (r - 9344) % 16
/-- The action of a ring's residual: a re-lock with the lane excluded meanwhile, or for a cell or selector a sweep of its link. -/
def State.ringRelock (s : State) (r : Nat) : State :=
  match s.ringLink r with
  | none => s
  | some l =>
    if r < 17536 then ({ s with relocks := insertSorted r s.relocks }.report 0x14 r 0).excludeLane l (ringLane r) false
    else s.calAsk l false 0 false
/-- A residual in 0.1 pm against 6 pm and 12 pm. -/
def State.judgeRing (s : State) (r res : Nat) : State :=
  let beyond := decide (120 < res) || s.ringHeld r
  if res ≤ 60 ∧ !beyond then { s with ringWarn := s.ringWarn.filter (fun x => decide (x ≠ r)), ringAct := s.ringAct.filter fun x => decide (x ≠ r) }
  else
    let newWarn := !s.ringWarn.contains r
    let newAct := beyond && !s.ringAct.contains r
    let s1 := { s with ringWarn := insertSorted r s.ringWarn, ringAct := if beyond then insertSorted r s.ringAct else s.ringAct }
    let s2 := if newWarn then s1.report 0x15 (8 * 2 ^ 24 + r) res else s1
    if newAct then s2.ringRelock r else s2
/-- The light of a ring's link is live: the loop runs. -/
def State.ringLive (s : State) (r : Nat) : Bool :=
  match s.ringLink r with
  | some l => !s.linkParked l && (if 512 ≤ l then decide ((s.port (l - 512)).st = .up) else decide ((s.link l).st = .live))
  | none => false
def State.putOffset (s : State) (r : Nat) (v : Int) : State :=
  s.calPut 1 (2 * r) (leBytes 2 (wrapTo 12 (max (-2048) (min 2047 v))))
/-- R194: the loop measures the residual of a modulator or demultiplexer ring (0.1 pm, signed) and moves its offset by −1, 0 or 1 code (`move` 0,
1, 2). Switch cells and selectors have a residual only from a retrim or a sweep, and no loop. -/
def execLockLoopUpdate (ring : Fin 212888) (residual : BitVec 16) (move : Fin 3) (s : State) : Out :=
  let r := ring.val
  if !s.ringLive r then .next s
  else
    let s1 := if r < 17536 ∧ s.capture.isNone then s.putOffset r (s.ringOffset r + (move.val : Int) - 1) else s
    let res := signedOf 16 residual.toNat
    .next (State.judgeRing { s1 with ringRes := tset 0 s1.ringRes r res } r res.natAbs)
/-- The re-lock ends with the ring's new offset, and the width is restored. -/
def execRingRelockComplete (ring : Fin 17536) (offset : BitVec 12) (s : State) : Out :=
  let r := ring.val
  if !s.relocks.contains r then .next s
  else
    let s1 := State.putOffset { s with relocks := s.relocks.filter fun x => decide (x ≠ r) } r (signedOf 12 offset.toNat)
    match s1.ringLink r with
    | some l => .next (s1.restoreLane l (ringLane r))
    | none => .next s1
/-- R194: the retrim ends with new offsets for the zone's rings, and a new band centred on the current temperature. -/
def execZoneRetrimComplete (zone : Fin 64) (trims : List (BitVec 32 × Byte)) (s : State) : Out :=
  let z := zone.val
  let zn := tget Zone.init s.zones z
  if !zn.retrim then .next s
  else
    let s1 := s.calApply (fun sec off => decide (sec = 1) && decide (Config.ringZone (off / 2) % 64 = z)) trims
    let s2 := match s1.zoneTemp z with
      | some t => s1.calPut 2 (2 * z) (leBytes 2 (wrapTo 16 (tenths t)))
      | none => s1
    .next (opFinAll { s2 with zones := tset Zone.init s2.zones z Zone.init } 2 0x00 zn.ops)

/-! Analogue recheck (R201). -/

/-- New current-sense and sensor offset codes; a sensor whose trim changes has a synchronising reset (R453). -/
def State.retrimAnalogue (s : State) (currentSense offsets : List Byte) : State :=
  let old := memRead s.cal (calBase 6) 1152
  let new := padTo 1152 offsets
  let s1 := (s.calWrite 5 0 (padTo 1024 currentSense)).calWrite 6 0 new
  (List.range 576).foldl (fun (s : State) n =>
    if (old.drop (2 * n)).take 2 = (new.drop (2 * n)).take 2 then s
    else s.setSensor n { s.sensor n with invalid := 3, phase := 0, last := none }) s1
/-- RCAL as measured, in mΩ, against ±2 % of 2.000 kΩ and ±0.5 % of the boot reading. -/
def execAnalogueRecheck (rcal : BitVec 32) (currentSense offsets : List Byte) (s : State) : Out :=
  let v := rcal.toNat
  let d := if v ≤ s.rcalBoot then s.rcalBoot - v else v - s.rcalBoot
  if !s.ready then .next s
  else if v < 1960000 ∨ 2040000 < v then .next ({ s with rcalHeld := true }.report 0x35 0 v)
  else if s.rcalBoot < 200 * d then .next (({ s with rcalHeld := false }.report 0x34 0 v).retrimAnalogue currentSense offsets)
  else .next { s with rcalHeld := false }

/-! Training frames (R202). -/

/-- A handshake that a link receives back ends its relock: of a feed failover, or of a staged entry (Tables 7-8, 7-11). -/
def State.handshake (s : State) (l : Nat) : Out :=
  if (s.link l).work = .relock then .next (s.relocked l)
  else if h : l < 512 then
    match s.entryOf l with
    | some (_, e) => if e.ph = .relock then execSteerEntryLive ⟨l, h⟩ s else .next s
    | none => .next s
  else .next s
/-- A partner's width proposal at a port: both ends take the AND of the masks; each lane that it takes out of a port in UP is reported (R285). -/
def State.portProposal (s : State) (p mask : Nat) : State :=
  let x := s.port p
  match x.st with
  | .width => s.setPort p { x with propose := x.propose &&& mask }
  | .up =>
    let m := x.laneMask &&& mask
    if m = x.laneMask ∨ x.maint.isSome then s
    else ((List.range 16).filter fun k => bitAt x.laneMask k && !bitAt m k).foldl (fun s k => s.report 0x10 (16 * (512 + p) + k) 0) (s.portWidth p m)
  | _ => s
/-- A frame about transmit link `link` of the path or port being trained: a handshake that asks for one is answered by the receiving side, one with
ACK ends a relock; a width proposal is ANDed with the receiver's own. Lock, deskew and eye-scan frames carry patterns only. -/
def execTrainingFrameRx (link : Fin 584) (f : TrainFrame) (s : State) : Out :=
  let l := link.val
  if f.tkind = 4 then
    if f.ack then s.handshake l
    else if f.ackReq then .next (s.train (if 512 ≤ l then l else (s.link l).rx.getD l) 4 f.laneMask true)
    else .next s
  else if f.tkind = 5 then
    if 512 ≤ l then .next (s.portProposal (l - 512) f.laneMask)
    else
      let x := s.link l
      match x.work with
      | .width m => .next (s.setLink l { x with work := .width (m &&& f.laneMask) })
      | .none =>
        let m := x.mask &&& f.laneMask
        if x.st = .live ∧ m ≠ x.mask then .next ((s.setLink l { x with work := .width m }).train l 5 m false) else .next s
      | _ => .next s
  else .next s

/-! Core BIST (R206) and captures (R209, Table 8-8). -/

/-- R206: every tested core is zeroed; a core that fails is reported and marked unavailable. -/
def execCoreBistComplete (op : Nat) (failed : List (Fin 16384)) (s : State) : Out :=
  match s.op op with
  | none => .next s
  | some o =>
    if o.opcode ≠ 0x0503 ∨ o.args.headD 0 ≠ 4 ∨ o.fin.isSome ∨ o.st ≠ 1 then .next s
    else
      let s1 := o.work.foldl (fun (s : State) c =>
        let s' := if (s.core c).power = .bist then s.onCore c fun k => { k with power := .zeroing } else s
        if failed.any fun x => decide (x.val = c) then s'.report 0x04 c 0 else s') s
      .next (State.opFin { s1 with bist := s1.bist.filter fun c => !o.work.contains c } op 2 0x00)
/-- Sections as they stand, one behind another from byte 192. -/
def State.calSections (s : State) : List (List Byte) :=
  (calLengths.zipIdx).map fun (n, i) => memRead s.cal (calBase (i + 1)) n
def calDirectory : Nat → Nat → List (List Byte) → List Byte
  | _, _, [] => []
  | id, off, x :: l =>
    leBytes 2 id ++ leBytes 2 0 ++ leBytes 4 off ++ leBytes 4 x.length ++ leBytes 4 (crc32c x).toNat ++ calDirectory (id + 1) (off + x.length) l
/-- A calibration image as CAL_SAVE writes it. -/
def State.calImageBytes (s : State) : List Byte :=
  let secs := s.calSections
  let zones := (List.range 64).filterMap fun z => s.zoneTemp z
  let fw := match s.helm.image with
    | some i => i.version
    | none => 0
  let head := leBytes 4 0x49434E46 ++ leBytes 2 1 ++ leBytes 2 9 ++ leBytes 16 s.nv.idDigest ++ leBytes 8 fw ++ leBytes 8 (s.alm.time / 2 ^ 24)
    ++ leBytes 2 (wrapTo 16 (tenths (meanTemp zones))) ++ leBytes 6 0
  let body := head ++ calDirectory 1 192 secs ++ secs.flatten
  body ++ leBytes 48 (Config.calTag body).toNat
/-- The image as the flash holds it: what a later restore reads of it. -/
def State.calSnapshot (s : State) : CalImage := ⟨s.alm.time / 2 ^ 24, s.cal, (List.range 12).map fun m => (s.module m).serial, 0⟩
/-- R475: CAL_SAVE to flash writes the slot that does not hold the newer valid image. -/
def NonVol.putCal (nv : NonVol) (i : CalImage) : NonVol :=
  let t (x : Option CalImage) : Nat := match x with
    | some x => if x.reason = 0 then x.time + 1 else 0
    | none => 0
  if t nv.cal0 ≤ t nv.cal1 then { nv with cal0 := some i } else { nv with cal1 := some i }
def execCalCaptureComplete (op : Nat) (s : State) : Out :=
  match s.capture with
  | some (n, toFlash) =>
    if n ≠ op then .next s
    else
      let s0 := State.calRelease { s with capture := none }
      if toFlash then .next (State.opFin { s0 with nv := s0.nv.putCal s.calSnapshot } n 2 0x00)
      else .next ((s0.opBuffer n s.calImageBytes).opFin n 2 0x00)
  | none => .next s

end Sys2Proof.Machine
end

