-- ==== Sys2Proof/Machine/Time.lean ====
section
/-! DEFINITION. Clocks, the reckoning counter and its sources, the almanac and the usage meters (spec/16, spec/14 R361, R362), and the tick of the
800 MHz clock (log 1). -/
namespace Sys2Proof.Machine

/-! Servo (R394, R397). Offsets in 1/16 ns. -/

/-- The note of a package that loses its lock or finds a time loop (log 21). -/
def State.timeNote (s : State) : State := s.report 0x19 s.selfNum 0
/-- R397: a missing measurement. -/
def State.timeMissing (s : State) : State :=
  let c := s.clock
  let m := min 8 (c.miss + 1)
  let s1 := { s with clock := { c with good := 0, miss := m, locked := c.locked && decide (m < 8) } }
  if c.locked ∧ m = 8 then s1.timeNote else s1
/-- R394: a step only while LOCKED is 0 and the source is ahead by more than 1 ms; any other correction is slewed. -/
def State.timeCorrect (s : State) (θ : Int) : State :=
  if !s.clock.locked ∧ θ < -16000000 then
    { s with reckon := (s.reckon + θ.natAbs) % 2 ^ 64, clock := { s.clock with owed := 0 } }
  else { s with clock := { s.clock with owed := -θ } }
/-- R397: a measurement θ, local minus source. -/
def State.timeMeasure (s : State) (θ : Int) : State :=
  let c := s.clock
  let good := if θ.natAbs ≤ 32 then min 8 (c.good + 1) else 0
  let far := decide (128 < θ.natAbs)
  let s1 := { s with clock := { c with
    good := good, miss := 0, locked := !far && (c.locked || decide (good = 8)), offset := max (-32768) (min 32767 θ) } }
  (if c.locked ∧ far then s1.timeNote else s1).timeCorrect θ
/-- R399: a configuration takes effect: LOCKED clears and the new source must lock afresh. -/
def State.timeApply (s : State) : State :=
  match s.clock.next with
  | none => s
  | some (src, port, period) =>
    { s with clock := { s.clock with
        next := none, source := src, port := port, period := period, locked := false, good := 0, miss := 0, owed := 0, exch := none, depth := 0 } }

/-! The fabric time exchange (R396). -/

def timeBody (kind flags seq depth t2 : Nat) : List Byte :=
  leBytes 1 kind ++ leBytes 1 flags ++ leBytes 2 seq ++ leBytes 1 depth ++ leBytes 3 0 ++ leBytes 8 t2 ++ leBytes 8 0 ++ leBytes 8 0
/-- A TIME_EXCH packet on one edge port, HOPS = 1. -/
def State.timeSend (s : State) (port : Nat) (body : List Byte) : State :=
  let p := mkPkt 0x38 4 (helmEp (s.port port).peer) (helmEp s.selfNum) 0 0 0 body
  s.toPort port { p with hops := 1, course := port }.seal none
/-- One exchange period: a configuration that waits takes effect, an unanswered exchange counts as missing, and the next request goes out. -/
def execTimeExchPeriod (s : State) : Out :=
  let s1 := s.timeApply
  let c := s1.clock
  if c.source ≠ 2 then .next s1
  else
    let s2 := if c.exch.isSome then State.timeMissing { s1 with clock := { c with exch := none } } else s1
    if (s2.port c.port).st ≠ .up then .next s2.timeMissing
    else
      let seq := (c.exchSeq + 1) % 65536
      let s3 := { s2 with clock := { s2.clock with exchSeq := seq, exch := some (seq, s2.reckon) } }
      .next (s3.timeSend c.port (timeBody 1 0 seq 0 0))
/-- A request is answered on the fibre by which it came; a response gives a measurement or is discarded. `stamp` is the port logic's stamp of
its arrival, `replayed` says that either frame was replayed or its superframe failed. -/
def execTimeExch (p : Pkt) (stamp : BitVec 64) (replayed : Bool) (s : State) : Out :=
  let s0 := s.consume p
  let c := s0.clock
  let at_ (i n : Nat) : Nat := leVal ((p.payload.drop i).take n)
  if !p.taken then .next (s0.endTc0 p)
  else if at_ 0 1 = 1 then
    match (List.range 72).find? fun q =>
        (s0.port q).peerValid && decide ((s0.port q).peer = epPkg p.src) && decide ((s0.port q).peerPort = coursePort p.course 0) with
    | none => .next s0
    | some q =>
      let root := c.locked || decide (c.source ≠ 2)
      .next (s0.timeSend q (timeBody 2 (boolNat root) (at_ 2 2) c.depth stamp.toNat))
  else if at_ 0 1 = 2 ∧ c.source = 2 then
    match c.exch with
    | none => .next s0
    | some (seq, t1) =>
      let s1 := { s0 with clock := { c with exch := if at_ 2 2 = seq then none else c.exch } }
      let loop := decide (6 ≤ at_ 4 1)
      if replayed ∨ at_ 2 2 ≠ seq ∨ 3200000 * c.period + t1 < stamp.toNat then .next s1.timeMissing
      else if loop then
        let s2 := s1.timeMissing
        .next (if c.depthNoted then s2 else State.timeNote { s2 with clock := { s2.clock with depthNoted := true } })
      else
        let x : Int := ((stamp.toNat : Int) - (at_ 16 8 : Int)) - ((at_ 8 8 : Int) - (t1 : Int))
        let (half, s2) := s1.free 1
        .next (State.timeMeasure { s2 with clock := { s2.clock with depth := min 255 (at_ 4 1 + 1), depthNoted := false } } ((x + (half : Int)) / 2))
  else .next s0
/-- R388: the PLL holds its last frequency, and the gleaner raises class 4. -/
def execRefclkFault (s : State) : Out :=
  if s.clock.pllHeld then .next s else .next (State.report { s with clock := { s.clock with pllHeld := true } } 0x33 1 0)

/-! Meters (R403 to R406). -/

/-- 96 bytes of Table 16-3. -/
def meterBytes (kind flags barn seq start end_ rk0 rk1 energy core hbm tx rx orphans : Nat) : List Byte :=
  leBytes 1 kind ++ leBytes 1 flags ++ leBytes 2 barn ++ leBytes 4 seq ++ leBytes 8 start ++ leBytes 8 end_ ++ leBytes 8 rk0 ++ leBytes 8 rk1
    ++ leBytes 8 energy ++ leBytes 8 core ++ leBytes 8 hbm ++ leBytes 8 tx ++ leBytes 8 rx ++ leBytes 4 orphans ++ leBytes 12 0
/-- A record joins the ring of meter `b`: 128 records, 256 for the remainder. -/
def State.meterPut (s : State) (b : Nat) (bytes : Nat → List Byte) : State :=
  let m := s.meter b
  { s with meters := tset Meter.init s.meters b { m with next := m.next + 1, ring := lastN (if b = 256 then 256 else 128) (m.ring ++ [bytes m.next]) } }
def State.meterOpenAt (s : State) (b start : Nat) : State :=
  s.onMeter b fun _ => ⟨start, s.reckon, 0, 0, 0, 0, 0, !s.alm.valid⟩
/-- The open interval of barn `b` closes at `end_` with a record in ring `ring`. The energy is what the current sense measured: a free value. -/
def State.meterClose (s : State) (b ring end_ kind : Nat) (forward : Bool) : State :=
  let o := (s.meter b).opened
  let (energy, s1) := s.free 64
  let core := o.core / 16000000
  let hbm := o.hbm / 16000000000
  let lim := 2 ^ 64 - 1
  let sat := decide (lim < core) || decide (lim < hbm) || decide (lim < o.tx) || decide (lim < o.rx) || decide (2 ^ 32 - 1 < o.orphans)
  s1.meterPut ring fun seq =>
    meterBytes kind (boolNat forward + 2 * boolNat o.unset + 4 * boolNat sat) b seq o.start end_ o.rkStart s1.reckon energy
      (min lim core) (min lim hbm) (min lim o.tx) (min lim o.rx) (min (2 ^ 32 - 1) o.orphans)
/-- The meters that are open: every barn's and the remainder's. -/
def State.meterKeys (s : State) : List Nat := tkeys s.barns ++ [256]
/-- R404: the almanac has reached a boundary later than every one closed: each interval closes there and the next opens. -/
def execMeterBoundary (s : State) : Out :=
  let a := s.alm
  let b := a.time / 2 ^ 24 / a.interval * a.interval
  let last := a.lastBoundary.getD 0
  if !a.valid ∨ b ≤ last then .next s
  else
    let forward := decide (a.interval < b - last)
    let s1 := s.meterKeys.foldl (fun s k => (s.meterClose k k (b * 2 ^ 24) 1 forward).meterOpenAt k (b * 2 ^ 24)) s
    .next { s1 with alm := { s1.alm with lastBoundary := some b, interval := a.nextInterval } }
/-- R405: a set to a time before the latest closed boundary reopens nothing: each meter writes a reversal record, unless the set moves time back
without crossing a closed boundary. -/
def State.almLoad (s : State) (t : Nat) : State :=
  let before := s.alm.time
  let s1 := { s with alm := { s.alm with time := t, sub := 0, owed := 0, left := 0, valid := true } }
  match s.alm.lastBoundary with
  | some b =>
    let passed := min (before / 2 ^ 24) b / s.alm.interval * s.alm.interval
    if t < b * 2 ^ 24 ∧ (before ≤ t ∨ t < passed * 2 ^ 24) then
      let s2 := s1.meterKeys.foldl (fun s k => s.meterPut k fun seq =>
        meterBytes 2 0 k seq before t s.reckon s.reckon 0 0 0 0 0 0) s1
      { s2 with alm := { s2.alm with setback := true } }
    else s1
  | none => s1
/-- A write of ALM_CTL (R14, R361): DISCIPLINE takes 0 to 2, 3 leaves it; SET loads ALM_SET (R362). -/
def State.almCtl (s : State) (v : Nat) : State :=
  let sel := v / 65536
  let m := bitsAt sel 1 2
  let e := (s.alm.discipline &&& (3 - m)) ||| (bitsAt v 1 2 &&& m)
  let s1 := if e = 3 then s else { s with alm := { s.alm with discipline := e } }
  if bitAt sel 0 ∧ bitAt v 0 then s1.almLoad s1.alm.set else s1
/-- The ALM_CTL write that selects SET; `v` is the value written. -/
def execAlmanacSet (v : BitVec 32) (s : State) : Out := .next (s.almCtl v.toNat)

/-! PPS_IN (R395, R402). -/

/-- R402: the almanac's error is its fraction to the nearest whole second; a small one is removed by rate over the next second, a larger one by a
step that counts as a set. The new drift estimate is a free value. -/
def State.almPps (s : State) : State :=
  let f : Nat := s.alm.time % 2 ^ 24
  let e : Int := if f ≤ 2 ^ 23 then (f : Int) else (f : Int) - 2 ^ 24
  if e.natAbs ≤ 2 ^ 14 then
    let (d, s1) := s.free 16
    { s1 with alm := { s1.alm with owed := e, left := 800000000, drift := signedOf 16 d, valid := true } }
  else s.almLoad (((s.alm.time : Int) - e).toNat)
/-- A rising edge, `sub` of 1/16 ns into the tick. -/
def execPpsEdge (sub : Fin 20) (s : State) : Out :=
  let s1 := s.timeApply
  let c := s1.clock
  let s2 :=
    if !c.ppsEn then s1
    else
      let cap := (s1.reckon + sub.val) % 2 ^ 64
      let s2 := { s1 with clock := { c with ppsCapture := cap, ppsSeen := true, ppsLast := some cap } }
      if c.source ≠ 1 ∨ !c.ppsAlign then s2
      else
        let bad := match c.ppsLast with
          | some t => decide (cap < 8000000000 + t) || decide (24000000000 + t < cap)
          | none => false
        if bad then s2.timeMissing
        else
          let r := cap % 16000000000
          s2.timeMeasure (if r ≤ 8000000000 then (r : Int) else (r : Int) - 16000000000)
  .next (if s2.alm.discipline = 1 then s2.almPps else s2)

/-! The tick. -/

/-- The issue slots of a tick with `free` cycles that are no hold cycles have passed: those that no instruction took stay empty (R59, R60). -/
def Core.slotsPass (k : Core) (free : Nat) : Core :=
  let r := (List.replicate (free - k.slots) none ++ k.recent).take 3
  { k with recent := if r.all Option.isNone then [] else r, slots := 0, stepped := 0, sentNow := [] }
/-- Two core cycles of a die. -/
def State.dieTick (s : State) (d : Nat) : State :=
  let n := tget 0 s.dieCycle d
  let free := s.freeCycles d
  let s1 := ((tkeys s.cores).filter fun c => decide (coreDie c = d)).foldl (fun s c => s.onCore c fun k => k.slotsPass free) s
  { s1 with dieCycle := tset 0 s.dieCycle d ((n + 2) % 2 ^ 64), dieStep := tset 0 s.dieStep d ((tget 0 s.dieStep d + free) % 2 ^ 64) }
/-- R394: the increment of this tick, and the clock after it. -/
def Clock.tick (c : Clock) : Nat × Clock :=
  if c.owed ≠ 0 ∧ 127 ≤ c.sinceSlew then
    (if 0 < c.owed then (21, { c with owed := c.owed - 1, sinceSlew := 0 }) else (19, { c with owed := c.owed + 1, sinceSlew := 0 }))
  else (20, { c with sinceSlew := min 127 (c.sinceSlew + 1) })
/-- R401: 2^-24 s per 8·10^8 / 2^24 ticks, less the correction under way. -/
def Almanac.tick (a : Almanac) : Almanac :=
  let e := if a.left = 0 then 0 else a.owed
  let x := ((a.sub : Int) + 2 ^ 24 - e).toNat
  { a with time := (a.time + x / 800000000) % 2 ^ 64, sub := x % 800000000, left := a.left - 1, owed := if a.left ≤ 1 then 0 else a.owed }
/-- R401: on VBAT alone the almanac counts cycles of its own oscillator, 512 units each. -/
def Almanac.tickVbat (a : Almanac) : Almanac :=
  let x := a.sub + 2 ^ 24
  let n := x / 409600000000
  { a with time := (a.time + 512 * n) % 2 ^ 64, sub := x % 409600000000 }
def State.clusterUsable (s : State) (k : Nat) : Nat := ((clusterCores k).filter fun c => s.coreUsable c).length
/-- R403: core time and HBM time of one tick, at the owner of each usable cluster and granule, or at the remainder. -/
def State.meterTick (s : State) (inc : Nat) : State :=
  let s1 := s.clusterUp.foldl (fun s k => s.onMeter ((s.clusterBarn k).getD 256) fun m => { m with core := m.core + inc * s.clusterUsable k }) s
  let s2 := (tkeys s1.barns).foldl (fun s b =>
    let n := (s.granules.filter fun (_, g) => decide (g.st = .owned b)).length
    if n = 0 then s else s.onMeter b fun m => { m with hbm := m.hbm + inc * n }) s1
  let fitted := if s.variant = 2 then 768 else 1024
  let n := fitted - (s.granules.filter fun (_, g) => g.retired || (match g.st with | .owned _ => true | _ => false)).length
  if s.stageDone 7 ∧ n ≠ 0 then s2.onMeter 256 fun m => { m with hbm := m.hbm + inc * n } else s2
/-- One tick of the 800 MHz clock (R387, R389, R392). -/
def State.tick (s : State) : State :=
  if !s.pins.vaux then (if s.pins.vbat then { s with alm := s.alm.tickVbat } else s)
  else
    let (inc, c) := s.clock.tick
    let s1 := { s with clock := c, reckon := (s.reckon + inc) % 2 ^ 64, alm := s.alm.tick }
    let s2 := if s1.stageDone 4 then (List.range 16).foldl (fun s d => s.dieTick d) s1 else s1
    s2.meterTick inc

end Sys2Proof.Machine
end

