-- ==== Sys2Proof/Machine/Command.lean ====
section
/-! DEFINITION. Command framing at the berths (spec/13 R330 to R334, Tables 13-7 to 13-9): the request, the checks every command meets, the
reply, and how a long command becomes an operation. -/
namespace Sys2Proof.Machine

/-- A request as its header and payload give it (Table 13-7). -/
structure Cmd where
  berth : Nat
  who : Nat
  opcode : Nat
  length : Nat
  rsv : Bool
  tag : Nat
  akind : Nat
  sdb : Bool
  bufLen : Nat
  statusAddr : Nat
  bufAddr : Nat
  payload : List Byte
  deriving DecidableEq, Repr
def parseCmd (berth who : Nat) (req : List Byte) : Cmd :=
  let h := leVal (req.take 32)
  { berth := berth, who := who, opcode := bitsAt h 0 16, length := bitsAt h 16 9
    rsv := decide (bitsAt h 25 7 = 0) && decide (bitsAt h 67 29 = 0)
    tag := bitsAt h 32 32, akind := bitsAt h 64 2, sdb := bitAt h 66, bufLen := bitsAt h 96 32
    statusAddr := bitsAt h 128 64, bufAddr := bitsAt h 192 64, payload := (req.drop 32).take (bitsAt h 16 9) }
/-- `n` bytes of the payload from offset `i`, as a number. -/
def Cmd.at (c : Cmd) (i n : Nat) : Nat := leVal ((c.payload.drop i).take n)
/-- The barn of the requester (Table 13-4); 0 for I3C, JTAG and peers. -/
def Cmd.barn (c : Cmd) : Nat := idBarn c.who

/-- A reply's RESULT, DETAIL, OPNUM and data (Table 13-8). -/
structure Rep where
  result : Nat
  detail : Nat
  opnum : Nat
  data : List Byte
  deriving DecidableEq, Repr
def Rep.ok (data : List Byte) : Rep := ⟨0, 0, 0, data⟩
def Rep.err (result : Nat) : Rep := ⟨result, 0, 0, []⟩
def Rep.refused (detail : Nat) : Rep := ⟨0x0A, detail, 0, []⟩
/-- Refused for the `n`-th reason of the command's rule, to which the spec gives no code (log 10). -/
def Rep.reason (opcode n : Nat) : Rep := .refused (Config.reasonCode opcode n % 256)
def Rep.accepted (n : Nat) : Rep := ⟨0x01, 0, n, []⟩
/-- The reply's bytes; BERTH_REPLY puts RSEQ into bytes 12 to 15. -/
def Cmd.reply (c : Cmd) (r : Rep) : List Byte :=
  leBytes 2 c.opcode ++ leBytes 1 r.result ++ leBytes 1 r.detail ++ leBytes 4 c.tag ++ leBytes 4 r.opnum ++ leBytes 4 0
    ++ leBytes 2 (min 224 r.data.length) ++ leBytes 6 0 ++ leBytes 8 c.who ++ r.data.take 224

/-- The opcodes of Table 13-12 and the tables it names. -/
def opcodes : List Nat :=
  [0x0000, 0x0001, 0x0002, 0x0003, 0x0004, 0x0101, 0x0102, 0x0103, 0x0110, 0x0111, 0x0112, 0x0113, 0x0114, 0x0115, 0x0116]
    ++ [0x0201, 0x0202, 0x0203, 0x0204, 0x0205, 0x0206, 0x0207, 0x0208, 0x0209, 0x020A, 0x020B]
    ++ [0x0301, 0x0302, 0x0303, 0x0304, 0x0305, 0x0401, 0x0402, 0x0403, 0x0404, 0x0405, 0x0406, 0x0407, 0x0408, 0x0409]
    ++ [0x0501, 0x0502, 0x0503, 0x0504, 0x0505, 0x0601, 0x0602, 0x0610, 0x0611, 0x0612, 0x0613, 0x0614, 0x0701, 0x0702, 0x0703, 0x7F10]
/-- R439: the commands that berths 256 and 258 serve after class 4. -/
def fatalServes (berth opcode : Nat) : Bool :=
  (berth == 256 || berth == 258) && [0x0610, 0x0611, 0x0613, 0x0614, 0x0101, 0x0004, 0x0110].contains opcode
/-- Berths of the columns of Table 13-12. -/
def atAny (_ : Nat) : Bool := true
def at256 (b : Nat) : Bool := b == 256
def at257 (b : Nat) : Bool := b == 257
def atBarn (b : Nat) : Bool := decide (b < 256)
def at256Barn (b : Nat) : Bool := b == 256 || decide (b < 256)
def at257Barn (b : Nat) : Bool := b == 257 || decide (b < 256)
def at256257 (b : Nat) : Bool := b == 256 || b == 257
def at256258 (b : Nat) : Bool := b == 256 || b == 258
/-- Malformed: a LENGTH outside 0 to 480 or below what the command's payload needs, a reserved field, an ADDR_KIND that the sender may not use:
kind 1 is for PCIe functions, kind 2 for senders with a barn, kind 3 for none. -/
def Cmd.malformed (c : Cmd) (need : Nat) : Bool :=
  decide (480 < c.length) || decide (c.length < need) || !c.rsv || decide (c.akind = 3)
    || (decide (c.akind = 1) && idKind c.who != 1 && idKind c.who != 2) || (decide (c.akind = 2) && decide (2 < idKind c.who))
/-- STATUS_ADDR aligned and the requester's to name, where one is given: ADDR_KIND 0 gives none. -/
def State.statusOk (s : State) (c : Cmd) : Bool :=
  c.akind == 0 || c.statusAddr == 0 || (decide (c.statusAddr % 8 = 0) && s.addrOk c.akind c.who c.barn c.statusAddr 32)
/-- A buffer of at least `n` bytes that the requester may name. -/
def State.bufOk (s : State) (c : Cmd) (n : Nat) : Bool :=
  decide (c.bufAddr % 64 = 0) && decide (n ≤ c.bufLen) && s.addrOk c.akind c.who c.barn c.bufAddr (max 1 n)
/-- The first `n` bytes of an input buffer: of host memory they are what the read brings (an operand, log 7), of this package they are read. -/
def State.bufIn (s : State) (c : Cmd) (n : Nat) (host : List Byte) : List Byte :=
  if c.akind = 1 then padTo n host else s.localRead c.bufAddr n
def State.bufOut (s : State) (c : Cmd) (bs : List Byte) : State := s.putAt c.akind c.who c.barn c.bufAddr (bs.take c.bufLen)

/-- A request being served at a slot without a reply yet, if it carries this opcode. -/
def State.request (s : State) (b k opcode : Nat) : Option Cmd :=
  let x := (s.berth b).slot k
  let c := parseCmd b x.who x.req
  if x.st = .serving ∧ x.rep = none ∧ c.opcode = opcode then some c else none
def State.setRep (s : State) (b k : Nat) (rep : List Byte) : State :=
  s.setBerth b ((s.berth b).setSlot k { (s.berth b).slot k with rep := some rep })
/-- Serves a command: the checks in the order of Table 13-9's codes, class 4 first of them, then the command's own work. The reply waits in the slot
for BERTH_REPLY. -/
def serve (b k opcode : Nat) (berths : Nat → Bool) (need : Nat) (f : Cmd → State → Rep × State) (s : State) : Out :=
  match s.request b k opcode with
  | none => .next s
  | some c =>
    let (r, s1) :=
      if s.gleaner.fatal ∧ !fatalServes b opcode then (Rep.err 0x07, s)
      else if !berths b then (Rep.err 0x03, s)
      else if c.malformed need then (Rep.err 0x04, s)
      else f c s
    .next (s1.setRep b k (c.reply r))

/-! Long commands (R332). -/

/-- A long command becomes operation number `opNext`, or is refused: 256 run, or STATUS_ADDR is not one that the requester may name. -/
def State.newOp (s : State) (c : Cmd) (total : Nat) (work : List Nat) : Rep ⊕ (Nat × State) :=
  if 256 ≤ s.ops.length then .inl (Rep.err 0x08)
  else if !s.statusOk c then .inl (Rep.err 0x09)
  else
    let n := s.opNext
    let o : Op := { num := n, opcode := c.opcode, berth := c.berth, who := c.who, st := 0, result := 0, progress := 0, total := total
                    partialBytes := 0, updates := 0, akind := c.akind, sdb := c.sdb, statusAddr := c.statusAddr, bufAddr := c.bufAddr
                    bufLen := c.bufLen, barn := c.barn, args := c.payload, work := work, fin := none }
    .inr (n, { s with ops := s.ops ++ [o], opNext := if n + 1 = 2 ^ 32 then 1 else n + 1 })
/-- Starts a long command that runs at once: state running, then `f` of its number. -/
def State.runOp (s : State) (c : Cmd) (total : Nat) (work : List Nat) (f : Nat → State → State) : Rep × State :=
  match s.newOp c total work with
  | .inl r => (r, s)
  | .inr (n, s1) => (Rep.accepted n, f n (s1.opState n 1 0))
/-- A long command whose work is done as soon as it is accepted: it ends done with result 0. -/
def State.quickOp (s : State) (c : Cmd) (f : Nat → State → State) : Rep × State :=
  s.runOp c 0 [] fun n s => (f n s).opFin n 2 0
/-- Whether a running operation of the barn family, other than one of `but`, names barn `b` (R427). -/
def State.barnBusy (s : State) (b : Nat) (but : List Nat) : Bool :=
  s.ops.any fun o => decide (0x0201 ≤ o.opcode) && decide (o.opcode ≤ 0x0208) && !but.contains o.opcode && decide (o.work.headD 256 = b)
/-- The operations that hold clusters, and those that hold granules, as their units. -/
def clusterOps : List Nat := [0x0201, 0x0202, 0x0203, 0x0208]
def granuleOps : List Nat := [0x0204, 0x0205]
/-- Whether a running operation of these opcodes holds one of the units (R427). -/
def State.unitsHeld (s : State) (opcodes units : List Nat) : Bool :=
  s.ops.any fun o => opcodes.contains o.opcode && o.work.tail.any fun u => units.contains u

end Sys2Proof.Machine
end

