-- ==== Sys2Proof/Machine/HelmServe.lean ====
section
/-! DEFINITION. The helm pair, its messages from peers, and the berths as it serves them (spec/13 R319 to R339), harvests (spec/09 R238), and the
outcome of pair checks (spec/12 R310). -/
namespace Sys2Proof.Machine

/-! Repetition of outputs (R337). -/

/-- A notice posted again takes a new ring entry. -/
def State.repostNotice (s : State) (b : Nat) (bytes : List Byte) : State :=
  let h := s.berth b
  let t := noticeTail h
  if (65536 + t - noticeHead h) % 65536 = 32 then
    (s.setBerth b { h with repArea := memWrite h.repArea 0xF0A (leBytes 4 (noticeLost h + 1)) }).berthRaise b 30
  else
    let r1 := memWrite h.repArea (0x700 + 64 * (t % 32)) bytes
    (s.setBerth b { h with repArea := memWrite r1 0xF08 (leBytes 2 (t + 1)) }).berthRaise b 8
/-- A reply posted again rewrites its slot, unless the slot has become FREE since. -/
def State.repostReply (s : State) (b k : Nat) (bytes : List Byte) : State :=
  let h := s.berth b
  if (h.slot k).st = .served ∧ memRead h.repArea (0x100 * k) 32 = bytes.take 32 then
    (s.setBerth b { h with repArea := memWrite h.repArea (0x100 * k) bytes }).berthRaise b k
  else s
/-- The half that continues posts again the replies and notices of the last 100 µs. -/
def State.repostAll (s : State) : State :=
  s.posted.foldl (fun s p =>
    if !s.berthServed p.berth ∨ 1600000 + p.time < s.reckon then s
    else match p.slot with
      | some k => s.repostReply p.berth k p.bytes
      | none => s.repostNotice p.berth p.bytes) s

/-! The pair (R319 to R323). -/

/-- Notice 0x06: new state, retired half (0xFF for none). -/
def State.helmNotice (s : State) : State :=
  let body := leBytes 1 s.helm.st.code ++ leBytes 1 (s.helm.retired.getD 0xFF)
  [256, 257, 258].foldl (fun s b => s.postNotice b 0x06 body) s
/-- One half serves: the held output is released. -/
def Helm.oneHalf (h : Helm) (half : Nat) : Helm :=
  { h with
    st := .single, retired := some half, hold := false
    retireA := if half = 0 then h.retireA + 1 else h.retireA, retireB := if half = 1 then h.retireB + 1 else h.retireB }
/-- The state changes to SINGLE, and recent outputs are repeated. -/
def State.halfOut (s : State) (half : Nat) : State := (State.helmNotice { s with helm := s.helm.oneHalf half }).repostAll
/-- A half is retired, which is reported as class 1. -/
def State.retireHalf (s : State) (half : Nat) : State := (s.report 0x30 half 0).halfOut half
def State.helmStop (s : State) : State := { s with helm := { s.helm with stopped := true, hold := true } }.report 0x31 s.selfNum 0
/-- An update ends failed (R323). -/
def State.updateFail (s : State) (result : Nat) : State :=
  match s.helm.update with
  | some u => State.opFin { s with helm := { s.helm with update := none } } u.op 3 result
  | none => s
/-- An image or its conversion that does not verify: the update ends failed, and this is reported as R320 reports a retirement, for the standby half,
which was to load the image (log 22). -/
def State.updateReject (s : State) (result : Nat) : State := (s.updateFail result).report 0x30 1 0
def execHelmOutputMismatch (s : State) : Out :=
  if s.helm.st = .paired ∧ !s.helm.stopped then .next { s with helm := { s.helm with hold := true } } else .next s
/-- What the halves find of themselves. In PAIRED after a mismatch: one failing half is retired, both or neither stops the helm. In SINGLE the serving
half's failure stops it. In SPLIT half A is the active one (log 22): the failing half is retired and the update ends failed. -/
def execHelmSelfCheckEnd (aBad bBad : Bool) (s : State) : Out :=
  let h := s.helm
  if h.stopped then .next s
  else match h.st with
    | .rom => .next s
    | .paired =>
      if !h.hold then .next s
      else if aBad ≠ bBad then .next (s.retireHalf (if aBad then 0 else 1))
      else .next s.helmStop
    | .single =>
      let bad := match h.retired with
        | some 0 => bBad
        | _ => aBad
      if bad then .next s.helmStop else .next s
    | .split =>
      if aBad ∧ bBad then .next s.helmStop
      else if aBad ∨ bBad then .next ((s.updateFail 0x03).retireHalf (if aBad then 0 else 1))
      else .next s
/-- R475: the new image goes to the slot that the helm did not boot from; after a boot from the host buffer, to the slot of the lower version. -/
def NonVol.putFw (nv : NonVol) (boot : Nat) (i : FwImage) : NonVol :=
  let v (x : Option FwImage) : Nat := match x with
    | some x => x.version + 1
    | none => 0
  let slot := if boot < 2 then 1 - boot else if v nv.fw0 ≤ v nv.fw1 then 0 else 1
  if slot = 0 then { nv with fw0 := some i } else { nv with fw1 := some i }
/-- R321, and step 6 of Table 13-2: the half out of service joins again, or stays out. `passed` is the outcome of its self-test or load. -/
def execHelmReform (passed : Bool) (s : State) : Out :=
  let h := s.helm
  if h.stopped then .next s
  else match h.st, h.retired, h.update with
    | .single, some half, _ =>
      let n := if half = 0 then h.retireA else h.retireB
      if h.final then .next s
      else if passed ∧ n < 3 then
        let v := if half = 0 then h.fwB else h.fwA
        .next ((State.reportAs { s with helm := { h with st := .paired, retired := none, fwA := v, fwB := v } } 0 0x30 half 0).helmNotice)
      else .next (State.reportAs { s with helm := { h with final := true } } 2 0x30 half 0)
    | .split, _, some u =>
      if !u.takenOver then .next s
      else if passed then
        let s1 := { s with
          helm := { h with st := .paired, fwA := u.image.version, fwB := u.image.version, update := none }
          nv := s.nv.putFw h.bootSlot u.image }
        .next ((s1.opFin u.op 2 0x00).helmNotice)
      else .next ((s.updateFail 0x03).retireHalf 0)
    | _, _, _ => .next s
/-- R412, R413: why an image may not run: 0x01 signature or key, 0x02 its SVN below the counter; none where it may. -/
def NonVol.fwRefusal (nv : NonVol) (i : FwImage) : Option Nat :=
  if i.typ ≠ 1 ∨ !i.signed ∨ bitAt nv.revoked i.keySlot.val then some 0x01
  else if i.svn < nv.rollback then some 0x02
  else none
/-- R412: a revocation record that may act. -/
def NonVol.revokeOk (nv : NonVol) (i : FwImage) : Bool :=
  i.signed && !bitAt nv.revoked i.keySlot.val && decide (i.keySlot ≠ i.revokes)
    && (List.range 4).any fun k => decide (k ≠ i.revokes.val) && !bitAt nv.revoked k
/-- Steps 2 and 3 of Table 13-2: authentication, then SPLIT; a revocation blows its fuse and ends the update. -/
def execFwUpdateSplit (s : State) : Out :=
  let h := s.helm
  match h.update with
  | none => .next s
  | some u =>
    if h.st ≠ .paired ∨ h.stopped then .next s
    else if u.image.typ = 2 then
      let s1 := { s with helm := { h with update := none } }
      if s.nv.revokeOk u.image then
        .next (State.opFin { s1 with nv := { s1.nv with revoked := s1.nv.revoked ||| 2 ^ u.image.revokes.val } } u.op 2 0x00)
      else .next ((s1.opFin u.op 3 0x01).report 0x30 1 0)
    else match s.nv.fwRefusal u.image with
      | some e => .next (s.updateReject e)
      | none => .next (State.helmNotice { s with helm := { h with st := .split } })
/-- Steps 4 and 5: the standby half takes over every berth and operation once no request is being served. A conversion that does not verify ends
the update failed, and the pair re-forms on the old firmware. -/
def execFwUpdateTakeover (verified : Bool) (s : State) : Out :=
  let h := s.helm
  match h.st, h.update with
  | .split, some u =>
    let busy := s.berths.any fun (_, b) => b.slots.any fun (_, x) => decide (x.st = .serving)
    if u.takenOver ∨ h.stopped then .next s
    else if !verified then .next (State.helmNotice { s.updateReject 0x04 with helm := { h with st := .paired, update := none } })
    else if busy then .next s
    else .next (State.repostAll { s with helm := { h with fwB := u.image.version, image := some u.image, update := some { u with takenOver := true } } })
  | _, _ => .next s

/-! Berths (R324 to R329, R338). -/

/-- The identity that a path stamps (Table 13-4), and whether the path is open. -/
def State.pathId (s : State) (p : BerthPath) : Option Nat :=
  match p with
  | .pcie f => if s.pins.pcie ∧ s.fnExists f.val then some (idFn f.val) else none
  | .i3c => some idI3c
  | .jtag => some idJtag
/-- A sender's write to the request area: a slot's first write claims it (R328). -/
def execBerthSlotClaim (berth : BerthId) (path : BerthPath) (off : Fin 4096) (bytes : List Byte) (s : State) : Out :=
  match s.pathId path with
  | some who => .next (s.berthWrite berth.val who off.val (bytes.take (4096 - off.val)))
  | none => .next s
/-- A write of BERTH_OUT: SELECT in [31:16], RING in [6:0]. -/
def execBerthRing (berth : BerthId) (path : BerthPath) (v : BitVec 32) (s : State) : Out :=
  match s.pathId path with
  | some who => .next (s.berthRingWrite berth.val who (v.toNat / 65536) v.toNat)
  | none => .next s
/-- The helm serves a berth from the end of stage 2 (R367), one request at a time. -/
def State.helmServesBerth (s : State) (b : Nat) : Bool := s.helmServes && s.stageDone 2 && s.berthServed b
/-- R328, R329: the first ring of a slot's claimer is taken; a bit whose slot is not CLAIMED is cleared without effect, and a ring by another
identity than the claimer is not acted on. A request with an opcode of no command is answered 0x02 at once. -/
def execBerthTake (berth : BerthId) (s : State) : Out :=
  let b := berth.val
  let h := s.berth b
  if !s.helmServesBerth b ∨ h.slots.any fun (_, x) => decide (x.st = .serving) then .next s
  else match h.rings.find? fun r => decide ((h.slot r.1).st ≠ .claimed) || decide ((h.slot r.1).who = r.2) with
    | none => .next s
    | some (k, who) =>
      let h1 := { h with rings := h.rings.filter fun r => decide (r.1 ≠ k) }
      let x := h.slot k
      if x.st = .claimed ∧ x.who = who then
        let req := memRead h.reqArea (0x200 * k) 512
        let c := parseCmd b who req
        let rep := if opcodes.contains c.opcode then none else some (c.reply ⟨0x02, 0, 0, []⟩)
        .next (s.setBerth b (h1.setSlot k { x with st := .serving, req := req, rep := rep }))
      else .next (s.setBerth b h1)
/-- R328, R331, R337: the reply slot is written with the next RSEQ, then REPLY bit k is set; a dropped claim's reply is discarded. -/
def execBerthReply (berth : BerthId) (slot : Fin 7) (s : State) : Out :=
  let b := berth.val
  let h := s.berth b
  let x := h.slot slot.val
  match x.st, x.rep with
  | .serving, some rep =>
    if x.dropped then .next (s.setBerth b (h.setSlot slot.val Slot.init))
    else
      let n := h.rseq + 1
      let bytes := padTo 256 (rep.take 12 ++ leBytes 4 n ++ rep.drop 16)
      let h1 := { h with repArea := memWrite h.repArea (0x100 * slot.val) bytes, rseq := n % 2 ^ 32 }
      let s1 := { s with posted := keepPosted s.reckon s.posted ⟨b, some slot.val, s.reckon, bytes⟩ }
      .next ((s1.setBerth b (h1.setSlot slot.val { x with st := .served, rep := none })).berthRaise b slot.val)
  | _, _ => .next s
/-- A W1C write of BERTH_IN; a REPLY bit that the claimer clears frees its slot. -/
def execBerthReplyClear (berth : BerthId) (path : BerthPath) (v : BitVec 32) (s : State) : Out :=
  match s.pathId path with
  | some who =>
    if !s.admits berth.val who then .next (s.setBerth berth.val (s.berth berth.val).deny)
    else .next (s.setBerth berth.val ((s.berth berth.val).clearIn who v.toNat))
  | none => .next s
/-- HELM_BEAT of each berth that the helm serves, from ready on (R377). -/
def execHelmBeatTick (s : State) : Out :=
  if !s.ready ∨ !s.helmServes then .next s
  else .next ((tkeys s.barns ++ [256, 257, 258]).foldl (fun s b =>
    let h := s.berth b
    s.setBerth b { h with repArea := memWrite h.repArea 0xF00 (leBytes 8 (leVal (memRead h.repArea 0xF00 8) + 1)) }) s)

/-! Messages of peer helms (R232, R339). -/

/-- BOP, a zero byte, berth, offset, count, a zero byte, the peer's tag, data. -/
def State.helmAnswer (s : State) (p : Pkt) (bop : Nat) (data : List Byte) : State :=
  s.helmSend (epPkg p.src) bop (leBytes 1 0 ++ (p.payload.drop 2).take 4 ++ leBytes 1 data.length ++ leBytes 1 0
    ++ padTo 8 ((p.payload.drop 8).take 8) ++ data)
def State.helmTake (s : State) (p : Pkt) : State :=
  let at_ (i n : Nat) : Nat := leVal ((p.payload.drop i).take n)
  let bop := at_ 0 1
  let pkg := epPkg p.src
  let n := min 48 (at_ 6 1)
  let data := (p.payload.drop 16).take n
  if bop = 0x11 then (if at_ 1 1 < 16 then s.pairFault (at_ 1 1) true else s)
  else if bop = 1 ∨ bop = 2 ∨ bop = 3 then
    if at_ 2 2 ≠ 257 ∨ !s.fmPeers.contains pkg then s.helmAnswer p 0x05 []
    else if bop = 1 then s.berthWrite 257 (idPeer pkg) (at_ 4 2 % 4096) data
    else if bop = 2 then s.berthRingWrite 257 (idPeer pkg) (leVal (data.take 4) / 65536) (leVal (data.take 4))
    else
      let (bs, s1) := s.berthRead 257 (idPeer pkg) (at_ 4 2 % 4096) n
      s1.helmAnswer p 0x04 bs
  else s
/-- A HELM_MSG enters the control inbox of 4,096 entries, or finds it full; the helm takes it as soon as it serves. -/
def execHelmMsg (p : Pkt) (s : State) : Out :=
  if s.net.contains p then
    let s0 := s.consume p
    if !p.taken then .next (s0.endTc0 p)
    else if s.helmServes then .next (s0.helmTake p)
    else if 4096 ≤ s.inbox.length then .next (State.helmAnswer { s0 with inboxLost := s0.inboxLost + 1 } p 0x10 [])
    else .next { s0 with inbox := s0.inbox ++ [p] }
  else if s.inbox.contains p ∧ p.op = 0x3C ∧ s.helmServes then .next (State.helmTake { s with inbox := removeFirst p s.inbox } p)
  else .next s
/-- A SHEAF_CTRL goes to its node: to a core across the mesh. -/
def State.ctrlDeliver (s : State) (p : Pkt) : State :=
  match nodeOfEp s.variant p.dst with
  | some n => if n < 16384 then s.inject n p else s.ctrlTake p
  | none => s
/-- A SHEAF_CTRL from another package enters the control inbox like a HELM_MSG; one that is in no queue of the package stands for its arrival
at the node itself (log 41). -/
def execSheafCtrl (p : Pkt) (s : State) : Out :=
  if s.net.contains p then
    let s0 := s.consume p
    if !p.taken then .next (s0.endTc0 p)
    else if epPkg p.src = s.selfNum ∨ s.helmServes then .next (s0.ctrlDeliver p)
    else if 4096 ≤ s.inbox.length then .next (State.helmAnswer { s0 with inboxLost := s0.inboxLost + 1 } p 0x10 [])
    else .next { s0 with inbox := s0.inbox ++ [p] }
  else if s.inbox.contains p then .next (if s.helmServes ∧ p.op = 0x19 then State.ctrlDeliver { s with inbox := removeFirst p s.inbox } p else s)
  else .next (if p.taken then s.ctrlTake p else s.endTc0 p)
/-- A segment of a congestion map reaches the harvest that asked for it; with the whole map the operation is over. -/
def execHarvestData (p : Pkt) (s : State) : Out :=
  if !s.net.contains p then .next s
  else
  let s0 := (s.consume p).freed p
  if !p.taken then .next (s0.endTc0 p)
  else match s0.ops.find? fun o => decide (o.opcode = 0x0405) && o.fin.isNone && decide (o.work.headD 0 = epPkg p.src) with
    | none => .next s0
    | some o =>
      let off := p.addr % 2 ^ 32
      let got := (o.work.getD 1 0) + p.payload.length
      let cut := p.payload.take (o.bufLen - off)
      let s1 := s0.putAt o.akind o.who o.barn (o.bufAddr + off) cut
      let s2 := s1.setOp { o with work := [epPkg p.src, got], partialBytes := if off = o.partialBytes then off + cut.length else o.partialBytes }
      .next (if 4672 ≤ got then s2.opFin o.num 2 0x00 else s2)

/-! Pair outcomes (Tables 12-5 and 12-6). -/

/-- The entries of a cleared pair's windows are discarded without an event. -/
def State.dropPair (s : State) (n : Nat) : State :=
  { s with pairTable := tset 0 s.pairTable n 0, chaff := s.chaff.filter fun (k, _) => decide (k / 16 % 16 ≠ n) }
/-- The dies of this package that belong to one member of a pair. -/
def State.memberDies (s : State) (d : PairDesc) (isB : Bool) : List Nat :=
  if (if isB then d.slotB else d.slotA) ≠ s.selfSlot then [] else if d.pkgPair then List.range 16 else [if isB then d.dieB else d.dieA]
/-- The die that a unit of Table 18-2 belongs to; none for a unit of the package as a whole. -/
def State.unitDie (s : State) (ut unit : Nat) : Option Nat :=
  match ut with
  | 1 => some unit | 2 => some (unit / 16) | 3 => some (unit / 1024) | 4 => some (unit / 2048) | 5 => some (unit / 32) | 6 => some (unit % 16)
  | 7 => some (if unit < 8192 then unit / 512 else (unit - 8192) / 16 % 16)
  | 8 => (s.ringLink unit).map fun l => if 512 ≤ l then l % 16 else l / 32
  | 10 => some unit | 11 => some (unit / 64) | 12 => some (unit / 64)
  | 13 => some (if unit < 512 then unit / 32 else if unit < 576 then (unit - 512) / 4 else unit - 576)
  | 16 => some (unit / 256)
  | _ => none
/-- R310, steps 4 and 5: what the package itself holds against a member: a record of class 2 or worse since the pair was formed, but for the pair's
own, or a quality figure beyond its action limit on one of its links. -/
def State.memberBad (s : State) (n : Nat) (isB : Bool) : Bool :=
  let d := pairDesc (tget 0 s.pairTable n)
  let dies := s.memberDies d isB
  let ofMember (u : Option Nat) : Bool := match u with
    | some x => dies.contains x
    | none => d.pkgPair && !dies.isEmpty
  s.gleaner.ring.any (fun r => decide (2 ≤ r.cls) && decide ((s.pairRec n).formedAt ≤ r.reckon) && decide (r.unit / 2 ^ 32 ≠ 14)
      && ofMember (s.unitDie (r.unit / 2 ^ 32) (r.unit % 2 ^ 32)))
    || s.lanes.any fun (l, x) => decide (x.action ≠ 0) && ofMember (s.unitDie 7 l)
/-- Faulty units of some dies are marked unavailable (Table 12-6). -/
def State.faultyOut (s : State) (dies : List Nat) (f : FaultyUnits) : State :=
  let s1 := (f.cores.filter fun c => dies.contains (coreDie c.val)).foldl (fun (s : State) c => s.retireCore c.val) s
  let s2 := (f.granules.filter fun g => dies.contains (g.val / 64) && !(s.granule g.val).retired).foldl (fun (s : State) g =>
    (s.setGranule g.val { s.granule g.val with retired := true }).mapChange) s1
  (f.links.filter fun l => dies.contains (l.val / 32)).foldl (fun (s : State) l => s.linkOut l.val) s2
/-- The checks of both members end: which members failed the checks that run on hardware, and the units of this package found faulty. -/
def execPairChecksComplete (pair : Fin 16) (failA failB : Bool) (faulty : FaultyUnits) (s : State) : Out :=
  let n := pair.val
  let r := s.pairRec n
  let d := pairDesc (tget 0 s.pairTable n)
  if !r.checking then .next s
  else
    let failA := failA || s.memberBad n false
    let failB := failB || s.memberBad n true
    let fromFailed := if failA then r.fromA else r.fromB
    let code := if failA ∧ failB then 4 else if !failA ∧ !failB then 3 else if fromFailed then 2 else 1
    let s1 := s.onPairRec n fun x => { x with outcome := code, checking := false }
    let s2 := s1.faultyOut ((if failA then s.memberDies d false else []) ++ (if failB then s.memberDies d true else [])) faulty
    let survivor := s.memberDies d failA
    let s3 := if code = 1 then { s2.dropPair n with frozen := s2.frozen.filter fun x => !survivor.contains x }
      else if code = 2 then s2.dropPair n
      else if code = 4 then s2.report 0x1D s.selfNum n
      else s2
    let body := leBytes 1 n ++ leBytes 1 code
    .next ((s3.postNotice 257 0x04 body).postNotice d.barn 0x04 body)

end Sys2Proof.Machine
end

