-- ==== Sys2Proof/Machine/CmdHelm.lean ====
section
/-! DEFINITION. The commands of families 0x00xx and 0x01xx: operations, helm status, firmware update, designation and attestation
(spec/13 R322, R323, R332 to R342, spec/17 R412 to R422). -/
namespace Sys2Proof.Machine

/-! Family 0x00xx. -/

def execNop (berth : BerthId) (slot : Fin 7) (s : State) : Out :=
  serve berth.val slot.val 0x0000 atAny 0 (fun _ s => (Rep.ok [], s)) s
/-- An operation that runs, or one of the 1,024 ended most recently. -/
def State.opOrEnded (s : State) (n : Nat) : Option Op :=
  match s.op n with
  | some o => some o
  | none => s.opsEnded.find? fun o => decide (o.num = n)
def execOpStatus (berth : BerthId) (slot : Fin 7) (s : State) : Out :=
  serve berth.val slot.val 0x0001 atAny 4 (fun c s =>
    match s.opOrEnded (c.at 0 4) with
    | some o => (Rep.ok (o.record s.reckon), s)
    | none => (Rep.refused 0x01, s)) s
/-- R334: the requester's berth, or berth 256. -/
def Cmd.mayControl (c : Cmd) (o : Op) : Bool := c.berth == 256 || c.berth == o.berth
/-- A calibration request or standby test stops (R205, R206, R334): a deferred request leaves the queue with its link untouched; a procedure
that runs on hardware ends on its own without the operation; cores under BIST are zeroed. -/
def State.cancelOp (s : State) (o : Op) : State :=
  let left := s.calQueue.map fun r => { r with ops := r.ops.filter fun n => decide (n ≠ o.num) }
  let q := left.filter fun r => r.ops.isEmpty
  let s1 := { s with
    calQueue := left.filter fun r => !r.ops.isEmpty
    zones := s.zones.map fun (z, x) => (z, { x with ops := x.ops.filter fun n => decide (n ≠ o.num) })
    bist := s.bist.filter fun c => !o.work.contains c
    standby := if s.standby = some o.num then none else s.standby }
  let s2 := q.foldl (fun s r => if 512 ≤ r.link then s.onPort (r.link - 512) fun x => { x with maintDeferred := false } else s) s1
  let s3 := (o.work.filter fun c => s.bist.contains c).foldl (fun (s : State) c =>
    s.onCore c fun k => if k.power = .bist then { k with power := .zeroing } else k) s2
  s3.opFin o.num 5 0x25
def execOpCancel (berth : BerthId) (slot : Fin 7) (s : State) : Out :=
  serve berth.val slot.val 0x0002 atAny 4 (fun c s =>
    match s.op (c.at 0 4) with
    | none => (Rep.refused 0x02, s)
    | some o =>
      if !c.mayControl o then (Rep.err 0x06, s)
      else if (o.opcode = 0x0503 ∨ o.opcode = 0x0601) ∧ o.fin.isNone then (Rep.ok [], s.cancelOp o)
      else (Rep.refused 0x02, s)) s
/-- R205: a deferred request is forced; anything else is refused. -/
def execOpForce (berth : BerthId) (slot : Fin 7) (s : State) : Out :=
  serve berth.val slot.val 0x0003 at256Barn 4 (fun c s =>
    match s.op (c.at 0 4) with
    | none => (Rep.refused 0x03, s)
    | some o =>
      if !c.mayControl o then (Rep.err 0x06, s)
      else match s.calQueue.find? fun r => r.ops.contains o.num with
        | none => (Rep.refused 0x03, s)
        | some r => (Rep.ok [], State.deferredStart { s with calQueue := s.calQueue.map fun x => if x = r then { x with force := true } else x } r.link)) s
/-- BERTH_SLOTS of Table 13-6. -/
def Berth.slotsReg (h : Berth) : Nat := packFields ((List.range 7).map fun k => (2, (h.slot k).st.code))
/-- AGENT_BEAT, HELM_BEAT, DENIED, NOTICE_STATE of 8 bytes each, BERTH_SLOTS of 4 (log 10). -/
def execBerthInfo (berth : BerthId) (slot : Fin 7) (s : State) : Out :=
  serve berth.val slot.val 0x0004 at256 2 (fun c s =>
    if 272 ≤ c.at 0 2 then (Rep.err 0x04, s)
    else
      let h := s.berth (c.at 0 2)
      (Rep.ok (memRead h.reqArea 0xF08 8 ++ memRead h.repArea 0xF00 8 ++ leBytes 8 h.denied ++ memRead h.repArea 0xF08 8
        ++ leBytes 4 h.slotsReg), s)) s

/-! Helm. -/

/-- State, retired half (0xFF for none), six zero bytes, the firmware versions of A and B (log 10). -/
def execHelmStatus (berth : BerthId) (slot : Fin 7) (s : State) : Out :=
  serve berth.val slot.val 0x0101 (fun b => b == 256 || b == 257 || b == 258) 0 (fun _ s =>
    (Rep.ok (leBytes 1 s.helm.st.code ++ leBytes 1 (s.helm.retired.getD 0xFF) ++ leBytes 6 0 ++ leBytes 8 s.helm.fwA ++ leBytes 8 s.helm.fwB), s)) s
/-- R322, R323: the image in the buffer is `image`; its authentication is FW_UPDATE_SPLIT. -/
def execFwUpdate (berth : BerthId) (slot : Fin 7) (image : FwImage) (s : State) : Out :=
  serve berth.val slot.val 0x0102 at256 0 (fun c s =>
    if s.helm.st ≠ .paired ∨ s.helm.update.isSome then (Rep.err 0x05, s)
    else if !s.bufOk c 7552 then (Rep.err 0x09, s)
    else s.runOp c 0 [] fun n s => { s with helm := { s.helm with update := some ⟨n, image, false⟩ } }) s
/-- R338, R339: up to two peers; the claims of a peer that is removed are released. -/
def execFmDesignate (berth : BerthId) (slot : Fin 7) (s : State) : Out :=
  serve berth.val slot.val 0x0103 at256 4 (fun c s =>
    if 0x8000 < c.at 0 2 ∨ 0x8000 < c.at 2 2 then (Rep.err 0x04, s)
    else
      let l := [c.at 0 2, c.at 2 2].filter fun x => decide (x < 0x8000)
      (Rep.ok [], { s with fmPeers := l }.releaseClaims fun who => decide (idKind who = 3) && !l.contains (idPkg who))) s

/-! Attestation (R417 to R419). -/

/-- A bitmap of `n` bits as bytes. -/
def bitmap (n : Nat) (f : Nat → Bool) : List Byte :=
  leBytes ((n + 7) / 8) ((List.range n).foldr (fun i a => 2 * a + boolNat (f i)) 0)
/-- A bitmap of 2^k bits that are zero but for a list of positions: the sum of their weights. -/
def bitmapOf (bytes : Nat) (l : List Nat) : List Byte := leBytes bytes (l.foldl (fun a i => a ||| 2 ^ i) 0)
def digestBytes (d : BitVec 384) : List Byte := leBytes 48 d.toNat
/-- Whether barn `b` owns cluster `k`. -/
def State.ownsCluster (s : State) (b k : Nat) : Bool := decide (s.clusterBarn k = some b) && s.clusterUp.contains k
/-- Queues of a barn: those it was assigned, and for barn 0 all that no barn was (Table 17-8). -/
def State.queueBitmap (s : State) (b : Nat) : List Byte :=
  let mine := (s.queueOwner.filter fun (_, o) => decide (o = b)).map (·.1)
  if b = 0 then leBytes 8192 (s.queueOwner.foldl (fun a (q, _) => a - 2 ^ q) (2 ^ 65536 - 1)) else bitmapOf 8192 mine
/-- A granule that a running GRANULE_ASSIGN gives the barn: it joins the configuration with the others, when the command ends (Example 17-1). -/
def State.assigning (s : State) (b n : Nat) : Bool :=
  s.ops.any fun o => decide (o.opcode = 0x0204) && decide (o.work.headD 256 = b) && o.work.tail.contains n
/-- R419: the configuration record. -/
def State.configRecord (s : State) (b : Nat) : List Byte :=
  match s.barn b with
  | none => []
  | some x =>
    bitmap 256 (s.ownsCluster b)
      ++ bitmapOf 128 ((s.granules.filter fun (n, g) => decide (g.st = .owned b) && !s.assigning b n).map (·.1))
      ++ s.queueBitmap b ++ leBytes 1 x.weight ++ leBytes 4 x.quota1 ++ leBytes 4 x.quota3
      ++ (if x.peersOpen then leBytes 48 0 else digestBytes (Config.sha384 (bitmapOf 4096 x.peers)))
      ++ bitmap 16 fun n => (pairDesc (tget 0 s.pairTable n)).valid && decide ((pairDesc (tget 0 s.pairTable n)).barn = b)
/-- Bytes 0 to 319 of Table 17-6; `barn` none for a package report. -/
def State.reportBody (s : State) (nonce : List Byte) (barn : Option Nat) : List Byte :=
  let fw : Nat × BitVec 384 × Nat := match s.helm.image with
    | some i => (i.version, i.digest, i.svn)
    | none => (0, 0, 0)
  let head := leBytes 4 0x54415452 ++ leBytes 2 1 ++ leBytes 1 (if barn.isSome then 2 else 1)
    ++ leBytes 1 (boolNat s.factoryMode + 2 * boolNat (decide (s.helm.st ≠ .paired)) + 4 * boolNat s.gleaner.fatal + 8 * boolNat s.rngStopped)
    ++ padTo 32 nonce ++ leBytes 16 s.nv.idDigest ++ leBytes 8 s.nv.serial ++ leBytes 8 fw.1 ++ digestBytes fw.2.1 ++ leBytes 4 fw.2.2
    ++ leBytes 4 s.nv.rollback ++ leBytes 4 s.nv.rom ++ leBytes 1 s.variant ++ leBytes 1 s.nv.stepping
    ++ leBytes 2 (if s.selfValid then s.selfNum else 0xFFFF) ++ leBytes 8 s.reckon ++ leBytes 8 s.alm.time
  match barn with
  | none => padTo 320 head
  | some b =>
    match s.barn b with
    | none => padTo 320 head
    | some x =>
      padTo 320 (head ++ leBytes 2 b ++ leBytes 2 0 ++ leBytes 4 x.configSeq ++ digestBytes (Config.sha384 (s.configRecord b))
        ++ digestBytes x.measure ++ digestBytes (Config.importKey b x.keyEpoch))
/-- At a barn berth a command names only the sender's own barn. -/
def Cmd.ownBarn (c : Cmd) (b : Nat) : Bool := c.berth == 256 || c.berth == b
def execAttest (berth : BerthId) (slot : Fin 7) (s : State) : Out :=
  serve berth.val slot.val 0x0110 at256Barn 40 (fun c s =>
    let b := c.at 0 2
    if !c.ownBarn b then (Rep.err 0x06, s)
    else if b ≠ 0xFFFF ∧ !s.barnExists b then (Rep.reason 0x0110 1, s)
    else if !s.bufOk c 5056 then (Rep.err 0x09, s)
    else
      let body := s.reportBody ((c.payload.drop 8).take 32) (if b = 0xFFFF then none else some b)
      s.quickOp c fun n s => s.opBuffer n (padTo 5056 (body ++ padTo 4723 (Config.aliasSign body)))) s
def execCertChain (berth : BerthId) (slot : Fin 7) (s : State) : Out :=
  serve berth.val slot.val 0x0111 at256Barn 0 (fun c s =>
    if !s.bufOk c 15104 then (Rep.err 0x09, s)
    else
      let d : BitVec 384 := match s.helm.image with
        | some i => i.digest
        | none => 0
      s.quickOp c fun n s => s.opBuffer n (padTo 7552 Config.deviceCert ++ padTo 7552 (Config.aliasCert d))) s
def execMeasureExtend (berth : BerthId) (slot : Fin 7) (s : State) : Out :=
  serve berth.val slot.val 0x0112 atBarn 48 (fun c s =>
    s.quickOp c fun _ s => s.onBarn c.berth fun x => { x with measure := Config.sha384 (digestBytes x.measure ++ c.payload.take 48) }) s
/-- R430: the bitmap lies in the barn's own memory. -/
def execBarnPeers (berth : BerthId) (slot : Fin 7) (s : State) : Out :=
  serve berth.val slot.val 0x0113 atBarn 0 (fun c s =>
    if c.akind ≠ 2 then (Rep.err 0x04, s)
    else if !s.bufOk c 4096 then (Rep.err 0x09, s)
    else
      let m := leVal (s.bufIn c 4096 [])
      s.quickOp c fun _ s => (s.onBarn c.berth fun x => { x with peersOpen := false, peers := bitsSet 32768 m }).configChanged c.berth) s
/-- R419: the ciphertext at the buffer, the shared secret 2,048 bytes above it. -/
def execKeyImport (berth : BerthId) (slot : Fin 7) (s : State) : Out :=
  serve berth.val slot.val 0x0114 atBarn 0 (fun c s =>
    if c.akind ≠ 2 then (Rep.err 0x04, s)
    else if !s.bufOk c 1568 ∨ !s.addrOk 2 c.who c.barn (2048 + c.bufAddr) 32 then (Rep.err 0x09, s)
    else
      let epoch := match s.barn c.berth with
        | some x => x.keyEpoch
        | none => 0
      let secret := padTo 32 (Config.decapsulate c.berth epoch (s.bufIn c 1568 []))
      s.quickOp c fun _ s => s.localWrite (2048 + c.bufAddr) secret) s
/-- R413: only while PAIRED with both halves on the running firmware. -/
def execSvnAdvance (berth : BerthId) (slot : Fin 7) (s : State) : Out :=
  serve berth.val slot.val 0x0115 at256 0 (fun c s =>
    match s.helm.image with
    | none => (Rep.err 0x07, s)
    | some i =>
      if s.helm.st ≠ .paired ∨ s.helm.fwA ≠ i.version ∨ s.helm.fwB ≠ i.version then (Rep.err 0x07, s)
      else s.quickOp c fun _ s => { s with nv := { s.nv with rollback := max s.nv.rollback (min 64 i.svn) } }) s
/-- R422: PEER_MIN_SVN only rises. -/
def execPeerMinSvn (berth : BerthId) (slot : Fin 7) (s : State) : Out :=
  serve berth.val slot.val 0x0116 at256 4 (fun c s =>
    if 64 < c.at 0 4 ∨ c.at 0 4 < s.peerMinSvn then (Rep.refused 0x0A, s)
    else s.quickOp c fun _ s => { s with peerMinSvn := c.at 0 4 }) s

end Sys2Proof.Machine
end

