-- ==== Sys2Proof/Machine/CmdBarn.lean ====
section
/-! DEFINITION. The barn commands (spec/17 R424 to R433) and the barn reset (spec/15 R378). -/
namespace Sys2Proof.Machine

/-! Shared parts. -/

/-- R428: the pool links go dark, the clusters are reset, and they move; their gang line memberships end. -/
def State.moveClusters (s : State) (ks : List Nat) (owner : Nat) : State :=
  let s1 := ks.foldl (fun s k => (s.darkenCluster k).resetCluster k .zeroing) s
  { s1 with
    clusterOwner := ks.foldl (fun m k => tset 0 m k owner) s1.clusterOwner
    gangs := s1.gangs.filterMap fun (l, g) =>
      let g' := { g with members := g.members.filter fun c => !ks.contains (coreCluster c) }
      if g' = Gang.init then none else some (l, g') }
/-- The packets and states of a granule's old owner end with its keys (R261, R264). -/
def State.freeGranules (s : State) (gs : List Nat) : State :=
  gs.foldl (fun s g => s.setGranule g { s.granule g with st := .free, epoch := (s.granule g).epoch + 1 }) s
/-- R259: a queue that changes owner takes its registers' reset values. -/
def State.giveQueues (s : State) (qs : List Nat) (b : Nat) : State :=
  { s with
    queueOwner := qs.foldl (fun m q => tset 0 m q b) s.queueOwner
    queues := s.queues.filter fun (q, _) => !qs.contains q }
/-- R334: the operations of a barn's berth are cancelled and their records not written again. -/
def State.cancelBarnOps (s : State) (b : Nat) : State :=
  (s.ops.filter fun o => decide (o.berth = b)).foldl (fun s o => (s.setOp { o with statusAddr := 0 }).opFin o.num 5 0x25) s
/-- A cluster has a core with a thread or a queued phase (DETAIL 0x05). -/
def State.clusterIdle (s : State) (k : Nat) : Bool :=
  (clusterCores k).all fun c => (s.core c).activeThreads == 0 && (s.core c).queue.isEmpty && (s.core c).run.isNone
def Cmd.clusters (c : Cmd) (i : Nat) : List Nat := bitsSet 256 (c.at i 32)
def Cmd.granules (c : Cmd) (i : Nat) : List Nat := bitsSet 1024 (c.at i 128)
/-- A long barn command: its operation names the barn and the units. -/
def State.barnOp (s : State) (c : Cmd) (b : Nat) (units : List Nat) (f : Nat → State → State) : Rep × State := s.runOp c 0 (b :: units) f
/-- A granule of the station that exists in the variant (R241). -/
def State.granuleFitted (s : State) (g : Nat) : Bool := decide (s.variant ≠ 2) || decide (g % 64 < 48)

/-! Creation, destruction, clusters (R425 to R429). -/

/-- Checks of a set of clusters to be taken from barn `b`: named, usable and its own; one must stay. -/
def State.clusterDetail (s : State) (b : Nat) (ks : List Nat) (idle : Bool) : Option Nat :=
  if ks.any fun k => !s.ownsCluster b k || s.clusterOut k then some 0x03
  else if ks = [] ∨ (List.range 256).all fun k => !s.ownsCluster b k || ks.contains k then some 0x04
  else if idle ∧ ks.any fun k => !s.clusterIdle k then some 0x05
  else none
/-- The new barn: its berth is reset, its counters and meter start, its import key pair is made. -/
def State.createBarn (s : State) (b weight q1 q3 : Nat) : State :=
  let x : Barn := ⟨weight, if q1 = 0 then 65536 else q1, if q3 = 0 then 65536 else q3, true, [], 0, 1, s.freeCtr⟩
  let s1 := { s with
    barns := tset none s.barns b (some x), berths := tdel s.berths b, fabCtr := tdel s.fabCtr b, memCtr := tdel s.memCtr b
    meters := tdel s.meters b, steers := tdel s.steers b, freeCtr := s.freeCtr + 1 }
  s1.meterOpenAt b s1.alm.time
def execBarnCreate (berth : BerthId) (slot : Fin 7) (s : State) : Out :=
  serve berth.val slot.val 0x0201 at256 48 (fun c s =>
    let b := c.at 0 2
    let ks := c.clusters 16
    if c.at 12 4 ≠ 0 ∨ 1 < c.at 3 1 then (Rep.err 0x04, s)
    else if b = 0 ∨ 255 < b then (Rep.refused 0x01, s)
    else if s.barnBusy b [] ∨ s.unitsHeld clusterOps ks then (Rep.err 0x05, s)
    else if s.barnExists b then (Rep.refused 0x02, s)
    else if c.at 2 1 = 0 ∨ 2 ^ 31 < c.at 4 4 ∨ 2 ^ 31 < c.at 8 4 then (Rep.refused 0x0A, s)
    else match s.clusterDetail 0 ks (bitAt (c.at 3 1) 0) with
      | some d => (Rep.refused d, s)
      | none =>
        if s.rngStopped then (Rep.refused 0x08, s)
        else s.barnOp c b ks fun _ s => ((s.moveClusters ks b).createBarn b (c.at 2 1) (c.at 4 4) (c.at 8 4)).configChanged 0) s
/-- R429, in its order. -/
def State.destroyBarn (s : State) (b : Nat) : State :=
  let s0 := s.cancelBarnOps b
  let s1 := (s0.ops.filter fun o => decide (o.opcode = 0x0204) && decide (o.work.headD 256 = b)).foldl (fun s o => s.opFin o.num 5 0x25) s0
  let ks := (List.range 256).filter fun k => s1.ownsCluster b k
  let s2 := s1.moveClusters ks 0
  let gs := (s2.granules.filter fun (_, g) => decide (g.st = .owned b) || decide (g.st = .scrubbing b)).map (·.1)
  let s3 := s2.freeGranules gs
  let s4 := s3.giveQueues ((s3.queueOwner.filter fun (_, o) => decide (o = b)).map (·.1)) 0
  let s5 := { s4 with
    pathSets := s4.pathSets.filter fun (_, p) => match p with
      | some p => decide (p.barn ≠ b)
      | none => true
    steers := tdel s4.steers b }
  let s6 := (s5.meterClose b 256 s5.alm.time 3 false)
  { s6 with barns := tset none s6.barns b none, berths := tdel s6.berths b, meters := tdel s6.meters b
            gangs := s6.gangs.filter fun (_, g) => decide (g.barn ≠ b), clusterOwner := s6.clusterOwner.filter fun (_, o) => decide (o ≠ b) }
def execBarnDestroy (berth : BerthId) (slot : Fin 7) (s : State) : Out :=
  serve berth.val slot.val 0x0202 at256 2 (fun c s =>
    let b := c.at 0 2
    if b = 0 ∨ 255 < b then (Rep.refused 0x01, s)
    else if s.barnBusy b [0x0204] then (Rep.err 0x05, s)
    else if !s.barnExists b then (Rep.refused 0x02, s)
    else
      let ks := (List.range 256).filter fun k => s.ownsCluster b k
      s.barnOp c b ks fun _ s => (s.destroyBarn b).configChanged 0) s
/-- Action 1 adds clusters of barn 0, action 2 returns clusters to it. -/
def execBarnClusters (berth : BerthId) (slot : Fin 7) (s : State) : Out :=
  serve berth.val slot.val 0x0203 at256 48 (fun c s =>
    let b := c.at 0 2
    let act := c.at 2 1
    let ks := c.clusters 16
    if 1 < c.at 3 1 then (Rep.err 0x04, s)
    else if b = 0 ∨ 255 < b then (Rep.refused 0x01, s)
    else if s.barnBusy b [] ∨ s.unitsHeld clusterOps ks then (Rep.err 0x05, s)
    else if !s.barnExists b then (Rep.refused 0x02, s)
    else if act = 0 ∨ 2 < act then (Rep.refused 0x0A, s)
    else match s.clusterDetail (if act = 1 then 0 else b) ks (bitAt (c.at 3 1) 0) with
      | some d => (Rep.refused d, s)
      | none => s.barnOp c b ks fun _ s => ((s.moveClusters ks (if act = 1 then b else 0)).configChanged b).configChanged 0) s

/-! Granules, queues, limits. -/

/-- R262: fresh keys and a fill; the operation ends when every granule is owned. -/
def execGranuleAssign (berth : BerthId) (slot : Fin 7) (s : State) : Out :=
  serve berth.val slot.val 0x0204 at256 132 (fun c s =>
    let b := c.at 0 2
    let gs := c.granules 4
    if 255 < b then (Rep.refused 0x01, s)
    else if s.barnBusy b [] ∨ s.unitsHeld granuleOps gs then (Rep.err 0x05, s)
    else if !s.barnExists b then (Rep.refused 0x02, s)
    else if !s.stageDone 7 ∨ gs.any fun g => decide ((s.granule g).st ≠ .free) || (s.granule g).retired || !s.granuleFitted g then (Rep.refused 0x06, s)
    else if s.rngStopped then (Rep.refused 0x08, s)
    else s.barnOp c b gs fun _ s =>
      gs.foldl (fun s g => s.setGranule g { s.granule g with st := .scrubbing b, epoch := (s.granule g).epoch + 1 }) s) s
def execGranuleRelease (berth : BerthId) (slot : Fin 7) (s : State) : Out :=
  serve berth.val slot.val 0x0205 at256 132 (fun c s =>
    let b := c.at 0 2
    let gs := c.granules 4
    if 255 < b then (Rep.refused 0x01, s)
    else if s.barnBusy b [] ∨ s.unitsHeld granuleOps gs then (Rep.err 0x05, s)
    else if !s.barnExists b then (Rep.refused 0x02, s)
    else if gs.any fun g => decide (s.granuleBarn g ≠ some b) then (Rep.refused 0x03, s)
    else s.barnOp c b gs fun n s => (if gs = [] then s else (s.freeGranules gs).configChanged b).opFin n 2 0) s
/-- Queues come from barn 0, or back to it from any barn. -/
def execQueueAssign (berth : BerthId) (slot : Fin 7) (s : State) : Out :=
  serve berth.val slot.val 0x0206 at256 9 (fun c s =>
    let b := c.at 0 2
    let first := c.at 2 2
    let n := c.at 4 4
    if 1 < c.at 8 1 then (Rep.err 0x04, s)
    else if 255 < b then (Rep.refused 0x01, s)
    else if s.barnBusy b [] then (Rep.err 0x05, s)
    else if !s.barnExists b then (Rep.refused 0x02, s)
    else if n = 0 ∨ 65536 < first + n then (Rep.refused 0x0A, s)
    else
      let inRange (q : Nat) : Bool := decide (first ≤ q) && decide (q < first + n)
      if b ≠ 0 ∧ s.queueOwner.any fun (q, o) => inRange q && decide (o ≠ 0) then (Rep.refused 0x03, s)
      else if !bitAt (c.at 8 1) 0 ∧ s.queues.any fun (q, x) => inRange q && x.en then (Rep.refused 0x07, s)
      else
        let qs := ((List.range n).map fun i => first + i).filter fun q => decide (tget 0 s.queueOwner q ≠ b)
        let old : List Nat := (s.queueOwner.filter fun (q, o) => inRange q && decide (o ≠ b)).map (·.2)
        let owners := (old ++ if b = 0 then [] else [0]).eraseDups
        s.barnOp c b [] fun m s =>
          (if qs = [] then s else (owners.foldl (fun (s : State) o => s.configChanged o) (s.giveQueues qs b)).configChanged b).opFin m 2 0) s
def execBarnLimits (berth : BerthId) (slot : Fin 7) (s : State) : Out :=
  serve berth.val slot.val 0x0207 at256 12 (fun c s =>
    let b := c.at 0 2
    if 255 < b then (Rep.refused 0x01, s)
    else if s.barnBusy b [] then (Rep.err 0x05, s)
    else if !s.barnExists b then (Rep.refused 0x02, s)
    else if 2 ^ 31 < c.at 4 4 ∨ 2 ^ 31 < c.at 8 4 then (Rep.refused 0x0A, s)
    else s.barnOp c b [] fun n s =>
      let s1 := s.onBarn b fun x => { x with
        weight := if c.at 2 1 = 0 then x.weight else c.at 2 1
        quota1 := if c.at 4 4 = 0 then x.quota1 else c.at 4 4
        quota3 := if c.at 8 4 = 0 then x.quota3 else c.at 8 4 }
      (if s1.barn b = s.barn b then s1 else s1.configChanged b).opFin n 2 0) s
/-- R378: every cluster of the barn, its queues, gang lines and long operations. -/
def State.resetBarn (s : State) (b : Nat) : State :=
  let ks := (List.range 256).filter fun k => s.ownsCluster b k
  let s1 := (resetClusters .zeroing s ks).cancelBarnOps b
  { s1 with
    queues := s1.queues.filterMap fun (q, x) =>
      if s1.queueBarn q = some b then
        (let y := { x with cfg := x.cfg - x.cfg % 2, head := 0, tail := 0 }
         if y = MQueue.init then none else some (q, y))
      else some (q, x)
    gangs := s1.gangs.filter fun (_, g) => decide (g.barn ≠ b) }
def execBarnReset (berth : BerthId) (slot : Fin 7) (s : State) : Out :=
  serve berth.val slot.val 0x0208 at256 2 (fun c s =>
    let b := c.at 0 2
    if 255 < b then (Rep.refused 0x01, s)
    else if s.barnBusy b [] then (Rep.err 0x05, s)
    else if !s.barnExists b then (Rep.refused 0x02, s)
    else s.barnOp c b ((List.range 256).filter fun k => s.ownsCluster b k) fun _ s => s.resetBarn b) s
def execBarnInfo (berth : BerthId) (slot : Fin 7) (s : State) : Out :=
  serve berth.val slot.val 0x0209 at256 2 (fun c s =>
    let b := c.at 0 2
    match s.barn b with
    | none => (Rep.refused (if 255 < b then 0x01 else 0x02), s)
    | some x =>
      if s.barnBusy b [] then (Rep.err 0x05, s) else
      let body := leBytes 4 x.configSeq ++ s.configRecord b
      if !s.bufOk c body.length then (Rep.err 0x09, s)
      else s.quickOp c fun n s => s.opBuffer n body) s

/-! User tag areas (R433). -/

def tagKey (area block : Nat) : Nat := if area = 0 then 64 * block else 4096 + 64 * (area - 1)
def tagWriteKey (area block : Nat) : Nat := if area = 0 then block else 64 + (area - 1)
def State.tagBlock (s : State) (area block : Nat) : List Byte :=
  memRead s.nv.tags (tagKey area block) 64 ++ leBytes 2 (tget 0 s.nv.tagWrites (tagWriteKey area block))
def execTagRead (berth : BerthId) (slot : Fin 7) (s : State) : Out :=
  serve berth.val slot.val 0x020A at256 1 (fun c s =>
    let area := c.at 0 1
    let bs := if area = 0 then (List.range 64).flatMap fun i => s.tagBlock 0 i else s.tagBlock area 0
    if 16 < area then (Rep.refused 0x0A, s)
    else if !s.bufOk c bs.length then (Rep.err 0x09, s)
    else s.quickOp c fun n s => s.opBuffer n bs) s
def execTagWrite (berth : BerthId) (slot : Fin 7) (s : State) : Out :=
  serve berth.val slot.val 0x020B at256 68 (fun c s =>
    let area := c.at 0 1
    let block := c.at 1 1
    let k := tagWriteKey area block
    let n := tget 0 s.nv.tagWrites k
    if 16 < area ∨ 63 < block ∨ (area ≠ 0 ∧ block ≠ 0) then (Rep.refused 0x0A, s)
    else if 10000 ≤ n then (Rep.refused 0x09, s)
    else s.quickOp c fun _ s => { s with nv := { s.nv with
      tags := memWrite s.nv.tags (tagKey area block) ((c.payload.drop 4).take 64), tagWrites := tset 0 s.nv.tagWrites k (n + 1) } }) s

end Sys2Proof.Machine
end

