-- ==== Sys2Proof/Machine/ThreadMem.lean ====
section
/-! DEFINITION. Memory, copy, atomic and tally instructions (Table 4-9, R100 to R104), and the bank accesses they make. -/
namespace Sys2Proof.Machine

/-- SZ (R93): bytes, and whether a load sign-extends. -/
def szBytes (sz : BitVec 3) : Nat := 2 ^ (sz.toNat % 4)
def szSigned (sz : BitVec 3) : Bool := decide (4 ≤ sz.toNat)
/-- A loaded value of `n` bytes. -/
def extLoad (n : Nat) (sgn : Bool) (v : Nat) : BitVec 64 :=
  if sgn then BitVec.ofInt 64 (signedOf (8 * n) v) else BitVec.ofNat 64 v
/-- gA + OFF9·size. -/
def IssueM.addr (i : IssueM) (s : State) : Nat :=
  ((i.th s).gr i.a.toNat + BitVec.ofInt 64 (i.off.toInt * szBytes i.sz)).toNat

/-! Bank accesses (R63, R66, R102). -/

/-- Bytes of the access that lie in the row of its next byte. -/
def BankOp.rowBytes (o : BankOp) : Nat := min o.rem (64 - o.addr % 64)
/-- Whether the access reads SRAM rows. -/
def BankWhat.reads (w : BankWhat) : Bool :=
  match w with
  | .store _ => false
  | .mbring _ => false
  | .span _ _ => false
  | _ => true
/-- A span request whose thread has stopped: its completion is discarded (R114). -/
def Core.lastDead (k : Core) : Core :=
  { k with reqs := k.reqs.dropLast ++ (k.reqs.getLast?.map fun r => { r with dead := true }).toList }
/-- A store of the thread at span address `a`: refused at its source, it leaves a pending store error (R104, R230). -/
def State.spanPost (s : State) (c t pc a : Nat) (bytes : List Byte) : State :=
  match s.sendReq c (.store t) 0 pc 0x02 a bytes with
  | (none, s') => s'
  | (some st, s') => s'.storeFailed c t a st
/-- The same for a thread that has stopped: its errors are discarded. -/
def State.spanPostDead (s : State) (c t pc a : Nat) (bytes : List Byte) : State :=
  match s.sendReq c (.store t) 0 pc 0x02 a bytes with
  | (none, s') => s'.onCore c Core.lastDead
  | (some _, s') => s'
/-- The end of an access whose rows have all been served: its register written, its store or atomic done, its packet, copy, reduction
or berth write under way; an operand check that fails on what was read raises its exception here. -/
def State.bankFinish (s : State) (c t : Nat) (o : BankOp) : State :=
  let setG (s : State) (gd : Nat) (v : BitVec 64) : State := s.setTh c t ((s.th c t).setG gd v)
  match o.what with
  | .load gd n sgn => setG s gd (extLoad n sgn (leVal o.got))
  | .store _ => s
  | .atomic _ gd _ _ => setG s gd (BitVec.ofNat 64 (leVal o.got))
  | .vload v =>
    match (s.th c t).vmap[v]? with
    | some r => s.onCore c fun k => { k with vregs := tset 0 k.vregs r (leVal o.got) }
    | none => s
  | .stsb span => s.spanPost c t o.pc span o.got
  | .span a bs => s.spanPost c t o.pc a bs
  | .copy gd => s.copyRead c t o.pc gd (o.addr - 64) (leVal o.got) o.dead
  | .copyIdx gd at_ desc => s.copyIndexed c t o.pc gd at_ desc (wordsOf o.got)
  | .shsubmit gd => s.shRead c t o.pc gd (o.addr - 64) (leVal o.got)
  | .mbput off => s.berthPut c t off o.got
  | .mbring bits => s.berthOut c t bits

/-- R114: the end of an access whose thread has stopped since it issued: a store, an atomic, a copy, a reduction or a berth write takes effect, no
register is written and no exception raised. The spec says so of posted stores and of loads; of the others it is DESIGN CHOICE (log 38). -/
def State.deadFinish (s : State) (c t : Nat) (o : BankOp) : State :=
  let h := s.th c t
  match o.what with
  | .load _ _ _ => s
  | .vload _ => s
  | .stsb span => s.spanPostDead c t o.pc span o.got
  | .span a bs => s.spanPostDead c t o.pc a bs
  | _ =>
    let s1 := (s.setTh c t { h with st := .stopped }).bankFinish c t o
    s1.setTh c t { h with bankOps := (s1.th c t).bankOps }
def State.opFinish (s : State) (c t : Nat) (o : BankOp) : State := if o.dead then s.deadFinish c t o else s.bankFinish c t o

/-- R63, R65: inbound delivery waits for the bank of offset `a`, so that a thread does not take it. -/
def Core.inboundAt (k : Core) (a : Nat) : Bool :=
  match k.inbound with
  | [] => false
  | b :: _ => match b.pkt with
    | none => false
    | some p => decide (p.coreSpan.1 < 0x60000) && decide (p.coreSpan.2 ≠ 0)
        && decide (p.coreSpan.1 / 0x4000 ≤ a / 0x4000) && decide (a / 0x4000 ≤ (p.coreSpan.1 + p.coreSpan.2 - 1) / 0x4000)
/-- One row of the access at the head of a thread's queue, with what its check bits find: an uncorrectable error raises "SRAM
uncorrectable" (R66, R115), and the instruction performs nothing else. -/
def State.bankRow (s : State) (c t : Nat) (e : Ecc) : State :=
  match (s.th c t).bankOps with
  | [] => s
  | o :: rest =>
    let pop (s : State) : State := s.setTh c t { s.th c t with bankOps := rest }
    let n := o.rowBytes
    let inSram := decide (regionOf o.addr n = .sram)
    let (ok, s1) := if o.what.reads && inSram then s.sramCheck c o.addr e else (true, s)
    if !ok then (if o.dead then pop s1 else (pop s1).raise c t 0x0A 0 0 o.pc o.addr)
    else
      let bytes := if o.what.reads then s1.windowRead c o.addr n else []
      let s2 := match o.what with
        | .store bs => s1.windowWrite c o.addr ((bs.drop o.got.length).take n)
        | .atomic fn _ b d =>
          match atomicNew fn (BitVec.ofNat 64 (leVal bytes)) b d with
          | some v => s1.windowWrite c o.addr (leBytes 8 v.toNat)
          | none => s1
        | _ => s1
      let o' := { o with addr := o.addr + n, rem := o.rem - n, got := o.got ++ (if o.what.reads then bytes else List.replicate n 0) }
      if o'.rem = 0 then (pop s2).opFinish c t o'
      else s2.setTh c t { s2.th c t with bankOps := o' :: rest }

/-- MBRINGs and span stores at the head of a thread's queue take effect once the accesses before them are complete (R102, R103). -/
def bankDrain : Nat → State → Nat → Nat → State
  | 0, s, _, _ => s
  | n + 1, s, c, t =>
    match (s.th c t).bankOps with
    | o :: rest =>
      match o.what with
      | .mbring _ => bankDrain n ((s.setTh c t { s.th c t with bankOps := rest }).opFinish c t o) c t
      | .span _ _ => bankDrain n ((s.setTh c t { s.th c t with bankOps := rest }).opFinish c t o) c t
      | _ => s
    | [] => s

/-- An access joins its thread's queue; its first row is served at once when the bank is free of the sequencer and of inbound delivery and nothing
of the thread is before it. -/
def State.bankStart (s : State) (c t : Nat) (o : BankOp) (acc : BankAcc) : State :=
  let first := (s.th c t).bankOps.isEmpty
  let s1 := s.setTh c t { s.th c t with bankOps := (s.th c t).bankOps ++ [o] }
  match acc with
  | .free e => if first && !(s.core c).inboundAt o.addr then s1.bankRow c t e else s1
  | .delayed => s1

/-- A delayed bank access of a thread is performed, unless inbound delivery waits for its bank (R63, R102). -/
def execThreadBankAccess (core : CoreId) (thread : ThreadId) (e : Ecc) (s : State) : Out :=
  let c := core.val; let t := thread.val
  let blocked := match (s.th c t).bankOps with
    | o :: _ => (s.core c).inboundAt o.addr
    | [] => true
  if (s.core c).power = .running ∧ !blocked then
    let s1 := s.bankRow c t e
    .next (bankDrain (s1.th c t).bankOps.length s1 c t)
  else .next s

/-- Checks of a local access (R101): alignment, then the region. -/
def localCheck (kind : AccKind) (a n align : Nat) : Option (Nat × Nat) :=
  if a % align ≠ 0 then some (0x05, a)
  else if !localAllowed kind a n then some (0x06, a)
  else none
/-- Checks of a span access (R101): alignment, then bits [63:48]. -/
def spanCheck (a align : Nat) : Option (Nat × Nat) :=
  if a % align ≠ 0 then some (0x05, a)
  else if 2 ^ 48 ≤ a then some (0x07, a)
  else none

def execLdl (i : IssueM) (acc : BankAcc) (s : State) : Out :=
  issue (i.site 0x18)
    (fun s =>
      let a := i.addr s; let n := szBytes i.sz
      match localCheck .load a n n with
      | some (code, x) => .raise code x
      | none => .done (s.bankStart i.core.val i.thread.val
          ⟨.load i.d.toNat n (szSigned i.sz), (i.th s).pc, a, n, [], false⟩ acc)) s
def execStl (i : IssueM) (acc : BankAcc) (s : State) : Out :=
  issue (i.site 0x19)
    (fun s =>
      let a := i.addr s; let n := szBytes i.sz
      match localCheck .store a n n with
      | some (code, x) => .raise code x
      | none => .done (s.bankStart i.core.val i.thread.val
          ⟨.store (leBytes n ((i.th s).gNat i.d.toNat)), (i.th s).pc, a, n, [], false⟩ acc)) s

/-- A span access that returns data: refused at its source, it raises "load completion error" (R104, R230). -/
def spanRead (s : State) (c t : Nat) (who : Waiter) (op a : Nat) (payload : List Byte) : Body :=
  if !(s.core c).spanRoom t false then .notReady
  else match s.sendReq c who 0 (s.th c t).pc op a payload with
    | (none, s') => .done s'
    | (some st, s') => .refused s' st a
/-- A posted store; behind an STSB that still reads its source it waits, so that the thread's stores leave in issue order (R103, R248). -/
def spanStore (s : State) (c t a : Nat) (bytes : List Byte) : Body :=
  let h := s.th c t
  if !(s.core c).spanRoom t true then .notReady
  else if h.bankOps.any BankOp.isSpan then
    .done (s.setTh c t { h with bankOps := h.bankOps ++ [⟨.span a bytes, h.pc, 0, 0, [], false⟩] })
  else .done (s.spanPost c t h.pc a bytes)

def execLds (i : IssueM) (s : State) : Out :=
  issue (i.site 0x1A)
    (fun s =>
      let a := i.addr s; let n := szBytes i.sz
      match spanCheck a n with
      | some (code, x) => .raise code x
      | none => spanRead s i.core.val i.thread.val (.load i.thread.val i.d.toNat n (szSigned i.sz)) 0x01 a (leBytes 4 n)) s
def execSts (i : IssueM) (s : State) : Out :=
  issue (i.site 0x1B)
    (fun s =>
      let a := i.addr s; let n := szBytes i.sz
      match spanCheck a n with
      | some (code, x) => .raise code x
      | none => spanStore s i.core.val i.thread.val a (leBytes n ((i.th s).gNat i.d.toNat))) s

/-- STSB: gD bytes, 1 to 256, from local offset gB to span address gA, both aligned to 64 bytes (R101). -/
def execStsb (i : IssueA) (acc : BankAcc) (s : State) : Out :=
  issue (i.site 0x1C 0 .g .g .g true)
    (fun s =>
      let h := i.th s
      let n := h.gNat i.d.toNat; let a := h.gNat i.a.toNat; let l := h.gNat i.b.toNat
      if n = 0 ∨ 256 < n then .raise 0x0C n
      else if a % 64 ≠ 0 then .raise 0x05 a
      else match localCheck .load l n 64, spanCheck a 64 with
        | some (code, x), _ => .raise code x
        | none, some (code, x) => .raise code x
        | none, none =>
          if !(s.core i.core.val).spanRoom i.thread.val true then .notReady
          else .done (s.bankStart i.core.val i.thread.val ⟨.stsb a, h.pc, l, n, [], false⟩ acc)) s

/-- The thread's own span stores, or all its accesses, still outstanding (R100): a store not yet sent counts, and FENCE.A awaits the local accesses
and atomics too (R103). -/
def Core.spanPending (k : Core) (t : Nat) (all : Bool) : Bool :=
  (k.reqs.any fun r =>
    !r.dead && match r.who with
    | .store u => decide (u = t)
    | .load u _ _ _ => all && decide (u = t)
    | .vload u _ _ => all && decide (u = t)
    | .atomic u _ => all && decide (u = t)
    | _ => false)
  || (k.th t).bankOps.any fun o => !o.dead && (all || o.isSpan)
/-- FENCE.S and FENCE.A: done at once when nothing is awaited, otherwise the thread waits (R100, R109). -/
def fence (i : IssueA) (fn : Nat) (all : Bool) (s : State) : Out :=
  issue (i.site 0x1D fn .none .none .none true)
    (fun s =>
      if (s.core i.core.val).spanPending i.thread.val all then .done (i.put s fun h => { h with st := .waiting (.fence all) })
      else .done s) s
def execFenceS (i : IssueA) (s : State) : Out := fence i 0 false s
def execFenceA (i : IssueA) (s : State) : Out := fence i 1 true s

/-- SYNCI waits until every earlier write to the store has completed; from here on the thread's fetches see them all (R62, log 13). -/
def execSynci (i : IssueA) (s : State) : Out :=
  issue (i.site 0x1E 0 .none .none .none true)
    (fun s =>
      let k := s.core i.core.val
      if k.istoreBusy then .notReady else .done (i.put s fun h => { h with sync := k.iHist.length })) s

def execAtoml (i : IssueA) (fn : BitVec 7) (acc : BankAcc) (s : State) : Out :=
  issue (i.site 0x20 fn.toNat .g .g .g (decide (fn.toNat ≤ 9)))
    (fun s =>
      let h := i.th s
      let a := h.gNat i.a.toNat
      match localCheck .atomic a 8 8 with
      | some (code, x) => .raise code x
      | none => .done (s.bankStart i.core.val i.thread.val
          ⟨.atomic fn.toNat i.d.toNat (h.gr i.b.toNat) (h.gr i.d.toNat), h.pc, a, 8, [], false⟩ acc)) s
def execAtoms (i : IssueA) (fn : BitVec 7) (s : State) : Out :=
  issue (i.site 0x21 fn.toNat .g .g .g (decide (fn.toNat ≤ 9)))
    (fun s =>
      let h := i.th s
      let a := h.gNat i.a.toNat
      match spanCheck a 8 with
      | some (code, x) => .raise code x
      | none => spanRead s i.core.val i.thread.val (.atomic i.thread.val i.d.toNat) (0x20 + fn.toNat) a
          (leBytes 8 (h.gNat i.b.toNat) ++ leBytes 8 (h.gNat i.d.toNat))) s

/-- COPY reads its descriptor first (R102); the submission follows when the read is complete. -/
def execCopy (i : IssueA) (acc : BankAcc) (s : State) : Out :=
  issue (i.site 0x24 0 .g .g .none true)
    (fun s =>
      let h := i.th s
      let a := h.gNat i.a.toNat
      if !localAllowed .load a 64 then .raise 0x06 a
      else .done (s.bankStart i.core.val i.thread.val ⟨.copy i.d.toNat, h.pc, a, 64, [], false⟩ acc)) s

def execTwait (i : IssueA) (s : State) : Out :=
  issue (i.site 0x24 1 .none .g .g true)
    (fun s =>
      let h := i.th s
      let n := h.gNat i.a.toNat; let thr := h.gNat i.b.toNat % 2 ^ 32
      if 1023 < n then .raise 0x0C n
      else if tallyMet (s.tally (coreCluster i.core.val) n) thr then .done s
      else .done (i.put s fun h => { h with st := .waiting (.tally n thr) })) s
def execTrd (i : IssueA) (s : State) : Out :=
  issue (i.site 0x24 2 .g .g .none true)
    (fun s =>
      let n := (i.th s).gNat i.a.toNat
      if 1023 < n then .raise 0x0C n
      else .done (i.setD s (BitVec.ofNat 64 (s.tally (coreCluster i.core.val) n)))) s
def execTset (i : IssueA) (s : State) : Out :=
  issue (i.site 0x24 3 .none .g .g true)
    (fun s =>
      let h := i.th s
      let n := h.gNat i.a.toNat
      if 1023 < n then .raise 0x0C n
      else .done (s.setTally (coreCluster i.core.val) n (h.gNat i.b.toNat))) s

/-- SHSUBMIT reads its descriptor first (R102, R158). -/
def execShsubmit (i : IssueA) (acc : BankAcc) (s : State) : Out :=
  issue (i.site 0x34 0 .g .g .none true)
    (fun s =>
      let h := i.th s
      let a := h.gNat i.a.toNat
      if !localAllowed .load a 64 then .raise 0x06 a
      else .done (s.bankStart i.core.val i.thread.val ⟨.shsubmit i.d.toNat, h.pc, a, 64, [], false⟩ acc)) s

/-! Mailbox transfers (R110). -/

/-- MBPUT: gB bytes from local offset gA into the berth's request area at offset gD. Where offset and length together exceed 4,096, FADDR
holds the offset: DESIGN CHOICE, R110 does not say which of the two is the offending operand (log 37). -/
def execMbput (i : IssueA) (acc : BankAcc) (s : State) : Out :=
  issue (i.site 0x30 0 .g .g .g true)
    (fun s =>
      let h := i.th s
      let a := h.gNat i.a.toNat; let n := h.gNat i.b.toNat; let off := h.gNat i.d.toNat
      if 4096 < off + n then .raise 0x0C off
      else if n = 0 then .done s
      else if !localAllowed .load a n then .raise 0x06 a
      else .done (s.bankStart i.core.val i.thread.val ⟨.mbput off, h.pc, a, n, [], false⟩ acc)) s
/-- MBGET: gB bytes from the reply area at offset gD into local offset gA; FADDR of a "bad operand" as for MBPUT (log 37). -/
def execMbget (i : IssueA) (acc : BankAcc) (s : State) : Out :=
  issue (i.site 0x30 1 .g .g .g true)
    (fun s =>
      let h := i.th s
      let a := h.gNat i.a.toNat; let n := h.gNat i.b.toNat; let off := h.gNat i.d.toNat
      if 4096 < off + n then .raise 0x0C off
      else if n = 0 then .done s
      else if !localAllowed .store a n then .raise 0x06 a
      else
        let (bs, s1) := match s.coreBarn i.core.val with
          | some b => s.berthRead b (s.threadId i.core.val i.thread.val) off n
          | none => (List.replicate n 0, s)
        .done (s1.bankStart i.core.val i.thread.val ⟨.store bs, h.pc, a, n, [], false⟩ acc)) s
/-- MBRING: after an MBPUT in program order it takes effect once that MBPUT's bytes are in the berth (R102). -/
def execMbring (i : IssueA) (s : State) : Out :=
  issue (i.site 0x30 2 .none .g .none true)
    (fun s =>
      let h := i.th s
      let bits := h.gNat i.a.toNat
      if !(h.bankOps.any fun o => match o.what with
          | .mbput _ => true
          | _ => false) then .done (s.berthOut i.core.val i.thread.val bits)
      else .done (i.put s fun h => { h with bankOps := h.bankOps ++ [⟨.mbring bits, h.pc, 0, 0, [], false⟩] })) s

end Sys2Proof.Machine
end

