-- ==== Sys2Proof/Machine/ThreadPhase.lean ====
section
/-! DEFINITION. Phase, counter and sheaf instructions, mailbox doorbells, barriers, time, thread control and special registers
(Tables 4-11 and 4-12a, R89 to R91, R107 to R114, R400). -/
namespace Sys2Proof.Machine

/-! Phases (R79, R80, R107). -/

def Core.queued (k : Core) : Nat := k.queue.length + (if k.run.isSome then 1 else 0)
/-- A launch joins the queue with the rounding key captured (R128); the sequence number goes to gD. -/
def State.launch (s : State) (c t entry gd : Nat) : State :=
  let k := s.core c
  let h := k.th t
  let l : Launch := ⟨k.launchSeq, entry, h.srSeed, h.srTag, h.srStep, false⟩
  let k1 := { k with queue := k.queue ++ [l], launchSeq := (k.launchSeq + 1) % 2 ^ 32 }.trimOutcomes
  s.setCore c (k1.setTh t (h.setG gd (BitVec.ofNat 64 l.seq)))
/-- PLAUNCH of an entry that has not passed validation, or is locked, raises "bad operand" (R107, R137). A full queue of 8 makes the thread
wait (R79). -/
def execPlaunch (i : IssueA) (s : State) : Out :=
  issue (i.site 0x28 0 .g .g .none true)
    (fun s =>
      let k := s.core i.core.val
      let e := (i.th s).gNat i.a.toNat
      if 63 < e ∨ !k.valid.contains e ∨ k.locked.contains e then .raise 0x0C e
      else if 8 ≤ k.queued then .done (i.put s fun h => { h with st := .waiting (.launch e i.d.toNat) })
      else .done (s.launch i.core.val i.thread.val e i.d.toNat)) s

/-- What PWAIT and PSTAT find of a launch (R107). -/
inductive LaunchView where
  | ahead
  | live
  | ended (v : Nat)
/-- The launch with sequence number `n`: ahead of LAUNCH_SEQ or not a 32-bit number (bad operand, R107, log 23), to come next, queued or
running, or its outcome; 4 when it is no longer kept. A number equal to LAUNCH_SEQ does not lie ahead of it: DEDUCED (log 23). -/
def Core.launchView (k : Core) (n : Nat) : LaunchView :=
  let seq := n % 2 ^ 32
  let diff := (2 ^ 32 + seq - k.launchSeq) % 2 ^ 32
  if 2 ^ 32 ≤ n ∨ (0 < diff ∧ diff < 2 ^ 31) then .ahead
  else if diff = 0 then .live
  else
    let isRun := match k.run with
      | some r => decide (r.launch.seq = seq)
      | none => false
    let isEnd := match k.ending with
      | some l => decide (l.seq = seq)
      | none => false
    if isRun || isEnd || k.queue.any (fun l => decide (l.seq = seq)) then .live
    else match k.outcomes.find? fun o => decide (o.seq = seq) with
      | some o => .ended (if o.result = 2 then 2 + 256 * o.code else o.result)
      | none => .ended 4
def execPwait (i : IssueA) (s : State) : Out :=
  issue (i.site 0x28 1 .g .g .none true)
    (fun s =>
      let n := (i.th s).gNat i.a.toNat
      match (s.core i.core.val).launchView n with
      | .ahead => .raise 0x0C n
      | .live => .done (i.put s fun h => { h with st := .waiting (.phase (n % 2 ^ 32) i.d.toNat) })
      | .ended v => .done (i.setD s (BitVec.ofNat 64 v))) s
def execPstat (i : IssueA) (s : State) : Out :=
  issue (i.site 0x28 4 .g .g .none true)
    (fun s =>
      let n := (i.th s).gNat i.a.toNat
      match (s.core i.core.val).launchView n with
      | .ahead => .raise 0x0C n
      | .live => .done (i.setD s 3)
      | .ended v => .done (i.setD s (BitVec.ofNat 64 v))) s
/-- PCANCEL: 0 cancelled, 1 already fired (an armed phase counts as fired, R130, and so does one that has ended), 2 not queued: not launched yet,
cancelled before or no longer kept (log 23). -/
def execPcancel (i : IssueA) (s : State) : Out :=
  issue (i.site 0x28 2 .g .g .none true)
    (fun s =>
      let k := s.core i.core.val
      let n := (i.th s).gNat i.a.toNat
      let seq := n % 2 ^ 32
      match k.launchView n with
      | .ahead => .raise 0x0C n
      | _ =>
        match k.queue.find? fun l => decide (l.seq = seq) with
        | some l =>
          if l.armed then .done (i.setD s 1)
          else
            let k1 := { k with queue := k.queue.filter fun l => decide (l.seq ≠ seq) }.outcome ⟨seq, 1, 0⟩
            .done (i.setD (s.setCore i.core.val k1) 0)
        | none =>
          let fired := match k.launchView n with
            | .live => decide (seq ≠ k.launchSeq)
            | .ended v => v != 1 && v != 4
            | .ahead => false
          .done (i.setD s (if fired then 1 else 2))) s
def execPclr (i : IssueA) (s : State) : Out :=
  issue (i.site 0x28 3 .none .none .none true) (fun s => .done (s.onCore i.core.val fun k => { k with held := none })) s

/-! Counters (R75, R108). -/

def ctrAdd (i : IssueA) (fn : Nat) (credit : Bool) (s : State) : Out :=
  issue (i.site 0x2C fn .none .g .g true)
    (fun s =>
      let h := i.th s
      let n := h.gNat i.a.toNat
      if 31 < n then .raise 0x0C n else .done (s.addCounter i.core.val credit n (h.gNat i.b.toNat % 65536))) s
def ctrRead (i : IssueA) (fn : Nat) (credit : Bool) (s : State) : Out :=
  issue (i.site 0x2C fn .g .g .none true)
    (fun s =>
      let n := (i.th s).gNat i.a.toNat
      if 31 < n then .raise 0x0C n else .done (i.setD s (BitVec.ofNat 64 ((s.core i.core.val).ctr credit n)))) s
/-- TKWAIT, CCWAIT, TKTAKE and CCTAKE: the test of the issuing instruction, after the head phase's and the waiting takes' (R108); a test that fails
makes the thread wait. -/
def ctrWait (i : IssueA) (fn : Nat) (credit take : Bool) (s : State) : Out :=
  issue (i.site 0x2C fn .none .g .g true)
    (fun s =>
      let h := i.th s
      let n := h.gNat i.a.toNat; let thr := h.gNat i.b.toNat % 65536
      let v := (s.core i.core.val).ctr credit n
      if 31 < n then .raise 0x0C n
      else if (s.core i.core.val).headTakes credit n ∨ (s.core i.core.val).takeBefore credit n 64 then .notReady
      else if thr ≤ v then .done (if take then s.onCore i.core.val fun k => k.setCtr credit n (v - thr) else s)
      else .done (i.put s fun h => { h with st := .waiting (.counter credit n thr take) })) s
def execTkadd (i : IssueA) (s : State) : Out := ctrAdd i 0 false s
def execCcadd (i : IssueA) (s : State) : Out := ctrAdd i 1 true s
def execTkrd (i : IssueA) (s : State) : Out := ctrRead i 2 false s
def execCcrd (i : IssueA) (s : State) : Out := ctrRead i 3 true s
def execTkwait (i : IssueA) (s : State) : Out := ctrWait i 4 false false s
def execCcwait (i : IssueA) (s : State) : Out := ctrWait i 5 true false s
def execTktake (i : IssueA) (s : State) : Out := ctrWait i 6 false true s
def execCctake (i : IssueA) (s : State) : Out := ctrWait i 7 true true s

/-! Reductions (R107, R163). -/

def Core.handle (k : Core) (h : Nat) : Handle := tget Handle.free k.handles h
/-- The thread runs again, with a value in its destination register. -/
def State.wake (s : State) (c t gd : Nat) (v : BitVec 64) : State :=
  s.setTh c t { (s.th c t).setG gd v with st := .running }
/-- Every thread waiting for the handle receives the outcome (R107). -/
def wakeReduction (s : State) (c h : Nat) (v : BitVec 64) : List Nat → State
  | [] => s
  | t :: l =>
    match (s.th c t).st with
    | .waiting (.reduction n gd) => wakeReduction (if n = h then s.wake c t gd v else s) c h v l
    | _ => wakeReduction s c h v l
/-- The end of a reduction reaches the threads that wait for it, and its handle is freed once (R107). -/
def State.reductionEnd (s : State) (c h : Nat) (ab : Bool) : State :=
  (wakeReduction s c h (BitVec.ofNat 64 (boolNat ab)) (tkeys (s.core c).threads)).onCore c fun k =>
    { k with handles := tset Handle.free k.handles h .free }
def execShwait (i : IssueA) (s : State) : Out :=
  issue (i.site 0x34 1 .g .g .none true)
    (fun s =>
      let n := (i.th s).gNat i.a.toNat
      if 15 < n then .raise 0x0C n
      else match (s.core i.core.val).handle n with
        | .free => .raise 0x0C n
        | .pending => .done (i.put s fun h => { h with st := .waiting (.reduction n i.d.toNat) })
        | .ended ab =>
          .done (i.setD (s.reductionEnd i.core.val n ab) (BitVec.ofNat 64 (boolNat ab)))) s
/-- SHABORT: a tree context or a finish aborts (R163); the words that a form descriptor is still to write carry ABORT (Table 4-11, log 15). -/
def execShabort (i : IssueA) (s : State) : Out :=
  issue (i.site 0x34 2 .none .g .none true)
    (fun s =>
      let n := (i.th s).gNat i.a.toNat
      if 15 < n then .raise 0x0C n
      else match (s.core i.core.val).handle n with
        | .free => .raise 0x0C n
        | .ended _ => .done s
        | .pending =>
          match s.sheaf.find? fun x => decide (x.owner = i.core.val) && decide (x.handle = n) with
          | some x => .done (if shKind x.desc = 2 then s.putCtx { x with failed := true } else s.shAbort x)
          | none => .done s) s
def execShstat (i : IssueA) (s : State) : Out :=
  issue (i.site 0x34 3 .g .g .none true)
    (fun s =>
      let n := (i.th s).gNat i.a.toNat
      if 15 < n then .raise 0x0C n
      else match (s.core i.core.val).handle n with
        | .free => .raise 0x0C n
        | .pending => .done (i.setD s 2)
        | .ended ab => .done (i.setD s (BitVec.ofNat 64 (boolNat ab)))) s

/-! Mailbox doorbells (R110). -/

def execMbwait (i : IssueA) (s : State) : Out :=
  issue (i.site 0x30 3 .g .g .none true)
    (fun s =>
      let mask := (i.th s).gNat i.a.toNat % 2 ^ 32
      let (v, s1) := s.berthTakeIn i.core.val i.thread.val mask
      if v = 0 then .done (i.put s fun h => { h with st := .waiting (.mailbox mask i.d.toNat) })
      else .done (i.setD s1 (BitVec.ofNat 64 v))) s
def execMbpoll (i : IssueA) (s : State) : Out :=
  issue (i.site 0x30 4 .g .g .none true)
    (fun s =>
      let mask := (i.th s).gNat i.a.toNat % 2 ^ 32
      let (v, s1) := s.berthTakeIn i.core.val i.thread.val mask
      .done (i.setD s1 (BitVec.ofNat 64 v))) s

/-! Barriers (R111). -/

def Core.barWaiters (k : Core) (n : Nat) : List Nat :=
  (k.threads.filter fun (_, h) => decide (h.st = .waiting (.barrier n))).map (·.1)
def execBarinit (i : IssueA) (s : State) : Out :=
  issue (i.site 0x38 0 .none .g .g true)
    (fun s =>
      let h := i.th s
      let n := h.gNat i.a.toNat; let count := h.gNat i.b.toNat
      if 7 < n then .raise 0x0C n
      else if count = 0 ∨ 64 < count then .raise 0x0C count
      else if !((s.core i.core.val).barWaiters n).isEmpty then .raise 0x0C n
      else .done (s.onCore i.core.val fun k => { k with bars := tset 0 k.bars n count })) s
/-- The arrival that reaches the count lets every waiting thread run, itself included. -/
def execBarwait (i : IssueA) (s : State) : Out :=
  issue (i.site 0x38 1 .none .g .none true)
    (fun s =>
      let k := s.core i.core.val
      let n := (i.th s).gNat i.a.toNat
      if 7 < n then .raise 0x0C n
      else if tget 0 k.bars n = 0 then .raise 0x0C n
      else
        let ws := k.barWaiters n
        if tget 0 k.bars n ≤ ws.length + 1 then
          .done (s.onCore i.core.val fun k => ws.foldl (fun k t => k.setTh t { k.th t with st := .running }) k)
        else .done (i.put s fun h => { h with st := .waiting (.barrier n) })) s

/-! Time (R112, R400). -/

def execTime (i : IssueA) (s : State) : Out :=
  issue (i.site 0x39 0 .g .none .none true) (fun s => .done (i.setD s (BitVec.ofNat 64 s.reckon))) s
def execWaituntil (i : IssueA) (s : State) : Out :=
  issue (i.site 0x39 1 .none .g .none true)
    (fun s =>
      let tgt := (i.th s).gNat i.a.toNat
      if tgt ≤ s.reckon then .done s
      else .done (i.put s fun h => { h with st := .waiting (.time tgt) })) s
def State.cycleOf (s : State) (c : Nat) : Nat := tget 0 s.dieCycle (coreDie c)
/-- IMARK.S opens a marker. A marker number above 15 raises "bad operand": DESIGN CHOICE, R112 names no outcome for it (log 37). -/
def execImarkS (i : IssueA) (s : State) : Out :=
  issue (i.site 0x39 2 .none .g .none true)
    (fun s =>
      let n := (i.th s).gNat i.a.toNat
      if 15 < n then .raise 0x0C n
      else .done (i.put s fun h => { h with markers := tset none h.markers n (some ⟨s.reckon, s.cycleOf i.core.val⟩) })) s
/-- IMARK.E: [61:0] the interval; [63] start and stop in one tick (two die cycles); [62] an orphan, counted for the barn. -/
def execImarkE (i : IssueA) (s : State) : Out :=
  issue (i.site 0x39 3 .g .g .none true)
    (fun s =>
      let h := i.th s
      let n := h.gNat i.a.toNat
      if 15 < n then .raise 0x0C n
      else match tget none h.markers n with
        | none =>
          let s1 := match s.coreBarn i.core.val with
            | some b => s.meterOrphan b
            | none => s
          .done (i.setD s1 (BitVec.ofNat 64 (2 ^ 62)))
        | some m =>
          let s1 := i.put s fun h => { h with markers := tset none h.markers n none }
          let v := if m.cycle / 2 = s.cycleOf i.core.val / 2 then 2 ^ 63 else (2 ^ 64 + s.reckon - m.at_) % 2 ^ 62
          .done (i.setD s1 (BitVec.ofNat 64 v))) s

/-! Vector pool (R90). -/

def Core.vHeld (k : Core) : List Nat := k.threads.flatMap fun (_, h) => h.vmap
def Core.vFree (k : Core) : List Nat :=
  let held := k.vHeld
  (List.range 256).filter fun r => !held.contains r && !k.vzero.contains r
/-- A thread's registers go back to the pool, to be zeroed. -/
def Core.returnVregs (k : Core) (t : Nat) : Core :=
  let h := k.th t
  { k with vzero := k.vzero ++ h.vmap }.setTh t { h with vmap := [] }
def execValloc (i : IssueA) (s : State) : Out :=
  issue (i.site 0x3C 5 .p .g .none true)
    (fun s =>
      let k := s.core i.core.val
      let h := i.th s
      let n := h.gNat i.a.toNat
      let free := k.vFree
      if n = 0 ∨ 64 < n then .raise 0x0C n
      else if free.length < n ∨ !h.vmap.isEmpty then .done (i.put s fun h => h.setP i.d.toNat false)
      else .done (i.put s fun h => { h with vmap := free.take n }.setP i.d.toNat true)) s
/-- VFREE waits for the thread's outstanding vector loads, whose registers it would give away (R99). -/
def execVfree (i : IssueA) (s : State) : Out :=
  issue (i.site 0x3C 6 .none .none .none true)
    (fun s =>
      if !((s.core i.core.val).busyV i.thread.val).isEmpty then .notReady
      else .done (s.onCore i.core.val fun k => k.returnVregs i.thread.val)) s

/-! Thread control (R113, R114). -/

/-- R114: a thread starts at a PC with its g registers, predicates and special registers reset, g1 as given, and no prefetched instruction. Accesses
that it issued before it stopped go on. -/
def Core.startThread (k : Core) (t pc g1 : Nat) : Core :=
  let h := k.th t
  k.setTh t ({ Thread.init with st := .running, pc := pc, vmap := h.vmap, bankOps := h.bankOps, sync := k.iHist.length }.setG 1 (BitVec.ofNat 64 g1))
/-- A thread stops (R90, R113, R114, R400): its registers return to the pool, its markers close, its outstanding loads are discarded when
they return and its stores' errors too, while the stores, and the accesses that wait for a bank, go on. -/
def Core.stopThread (k : Core) (t : Nat) : Core :=
  let k1 := k.returnVregs t
  let h := k1.th t
  let k2 := k1.setTh t { h with st := .stopped, markers := [], bankOps := h.bankOps.map fun o => { o with dead := true }, storeErr := none, extra := 0 }
  let mine (r : Req) : Bool := match r.who with
    | .load u _ _ _ => decide (u = t)
    | .vload u _ _ => decide (u = t)
    | .atomic u _ => decide (u = t)
    | .store u => decide (u = t)
    | _ => false
  { k2 with reqs := k2.reqs.map fun r => if mine r then { r with dead := true } else r }
/-- A stop also releases the thread's berth claims (R338). -/
def State.stopThread (s : State) (c t : Nat) : State :=
  let me := s.threadId c t
  (s.onCore c fun k => k.stopThread t).releaseClaims fun who => decide (who = me)
def execTstart (i : IssueA) (s : State) : Out :=
  issue (i.site 0x3C 0 .p .g .g true)
    (fun s =>
      let k := s.core i.core.val
      let h := i.th s
      let t := h.gNat i.a.toNat
      if 63 < t then .raise 0x0C t
      else if (k.th t).st ≠ .stopped then .done (i.put s fun h => h.setP i.d.toNat false)
      else
        let s1 := s.setCore i.core.val (k.startThread t (h.gNat i.b.toNat) i.thread.val)
        .done (i.put s1 fun h => h.setP i.d.toNat true)) s
def execTstop (i : IssueA) (s : State) : Out :=
  issue (i.site 0x3C 1 .none .none .none true) (fun s => .done (s.stopThread i.core.val i.thread.val)) s
def privileged (i : IssueA) (op fn : Nat) (body : State → Body) : State → Body :=
  fun s => if i.thread.val ≠ 0 then .raise 0x03 (i.word op fn) else body s
def execTkill (i : IssueA) (s : State) : Out :=
  issue (i.site 0x3C 2 .none .g .none true)
    (privileged i 0x3C 2 fun s =>
      let t := (i.th s).gNat i.a.toNat
      if 63 < t then .raise 0x0C t else .done (s.stopThread i.core.val t)) s
def execTrestart (i : IssueA) (s : State) : Out :=
  issue (i.site 0x3C 3 .p .g .g true)
    (privileged i 0x3C 3 fun s =>
      let h := i.th s
      let t := h.gNat i.a.toNat
      if 63 < t then .raise 0x0C t
      else if (s.th i.core.val t).st ≠ .faulted then .done (i.put s fun h => h.setP i.d.toNat false)
      else
        let x := s.th i.core.val t
        let s1 := s.setTh i.core.val t { x with st := .running, pc := h.gNat i.b.toNat, sync := (s.core i.core.val).iHist.length }
        .done (i.put s1 fun h => h.setP i.d.toNat true)) s
def execTfwait (i : IssueA) (s : State) : Out :=
  issue (i.site 0x3C 4 .g .g .none true)
    (privileged i 0x3C 4 fun s =>
      let mask := (i.th s).gNat i.a.toNat
      let v := (s.core i.core.val).faultedMask &&& mask
      if v = 0 then .done (i.put s fun h => { h with st := .waiting (.fault mask i.d.toNat) })
      else .done (i.setD s (BitVec.ofNat 64 v))) s
def execBrk (i : IssueA) (s : State) : Out :=
  issue (i.site 0x3C 7 .none .none .none true) (fun _ => .raise 0x0B 0) s

/-! Special registers (R91, Table 4-4). -/

def State.sreg (s : State) (c t n : Nat) : Option (BitVec 64) :=
  let k := s.core c
  let h := k.th t
  match n with
  | 0x00 => some (BitVec.ofNat 64 t)
  | 0x01 => some (BitVec.ofNat 64 (coordOf s.selfNum c))
  | 0x02 => some (BitVec.ofNat 64 (s.coreStamp c))
  | 0x03 => some (h.fpflags.setWidth 64)
  | 0x04 => some h.srSeed
  | 0x05 => some (h.srTag.setWidth 64)
  | 0x06 => some (h.srStep.setWidth 64)
  | 0x07 => some (BitVec.ofNat 64 h.vmap.length)
  | 0x08 => some (h.fcause.setWidth 64)
  | 0x09 => some (h.fpc.setWidth 64)
  | 0x0A => some h.faddr
  | 0x0B => some (BitVec.ofNat 64 k.faultedMask)
  | 0x0C => some (BitVec.ofNat 64 s.reckon)
  | 0x0D => some (BitVec.ofNat 64 k.launchSeq)
  | _ => none
/-- SRD: FN names the register; an index that Table 4-4 does not list is an FN absent from the tables (R95). -/
def execSrd (i : IssueA) (fn : BitVec 7) (s : State) : Out :=
  issue (i.site 0x3D fn.toNat .g .none .none (decide (fn.toNat ≤ 0x0D)))
    (fun s => .done (i.setD s ((s.sreg i.core.val i.thread.val fn.toNat).getD 0))) s
/-- SWR under the access codes of R14: FPFLAGS bits written 1 clear, the RW registers take gA, a write of an RO register is discarded. -/
def execSwr (i : IssueA) (fn : BitVec 7) (s : State) : Out :=
  issue (i.site 0x3E fn.toNat .none .g .none (decide (fn.toNat ≤ 0x0D)))
    (fun s => .done (i.put s fun h =>
      let v := h.gr i.a.toNat
      match fn.toNat with
      | 0x03 => { h with fpflags := h.fpflags &&& ~~~(v.setWidth 5) }
      | 0x04 => { h with srSeed := v }
      | 0x05 => { h with srTag := v.setWidth 32 }
      | 0x06 => { h with srStep := v.setWidth 32 }
      | _ => h)) s
def execSrdt (i : IssueA) (fn : BitVec 7) (s : State) : Out :=
  issue (i.site 0x3F fn.toNat .g .g .none (decide (fn.toNat ≤ 0x0D)))
    (privileged i 0x3F fn.toNat fun s =>
      let t := (i.th s).gNat i.a.toNat
      if 63 < t then .raise 0x0C t
      else .done (i.setD s ((s.sreg i.core.val t fn.toNat).getD 0))) s

end Sys2Proof.Machine
end

