-- ==== Sys2Proof/Machine/Validate.lean ====
section
/-! DEFINITION. The core validator and the helm's checks of a loaded phase (spec/05 R120 to R134, R138, Table 5-10; spec/06 R143, R151, R156).
Every check of a code is made; the first code of Table 5-10's order that fails is the result. -/
namespace Sys2Proof.Machine

/-! What an entry names. -/

def pdWords (k : Core) (d : Nat) : List StepWord := (List.range (pdLast d + 1 - pdBase d)).map fun i => k.stepAt (pdBase d + i)
def pdScheds (k : Core) (d : Nat) : List SchedEntry := (List.range (pdSchedCount d)).map fun i => k.schedAt (pdSched d + i)
def pdRsvs (k : Core) (d : Nat) : List Nat := (List.range (pdRsvCount d)).map fun i => tget 0 k.scheds (pdRsv d + i)
/-- The conditions of a descriptor that are enabled. -/
def pdConds (d base : Nat) : List Cond := ((List.range 4).map fun i => condAt d (base + 22 * i)).filter (·.en)

/-! Code 0x01. -/

/-- Descriptor fields (Table 5-2). A schedule or reservation range past the store's 1,024 entries has this code too: DESIGN CHOICE, R120 names none
for it (log 37). -/
def badDesc (d : Nat) : Bool :=
  bitAt d 71 || bitsAt d 494 18 != 0 || decide (32 < pdGang d) || decide (1024 < pdSchedCount d)
    || decide (5 < pdRsvCount d) || decide (1024 < pdSched d + pdSchedCount d) || decide (1024 < pdRsv d + pdRsvCount d)
    || (pdConds d 72 ++ pdConds d 160).any (fun c => c.thr == 0) || (pdPosts d).any fun p => p.en && p.amount == 0
/-- A generator field: a valid code within the store (R121). -/
def badGen (d g : Nat) : Bool := decide (8 < g) || (g != 0 && decide (63 < pdGenBase d + g - 1))
/-- A step word (R122, Table 5-3). -/
def badWord (d : Nat) (w : StepWord) : Bool :=
  w.reserved || decide (0xB < w.fmtA) || decide (0xB < w.fmtB) || decide (7 < w.cfmt) || w.rm == 3
    || [w.ga, w.gb, w.gsa, w.gsb, w.gd].any (badGen d)
    || (if w.mac then w.ga == 0 || w.gb == 0 || (w.gsa != 0) != (w.blk != 0) || (w.gsb != 0) != (w.blk != 0)
        else [w.fmtA, w.fmtB, w.ga, w.gb, w.gsa, w.gsb, w.accSel, w.accBase].any (· != 0))
    || (if w.drain || w.init then w.gd == 0 || (w.drain && w.init) || (w.init && (w.rm != 0 || w.sat))
        else [w.dsel, w.gd, w.cfmt, w.rm, w.dbase].any (· != 0) || w.sat)
/-- A schedule entry (R132, R156, Table 5-7). -/
def badSched (d : Nat) (e : SchedEntry) : Bool :=
  e.reserved || e.outs.contains 7 || e.outL == 5 || decide (4 < e.shA) || decide (4 < e.shB) || badGen d e.rdGen || badGen d e.wrGen
    || (e.reads && e.rdGen == 0) || (e.outL != 0 && e.wrGen == 0) || (e.shMode == 3 && (e.rep + 1) % 4 != 0)
/-- A reservation word (R134, Table 5-8): positions lie below the period, and each is given to one source. -/
def badRsv (x : Nat) : Bool :=
  decide (4 < rvLink x) || decide (rvPlog x < 2) || decide (6 < rvPlog x) || decide (6 < bitsAt x 6 4)
    || (rvSlots x).any (fun (p, src) => decide (2 ^ rvPlog x ≤ p) || decide (5 < src))
    || ((rvSlots x).map (·.1)).eraseDups.length != (rvSlots x).length
def code01 (k : Core) (d : Nat) : Bool :=
  badDesc d || (pdWords k d).any (badWord d) || (pdScheds k d).any (badSched d) || (pdSchedCount d != 0 && (pdRsvs k d).any badRsv)

/-! Codes that the words alone decide. -/

/-- R122, R124, R128, R487. -/
def code02 (k : Core) (d : Nat) : Bool :=
  (pdWords k d).any fun w =>
    (w.mac && (macShape w.fmtA w.fmtB).isNone)
      || (w.init && (decide (3 ≤ w.cfmt ∧ w.cfmt ≤ 5) || (decide (w.cfmt ≤ 2) && (k.leadMac d).isNone)))
      || (w.drain && ((w.rm == 2 && !decide (1 ≤ w.cfmt ∧ w.cfmt ≤ 4)) || (w.sat && !decide (3 ≤ w.cfmt ∧ w.cfmt ≤ 4))))
/-- R37, Table 5-2. -/
def code03 (k : Core) (d : Nat) : Bool :=
  decide (pdAnchor d < -300) || decide (300 < pdAnchor d) || (!pdAnchorSet d && (pdWords k d).any fun w => w.mac && (isMx w.fmtA || isMx w.fmtB))
/-- R72: a MAC and a drain or initialisation in one step, on banks that coincide at some parity. -/
def code07 (k : Core) (d : Nat) : Bool :=
  (pdWords k d).any fun w => w.mac && (w.drain || w.init) && [0, 1].any fun p => accBank w.accSel p == accBank w.dsel p
/-- R77. -/
def code08 (d : Nat) : Bool := [72, 160].any fun b =>
  ((pdConds d b).map (·.ctr)).eraseDups.length != (pdConds d b).length
def code0A (k : Core) (d : Nat) : Bool :=
  (pdWords k d).any fun w =>
    (match if w.mac then macShape w.fmtA w.fmtB else none with
      | some (m, n, _, _) => decide (1024 < w.accBase + m * n)
      | none => false)
      || ((w.drain || w.init) && decide (1024 < w.dbase + 32 * min w.rep 31 + 32))
/-- R123: the words that close loops, with their loop. -/
def loopEnds (k : Core) (d : Nat) : List (Nat × Nat) :=
  ((List.range (pdLast d + 1 - pdBase d)).map (pdBase d + ·)).filterMap fun w =>
    if (k.stepAt w).loopEnd then some (w, (k.stepAt w).lsel) else none
def code0B (k : Core) (d : Nat) : Bool :=
  let l := loopEnds k d
  (l.map (·.2)).eraseDups.length != l.length
    || l.any (fun (w, i) => decide (pdLoopStart d i < pdBase d) || decide (w < pdLoopStart d i))
    || l.any fun (w1, i1) => l.any fun (w2, i2) =>
      decide (pdLoopStart d i1 < pdLoopStart d i2) && decide (pdLoopStart d i2 ≤ w1) && decide (w1 < w2)
/-- R134, R151: a word for every link of the router, giving exactly Table 6-2's sources a position. -/
def State.floorBroken (s : State) (c : Nat) (k : Core) (d : Nat) : Bool :=
  pdSchedCount d != 0 && (List.range 5).any fun link =>
    (link == 4 || s.linkOpen c link) && match k.rsvWord d link with
      | none => true
      | some x =>
        let srcs := (rvSlots x).map (·.2)
        !(dynSources c link).all (fun a => srcs.contains a) || !srcs.all fun a => (dynSources c link).contains a
def code11 (k : Core) (d : Nat) : Bool := (pdWords k d).any fun w => (w.drain || w.init) && !w.vclaim

/-! Codes that the steps decide (R64, R126, R127, R133, R134, R156). -/

/-- The walk of one parity: the step number, use counts, MAC steps per ACCBASE within their block, consecutive steps per bank, the sheaf inputs
of the last two steps, and the first failing step of each code. -/
structure Scan where
  n : Nat
  use : List Nat
  blocks : Map Nat
  run : Map Nat
  had1 : Bool
  had2 : Bool
  bad : Map Nat
  deriving DecidableEq, Repr
def Scan.start : Scan := ⟨0, List.replicate 8 0, [], [], false, false, []⟩
/-- A failing check keeps its first step. -/
def Scan.mark (q : Scan) (code : Nat) (b : Bool) : Scan :=
  if b && !(tkeys q.bad).contains code then { q with bad := tput q.bad code q.n } else q
/-- The rows of an access that lie in the core's banks: bank, row, and whether it writes. -/
def Access.claims (x : Access) : List (Nat × Nat × Bool) :=
  if x.addr < 0 then [] else
  ((List.range x.rows).map fun j => (x.addr.toNat / 0x4000 + j, x.addr.toNat % 0x4000 / 64, x.write)).filter fun r => decide (r.1 < 24)
def Access.bad (x : Access) : Bool :=
  decide (x.addr < 0) || decide (0x60000 ≤ x.addr) || decide (x.addr % x.align ≠ 0) || decide (24 < x.addr.toNat / 0x4000 + x.rows)
    || decide (64 < x.addr.toNat % 64 + x.bytes)
/-- One step. -/
def State.scanStep (s : State) (c : Nat) (k : Core) (d parity : Nat) (w : StepWord) (e : Option SchedEntry) (q : Scan) : Scan :=
  let first := w.blk ≠ 0 && tget 0 q.blocks w.accBase == 0
  let xs := k.accesses d parity q.use w e first
  let rows := (xs.flatMap Access.claims).eraseDups
  let banks := rows.map (·.1)
  let run := banks.eraseDups.foldl (fun m b => tset 0 m b (tget 0 q.run b + 1)) []
  let outs := match e with
    | some e => (List.range 5).filter fun i => e.outs.getD i 0 != 0
    | none => []
  let six := match e with
    | some e => e.outs.contains 6
    | none => false
  let dirs := match e with
    | some e => e.dirs
    | none => []
  let had := match e with
    | some e => e.hasSheaf
    | none => false
  let q1 := ((((q.mark 0x05 (banks.eraseDups.length != banks.length)).mark 0x06 (run.any fun x => decide (8 ≤ x.2))).mark 0x09 (xs.any Access.bad)).mark
      0x0E (outs.any fun i => match k.rsvWord d i with
        | some x => (rvOwner x q.n).isSome
        | none => false)).mark
      0x0F ((outs.filter (· < 4) ++ dirs).any fun i => !s.linkOpen c i)
  let q2 := q1.mark 0x12 (six && !q1.had2)
  { q2 with
    n := q2.n + 1, run := run, use := bumpUses q2.use (genUses w e first), had1 := had, had2 := q2.had1
    blocks := if w.mac && w.blk != 0 then tset 0 q2.blocks w.accBase ((tget 0 q2.blocks w.accBase + 1) % w.blk) else q2.blocks }
/-- The walk, at most `fuel` steps; whether it came to its end. -/
def State.scan (s : State) (c : Nat) (k : Core) (d parity : Nat) : Nat → Walk → Scan → Bool × Scan
  | 0, _, q => (false, q)
  | fuel + 1, v, q =>
    let e := if pdSchedCount d = 0 ∨ pdSched d + pdSchedCount d ≤ v.sched then none else some (k.schedAt v.sched)
    let q1 := s.scanStep c k d parity (k.stepAt v.word) e q
    match k.walkNext d v with
    | none => (true, q1)
    | some v1 => s.scan c k d parity fuel v1 q1
def maxSteps : Nat := 2 ^ 24
/-- Both parities; a phase whose last word lies before its first has no step. -/
def State.scanAll (s : State) (c : Nat) (k : Core) (d : Nat) : List (Bool × Scan) :=
  if pdLast d < pdBase d then [] else [0, 1].map fun p => s.scan c k d p maxSteps (walkStart d) .start
/-- The first failing step of a code that the steps decide. -/
def scanFail (l : List (Bool × Scan)) (code : Nat) : Option Nat :=
  (l.filterMap fun (_, q) => if (tkeys q.bad).contains code then some (tget 0 q.bad code) else none).foldl
    (fun a n => some (match a with
      | some m => min m n
      | none => n)) none
/-- The step count of a phase, none above 2^24 or when it has no step. -/
def scanCount (l : List (Bool × Scan)) : Option Nat :=
  match l with
  | (true, q) :: _ => some q.n
  | _ => none

/-! Gangs (R130, R133). -/

/-- The schedule entry of each step. -/
def schedSteps (k : Core) (d : Nat) : List SchedEntry := (pdScheds k d).flatMap fun e => List.replicate (e.rep + 1) e
/-- The steps in which an entry sends toward a direction, and takes from one. -/
def sentSteps (k : Core) (d dir : Nat) : List Nat :=
  ((schedSteps k d).zipIdx.filter fun x => x.1.outs.getD dir 0 != 0).map (·.2)
def takenSteps (k : Core) (d dir : Nat) : List Nat := ((schedSteps k d).zipIdx.filter fun x => x.1.dirs.contains dir).map (·.2)
def beatSteps (c dir : Nat) : Nat := if isCrossing c dir then 4 else 1
/-- Whether core `c`'s beats match its neighbours': a neighbour outside the gang, or none, exchanges nothing. `desc` gives the members' phases. -/
def State.gangBeats (s : State) (desc : Nat → Option Nat) (c d : Nat) : Bool :=
  (List.range 4).all fun dir =>
    let out := sentSteps (s.core c) d dir
    let in_ := takenSteps (s.core c) d dir
    match (neighbour c dir).bind fun n => (desc n).map fun x => (n, x) with
    | none => out.isEmpty && in_.isEmpty
    | some (n, x) =>
      (out.map (· + beatSteps c dir)) == takenSteps (s.core n) x (opposite dir)
        && ((sentSteps (s.core n) x (opposite dir)).map (· + beatSteps c dir)) == in_
/-- The gang check of a line: every member has the same step count, and every beat is sent and taken by members (R133). -/
def State.gangOk (s : State) (members : List (Nat × Nat)) : Bool :=
  let desc (n : Nat) : Option Nat := (members.find? fun x => decide (x.1 = n)).map (·.2)
  let counts := members.map fun (c, d) => scanCount (s.scanAll c (s.core c) d)
  counts.eraseDups.length == 1 && (members.map (·.1)).eraseDups.length == members.length && members.all fun (c, d) => s.gangBeats desc c d

/-! The result of an entry (R138). -/

/-- The times that a word of a phase is executed: its steps, once for every turn of each loop that holds it. -/
def wordTimes (k : Core) (d w : Nat) : Nat :=
  (loopEnds k d).foldl (fun n (e, i) => if pdLoopStart d i ≤ w ∧ w ≤ e then n * pdLoopCount d i else n) ((k.stepAt w).rep + 1)
/-- R127 for a walk too long to follow: the MX steps of some ACCBASE are no whole number of its first word's blocks. -/
def longExtent (k : Core) (d : Nat) : Bool :=
  let ws := ((List.range (pdLast d + 1 - pdBase d)).map (pdBase d + ·)).filter fun w => (k.stepAt w).blk != 0
  ws.any fun w => decide (((ws.filter fun v => decide ((k.stepAt v).accBase = (k.stepAt w).accBase)).map (wordTimes k d)).sum % (k.stepAt w).blk ≠ 0)

/-- Table 5-10 without 0x10, 0x12 of gangs and 0x13: the code and its first failing step. -/
def State.validate (s : State) (c e : Nat) : Nat × Nat :=
  let k := s.core c
  let d := tget 0 k.phaseTab e
  let l := s.scanAll c k d
  let byStep (code : Nat) : Option (Nat × Nat) := (scanFail l code).map fun n => (code, n)
  let plain (code : Nat) (b : Bool) : Option (Nat × Nat) := if b then some (code, 0) else none
  let sched := ((pdScheds k d).map fun e => e.rep + 1).foldl (· + ·) 0
  let all : List (Option (Nat × Nat)) :=
    [plain 0x01 (code01 k d), plain 0x02 (code02 k d), plain 0x03 (code03 k d), plain 0x04 (l.any fun x => if x.1 then !x.2.blocks.isEmpty else longExtent k d),
     byStep 0x05, byStep 0x06, plain 0x07 (code07 k d), plain 0x08 (code08 d), byStep 0x09, plain 0x0A (code0A k d), plain 0x0B (code0B k d),
     plain 0x0C (scanCount l).isNone, plain 0x0D (pdSchedCount d != 0 && scanCount l != some sched), plain 0x0E (s.floorBroken c k d),
     byStep 0x0E, byStep 0x0F, plain 0x11 (code11 k d), byStep 0x12]
  (all.findSome? id).getD (0, 0)

end Sys2Proof.Machine
end

