-- ==== Sys2Proof/Machine/CmdProg.lean ====
section
/-! DEFINITION. The commands of family 0x03xx: releases, phase loads and path sets (spec/04 R114, R118, spec/05 R136 to R138, spec/07 R177, spec/13 R340,
R341). -/
namespace Sys2Proof.Machine

/-! Threads. -/

/-- R114: thread 0 of a core starts at `pc` with g1 = 64; a core in reset, in BIST or being zeroed starts it when its zeroing ends (R206, R382). -/
def State.releaseCore (s : State) (pc c : Nat) : State :=
  if !s.coreUsable c then s
  else if (s.core c).power = .running then s.onCore c fun k => if (k.th 0).st = .stopped then k.startThread 0 pc 64 else k
  else { s with releaseWait := (s.releaseWait.filter fun x => decide (x.1 ≠ c)) ++ [(c, pc)] }
def execRelease (berth : BerthId) (slot : Fin 7) (s : State) : Out :=
  serve berth.val slot.val 0x0301 atBarn 36 (fun c s =>
    let ks := c.clusters 4
    if ks.any fun k => !s.ownsCluster c.berth k then (Rep.err 0x06, s)
    else (Rep.ok [], (ks.flatMap clusterCores).foldl (fun (s : State) n => s.releaseCore (c.at 0 2) n) s)) s
/-- R118: a restart is TRESTART's, of a faulted thread; a stop is TKILL's. -/
def execThread0 (berth : BerthId) (slot : Fin 7) (s : State) : Out :=
  serve berth.val slot.val 0x0302 atBarn 8 (fun c s =>
    let n := c.at 0 4 % 16384
    let act := c.at 4 1
    if act = 0 ∨ 2 < act then (Rep.err 0x04, s)
    else if c.at 0 4 ≠ coordOf s.selfNum n ∨ !s.coreUsable n ∨ s.coreBarn n ≠ some c.berth then (Rep.err 0x06, s)
    else if act = 2 then (Rep.ok [], if (s.th n 0).st = .stopped then s else s.stopThread n 0)
    else if (s.th n 0).st ≠ .faulted then (Rep.reason 0x0302 1, s)
    else (Rep.ok [], s.setTh n 0 { s.th n 0 with st := .running, pc := c.at 6 2 })) s

/-! Phase images (R340). -/

/-- A section of an image: the core, the store, the first entry, the count and the offset of its data. -/
structure Section where
  core : Nat
  store : Nat
  first : Nat
  count : Nat
  off : Nat
  deriving DecidableEq, Repr
/-- Bytes of an entry and entries of a store (Table 5-1). -/
def storeBytes (store : Nat) : Nat := if store = 0 then 64 else if store = 3 then 8 else 16
def storeEntries (store : Nat) : Nat := if store = 0 ∨ store = 2 then 64 else 1024
/-- Table 13-13a; none where a record breaks it. -/
def parseSection (size x : Nat) : Option Section :=
  let q : Section := ⟨1024 * bitsAt x 0 4 + 32 * bitsAt x 4 5 + bitsAt x 9 5, bitsAt x 14 2, bitsAt x 16 10, bitsAt x 26 11, bitsAt x 64 32⟩
  if bitsAt x 37 27 ≠ 0 ∨ bitsAt x 96 32 ≠ 0 ∨ q.count = 0 ∨ 1024 < q.count ∨ storeEntries q.store < q.first + q.count ∨ q.off % 16 ≠ 0
      ∨ size < q.off + q.count * storeBytes q.store then none
  else some q
def Section.meets (a b : Section) : Bool :=
  decide (a.core = b.core) && decide (a.store = b.store) && decide (a.first < b.first + b.count) && decide (b.first < a.first + a.count)
def sectionsMeet : List Section → Bool
  | [] => false
  | q :: l => l.any q.meets || sectionsMeet l
/-- The sections of an image, none where the whole image is rejected (R341). -/
def State.parseImage (s : State) (l size : Nat) : Option (List Section) :=
  let h := s.localRead l 64
  let f (i n : Nat) : Nat := leVal ((h.drop i).take n)
  let n := f 6 2
  if size < 64 ∨ f 0 4 ≠ 0x48544850 ∨ f 4 2 ≠ 1 ∨ n = 0 ∨ 8192 < n ∨ f 8 4 ≠ size ∨ 2 ^ 30 < size ∨ f 16 48 ≠ 0 ∨ size < 64 + 16 * n then none
  else if (crc32c (s.localRead (l + 16) (size - 16))).toNat ≠ f 12 4 then none
  else
    let qs := (List.range n).map fun i => parseSection size (leVal (s.localRead (l + 64 + 16 * i) 16))
    if qs.any Option.isNone then none
    else
      let secs := qs.filterMap id
      if sectionsMeet secs then none else some secs

/-! Locks (R137). -/

/-- Entries with a launch queued, armed or running, or locked by another load. -/
def Core.busyEntries (k : Core) : List Nat :=
  k.queue.map (·.entry) ++ (match k.run with
    | some r => [r.launch.entry]
    | none => []) ++ (match k.ending with
    | some l => [l.entry]
    | none => []) ++ k.locked
/-- The store ranges that a descriptor uses: store, first entry, count; of the generators, those that its words and schedule entries name. -/
def Core.pdUses (k : Core) (d : Nat) : List (Nat × Nat × Nat) :=
  let gens := ((pdWords k d).flatMap fun w => [w.ga, w.gb, w.gsa, w.gsb, w.gd]) ++ (pdScheds k d).flatMap fun e => [e.rdGen, e.wrGen]
  [(1, pdBase d, pdLast d + 1 - pdBase d), (3, pdSched d, pdSchedCount d), (3, pdRsv d, pdRsvCount d)]
    ++ (gens.eraseDups.filter (· != 0)).map fun g => (2, pdGenBase d + g - 1, 1)
def Section.usedBy (q : Section) (k : Core) (d : Nat) : Bool :=
  (k.pdUses d).any fun (st, lo, n) => decide (st = q.store) && decide (q.first < lo + n) && decide (lo < q.first + q.count)
/-- A store range that a busy entry uses, or that another load holds, cannot be locked. -/
def Core.rangeBusy (k : Core) (q : Section) : Bool :=
  q.store != 0 && (k.busyEntries.any (fun e => q.usedBy k (tget 0 k.phaseTab e))
    || k.rangeLocks.any fun (_, st, lo, n) => decide (st = q.store) && decide (q.first < lo + n) && decide (lo < q.first + q.count))
/-- A load's result record while it runs: the code 0x10 or 0 for an entry still to be validated, the core and the entry. -/
def loadRec (code c e : Nat) : Nat := code * 2 ^ 20 + 64 * c + e
def recCode (x : Nat) : Nat := x / 2 ^ 20
def recCore (x : Nat) : Nat := x % 2 ^ 20 / 64
def recEntry (x : Nat) : Nat := x % 64
/-- The core leaves the gang lines that no valid entry of it names. -/
def State.leaveLines (s : State) (c : Nat) : State :=
  let k := s.core c
  { s with gangs := s.gangs.filterMap fun (l, g) =>
      let stays := k.valid.any fun e => decide (32 * coreDie c + k.gangOf e = l + 1) && decide (k.gangOf e ≠ 0)
      let g' := if l / 32 = coreDie c ∧ !stays then { g with members := g.members.filter fun x => decide (x ≠ c) } else g
      if g'.members.isEmpty then none else some (l, g') }
/-- One entry of the phase table is locked, written and loses its parity count. -/
def Core.loadEntry (k : Core) (e d : Nat) : Core :=
  { k with phaseTab := tset 0 k.phaseTab e d, valid := k.valid.filter (fun x => decide (x ≠ e)), locked := insertSorted e k.locked, fires := tdel k.fires e }
/-- One section of operation `op`, from its data: an entry that is refused is left alone, a range is locked. -/
def Core.loadSection (k : Core) (op : Nat) (refused : List Nat) (q : Section) (data : List Nat) : Core :=
  let k := if q.store = 0 then k else { k with rangeLocks := k.rangeLocks ++ [(op, q.store, q.first, q.count)] }
  data.zipIdx.foldl (fun k (v, i) =>
    let e := q.first + i
    match q.store with
    | 0 => if refused.contains e then k else k.loadEntry e v
    | 1 => { k with steps := tset 0 k.steps e v }
    | 2 => { k with gens := tset 0 k.gens e v }
    | _ => { k with scheds := tset 0 k.scheds e v }) k
/-- The entries that a section's data spells. -/
def State.sectionData (s : State) (l : Nat) (q : Section) : List Nat :=
  (List.range q.count).map fun i => leVal (s.localRead (l + q.off + storeBytes q.store * i) (storeBytes q.store))
/-- Steps 2 and 3 of Table 5-9 on all cores for the operation that comes next, and the result records in section order. An entry is refused when it
is busy, or when a range that it uses is; the ranges it uses are read from the image where the image writes them. -/
def State.phaseWrite (s : State) (l : Nat) (secs : List Section) : List Nat × State :=
  let failed := secs.filter fun q => (s.core q.core).rangeBusy q
  let stores := secs.filter fun q => q.store != 0 && !failed.contains q
  let s1 := stores.foldl (fun (t : State) q => t.onCore q.core fun k => k.loadSection s.opNext [] q (s.sectionData l q)) s
  let no (q : Section) (d e : Nat) : Bool :=
    (s.core q.core).busyEntries.contains e || failed.any fun f => decide (f.core = q.core) && f.usedBy (s1.core q.core) d
  let tabs := secs.filter fun q => decide (q.store = 0)
  let marked := tabs.map fun q => (q, (s.sectionData l q).zipIdx.map fun (d, i) => (q.first + i, no q d (q.first + i)))
  let recs := marked.flatMap fun (q, es) => es.map fun (e, x) => loadRec (if x then 0x10 else 0) q.core e
  let s1 := marked.foldl (fun (t : State) (q, es) =>
    t.onCore q.core fun k => k.loadSection s.opNext ((es.filter (·.2)).map (·.1)) q (s.sectionData l q)) s1
  (recs, (secs.map (·.core)).eraseDups.foldl (fun (s : State) c => s.leaveLines c) s1)
/-- R341. The image lies in HBM of the barn; a section for a core outside the barn fails the command; a rejected image fails the operation. -/
def execPhaseLoad (berth : BerthId) (slot : Fin 7) (s : State) : Out :=
  serve berth.val slot.val 0x0303 atBarn 12 (fun c s =>
    let l := c.at 0 8
    let size := c.at 8 4
    if 2 ^ 40 ≤ l ∨ !s.ownsLocal c.berth l (max 1 (min size (2 ^ 30))) then (Rep.err 0x06, s)
    else if c.bufLen ≠ 0 ∧ !s.bufOk c c.bufLen then (Rep.err 0x09, s)
    else match s.parseImage l size with
      | none => s.runOp c 0 [] fun n s => s.opFin n 3 0x02
      | some secs =>
        if secs.any fun q => decide (s.coreBarn q.core ≠ some c.berth) then (Rep.err 0x06, s)
        else
          let (recs, s1) := s.phaseWrite l secs
          match s.newOp c recs.length recs with
          | .inl r => (r, s)
          | .inr (n, s2) => (Rep.accepted n, State.opState { s1 with ops := s2.ops, opNext := s2.opNext } n 1 0)) s

/-! The validators end (R136 steps 4 to 6, R138). -/

/-- A record's code and first failing step before the helm's checks; a reset that took the lock away ends its entries with 0x10 (R382). -/
def State.recResult (s : State) (x : Nat) : Nat × Nat :=
  if recCode x ≠ 0 ∨ !(s.core (recCore x)).locked.contains (recEntry x) then (0x10, 0) else s.validate (recCore x) (recEntry x)
/-- The members that a gang line would have: the entries that pass in this load, and the valid entries of the line. -/
def State.lineMembers (s : State) (pass : List Nat) (l : Nat) : List (Nat × Nat) :=
  let d (c e : Nat) : Nat := tget 0 (s.core c).phaseTab e
  let names (c e : Nat) : Bool := decide (32 * coreDie c + pdGang (d c e) = l + 1) && decide (pdGang (d c e) ≠ 0)
  let old := (tget Gang.init s.gangs l).members.flatMap fun c => ((s.core c).valid.filter (names c)).map fun e => (c, d c e)
  old ++ (pass.filter fun x => names (recCore x) (recEntry x)).map fun x => (recCore x, d (recCore x) (recEntry x))
/-- The helm's checks of an entry that passed the validator: its gang (0x12), then its remote posts (0x13). -/
def State.helmCheck (s : State) (b : Nat) (pass : List Nat) (x : Nat) : Nat :=
  let c := recCore x
  let d := tget 0 (s.core c).phaseTab (recEntry x)
  let l := 32 * coreDie c + pdGang d - 1
  let gang := if pdGang d = 0 then s.gangBeats (fun _ => none) c d
    else
      let g := tget Gang.init s.gangs l
      (g.members.isEmpty || decide (g.barn = b)) && s.gangOk (s.lineMembers pass l)
  if !gang then 0x12
  else if (pdPosts d).any fun p => p.en && p.remote && decide (s.coreBarn p.core ≠ some b) then 0x13 else 0
def State.joinLine (s : State) (b c line : Nat) : State :=
  if line = 0 then s
  else
    let l := 32 * coreDie c + line - 1
    let g := tget Gang.init s.gangs l
    { s with gangs := tset Gang.init s.gangs l { g with barn := b, members := insertSorted c g.members } }
/-- The lock of an entry is released, and VALID set for code 0. -/
def State.phaseDone (s : State) (b x code : Nat) : State :=
  let c := recCore x
  let e := recEntry x
  let s1 := s.onCore c fun k => { k with
    locked := if recCode x = 0 then k.locked.filter (fun n => decide (n ≠ e)) else k.locked
    valid := if code = 0 then insertSorted e k.valid else k.valid }
  if code = 0 then s1.joinLine b c ((s1.core c).gangOf e) else s1
/-- The 8-byte record of R341. -/
def resultRecord (x code step : Nat) : List Byte :=
  let c := recCore x
  leBytes 8 (packFields [(4, coreDie c), (5, coreX c), (5, coreY c), (6, recEntry x), (8, code), (24, step)])
def execPhaseValidationComplete (op : Nat) (s : State) : Out :=
  match s.op op with
  | none => .next s
  | some o =>
    if o.opcode ≠ 0x0303 ∨ o.fin.isSome then .next s
    else
      let first := o.work.map fun x => (x, s.recResult x)
      let pass := (first.filter fun y => decide (y.2.1 = 0)).map (·.1)
      let all := first.map fun (x, code, step) =>
        if code = 0 then (let h := s.helmCheck o.barn pass x; (x, h, 0)) else (x, code, step)
      let s0 := all.foldl (fun (s : State) (x, code, _) => s.phaseDone o.barn x code) s
      let s1 := (tkeys s0.cores).foldl (fun (s : State) c => s.onCore c fun k =>
        { k with rangeLocks := k.rangeLocks.filter fun x => decide (x.1 ≠ op) }) s0
      let bytes := all.flatMap fun (x, code, step) => resultRecord x code step
      let s2 := s1.opBuffer op (bytes.take (o.bufLen / 8 * 8))
      let s3 := s2.opChange op fun o => { o with progress := all.length, total := all.length }
      .next (s3.opFin op 2 (if all.any (fun (y : Nat × Nat × Nat) => y.2.1 != 0) then 1 else 0))

/-! Path sets (R177). -/

def parsePath (x : Nat) : PathEntry := ⟨bitsAt x 0 9, bitsAt x 9 9, bitAt x 18⟩
def dupes (l : List Nat) : Bool := l.eraseDups.length != l.length
/-- The set is queued or in progress at its barn's controller. -/
def Steer.holds (x : Steer) (set : Nat) : Bool :=
  x.queue.any (fun q => decide (q.set = set)) || match x.cur with
    | some (q, _) => decide (q.set = set)
    | none => false
def setSize (p : Option PathSet) : Nat := match p with
  | some p => p.entries.length
  | none => 0
/-- The reason of R177 for which a load is rejected, numbered in R177's order from 1 (log 10). -/
def State.pathRefusal (s : State) (b set : Nat) (raw : List Nat) : Option Nat :=
  let es := raw.map parsePath
  let mine (l : Nat) : Bool := isPool l && s.ownsCluster b (linkCluster l)
  let live := es.filter fun e => !e.dark
  let others := ((s.pathSets.filter fun x => decide (x.1 ≠ set)).map fun x => setSize x.2).foldl (· + ·) 0
  if raw.any fun x => bitsAt x 19 13 != 0 then some 0x07
  else if es.any fun e => !mine e.tx || (!e.dark && !mine e.rx) then some 0x01
  else if live.any fun e => decide (e.tx / 32 = e.rx / 32) then some 0x02
  else if dupes (es.map (·.tx)) || dupes (live.map (·.rx)) then some 0x03
  else if (s.steer b).holds set then some 0x04
  else if (match tget none s.pathSets set with
      | some p => decide (p.barn ≠ b)
      | none => false) then some 0x05
  else if 16384 < others + es.length then some 0x06
  else none
def execPathsetLoad (berth : BerthId) (slot : Fin 7) (s : State) : Out :=
  serve berth.val slot.val 0x0304 atBarn 16 (fun c s =>
    let n := c.at 2 2
    if n = 0 ∨ 192 < n then (Rep.err 0x04, s)
    else if !s.ownsLocal c.berth (c.at 8 8) (4 * n) then (Rep.err 0x06, s)
    else
      let raw := (wordsOf (s.localRead (c.at 8 8) (4 * n)))
      match s.pathRefusal c.berth (c.at 0 1) raw with
      | some d => (Rep.reason 0x0304 d, s)
      | none => (Rep.ok [], { s with pathSets := tset none s.pathSets (c.at 0 1) (some ⟨c.berth, raw.map parsePath⟩) })) s
/-- A set of another barn is not the barn's to drop (0x06); a set that is not loaded drops nothing. -/
def execPathsetDrop (berth : BerthId) (slot : Fin 7) (s : State) : Out :=
  serve berth.val slot.val 0x0305 atBarn 1 (fun c s =>
    match tget none s.pathSets (c.at 0 1) with
    | none => (Rep.ok [], s)
    | some p =>
      if p.barn ≠ c.berth then (Rep.err 0x06, s)
      else if (s.steer c.berth).holds (c.at 0 1) then (Rep.err 0x05, s)
      else (Rep.ok [], { s with pathSets := tset none s.pathSets (c.at 0 1) none })) s

end Sys2Proof.Machine
end

