-- ==== Sys2Proof/Machine/CmdFabric.lean ====
section
/-! DEFINITION. The commands of family 0x04xx: courses, the cabling plan, ports, sighting, harvests, pairs, the twin and the fabric's settings
(spec/09 R218, R222, R225, R238, spec/11 R271 to R273, R292, spec/12 R300, R309, R311). -/
namespace Sys2Proof.Machine

/-! Courses (R218). -/

/-- An entry that the helm rejects: HOPS, reserved bits, or a first port that does not exist with the role span or global. -/
def State.courseBad (s : State) (e : Nat) : Bool :=
  let p := coursePort (coursePorts e) 0
  courseHops e == 0 || decide (6 < courseHops e) || bitsAt e 47 17 != 0 || !portFitted s.variant p || !(s.planRole p == 1 || s.planRole p == 2)
/-- One record: all four alternatives of a destination in one step, with DOWN cleared, or none of them. -/
def State.courseRecord (s : State) (bs : List Byte) : Bool × State :=
  let d := leVal (bs.take 2)
  let es := (List.range 4).map fun i => leVal ((bs.drop (8 + 8 * i)).take 8)
  if es.any s.courseBad then (false, s)
  else (true, { s with courses := es.zipIdx.foldl (fun m (e, i) => tset 0 m (4 * d + i) (putBits e 46 1 0)) s.courses })
def courseRecords (s : State) : List (List Byte) → Bool × State
  | [] => (true, s)
  | r :: l =>
    let (ok, s1) := s.courseRecord r
    let (oks, s2) := courseRecords s1 l
    (ok && oks, s2)
def execCourseLoad (berth : BerthId) (slot : Fin 7) (s : State) : Out :=
  serve berth.val slot.val 0x0401 at257 40 (fun c s =>
    let rs := (List.range (c.length / 40)).map fun i => (c.payload.drop (40 * i)).take 40
    if c.length % 40 ≠ 0 ∨ rs.any fun r => decide (32768 ≤ leVal (r.take 2)) then (Rep.err 0x04, s)
    else
      let (ok, s1) := courseRecords s rs
      (if ok then Rep.ok [] else Rep.reason 0x0401 1, s1)) s

/-! The cabling plan (R271 to R273). -/

/-- A plan as uploaded: 640 bytes. -/
structure Plan where
  bytes : List Byte
  deriving DecidableEq, Repr
def Plan.at (p : Plan) (i n : Nat) : Nat := leVal ((p.bytes.drop i).take n)
def Plan.self (p : Plan) : Nat := p.at 6 2
def Plan.entry (p : Plan) (q : Nat) : Nat := p.at (64 + 8 * q) 8
def peRole (e : Nat) : Nat := bitsAt e 0 2
def pePeerSet (e : Nat) : Bool := bitAt e 2
def pePeer (e : Nat) : Nat := bitsAt e 3 15
def pePort (e : Nat) : Nat := bitsAt e 18 7
/-- R274: the plan entry of port `q` at a package of slot `p` in span `s`, where the toolchain has only the slots `n` of a span and the spans `sp`. -/
def defaultEntry (variant n sp s p q : Nat) : Nat :=
  let f := (List.range 72).filter (portFitted variant)
  let g := if 2 ≤ sp then 8 else 0
  let entry (role peer port : Nat) : Nat := packFields [(2, role), (1, 1), (15, peer), (7, port)]
  let m := if 2 ≤ n then (f.length - 1 - g) / (n - 1) else 0
  let k := (f.findIdx? (· == q)).getD 72
  if !portFitted variant q then 0
  else if 2 ≤ sp ∧ 64 ≤ q then
    let i := 8 * p + (q - 64)
    let l := i / (sp - 1)
    let t := (s + 1 + i % (sp - 1)) % sp
    let j := (s + 2 * sp - t - 1) % sp + (sp - 1) * l
    if l < 8 * n / (sp - 1) then entry 2 (64 * t + j / 8) (64 + j % 8) else 3
  else if 2 ≤ n ∧ k < (n - 1) * m then
    let o := (p + 1 + k % (n - 1)) % n
    let r := (p + 2 * n - o - 1) % n
    entry 1 (64 * s + o) (f.getD (r + (n - 1) * (k / (n - 1))) 0)
  else 3
/-- The first failing check of R272, numbered from 1. -/
def Plan.refusal (p : Plan) (variant : Nat) : Option Nat :=
  let es := (List.range 72).map p.entry
  let self := p.self % 32768
  let spans := p.at 8 2
  let slots := p.at 10 1
  let named := (es.filter pePeerSet).map fun e => 128 * pePeer e + pePort e
  let checks : List Bool :=
    [p.at 0 4 != 0x4E4C5049 || p.at 4 2 != 1 || bitAt p.self 15 || decide (4 < p.at 11 1) || p.at 12 52 != 0
       || es.any (fun e => bitsAt e 25 39 != 0),
     decide (spans ≤ self / 64) || decide (slots ≤ self % 64) || decide (512 < spans) || decide (64 < slots),
     variant == 3 && (decide (1 < spans) || decide (32 < slots)),
     (List.range 72).any (fun q => !portFitted variant q && p.entry q != 0),
     es.any (fun e => (peRole e == 1 || peRole e == 2) && !pePeerSet e),
     es.any (fun e => peRole e == 1 && (pePeer e / 64 != self / 64 || pePeer e == self)),
     es.any (fun e => peRole e == 2 && (pePeer e / 64 == self / 64 || spans == 1)),
     dupes named]
  (checks.zipIdx.find? (·.1)).map fun x => x.2 + 1
/-- The ports whose entries differ from the plan in force. -/
def State.planDiff (s : State) (p : Plan) : List Nat := (List.range 72).filter fun q => decide (p.entry q ≠ s.planEntry q)
/-- R273, R289: what a plan after ready may not do: RESULT and DETAIL of its refusal. -/
def State.planLate (s : State) (p : Plan) : Option Rep :=
  let changed := (s.planDiff p).filter fun q => s.planRole q != 3
  let busy (q : Nat) : Bool := match (s.port q).st with
    | .width => true | .maint => true | .lost => true | _ => false
  let open_ (q : Nat) : Bool := match (s.port q).st with
    | .dark => true | .probe => true | .disagree => true | _ => false
  if !s.ready then none
  else if memRead s.plan 6 6 ≠ (p.bytes.drop 6).take 6 then some (Rep.reason 0x0402 9)
  else if changed.any busy then some (Rep.err 0x05)
  else if changed.any fun q => !open_ q then some (Rep.reason 0x0402 10)
  else none
/-- Edge training has begun. -/
def State.bringsEdges (s : State) : Bool := s.stageDone 9 || decide (s.bu.stage = 9)
/-- A port whose entry changes is sighted again (R273, R296): with its training kept it returns to IDENT; without, it goes where its role
takes it. -/
def State.resight (s : State) (q : Nat) : State :=
  let x := s.port q
  let role := s.planRole q
  let y := { x with shut := false, attested := true }
  if !portFitted s.variant q ∨ !s.bringsEdges then s
  else if role = 0 then s.setPort q { y with st := .dark, lightOff := true }
  else match x.st with
    | .dark => s.setPort q { y with st := .probe }
    | .disagree =>
      if x.light ∧ 8 ≤ x.width then (s.setPort q y).enter q .ident else s.setPort q { y with st := .probe, lightOff := true }
    | .ident => (s.setPort q y).enter q .ident
    | .keying => (s.setPort q { y with keyed := false }).enter q .ident
    | .up => ((s.closeSuper q).onPort q fun z => { z with shut := false, attested := true, keyed := false }).enter q .ident
    | _ => s.setPort q y
def State.applyPlan (s : State) (p : Plan) : State :=
  let diff := s.planDiff p
  diff.foldl (fun (s : State) q => s.resight q) { s with plan := memWrite s.plan 0 p.bytes, selfNum := p.self % 32768, selfValid := true }
def execPlanUpload (berth : BerthId) (slot : Fin 7) (host : List Byte) (s : State) : Out :=
  serve berth.val slot.val 0x0402 at256257 0 (fun c s =>
    if !s.bufOk c 640 then (Rep.err 0x09, s)
    else
      let p : Plan := ⟨s.bufIn c 640 host⟩
      match p.refusal s.variant, s.planLate p with
      | some d, _ => (Rep.reason 0x0402 d, s)
      | none, some r => (r, s)
      | none, none => (Rep.ok [], s.applyPlan p)) s

/-! Ports and reports (R238, R273, R292). -/

/-- R273, R289: a port in UP drains and then stays in DISAGREE; one that carries nothing is put there at once; WIDTH, MAINT and LOST are busy. -/
def execPortRelease (berth : BerthId) (slot : Fin 7) (s : State) : Out :=
  serve berth.val slot.val 0x0403 at256257 1 (fun c s =>
    let p := c.at 0 1
    if !portFitted s.variant p then (Rep.err 0x04, s)
    else match (s.port p).st with
      | .width => (Rep.err 0x05, s)
      | .maint => (Rep.err 0x05, s)
      | .lost => (Rep.err 0x05, s)
      | .up => s.runOp c 0 [p] fun _ s => s.onPort p fun x => { x with drain := true }
      | .dark => s.quickOp c fun _ s => s
      | .probe => s.quickOp c fun _ s => s
      | _ => s.quickOp c fun _ s => s.onPort p fun x => { x with st := .disagree, keyed := false }) s
def execSighting (berth : BerthId) (slot : Fin 7) (s : State) : Out :=
  serve berth.val slot.val 0x0404 at256257 0 (fun c s =>
    if !s.bufOk c 1184 then (Rep.err 0x09, s)
    else s.quickOp c fun n s => s.opBuffer n s.sightReport) s
/-- R238: HARVEST_REQ goes to the target's helm; its HARVEST_DATA end the operation. -/
def execHarvest (berth : BerthId) (slot : Fin 7) (s : State) : Out :=
  serve berth.val slot.val 0x0405 at257 2 (fun c s =>
    let d := c.at 0 2
    if 32768 ≤ d then (Rep.err 0x04, s)
    else if !s.bufOk c 4672 then (Rep.err 0x09, s)
    else s.runOp c 4672 [d, 0] fun _ s => s.egress (mkPkt 0x3A 4 (helmEp d) (helmEp s.selfNum) 0 0 0 (List.replicate 16 0)).seal) s

/-! Pairs and the twin (R300, R309, R311). -/

/-- Two members overlap: the same unit, or a package and a die of it. -/
def memberMeets (pk1 : Bool) (sl1 d1 : Nat) (pk2 : Bool) (sl2 d2 : Nat) : Bool := decide (sl1 = sl2) && (pk1 || pk2 || decide (d1 = d2))
def PairDesc.overlaps (a b : PairDesc) : Bool :=
  memberMeets a.pkgPair a.slotA a.dieA b.pkgPair b.slotA b.dieA || memberMeets a.pkgPair a.slotA a.dieA b.pkgPair b.slotB b.dieB
    || memberMeets a.pkgPair a.slotB a.dieB b.pkgPair b.slotA b.dieA || memberMeets a.pkgPair a.slotB a.dieB b.pkgPair b.slotB b.dieB
def pairsOverlap : List PairDesc → Bool
  | [] => false
  | r :: l => l.any r.overlaps || pairsOverlap l
/-- Every cluster of a pair's members in this package. -/
def State.pairClusters (s : State) (r : PairDesc) : List Nat := (s.pairDies r).flatMap fun d => (List.range 16).map (16 * d + ·)
/-- The first failing condition of R300, numbered from 1. -/
def State.pairRefusal (s : State) (raw : List Nat) : Option Nat :=
  let rs := (raw.map pairDesc).filter (·.valid)
  let checks : List Bool :=
    [rs.any (fun r => memberMeets r.pkgPair r.slotA r.dieA r.pkgPair r.slotB r.dieB),
     pairsOverlap rs,
     rs.any (fun r => (s.pairClusters r).any fun k => decide (s.clusterBarn k ≠ some r.barn)),
     rs.any (fun r => r.pkgPair && (r.dieA != 0 || r.dieB != 0)),
     rs.any (fun r => decide (slotsOf s.variant ≤ r.slotA) || decide (slotsOf s.variant ≤ r.slotB)),
     rs.any (fun r => decide (r.unpairUs < 10) || decide (1000 < r.unpairUs))]
  (checks.zipIdx.find? (·.1)).map fun x => x.2 + 1
/-- A pair is formed: counts and windows start afresh, and its members run (R300, R305, R309). -/
def State.formPair (s : State) (n : Nat) : State :=
  let dies := s.pairDies (pairDesc (tget 0 s.pairTable n))
  { s with
    pairRecs := tset PairRec.init s.pairRecs n { PairRec.init with formedAt := s.reckon }
    chaff := s.chaff.filter fun (k, _) => decide (k / 16 % 16 ≠ n)
    pseq := s.pseq.filter fun (k, _) => !dies.contains (k / 2 ^ 23)
    frozen := s.frozen.filter fun d => !dies.contains d }
/-- The table of R300: records that change are cleared, then formed where valid. -/
def State.loadPairs (s : State) (raw : List Nat) : State :=
  let diff := (List.range 16).filter fun n => decide (raw.getD n 0 ≠ tget 0 s.pairTable n)
  let s1 := diff.foldl (fun (s : State) n =>
    let dies := s.pairDies (pairDesc (tget 0 s.pairTable n))
    State.dropPair { s with frozen := s.frozen.filter fun d => !dies.contains d } n) s
  let s2 := { s1 with pairTable := diff.foldl (fun m n => tset 0 m n (raw.getD n 0)) s1.pairTable }
  let of (t : Map Nat) (b : Nat) : List Nat :=
    (List.range 16).filter fun n => (pairDesc (tget 0 t n)).valid && decide ((pairDesc (tget 0 t n)).barn = b)
  let s3 := ((tkeys s.barns).filter fun b => decide (of s.pairTable b ≠ of s2.pairTable b)).foldl (fun (s : State) b => s.configChanged b) s2
  (diff.filter fun n => (pairDesc (raw.getD n 0)).valid).foldl (fun (s : State) n => s.formPair n) s3
/-- A pair is formed only while no thread of a member runs and no phase is queued there; a load that finds one is busy (0x05). -/
def execPairLoad (berth : BerthId) (slot : Fin 7) (s : State) : Out :=
  serve berth.val slot.val 0x0406 at257 128 (fun c s =>
    let raw := (List.range 16).map fun n => c.at (8 * n) 8
    let fresh := (List.range 16).filter fun n => (pairDesc (raw.getD n 0)).valid && decide (raw.getD n 0 ≠ tget 0 s.pairTable n)
    if raw.any fun x => bitsAt x 40 24 != 0 then (Rep.err 0x04, s)
    else match s.pairRefusal raw with
      | some d => (Rep.reason 0x0406 d, s)
      | none =>
        if fresh.any fun n => (s.pairClusters (pairDesc (raw.getD n 0))).any fun k => !s.clusterIdle k then (Rep.err 0x05, s)
        else (Rep.ok [], s.loadPairs raw)) s
/-- Table 12-4. -/
def PairRec.bytes (r : PairRec) : List Byte :=
  padTo 64 (leBytes 4 r.delivered ++ leBytes 4 r.matched ++ leBytes 4 r.unpairedA ++ leBytes 4 r.unpairedB ++ leBytes 4 r.mismatch
    ++ leBytes 4 r.overrun ++ leBytes 4 r.late ++ leBytes 4 r.dup ++ leBytes 4 r.trailerDrop ++ leBytes 2 r.firstPseq ++ leBytes 1 r.firstFlags
    ++ leBytes 1 r.outcome ++ leBytes 8 r.firstChecks ++ leBytes 8 r.firstTime)
def execPairStatus (berth : BerthId) (slot : Fin 7) (s : State) : Out :=
  serve berth.val slot.val 0x0407 at257Barn 1 (fun c s =>
    let n := c.at 0 1
    if 15 < n then (Rep.err 0x04, s)
    else if c.berth ≠ 257 ∧ (pairDesc (tget 0 s.pairTable n)).barn ≠ c.berth then (Rep.err 0x06, s)
    else (Rep.ok (s.pairRec n).bytes, s)) s
/-- R311: the twin of this package: the one named, or the default one; a span of one package has none. -/
def State.twinSlot (s : State) : Option Nat :=
  match s.twin with
  | some t => some t
  | none => if s.planSlots ≤ 1 then none else if s.selfSlot ^^^ 1 < s.planSlots then some (s.selfSlot ^^^ 1) else some (s.selfSlot - 1)
def execTwinSet (berth : BerthId) (slot : Fin 7) (s : State) : Out :=
  serve berth.val slot.val 0x0408 at257 1 (fun c s =>
    let t := c.at 0 1
    if t = s.selfSlot ∨ s.planSlots ≤ t then (Rep.refused 0x01, s) else (Rep.ok [], { s with twin := some t })) s

/-! Slices and grants (R222, R225). -/

/-- The largest packet of the class of a virtual channel, in units. -/
def State.leastSlice (s : State) (vc : Nat) : Nat := if vc < 3 then 2 else if vc < 9 then 5 else ceilDiv (36 + s.mtu) 64
/-- Reason 1: a slice below its largest packet, 2: more units than the buffer has, 3: GRANT_MAX above 16,384 (log 10). -/
def execFabricConfig (berth : BerthId) (slot : Fin 7) (s : State) : Out :=
  serve berth.val slot.val 0x0409 at256 32 (fun c s =>
    let sl := (List.range 12).map fun i => c.at (2 * i) 2
    if sl.zipIdx.any fun (n, i) => decide (n < s.leastSlice i) then (Rep.reason 0x0409 1, s)
    else if 8192 < sl.foldl (· + ·) 0 then (Rep.reason 0x0409 2, s)
    else if 16384 < c.at 24 4 ∨ 16384 < c.at 28 4 then (Rep.reason 0x0409 3, s)
    else (Rep.ok [], { s with slices := sl, grantMax1 := c.at 24 4, grantMax3 := c.at 28 4 })) s

end Sys2Proof.Machine
end

