-- ==== Sys2Proof/Machine/RegMap.lean ====
section
/-! DEFINITION. What the registers read: BAR0 of the functions (spec/14 R349 to R361), the service address space (R363 to R365) and the
floor-plan map (spec/15 R372, R373). -/
namespace Sys2Proof.Machine

/-! The floor-plan map (Tables 15-3 and 15-4). Stage 6 writes it; stage 7 adds the granules, stage 8 the links. -/

def State.mapWritten (s : State) : Bool := decide (0 < s.generation)
def State.clusterUsableBit (s : State) (k : Nat) : Bool :=
  s.clusterUp.contains k && !s.clusterOut k && (clusterCores k).any fun c => s.coreUsable c
def State.dieUsable (s : State) (d : Nat) : Bool := !s.dieDown.contains d
def State.granuleUsable (s : State) (g : Nat) : Bool := s.stageDone 7 && s.granuleFitted g && !(s.granule g).retired
def State.granuleRetired (s : State) (g : Nat) : Bool := s.stageDone 7 && (s.granule g).retired
def State.usableCores (s : State) : Nat := ((List.range 16).map s.usableOn).foldl (· + ·) 0
def State.usableGranules (s : State) : Nat := ((List.range 1024).filter s.granuleUsable).length
def State.retiredGranules (s : State) : Nat := ((List.range 1024).filter s.granuleRetired).length
def State.txUsable (s : State) (l : Nat) : Bool := s.stageDone 8 && decide ((s.link l).st ≠ .withdrawn) && decide ((s.link l).st ≠ .lost)
def State.rxUsable (s : State) (l : Nat) : Bool := s.stageDone 8 && !s.rxOut.contains l
def State.crossDown (s : State) (d i : Nat) : Bool := s.meshDown.contains (crossingLink d i)
def State.dieRecord (s : State) (d : Nat) : List Byte :=
  padTo 384 (bitmap 1024 (fun i => s.coreUsable (1024 * d + i)) ++ bitmap 1024 (fun i => s.nv.fusedCores.contains (1024 * d + i))
    ++ bitmap 16 (fun c => s.clusterUsableBit (16 * d + c)) ++ leBytes 1 (boolNat (!s.dieUsable d))
    ++ leBytes 1 (if s.dieUsable d then 0 else tget 0 s.dieCause d) ++ leBytes 2 (s.usableOn d) ++ leBytes 2 0
    ++ bitmap 64 (fun g => s.granuleUsable (64 * d + g)) ++ bitmap 64 (fun g => s.granuleRetired (64 * d + g))
    ++ bitmap 32 (fun n => s.txUsable (32 * d + n)) ++ bitmap 32 (fun n => s.rxUsable (32 * d + n))
    ++ leBytes 2 ((List.range 192).filter (s.crossDown d)).length ++ leBytes 2 0 ++ bitmap 192 (s.crossDown d))
def State.floorPlan (s : State) : List Byte :=
  padTo 64 (leBytes 2 1 ++ leBytes 1 s.variant ++ leBytes 1 0 ++ bitmap 16 s.dieUsable ++ leBytes 2 0 ++ leBytes 4 s.usableCores
    ++ leBytes 2 s.usableGranules ++ leBytes 2 s.retiredGranules ++ leBytes 4 s.generation ++ leBytes 4 0 ++ leBytes 8 s.changed)
    ++ (List.range 16).flatMap s.dieRecord

/-! Identity (Table 14-4). -/

def State.idFw (s : State) : Nat := match s.helm.image with
  | some i => if s.stageDone 2 then i.version else 0
  | none => 0
def State.idResources (s : State) : Nat :=
  packFields [(16, if s.mapWritten then s.usableCores else 0), (11, s.usableGranules), (7, if s.variant = 3 then 40 else 72), (1, boolNat s.resValid)]
/-- A register at its block offset: its width in bytes and its value. -/
def State.idReg (s : State) (o : Nat) : Option (Nat × Nat) :=
  match o with
  | 0x00 => some (4, packFields [(16, 0xF072), (4, s.variant), (4, s.nv.stepping)])
  | 0x08 => some (8, s.nv.serial)
  | 0x10 => some (8, s.nv.idDigest % 2 ^ 64)
  | 0x18 => some (8, s.nv.idDigest / 2 ^ 64)
  | 0x20 => some (4, s.nv.rom)
  | 0x28 => some (8, s.idFw)
  | 0x30 => some (8, s.idResources)
  | 0x38 => some (4, if s.selfValid then s.selfNum + 2 ^ 15 else 0)
  | _ => none

/-! Bring-up (Table 14-5). -/

def BringUp.ctl (b : BringUp) : Nat := packFields [(4, b.target), (2, 0), (2, b.calSource), (1, b.fwSource), (1, 0), (6, b.fwOwned)]
def BringUp.status (b : BringUp) : Nat :=
  packFields [(4, b.stage), (3, b.st.code), (1, boolNat b.warm), (8, b.result), (1, boolNat b.accepted), (1, boolNat b.refused), (2, b.why)]
def BringUp.reg (b : BringUp) (o : Nat) : Option (Nat × Nat) :=
  match o with
  | 0x00 => some (4, b.ctl)
  | 0x04 => some (4, b.status)
  | 0x08 => some (8, b.done + 2 ^ 32 * b.total)
  | 0x10 => some (8, b.start)
  | 0x18 => some (8, b.bufAddr)
  | 0x20 => some (4, b.bufLen)
  | 0x28 => some (8, b.repAddr)
  | 0x30 => some (4, b.repLen)
  | 0x34 => some (4, b.repBytes)
  | _ => none

/-! Fault summary (Table 14-8). -/

def Gleaner.maxClass (g : Gleaner) : Nat :=
  if g.fatal then 4 else ([3, 2, 1, 0].find? fun c => g.pending.contains c).getD 7
def State.fsStatus (s : State) : Nat :=
  let g := s.gleaner
  packFields [(4, (List.range 4).foldl (fun a c => a + (if g.pending.contains c then 2 ^ c else 0)) 0), (1, boolNat g.fatal), (3, g.maxClass),
    (1, boolNat g.faultN), (1, boolNat g.shutdown), (1, boolNat s.factoryMode)]
def State.fsReg (s : State) (o : Nat) : Option (Nat × Nat) :=
  let g := s.gleaner
  if o = 0x00 then some (4, s.fsStatus)
  else if o = 0x04 then some (4, boolNat g.hold + 2 * g.minClass)
  else if o = 0x08 then some (8, packFields [(32, g.lastSeq), (3, g.lastClass)])
  else if 0x10 ≤ o ∧ o < 0x24 ∧ o % 4 = 0 then some (4, g.counts.getD ((o - 0x10) / 4) 0)
  else none

/-! Thermal summary (Table 14-9). -/

/-- A temperature code; 0x8000 where no valid sample exists. -/
def tempCode : Option Int → Nat
  | some t => wrapTo 16 t
  | none => 0x8000
def State.maxTemp (s : State) (l : List Nat) : Option Int :=
  (l.filterMap fun n => (s.sensor n).last).foldl (fun a t => some (match a with
    | some m => max m t
    | none => t)) none
def State.thStatus (s : State) : Nat :=
  let all := List.range 592
  packFields [(1, boolNat (s.anyWarn all)), (1, boolNat (s.anyThrottle all)), (1, boolNat s.gleaner.shutdown), (5, 0), (8, s.gleaner.shutWhere)]
def State.thFlags (s : State) (n : Nat) : List (Nat × Nat) :=
  [(1, boolNat (s.anyWarn (summarySensors n))), (1, boolNat (s.anyThrottle (summarySensors n)))]
def State.thDie (s : State) (d : Nat) : Nat :=
  packFields ((16, tempCode (s.maxTemp (summarySensors (32 * d)))) :: s.thFlags (32 * d) ++ [(6, s.holdOf d)])
def State.thHbm (s : State) (n : Nat) : Nat := packFields ((16, tempCode (s.sensor (576 + n)).last) :: s.thFlags (576 + n))
def State.thZone (s : State) (z : Nat) : Nat :=
  packFields ((16, tempCode (s.zoneTemp z)) :: s.thFlags (512 + z) ++ [(1, boolNat (s.sensor (512 + z)).retired)])
def State.thReg (s : State) (o : Nat) : Option (Nat × Nat) :=
  if o % 4 ≠ 0 then none
  else if o = 0 then some (4, s.thStatus)
  else if 0x100 ≤ o ∧ o < 0x140 then some (4, s.thDie ((o - 0x100) / 4))
  else if 0x140 ≤ o ∧ o < 0x180 then some (4, s.thHbm ((o - 0x140) / 4))
  else if 0x200 ≤ o ∧ o < 0x300 then some (4, s.thZone ((o - 0x200) / 4))
  else none

/-! Reckoning and almanac (Table 14-10). A virtual function has RECKON, RK_STATUS and ALM_TIME only. -/

def Clock.status (c : Clock) : Nat :=
  packFields [(2, c.source), (1, boolNat c.locked), (1, boolNat c.ppsSeen), (12, 0), (16, wrapTo 16 (max (-32768) (min 32767 c.offset)))]
def Almanac.status (a : Almanac) : Nat :=
  packFields [(1, boolNat a.valid), (1, boolNat a.vbatLow), (1, boolNat a.setback), (13, 0), (16, wrapTo 16 a.drift)]
def State.rkReg (s : State) (pf : Bool) (o : Nat) : Option (Nat × Nat) :=
  match o, pf with
  | 0x00, _ => some (8, s.reckon)
  | 0x08, _ => some (4, s.clock.status)
  | 0x20, _ => some (8, s.alm.time)
  | 0x10, true => some (8, s.clock.ppsCapture)
  | 0x18, true => some (4, boolNat s.clock.ppsEn + 2 * boolNat s.clock.ppsAlign)
  | 0x28, true => some (8, s.alm.set)
  | 0x30, true => some (4, 2 * s.alm.discipline)
  | 0x38, true => some (4, s.alm.status)
  | _, _ => none

/-! Aperture control (Table 14-3) and the indirect pair but for its data (Table 14-12). -/

def Fn.aptReg (x : Fn) (o : Nat) : Option (Nat × Nat) :=
  match o with
  | 0x00 => some (8, x.aptBase)
  | 0x08 => some (4, x.aptLast + 256 * boolNat x.aptErr)
  | 0x10 => some (8, x.aptErrAddr)
  | _ => none
def Indirect.reg (i : Indirect) (o : Nat) : Option (Nat × Nat) :=
  match o with
  | 0x00 => some (4, i.addr)
  | 0x04 => some (4, boolNat i.inc)
  | 0x10 => some (4, boolNat i.err + 2 * boolNat i.rejected)
  | 0x18 => some (4, i.errAddr)
  | _ => none

/-! BAR0 (Tables 14-2 and R350): what lies at an offset. -/

/-- What an offset of BAR0 holds: a register block of 4 KB with its offset in it, a berth page, the MSI-X table, its pending bits. -/
inductive BarPlace where
  | ident (o : Nat)
  | bringUp (o : Nat)
  | fault (o : Nat)
  | thermal (o : Nat)
  | time (o : Nat)
  | indirect (o : Nat)
  | aperture (o : Nat)
  | berth (b o : Nat)
  | msixTable (o : Nat)
  | msixPend (o : Nat)
  | none
  deriving DecidableEq, Repr
def barPlace (f off : Nat) : BarPlace :=
  let o := off % 0x1000
  if f = 0 then
    match off / 0x1000 with
    | 0 => .ident o
    | 1 => .bringUp o
    | 2 => .fault o
    | 3 => .thermal o
    | 4 => .time o
    | 5 => .indirect o
    | 6 => .aperture o
    | 0x20 => .msixTable o
    | 0x28 => .msixPend o
    | n => if 0x10 ≤ n ∧ n < 0x14 then .berth 0 (off - 0x10000)
      else if 0x14 ≤ n ∧ n < 0x18 then .berth 256 (off - 0x14000)
      else if 0x18 ≤ n ∧ n < 0x1C then .berth 257 (off - 0x18000)
      else .none
  else
    match off / 0x1000 with
    | 0 => .ident o
    | 8 => .time o
    | 0xA => .aperture o
    | 0xC => .msixTable o
    | 0xE => .msixPend o
    | n => if 4 ≤ n ∧ n < 8 then .berth f (off - 0x4000) else .none
/-! Table 14-1: what the configuration space of function `f` says (R347). No row reads it. -/

def pcieVendorId : Nat := 0x1D7A
def pcieDeviceId (f : Nat) : Nat := if f = 0 then 0xF072 else 0xF073
def pcieClassCode : Nat := 0x120000
def pcieTotalVfs : Nat := 255
/-- The function number of the `n`-th virtual function: First VF Offset 1, VF Stride 1. -/
def pcieVfNumber (n : Nat) : Nat := 1 + (n - 1)
/-- The largest Max Payload Size and Max Read Request Size. -/
def pcieMaxPayload : Nat := 256
def pcieMaxRead : Nat := 4096
/-- The MSI-X vectors of a function. -/
def vectors (f : Nat) : Nat := if f = 0 then 6 else 1
/-- A byte of the MSI-X table: bit 0 of a vector's control word is its mask. -/
def Fn.tableByte (x : Fn) (f o : Nat) : Byte :=
  if 16 * vectors f ≤ o then 0
  else if o % 16 = 12 then (if bitAt x.unmasked (o / 16) then 0 else 1)
  else memGet x.table o
/-- The doorbell registers of a berth (Table 13-6). -/
def Berth.reg (h : Berth) (o : Nat) : Option (Nat × Nat) :=
  match o with
  | 0x00 => some (4, h.rings.foldl (fun a r => a ||| 2 ^ r.1) 0)
  | 0x04 => some (4, h.slotsReg)
  | 0x08 => some (4, h.bin.toNat)
  | 0x0C => some (4, (h.mask ||| 0x80000000#32).toNat)
  | _ => none
/-- The register that starts at a place, where it is one of the blocks above; `pf` for the physical function. -/
def State.blockReg (s : State) (f : Nat) (p : BarPlace) : Option (Nat × Nat) :=
  match p with
  | .ident o => s.idReg o
  | .bringUp o => s.bu.reg o
  | .fault o => s.fsReg o
  | .thermal o => s.thReg o
  | .time o => s.rkReg (decide (f = 0)) o
  | .indirect o => s.ind.reg o
  | .aperture o => (s.fn f).aptReg o
  | .berth b o => if 0x2000 ≤ o ∧ s.admits b (idFn f) then (s.berth b).reg (o - 0x2000) else none
  | _ => none

/-! The service address space (Tables 14-13 and 14-14). -/

/-- Table 8-5. -/
def State.laneQuality (s : State) (n k : Nat) : Nat :=
  let x := s.lane (16 * n + k)
  packFields [(7, x.eyeW), (1, 0), (8, x.eyeH), (8, x.ber), (8, x.share), (1, boolNat (decide (x.warn ≠ 0))), (1, boolNat (decide (x.action ≠ 0))),
    (1, boolNat x.excluded), (1, boolNat (s.laneStale n k))]
/-- STATE 6: the attachment link of a port that the variant does not fit. -/
def State.linkState (s : State) (l : Nat) : Nat :=
  match attachPort l with
  | some p => if portFitted s.variant p then (s.link l).st.code else 6
  | none => (s.link l).st.code
def State.linkStatus (s : State) (l : Nat) : Nat :=
  let x := s.link l
  packFields [(2, (linkRole l).code), (3, s.linkState l), (5, maskWidth x.mask), (16, x.mask), (10, x.rx.getD 0x3FF), (1, boolNat x.subst)]
/-- Table 11-11. -/
def State.portStatus (s : State) (p : Nat) : Nat :=
  let x := s.port p
  packFields [(4, x.st.code), (3, s.shownRole p), (5, x.width), (16, x.laneMask), (15, x.peer), (7, x.peerPort), (1, boolNat x.peerValid),
    (1, boolNat x.keyed), (1, boolNat x.maintDeferred), (1, boolNat x.lossSeen), (1, boolNat x.lightOff)]
/-- The crossing table words: they are of 32 bits, and no read captures them (R364). -/
def crossWord (a : Nat) : Bool := decide (0x01000000 ≤ a) && decide (a < 0x01100000) && decide (0x8000 ≤ a % 0x10000)
/-- The 64-bit register at an 8-aligned service address. -/
def State.svcReg (s : State) (a : Nat) : Option Nat :=
  if 0x01000000 ≤ a ∧ a < 0x01100000 then
    let d := (a - 0x01000000) / 0x10000
    let o := a % 0x10000
    if o < 0x4000 then
      let l := 32 * d + o / 0x200
      let r := o % 0x200
      if r = 0 then some (s.linkStatus l)
      else if r = 8 then some ((s.link l).latency % 65536)
      else if 0x40 ≤ r ∧ r < 0xC0 then some (s.laneQuality l ((r - 0x40) / 8))
      else none
    else if 0x8000 ≤ o ∧ o < 0x8300 then
      let i := (o - 0x8000) / 4
      some (tget 0 s.cross (256 * d + i) + 2 ^ 32 * tget 0 s.cross (256 * d + i + 1))
    else none
  else if 0x02000000 ≤ a ∧ a < 0x02000000 + 0x200 * 72 then
    let p := (a - 0x02000000) / 0x200
    let r := a % 0x200
    let v := if r = 0 then some (s.portStatus p) else if r = 8 then some ((s.port p).latency % 65536)
      else if 0x40 ≤ r ∧ r < 0xC0 then some (s.laneQuality (512 + p) ((r - 0x40) / 8)) else none
    if portFitted s.variant p then v else v.map fun _ => 0
  else none
/-- What an access of `n` bytes (4 or 8) at a service address reads; none where it is unassigned, an unaligned 8-byte access included. -/
def State.svcRead (s : State) (a n : Nat) : Option Nat :=
  if a % n ≠ 0 then none
  else match calPlace a, calPlace (a + n - 1) with
    | some (sec, off), some _ => some (s.calRead sec off n)
    | _, _ => (s.svcReg (a / 8 * 8)).map fun v => bitsAt v (8 * (a % 8)) (8 * n)

end Sys2Proof.Machine
end

