-- ==== Sys2Proof/Machine/BringUp.lean ====
section
/-! DEFINITION. Bring-up: BU_CTL and the ten stages (spec/14 R355 to R357, spec/15 R366 to R377). A stage's row is its end; what the hardware found
in it is an operand (log 7). -/
namespace Sys2Proof.Machine

/-- R357: STATE and RESULT change together; vector 3 tells of a change of STATE. -/
def State.buSet (s : State) (st : BuSt) (result : Nat) : State :=
  let s1 := { s with bu := { s.bu with st := st, result := result } }
  if s.bu.st = st then s1 else s1.msix 0 3
/-- R453: a synchronising reset of sensors. -/
def State.syncSensors (s : State) (l : List Nat) : State :=
  l.foldl (fun (s : State) n => s.setSensor n { s.sensor n with invalid := 3, phase := 0, last := none }) s
/-- Sensors whose offset trim changed against section 6 as it was. -/
def State.resync (s : State) (old : List Byte) : State :=
  let new := memRead s.cal (calBase 6) 1152
  s.syncSensors ((List.range 576).filter fun n => (old.drop (2 * n)).take 2 != (new.drop (2 * n)).take 2)

/-- R367: a port with a role starts probing. -/
def State.portsProbe (s : State) : State :=
  (List.range 72).foldl (fun (s : State) p =>
    if portFitted s.variant p ∧ s.planRole p ≠ 0 ∧ (s.port p).st = .dark then s.setPort p { s.port p with st := .probe } else s) s
/-- R370: stage 6 run again first returns its units to their state before the stage. -/
def State.markUnits (s : State) (again : Bool) : State :=
  if again then
    let m := s.bu.marks
    { s with coreDown := m.cores, clusterDown := m.clusters, meshDown := m.links, dieDown := m.dies, dieCause := m.causes, clusterUp := [], cores := [] }
  else { s with bu := { s.bu with marks := ⟨s.coreDown, s.clusterDown, s.meshDown, s.dieDown, s.dieCause⟩ } }
/-- What the start of a stage does at once: sensors start (Table 18-6); stage 5 clears WARM; stage 9 fails without its plan. -/
def State.stageEnter (s : State) (n : Nat) : State :=
  match n with
  | 1 => s.syncSensors ((List.range 64).map fun z => 512 + z)
  | 4 => s.syncSensors (List.range 512)
  | 5 => { s with bu := { s.bu with warm := false } }
  | 7 => s.syncSensors ((List.range 16).map fun d => 576 + d)
  | 9 => if s.selfValid then ({ s with accepted := false }).portsProbe else s.buSet .failed 0x01
  | _ => s
/-- R357, R370: a stage starts; with FATAL set it fails at once. -/
def State.stageStart (s : State) (n : Nat) : State :=
  let b := s.bu
  let s1 := { s with bu := { b with
    stage := n, start := s.reckon, done := 0, total := 0, repBytes := 0
    took := [b.bufAddr, b.bufLen, b.repAddr, b.repLen, b.fwSource, b.calSource] } }.buSet .running 0
  if s.gleaner.fatal then s1.buSet .failed 0x7F else (if n = 6 then s1.markUnits (decide (b.stage = 6)) else s1).stageEnter n
/-- R356: a stage that ends DONE; the next one of the run follows, the last ends in its own state. -/
def State.stagePass (s : State) (result : Nat) : State :=
  if s.bu.stage < s.bu.goal then s.stageStart (s.bu.stage + 1) else s.buSet .done result
/-- The end of stage `n`, if that stage runs. -/
def stageEnd (n : Nat) (f : State → State) (s : State) : Out :=
  .next (if s.bu.stage = n ∧ s.bu.st = .running then (if s.gleaner.fatal then s.buSet .failed 0x7F else f s) else s)
/-- R357, Table 14-7: a report goes to its buffer, if one was given; it must fit. -/
def State.stageReport (s : State) (bs : List Byte) : Nat × State :=
  let addr := s.bu.took.getD 2 0
  if addr = 0 then (0, s)
  else if s.bu.took.getD 3 0 < bs.length then (0x82, s)
  else (0, { s with out := s.out ++ [.hostWrite 0 addr bs], bu := { s.bu with repBytes := bs.length } })

/-! BU_CTL (R356). -/

/-- R296: the report is accepted: a disagreeing port stays in DISAGREE with a class 0 note, and stage 10 runs. -/
def State.acceptReport (s : State) : State :=
  let bad := (List.range 72).filter fun p => portFitted s.variant p && sightDisagrees (s.sightResult p)
  let s1 := bad.foldl (fun (s : State) p => (s.enter p .disagree).report 0x19 s.selfNum p) s
  State.stageStart { s1 with accepted := true, bu := { s1.bu with accepting := true, goal := 10 } } 10
def State.buRefuse (s : State) (why : Nat) : State := { s with bu := { s.bu with refused := true, why := why } }
/-- The stage that GO starts. -/
def BringUp.next (b : BringUp) : Nat :=
  match b.st with
  | .idle => b.stage + 1
  | .done => b.stage + 1
  | .disagree => 9
  | _ => b.stage
def State.buGo (s : State) : State :=
  let t := min 10 s.bu.target
  State.stageStart { s with bu := { s.bu with goal := t, accepting := false } } s.bu.next
/-- A write of BU_CTL: the selected fields, then ACCEPT or GO, then ABORT. A refused action undoes the whole write but for REFUSED and REFUSE_WHY. -/
def State.buCtl (s : State) (v : Nat) : State :=
  let sel := v / 65536
  let put (lo w old : Nat) : Nat := (old &&& (2 ^ w - 1 - bitsAt sel lo w)) ||| (bitsAt v lo w &&& bitsAt sel lo w)
  let b := s.bu
  let on (i : Nat) : Bool := bitAt sel i && bitAt v i
  if bitsAt sel 10 6 ≠ 0 then s
  else
    let s1 := { s with bu := { b with target := put 0 4 b.target, calSource := put 6 2 b.calSource, fwSource := put 8 1 b.fwSource } }
    let s2 :=
      if on 5 then (if b.st = .disagree then s1.acceptReport else s.buRefuse 3)
      else if on 4 then
        if b.st = .running then s.buRefuse 1
        else if b.st = .ready ∨ min 10 s1.bu.target < s1.bu.next then s.buRefuse 2
        else s1.buGo
      else s1
    if on 9 ∧ b.st = .running then s2.buSet .aborted 0x80 else s2
def execBuGo (v : BitVec 32) (s : State) : Out := .next (if s.pins.pcie then s.buCtl v.toNat else s)
def execBuAccept (v : BitVec 32) (s : State) : Out := .next (if s.pins.pcie then s.buCtl v.toNat else s)
def execBuAbort (v : BitVec 32) (s : State) : Out := .next (if s.pins.pcie then s.buCtl v.toNat else s)

/-! Stages 1 to 5. -/

/-- Stage 1: `rcal` is RCAL as measured, in mΩ; the helm pairs, or runs on the half that passes. -/
def execStandbyDomainSelfCheck (railBad refBad : Bool) (rcal : BitVec 32) (aBad bBad : Bool) (s : State) : Out :=
  stageEnd 1 (fun s =>
    let h := s.helm
    if railBad then s.buSet .failed 0x01
    else if refBad then s.buSet .failed 0x02
    else if rcal.toNat < 1960000 ∨ 2040000 < rcal.toNat then s.buSet .failed 0x03
    else if aBad ∧ bBad then s.buSet .failed 0x04
    else
      let s1 := { s with rcalBoot := rcal.toNat, rcalHeld := false }
      let single (half : Nat) : State := State.report { s1 with helm := { h with
        st := .single, retired := some half
        retireA := if half = 0 then h.retireA + 1 else h.retireA, retireB := if half = 1 then h.retireB + 1 else h.retireB } } 0x30 half 0
      (if aBad then single 0 else if bBad then single 1 else { s1 with helm := { h with st := .paired, retired := none } }).stagePass 0) s
/-- R475: the images of the flash, the higher VERSION first, with their slots. -/
def NonVol.fwOrder (nv : NonVol) : List (Nat × FwImage) :=
  match nv.fw0, nv.fw1 with
  | some a, some b => if a.version < b.version then [(1, b), (0, a)] else [(0, a), (1, b)]
  | some a, none => [(0, a)]
  | none, some b => [(1, b)]
  | none, none => []
/-- Stage 2 (R412, R413, R475): the first image that authenticates is loaded; `host` is what the host buffer holds, none where it cannot be read. -/
def execFirmwareAuthentication (host : Option FwImage) (s : State) : Out :=
  stageEnd 2 (fun s =>
    let t := s.bu.took
    let imgs := if t.getD 4 0 = 0 then s.nv.fwOrder
      else if t.getD 1 0 = 0 ∨ t.getD 0 0 % 64 ≠ 0 then [] else match host with
        | some i => [(2, i)]
        | none => []
    match imgs.find? fun (_, i) => (s.nv.fwRefusal i).isNone with
    | some (slot, i) =>
      State.stagePass { s with helm := { s.helm with image := some i, fwA := i.version, fwB := i.version, bootSlot := slot } } 0
    | none => s.buSet .failed (match imgs with
      | (_, i) :: _ => (s.nv.fwRefusal i).getD 0x01
      | [] => 0x81)) s
/-- R371: a cluster that fails its part of a stage leaves service; `cause` of Table 15-4 stands for its die. -/
def State.clusterFails (s : State) (cause : Nat) (ks : List Nat) : State :=
  ks.foldl (fun (s : State) k => (State.retireCluster { s with dieCause := tset 0 s.dieCause (k / 16) cause } k).report 0x44 k 0) s
/-- Stage 3. `vinOk` says that VIN48 is in range; a discharge that runs ends first (Table 19-7a). -/
def execVin48SoftStart (vinOk converterBad : Bool) (regulators : List ClusterId) (s : State) : Out :=
  if s.pins.discharging then .next s
  else stageEnd 3 (fun s =>
    let s1 := { s with pins := { s.pins with vin48 := vinOk } }
    if !vinOk then s1.buSet .failed 0x01
    else if converterBad then s1.buSet .failed 0x02
    else ((State.clusterFails { s1 with pins := { s1.pins with vinOpen := false } } 4 (regulators.map (·.val))).stagePass 0)) s
/-- R389: the alignment marker loads both counts of a die; its value is free. -/
def State.alignDie (s : State) (d : Nat) : State :=
  let (c, s1) := s.free 64
  let (n, s2) := s1.free 64
  { s2 with dieCycle := tset 0 s2.dieCycle d c, dieStep := tset 0 s2.dieStep d n }
/-- Stage 4: count alignment, then crossing training (R144, R390): latency 3 each way, or the link is unavailable. -/
def execClockDistribution (pllLost : Bool) (generators : List ClusterId) (crossings : List (DieId × Fin 192)) (s : State) : Out :=
  stageEnd 4 (fun s =>
    if pllLost then s.buSet .failed 0x01
    else
      let s1 := (List.range 16).foldl (fun (s : State) d => s.alignDie d) s
      let s2 := { s1 with cross := (List.range 16).flatMap fun d => (List.range 192).map fun i => (256 * d + i, if s1.crossDown d i then 0xFFFF else 0x0303) }
      let s3 := crossings.foldl (fun (s : State) (d, i) => (s.retireCrossing (256 * d.val + i.val)).report 0x08 (256 * d.val + i.val) 0) s2
      (s3.clusterFails 3 (generators.map (·.val))).stagePass 0) s
/-- R475: of the calibration images in the flash that pass the checks of R210, the one captured last. -/
def NonVol.calPick (nv : NonVol) : Option CalImage :=
  match nv.cal0.filter (fun i => decide (i.reason = 0)), nv.cal1.filter (fun i => decide (i.reason = 0)) with
  | some a, some b => some (if a.time < b.time then b else a)
  | some a, none => some a
  | none, o => o
/-- R368: stage 5 waits for an image that CAL_RESTORE is to bring. -/
def State.calWaits (s : State) : Bool := decide (s.bu.took.getD 5 0 = 2) && s.calImage.isNone
/-- R187, R482: the modules found fitted are admitted, but for a retired one and those behind an open interlock; their serial numbers stand in section 7. -/
def State.admitFitted (s : State) (fit : List (Fin 12 × Nat)) : State :=
  (List.range 12).foldl (fun (s : State) m =>
    match fit.find? fun x => decide (x.1.val = m) with
    | none => s.setModule m { Module.init with retired := (s.module m).retired }
    | some (_, serial) =>
      let ok := bitAt s.pins.intlk (m / 3) && !decide ((s.module m).retired = some serial)
      let s1 := s.setModule m { fitted := true, admitted := ok, failed := false, released := false, serial := serial
                                retired := if (s.module m).retired = some serial then some serial else none }
      let s2 := s1.calWrite 7 (1536 + 16 * m) (leBytes 16 serial)
      if ok then { s2 with pins := { s2.pins with lhEn := s2.pins.lhEn ||| 2 ^ m } } else s2) s
/-- R194: the offsets of every zone have been fitted at its present temperature; a zone that has given no sample yet has a band that is not known
(log 4). -/
def State.centreBands (s : State) : State :=
  (List.range 64).foldl (fun (s : State) z =>
    match s.zoneTemp z with
    | some t => s.calWrite 2 (2 * z) (leBytes 2 (wrapTo 16 (tenths t)))
    | none =>
      let (v, s1) := s.free 16
      s1.calWrite 2 (2 * z) (leBytes 2 v)) s
/-- R210: what the verification of restored values trims: rings one by one, and the feed levels and driver swings of transmitters whose module has
another serial number than in the image (`same` says which have not). -/
def State.warmTrim (s : State) (same : Nat → Bool) (sec off : Nat) : Bool :=
  match sec with
  | 1 => true
  | 4 => match feedOf s.availModules (off / 16) with
    | some m => !same m
    | none => false
  | 7 => decide (off < 1536) && (List.range 12).any fun m => !same m
  | _ => false
/-- Stage 5. `fit` are the modules fitted with their serial numbers, `opened` the blocks whose interlock is open; `abandoned` that more than
5 % of rings failed the restored values' check, `unlocked` that more than 1 % cannot be locked; `trims` the values that trimming measured. -/
def execLightCalibration (fit : List (ModuleId × BitVec 128)) (opened : List (Fin 4)) (abandoned unlocked : Bool) (trims : List (BitVec 32 × Byte)) (s : State) : Out :=
  if s.calWaits ∧ !s.gleaner.fatal then .next s
  else stageEnd 5 (fun s =>
    let img := if s.bu.took.getD 5 0 = 1 then s.nv.calPick
      else if s.bu.took.getD 5 0 = 2 then s.calImage.filter (fun i => decide (i.reason = 0)) else none
    let warm := img.isSome && !abandoned
    let old := memRead s.cal (calBase 6) 1152
    let cells := match img with
      | some i => if warm then i.cells else s.cal
      | none => s.cal
    let shut := 15 - opened.foldl (fun a b => a ||| 2 ^ b.val) 0
    let s0 := State.admitFitted { s with cal := cells, calImage := none, pins := { s.pins with intlk := shut, lhEn := 0 } } (fit.map fun (m, v) => (m, v.toNat))
    let same (m : Nat) : Bool := match img with
      | some i => decide (i.serials.getD m 0 = (s0.module m).serial)
      | none => false
    let s1 := s0.calApply (fun sec off => !warm || s0.warmTrim same sec off) trims
    let s2 := (if warm then s1 else s1.centreBands).resync old
    if s2.availModules.length < 10 then s2.buSet .failed 0x01
    else if unlocked then s2.buSet .failed 0x02
    else State.stagePass { s2 with bu := { s2.bu with warm := warm } } 0) s
/-- R368: no image has come for 60 s; the stage runs cold. -/
def execCalImageWaitTimeout (s : State) : Out :=
  .next (if s.bu.stage = 5 ∧ s.bu.st = .running ∧ s.calWaits then { s with bu := { s.bu with took := listSet s.bu.took 5 0 } } else s)

/-! Stages 6 to 10. -/

def mergeSorted (l : List Nat) (xs : List Nat) : List Nat := xs.foldl (fun l x => insertSorted x l) l
/-- Stage 6 (R370 to R373): the cores that fail BIST, the cluster regulators and mesh links that fail, and the dies whose fuse load fails. What passes
runs, zeroed, its threads stopped. -/
def execDieBringup (cores : List CoreId) (regulators : List ClusterId) (links : List (Fin 32768)) (fuseBad : List DieId) (s : State) : Out :=
  stageEnd 6 (fun s =>
    let bist := (cores.map (·.val)).filter fun c => !s.nv.fusedCores.contains c
    let s1 := bist.foldl (fun (s : State) c => s.report 0x04 c 0) { s with coreDown := mergeSorted s.coreDown bist }
    let s2 := links.foldl (fun (s : State) l => (s.retireMeshLink l.val).report 0x07 l.val 0) (s1.clusterFails 4 (regulators.map (·.val)))
    let s3 := { s2 with clusterUp := (List.range 256).filter fun k => !s2.clusterOut k }
    let s4 := { s3 with
      cores := ((List.range 16384).filter s3.coreUsable).map fun c => (c, { Core.init with power := .running })
      generation := (s3.generation + 1) % 2 ^ 32, changed := s3.reckon }
    let s5 := ((List.range 16).filter fun d => decide (s4.usableOn d = 0)).foldl (fun (s : State) d =>
      s.dieOut d (if tget 0 s.dieCause d ≠ 0 then tget 0 s.dieCause d else if bist.any (fun c => decide (coreDie c = d)) then 2 else 1)) s4
    let (r, s6) := s5.stageReport s5.floorPlan
    if !fuseBad.isEmpty then s6.buSet .failed 0x02
    else if (List.range 16).any fun d => decide (s6.usableOn d < coreMinimum s6.variant) then s6.buSet .failed 0x01
    else s6.stagePass r) s
/-- Stage 7: key tables cleared, every granule free but those retired; `retired` are granules that fail. -/
def execHbmBringup (stackBad repairBad : Bool) (retired : List GranuleId) (s : State) : Out :=
  stageEnd 7 (fun s =>
    if stackBad then s.buSet .failed 0x01
    else if repairBad then s.buSet .failed 0x02
    else
      let s1 := { s with
        granules := s.granules.filterMap fun (n, g) =>
          let g1 : Granule := ⟨.free, g.retired, g.epoch⟩
          if g1 = Granule.init then none else some (n, g1)
        hbm := [], poison := [], repairs := [], channels := [], readAhead := [] }
      let s2 := retired.foldl (fun (s : State) g => (s.setGranule g.val { s.granule g.val with retired := true }).report 0x22 g.val 0) s1
      State.stagePass { s2 with resValid := true } 0) s
/-- A link trained with its lane mask and latency: a standing link to its partner, an attachment to its port, others dark. -/
def State.trainLink (s : State) (trained : List (LinkId × BitVec 16 × BitVec 16)) (l : Nat) : State :=
  let rx := match linkRole l, attachPort l with
    | .standing _, _ => some (standingRx l)
    | _, some p => if portFitted s.variant p then some (512 + p) else none
    | _, none => none
  if rx = none then s.setLink l Link.init
  else match trained.find? fun x => decide (x.1.val = l) && decide (8 ≤ maskWidth x.2.1.toNat) with
    | some (_, m, c) => (s.setLink l { Link.init with st := .live, mask := m.toNat, rx := rx }).setLatency l c.toNat
    | none => (s.setLink l { Link.init with st := .lost, rx := rx }).report 0x11 l 0
/-- Whether standing link `l`'s die pair has a standing path: the link itself, or one that carries its path as a substitute (R190). -/
def State.pathStands (s : State) (l : Nat) : Bool :=
  decide ((s.link l).st = .live) ||
    s.links.any fun (t, x) => decide (t / 32 = l / 32) && x.subst && decide (x.st = .live) && match x.rx with
      | some r => decide (r / 32 = standingRx l / 32)
      | none => false
/-- Stage 8. Links that `trained` does not name, or names below width 8, are lost; standing ones are substituted. -/
def execInPackageLinkTraining (trained : List (LinkId × BitVec 16 × BitVec 16)) (s : State) : Out :=
  stageEnd 8 (fun s =>
    let s1 := (List.range 512).foldl (fun (s : State) l => s.trainLink trained l) s
    let stand := (List.range 512).filter fun l => decide ((linkRole l).code = 0)
    let s2 := stand.foldl (fun (s : State) l => s.substitute l) s1
    if stand.all s2.pathStands then s2.stagePass 0 else s2.buSet .failed 0x01) s
/-- Stage 9 (R292 to R296): sighting against the plan. -/
def execEdgeTrainingSighting (s : State) : Out :=
  stageEnd 9 (fun s =>
    let (r, s1) := s.stageReport s.sightReport
    if (List.range 72).any fun p => portFitted s1.variant p && sightDisagrees (s1.sightResult p) then s1.buSet .disagree 0x02
    else s1.stagePass r) s
/-- The packages that the plan reaches: its partners, and those a course leads to. -/
def State.planReaches (s : State) : List Nat :=
  ((((List.range 72).filter fun p => s.peerSet p && decide (s.planRole p ≠ 0)).map s.planPeer)
    ++ ((s.courses.filter fun (x : Nat × Nat) => courseValid x.2).map fun (x : Nat × Nat) => x.1 / 4)).eraseDups.filter fun d => decide (d ≠ s.selfNum)
/-- R385: WGIVE with all ones for each windowed class. -/
def State.giveAll (s : State) (dest : Nat) : State :=
  [1, 3].foldl (fun (s : State) tc => s.dispatch (mkPkt 0x32 4 (memEp dest 0) (memEp s.selfNum 0) 0 0 0 (winBody tc [2 ^ 32 - 1])).seal) s
/-- Stage 10 (R377): standing window grants, barn 0, the heartbeats, READY, the harvest count from 0 (Table 9-11). R27: below the minimum of usable
cores on some die it fails. -/
def execReady (s : State) : Out :=
  stageEnd 10 (fun s =>
    if s.gleaner.pending.contains 3 ∨ (List.range 16).any (fun d => decide (s.usableOn d < coreMinimum s.variant)) then s.buSet .failed 0x01
    else
      let s1 := (State.createBarn { s with clusterOwner := [], queueOwner := [] } 0 16 0 0)
      let s2 := s1.planReaches.foldl (fun (s : State) d => s.giveAll d) { s1 with ready := true, hseq := 0 }
      State.buSet { s2 with bu := { s2.bu with accepted := s2.bu.accepting } } .ready 0) s
end Sys2Proof.Machine
end

