-- ==== Sys2Proof/Machine/Power.lean ====
section
/-! DEFINITION. Package reset, supplies and pins (spec/15 R384, spec/19 R465 to R483). -/
namespace Sys2Proof.Machine

/-- What a reset does not touch: the queue, the free values' counter, what has been sent, the fuses and non-volatile stores (R375, R384, R268), the clock on
VBAT (R361) and the pins. -/
def State.survivors (s : State) : State :=
  { State.reset with
    pending := s.pending, freeCtr := s.freeCtr, out := s.out, variant := s.variant, repairs := s.repairs, nv := s.nv
    pins := { s.pins with lhEn := 0, vinOpen := true }
    granules := s.granules.filterMap fun (n, g) =>
      let g1 : Granule := ⟨.free, g.retired, g.epoch + 1⟩
      if g1 = Granule.init then none else some (n, g1)
    alm := { Almanac.init with
      time := s.alm.time, sub := s.alm.sub, valid := s.alm.valid, vbatLow := s.alm.vbatLow, drift := s.alm.drift
      lastBoundary := if s.alm.valid then some (s.alm.time / 2 ^ 24 / 3600 * 3600) else none } }
/-- R384: a package reset: the standby domain keeps FATAL, SHUTDOWN and the latched fault store (R435) with the sequence of records. -/
def State.packageReset (s : State) : State :=
  let g := s.gleaner
  let t := s.survivors
  State.thermFollow { t with
    reports := s.reports, factoryMode := s.factoryMode
    gleaner := { Gleaner.init with fatal := g.fatal, shutdown := g.shutdown, shutWhere := g.shutWhere, latched := g.latched, seq := g.seq }
    meters := [(256, { Meter.init with opened := ⟨t.alm.time, 0, 0, 0, 0, 0, 0, !t.alm.valid⟩ })] }
def execPackageReset (s : State) : Out := .next (if s.pins.vaux then s.packageReset else s)
/-- R473: PERST# low for at least 1 µs: PCIe is gone, and with VAUX in range the package is reset and stays in reset. -/
def execPerstAssert (s : State) : Out :=
  let s1 := { s with pins := { s.pins with perst := false, pcie := false } }
  .next (if s.pins.vaux then s1.packageReset else s1)
/-- R470, step 6: PCIe trains and its functions become ready. -/
def execPerstRelease (s : State) : Out :=
  .next (if s.pins.vaux then { s with pins := { s.pins with perst := true, pcie := true } } else s)

/-! What the straps, the fuses and the connector blocks fix (R474, R476, R480). -/

/-- The static I3C address that the straps select. -/
def State.i3cAddress (s : State) : Nat := 0x30 + s.pins.i3cAddr
def State.idcode (s : State) : Nat := 0x0F072A3D + 2 ^ 28 * s.nv.stepping
/-- Row and column of a port's transmit fibre in its block; its receive fibre lies in the next column. -/
def portFibre (p : Nat) : Nat × Nat := (p % 18 / 6, 2 * (p % 18 % 6))
/-- Row and column of feed fibre `i` of module `m` in the module's block. -/
def feedFibre (m i : Nat) : Nat × Nat := (3 + (8 * (m % 3) + i) / 12, (8 * (m % 3) + i) % 12)

/-! VAUX and VBAT (R468, R469, R478). -/

/-- R468: all state but the almanac on VBAT is lost. -/
def execVauxLoss (s : State) : Out :=
  if !s.pins.vaux then .next s
  else
    let t := s.survivors
    .next { t with
      alm := if s.pins.vbat then t.alm else Almanac.init, meters := []
      pins := { t.pins with vaux := false, pcie := false, sampled := false, thermN := false } }
/-- R468, R470: `vbat` says that VBAT is in range. PERST# is held low. -/
def execVauxPowerOn (vbat : Bool) (s : State) : Out :=
  if s.pins.vaux then .next s
  else
    let p := { s.pins with vaux := true, vbat := vbat, perst := false, pcie := false, sampled := false }
    .next ({ s with pins := p, factoryMode := false, gleaner := .init, reports := [], alm := { s.alm with vbatLow := !vbat } }.packageReset)
/-- R478, R450: the straps are sampled once after VAUX rises. -/
def execStrapSample (testmode sris : Bool) (i3cAddr : Fin 4) (s : State) : Out :=
  if !s.pins.vaux ∨ s.pins.sampled then .next s
  else .next { s with
    pins := { s.pins with sampled := true, testmode := testmode, sris := sris, i3cAddr := i3cAddr.val }
    factoryMode := testmode && !s.nv.factoryClosed }
/-- R401: VBAT lost while VAUX is absent loses the almanac. -/
def execVbatLoss (s : State) : Out :=
  let s1 := { s with pins := { s.pins with vbat := false }, alm := { s.alm with vbatLow := true } }
  .next (if s.pins.vaux then s1 else { s1 with alm := { Almanac.init with vbatLow := true } })

/-! VIN48 (R466, R467, Table 19-7a). -/

/-- The operations in progress end cancelled, but for a firmware update, which is the helm's own. -/
def State.endOps (s : State) : State :=
  (s.ops.filter fun o => decide (o.opcode ≠ 0x0102)).foldl (fun (s : State) o => s.opFin o.num 5 0x25) s
/-- R467: everything outside the standby domain is reset; the helm, the fault summary, the latched store and the berths are kept. -/
def State.vinReset (s0 : State) : State :=
  let s := s0.endOps
  let t := s.survivors
  let u := { t with
    reckon := s.reckon, reports := s.reports, factoryMode := s.factoryMode, helm := s.helm, clock := s.clock, alm := s.alm
    gleaner := { s.gleaner with ring := [] }, berths := s.berths, posted := s.posted, inbox := s.inbox, inboxLost := s.inboxLost
    ops := s.ops, opsEnded := s.opsEnded, opNext := s.opNext, fmPeers := s.fmPeers, fns := s.fns, vfEnable := s.vfEnable, numVfs := s.numVfs
    meters := s.meters, ind := s.ind, plan := s.plan, selfNum := s.selfNum, selfValid := s.selfValid, peerMinSvn := s.peerMinSvn
    rngStopped := s.rngStopped, resValid := s.resValid, rcalBoot := s.rcalBoot, rcalHeld := s.rcalHeld
    slices := s.slices, grantMax1 := s.grantMax1, grantMax3 := s.grantMax3
    sensors := s.sensors.filter fun (n, _) => decide (512 ≤ n) && decide (n < 576)
    bu := { s.bu with stage := 2, warm := false, accepted := false, accepting := false } }
  (u.buSet .done 0).thermFollow
def execVin48Loss (s : State) : Out :=
  if !s.pins.vaux then .next s
  else
    let s1 := { s with pins := { s.pins with vin48 := false, vinOpen := true, discharging := true } }
    .next (
      if s.gleaner.fatal ∨ s.bu.stage < 3 then s1
      else if s.bu.stage = 3 ∧ s.bu.st = .running then s1.buSet .failed 0x01
      else s1.vinReset)
def execVin48DischargeEnd (s : State) : Out := .next { s with pins := { s.pins with discharging := false } }

/-! Connector blocks (R483). -/

/-- A port whose transmitter is stopped: lost where it carried traffic; a port in training goes back to probing without light. -/
def State.portCut (s : State) (p : Nat) : State :=
  let x := s.port p
  let s1 := match x.st with
    | .up => s.portLost p
    | .width => s.portLost p
    | .maint => s.portLost p
    | .dark => s
    | .disagree => s
    | .lost => s
    | .probe => s
    | _ => s.setPort p { x with st := .probe }
  if x.st = .dark then s1 else s1.setPort p { s1.port p with lightOff := true }
/-- The loop of a block opens: its edge transmitters stop, its three modules become unavailable, and the transmitters left without a feed go
dark (R188). `trims` are what the feed retrim of the others sets. -/
def execInterlockOpen (block : Fin 4) (trims : List (BitVec 32 × Byte)) (s : State) : Out :=
  let b := block.val
  if !bitAt s.pins.intlk b then .next s
  else
    let s1 := { s with pins := { s.pins with intlk := s.pins.intlk &&& (15 - 2 ^ b), lhEn := s.pins.lhEn &&& (4095 - 7 * 2 ^ (3 * b)) } }
    let s2 := (List.range 18).foldl (fun (s : State) k => s.portCut (18 * b + k)) s1
    let s3 := (List.range 3).foldl (fun (s : State) i => s.setModule (3 * b + i) { s.module (3 * b + i) with admitted := false }) s2
    .next ((if s3.stageDone 8 then s3.refeed s.availModules else s3).feedRetrim s.availModules trims)

end Sys2Proof.Machine
end

