-- ==== Sys2Proof/Machine/Regs.lean ====
section
/-! DEFINITION. Accesses by PCIe: registers, the indirect pair, apertures and the functions themselves (spec/14 R343 to R365). -/
namespace Sys2Proof.Machine

/-! The indirect pair (R363, R364, R208). -/

def State.onInd (s : State) (f : Indirect → Indirect) : State := { s with ind := f s.ind }
def State.indAdvance (s : State) (n : Nat) : State := s.onInd fun i => if i.inc then { i with addr := (i.addr + n) % 2 ^ 32 } else i
def State.indError (s : State) : State := s.onInd fun i => { i with err := true, errAddr := i.addr }
/-- A read of IND_DATA of 8 or 4 bytes. A 4-byte read of a low half captures the register (R364). -/
def State.indRead (s : State) (eight : Bool) : Nat × State :=
  let a := s.ind.addr
  let n := if eight then 8 else 4
  match s.svcRead a n with
  | none => (0, s.indError.indAdvance n)
  | some v =>
    if eight ∨ (calPlace a).isSome ∨ crossWord a then (v, s.indAdvance n)
    else if a % 8 = 0 then (v, (s.onInd fun i => { i with cap := some (a + 4, (s.svcReg a).getD 0 / 2 ^ 32) }).indAdvance n)
    else match s.ind.cap with
      | some (b, h) => if b = a then (h, (s.onInd fun i => { i with cap := none }).indAdvance n) else (v, s.indAdvance n)
      | none => (v, s.indAdvance n)
/-- R208: a link or port that is dark or withdrawn, and what belongs to a receive link at which no path ends. -/
def State.calFree (s : State) (l : Nat) : Bool :=
  if l < 512 then decide ((s.link l).st = .dark) || decide ((s.link l).st = .withdrawn) else decide ((s.port (l - 512)).st = .dark)
def State.calWritable (s : State) (sec off : Nat) : Bool :=
  !s.stageDone 5 || match s.calOwner sec off with
    | some l => s.calFree l
    | none => (decide (sec = 3) && (attachPort (off / 16)).isNone)
      || (decide (sec = 1) && (ringPlace (off / 2)).any fun _ => decide (9344 ≤ off / 2) && decide (off / 2 < 17536))
/-- A write of IND_DATA: calibration state under R208; LOSS_SEEN of an edge port (Table 11-11); anything else is read-only. -/
def State.indWrite (s : State) (v : Nat) (eight : Bool) : State :=
  let a := s.ind.addr
  let n := if eight then 8 else 4
  let s1 :=
    if (s.svcRead a n).isNone then s.indError
    else match calPlace a with
      | some (sec, off) =>
        if (List.range n).all fun i => s.calWritable sec (off + i) then
          let t := s.calWrite sec off (leBytes n v)
          if sec = 6 then t.resync (memRead s.cal (calBase 6) 1152) else t
        else s.onInd fun i => { i with rejected := true, errAddr := i.addr }
      | none =>
        let p := (a - 0x02000000) / 0x200
        if 0x02000000 ≤ a ∧ a < 0x04000000 ∧ a % 0x200 < 8 ∧ bitAt (v * 2 ^ (8 * (a % 8))) 53 then s.setPort p { s.port p with lossSeen := false }
        else s
  s1.indAdvance n
/-- PCIe reaches the physical function. -/
def State.pfUp (s : State) : Bool := s.pins.pcie
def execIndDataRead (eight : Bool) (s : State) : Out :=
  if !s.pfUp then .next s
  else
    let (v, s1) := s.indRead eight
    .next { s1 with out := s1.out ++ [.regRead v] }
def execIndDataWrite (v : BitVec 64) (eight : Bool) (s : State) : Out :=
  .next (if s.pfUp then s.indWrite (if eight then v.toNat else v.toNat % 2 ^ 32) eight else s)

/-! Register writes (R343 to R346). -/

/-- R14: a WM field. -/
def wmField (v lo w old : Nat) : Nat :=
  let sel := bitsAt v (16 + lo) w
  (old &&& (2 ^ w - 1 - sel)) ||| (bitsAt v lo w &&& sel)
/-- FAULT_N_CTL (R359): HOLD written outside a pulse takes effect on a level that a pulse has left. -/
def Gleaner.ctlWrite (g : Gleaner) (v : Nat) : Gleaner :=
  let h := decide (wmField v 0 1 (boolNat g.hold) = 1)
  { g with hold := h, minClass := wmField v 1 3 g.minClass, level := if g.pulse then g.level else g.level.map fun _ => h }
/-- The writable 64-bit registers: the value held, and the state after a write of both halves. -/
def State.wideReg (s : State) (f : Nat) (p : BarPlace) : Option (Nat × (Nat → State)) :=
  match p with
  | .bringUp 0x18 => some (s.bu.bufAddr, fun v => { s with bu := { s.bu with bufAddr := v } })
  | .bringUp 0x28 => some (s.bu.repAddr, fun v => { s with bu := { s.bu with repAddr := v } })
  | .time 0x28 => if f = 0 then some (s.alm.set, fun v => { s with alm := { s.alm with set := v } }) else none
  | .aperture 0x00 => some ((s.fn f).aptBase, fun v => s.setFn f { s.fn f with aptBase := bitsAt v 28 20 * 2 ^ 28 })
  | _ => none
/-- A vector's entry: bit 0 of its control word masks it; unmasked, a pending message is sent (R351). -/
def State.msixWrite (s : State) (f o v : Nat) : State :=
  let x := s.fn f
  let n := o / 16
  if 16 * vectors f ≤ o then s
  else if o % 16 ≠ 12 then s.setFn f { x with table := memWrite x.table o (leBytes 4 v) }
  else if bitAt v 0 then s.setFn f { x with unmasked := x.unmasked - (if bitAt x.unmasked n then 2 ^ n else 0) }
  else if bitAt x.pend n then
    State.setFn { s with out := s.out ++ [.msix f n] } f { x with unmasked := x.unmasked ||| 2 ^ n, pend := x.pend - 2 ^ n }
  else s.setFn f { x with unmasked := x.unmasked ||| 2 ^ n }
/-- A 4-byte write within a berth page: the request area, BERTH_OUT, BERTH_IN, BERTH_IN_MASK. -/
def State.berthPageWrite (s : State) (f b o v : Nat) : State :=
  let who := idFn f
  if o < 0x1000 then s.berthWrite b who o (leBytes 4 v)
  else if o = 0x2000 then s.berthRingWrite b who (v / 65536) v
  else if o ≠ 0x2008 ∧ o ≠ 0x200C then s
  else if !s.admits b who then s.setBerth b (s.berth b).deny
  else if o = 0x2008 then s.setBerth b ((s.berth b).clearIn who v)
  else s.setBerth b { s.berth b with mask := BitVec.ofNat 32 v &&& 0x4000037F#32 }
/-- A 4-byte write to a 32-bit register or an area; what no table assigns discards it (R344). -/
def State.write32 (s : State) (f : Nat) (p : BarPlace) (v : Nat) : State :=
  match p with
  | .bringUp 0x00 => s.buCtl v
  | .bringUp 0x04 => if bitAt v 17 then { s with bu := { s.bu with refused := false } } else s
  | .bringUp 0x20 => { s with bu := { s.bu with bufLen := v } }
  | .bringUp 0x30 => { s with bu := { s.bu with repLen := v } }
  | .fault 0x00 => s.ackClasses (v % 16)
  | .fault 0x04 => { s with gleaner := s.gleaner.ctlWrite v }
  | .time 0x08 => if f = 0 ∧ bitAt v 3 then { s with clock := { s.clock with ppsSeen := false } } else s
  | .time 0x18 =>
    if f = 0 then { s with clock := { s.clock with
      ppsEn := decide (wmField v 0 1 (boolNat s.clock.ppsEn) = 1), ppsAlign := decide (wmField v 1 1 (boolNat s.clock.ppsAlign) = 1) } }
    else s
  | .time 0x30 => if f = 0 then s.almCtl v else s
  | .time 0x38 => if f = 0 ∧ bitAt v 2 then { s with alm := { s.alm with setback := false } } else s
  | .indirect 0x00 => s.onInd fun i => { i with addr := v / 4 * 4 }
  | .indirect 0x04 => s.onInd fun i => { i with inc := decide (wmField v 0 1 (boolNat i.inc) = 1) }
  | .indirect 0x08 => s.indWrite v false
  | .indirect 0x10 => s.onInd fun i => { i with err := i.err && !bitAt v 0, rejected := i.rejected && !bitAt v 1 }
  | .aperture 0x08 => if bitAt v 8 then s.setFn f { s.fn f with aptErr := false } else s
  | .berth b o => s.berthPageWrite f b o v
  | .msixTable o => s.msixWrite f o v
  | _ => s
def State.onFn (s : State) (f : Nat) (g : Fn → Fn) : State := s.setFn f (g (s.fn f))
/-- R345: the low half of a 64-bit register waits for its high half. -/
def State.writeHalf (s : State) (f off v : Nat) : State :=
  match s.wideReg f (barPlace f off) with
  | some _ => s.onFn f fun x => { x with lowLatch := tset 0 x.lowLatch off (v + 1) }
  | none =>
    match (if off % 8 = 4 then s.wideReg f (barPlace f (off - 4)) else none) with
    | some (old, put) =>
      let low := match tget 0 (s.fn f).lowLatch (off - 4) with
        | 0 => old % 2 ^ 32
        | n + 1 => n
      (put (low + 2 ^ 32 * v)).onFn f fun x => { x with lowLatch := tdel x.lowLatch (off - 4) }
    | none => s.write32 f (barPlace f off) v
/-- An 8-byte write: a 64-bit register whole, IND_DATA in one service transaction, else its two halves in turn. -/
def State.writeWide (s : State) (f off v : Nat) : State :=
  match s.wideReg f (barPlace f off) with
  | some (_, put) => (put v).onFn f fun x => { x with lowLatch := tdel x.lowLatch off }
  | none =>
    if barPlace f off = .indirect 0x08 then s.indWrite v true
    else (s.writeHalf f off (v % 2 ^ 32)).writeHalf f (off + 4) (v / 2 ^ 32)
/-- PCIe reaches a function that exists. -/
def State.fnUp (s : State) (f : Nat) : Bool := s.pins.pcie && s.fnExists f
/-- R343: any access but 4 or 8 bytes, naturally aligned, writes nothing and counts as Advisory Non-Fatal. -/
def execRegisterWrite (fn : FnId) (off : Fin 1048576) (bytes : List Byte) (s : State) : Out :=
  let o := off.val
  if !s.fnUp fn.val then .next s
  else if bytes.length = 4 ∧ o % 4 = 0 then .next (s.writeHalf fn.val o (leVal bytes))
  else if bytes.length = 8 ∧ o % 8 = 0 then .next (s.writeWide fn.val o (leVal bytes))
  else .next (s.onFn fn.val fun x => { x with advisory := true })

/-! Register reads of 4 bytes (R344, R345). -/

/-- The value read and the state after: a berth's reply area counts what it denies, a low half is captured, a captured high half is returned once. -/
def State.read32 (s : State) (f off : Nat) : Nat × State :=
  match barPlace f off with
  | .indirect 0x08 => s.indRead false
  | .msixTable o => (leVal ((List.range 4).map fun i => (s.fn f).tableByte f (o + i)), s)
  | .msixPend o => (if o = 0 then (s.fn f).pend % 2 ^ 32 else 0, s)
  | .berth b o =>
    if 0x1000 ≤ o ∧ o < 0x2000 then
      let (bs, s1) := s.berthRead b (idFn f) (o - 0x1000) 4
      (leVal bs, s1)
    else if 0x2000 ≤ o ∧ !s.admits b (idFn f) then (0, s.setBerth b (s.berth b).deny)
    else (((s.blockReg f (.berth b o)).map (·.2)).getD 0, s)
  | p =>
    match s.blockReg f p with
    | some (8, v) => (v % 2 ^ 32, s.onFn f fun x => { x with highCap := tset 0 x.highCap off (v / 2 ^ 32 + 1) })
    | some (_, v) => (v, s)
    | none =>
      match (if off % 8 = 4 then s.blockReg f (barPlace f (off - 4)) else none) with
      | some (8, v) =>
        match tget 0 (s.fn f).highCap (off - 4) with
        | 0 => (v / 2 ^ 32, s)
        | n + 1 => (n, s.onFn f fun x => { x with highCap := tdel x.highCap (off - 4) })
      | _ => (0, s)
def execRegisterLowHalfRead (fn : FnId) (off : Fin 1048576) (s : State) : Out :=
  let o := off.val
  if !s.fnUp fn.val then .next s
  else if o % 4 = 0 then
    let (v, s1) := s.read32 fn.val o
    .next { s1 with out := s1.out ++ [.regRead v] }
  else
    let s1 := s.onFn fn.val fun x => { x with advisory := true }
    .next { s1 with out := s1.out ++ [.unsupported fn.val] }

/-! Apertures (R352, R353). -/

/-- R245: the largest legal access of at most 8 bytes at an address. -/
def pieceLen (a rem : Nat) : Nat :=
  let k := min (8 - a % 8) rem
  if k = 4 ∧ a % 4 ≠ 0 then 3 else if k = 2 ∧ a % 2 ≠ 0 then 1 else k
def piecesOf : Nat → Nat → Nat → List (Nat × Nat)
  | 0, _, _ => []
  | f + 1, a, rem => if rem = 0 then [] else (a, pieceLen a rem) :: piecesOf f (a + pieceLen a rem) (rem - pieceLen a rem)
/-- The accesses into which the host bridge divides a TLP: address and length. -/
def aptPieces (a n : Nat) : List (Nat × Nat) :=
  if 9 ≤ n ∧ n ≤ 256 ∧ a % 64 = 0 ∧ a % 4096 + n ≤ 4096 then [(a, n)] else piecesOf n a n
/-- A piece that ends at its source with a status. -/
def State.aptRefused (s : State) (f a n st : Nat) (read : Option (Nat × Nat)) : State :=
  let s1 := (s.aptError f a st).onFctr f fun c => c.refuse st
  match read with
  | some (id, base) => s1.aptPiece id (a - base) none
  | none => s1
/-- A piece leaves the host bridge (SKIND 5, the function's barn): `read` names the host read and its start, and `bs` are a write's bytes. -/
def State.aptSend (s : State) (f a n : Nat) (read : Option (Nat × Nat)) (bs : List Byte) : State :=
  if !s.barnExists f then s.aptRefused f a n 0x0F read
  else match s.addrRefusal a n with
    | some st => s.aptRefused f a n st read
    | none =>
      let tag := ((List.range 4096).find? fun t => !s.aptReqs.any fun r => decide (r.tag = t)).getD 0
      let pkg := s.addrPkg a
      let op := if read.isSome then 0x01 else 0x02
      let p := mkPkt op 5 (addrEp pkg (addrLocal a)) (bridgeEp s.selfNum) f tag a (if read.isSome then leBytes 4 n else bs)
      match s.submit p false with
      | .inl st => s.aptRefused f a n st read
      | .inr (ps, s1) =>
        let st := if pkg = s.selfNum then localStation (addrLocal a) else 16
        let r : AptReq := { tag := (ps.map (·.rtag)).headD tag, fn := f, addr := a, len := n, read := read.map (·.1), units := offUnits s ps
                            station := st, want := awaits ps, st := 0 }
        let s2 := { s1 with aptReqs := s1.aptReqs ++ [r] }
        if read.isSome ∨ st = 16 then egressAll s2 ps
        else
          let s3 := { s2 with aptWait := s2.aptWait ++ ps.map fun q => (f, q) }
          aptPump [] s3 s3.aptWait
def aptReadAll (f a n : Nat) (s : State) : State :=
  let id := s.aptNext
  let ps := aptPieces a n
  let s1 := { s with aptNext := s.aptNext + 1, aptReads := s.aptReads ++ [⟨id, f, a, n, ps.length, false, []⟩] }
  (ps.foldl (fun (s : State) x => s.aptSend f x.1 x.2 (some (id, a)) []) s1).aptReadDone id
def execApertureRead (fn : FnId) (off : Fin 268435456) (len : Fin 4097) (s : State) : Out :=
  .next (if s.fnUp fn.val then aptReadAll fn.val ((s.fn fn.val).aptBase + off.val) len.val s else s)
def execApertureWrite (fn : FnId) (off : Fin 268435456) (bytes : List Byte) (s : State) : Out :=
  let a := (s.fn fn.val).aptBase + off.val
  .next (if s.fnUp fn.val then
    (aptPieces a bytes.length).foldl (fun (s : State) x => s.aptSend fn.val x.1 x.2 none ((bytes.drop (x.1 - a)).take x.2)) s else s)

/-! Functions (R348). -/

def execFunctionLevelReset (fn : FnId) (s : State) : Out :=
  if !s.fnUp fn.val then .next s
  else .next ((s.releaseClaims fun who => decide (who = idFn fn.val)).onFn fn.val fun x =>
    { x with table := [], unmasked := 0, pend := 0, aptBase := 0, aptLast := 0, aptErr := false })
/-- R348, R338: the virtual functions that vanish lose their claims. -/
def execVfEnableChange (en : Bool) (num : Fin 256) (s : State) : Out :=
  let s1 := { s with vfEnable := en, numVfs := num.val }
  let gone := (List.range 256).filter fun f => s.fnExists f && !s1.fnExists f
  .next (if s.pins.pcie then
    gone.foldl (fun (s : State) f => (s.releaseClaims fun who => decide (who = idVf f)).setFn f Fn.init) s1 else s)

end Sys2Proof.Machine
end

