-- ==== Sys2Proof/Machine/CmdPlant.lean ====
section
/-! DEFINITION. Commands on the light supply, calibration, the standby test, the gleaner, time and meters (spec/13 Table 13-12, spec/18 Table 18-5,
spec/16 Table 16-4). -/
namespace Sys2Proof.Machine

/-! Lighthouse modules (R185, R187). -/

def State.moduleNotice (s : State) (m event : Nat) : State := s.postNotice 256 0x07 (leBytes 1 m ++ leBytes 1 event)
/-- A module leaves service safely: transmitters move off it, its light is switched off, and the host is told. -/
def State.releaseModule (s : State) (m : Nat) (trims : List (BitVec 32 × Byte)) : State :=
  let s1 := s.setModule m { s.module m with released := true }
  let s2 := (if s1.stageDone 8 then s1.refeed s.availModules else s1).feedRetrim s.availModules trims
  State.moduleNotice { s2 with pins := { s2.pins with lhEn := s2.pins.lhEn &&& (4095 - 2 ^ m) } } m 2
/-- DETAIL 1: two others are unavailable; 2: the module is not available (log 10). -/
def execModuleRelease (berth : BerthId) (slot : Fin 7) (trims : List (BitVec 32 × Byte)) (s : State) : Out :=
  serve berth.val slot.val 0x0501 at256 1 (fun c s =>
    let m := c.at 0 1
    let others := (List.range 12).filter fun k => decide (k ≠ m) && !(s.module k).available
    if 12 ≤ m then (Rep.err 0x04, s)
    else if !s.stageDone 5 then (Rep.err 0x07, s)
    else if !(s.module m).available then (Rep.reason 0x0501 2, s)
    else if 2 ≤ others.length then (Rep.reason 0x0501 1, s)
    else s.quickOp c fun _ s => s.releaseModule m trims) s
def State.admitModule (s : State) (m serial : Nat) (trims : List (BitVec 32 × Byte)) : State :=
  let s1 := (s.setModule m ⟨true, true, false, false, serial, none⟩).calWrite 7 (1536 + 16 * m) (leBytes 16 serial)
  let s2 := (if s1.stageDone 8 then s1.refeed s.availModules else s1).feedRetrim s.availModules trims
  State.moduleNotice { s2 with pins := { s2.pins with lhEn := s2.pins.lhEn ||| 2 ^ m, intlk := s2.pins.intlk ||| 2 ^ (m / 3) } } m 3
/-- `serial` is the serial number of the module found fitted, `closed` that its block's interlock is closed. DETAIL 1: not fitted; 2: the retired
module still (Table 18-4); 3: interlock open (log 10). -/
def execModuleAdmit (berth : BerthId) (slot : Fin 7) (serial : Option (BitVec 128)) (closed : Bool) (trims : List (BitVec 32 × Byte)) (s : State) : Out :=
  serve berth.val slot.val 0x0502 at256 1 (fun c s =>
    let m := c.at 0 1
    if 12 ≤ m then (Rep.err 0x04, s)
    else if !s.stageDone 5 then (Rep.err 0x07, s)
    else match serial with
      | none => (Rep.reason 0x0502 1, s)
      | some v =>
        if (s.module m).retired = some v.toNat then (Rep.reason 0x0502 2, s)
        else if !closed then (Rep.reason 0x0502 3, s)
        else s.quickOp c fun _ s => s.admitModule m v.toNat trims) s

/-! Calibration (R203 to R210). -/

/-- R206: a core is idle when no thread is active and no phase queued; a core in reset may be tested too. -/
def State.coreIdle (s : State) (c : Nat) : Bool :=
  let k := s.core c
  k.activeThreads == 0 && k.queue.isEmpty && k.run.isNone
/-- Cores go into reset for BIST. -/
def State.startBist (s : State) (cs : List Nat) : State :=
  cs.foldl (fun (s : State) c => s.resetCore c .bist) { s with bist := cs.foldl (fun l c => insertSorted c l) s.bist }
/-- A procedure of Table 8-6 that berth 256 asks for, as operation `n`: 1 zone retrim, 2 sweep, 3 retrain, 4 core BIST. -/
def State.calProcedure (s : State) (c : Cmd) (cores : List Nat) (n : Nat) : State :=
  let t := c.at 2 2
  match c.at 0 1 with
  | 1 => State.opState { s with zones := tset Zone.init s.zones t ⟨true, (tget Zone.init s.zones t).ops ++ [n]⟩ } n 1 0
  | 2 => s.calAsk t false n (bitAt (c.at 1 1) 0)
  | 3 => s.calAsk t true n (bitAt (c.at 1 1) 0)
  | _ => if cores.all s.coreIdle then (s.startBist cores).opState n 1 0 else s.opFin n 3 0x21
def execCalRequest (berth : BerthId) (slot : Fin 7) (s : State) : Out :=
  serve berth.val slot.val 0x0503 at256 4 (fun c s =>
    let p := c.at 0 1
    let t := c.at 2 2
    let range := if p = 1 then 64 else if p = 4 then 16 else 584
    let stage := if p = 1 then 5 else if p = 4 then 6 else if t < 512 then 8 else 9
    let cores := if p = 4 then ((bitsSet 1024 (c.at 4 128)).map fun i => 1024 * t + i).filter s.coreUsable else []
    if p = 0 ∨ 4 < p ∨ 1 < c.at 1 1 ∨ range ≤ t ∨ (p = 4 ∧ c.length < 132) then (Rep.err 0x04, s)
    else if !s.stageDone stage then (Rep.err 0x07, s)
    else match s.newOp c cores.length cores with
      | .inl r => (r, s)
      | .inr (n, s1) => (Rep.accepted n, s1.calProcedure c cores n)) s
/-- R209, Table 8-9: an image of the nine sections takes 470,880 bytes. -/
def execCalSave (berth : BerthId) (slot : Fin 7) (s : State) : Out :=
  serve berth.val slot.val 0x0504 at256 1 (fun c s =>
    if 1 < c.at 0 1 then (Rep.err 0x04, s)
    else if !s.stageDone 5 then (Rep.err 0x07, s)
    else if s.capture.isSome then (Rep.err 0x05, s)
    else if c.at 0 1 = 0 ∧ !s.bufOk c 470880 then (Rep.err 0x09, s)
    else s.runOp c 0 [] fun n s => { s with capture := some (n, decide (c.at 0 1 = 1)) }) s
/-- The sections of an image (Table 8-8): ID, OFFSET, LENGTH, CRC32C. -/
def calSectionsOf (bs : List Byte) : List (Nat × Nat × Nat × Nat) :=
  (List.range (min 16 (leVal ((bs.drop 6).take 2)))).map fun i =>
    let e := bs.drop (48 + 16 * i)
    (leVal (e.take 2), leVal ((e.drop 4).take 4), leVal ((e.drop 8).take 4), leVal ((e.drop 12).take 4))
/-- R210: what of an image makes it rejected, in the order of the rule; 0 where nothing does. -/
def State.calReason (s : State) (bs : List Byte) : Nat :=
  let dir := calSectionsOf bs
  let size := dir.foldl (fun a x => max a (x.2.1 + x.2.2.1)) (48 + 16 * dir.length)
  if leVal (bs.take 4) ≠ 0x49434E46 ∨ leVal ((bs.drop 4).take 2) ≠ 1 ∨ dir.isEmpty ∨ 16 < leVal ((bs.drop 6).take 2) then 1
  else if leVal ((bs.drop 8).take 16) ≠ s.nv.idDigest % 2 ^ 128 then 2
  else if leVal ((bs.drop size).take 48) ≠ (Config.calTag (bs.take size)).toNat then 3
  else if dir.any fun x => decide ((crc32c ((bs.drop x.2.1).take x.2.2.1)).toNat ≠ x.2.2.2) then 4
  else 0
/-- An image as its bytes give it. -/
def State.calParse (s : State) (bs : List Byte) : CalImage :=
  let sec (x : Nat × Nat × Nat × Nat) : List Byte := ((bs.drop x.2.1).take x.2.2.1).take (calLengths.getD (x.1 - 1) 0)
  let dir := (calSectionsOf bs).filter fun x => decide (1 ≤ x.1) && decide (x.1 ≤ 9)
  let cells := dir.foldl (fun m x => memWrite m (calBase x.1) (calFit x.1 0 (sec x))) ([] : Mem)
  let mods := (List.range 12).map fun m => leVal (memRead cells (calBase 7 + 1536 + 16 * m) 16)
  ⟨leVal ((bs.drop 32).take 8), cells, mods, s.calReason bs⟩
/-- R210, R368: the image comes from the buffer, of which `image` is the content where it lies in host memory (log 7), or from the flash. It is held for stage 5; a
rejected one ends its operation failed with the reason (log 10). -/
def execCalRestore (berth : BerthId) (slot : Fin 7) (image : List Byte) (s : State) : Out :=
  serve berth.val slot.val 0x0505 at256 1 (fun c s =>
    let early := decide (s.bu.stage = 4) && decide (s.bu.st = .done)
    let waits := decide (s.bu.stage = 5) && decide (s.bu.st = .running) && s.calWaits
    let none_ : CalImage := ⟨0, [], [], 1⟩
    if 1 < c.at 0 1 then (Rep.err 0x04, s)
    else if !early && !waits then (Rep.err 0x07, s)
    else if c.at 0 1 = 0 ∧ !s.bufOk c 240 then (Rep.err 0x09, s)
    else
      let i := if c.at 0 1 = 0 then s.calParse (s.bufIn c c.bufLen image) else s.nv.calPick.getD none_
      s.runOp c 0 [] fun n s =>
        State.opFin { s with calImage := some i } n (if i.reason = 0 then 2 else 3)
          (if i.reason = 0 then 0 else Config.reasonCode 0x0505 i.reason % 256)) s

/-! Standby test (R313, Table 12-9) and the map. -/

def execStandbyTest (berth : BerthId) (slot : Fin 7) (s : State) : Out :=
  serve berth.val slot.val 0x0601 at256257 0 (fun c s =>
    let cores := (List.range 16384).filter s.coreUsable
    if !s.ready then (Rep.err 0x07, s)
    else if s.standby.isSome ∨ (tkeys s.barns).any (fun b => decide (b ≠ 0)) ∨ s.cores.any (fun x => x.2.activeThreads != 0) then (Rep.err 0x05, s)
    else s.runOp c 0 cores fun n s => State.startBist { s with standby := some n } cores) s
/-- The test ends: cores are zeroed, HBM is scrubbed to zero, and each unit that failed its part is reported, a link, port or module as lost. -/
def execStandbyTestComplete (op : Nat) (cores : List CoreId) (granules : List GranuleId) (links : List LinkId) (ports : List PortId)
    (modules : List ModuleId) (s : State) : Out :=
  if s.standby ≠ some op then .next s
  else
    let s1 := { s with
      standby := none, bist := [], hbm := [], poison := []
      cores := s.cores.map fun x => (x.1, if x.2.power = .bist then { x.2 with power := .zeroing } else x.2) }
    let s2 := cores.foldl (fun (s : State) c => s.report 0x04 c.val 0) s1
    let s3 := granules.foldl (fun (s : State) g => s.report 0x22 g.val 0) s2
    let s4 := links.foldl (fun (s : State) l => s.linkLost l.val 0x11) s3
    let s5 := ports.foldl (fun (s : State) p => s.portLost p.val) s4
    let s6 := modules.foldl (fun (s : State) m => s.moduleFail m.val) s5
    let bad := !cores.isEmpty || !granules.isEmpty || !links.isEmpty || !ports.isEmpty || !modules.isEmpty
    .next (s6.opFin op 2 (boolNat bad))
def execFloorplanRead (berth : BerthId) (slot : Fin 7) (s : State) : Out :=
  serve berth.val slot.val 0x0602 (fun b => b == 256 || b == 257 || decide (b < 256)) 0 (fun c s =>
    if !s.stageDone 6 then (Rep.err 0x07, s)
    else if !s.bufOk c 6208 then (Rep.err 0x09, s)
    else (Rep.ok [], s.bufOut c s.floorPlan)) s

/-! The gleaner (Table 18-5, R446, R451). -/

/-- Records from a sequence number on (0: all), at most `n`, with the reply's header: oldest held, newest, records returned. -/
def recordsFrom (l : List (Nat × List Byte)) (first n : Nat) : List Byte × List Byte :=
  let sel := ((l.filter fun x => decide (first ≤ x.1)).map (·.2)).take n
  (leBytes 4 ((l.map (·.1)).headD 0) ++ leBytes 4 ((l.map (·.1)).getLastD 0) ++ leBytes 4 sel.length, sel.flatten)
def execGleanerRead (berth : BerthId) (slot : Fin 7) (s : State) : Out :=
  serve berth.val slot.val 0x0610 at256258 8 (fun c s =>
    let l := (if c.at 0 1 = 0 then s.gleaner.ring else s.gleaner.latched).map fun r => (r.seq, r.bytes)
    if 1 < c.at 0 1 then (Rep.err 0x04, s)
    else if c.akind = 0 then
      let (h, d) := recordsFrom l (c.at 4 4) 6
      (Rep.ok (h ++ d), s)
    else if !s.bufOk c 32 then (Rep.err 0x09, s)
    else
      let (h, d) := recordsFrom l (c.at 4 4) (c.bufLen / 32)
      (Rep.ok h, s.bufOut c d)) s
def execGleanerAck (berth : BerthId) (slot : Fin 7) (s : State) : Out :=
  serve berth.val slot.val 0x0611 at256258 1 (fun c s => (Rep.ok [], s.ackClasses (c.at 0 1 % 16))) s
def execCountConfig (berth : BerthId) (slot : Fin 7) (s : State) : Out :=
  serve berth.val slot.val 0x0612 at256 8 (fun c s =>
    if (kindRow (c.at 0 2)).isNone then (Rep.refused 0x01, s)
    else if c.at 4 4 = 0 then (Rep.refused 0x02, s)
    else
      let g := s.gleaner
      (Rep.ok [], { s with gleaner := { g with kinds := tset none g.kinds (c.at 0 2) (some ⟨c.at 2 2, c.at 4 4, 0⟩) } })) s
def execCountRead (berth : BerthId) (slot : Fin 7) (s : State) : Out :=
  serve berth.val slot.val 0x0613 at256258 2 (fun c s =>
    let k := c.at 0 2
    let x := s.gleaner.cfg k
    let live := s.gleaner.live s.reckon
    if (kindRow k).isNone then (Rep.reason 0x0613 1, s)
    else (Rep.ok (leBytes 4 x.n ++ leBytes 4 x.window ++ leBytes 4 x.overflow ++ leBytes 2 (live.filter fun y => decide (y.kind = k)).length
      ++ leBytes 2 live.length), s)) s
def execThermalRead (berth : BerthId) (slot : Fin 7) (s : State) : Out :=
  serve berth.val slot.val 0x0614 at256258 1 (fun c s =>
    match c.at 0 1 with
    | 0 => (Rep.ok (leBytes 4 s.thStatus ++ (List.range 16).flatMap (fun d => leBytes 4 (s.thDie d)) ++ (List.range 16).flatMap fun n => leBytes 4 (s.thHbm n)), s)
    | 1 => (Rep.ok ((List.range 64).flatMap (fun z => leBytes 2 (s.thZone z)) ++ bitmap 64 (fun z => bitAt (s.thZone z) 16)
        ++ bitmap 64 (fun z => bitAt (s.thZone z) 17) ++ bitmap 64 fun z => bitAt (s.thZone z) 18), s)
    | _ => (Rep.err 0x04, s)) s
def execFaultInject (berth : BerthId) (slot : Fin 7) (s : State) : Out :=
  serve berth.val slot.val 0x7F10 (fun b => b == 271) 16 (fun c s =>
    if !s.factoryMode then (Rep.err 0x07, s)
    else if (kindRow (c.at 0 2)).isNone then (Rep.reason 0x7F10 1, s)
    else
      let s1 := s.record (c.at 0 2) (c.at 2 1) (c.at 4 4) (c.at 8 8) s.reckon none true
      let out := c.at 0 2 = 0x30 ∧ s1.gleaner.lastClass = 1 ∧ s1.helm.st = .paired ∧ !s1.helm.stopped
      (Rep.ok [], if out then s1.halfOut (c.at 4 4 % 2) else s1)) s

/-! Time and meters (Table 16-4). -/

def execTimeConfig (berth : BerthId) (slot : Fin 7) (s : State) : Out :=
  serve berth.val slot.val 0x0701 at256 4 (fun c s =>
    let role := s.planRole (c.at 1 1)
    let period := c.at 2 2
    if 2 < c.at 0 1 then (Rep.err 0x04, s)
    else if c.at 0 1 = 2 ∧ (72 ≤ c.at 1 1 ∨ (role ≠ 1 ∧ role ≠ 2)) then (Rep.refused 0x01, s)
    else if period = 0 ∨ 100 < period then (Rep.refused 0x02, s)
    else if c.at 0 1 = 1 ∧ !s.clock.ppsEn then (Rep.refused 0x03, s)
    else (Rep.ok [], { s with clock := { s.clock with next := some (c.at 0 1, c.at 1 1, period) } })) s
def execMeterConfig (berth : BerthId) (slot : Fin 7) (s : State) : Out :=
  serve berth.val slot.val 0x0702 at256 4 (fun c s =>
    let v := c.at 0 4
    if v < 60 ∨ 86400 % v ≠ 0 then (Rep.refused 0x01, s)
    else (Rep.ok [], { s with alm := { s.alm with nextInterval := v } })) s
def execMeterRead (berth : BerthId) (slot : Fin 7) (s : State) : Out :=
  serve berth.val slot.val 0x0703 at256Barn 8 (fun c s =>
    let b := c.at 0 2
    let l := (s.meter b).ring.map fun r => (leVal ((r.drop 4).take 4), r)
    if 256 < b ∨ (c.berth ≠ 256 ∧ b ≠ c.berth) then (Rep.err 0x06, s)
    else if !s.bufOk c 96 then (Rep.err 0x09, s)
    else
      let (h, d) := recordsFrom l (c.at 4 4) (c.bufLen / 96)
      (Rep.ok h, s.bufOut c d)) s

end Sys2Proof.Machine
end

