-- ==== Sys2Proof/Machine/Flags.lean ====
section
/-! DEFINITION. The comparison and arithmetic functions of Table 4-8 (R97, R98). -/
namespace Sys2Proof.Machine

/-- CMP's conditions by FN: EQ, NE, LT, GE, LTU, GEU. -/
def cmpCond (fn : Nat) (a b : BitVec 64) : Bool :=
  match fn with
  | 0 => decide (a = b)
  | 1 => decide (a ≠ b)
  | 2 => a.slt b
  | 3 => !a.slt b
  | 4 => a.ult b
  | _ => !a.ult b

/-- R98: quotient truncated toward zero; all ones for division by zero; −2^63 ÷ −1 = −2^63. -/
def divS (a b : BitVec 64) : BitVec 64 := if b = 0 then BitVec.allOnes 64 else BitVec.ofInt 64 (a.toInt.tdiv b.toInt)
def divU (a b : BitVec 64) : BitVec 64 := if b = 0 then BitVec.allOnes 64 else BitVec.ofNat 64 (a.toNat / b.toNat)
/-- R98: the remainder has the sign of gA, and equals gA for division by zero. -/
def remS (a b : BitVec 64) : BitVec 64 := if b = 0 then a else BitVec.ofInt 64 (a.toInt.tmod b.toInt)
def remU (a b : BitVec 64) : BitVec 64 := if b = 0 then a else BitVec.ofNat 64 (a.toNat % b.toNat)
def mulHS (a b : BitVec 64) : BitVec 64 := BitVec.ofInt 64 (a.toInt * b.toInt / 2 ^ 64)
def mulHU (a b : BitVec 64) : BitVec 64 := BitVec.ofNat 64 (a.toNat * b.toNat / 2 ^ 64)
def clzFrom : Nat → BitVec 64 → Nat
  | 0, _ => 0
  | n + 1, a => if a.getLsbD n then 0 else clzFrom n a + 1
def clz (a : BitVec 64) : BitVec 64 := BitVec.ofNat 64 (clzFrom 64 a)
def popc (a : BitVec 64) : BitVec 64 := BitVec.ofNat 64 (bitsSet 64 a.toNat).length
/-- A shift amount: the low 6 bits (R97). -/
def shAmt (b : BitVec 64) : Nat := b.toNat % 64

end Sys2Proof.Machine
end

