-- ==== Sys2Proof/Machine/ThreadInt.lean ====
section
/-! DEFINITION. Integer, predicate and branch instructions (Table 4-8, R97 to R99). -/
namespace Sys2Proof.Machine

def execAdd (i : IssueA) (s : State) : Out := i.alu 0 (fun a b => a + b) s
def execSub (i : IssueA) (s : State) : Out := i.alu 1 (fun a b => a - b) s
def execAnd (i : IssueA) (s : State) : Out := i.alu 2 (fun a b => a &&& b) s
def execOr (i : IssueA) (s : State) : Out := i.alu 3 (fun a b => a ||| b) s
def execXor (i : IssueA) (s : State) : Out := i.alu 4 (fun a b => a ^^^ b) s
def execShl (i : IssueA) (s : State) : Out := i.alu 5 (fun a b => a <<< shAmt b) s
def execShr (i : IssueA) (s : State) : Out := i.alu 6 (fun a b => a >>> shAmt b) s
def execSra (i : IssueA) (s : State) : Out := i.alu 7 (fun a b => a.sshiftRight (shAmt b)) s
def execMul (i : IssueA) (s : State) : Out := i.alu 8 (fun a b => a * b) s
def execMulhs (i : IssueA) (s : State) : Out := i.alu 9 mulHS s
def execMulhu (i : IssueA) (s : State) : Out := i.alu 10 mulHU s
def execDiv (i : IssueA) (s : State) : Out := i.alu 11 divS s
def execDivu (i : IssueA) (s : State) : Out := i.alu 12 divU s
def execRem (i : IssueA) (s : State) : Out := i.alu 13 remS s
def execRemu (i : IssueA) (s : State) : Out := i.alu 14 remU s
def execMin (i : IssueA) (s : State) : Out := i.alu 15 (fun a b => if b.slt a then b else a) s
def execMinu (i : IssueA) (s : State) : Out := i.alu 16 (fun a b => if b.ult a then b else a) s
def execMax (i : IssueA) (s : State) : Out := i.alu 17 (fun a b => if a.slt b then b else a) s
def execMaxu (i : IssueA) (s : State) : Out := i.alu 18 (fun a b => if a.ult b then b else a) s
def execClz (i : IssueA) (s : State) : Out := i.alu1 19 clz s
def execPopc (i : IssueA) (s : State) : Out := i.alu1 20 popc s

def execAddi (i : IssueI) (s : State) : Out := i.alu 0x02 true (fun a b => a + b) s
def execAndi (i : IssueI) (s : State) : Out := i.alu 0x03 true (fun a b => a &&& b) s
def execOri (i : IssueI) (s : State) : Out := i.alu 0x04 true (fun a b => a ||| b) s
def execXori (i : IssueI) (s : State) : Out := i.alu 0x05 true (fun a b => a ^^^ b) s
/-- SHI: IMM[7:6] picks the shift, IMM[5:0] the amount; IMM[11:8] must be zero and mode 0b11 is no listed code. -/
def execShi (i : IssueI) (s : State) : Out :=
  let m := bitsAt i.imm.toNat 6 2
  let n := bitsAt i.imm.toNat 0 6
  i.alu 0x06 (decide (i.imm.toNat < 192))
    (fun a _ => if m = 0 then a <<< n else if m = 1 then a >>> n else a.sshiftRight n) s

/-- MOVI: gD ← sign-extended IMM32; A is unused and must be zero. -/
def execMovi (i : IssueK) (s : State) : Out :=
  issue (i.site 0x07 0) (fun s => .done (i.put s fun h => h.setG i.d.toNat (i.imm.signExtend 64))) s
/-- MOVHI: gD[63:32] ← IMM32, gD[31:0] kept. -/
def execMovhi (i : IssueK) (s : State) : Out :=
  issue (i.site 0x07 1)
    (fun s => .done (i.put s fun h => h.setG i.d.toNat (i.imm ++ (h.gr i.d.toNat).setWidth 32))) s

def execCmp (i : IssueA) (fn : BitVec 7) (s : State) : Out :=
  issue (i.site 0x08 fn.toNat .p .g .g (decide (fn.toNat ≤ 5)))
    (fun s => .done (i.put s fun h => h.setP i.d.toNat (cmpCond fn.toNat (h.gr i.a.toNat) (h.gr i.b.toNat)))) s
/-- CMPI: the predicate is D[2:0], the condition D[4:3]. -/
def execCmpi (i : IssueI) (s : State) : Out :=
  issue (i.site 0x09 false true)
    (fun s => .done (i.put s fun h =>
      h.setP (i.d.toNat % 8) (cmpCond (i.d.toNat / 8) (h.gr i.a.toNat) (i.imm.signExtend 64)))) s

def execPand (i : IssueA) (s : State) : Out := i.pred 0 (fun a b => a && b) s
def execPor (i : IssueA) (s : State) : Out := i.pred 1 (fun a b => a || b) s
def execPxor (i : IssueA) (s : State) : Out := i.pred 2 (fun a b => xor a b) s
def execPandn (i : IssueA) (s : State) : Out := i.pred 3 (fun a b => a && !b) s
/-- PTOG: gD ← p7 to p0 as 8 bits; p0 reads as one. -/
def execPtog (i : IssueA) (s : State) : Out :=
  issue (i.site 0x0A 4 .g .none .none true) (fun s => .done (i.setD s (((i.th s).p ||| 1).setWidth 64))) s
/-- GTOP: p1 to p7 ← gA[7:1]. -/
def execGtop (i : IssueA) (s : State) : Out :=
  issue (i.site 0x0A 5 .none .g .none true)
    (fun s => .done (i.put s fun h => { h with p := ((h.gr i.a.toNat).setWidth 8) ||| 1 })) s

/-- R97: the branch target, PC + 4·OFF22. -/
def branchTo (pc : Nat) (off : BitVec 22) : Nat := wrapTo 64 ((pc : Int) + 4 * off.toInt)
def execBr (i : IssueJ) (s : State) : Out :=
  issue (i.site 0x10 []) (fun s => .jump s (branchTo (i.th s).pc i.off)) s
/-- BRL writes PC + 4 to g31 first (R89). -/
def execBrl (i : IssueJ) (s : State) : Out :=
  issue (i.site 0x11 [31])
    (fun s => .jump (i.put s fun h => h.setG 31 (BitVec.ofNat 64 (h.pc + 4))) (branchTo (i.th s).pc i.off)) s
/-- JR: PC ← gA; gD ← PC + 4 when D is not 0. A target that is no multiple of 4 raises "misaligned access" with the target in FADDR
(Table 4-13). -/
def execJr (i : IssueA) (s : State) : Out :=
  issue (i.site 0x12 0 .g .g .none true)
    (fun s =>
      let tgt := (i.th s).gNat i.a.toNat
      if tgt % 4 ≠ 0 then .raise 0x05 tgt
      else .jump (i.setD s (BitVec.ofNat 64 ((i.th s).pc + 4))) tgt) s

end Sys2Proof.Machine
end

