-- ==== Sys2Proof/Machine/ThreadWait.lean ====
section
/-! DEFINITION. How waits end (R79, R100, R107 to R112, R117, R254), and the zeroing and write-back events of a core (R66, R67, R90).
A row whose condition does not hold changes nothing (log 2). -/
namespace Sys2Proof.Machine

def execLaunchWaitEnd (core : CoreId) (thread : ThreadId) (s : State) : Out :=
  let c := core.val; let t := thread.val
  match (s.th c t).st with
  | .waiting (.launch e gd) =>
    let k := s.core c
    if !s.coreSteps c ∨ 8 ≤ k.queued then .next s
    else if !k.valid.contains e ∨ k.locked.contains e then
      .next (s.raise c t 0x0C 0 0 ((s.th c t).pc - 4) e)
    else
      let s1 := s.launch c t e gd
      .next (s1.setTh c t { s1.th c t with st := .running })
  | _ => .next s

def execTallyWaitMet (core : CoreId) (thread : ThreadId) (s : State) : Out :=
  let c := core.val; let t := thread.val
  match (s.th c t).st with
  | .waiting (.tally n thr) =>
    if s.coreSteps c && tallyMet (s.tally (coreCluster c) n) thr then .next (s.setTh c t { s.th c t with st := .running }) else .next s
  | _ => .next s

/-- A waiting test on a counter is served after the head phase's test and the takes due before it: those of lower threads for a take, all of
them for a wait (R108). -/
def execCounterWaitMet (core : CoreId) (thread : ThreadId) (s : State) : Out :=
  let c := core.val; let t := thread.val
  match (s.th c t).st with
  | .waiting (.counter credit n thr take) =>
    let v := (s.core c).ctr credit n
    let due := !(s.core c).headTakes credit n && !(s.core c).takeBefore credit n (if take then t else 64)
    if s.coreSteps c && due && decide (thr ≤ v) then
      let s1 := if take then s.onCore c fun k => k.setCtr credit n (v - thr) else s
      .next (s1.setTh c t { s1.th c t with st := .running })
    else .next s
  | _ => .next s

def execPhaseWaitEnd (core : CoreId) (thread : ThreadId) (s : State) : Out :=
  let c := core.val; let t := thread.val
  match (s.th c t).st with
  | .waiting (.phase seq gd) =>
    match (s.core c).launchView seq with
    | .ended v => if !s.coreSteps c then .next s else .next (s.wake c t gd (BitVec.ofNat 64 v))
    | _ => .next s
  | _ => .next s

def execReductionWaitEnd (core : CoreId) (handle : Fin 16) (s : State) : Out :=
  let c := core.val
  let k := s.core c
  let waits := k.threads.any fun (_, h) => match h.st with
    | .waiting (.reduction n _) => decide (n = handle.val)
    | _ => false
  match k.handle handle.val with
  | .ended ab =>
    if waits && s.coreSteps c then
      .next (s.reductionEnd c handle.val ab)
    else .next s
  | _ => .next s

/-- R110: a waiting thread of the barn with a lower number that would take a set doorbell this one wants. Between threads of one number on two
cores the spec gives no order (log 38). -/
def State.mailBefore (s : State) (c t mask : Nat) : Bool :=
  match s.coreBarn c with
  | none => false
  | some b =>
    let set := (s.berth b).bin.toNat &&& mask
    s.cores.any fun (d, k) => decide (s.coreBarn d = some b) && k.threads.any fun (u, h) => decide (u < t) && match h.st with
      | .waiting (.mailbox m _) => decide (m &&& set ≠ 0)
      | _ => false
def execMailboxWaitMet (core : CoreId) (thread : ThreadId) (s : State) : Out :=
  let c := core.val; let t := thread.val
  match (s.th c t).st with
  | .waiting (.mailbox mask gd) =>
    let (v, s1) := s.berthTakeIn c t mask
    if v = 0 ∨ !s.coreSteps c ∨ s.mailBefore c t mask then .next s else .next (s1.wake c t gd (BitVec.ofNat 64 v))
  | _ => .next s

def execWaituntilMet (core : CoreId) (thread : ThreadId) (s : State) : Out :=
  let c := core.val; let t := thread.val
  match (s.th c t).st with
  | .waiting (.time tgt) => if s.coreSteps c && decide (tgt ≤ s.reckon) then .next (s.setTh c t { s.th c t with st := .running }) else .next s
  | _ => .next s

def execFaultWaitMet (core : CoreId) (thread : ThreadId) (s : State) : Out :=
  let c := core.val; let t := thread.val
  match (s.th c t).st with
  | .waiting (.fault mask gd) =>
    let v := (s.core c).faultedMask &&& mask
    if v = 0 ∨ !s.coreSteps c then .next s else .next (s.wake c t gd (BitVec.ofNat 64 v))
  | _ => .next s

/-- A fence ends when what it awaits has completed; a store error met while it waits is raised at the FENCE (R104). -/
def execFenceComplete (core : CoreId) (thread : ThreadId) (s : State) : Out :=
  let c := core.val; let t := thread.val
  match (s.th c t).st with
  | .waiting (.fence all) =>
    if (s.core c).spanPending t all ∨ !s.coreSteps c then .next s
    else
      let h := s.th c t
      match h.storeErr with
      | none => .next (s.setTh c t { h with st := .running })
      | some (addr, status) =>
        .next ((s.setTh c t { h with storeErr := none, extra := 0 }).raise c t 0x09 status h.extra (h.pc - 4) addr)
  | _ => .next s

/-! Events of a core. -/

/-- A corrected word is written back once no agent claims its bank (R66): the stored bytes already hold the corrected value. Inbound delivery claims
the bank that its head waits for. -/
def execSramWriteBack (w : WriteBack) (s : State) : Out :=
  let k := s.core w.core.val
  match k.writeBacks[w.slot.val]? with
  | none => .next s
  | some a =>
    if k.inboundAt a then .next s else .next (s.setCore w.core.val { k with writeBacks := k.writeBacks.eraseIdx w.slot.val })
/-- A returned vector register is zeroed and free again (R90). -/
def execVectorRegisterZeroed (core : CoreId) (reg : Fin 256) (s : State) : Out :=
  .next (s.onCore core.val fun k =>
    if k.vzero.contains reg.val then { k with vzero := removeFirst reg.val k.vzero, vregs := tset 0 k.vregs reg.val 0 } else k)
/-- A release that waited for a core's zeroing (R206, R382): thread 0 starts at its PC with g1 = 64 (R114). -/
def State.releaseWaiting (s : State) (c : Nat) : State :=
  match s.releaseWait.find? fun x => decide (x.1 = c) with
  | none => s
  | some (_, pc) =>
    { s.onCore c fun k => if (k.th 0).st = .stopped then k.startThread 0 pc 64 else k with
      releaseWait := s.releaseWait.filter fun x => decide (x.1 ≠ c) }
/-- The zeroing and the read-back end (R67): the core accepts work; every row that fails the read-back is reported as class 2. -/
def execCoreZeroingComplete (core : CoreId) (badRows : List (Fin 6144)) (s : State) : Out :=
  let c := core.val
  if (s.core c).power ≠ .zeroing then .next s
  else
    let s1 := s.onCore c fun k => { k with power := .running }
    .next ((badRows.foldl (fun s r => s.report 0x03 c (64 * r.val)) s1).releaseWaiting c)

end Sys2Proof.Machine
end

