-- ==== Sys2Proof/Machine/Vector.lean ====
section
/-! DEFINITION. Vector instructions (Tables 4-7 and 4-10, R57, R92, R95, R105, R106, R489, R490). -/
namespace Sys2Proof.Machine

/-! Registers. -/

def Core.vget (k : Core) (t v : Nat) : Nat :=
  match (k.th t).vmap[v]? with
  | some r => tget 0 k.vregs r
  | none => 0
def Core.vset (k : Core) (t v x : Nat) : Core :=
  match (k.th t).vmap[v]? with
  | some r => { k with vregs := tset 0 k.vregs r (x % 2 ^ 2048) }
  | none => k
def elemAt (w x i : Nat) : Nat := bitsAt x (w * i) w
/-- Elements of width `w` laid from element 0 upward. -/
def packElems (w : Nat) : List Nat → Nat
  | [] => 0
  | x :: l => x % 2 ^ w + 2 ^ w * packElems w l

/-! Issue (R95, R99, R105). -/

def IssueV.th (i : IssueV) (s : State) : Thread := s.th i.core.val i.thread.val
/-- The vector registers named that the thread does not hold (R105), each once. -/
def VUse.missing (u : VUse) (vbReg : Bool) (i : IssueV) (s : State) : List Nat :=
  ((u.regs vbReg i).filter fun v => decide ((i.th s).vmap.length ≤ v)).eraseDups
/-- A vector instruction: a register at or above VCOUNT raises "vector register not allocated" (R105). FADDR names it; of several the
spec does not say which (Table 4-13, log 23). -/
def issueV (i : IssueV) (op fn : Nat) (u : VUse) (vbReg ok : Bool) (body : State → Body) (s : State) : Out :=
  issue (i.site op fn u vbReg ok)
    (fun s => match u.missing vbReg i s with
      | [] => body s
      | [v] => .raise 0x04 v
      | v :: l => .raise 0x04 ((v :: l).getD (Config.missingRegister (v :: l) % (l.length + 1)) v)) s
/-- vd ← x and the flags of the elements (R92). -/
def IssueV.finish (i : IssueV) (s : State) (x : Nat) (fl : FFlags) : State :=
  s.onCore i.core.val fun k =>
    let k1 := k.vset i.thread.val i.vd.toNat x
    let h := k1.th i.thread.val
    k1.setTh i.thread.val { h with fpflags := h.fpflags ||| BitVec.ofNat 5 fl.bits }
/-- The random word of element `j` (R46, R106). -/
def Thread.rnd (h : Thread) (m : RMode) (base j : Nat) : Nat :=
  if m = .sr then srWord h.srSeed h.srTag h.srStep (base + j) else 0
def collect (l : List (Nat × FFlags)) : List Nat × FFlags := (l.map (·.1), (l.map (·.2)).foldl FFlags.or {})

/-! Arithmetic (OP 0x14). -/

/-- Floating and integer lanes of an arithmetic instruction. -/
def arith (i : IssueV) (fn : Nat) (u : VUse) (typeOk : Nat → Bool) (round : Bool)
    (ff : RMode → FVal → FVal → FVal → FVal × FFlags) (fi : Nat → Int → Int → Int → Int) (s : State) : Out :=
  let ety := i.ety.toNat
  let flt := floatType ety
  let m := (rmOf i.rm).getD .rne
  issueV i 0x14 fn (arithUse i u round) true (arithOk i typeOk round)
    (fun s =>
      let k := s.core i.core.val
      let h := i.th s
      let w := widthOf ety
      let n := 2048 / w
      let a := k.vget i.thread.val i.va.toNat
      let b := k.vget i.thread.val i.vb.toNat
      let c := k.vget i.thread.val i.vc.toNat
      if flt then
        let f := fltOf ety
        let rs := (List.range n).map fun j =>
          let v := ff m (fdecode f (elemAt w a j)) (fdecode f (elemAt w b j)) (fdecode f (elemAt w c j))
          let r := fround f m false (h.rnd m (h.gNat i.gs.toNat) j) v.1
          (r.1, v.2.or r.2)
        let (els, fl) := collect rs
        .done (i.finish s (packElems w els) fl)
      else
        let els := (List.range n).map fun j =>
          wrapTo w (fi w (signedOf w (elemAt w a j)) (signedOf w (elemAt w b j)) (signedOf w (elemAt w c j)))
        .done (i.finish s (packElems w els) {})) s

def execVadd (i : IssueV) (s : State) : Out :=
  arith i 0 vabd arithType true (fun m a b _ => faddX m a b) (fun _ a b _ => a + b) s
def execVsub (i : IssueV) (s : State) : Out :=
  arith i 1 vabd arithType true (fun m a b _ => faddX m a (fneg b)) (fun _ a b _ => a - b) s
def execVmul (i : IssueV) (s : State) : Out :=
  arith i 2 vabd arithType true (fun _ a b _ => fmulX a b) (fun _ a b _ => a * b) s
def execVfma (i : IssueV) (s : State) : Out :=
  arith i 3 vabcd arithType true (fun m a b c => ffmaX m a b c) (fun _ a b c => a * b + c) s
def execVdiv (i : IssueV) (s : State) : Out :=
  arith i 4 vabd floatType true (fun _ a b _ => fdivX a b) (fun _ a _ _ => a) s
def execVsqrt (i : IssueV) (s : State) : Out :=
  arith i 5 vad floatType true (fun _ a _ _ => fsqrtX a) (fun _ a _ _ => a) s
def execVmin (i : IssueV) (s : State) : Out :=
  arith i 6 vabd arithType false (fun _ a b _ => (fminX a b, {})) (fun _ a b _ => min a b) s
def execVmax (i : IssueV) (s : State) : Out :=
  arith i 7 vabd arithType false (fun _ a b _ => (fmaxX a b, {})) (fun _ a b _ => max a b) s
/-- Logical operations and shifts on integer types; a shift amount is taken modulo the element width. -/
def bitwise (i : IssueV) (fn : Nat) (f : Nat → Nat → Nat → Nat) (s : State) : Out :=
  issueV i 0x14 fn { vabd with ety := true } true (intType i.ety.toNat)
    (fun s =>
      let k := s.core i.core.val
      let w := widthOf i.ety.toNat
      let a := k.vget i.thread.val i.va.toNat
      let b := k.vget i.thread.val i.vb.toNat
      .done (i.finish s (packElems w ((List.range (2048 / w)).map fun j => f w (elemAt w a j) (elemAt w b j))) {})) s
def execVand (i : IssueV) (s : State) : Out := bitwise i 8 (fun _ a b => a &&& b) s
def execVor (i : IssueV) (s : State) : Out := bitwise i 9 (fun _ a b => a ||| b) s
def execVxor (i : IssueV) (s : State) : Out := bitwise i 10 (fun _ a b => a ^^^ b) s
def execVshl (i : IssueV) (s : State) : Out := bitwise i 11 (fun w a b => a * 2 ^ (b % w)) s
def execVshr (i : IssueV) (s : State) : Out := bitwise i 12 (fun w a b => a / 2 ^ (b % w)) s

/-! Conversions (OP 0x15, VBCAST, VEXT). -/

/-- The value of an element. -/
def EType.value (t : EType) (x : Nat) : FVal :=
  match t with
  | .flt f => fdecode f x
  | .int w => let v := signedOf w x; .fin (decide (v < 0)) v.natAbs 0
/-- A value converted to an element (R44, R489). -/
def EType.conv (t : EType) (m : RMode) (sat : Bool) (r : Nat) (v : FVal) : Nat × FFlags :=
  match t with
  | .flt f => fround f m sat r v
  | .int w => froundInt w m v

/-- VCVT: from the type in VB[4:0] to ETYPE, with the elements that R106 selects. -/
def execVcvt (i : IssueV) (s : State) : Out :=
  issueV i 0x15 0 (vcvtUse i) false (vcvtOk i)
    (fun s =>
      match etypeOf i.ety.toNat, i.srcType, rmOf i.rm with
      | some td, some ts, some m =>
        let k := s.core i.core.val
        let h := i.th s
        let n := min td.count ts.count
        let first := i.imm.toNat * n
        if ts.count / n ≤ i.imm.toNat then .raise 0x0C i.imm.toNat
        else
          let a := k.vget i.thread.val i.va.toNat
          let (els, fl) := collect ((List.range n).map fun j =>
            td.conv m i.sat (h.rnd m (h.gNat i.gs.toNat) (first + j)) (ts.value (elemAt ts.width a (first + j))))
          .done (i.finish s (packElems td.width els) fl)
      | _, _, _ => .notReady) s

/-- VMXPACK: the 64 FP32 elements of va become two MX blocks in vd; the scale bytes go to gS[15:0], zero above (R45, R490). The
bytes of vd above the blocks become zero: DESIGN CHOICE, R105 is silent on them (log 36). -/
def execVmxpack (i : IssueV) (s : State) : Out :=
  issueV i 0x15 1 vmxpackUse true (vmxpackOk i)
    (fun s =>
      match mxOf i.ety.toNat, rmOf i.rm with
      | some f, some m =>
        let k := s.core i.core.val
        let h := i.th s
        let a := k.vget i.thread.val i.va.toNat
        let blk (b : Nat) : Nat × List Nat × FFlags :=
          mxPack f m ((List.range 32).map fun j => h.rnd m (h.gNat i.gs.toNat) (32 * b + j))
            ((List.range 32).map fun j => fdecode fmtFP32 (elemAt 32 a (32 * b + j)))
        let b0 := blk 0
        let b1 := blk 1
        let s1 := i.finish s (packElems f.width (b0.2.1 ++ b1.2.1)) (b0.2.2.or b1.2.2)
        .done (s1.setTh i.core.val i.thread.val ((i.th s1).setG i.gs.toNat (BitVec.ofNat 64 (b0.1 + 256 * b1.1))))
      | _, _ => .notReady) s
/-- VMXUNPACK: two ETYPE blocks of va with scales in gS[15:0] become 64 FP32 elements (R490). -/
def execVmxunpack (i : IssueV) (s : State) : Out :=
  issueV i 0x15 2 vmxunpackUse true (mxOf i.ety.toNat).isSome
    (fun s =>
      match mxOf i.ety.toNat with
      | some f =>
        let k := s.core i.core.val
        let g := (i.th s).gNat i.gs.toNat
        let a := k.vget i.thread.val i.va.toNat
        let (els, fl) := collect ((List.range 64).map fun j =>
          fround fmtFP32 .rne false 0 (mxScaled f (bitsAt g (8 * (j / 32)) 8) (elemAt f.width a j)))
        .done (i.finish s (packElems 32 els) fl)
      | none => .notReady) s

/-- The value that VBCAST converts: gS as FP64 bits, or as a signed integer for an integer ETYPE (R490). -/
def EType.ofG (t : EType) (g : Nat) : FVal :=
  match t with
  | .flt _ => fdecode fmtFP64 g
  | .int _ => EType.value (.int 64) g
/-- VBCAST: the value converted once (R490). -/
def execVbcast (i : IssueV) (s : State) : Out :=
  issueV i 0x16 4 (vbcastUse i) true (vbcastOk i)
    (fun s =>
      match etypeOf i.ety.toNat, rmOf i.rm with
      | some t, some m =>
        let h := i.th s
        let (x, fl) := t.conv m i.sat (h.rnd m 0 0) (t.ofG (h.gNat i.gs.toNat))
        .done (i.finish s (packElems t.width (List.replicate t.count x)) fl)
      | _, _ => .notReady) s
/-- The 64 bits that VEXT writes for an element: an integer sign-extended, a float widened exactly to FP64 bits (R490). An FP64 element is
copied bit for bit, a NaN payload included: DESIGN CHOICE, R32 does not say whether VEXT is an operation whose result is a NaN (log 36). -/
def EType.toG (t : EType) (x : Nat) : BitVec 64 :=
  match t with
  | .flt f => if f = fmtFP64 then BitVec.ofNat 64 x else BitVec.ofNat 64 (fround fmtFP64 .rne false 0 (fdecode f x)).1
  | .int w => BitVec.ofInt 64 (signedOf w x)
/-- VEXT: gS ← element IMM12 of va. -/
def execVext (i : IssueV) (s : State) : Out :=
  issueV i 0x16 5 vextUse true (etypeOf i.ety.toNat).isSome
    (fun s =>
      match etypeOf i.ety.toNat with
      | some t =>
        if t.count ≤ i.imm.toNat then .raise 0x0C i.imm.toNat
        else
          let x := elemAt t.width ((s.core i.core.val).vget i.thread.val i.va.toNat) i.imm.toNat
          .done (s.setTh i.core.val i.thread.val ((i.th s).setG i.gs.toNat (t.toG x)))
      | none => .notReady) s

/-! Loads and stores of 256 bytes (OP 0x16, FN 0 to 3): address gS + 64·IMM12, signed; a store's source register is VD. -/

def IssueV.addr (i : IssueV) (s : State) : Nat := ((i.th s).gr i.gs.toNat + BitVec.ofInt 64 (64 * i.imm.toInt)).toNat
def execVldl (i : IssueV) (acc : BankAcc) (s : State) : Out :=
  issueV i 0x16 0 vmem true true
    (fun s =>
      let a := i.addr s
      match localCheck .load a 256 64 with
      | some (code, x) => .raise code x
      | none => .done (s.bankStart i.core.val i.thread.val ⟨.vload i.vd.toNat, (i.th s).pc, a, 256, [], false⟩ acc)) s
def execVstl (i : IssueV) (acc : BankAcc) (s : State) : Out :=
  issueV i 0x16 1 vmem true true
    (fun s =>
      let a := i.addr s
      match localCheck .store a 256 64 with
      | some (code, x) => .raise code x
      | none => .done (s.bankStart i.core.val i.thread.val
          ⟨.store (leBytes 256 ((s.core i.core.val).vget i.thread.val i.vd.toNat)), (i.th s).pc, a, 256, [], false⟩ acc)) s
def execVlds (i : IssueV) (s : State) : Out :=
  issueV i 0x16 2 vmem true true
    (fun s =>
      let a := i.addr s
      match spanCheck a 64 with
      | some (code, x) => .raise code x
      | none => spanRead s i.core.val i.thread.val
          (.vload i.thread.val ((i.th s).vmap.getD i.vd.toNat 0) i.vd.toNat) 0x01 a (leBytes 4 256)) s
def execVsts (i : IssueV) (s : State) : Out :=
  issueV i 0x16 3 vmem true true
    (fun s =>
      let a := i.addr s
      match spanCheck a 64 with
      | some (code, x) => .raise code x
      | none => spanStore s i.core.val i.thread.val a (leBytes 256 ((s.core i.core.val).vget i.thread.val i.vd.toNat))) s

end Sys2Proof.Machine
end

