-- ==== Sys2Proof/Machine/Dispatch.lean ====
section
/-! DEFINITION. One arm per command. -/
namespace Sys2Proof.Machine

/-- The effect of a command on everything but the queue. -/
def exec (i : Instr) (s : State) : Host.Outcome State Fault Refusal :=
  match i with
  | .add x => Sys2Proof.Machine.execAdd x s
  | .sub x => Sys2Proof.Machine.execSub x s
  | .and x => Sys2Proof.Machine.execAnd x s
  | .or x => Sys2Proof.Machine.execOr x s
  | .xor x => Sys2Proof.Machine.execXor x s
  | .shl x => Sys2Proof.Machine.execShl x s
  | .shr x => Sys2Proof.Machine.execShr x s
  | .sra x => Sys2Proof.Machine.execSra x s
  | .mul x => Sys2Proof.Machine.execMul x s
  | .mulhs x => Sys2Proof.Machine.execMulhs x s
  | .mulhu x => Sys2Proof.Machine.execMulhu x s
  | .div x => Sys2Proof.Machine.execDiv x s
  | .divu x => Sys2Proof.Machine.execDivu x s
  | .rem x => Sys2Proof.Machine.execRem x s
  | .remu x => Sys2Proof.Machine.execRemu x s
  | .min x => Sys2Proof.Machine.execMin x s
  | .minu x => Sys2Proof.Machine.execMinu x s
  | .max x => Sys2Proof.Machine.execMax x s
  | .maxu x => Sys2Proof.Machine.execMaxu x s
  | .clz x => Sys2Proof.Machine.execClz x s
  | .popc x => Sys2Proof.Machine.execPopc x s
  | .addi x => Sys2Proof.Machine.execAddi x s
  | .andi x => Sys2Proof.Machine.execAndi x s
  | .ori x => Sys2Proof.Machine.execOri x s
  | .xori x => Sys2Proof.Machine.execXori x s
  | .shi x => Sys2Proof.Machine.execShi x s
  | .movi x => Sys2Proof.Machine.execMovi x s
  | .movhi x => Sys2Proof.Machine.execMovhi x s
  | .cmp x fn => Sys2Proof.Machine.execCmp x fn s
  | .cmpi x => Sys2Proof.Machine.execCmpi x s
  | .pand x => Sys2Proof.Machine.execPand x s
  | .por x => Sys2Proof.Machine.execPor x s
  | .pxor x => Sys2Proof.Machine.execPxor x s
  | .pandn x => Sys2Proof.Machine.execPandn x s
  | .ptog x => Sys2Proof.Machine.execPtog x s
  | .gtop x => Sys2Proof.Machine.execGtop x s
  | .br x => Sys2Proof.Machine.execBr x s
  | .brl x => Sys2Proof.Machine.execBrl x s
  | .jr x => Sys2Proof.Machine.execJr x s
  | .ldl x acc => Sys2Proof.Machine.execLdl x acc s
  | .stl x acc => Sys2Proof.Machine.execStl x acc s
  | .lds x => Sys2Proof.Machine.execLds x s
  | .sts x => Sys2Proof.Machine.execSts x s
  | .stsb x acc => Sys2Proof.Machine.execStsb x acc s
  | .fenceS x => Sys2Proof.Machine.execFenceS x s
  | .fenceA x => Sys2Proof.Machine.execFenceA x s
  | .synci x => Sys2Proof.Machine.execSynci x s
  | .atoml x fn acc => Sys2Proof.Machine.execAtoml x fn acc s
  | .atoms x fn => Sys2Proof.Machine.execAtoms x fn s
  | .copy x acc => Sys2Proof.Machine.execCopy x acc s
  | .twait x => Sys2Proof.Machine.execTwait x s
  | .trd x => Sys2Proof.Machine.execTrd x s
  | .tset x => Sys2Proof.Machine.execTset x s
  | .vadd x => Sys2Proof.Machine.execVadd x s
  | .vsub x => Sys2Proof.Machine.execVsub x s
  | .vmul x => Sys2Proof.Machine.execVmul x s
  | .vfma x => Sys2Proof.Machine.execVfma x s
  | .vdiv x => Sys2Proof.Machine.execVdiv x s
  | .vsqrt x => Sys2Proof.Machine.execVsqrt x s
  | .vmin x => Sys2Proof.Machine.execVmin x s
  | .vmax x => Sys2Proof.Machine.execVmax x s
  | .vand x => Sys2Proof.Machine.execVand x s
  | .vor x => Sys2Proof.Machine.execVor x s
  | .vxor x => Sys2Proof.Machine.execVxor x s
  | .vshl x => Sys2Proof.Machine.execVshl x s
  | .vshr x => Sys2Proof.Machine.execVshr x s
  | .vcvt x => Sys2Proof.Machine.execVcvt x s
  | .vmxpack x => Sys2Proof.Machine.execVmxpack x s
  | .vmxunpack x => Sys2Proof.Machine.execVmxunpack x s
  | .vldl x acc => Sys2Proof.Machine.execVldl x acc s
  | .vstl x acc => Sys2Proof.Machine.execVstl x acc s
  | .vlds x => Sys2Proof.Machine.execVlds x s
  | .vsts x => Sys2Proof.Machine.execVsts x s
  | .vbcast x => Sys2Proof.Machine.execVbcast x s
  | .vext x => Sys2Proof.Machine.execVext x s
  | .plaunch x => Sys2Proof.Machine.execPlaunch x s
  | .pwait x => Sys2Proof.Machine.execPwait x s
  | .pcancel x => Sys2Proof.Machine.execPcancel x s
  | .pclr x => Sys2Proof.Machine.execPclr x s
  | .pstat x => Sys2Proof.Machine.execPstat x s
  | .tkadd x => Sys2Proof.Machine.execTkadd x s
  | .ccadd x => Sys2Proof.Machine.execCcadd x s
  | .tkrd x => Sys2Proof.Machine.execTkrd x s
  | .ccrd x => Sys2Proof.Machine.execCcrd x s
  | .tkwait x => Sys2Proof.Machine.execTkwait x s
  | .ccwait x => Sys2Proof.Machine.execCcwait x s
  | .tktake x => Sys2Proof.Machine.execTktake x s
  | .cctake x => Sys2Proof.Machine.execCctake x s
  | .shsubmit x acc => Sys2Proof.Machine.execShsubmit x acc s
  | .shwait x => Sys2Proof.Machine.execShwait x s
  | .shabort x => Sys2Proof.Machine.execShabort x s
  | .shstat x => Sys2Proof.Machine.execShstat x s
  | .mbput x acc => Sys2Proof.Machine.execMbput x acc s
  | .mbget x acc => Sys2Proof.Machine.execMbget x acc s
  | .mbring x => Sys2Proof.Machine.execMbring x s
  | .mbwait x => Sys2Proof.Machine.execMbwait x s
  | .mbpoll x => Sys2Proof.Machine.execMbpoll x s
  | .barinit x => Sys2Proof.Machine.execBarinit x s
  | .barwait x => Sys2Proof.Machine.execBarwait x s
  | .time x => Sys2Proof.Machine.execTime x s
  | .waituntil x => Sys2Proof.Machine.execWaituntil x s
  | .imarkS x => Sys2Proof.Machine.execImarkS x s
  | .imarkE x => Sys2Proof.Machine.execImarkE x s
  | .tstart x => Sys2Proof.Machine.execTstart x s
  | .tstop x => Sys2Proof.Machine.execTstop x s
  | .tkill x => Sys2Proof.Machine.execTkill x s
  | .trestart x => Sys2Proof.Machine.execTrestart x s
  | .tfwait x => Sys2Proof.Machine.execTfwait x s
  | .valloc x => Sys2Proof.Machine.execValloc x s
  | .vfree x => Sys2Proof.Machine.execVfree x s
  | .brk x => Sys2Proof.Machine.execBrk x s
  | .srd x fn => Sys2Proof.Machine.execSrd x fn s
  | .swr x fn => Sys2Proof.Machine.execSwr x fn s
  | .srdt x fn => Sys2Proof.Machine.execSrdt x fn s
  | .launchWaitEnd core thread => Sys2Proof.Machine.execLaunchWaitEnd core thread s
  | .tallyWaitMet core thread => Sys2Proof.Machine.execTallyWaitMet core thread s
  | .counterWaitMet core thread => Sys2Proof.Machine.execCounterWaitMet core thread s
  | .phaseWaitEnd core thread => Sys2Proof.Machine.execPhaseWaitEnd core thread s
  | .reductionWaitEnd core handle => Sys2Proof.Machine.execReductionWaitEnd core handle s
  | .mailboxWaitMet core thread => Sys2Proof.Machine.execMailboxWaitMet core thread s
  | .waituntilMet core thread => Sys2Proof.Machine.execWaituntilMet core thread s
  | .faultWaitMet core thread => Sys2Proof.Machine.execFaultWaitMet core thread s
  | .fenceComplete core thread => Sys2Proof.Machine.execFenceComplete core thread s
  | .threadBankAccess core thread e => Sys2Proof.Machine.execThreadBankAccess core thread e s
  | .sramWriteBack w => Sys2Proof.Machine.execSramWriteBack w s
  | .vectorRegisterZeroed core reg => Sys2Proof.Machine.execVectorRegisterZeroed core reg s
  | .inboundDelivery core es => Sys2Proof.Machine.execInboundDelivery core es s
  | .coreZeroingComplete core badRows => Sys2Proof.Machine.execCoreZeroingComplete core badRows s
  | .phaseFire core => Sys2Proof.Machine.execPhaseFire core s
  | .gangFire die line => Sys2Proof.Machine.execGangFire die line s
  | .gangLost die line => Sys2Proof.Machine.execGangLost die line s
  | .phaseStep core sram mesh => Sys2Proof.Machine.execPhaseStep core sram mesh s
  | .phaseEnd core => Sys2Proof.Machine.execPhaseEnd core s
  | .holdCountApply die => Sys2Proof.Machine.execHoldCountApply die s
  | .dynamicBeatForward core link src e => Sys2Proof.Machine.execDynamicBeatForward core link src e s
  | .sheafWord p => Sys2Proof.Machine.execSheafWord p s
  | .sheafNodeFold node ctx es => Sys2Proof.Machine.execSheafNodeFold node ctx es s
  | .rootWritesComplete node ctx => Sys2Proof.Machine.execRootWritesComplete node ctx s
  | .sheafCtrl p => Sys2Proof.Machine.execSheafCtrl p s
  | .sheafTimeout node ctx => Sys2Proof.Machine.execSheafTimeout node ctx s
  | .sheafBusyResend node ctx => Sys2Proof.Machine.execSheafBusyResend node ctx s
  | .sheafFormComplete core handle es => Sys2Proof.Machine.execSheafFormComplete core handle es s
  | .sheafFinishComplete core handle es => Sys2Proof.Machine.execSheafFinishComplete core handle es s
  | .linkFrameRx link f => Sys2Proof.Machine.execLinkFrameRx link f s
  | .candidateSetChange die peer => Sys2Proof.Machine.execCandidateSetChange die peer s
  | .steerStage core set tally en => Sys2Proof.Machine.execSteerStage core set tally en s
  | .steerCommit core set tally en => Sys2Proof.Machine.execSteerCommit core set tally en s
  | .steerRequestStart barn => Sys2Proof.Machine.execSteerRequestStart barn s
  | .steerStageEnd barn => Sys2Proof.Machine.execSteerStageEnd barn s
  | .linkDrainComplete link => Sys2Proof.Machine.execLinkDrainComplete link s
  | .steerEntryLive link => Sys2Proof.Machine.execSteerEntryLive link s
  | .steerCommitEnd barn => Sys2Proof.Machine.execSteerCommitEnd barn s
  | .lighthouseModuleFailure m trims => Sys2Proof.Machine.execLighthouseModuleFailure m trims s
  | .laneExclusion link lane => Sys2Proof.Machine.execLaneExclusion link lane s
  | .widthChangeComplete link => Sys2Proof.Machine.execWidthChangeComplete link s
  | .laneRetrainComplete link lane => Sys2Proof.Machine.execLaneRetrainComplete link lane s
  | .linkSubstitution link => Sys2Proof.Machine.execLinkSubstitution link s
  | .sensorSample sensor temp => Sys2Proof.Machine.execSensorSample sensor temp s
  | .zoneRetrimComplete zone trims => Sys2Proof.Machine.execZoneRetrimComplete zone trims s
  | .lockLoopUpdate ring residual move => Sys2Proof.Machine.execLockLoopUpdate ring residual move s
  | .eyeWidthMeasure link lane width => Sys2Proof.Machine.execEyeWidthMeasure link lane width s
  | .eyeHeightMeasure link lane height => Sys2Proof.Machine.execEyeHeightMeasure link lane height s
  | .berWindowEnd link lane exp => Sys2Proof.Machine.execBerWindowEnd link lane exp s
  | .exclusionWindowEnd link corrected => Sys2Proof.Machine.execExclusionWindowEnd link corrected s
  | .sensorResidualCheck sensor residual => Sys2Proof.Machine.execSensorResidualCheck sensor residual s
  | .analogueRecheck rcal currentSense offsets => Sys2Proof.Machine.execAnalogueRecheck rcal currentSense offsets s
  | .trainingFrameRx link f => Sys2Proof.Machine.execTrainingFrameRx link f s
  | .ringRelockComplete ring offset => Sys2Proof.Machine.execRingRelockComplete ring offset s
  | .deferredCalStart link => Sys2Proof.Machine.execDeferredCalStart link s
  | .linkSweepComplete link mask cycles trims => Sys2Proof.Machine.execLinkSweepComplete link mask cycles trims s
  | .linkRetrainComplete link mask cycles trims => Sys2Proof.Machine.execLinkRetrainComplete link mask cycles trims s
  | .coreBistComplete op failed => Sys2Proof.Machine.execCoreBistComplete op failed s
  | .calCaptureComplete op => Sys2Proof.Machine.execCalCaptureComplete op s
  | .load p e => Sys2Proof.Machine.execLoad p e s
  | .store p e => Sys2Proof.Machine.execStore p e s
  | .counterStore p => Sys2Proof.Machine.execCounterStore p s
  | .atomic p e => Sys2Proof.Machine.execAtomic p e s
  | .loadCpl p => Sys2Proof.Machine.execLoadCpl p s
  | .storeCpl p => Sys2Proof.Machine.execStoreCpl p s
  | .atomicCpl p => Sys2Proof.Machine.execAtomicCpl p s
  | .message p => Sys2Proof.Machine.execMessage p s
  | .copyWrite p e => Sys2Proof.Machine.execCopyWrite p e s
  | .copyPull p e => Sys2Proof.Machine.execCopyPull p e s
  | .wreq p => Sys2Proof.Machine.execWreq p s
  | .wupdate p => Sys2Proof.Machine.execWupdate p s
  | .wgive p => Sys2Proof.Machine.execWgive p s
  | .salvage p => Sys2Proof.Machine.execSalvage p s
  | .advice p => Sys2Proof.Machine.execAdvice p s
  | .timeExch p stamp replayed => Sys2Proof.Machine.execTimeExch p stamp replayed s
  | .harvestReq p => Sys2Proof.Machine.execHarvestReq p s
  | .harvestData p => Sys2Proof.Machine.execHarvestData p s
  | .helmMsg p => Sys2Proof.Machine.execHelmMsg p s
  | .unpairTimeout gateway pair member pseq => Sys2Proof.Machine.execUnpairTimeout gateway pair member pseq s
  | .pairChecksComplete pair failA failB faulty => Sys2Proof.Machine.execPairChecksComplete pair failA failB faulty s
  | .edgeTxPick port => Sys2Proof.Machine.execEdgeTxPick port s
  | .windowAdmit dest cls => Sys2Proof.Machine.execWindowAdmit dest cls s
  | .windowGrant => Sys2Proof.Machine.execWindowGrant s
  | .wupdateSend src cls => Sys2Proof.Machine.execWupdateSend src cls s
  | .windowIdleGiveback dest cls => Sys2Proof.Machine.execWindowIdleGiveback dest cls s
  | .wseqGapSkip src cls => Sys2Proof.Machine.execWseqGapSkip src cls s
  | .portLoss port => Sys2Proof.Machine.execPortLoss port s
  | .salvageTimeout port => Sys2Proof.Machine.execSalvageTimeout port s
  | .congestionSample => Sys2Proof.Machine.execCongestionSample s
  | .orderedStoreIssue gateway core tag => Sys2Proof.Machine.execOrderedStoreIssue gateway core tag s
  | .copySegmentSend gateway tracker e => Sys2Proof.Machine.execCopySegmentSend gateway tracker e s
  | .readAheadFetch gateway tracker e => Sys2Proof.Machine.execReadAheadFetch gateway tracker e s
  | .patrolRead line e => Sys2Proof.Machine.execPatrolRead line e s
  | .rowRepairComplete granule detail spare => Sys2Proof.Machine.execRowRepairComplete granule detail spare s
  | .granuleScrubComplete granule => Sys2Proof.Machine.execGranuleScrubComplete granule s
  | .hbmChannelRetrainStart die channel => Sys2Proof.Machine.execHbmChannelRetrainStart die channel s
  | .hbmChannelRetrainComplete die channel good => Sys2Proof.Machine.execHbmChannelRetrainComplete die channel good s
  | .qcfgWrite queue barn v => Sys2Proof.Machine.execQcfgWrite queue barn v s
  | .qheadWrite queue barn v => Sys2Proof.Machine.execQheadWrite queue barn v s
  | .edgeFrameRx port f errs tag => Sys2Proof.Machine.execEdgeFrameRx port f errs tag s
  | .edgeReplayTimeout port => Sys2Proof.Machine.execEdgeReplayTimeout port s
  | .linkControlFrameRx port seq lc verified => Sys2Proof.Machine.execLinkControlFrameRx port seq lc verified s
  | .portLockAchieved port mask => Sys2Proof.Machine.execPortLockAchieved port mask s
  | .portDeskewDone port cycles => Sys2Proof.Machine.execPortDeskewDone port cycles s
  | .portEyeDone port => Sys2Proof.Machine.execPortEyeDone port s
  | .portWidthAgreed port mask => Sys2Proof.Machine.execPortWidthAgreed port mask s
  | .portUp port => Sys2Proof.Machine.execPortUp port s
  | .maintEnd port trims => Sys2Proof.Machine.execMaintEnd port trims s
  | .probeBurst port => Sys2Proof.Machine.execProbeBurst port s
  | .partnerLightDetect port power => Sys2Proof.Machine.execPartnerLightDetect port power s
  | .rxLightLoss port power => Sys2Proof.Machine.execRxLightLoss port power s
  | .modulatedLightStop port => Sys2Proof.Machine.execModulatedLightStop port s
  | .returnToProbe port => Sys2Proof.Machine.execReturnToProbe port s
  | .keyUpdateStart port => Sys2Proof.Machine.execKeyUpdateStart port s
  | .keyUpdateTimeout port => Sys2Proof.Machine.execKeyUpdateTimeout port s
  | .helmOutputMismatch => Sys2Proof.Machine.execHelmOutputMismatch s
  | .helmSelfCheckEnd aBad bBad => Sys2Proof.Machine.execHelmSelfCheckEnd aBad bBad s
  | .helmReform passed => Sys2Proof.Machine.execHelmReform passed s
  | .fwUpdateTakeover verified => Sys2Proof.Machine.execFwUpdateTakeover verified s
  | .berthSlotClaim berth path off bytes => Sys2Proof.Machine.execBerthSlotClaim berth path off bytes s
  | .berthRing berth path v => Sys2Proof.Machine.execBerthRing berth path v s
  | .berthTake berth => Sys2Proof.Machine.execBerthTake berth s
  | .berthReply berth slot => Sys2Proof.Machine.execBerthReply berth slot s
  | .berthReplyClear berth path v => Sys2Proof.Machine.execBerthReplyClear berth path v s
  | .helmBeatTick => Sys2Proof.Machine.execHelmBeatTick s
  | .opStatusPeriodic op => Sys2Proof.Machine.execOpStatusPeriodic op s
  | .operationEnd op => Sys2Proof.Machine.execOperationEnd op s
  | .nop berth slot => Sys2Proof.Machine.execNop berth slot s
  | .opStatus berth slot => Sys2Proof.Machine.execOpStatus berth slot s
  | .opCancel berth slot => Sys2Proof.Machine.execOpCancel berth slot s
  | .opForce berth slot => Sys2Proof.Machine.execOpForce berth slot s
  | .berthInfo berth slot => Sys2Proof.Machine.execBerthInfo berth slot s
  | .helmStatus berth slot => Sys2Proof.Machine.execHelmStatus berth slot s
  | .fwUpdate berth slot image => Sys2Proof.Machine.execFwUpdate berth slot image s
  | .fmDesignate berth slot => Sys2Proof.Machine.execFmDesignate berth slot s
  | .attest berth slot => Sys2Proof.Machine.execAttest berth slot s
  | .certChain berth slot => Sys2Proof.Machine.execCertChain berth slot s
  | .measureExtend berth slot => Sys2Proof.Machine.execMeasureExtend berth slot s
  | .barnPeers berth slot => Sys2Proof.Machine.execBarnPeers berth slot s
  | .keyImport berth slot => Sys2Proof.Machine.execKeyImport berth slot s
  | .svnAdvance berth slot => Sys2Proof.Machine.execSvnAdvance berth slot s
  | .peerMinSvn berth slot => Sys2Proof.Machine.execPeerMinSvn berth slot s
  | .barnCreate berth slot => Sys2Proof.Machine.execBarnCreate berth slot s
  | .barnDestroy berth slot => Sys2Proof.Machine.execBarnDestroy berth slot s
  | .barnClusters berth slot => Sys2Proof.Machine.execBarnClusters berth slot s
  | .granuleAssign berth slot => Sys2Proof.Machine.execGranuleAssign berth slot s
  | .granuleRelease berth slot => Sys2Proof.Machine.execGranuleRelease berth slot s
  | .queueAssign berth slot => Sys2Proof.Machine.execQueueAssign berth slot s
  | .barnLimits berth slot => Sys2Proof.Machine.execBarnLimits berth slot s
  | .barnReset berth slot => Sys2Proof.Machine.execBarnReset berth slot s
  | .barnInfo berth slot => Sys2Proof.Machine.execBarnInfo berth slot s
  | .tagRead berth slot => Sys2Proof.Machine.execTagRead berth slot s
  | .tagWrite berth slot => Sys2Proof.Machine.execTagWrite berth slot s
  | .release berth slot => Sys2Proof.Machine.execRelease berth slot s
  | .thread0 berth slot => Sys2Proof.Machine.execThread0 berth slot s
  | .phaseLoad berth slot => Sys2Proof.Machine.execPhaseLoad berth slot s
  | .phaseValidationComplete op => Sys2Proof.Machine.execPhaseValidationComplete op s
  | .pathsetLoad berth slot => Sys2Proof.Machine.execPathsetLoad berth slot s
  | .pathsetDrop berth slot => Sys2Proof.Machine.execPathsetDrop berth slot s
  | .courseLoad berth slot => Sys2Proof.Machine.execCourseLoad berth slot s
  | .planUpload berth slot host => Sys2Proof.Machine.execPlanUpload berth slot host s
  | .portRelease berth slot => Sys2Proof.Machine.execPortRelease berth slot s
  | .sighting berth slot => Sys2Proof.Machine.execSighting berth slot s
  | .harvest berth slot => Sys2Proof.Machine.execHarvest berth slot s
  | .pairLoad berth slot => Sys2Proof.Machine.execPairLoad berth slot s
  | .pairStatus berth slot => Sys2Proof.Machine.execPairStatus berth slot s
  | .twinSet berth slot => Sys2Proof.Machine.execTwinSet berth slot s
  | .fabricConfig berth slot => Sys2Proof.Machine.execFabricConfig berth slot s
  | .moduleRelease berth slot trims => Sys2Proof.Machine.execModuleRelease berth slot trims s
  | .moduleAdmit berth slot serial closed trims => Sys2Proof.Machine.execModuleAdmit berth slot serial closed trims s
  | .calRequest berth slot => Sys2Proof.Machine.execCalRequest berth slot s
  | .calSave berth slot => Sys2Proof.Machine.execCalSave berth slot s
  | .calRestore berth slot image => Sys2Proof.Machine.execCalRestore berth slot image s
  | .standbyTest berth slot => Sys2Proof.Machine.execStandbyTest berth slot s
  | .standbyTestComplete op cores granules links ports modules => Sys2Proof.Machine.execStandbyTestComplete op cores granules links ports modules s
  | .floorplanRead berth slot => Sys2Proof.Machine.execFloorplanRead berth slot s
  | .gleanerRead berth slot => Sys2Proof.Machine.execGleanerRead berth slot s
  | .gleanerAck berth slot => Sys2Proof.Machine.execGleanerAck berth slot s
  | .countConfig berth slot => Sys2Proof.Machine.execCountConfig berth slot s
  | .countRead berth slot => Sys2Proof.Machine.execCountRead berth slot s
  | .thermalRead berth slot => Sys2Proof.Machine.execThermalRead berth slot s
  | .timeConfig berth slot => Sys2Proof.Machine.execTimeConfig berth slot s
  | .meterConfig berth slot => Sys2Proof.Machine.execMeterConfig berth slot s
  | .meterRead berth slot => Sys2Proof.Machine.execMeterRead berth slot s
  | .faultInject berth slot => Sys2Proof.Machine.execFaultInject berth slot s
  | .registerWrite fn off bytes => Sys2Proof.Machine.execRegisterWrite fn off bytes s
  | .registerLowHalfRead fn off => Sys2Proof.Machine.execRegisterLowHalfRead fn off s
  | .apertureRead fn off len => Sys2Proof.Machine.execApertureRead fn off len s
  | .apertureWrite fn off bytes => Sys2Proof.Machine.execApertureWrite fn off bytes s
  | .functionLevelReset fn => Sys2Proof.Machine.execFunctionLevelReset fn s
  | .buGo v => Sys2Proof.Machine.execBuGo v s
  | .buAccept v => Sys2Proof.Machine.execBuAccept v s
  | .buAbort v => Sys2Proof.Machine.execBuAbort v s
  | .standbyDomainSelfCheck railBad refBad rcal aBad bBad => Sys2Proof.Machine.execStandbyDomainSelfCheck railBad refBad rcal aBad bBad s
  | .firmwareAuthentication host => Sys2Proof.Machine.execFirmwareAuthentication host s
  | .vin48SoftStart vinOk converterBad regulators => Sys2Proof.Machine.execVin48SoftStart vinOk converterBad regulators s
  | .clockDistribution pllLost generators crossings => Sys2Proof.Machine.execClockDistribution pllLost generators crossings s
  | .lightCalibration fit opened abandoned unlocked trims => Sys2Proof.Machine.execLightCalibration fit opened abandoned unlocked trims s
  | .calImageWaitTimeout => Sys2Proof.Machine.execCalImageWaitTimeout s
  | .dieBringup cores regulators links fuseBad => Sys2Proof.Machine.execDieBringup cores regulators links fuseBad s
  | .hbmBringup stackBad repairBad retired => Sys2Proof.Machine.execHbmBringup stackBad repairBad retired s
  | .inPackageLinkTraining trained => Sys2Proof.Machine.execInPackageLinkTraining trained s
  | .edgeTrainingSighting => Sys2Proof.Machine.execEdgeTrainingSighting s
  | .ready => Sys2Proof.Machine.execReady s
  | .coreReset core => Sys2Proof.Machine.execCoreReset core s
  | .clusterReset cluster => Sys2Proof.Machine.execClusterReset cluster s
  | .orphanTagTimeout gateway who tag => Sys2Proof.Machine.execOrphanTagTimeout gateway who tag s
  | .packageReset => Sys2Proof.Machine.execPackageReset s
  | .perstAssert => Sys2Proof.Machine.execPerstAssert s
  | .refclkFault => Sys2Proof.Machine.execRefclkFault s
  | .ppsEdge sub => Sys2Proof.Machine.execPpsEdge sub s
  | .timeExchPeriod => Sys2Proof.Machine.execTimeExchPeriod s
  | .almanacSet v => Sys2Proof.Machine.execAlmanacSet v s
  | .meterBoundary => Sys2Proof.Machine.execMeterBoundary s
  | .indDataRead eight => Sys2Proof.Machine.execIndDataRead eight s
  | .indDataWrite v eight => Sys2Proof.Machine.execIndDataWrite v eight s
  | .faultAck cls => Sys2Proof.Machine.execFaultAck cls s
  | .faultNPulseEnd => Sys2Proof.Machine.execFaultNPulseEnd s
  | .faultReport => Sys2Proof.Machine.execFaultReport s
  | .countWindowEnd kind unit => Sys2Proof.Machine.execCountWindowEnd kind unit s
  | .faultNoticePost => Sys2Proof.Machine.execFaultNoticePost s
  | .governorTick die => Sys2Proof.Machine.execGovernorTick die s
  | .rngHealthFailure => Sys2Proof.Machine.execRngHealthFailure s
  | .vauxPowerOn vbat => Sys2Proof.Machine.execVauxPowerOn vbat s
  | .strapSample testmode sris i3cAddr => Sys2Proof.Machine.execStrapSample testmode sris i3cAddr s
  | .vauxLoss => Sys2Proof.Machine.execVauxLoss s
  | .vin48Loss => Sys2Proof.Machine.execVin48Loss s
  | .vin48DischargeEnd => Sys2Proof.Machine.execVin48DischargeEnd s
  | .interlockOpen block trims => Sys2Proof.Machine.execInterlockOpen block trims s
  | .vbatLoss => Sys2Proof.Machine.execVbatLoss s
  | .perstRelease => Sys2Proof.Machine.execPerstRelease s
  | .fwUpdateSplit => Sys2Proof.Machine.execFwUpdateSplit s
  | .vfEnableChange en num => Sys2Proof.Machine.execVfEnableChange en num s

end Sys2Proof.Machine
end

