-- ==== Sys2Proof/WellFormed.lean ====
section
/-! DEFINITION. Which commands are well formed: every operand within the width the spec gives its field, every list of
units without repeats and every byte list within its area. -/
namespace Sys2Proof.Machine

/-- Every field within its bits of Table 9-1, at most 4,096 payload bytes (R211). -/
def Pkt.wf (p : Pkt) : Bool :=
  decide (p.ver < 16) && decide (p.op < 64) && decide (p.tc < 4) && decide (p.lvl < 4) && decide (p.hops < 8) && decide (p.hidx < 8)
    && decide (p.lrun < 4) && decide (p.skind < 8) && decide (p.dst < 2 ^ 30) && decide (p.src < 2 ^ 30) && decide (p.barn < 256)
    && decide (p.course < 2 ^ 42) && decide (p.wseq < 2 ^ 16) && decide (p.rtag < 2 ^ 12) && decide (p.pseq < 2 ^ 14)
    && decide (p.addr < 2 ^ 48) && decide (p.payload.length ≤ 4096)
/-- Table 7-2. -/
def LinkFrame.wf (f : LinkFrame) : Bool := decide (f.errs.length ≤ 256)
/-- Table 8-6a. -/
def TrainFrame.wf (f : TrainFrame) : Bool :=
  decide (f.tkind < 256) && decide (f.sender < 2 ^ 16) && decide (f.laneMask < 2 ^ 16) && decide (f.seed < 2 ^ 32)
/-- Table 11-4. -/
def EdgeFrame.wf (f : EdgeFrame) : Bool :=
  decide (f.kind < 8) && decide (f.seq < 4096) && decide (f.start < 64) && decide (f.tagFrag < 2 ^ 16)
    && decide (f.ackSeq < 4096) && decide (f.cvc < 16) && decide (f.cunits < 512) && f.pkts.all Pkt.wf
/-- Tables 11-7 and 17-7. -/
def LinkControl.wf (l : LinkControl) : Bool :=
  decide (l.lckind < 256) && decide (l.package < 2 ^ 16) && decide (l.port < 256) && decide (l.role < 256) && decide (l.mtu < 2 ^ 16)
    && decide (l.expectPeer < 2 ^ 16) && decide (l.expectPort < 256) && decide (l.digest < 2 ^ 128) && decide (l.mtype < 256)
    && decide (l.svn < 2 ^ 32) && decide (l.certDigest < 2 ^ 128)
/-- Table 17-3. -/
def FwImage.wf (f : FwImage) : Bool := decide (f.typ < 256) && decide (f.svn < 2 ^ 32) && decide (f.version < 2 ^ 64)
/-- A list that names no unit twice. -/
def noRepeat {α : Type} [DecidableEq α] (l : List α) : Bool := decide l.Nodup
/-- An operation number (R332) and a reduction's node and tag (R159, Table 9-2). -/
def opWf (op : Nat) : Bool := decide (op < 2 ^ 32)
def nodeWf (node : Nat) : Bool := decide (node < 16712)

end Sys2Proof.Machine

namespace Sys2Proof
open Machine

/-- Every operand within the width the spec gives it. -/
def wellFormed : Instr → Bool
  | .add _ => true
  | .sub _ => true
  | .and _ => true
  | .or _ => true
  | .xor _ => true
  | .shl _ => true
  | .shr _ => true
  | .sra _ => true
  | .mul _ => true
  | .mulhs _ => true
  | .mulhu _ => true
  | .div _ => true
  | .divu _ => true
  | .rem _ => true
  | .remu _ => true
  | .min _ => true
  | .minu _ => true
  | .max _ => true
  | .maxu _ => true
  | .clz _ => true
  | .popc _ => true
  | .addi _ => true
  | .andi _ => true
  | .ori _ => true
  | .xori _ => true
  | .shi _ => true
  | .movi _ => true
  | .movhi _ => true
  | .cmp _ _ => true
  | .cmpi _ => true
  | .pand _ => true
  | .por _ => true
  | .pxor _ => true
  | .pandn _ => true
  | .ptog _ => true
  | .gtop _ => true
  | .br _ => true
  | .brl _ => true
  | .jr _ => true
  | .ldl _ _ => true
  | .stl _ _ => true
  | .lds _ => true
  | .sts _ => true
  | .stsb _ _ => true
  | .fenceS _ => true
  | .fenceA _ => true
  | .synci _ => true
  | .atoml _ _ _ => true
  | .atoms _ _ => true
  | .copy _ _ => true
  | .twait _ => true
  | .trd _ => true
  | .tset _ => true
  | .vadd _ => true
  | .vsub _ => true
  | .vmul _ => true
  | .vfma _ => true
  | .vdiv _ => true
  | .vsqrt _ => true
  | .vmin _ => true
  | .vmax _ => true
  | .vand _ => true
  | .vor _ => true
  | .vxor _ => true
  | .vshl _ => true
  | .vshr _ => true
  | .vcvt _ => true
  | .vmxpack _ => true
  | .vmxunpack _ => true
  | .vldl _ _ => true
  | .vstl _ _ => true
  | .vlds _ => true
  | .vsts _ => true
  | .vbcast _ => true
  | .vext _ => true
  | .plaunch _ => true
  | .pwait _ => true
  | .pcancel _ => true
  | .pclr _ => true
  | .pstat _ => true
  | .tkadd _ => true
  | .ccadd _ => true
  | .tkrd _ => true
  | .ccrd _ => true
  | .tkwait _ => true
  | .ccwait _ => true
  | .tktake _ => true
  | .cctake _ => true
  | .shsubmit _ _ => true
  | .shwait _ => true
  | .shabort _ => true
  | .shstat _ => true
  | .mbput _ _ => true
  | .mbget _ _ => true
  | .mbring _ => true
  | .mbwait _ => true
  | .mbpoll _ => true
  | .barinit _ => true
  | .barwait _ => true
  | .time _ => true
  | .waituntil _ => true
  | .imarkS _ => true
  | .imarkE _ => true
  | .tstart _ => true
  | .tstop _ => true
  | .tkill _ => true
  | .trestart _ => true
  | .tfwait _ => true
  | .valloc _ => true
  | .vfree _ => true
  | .brk _ => true
  | .srd _ _ => true
  | .swr _ _ => true
  | .srdt _ _ => true
  | .launchWaitEnd _ _ => true
  | .tallyWaitMet _ _ => true
  | .counterWaitMet _ _ => true
  | .phaseWaitEnd _ _ => true
  | .reductionWaitEnd _ _ => true
  | .mailboxWaitMet _ _ => true
  | .waituntilMet _ _ => true
  | .faultWaitMet _ _ => true
  | .fenceComplete _ _ => true
  | .threadBankAccess _ _ _ => true
  | .sramWriteBack _ => true
  | .vectorRegisterZeroed _ _ => true
  | .inboundDelivery _ _ => true
  | .coreZeroingComplete _ badRows => noRepeat badRows
  | .phaseFire _ => true
  | .gangFire _ _ => true
  | .gangLost _ _ => true
  | .phaseStep _ sram mesh => noRepeat (sram.map Prod.fst) && noRepeat (mesh.map Prod.fst)
  | .phaseEnd _ => true
  | .holdCountApply _ => true
  | .dynamicBeatForward _ _ _ _ => true
  | .sheafWord p => p.wf
  | .sheafNodeFold node _ _ => nodeWf node
  | .rootWritesComplete node _ => nodeWf node
  | .sheafCtrl p => p.wf
  | .sheafTimeout node _ => nodeWf node
  | .sheafBusyResend node _ => nodeWf node
  | .sheafFormComplete _ _ _ => true
  | .sheafFinishComplete _ _ _ => true
  | .linkFrameRx _ f => f.wf
  | .candidateSetChange _ _ => true
  | .steerStage _ _ _ _ => true
  | .steerCommit _ _ _ _ => true
  | .steerRequestStart _ => true
  | .steerStageEnd _ => true
  | .linkDrainComplete _ => true
  | .steerEntryLive _ => true
  | .steerCommitEnd _ => true
  | .lighthouseModuleFailure _ trims => noRepeat (trims.map Prod.fst)
  | .laneExclusion _ _ => true
  | .widthChangeComplete _ => true
  | .laneRetrainComplete _ _ => true
  | .linkSubstitution _ => true
  | .sensorSample _ _ => true
  | .zoneRetrimComplete _ trims => noRepeat (trims.map Prod.fst)
  | .lockLoopUpdate _ _ _ => true
  | .eyeWidthMeasure _ _ _ => true
  | .eyeHeightMeasure _ _ _ => true
  | .berWindowEnd _ _ _ => true
  | .exclusionWindowEnd _ corrected => noRepeat (corrected.map Prod.fst)
  | .sensorResidualCheck _ _ => true
  | .analogueRecheck _ currentSense offsets => decide (currentSense.length = 1024) && decide (offsets.length = 1152)
  | .trainingFrameRx _ f => f.wf
  | .ringRelockComplete _ _ => true
  | .deferredCalStart _ => true
  | .linkSweepComplete _ _ _ trims => noRepeat (trims.map Prod.fst)
  | .linkRetrainComplete _ _ _ trims => noRepeat (trims.map Prod.fst)
  | .coreBistComplete op failed => opWf op && noRepeat failed
  | .calCaptureComplete op => opWf op
  | .load p _ => p.wf
  | .store p _ => p.wf
  | .counterStore p => p.wf
  | .atomic p _ => p.wf
  | .loadCpl p => p.wf
  | .storeCpl p => p.wf
  | .atomicCpl p => p.wf
  | .message p => p.wf
  | .copyWrite p _ => p.wf
  | .copyPull p _ => p.wf
  | .wreq p => p.wf
  | .wupdate p => p.wf
  | .wgive p => p.wf
  | .salvage p => p.wf
  | .advice p => p.wf
  | .timeExch p _ _ => p.wf
  | .harvestReq p => p.wf
  | .harvestData p => p.wf
  | .helmMsg p => p.wf
  | .unpairTimeout _ _ _ _ => true
  | .pairChecksComplete _ _ _ f => noRepeat f.cores && noRepeat f.granules && noRepeat f.links
  | .edgeTxPick _ => true
  | .windowAdmit _ _ => true
  | .windowGrant => true
  | .wupdateSend _ _ => true
  | .windowIdleGiveback _ _ => true
  | .wseqGapSkip _ _ => true
  | .portLoss _ => true
  | .salvageTimeout _ => true
  | .congestionSample => true
  | .orderedStoreIssue _ _ _ => true
  | .copySegmentSend _ _ _ => true
  | .readAheadFetch _ _ _ => true
  | .patrolRead line _ => decide (line < 2 ^ 34)
  | .rowRepairComplete _ _ _ => true
  | .granuleScrubComplete _ => true
  | .hbmChannelRetrainStart _ _ => true
  | .hbmChannelRetrainComplete _ _ _ => true
  | .qcfgWrite _ _ _ => true
  | .qheadWrite _ _ _ => true
  | .edgeFrameRx _ f _ _ => f.wf
  | .edgeReplayTimeout _ => true
  | .linkControlFrameRx _ _ lc _ => lc.wf
  | .portLockAchieved _ _ => true
  | .portDeskewDone _ _ => true
  | .portEyeDone _ => true
  | .portWidthAgreed _ _ => true
  | .portUp _ => true
  | .maintEnd _ d => noRepeat (d.trims.map Prod.fst)
  | .probeBurst _ => true
  | .partnerLightDetect _ _ => true
  | .rxLightLoss _ _ => true
  | .modulatedLightStop _ => true
  | .returnToProbe _ => true
  | .keyUpdateStart _ => true
  | .keyUpdateTimeout _ => true
  | .helmOutputMismatch => true
  | .helmSelfCheckEnd _ _ => true
  | .helmReform _ => true
  | .fwUpdateTakeover _ => true
  | .berthSlotClaim _ _ off bytes => decide (off.val + bytes.length ≤ 4096)
  | .berthRing _ _ _ => true
  | .berthTake _ => true
  | .berthReply _ _ => true
  | .berthReplyClear _ _ _ => true
  | .helmBeatTick => true
  | .opStatusPeriodic op => opWf op
  | .operationEnd op => opWf op
  | .nop _ _ => true
  | .opStatus _ _ => true
  | .opCancel _ _ => true
  | .opForce _ _ => true
  | .berthInfo _ _ => true
  | .helmStatus _ _ => true
  | .fwUpdate _ _ image => image.wf
  | .fmDesignate _ _ => true
  | .attest _ _ => true
  | .certChain _ _ => true
  | .measureExtend _ _ => true
  | .barnPeers _ _ => true
  | .keyImport _ _ => true
  | .svnAdvance _ _ => true
  | .peerMinSvn _ _ => true
  | .barnCreate _ _ => true
  | .barnDestroy _ _ => true
  | .barnClusters _ _ => true
  | .granuleAssign _ _ => true
  | .granuleRelease _ _ => true
  | .queueAssign _ _ => true
  | .barnLimits _ _ => true
  | .barnReset _ _ => true
  | .barnInfo _ _ => true
  | .tagRead _ _ => true
  | .tagWrite _ _ => true
  | .release _ _ => true
  | .thread0 _ _ => true
  | .phaseLoad _ _ => true
  | .phaseValidationComplete op => opWf op
  | .pathsetLoad _ _ => true
  | .pathsetDrop _ _ => true
  | .courseLoad _ _ => true
  | .planUpload _ _ host => decide (host.length ≤ 640)
  | .portRelease _ _ => true
  | .sighting _ _ => true
  | .harvest _ _ => true
  | .pairLoad _ _ => true
  | .pairStatus _ _ => true
  | .twinSet _ _ => true
  | .fabricConfig _ _ => true
  | .moduleRelease _ _ trims => noRepeat (trims.map Prod.fst)
  | .moduleAdmit _ _ _ _ trims => noRepeat (trims.map Prod.fst)
  | .calRequest _ _ => true
  | .calSave _ _ => true
  | .calRestore _ _ image => decide (image.length < 2 ^ 32)
  | .standbyTest _ _ => true
  | .standbyTestComplete op cores granules links ports modules => opWf op && noRepeat cores && noRepeat granules && noRepeat links && noRepeat ports && noRepeat modules
  | .floorplanRead _ _ => true
  | .gleanerRead _ _ => true
  | .gleanerAck _ _ => true
  | .countConfig _ _ => true
  | .countRead _ _ => true
  | .thermalRead _ _ => true
  | .timeConfig _ _ => true
  | .meterConfig _ _ => true
  | .meterRead _ _ => true
  | .faultInject _ _ => true
  | .registerWrite _ _ bytes => decide (bytes.length = 4) || decide (bytes.length = 8)
  | .registerLowHalfRead _ _ => true
  | .apertureRead _ _ _ => true
  | .apertureWrite _ _ bytes => decide (1 ≤ bytes.length) && decide (bytes.length ≤ 4096)
  | .functionLevelReset _ => true
  | .buGo _ => true
  | .buAccept _ => true
  | .buAbort _ => true
  | .standbyDomainSelfCheck _ _ _ _ _ => true
  | .firmwareAuthentication host => host.all FwImage.wf
  | .vin48SoftStart _ _ regulators => noRepeat regulators
  | .clockDistribution _ generators crossings => noRepeat generators && noRepeat crossings
  | .lightCalibration fit opened _ _ trims => noRepeat (fit.map Prod.fst) && noRepeat opened && noRepeat (trims.map Prod.fst)
  | .calImageWaitTimeout => true
  | .dieBringup cores regulators links fuseBad => noRepeat cores && noRepeat regulators && noRepeat links && noRepeat fuseBad
  | .hbmBringup _ _ retired => noRepeat retired
  | .inPackageLinkTraining trained => noRepeat (trained.map Prod.fst)
  | .edgeTrainingSighting => true
  | .ready => true
  | .coreReset _ => true
  | .clusterReset _ => true
  | .orphanTagTimeout _ who _ => decide (who < 16640)
  | .packageReset => true
  | .perstAssert => true
  | .refclkFault => true
  | .ppsEdge _ => true
  | .timeExchPeriod => true
  | .almanacSet _ => true
  | .meterBoundary => true
  | .indDataRead _ => true
  | .indDataWrite _ _ => true
  | .faultAck _ => true
  | .faultNPulseEnd => true
  | .faultReport => true
  | .countWindowEnd _ unit => decide (unit < 2 ^ 32)
  | .faultNoticePost => true
  | .governorTick _ => true
  | .rngHealthFailure => true
  | .vauxPowerOn _ => true
  | .strapSample _ _ _ => true
  | .vauxLoss => true
  | .vin48Loss => true
  | .vin48DischargeEnd => true
  | .interlockOpen _ trims => noRepeat (trims.map Prod.fst)
  | .vbatLoss => true
  | .perstRelease => true
  | .fwUpdateSplit => true
  | .vfEnableChange _ _ => true

end Sys2Proof
end

