-- ==== Sys2Proof/Safety.lean ====
section
/-! DEFINITION. What claims are stated in: when a thread instruction may execute, what it leaves unchanged, and what
every step keeps. -/
namespace Sys2Proof.Machine

/-! Thread instructions. -/

/-- The thread at `x` may execute its instruction now (R59, R60, R62, R67, R94, R99, R104, R114): its core accepts work, it is running and its turn has
come, no store error waits, the PC is aligned and inside the store, the fetch finds the instruction's words there, the encoding is legal, the guard
holds and no operand has a result outstanding. -/
def Site.goes (x : Site) (s : State) : Bool :=
  s.canIssue x.c x.t && (s.th x.c x.t).storeErr.isNone && decide ((s.th x.c x.t).pc % 4 = 0)
    && decide ((s.th x.c x.t).pc + 4 * x.words ≤ 0x8000) && x.fetched (s.th x.c x.t).pc ((s.core x.c).fetchable x.t)
    && x.legal && x.guard (s.th x.c x.t) && x.clear (s.core x.c)
/-- `t`, the instruction's effect on `s`, with the PC past its words and the issue pointer past its thread (R59, R88). -/
def Site.after (x : Site) (s t : State) : State := (t.issued x.c x.t).setPc x.c x.t ((s.th x.c x.t).pc + 4 * x.words)
/-- The exception `code` of Table 4-13 at this instruction. -/
def Site.trap (x : Site) (s : State) (code addr : Nat) : State :=
  (s.issued x.c x.t).raise x.c x.t code 0 0 (s.th x.c x.t).pc addr

/-- Every byte of HBM, of every core's SRAM and of every instruction store reads as before. -/
def sameMemory (s t : State) : Prop :=
  (∀ a, memGet t.hbm a = memGet s.hbm a) ∧ (∀ c a, memGet (t.core c).sram a = memGet (s.core c).sram a)
    ∧ ∀ c a, memGet (t.core c).istore a = memGet (s.core c).istore a
/-- `t` differs from `s` at most in the threads of core `c`. -/
def onlyThreads (c : Nat) (s t : State) : Prop :=
  { t with cores := s.cores } = s ∧ (∀ d, d ≠ c → t.core d = s.core d) ∧ { t.core c with threads := (s.core c).threads } = s.core c
/-- `t` differs from `s` at most in thread `k` of core `c`. -/
def onlyThread (c k : Nat) (s t : State) : Prop := onlyThreads c s t ∧ ∀ j, j ≠ k → t.th c j = s.th c j
/-- `t` differs from `s` at most in the threads of core `c`, and in that thread `k` has taken an issue slot (R59, R60). -/
def onlyIssuedThreads (c k : Nat) (s t : State) : Prop :=
  { t with cores := s.cores } = s ∧ (∀ d, d ≠ c → t.core d = s.core d) ∧ { t.core c with threads := (s.core c).threads } = (s.core c).issued k
/-- `t` differs from `s` at most in thread `k` of core `c`, which has taken an issue slot. -/
def onlyIssued (c k : Nat) (s t : State) : Prop := onlyIssuedThreads c k s t ∧ ∀ j, j ≠ k → t.th c j = s.th c j
/-- An instruction that writes `v` to g register `d` and nothing else: g0 stays zero, every other register, predicate and special register
of the thread, every other thread and every byte of memory are unchanged; the PC moves past the words and the issue pointer past the thread. -/
def wroteG (x : Site) (d : Nat) (v : BitVec 64) (s t : State) : Prop :=
  (∀ n, (t.th x.c x.t).gr n = if n = d ∧ n ≠ 0 then v else (s.th x.c x.t).gr n)
    ∧ { t.th x.c x.t with g := (s.th x.c x.t).g, pc := (s.th x.c x.t).pc } = s.th x.c x.t
    ∧ (t.th x.c x.t).pc = (s.th x.c x.t).pc + 4 * x.words ∧ onlyIssued x.c x.t s t ∧ sameMemory s t
/-- The same for one predicate register: p0 stays one. -/
def wroteP (x : Site) (d : Nat) (b : Bool) (s t : State) : Prop :=
  (∀ n, n < 8 → (t.th x.c x.t).pr n = if n = d ∧ n ≠ 0 then b else (s.th x.c x.t).pr n)
    ∧ { t.th x.c x.t with p := (s.th x.c x.t).p, pc := (s.th x.c x.t).pc } = s.th x.c x.t
    ∧ (t.th x.c x.t).pc = (s.th x.c x.t).pc + 4 * x.words ∧ onlyIssued x.c x.t s t ∧ sameMemory s t
/-- A vector instruction that writes `v` to the vector register its thread holds as `d`, joins the flags `fl` to FPFLAGS, changes the thread's
g registers as `f` says, and changes nothing else: every other vector register of the core's pool, every other thread and all memory are unchanged. -/
def wroteV (x : Site) (d v : Nat) (fl : FFlags) (f : Thread → Thread) (s t : State) : Prop :=
  (∀ r, tget 0 (t.core x.c).vregs r = if (s.th x.c x.t).vmap[d]? = some r then v % 2 ^ 2048 else tget 0 (s.core x.c).vregs r)
    ∧ t.th x.c x.t = f { s.th x.c x.t with
        pc := (s.th x.c x.t).pc + 4 * x.words, fpflags := (s.th x.c x.t).fpflags ||| BitVec.ofNat 5 fl.bits }
    ∧ (∀ j, j ≠ x.t → t.th x.c j = s.th x.c j) ∧ { t with cores := s.cores } = s ∧ (∀ d, d ≠ x.c → t.core d = s.core d)
    ∧ { t.core x.c with threads := (s.core x.c).threads, vregs := (s.core x.c).vregs } = (s.core x.c).issued x.t ∧ sameMemory s t
/-- A list of results and flags: the results laid out as elements of width `w`, and all the flags. -/
def elements (w : Nat) (l : List (Nat × FFlags)) : Nat := packElems w (l.map (·.1))
def flagsOf (l : List (Nat × FFlags)) : FFlags := (l.map (·.2)).foldl FFlags.or {}

/-! Packets. -/

/-- A packet whose trailer and payload are good and that comes from no pair (R213, R235, R306). -/
def Pkt.plain (p : Pkt) : Bool := p.trailerOk && !p.poison && !p.pair
/-- The state once a packet has left the in-package network at its final receiver, its bytes metered (R211, R403). -/
def landed (s : State) (p : Pkt) : State := State.meterRx { s with net := removeFirst p s.net } p
/-- The 32 FP32 values of block `b` of a fast reduction's input, and the fold of several inputs in order (R160). -/
def fp32Block (bs : List Byte) (b : Nat) : List Nat := (List.range 32).map fun i => leVal (chunk 4 (chunk 128 bs b) i)
def fastFold : List (List Nat) → List Nat
  | [] => []
  | v :: l => l.foldl (fun a w => (a.zip w).map fun (p, q) => fadd32 p q) v

/-! Tables of the thread instruction set (Tables 4-8, 4-10, 4-11), written out from the spec. -/

/-- Format A instructions of OP 0x01 with two operands: constructor, FN and result. -/
def aluRows : List ((IssueA → Instr) × Nat × (BitVec 64 → BitVec 64 → BitVec 64)) :=
  [(.add, 0, fun a b => a + b), (.sub, 1, fun a b => a - b), (.and, 2, fun a b => a &&& b), (.or, 3, fun a b => a ||| b),
   (.xor, 4, fun a b => a ^^^ b), (.shl, 5, fun a b => a <<< (b.toNat % 64)), (.shr, 6, fun a b => a >>> (b.toNat % 64)),
   (.sra, 7, fun a b => a.sshiftRight (b.toNat % 64)), (.mul, 8, fun a b => BitVec.ofNat 64 (a.toNat * b.toNat)),
   (.mulhs, 9, fun a b => BitVec.ofInt 64 (a.toInt * b.toInt / 2 ^ 64)), (.mulhu, 10, fun a b => BitVec.ofNat 64 (a.toNat * b.toNat / 2 ^ 64)),
   (.div, 11, fun a b => if b = 0 then BitVec.allOnes 64 else BitVec.ofInt 64 (a.toInt.tdiv b.toInt)),
   (.divu, 12, fun a b => if b = 0 then BitVec.allOnes 64 else BitVec.ofNat 64 (a.toNat / b.toNat)),
   (.rem, 13, fun a b => if b = 0 then a else BitVec.ofInt 64 (a.toInt.tmod b.toInt)),
   (.remu, 14, fun a b => if b = 0 then a else BitVec.ofNat 64 (a.toNat % b.toNat)),
   (.min, 15, fun a b => if a.toInt ≤ b.toInt then a else b), (.minu, 16, fun a b => if a.toNat ≤ b.toNat then a else b),
   (.max, 17, fun a b => if a.toInt ≤ b.toInt then b else a), (.maxu, 18, fun a b => if a.toNat ≤ b.toNat then b else a)]
/-- Format I instructions of OP 0x02 to 0x05. -/
def immRows : List ((IssueI → Instr) × Nat × (BitVec 64 → BitVec 64 → BitVec 64)) :=
  [(.addi, 0x02, fun a b => a + b), (.andi, 0x03, fun a b => a &&& b), (.ori, 0x04, fun a b => a ||| b), (.xori, 0x05, fun a b => a ^^^ b)]
/-- The conditions of CMP by FN; CMPI has the first four. -/
def cmpRows : List (Nat × (BitVec 64 → BitVec 64 → Bool)) :=
  [(0, fun a b => decide (a = b)), (1, fun a b => decide (a ≠ b)), (2, fun a b => decide (a.toInt < b.toInt)),
   (3, fun a b => decide (b.toInt ≤ a.toInt)), (4, fun a b => decide (a.toNat < b.toNat)), (5, fun a b => decide (b.toNat ≤ a.toNat))]
/-- Predicate instructions of OP 0x0A. -/
def predRows : List ((IssueA → Instr) × Nat × (Bool → Bool → Bool)) :=
  [(.pand, 0, fun a b => a && b), (.por, 1, fun a b => a || b), (.pxor, 2, fun a b => xor a b), (.pandn, 3, fun a b => a && !b)]
/-- MBWAIT and MBPOLL with their FN. -/
def mailRows : List ((IssueA → Instr) × Nat) := [(.mbwait, 3), (.mbpoll, 4)]
/-- The instructions of one kind of counter (Table 4-11). -/
structure CtrRow where
  credit : Bool
  add : IssueA → Instr
  fnAdd : Nat
  read : IssueA → Instr
  fnRead : Nat
  wait : IssueA → Instr
  fnWait : Nat
  take : IssueA → Instr
  fnTake : Nat
def ctrRows : List CtrRow := [⟨false, .tkadd, 0, .tkrd, 2, .tkwait, 4, .tktake, 6⟩, ⟨true, .ccadd, 1, .ccrd, 3, .ccwait, 5, .cctake, 7⟩]

/-- A vector arithmetic instruction of OP 0x14: the fields it uses, its types, whether it rounds, its exact float result with the flags it
raises, and its integer result. -/
structure ArithRow where
  make : IssueV → Instr
  fn : Nat
  use : VUse
  typeOk : Nat → Bool
  round : Bool
  ff : RMode → FVal → FVal → FVal → FVal × FFlags
  fi : Int → Int → Int → Int
def arithRows : List ArithRow :=
  [⟨.vadd, 0, vabd, arithType, true, fun m a b _ => faddX m a b, fun a b _ => a + b⟩,
   ⟨.vsub, 1, vabd, arithType, true, fun m a b _ => faddX m a (fneg b), fun a b _ => a - b⟩,
   ⟨.vmul, 2, vabd, arithType, true, fun _ a b _ => fmulX a b, fun a b _ => a * b⟩,
   ⟨.vfma, 3, vabcd, arithType, true, fun m a b c => ffmaX m a b c, fun a b c => a * b + c⟩,
   ⟨.vdiv, 4, vabd, floatType, true, fun _ a b _ => fdivX a b, fun a _ _ => a⟩,
   ⟨.vsqrt, 5, vad, floatType, true, fun _ a _ _ => fsqrtX a, fun a _ _ => a⟩,
   ⟨.vmin, 6, vabd, arithType, false, fun _ a b _ => (fminX a b, {}), fun a b _ => min a b⟩,
   ⟨.vmax, 7, vabd, arithType, false, fun _ a b _ => (fmaxX a b, {}), fun a b _ => max a b⟩]
/-- Logical operations and shifts, on integer types. -/
def bitRows : List ((IssueV → Instr) × Nat × (Nat → Nat → Nat → Nat)) :=
  [(.vand, 8, fun _ a b => a &&& b), (.vor, 9, fun _ a b => a ||| b), (.vxor, 10, fun _ a b => a ^^^ b),
   (.vshl, 11, fun w a b => a * 2 ^ (b % w)), (.vshr, 12, fun w a b => a / 2 ^ (b % w))]
/-- What an arithmetic instruction makes of each element of its operands, and its flags (R57, R92, R106). -/
def laneResults (i : IssueV) (s : State) (r : ArithRow) : List (Nat × FFlags) :=
  let ety := i.ety.toNat
  let w := widthOf ety
  let a := (s.core i.core.val).vget i.thread.val i.va.toNat
  let b := (s.core i.core.val).vget i.thread.val i.vb.toNat
  let c := (s.core i.core.val).vget i.thread.val i.vc.toNat
  let m := (rmOf i.rm).getD .rne
  let f := fltOf ety
  (List.range (2048 / w)).map fun j =>
    if floatType ety then
      let v := r.ff m (fdecode f (elemAt w a j)) (fdecode f (elemAt w b j)) (fdecode f (elemAt w c j))
      let y := fround f m false ((i.th s).rnd m ((i.th s).gNat i.gs.toNat) j) v.1
      (y.1, v.2.or y.2)
    else (wrapTo w (r.fi (signedOf w (elemAt w a j)) (signedOf w (elemAt w b j)) (signedOf w (elemAt w c j))), {})
/-- What VEXT makes of an element (R490): an integer sign-extended, a float widened exactly to FP64. -/
def extValue (t : EType) (x : Nat) : BitVec 64 :=
  match t with
  | .flt f => if f = fmtFP64 then BitVec.ofNat 64 x else BitVec.ofNat 64 (fround fmtFP64 .rne false 0 (fdecode f x)).1
  | .int w => BitVec.ofInt 64 (signedOf w x)

/-! Commands at the berths. -/

/-- The request at slot `k` of berth `b` is served, carries `opcode` and waits for its reply; class 4 is not latched, or leaves the command served, and
the framing, with a payload of at least `need` bytes, is right (R328 to R331, R439). -/
def State.asked (s : State) (b k opcode need : Nat) (c : Cmd) : Prop :=
  s.request b k opcode = some c ∧ (s.gleaner.fatal = true → fatalServes b opcode = true) ∧ c.malformed need = false
/-- The same for a long command that finds room and may name its status address (R332). -/
def State.askedLong (s : State) (b k opcode need : Nat) (c : Cmd) : Prop :=
  s.asked b k opcode need c ∧ s.ops.length < 256 ∧ s.statusOk c = true
/-- The reply waits in the slot for BERTH_REPLY. -/
def State.answered (s : State) (b k : Nat) (c : Cmd) (r : Rep) : State := s.setRep b k (c.reply r)
/-- A long command has become operation `opNext`, which runs. -/
def State.started (s : State) (c : Cmd) (total : Nat) (work : List Nat) : State :=
  match s.newOp c total work with
  | .inl _ => s
  | .inr (n, t) => t.opState n 1 0
/-- A long command is accepted as operation `opNext`; `t` is what it leaves. -/
def State.accepts (s t : State) (b k : Nat) (c : Cmd) : State := t.answered b k c (Rep.accepted s.opNext)
/-- A long command is accepted and its whole effect `f` happens as its operation starts, which is to end done with result 0. -/
def State.acceptsDone (s : State) (b k : Nat) (c : Cmd) (f : State → State) : State :=
  s.accepts ((f (s.started c 0 [])).opFin s.opNext 2 0) b k c

/-- Stage `n` of bring-up runs and class 4 is not latched (R356, R357). -/
def State.inStage (s : State) (n : Nat) : Prop := s.bu.stage = n ∧ s.bu.st = .running ∧ s.gleaner.fatal = false
/-- What a stage's end does where its stage does not run, or class 4 is latched: nothing, or the stage fails with 0x7F (R370). -/
def State.outOfStage (s : State) (n : Nat) : State := if s.bu.stage = n ∧ s.bu.st = .running then s.buSet .failed 0x7F else s

end Sys2Proof.Machine
end

