-- ==== Sys2Proof/Certificates/Slice0/Obligations.lean ====
section
/-! DEFINITION. The statements about the block: what its commands do, what they leave unchanged, and what every step keeps. -/
open Sys2Proof Sys2Proof.Machine

/-! The queue. -/

/-- A step with a command at the front of the queue is that command's effect with the queue's rest (log 1). -/
def Obligations.StepRunsFront : Prop :=
  ∀ (c : Instr) (rest : List Instr) (s : State), s.pending = c :: rest → step s = exec c { s with pending := rest }

/-! Thread instructions (spec/04). -/

/-- R97, R98: the ALU instructions, CLZ and POPC, the immediate forms and the constants write their result to gD and nothing else. -/
def Obligations.IntegerResults : Prop :=
  (∀ r ∈ aluRows, ∀ (i : IssueA) (s : State), (i.site 0x01 r.2.1 .g .g .g true).goes s = true →
    ∃ t, exec (r.1 i) s = .next t ∧
      wroteG (i.site 0x01 r.2.1 .g .g .g true) i.d.toNat (r.2.2 ((i.th s).gr i.a.toNat) ((i.th s).gr i.b.toNat)) s t)
  ∧ (∀ (i : IssueA) (s : State), (i.site 0x01 19 .g .g .none true).goes s = true →
    ∃ t n, exec (.clz i) s = .next t ∧ wroteG (i.site 0x01 19 .g .g .none true) i.d.toNat (BitVec.ofNat 64 n) s t ∧ n ≤ 64
      ∧ (∀ b, 64 - n ≤ b → b < 64 → ((i.th s).gr i.a.toNat).getLsbD b = false)
      ∧ (n < 64 → ((i.th s).gr i.a.toNat).getLsbD (63 - n) = true))
  ∧ (∀ (i : IssueA) (s : State), (i.site 0x01 20 .g .g .none true).goes s = true →
    ∃ t, exec (.popc i) s = .next t ∧ wroteG (i.site 0x01 20 .g .g .none true) i.d.toNat
      (BitVec.ofNat 64 ((List.range 64).countP fun b => ((i.th s).gr i.a.toNat).getLsbD b)) s t)
  ∧ (∀ r ∈ immRows, ∀ (i : IssueI) (s : State), (i.site r.2.1 true true).goes s = true →
    ∃ t, exec (r.1 i) s = .next t ∧ wroteG (i.site r.2.1 true true) i.d.toNat
      (r.2.2 ((i.th s).gr i.a.toNat) (i.imm.signExtend 64)) s t)
  ∧ (∀ (i : IssueI) (s : State), (i.site 0x06 true (decide (i.imm.toNat < 192))).goes s = true →
    ∃ t, exec (.shi i) s = .next t ∧ wroteG (i.site 0x06 true (decide (i.imm.toNat < 192))) i.d.toNat
      (let a := (i.th s).gr i.a.toNat
       let n := i.imm.toNat % 64
       if i.imm.toNat < 64 then a <<< n else if i.imm.toNat < 128 then a >>> n else a.sshiftRight n) s t)
  ∧ (∀ (i : IssueK) (s : State), (i.site 0x07 0).goes s = true →
    ∃ t, exec (.movi i) s = .next t ∧ wroteG (i.site 0x07 0) i.d.toNat (i.imm.signExtend 64) s t)
  ∧ (∀ (i : IssueK) (s : State), (i.site 0x07 1).goes s = true →
    ∃ t, exec (.movhi i) s = .next t
      ∧ wroteG (i.site 0x07 1) i.d.toNat (i.imm ++ ((i.th s).gr i.d.toNat).setWidth 32) s t)

/-- R97: comparisons and predicate instructions write one predicate, PTOG a g register, GTOP p1 to p7, and nothing else. -/
def Obligations.PredicateResults : Prop :=
  (∀ r ∈ cmpRows, ∀ (i : IssueA) (s : State), (i.site 0x08 r.1 .p .g .g true).goes s = true →
    ∃ t, exec (.cmp i (BitVec.ofNat 7 r.1)) s = .next t ∧ wroteP (i.site 0x08 r.1 .p .g .g true) i.d.toNat
      (r.2 ((i.th s).gr i.a.toNat) ((i.th s).gr i.b.toNat)) s t)
  ∧ (∀ r ∈ cmpRows, r.1 < 4 → ∀ (i : IssueI) (s : State), i.d.toNat / 8 = r.1 → (i.site 0x09 false true).goes s = true →
    ∃ t, exec (.cmpi i) s = .next t ∧ wroteP (i.site 0x09 false true) (i.d.toNat % 8)
      (r.2 ((i.th s).gr i.a.toNat) (i.imm.signExtend 64)) s t)
  ∧ (∀ r ∈ predRows, ∀ (i : IssueA) (s : State), (i.site 0x0A r.2.1 .p .p .p true).goes s = true →
    ∃ t, exec (r.1 i) s = .next t ∧ wroteP (i.site 0x0A r.2.1 .p .p .p true) i.d.toNat
      (r.2.2 ((i.th s).pr i.a.toNat) ((i.th s).pr i.b.toNat)) s t)
  ∧ (∀ (i : IssueA) (s : State), (i.site 0x0A 4 .g .none .none true).goes s = true →
    ∃ t v, exec (.ptog i) s = .next t ∧ wroteG (i.site 0x0A 4 .g .none .none true) i.d.toNat v s t
      ∧ ∀ n, v.getLsbD n = (decide (n < 8) && (i.th s).pr n))
  ∧ ∀ (i : IssueA) (s : State), (i.site 0x0A 5 .none .g .none true).goes s = true →
    ∃ t, exec (.gtop i) s = .next t
      ∧ (∀ n, n < 8 → (i.th t).pr n = (decide (n = 0) || ((i.th s).gr i.a.toNat).getLsbD n))
      ∧ { i.th t with p := (i.th s).p, pc := (i.th s).pc } = i.th s ∧ (i.th t).pc = (i.th s).pc + 4
      ∧ onlyIssued i.core.val i.thread.val s t ∧ sameMemory s t

/-- R97, Table 4-13: a branch goes to PC + 4·OFF22, BRL with PC + 4 in g31 first, JR to gA with PC + 4 in gD; JR to a target that is no
multiple of 4 faults with the target in FADDR. -/
def Obligations.BranchTargets : Prop :=
  (∀ (i : IssueJ) (s : State), (i.site 0x10 []).goes s = true →
    ∃ t, exec (.br i) s = .next t ∧ (((i.th t).pc : Int) = ((i.th s).pc + 4 * i.off.toInt) % 2 ^ 64)
      ∧ { i.th t with pc := (i.th s).pc } = i.th s ∧ onlyIssued i.core.val i.thread.val s t ∧ sameMemory s t)
  ∧ (∀ (i : IssueJ) (s : State), (i.site 0x11 [31]).goes s = true →
    ∃ t, exec (.brl i) s = .next t ∧ (((i.th t).pc : Int) = ((i.th s).pc + 4 * i.off.toInt) % 2 ^ 64)
      ∧ (∀ n, (i.th t).gr n = if n = 31 then BitVec.ofNat 64 ((i.th s).pc + 4) else (i.th s).gr n)
      ∧ { i.th t with g := (i.th s).g, pc := (i.th s).pc } = i.th s ∧ onlyIssued i.core.val i.thread.val s t ∧ sameMemory s t)
  ∧ (∀ (i : IssueA) (s : State), (i.site 0x12 0 .g .g .none true).goes s = true → (i.th s).gNat i.a.toNat % 4 = 0 →
    ∃ t, exec (.jr i) s = .next t ∧ (i.th t).pc = (i.th s).gNat i.a.toNat
      ∧ (∀ n, (i.th t).gr n = if n = i.d.toNat ∧ n ≠ 0 then BitVec.ofNat 64 ((i.th s).pc + 4) else (i.th s).gr n)
      ∧ { i.th t with g := (i.th s).g, pc := (i.th s).pc } = i.th s ∧ onlyIssued i.core.val i.thread.val s t ∧ sameMemory s t)
  ∧ ∀ (i : IssueA) (s : State), (i.site 0x12 0 .g .g .none true).goes s = true → (i.th s).gNat i.a.toNat % 4 ≠ 0 →
    exec (.jr i) s = .next ((i.site 0x12 0 .g .g .none true).trap s 0x05 ((i.th s).gNat i.a.toNat))

/-- R99, R101, R103: local loads, stores and atomics of any size, and the descriptor and area instructions, begin their access when its address
passes R101's checks: it joins the thread's accesses with the PC past the instruction, and its first row is served at once where the bank is
free; where it is delayed the thread's list of accesses is all that changes. A load or store whose address fails a check raises that check's
exception. -/
def Obligations.LocalAccessesBegin : Prop :=
  (∀ (i : IssueM) (acc : BankAcc) (s : State), (i.site 0x18).goes s = true → localCheck .load (i.addr s) (szBytes i.sz) (szBytes i.sz) = none →
    exec (.ldl i acc) s = .next ((i.site 0x18).after s (s.bankStart i.core.val i.thread.val
      ⟨.load i.d.toNat (szBytes i.sz) (szSigned i.sz), (i.th s).pc, i.addr s, szBytes i.sz, [], false⟩ acc)))
  ∧ (∀ (i : IssueM) (acc : BankAcc) (s : State), (i.site 0x19).goes s = true → localCheck .store (i.addr s) (szBytes i.sz) (szBytes i.sz) = none →
    exec (.stl i acc) s = .next ((i.site 0x19).after s (s.bankStart i.core.val i.thread.val
      ⟨.store (leBytes (szBytes i.sz) ((i.th s).gNat i.d.toNat)), (i.th s).pc, i.addr s, szBytes i.sz, [], false⟩ acc)))
  ∧ (∀ (i : IssueA) (fn : BitVec 7) (acc : BankAcc) (s : State), (i.site 0x20 fn.toNat .g .g .g (decide (fn.toNat ≤ 9))).goes s = true →
    localCheck .atomic ((i.th s).gNat i.a.toNat) 8 8 = none →
    exec (.atoml i fn acc) s = .next ((i.site 0x20 fn.toNat .g .g .g (decide (fn.toNat ≤ 9))).after s (s.bankStart i.core.val i.thread.val
      ⟨.atomic fn.toNat i.d.toNat ((i.th s).gr i.b.toNat) ((i.th s).gr i.d.toNat), (i.th s).pc, (i.th s).gNat i.a.toNat, 8, [], false⟩ acc)))
  ∧ (∀ (i : IssueV) (acc : BankAcc) (s : State), (i.site 0x16 0 vmem true true).goes s = true → i.vd.toNat < (i.th s).vmap.length →
    localCheck .load (i.addr s) 256 64 = none →
    exec (.vldl i acc) s = .next ((i.site 0x16 0 vmem true true).after s (s.bankStart i.core.val i.thread.val
      ⟨.vload i.vd.toNat, (i.th s).pc, i.addr s, 256, [], false⟩ acc)))
  ∧ (∀ (i : IssueV) (acc : BankAcc) (s : State), (i.site 0x16 1 vmem true true).goes s = true → i.vd.toNat < (i.th s).vmap.length →
    localCheck .store (i.addr s) 256 64 = none →
    exec (.vstl i acc) s = .next ((i.site 0x16 1 vmem true true).after s (s.bankStart i.core.val i.thread.val
      ⟨.store (leBytes 256 ((s.core i.core.val).vget i.thread.val i.vd.toNat)), (i.th s).pc, i.addr s, 256, [], false⟩ acc)))
  ∧ (∀ (i : IssueA) (acc : BankAcc) (s : State), (i.site 0x1C 0 .g .g .g true).goes s = true →
    1 ≤ (i.th s).gNat i.d.toNat → (i.th s).gNat i.d.toNat ≤ 256 → (i.th s).gNat i.a.toNat % 64 = 0 → (i.th s).gNat i.a.toNat < 2 ^ 48 →
    localCheck .load ((i.th s).gNat i.b.toNat) ((i.th s).gNat i.d.toNat) 64 = none → (s.core i.core.val).spanRoom i.thread.val true = true →
    exec (.stsb i acc) s = .next ((i.site 0x1C 0 .g .g .g true).after s (s.bankStart i.core.val i.thread.val
      ⟨.stsb ((i.th s).gNat i.a.toNat), (i.th s).pc, (i.th s).gNat i.b.toNat, (i.th s).gNat i.d.toNat, [], false⟩ acc)))
  ∧ (∀ (i : IssueA) (acc : BankAcc) (s : State), (i.site 0x24 0 .g .g .none true).goes s = true →
    localAllowed .load ((i.th s).gNat i.a.toNat) 64 = true →
    exec (.copy i acc) s = .next ((i.site 0x24 0 .g .g .none true).after s (s.bankStart i.core.val i.thread.val
      ⟨.copy i.d.toNat, (i.th s).pc, (i.th s).gNat i.a.toNat, 64, [], false⟩ acc)))
  ∧ (∀ (i : IssueA) (acc : BankAcc) (s : State), (i.site 0x34 0 .g .g .none true).goes s = true →
    localAllowed .load ((i.th s).gNat i.a.toNat) 64 = true →
    exec (.shsubmit i acc) s = .next ((i.site 0x34 0 .g .g .none true).after s (s.bankStart i.core.val i.thread.val
      ⟨.shsubmit i.d.toNat, (i.th s).pc, (i.th s).gNat i.a.toNat, 64, [], false⟩ acc)))
  ∧ (∀ (i : IssueA) (acc : BankAcc) (s : State), (i.site 0x30 0 .g .g .g true).goes s = true →
    1 ≤ (i.th s).gNat i.b.toNat → (i.th s).gNat i.d.toNat + (i.th s).gNat i.b.toNat ≤ 4096 →
    localAllowed .load ((i.th s).gNat i.a.toNat) ((i.th s).gNat i.b.toNat) = true →
    exec (.mbput i acc) s = .next ((i.site 0x30 0 .g .g .g true).after s (s.bankStart i.core.val i.thread.val
      ⟨.mbput ((i.th s).gNat i.d.toNat), (i.th s).pc, (i.th s).gNat i.a.toNat, (i.th s).gNat i.b.toNat, [], false⟩ acc)))
  ∧ (∀ (i : IssueA) (acc : BankAcc) (s : State) (b : Nat), (i.site 0x30 1 .g .g .g true).goes s = true → s.coreBarn i.core.val = some b →
    1 ≤ (i.th s).gNat i.b.toNat → (i.th s).gNat i.d.toNat + (i.th s).gNat i.b.toNat ≤ 4096 →
    localAllowed .store ((i.th s).gNat i.a.toNat) ((i.th s).gNat i.b.toNat) = true →
    s.admits b (s.threadId i.core.val i.thread.val) = true →
    exec (.mbget i acc) s = .next ((i.site 0x30 1 .g .g .g true).after s (s.bankStart i.core.val i.thread.val
      ⟨.store ((List.range ((i.th s).gNat i.b.toNat)).map fun k =>
          (s.berth b).readByte (s.threadId i.core.val i.thread.val) ((i.th s).gNat i.d.toNat + k)),
        (i.th s).pc, (i.th s).gNat i.a.toNat, (i.th s).gNat i.b.toNat, [], false⟩ acc)))
  ∧ (∀ (i : IssueM) (acc : BankAcc) (s : State) (code x : Nat), (i.site 0x18).goes s = true →
    localCheck .load (i.addr s) (szBytes i.sz) (szBytes i.sz) = some (code, x) → exec (.ldl i acc) s = .next ((i.site 0x18).trap s code x))
  ∧ (∀ (i : IssueM) (acc : BankAcc) (s : State) (code x : Nat), (i.site 0x19).goes s = true →
    localCheck .store (i.addr s) (szBytes i.sz) (szBytes i.sz) = some (code, x) → exec (.stl i acc) s = .next ((i.site 0x19).trap s code x))
  ∧ ∀ (s : State) (c t : Nat) (o : BankOp), { s.bankStart c t o .delayed with cores := s.cores } = s
    ∧ ((s.bankStart c t o .delayed).th c t) = { s.th c t with bankOps := (s.th c t).bankOps ++ [o] }
    ∧ (∀ d u, (d, u) ≠ (c, t) → (s.bankStart c t o .delayed).th d u = s.th d u)

/-- R97, R100, R102: an access at the head of a thread's queue whose row the bank serves without an error, inbound delivery waiting for no bank. A
load that ends there writes its extended value to gD and changes no memory; a store writes its bytes at its address in SRAM and every other byte,
of SRAM and of HBM, reads as before. -/
def Obligations.BankAccessRow : Prop :=
  (∀ (c : CoreId) (k : ThreadId) (s : State) (gd n pc a : Nat) (sg : Bool), (s.core c.val).power = .running → (s.core c.val).inboundAt a = false →
    (s.th c.val k.val).bankOps = [⟨.load gd n sg, pc, a, n, [], false⟩] → n ∈ [1, 2, 4, 8] → a % n = 0 → a + n ≤ 0x60000 →
    ∃ t, exec (.threadBankAccess c k .ok) s = .next t
      ∧ (∀ m, (t.th c.val k.val).gr m = if m = gd ∧ m ≠ 0 then
          (if sg then BitVec.ofInt 64 (signedOf (8 * n) (leVal (memRead (s.core c.val).sram a n)))
           else BitVec.ofNat 64 (leVal (memRead (s.core c.val).sram a n)))
        else (s.th c.val k.val).gr m)
      ∧ { t.th c.val k.val with g := (s.th c.val k.val).g, bankOps := (s.th c.val k.val).bankOps } = s.th c.val k.val
      ∧ (t.th c.val k.val).bankOps = [] ∧ onlyThread c.val k.val s t ∧ sameMemory s t)
  ∧ (∀ (c : CoreId) (k : ThreadId) (s : State) (bs : List Byte) (pc a : Nat), (s.core c.val).power = .running → (s.core c.val).inboundAt a = false →
    (s.th c.val k.val).bankOps = [⟨.store bs, pc, a, bs.length, [], false⟩] → 1 ≤ bs.length → a % 64 + bs.length ≤ 64 → a + bs.length ≤ 0x60000 →
    ∃ t, exec (.threadBankAccess c k .ok) s = .next t
      ∧ (∀ x, memGet (t.core c.val).sram x = if a ≤ x ∧ x < a + bs.length then bs.getD (x - a) 0 else memGet (s.core c.val).sram x)
      ∧ (∀ d, d ≠ c.val → t.core d = s.core d) ∧ (∀ x, memGet t.hbm x = memGet s.hbm x)
      ∧ (∀ x, memGet (t.core c.val).istore x = memGet (s.core c.val).istore x)
      ∧ { t.th c.val k.val with bankOps := (s.th c.val k.val).bankOps } = s.th c.val k.val ∧ (t.th c.val k.val).bankOps = []
      ∧ (∀ j, j ≠ k.val → t.th c.val j = s.th c.val j)
      ∧ { t with cores := s.cores } = s)
  ∧ ∀ (c : CoreId) (k : ThreadId) (s : State) (e : Ecc) (o : BankOp) (l : List BankOp), (s.th c.val k.val).bankOps = o :: l →
    (s.core c.val).power ≠ .running ∨ (s.core c.val).inboundAt o.addr = true → exec (.threadBankAccess c k e) s = .next s

/-- R100, R103, R104, R230: a span access for which there is room and no refusal at the source is sent as a request of its core; a posted store behind
an STSB that still reads its source waits its turn; a load refused at its source raises "load completion error" with the status. -/
def Obligations.SpanAccessesSent : Prop :=
  (∀ (i : IssueM) (s u : State), (i.site 0x1A).goes s = true → i.addr s % szBytes i.sz = 0 → i.addr s < 2 ^ 48 →
    (s.core i.core.val).spanRoom i.thread.val false = true →
    s.sendReq i.core.val (.load i.thread.val i.d.toNat (szBytes i.sz) (szSigned i.sz)) 0 (i.th s).pc 0x01 (i.addr s) (leBytes 4 (szBytes i.sz)) = (none, u) →
    exec (.lds i) s = .next ((i.site 0x1A).after s u))
  ∧ (∀ (i : IssueM) (s u : State), (i.site 0x1B).goes s = true → i.addr s % szBytes i.sz = 0 → i.addr s < 2 ^ 48 →
    (s.core i.core.val).spanRoom i.thread.val true = true → (i.th s).bankOps.any BankOp.isSpan = false →
    s.sendReq i.core.val (.store i.thread.val) 0 (i.th s).pc 0x02 (i.addr s) (leBytes (szBytes i.sz) ((i.th s).gNat i.d.toNat)) = (none, u) →
    exec (.sts i) s = .next ((i.site 0x1B).after s u))
  ∧ (∀ (i : IssueA) (fn : BitVec 7) (s u : State), (i.site 0x21 fn.toNat .g .g .g (decide (fn.toNat ≤ 9))).goes s = true →
    (i.th s).gNat i.a.toNat % 8 = 0 → (i.th s).gNat i.a.toNat < 2 ^ 48 → (s.core i.core.val).spanRoom i.thread.val false = true →
    s.sendReq i.core.val (.atomic i.thread.val i.d.toNat) 0 (i.th s).pc (0x20 + fn.toNat) ((i.th s).gNat i.a.toNat)
      (leBytes 8 ((i.th s).gNat i.b.toNat) ++ leBytes 8 ((i.th s).gNat i.d.toNat)) = (none, u) →
    exec (.atoms i fn) s = .next ((i.site 0x21 fn.toNat .g .g .g (decide (fn.toNat ≤ 9))).after s u))
  ∧ (∀ (i : IssueV) (s u : State), (i.site 0x16 2 vmem true true).goes s = true → i.vd.toNat < (i.th s).vmap.length →
    i.addr s % 64 = 0 → i.addr s < 2 ^ 48 → (s.core i.core.val).spanRoom i.thread.val false = true →
    s.sendReq i.core.val (.vload i.thread.val ((i.th s).vmap.getD i.vd.toNat 0) i.vd.toNat) 0 (i.th s).pc 0x01 (i.addr s) (leBytes 4 256) = (none, u) →
    exec (.vlds i) s = .next ((i.site 0x16 2 vmem true true).after s u))
  ∧ (∀ (i : IssueV) (s u : State), (i.site 0x16 3 vmem true true).goes s = true → i.vd.toNat < (i.th s).vmap.length →
    i.addr s % 64 = 0 → i.addr s < 2 ^ 48 → (s.core i.core.val).spanRoom i.thread.val true = true →
    (i.th s).bankOps.any BankOp.isSpan = false → s.sendReq i.core.val (.store i.thread.val) 0 (i.th s).pc 0x02 (i.addr s) (leBytes 256 ((s.core i.core.val).vget i.thread.val i.vd.toNat)) = (none, u) →
    exec (.vsts i) s = .next ((i.site 0x16 3 vmem true true).after s u))
  ∧ (∀ (i : IssueM) (s : State), (i.site 0x1B).goes s = true → i.addr s % szBytes i.sz = 0 → i.addr s < 2 ^ 48 →
    (s.core i.core.val).spanRoom i.thread.val true = true → (i.th s).bankOps.any BankOp.isSpan = true →
    exec (.sts i) s = .next ((i.site 0x1B).after s (s.setTh i.core.val i.thread.val { i.th s with
      bankOps := (i.th s).bankOps ++ [⟨.span (i.addr s) (leBytes (szBytes i.sz) ((i.th s).gNat i.d.toNat)), (i.th s).pc, 0, 0, [], false⟩] })))
  ∧ (∀ (i : IssueM) (s u : State) (st : Nat), (i.site 0x1A).goes s = true → i.addr s % szBytes i.sz = 0 → i.addr s < 2 ^ 48 →
    (s.core i.core.val).spanRoom i.thread.val false = true →
    s.sendReq i.core.val (.load i.thread.val i.d.toNat (szBytes i.sz) (szSigned i.sz)) 0 (i.th s).pc 0x01 (i.addr s) (leBytes 4 (szBytes i.sz))
      = (some st, u) →
    exec (.lds i) s = .next ((u.issued i.core.val i.thread.val).raise i.core.val i.thread.val 0x08 st 0 (i.th s).pc (i.addr s)))
  ∧ ∀ (s : State) (c : Nat) (who : Waiter) (skind pc op addr : Nat) (payload : List Byte) (u : State),
    s.sendReq c who skind pc op addr payload = (none, u) →
    ∃ r, (u.core c).reqs = (s.core c).reqs ++ [r] ∧ r.who = who ∧ r.addr = addr ∧ r.pc = pc ∧ r.dead = false ∧ u.hbm = s.hbm

/-- R100, R254: fences with nothing to await, SYNCI with no write to the store in flight, and the tally instructions complete at once; a
fence or TWAIT whose condition does not hold yet leaves the thread waiting, and SYNCI waits by not issuing. -/
def Obligations.FencesAndTallies : Prop :=
  (∀ (i : IssueA) (s : State), (i.site 0x1D 0 .none .none .none true).goes s = true → (s.core i.core.val).spanPending i.thread.val false = false →
    exec (.fenceS i) s = .next ((i.site 0x1D 0 .none .none .none true).after s s))
  ∧ (∀ (i : IssueA) (s : State), (i.site 0x1D 1 .none .none .none true).goes s = true → (s.core i.core.val).spanPending i.thread.val true = false →
    exec (.fenceA i) s = .next ((i.site 0x1D 1 .none .none .none true).after s s))
  ∧ (∀ (i : IssueA) (s : State), (i.site 0x1D 1 .none .none .none true).goes s = true → (s.core i.core.val).spanPending i.thread.val true = true →
    exec (.fenceA i) s = .next ((i.site 0x1D 1 .none .none .none true).after s
      (s.setTh i.core.val i.thread.val { i.th s with st := .waiting (.fence true) })))
  ∧ (∀ (i : IssueA) (s : State), (i.site 0x1D 0 .none .none .none true).goes s = true → (s.core i.core.val).spanPending i.thread.val false = true →
    exec (.fenceS i) s = .next ((i.site 0x1D 0 .none .none .none true).after s
      (s.setTh i.core.val i.thread.val { i.th s with st := .waiting (.fence false) })))
  ∧ (∀ (i : IssueA) (s : State), (i.site 0x1E 0 .none .none .none true).goes s = true → (s.core i.core.val).istoreBusy = false →
    exec (.synci i) s = .next ((i.site 0x1E 0 .none .none .none true).after s
      (s.setTh i.core.val i.thread.val { i.th s with sync := (s.core i.core.val).iHist.length })))
  ∧ (∀ (i : IssueA) (s : State), (i.site 0x1E 0 .none .none .none true).goes s = true → (s.core i.core.val).istoreBusy = true →
    exec (.synci i) s = .next s)
  ∧ (∀ (i : IssueA) (s : State), (i.site 0x24 1 .none .g .g true).goes s = true → (i.th s).gNat i.a.toNat ≤ 1023 →
    tallyMet (s.tally (coreCluster i.core.val) ((i.th s).gNat i.a.toNat)) ((i.th s).gNat i.b.toNat % 2 ^ 32) = true →
    exec (.twait i) s = .next ((i.site 0x24 1 .none .g .g true).after s s))
  ∧ (∀ (i : IssueA) (s : State), (i.site 0x24 1 .none .g .g true).goes s = true → (i.th s).gNat i.a.toNat ≤ 1023 →
    tallyMet (s.tally (coreCluster i.core.val) ((i.th s).gNat i.a.toNat)) ((i.th s).gNat i.b.toNat % 2 ^ 32) = false →
    exec (.twait i) s = .next ((i.site 0x24 1 .none .g .g true).after s (s.setTh i.core.val i.thread.val { i.th s with
      st := .waiting (.tally ((i.th s).gNat i.a.toNat) ((i.th s).gNat i.b.toNat % 2 ^ 32)) })))
  ∧ (∀ (i : IssueA) (s : State), (i.site 0x24 2 .g .g .none true).goes s = true → (i.th s).gNat i.a.toNat ≤ 1023 →
    ∃ t, exec (.trd i) s = .next t ∧ wroteG (i.site 0x24 2 .g .g .none true) i.d.toNat
      (BitVec.ofNat 64 (s.tally (coreCluster i.core.val) ((i.th s).gNat i.a.toNat))) s t)
  ∧ ∀ (i : IssueA) (s : State), (i.site 0x24 3 .none .g .g true).goes s = true → (i.th s).gNat i.a.toNat ≤ 1023 →
    ∃ t, exec (.tset i) s = .next t
      ∧ (∀ g n, t.tally g n = if g = coreCluster i.core.val ∧ n = (i.th s).gNat i.a.toNat then (i.th s).gNat i.b.toNat % 2 ^ 32 else s.tally g n)
      ∧ i.th t = { i.th s with pc := (i.th s).pc + 4 } ∧ onlyIssued i.core.val i.thread.val { s with gateways := t.gateways } t ∧ sameMemory s t

/-- R57, R92, R105, R106: a vector arithmetic or bitwise instruction that may execute, every register it names below VCOUNT, writes vd and FPFLAGS
alone: on an integer type each element is the operation on the elements of va, vb and vc, wrapped to the width, and no flag changes; on a float
type each is the exact result rounded, and the elements' flags join FPFLAGS. One register it names at or above VCOUNT raises "vector register not
allocated" with that register in FADDR. -/
def Obligations.VectorArithmetic : Prop :=
  (∀ r ∈ arithRows, ∀ (i : IssueV) (s : State) (x : Site), x = i.site 0x14 r.fn (arithUse i r.use r.round) true (arithOk i r.typeOk r.round) →
    x.goes s = true → (∀ v ∈ (arithUse i r.use r.round).regs true i, v < (i.th s).vmap.length) →
    ∃ t, exec (r.make i) s = .next t
      ∧ wroteV x i.vd.toNat (elements (widthOf i.ety.toNat) (laneResults i s r)) (flagsOf (laneResults i s r)) id s t)
  ∧ (∀ r ∈ bitRows, ∀ (i : IssueV) (s : State) (x : Site), x = i.site 0x14 r.2.1 { vabd with ety := true } true (intType i.ety.toNat) →
    x.goes s = true → (∀ v ∈ [i.vd.toNat, i.va.toNat, i.vb.toNat], v < (i.th s).vmap.length) →
    ∃ t, exec (r.1 i) s = .next t
      ∧ wroteV x i.vd.toNat (packElems (widthOf i.ety.toNat) ((List.range (2048 / widthOf i.ety.toNat)).map fun j =>
        r.2.2 (widthOf i.ety.toNat) (elemAt (widthOf i.ety.toNat) ((s.core i.core.val).vget i.thread.val i.va.toNat) j)
          (elemAt (widthOf i.ety.toNat) ((s.core i.core.val).vget i.thread.val i.vb.toNat) j))) {} id s t)
  ∧ ∀ r ∈ arithRows, ∀ (i : IssueV) (s : State) (x : Site) (v : Nat),
    x = i.site 0x14 r.fn (arithUse i r.use r.round) true (arithOk i r.typeOk r.round) →
    x.goes s = true → (arithUse i r.use r.round).missing true i s = [v] → exec (r.make i) s = .next (x.trap s 0x04 v)

/-- R92, R106, R490: a conversion that may execute writes what the spec gives it and changes nothing else. VCVT converts the group of elements that
IMM12 selects into the low elements of vd; VBCAST gives every element of vd the value of gS; VEXT writes one element to gS; VMXPACK makes two MX
blocks of va's 64 FP32 elements, with the scales in gS; VMXUNPACK makes 64 FP32 elements, each scaled by its block's scale in gS. A group or element
that IMM12 names past the last raises "bad operand". -/
def Obligations.VectorConversions : Prop :=
  (∀ (i : IssueV) (s : State) (x : Site) (td ts : EType) (m : RMode), x = i.site 0x15 0 (vcvtUse i) false (vcvtOk i) → x.goes s = true →
    etypeOf i.ety.toNat = some td → i.vb.toNat < 32 → etypeOf i.vb.toNat = some ts → rmOf i.rm = some m →
    i.vd.toNat < (i.th s).vmap.length → i.va.toNat < (i.th s).vmap.length → i.imm.toNat < ts.count / min td.count ts.count →
    let rs := (List.range (min td.count ts.count)).map fun j =>
      td.conv m i.sat ((i.th s).rnd m ((i.th s).gNat i.gs.toNat) (i.imm.toNat * min td.count ts.count + j))
        (ts.value (elemAt ts.width ((s.core i.core.val).vget i.thread.val i.va.toNat) (i.imm.toNat * min td.count ts.count + j)))
    ∃ t, exec (.vcvt i) s = .next t ∧ wroteV x i.vd.toNat (elements td.width rs) (flagsOf rs) id s t)
  ∧ (∀ (i : IssueV) (s : State) (x : Site) (td ts : EType), x = i.site 0x15 0 (vcvtUse i) false (vcvtOk i) → x.goes s = true →
    etypeOf i.ety.toNat = some td → i.vb.toNat < 32 → etypeOf i.vb.toNat = some ts →
    i.vd.toNat < (i.th s).vmap.length → i.va.toNat < (i.th s).vmap.length → ts.count / min td.count ts.count ≤ i.imm.toNat →
    exec (.vcvt i) s = .next (x.trap s 0x0C i.imm.toNat))
  ∧ (∀ (i : IssueV) (s : State) (x : Site) (td : EType) (m : RMode), x = i.site 0x16 4 (vbcastUse i) true (vbcastOk i) → x.goes s = true →
    etypeOf i.ety.toNat = some td → rmOf i.rm = some m → i.vd.toNat < (i.th s).vmap.length →
    let r := td.conv m i.sat ((i.th s).rnd m 0 0) (td.ofG ((i.th s).gNat i.gs.toNat))
    ∃ t, exec (.vbcast i) s = .next t ∧ wroteV x i.vd.toNat (packElems td.width (List.replicate td.count r.1)) r.2 id s t)
  ∧ (∀ (i : IssueV) (s : State) (x : Site) (td : EType), x = i.site 0x16 5 vextUse true (etypeOf i.ety.toNat).isSome → x.goes s = true →
    etypeOf i.ety.toNat = some td → i.va.toNat < (i.th s).vmap.length → i.imm.toNat < td.count →
    ∃ t, exec (.vext i) s = .next t ∧ wroteG x i.gs.toNat
      (extValue td (elemAt td.width ((s.core i.core.val).vget i.thread.val i.va.toNat) i.imm.toNat)) s t)
  ∧ (∀ (i : IssueV) (s : State) (x : Site) (td : EType), x = i.site 0x16 5 vextUse true (etypeOf i.ety.toNat).isSome → x.goes s = true →
    etypeOf i.ety.toNat = some td → i.va.toNat < (i.th s).vmap.length → td.count ≤ i.imm.toNat →
    exec (.vext i) s = .next (x.trap s 0x0C i.imm.toNat))
  ∧ (∀ (i : IssueV) (s : State) (x : Site) (f : FFmt) (m : RMode), x = i.site 0x15 1 vmxpackUse true (vmxpackOk i) → x.goes s = true →
    mxOf i.ety.toNat = some f → rmOf i.rm = some m → i.vd.toNat < (i.th s).vmap.length → i.va.toNat < (i.th s).vmap.length →
    let blk (b : Nat) := mxPack f m ((List.range 32).map fun j => (i.th s).rnd m ((i.th s).gNat i.gs.toNat) (32 * b + j))
      ((List.range 32).map fun j => fdecode fmtFP32 (elemAt 32 ((s.core i.core.val).vget i.thread.val i.va.toNat) (32 * b + j)))
    ∃ t, exec (.vmxpack i) s = .next t
      ∧ wroteV x i.vd.toNat (packElems f.width ((blk 0).2.1 ++ (blk 1).2.1)) ((blk 0).2.2.or (blk 1).2.2)
        (fun h => h.setG i.gs.toNat (BitVec.ofNat 64 ((blk 0).1 + 256 * (blk 1).1))) s t)
  ∧ ∀ (i : IssueV) (s : State) (x : Site) (f : FFmt), x = i.site 0x15 2 vmxunpackUse true (mxOf i.ety.toNat).isSome → x.goes s = true →
    mxOf i.ety.toNat = some f → i.vd.toNat < (i.th s).vmap.length → i.va.toNat < (i.th s).vmap.length →
    let rs := (List.range 64).map fun j => fround fmtFP32 .rne false 0 (mxScaled f
      (bitsAt ((i.th s).gNat i.gs.toNat) (8 * (j / 32)) 8) (elemAt f.width ((s.core i.core.val).vget i.thread.val i.va.toNat) j))
    ∃ t, exec (.vmxunpack i) s = .next t ∧ wroteV x i.vd.toNat (elements 32 rs) (flagsOf rs) id s t

/-- R79, R80, R107, R137: PLAUNCH of a valid, unlocked entry with room in the queue takes the next sequence number and the thread's rounding key, and
waits where the queue is full; an entry that is not valid, is locked or does not exist raises "bad operand". PWAIT and PSTAT of an ended launch
give its outcome, of a live one PWAIT waits and PSTAT gives 3; PCANCEL of a queued launch that is not armed gives 0 and records it as cancelled; PCLR
releases a held queue. -/
def Obligations.PhaseInstructions : Prop :=
  (∀ (i : IssueA) (s : State), (i.site 0x28 0 .g .g .none true).goes s = true →
    (i.th s).gNat i.a.toNat ≤ 63 → (s.core i.core.val).valid.contains ((i.th s).gNat i.a.toNat) = true →
    (s.core i.core.val).locked.contains ((i.th s).gNat i.a.toNat) = false → (s.core i.core.val).queued < 8 →
    ∃ t, exec (.plaunch i) s = .next t
      ∧ (t.core i.core.val).launchSeq = ((s.core i.core.val).launchSeq + 1) % 2 ^ 32
      ∧ (t.core i.core.val).queue = (s.core i.core.val).queue ++
        [⟨(s.core i.core.val).launchSeq, (i.th s).gNat i.a.toNat, (i.th s).srSeed, (i.th s).srTag, (i.th s).srStep, false⟩]
      ∧ (∀ n, (i.th t).gr n = if n = i.d.toNat ∧ n ≠ 0 then BitVec.ofNat 64 (s.core i.core.val).launchSeq else (i.th s).gr n)
      ∧ { i.th t with g := (i.th s).g, pc := (i.th s).pc } = i.th s ∧ (i.th t).pc = (i.th s).pc + 4
      ∧ (∀ j, j ≠ i.thread.val → t.th i.core.val j = s.th i.core.val j)
      ∧ { t.core i.core.val with threads := (s.core i.core.val).threads, launchSeq := (s.core i.core.val).launchSeq
                                 queue := (s.core i.core.val).queue, outcomes := (s.core i.core.val).outcomes }
        = (s.core i.core.val).issued i.thread.val
      ∧ { t with cores := s.cores } = s ∧ (∀ d, d ≠ i.core.val → t.core d = s.core d) ∧ sameMemory s t)
  ∧ (∀ (i : IssueA) (s : State), (i.site 0x28 0 .g .g .none true).goes s = true →
    (i.th s).gNat i.a.toNat ≤ 63 → (s.core i.core.val).valid.contains ((i.th s).gNat i.a.toNat) = true →
    (s.core i.core.val).locked.contains ((i.th s).gNat i.a.toNat) = false → 8 ≤ (s.core i.core.val).queued →
    exec (.plaunch i) s = .next ((i.site 0x28 0 .g .g .none true).after s (s.setTh i.core.val i.thread.val
      { i.th s with st := .waiting (.launch ((i.th s).gNat i.a.toNat) i.d.toNat) })))
  ∧ (∀ (i : IssueA) (s : State), (i.site 0x28 0 .g .g .none true).goes s = true →
    63 < (i.th s).gNat i.a.toNat ∨ (s.core i.core.val).valid.contains ((i.th s).gNat i.a.toNat) = false
      ∨ (s.core i.core.val).locked.contains ((i.th s).gNat i.a.toNat) = true →
    exec (.plaunch i) s = .next ((i.site 0x28 0 .g .g .none true).trap s 0x0C ((i.th s).gNat i.a.toNat)))
  ∧ (∀ (i : IssueA) (s : State) (v : Nat), (i.site 0x28 1 .g .g .none true).goes s = true →
    (s.core i.core.val).launchView ((i.th s).gNat i.a.toNat) = .ended v →
    ∃ t, exec (.pwait i) s = .next t ∧ wroteG (i.site 0x28 1 .g .g .none true) i.d.toNat (BitVec.ofNat 64 v) s t)
  ∧ (∀ (i : IssueA) (s : State), (i.site 0x28 1 .g .g .none true).goes s = true →
    (s.core i.core.val).launchView ((i.th s).gNat i.a.toNat) = .live →
    exec (.pwait i) s = .next ((i.site 0x28 1 .g .g .none true).after s (s.setTh i.core.val i.thread.val
      { i.th s with st := .waiting (.phase ((i.th s).gNat i.a.toNat % 2 ^ 32) i.d.toNat) })))
  ∧ (∀ (i : IssueA) (s : State) (v : Nat), (i.site 0x28 4 .g .g .none true).goes s = true →
    (s.core i.core.val).launchView ((i.th s).gNat i.a.toNat) = .ended v →
    ∃ t, exec (.pstat i) s = .next t ∧ wroteG (i.site 0x28 4 .g .g .none true) i.d.toNat (BitVec.ofNat 64 v) s t)
  ∧ (∀ (i : IssueA) (s : State), (i.site 0x28 4 .g .g .none true).goes s = true →
    (s.core i.core.val).launchView ((i.th s).gNat i.a.toNat) = .live →
    ∃ t, exec (.pstat i) s = .next t ∧ wroteG (i.site 0x28 4 .g .g .none true) i.d.toNat 3 s t)
  ∧ (∀ (i : IssueA) (s : State) (l : Launch), (i.site 0x28 2 .g .g .none true).goes s = true →
    (s.core i.core.val).launchView ((i.th s).gNat i.a.toNat) = .live → l.armed = false →
    (s.core i.core.val).queue.find? (fun l => decide (l.seq = (i.th s).gNat i.a.toNat % 2 ^ 32)) = some l →
    ∃ t, exec (.pcancel i) s = .next t
      ∧ (t.core i.core.val).queue = (s.core i.core.val).queue.filter (fun l => decide (l.seq ≠ (i.th s).gNat i.a.toNat % 2 ^ 32))
      ∧ ((s.core i.core.val).recentSeq ((i.th s).gNat i.a.toNat % 2 ^ 32) = true →
          (t.core i.core.val).outcomes.getLast? = some ⟨(i.th s).gNat i.a.toNat % 2 ^ 32, 1, 0⟩)
      ∧ (∀ n, (i.th t).gr n = if n = i.d.toNat ∧ n ≠ 0 then 0 else (i.th s).gr n)
      ∧ (∀ j, j ≠ i.thread.val → t.th i.core.val j = s.th i.core.val j)
      ∧ { t.core i.core.val with threads := (s.core i.core.val).threads, queue := (s.core i.core.val).queue, outcomes := (s.core i.core.val).outcomes }
        = (s.core i.core.val).issued i.thread.val
      ∧ { t with cores := s.cores } = s ∧ (∀ d, d ≠ i.core.val → t.core d = s.core d) ∧ sameMemory s t)
  ∧ ∀ (i : IssueA) (s : State), (i.site 0x28 3 .none .none .none true).goes s = true →
    exec (.pclr i) s = .next ((i.site 0x28 3 .none .none .none true).after s
      (s.setCore i.core.val { s.core i.core.val with held := none }))

/-- R75, R107, R108: the token and credit counters. An add within 65,535, a read, a wait whose threshold is met, and a take, which
subtracts the threshold; a wait that is not met leaves the thread waiting with the counter untouched. A test comes after the queue head's and after
the takes that wait and may go. -/
def Obligations.CounterInstructions : Prop :=
  (∀ r ∈ ctrRows, ∀ (i : IssueA) (s : State), (i.site 0x2C r.fnAdd .none .g .g true).goes s = true → (i.th s).gNat i.a.toNat ≤ 31 →
    (s.core i.core.val).ctr r.credit ((i.th s).gNat i.a.toNat) + (i.th s).gNat i.b.toNat % 65536 ≤ 65535 →
    ∃ t, exec (r.add i) s = .next t
      ∧ (∀ cr n, (t.core i.core.val).ctr cr n = (s.core i.core.val).ctr cr n +
        (if cr = r.credit ∧ n = (i.th s).gNat i.a.toNat then (i.th s).gNat i.b.toNat % 65536 else 0))
      ∧ i.th t = { i.th s with pc := (i.th s).pc + 4 } ∧ (∀ j, j ≠ i.thread.val → t.th i.core.val j = s.th i.core.val j)
      ∧ { t.core i.core.val with threads := (s.core i.core.val).threads, tk := (s.core i.core.val).tk, cc := (s.core i.core.val).cc }
        = (s.core i.core.val).issued i.thread.val
      ∧ { t with cores := s.cores } = s ∧ (∀ d, d ≠ i.core.val → t.core d = s.core d) ∧ sameMemory s t)
  ∧ (∀ r ∈ ctrRows, ∀ (i : IssueA) (s : State), (i.site 0x2C r.fnRead .g .g .none true).goes s = true → (i.th s).gNat i.a.toNat ≤ 31 →
    ∃ t, exec (r.read i) s = .next t ∧ wroteG (i.site 0x2C r.fnRead .g .g .none true) i.d.toNat
      (BitVec.ofNat 64 ((s.core i.core.val).ctr r.credit ((i.th s).gNat i.a.toNat))) s t)
  ∧ (∀ r ∈ ctrRows, ∀ (i : IssueA) (s : State), (i.site 0x2C r.fnWait .none .g .g true).goes s = true → (i.th s).gNat i.a.toNat ≤ 31 →
    (s.core i.core.val).headTakes r.credit ((i.th s).gNat i.a.toNat) = false →
    (s.core i.core.val).takeBefore r.credit ((i.th s).gNat i.a.toNat) 64 = false →
    (i.th s).gNat i.b.toNat % 65536 ≤ (s.core i.core.val).ctr r.credit ((i.th s).gNat i.a.toNat) →
    exec (r.wait i) s = .next ((i.site 0x2C r.fnWait .none .g .g true).after s s))
  ∧ (∀ r ∈ ctrRows, ∀ (i : IssueA) (s : State), (i.site 0x2C r.fnTake .none .g .g true).goes s = true → (i.th s).gNat i.a.toNat ≤ 31 →
    (s.core i.core.val).headTakes r.credit ((i.th s).gNat i.a.toNat) = false →
    (s.core i.core.val).takeBefore r.credit ((i.th s).gNat i.a.toNat) 64 = false →
    (i.th s).gNat i.b.toNat % 65536 ≤ (s.core i.core.val).ctr r.credit ((i.th s).gNat i.a.toNat) →
    ∃ t, exec (r.take i) s = .next t
      ∧ (∀ cr n, (t.core i.core.val).ctr cr n = (s.core i.core.val).ctr cr n -
        (if cr = r.credit ∧ n = (i.th s).gNat i.a.toNat then (i.th s).gNat i.b.toNat % 65536 else 0))
      ∧ i.th t = { i.th s with pc := (i.th s).pc + 4 } ∧ (∀ j, j ≠ i.thread.val → t.th i.core.val j = s.th i.core.val j)
      ∧ { t.core i.core.val with threads := (s.core i.core.val).threads, tk := (s.core i.core.val).tk, cc := (s.core i.core.val).cc }
        = (s.core i.core.val).issued i.thread.val
      ∧ { t with cores := s.cores } = s ∧ (∀ d, d ≠ i.core.val → t.core d = s.core d) ∧ sameMemory s t)
  ∧ ∀ r ∈ ctrRows, ∀ (i : IssueA) (s : State) (take : Bool), (i.site 0x2C (if take then r.fnTake else r.fnWait) .none .g .g true).goes s = true →
    (i.th s).gNat i.a.toNat ≤ 31 → (s.core i.core.val).headTakes r.credit ((i.th s).gNat i.a.toNat) = false →
    (s.core i.core.val).takeBefore r.credit ((i.th s).gNat i.a.toNat) 64 = false →
    (s.core i.core.val).ctr r.credit ((i.th s).gNat i.a.toNat) < (i.th s).gNat i.b.toNat % 65536 →
    exec ((if take then r.take else r.wait) i) s = .next ((i.site 0x2C (if take then r.fnTake else r.fnWait) .none .g .g true).after s
      (s.setTh i.core.val i.thread.val { i.th s with
        st := .waiting (.counter r.credit ((i.th s).gNat i.a.toNat) ((i.th s).gNat i.b.toNat % 65536) take) }))

/-- R107, R110, R163: SHWAIT of an ended reduction gives its outcome to itself and to every thread that waits for it and frees the handle, of a pending
one it waits; SHSTAT gives the outcome or 2 and keeps the handle; SHABORT of an ended one does nothing and of a pending one aborts it; a handle
that is free raises "bad operand". MBRING with no MBPUT before it writes BERTH_OUT; MBWAIT and MBPOLL take the incoming bits their mask selects,
and with none set MBWAIT waits and MBPOLL gives 0. -/
def Obligations.ReductionAndMailboxInstructions : Prop :=
  (∀ (i : IssueA) (s : State) (ab : Bool), (i.site 0x34 1 .g .g .none true).goes s = true → (i.th s).gNat i.a.toNat ≤ 15 →
    (s.core i.core.val).handle ((i.th s).gNat i.a.toNat) = .ended ab →
    ∃ t, exec (.shwait i) s = .next t
      ∧ (∀ n, (t.core i.core.val).handle n = if n = (i.th s).gNat i.a.toNat then .free else (s.core i.core.val).handle n)
      ∧ (∀ n, (i.th t).gr n = if n = i.d.toNat ∧ n ≠ 0 then BitVec.ofNat 64 (boolNat ab) else (i.th s).gr n)
      ∧ { i.th t with g := (i.th s).g, pc := (i.th s).pc } = i.th s ∧ (i.th t).pc = (i.th s).pc + 4
      ∧ (∀ j gd, (s.th i.core.val j).st = .waiting (.reduction ((i.th s).gNat i.a.toNat) gd) →
          (t.th i.core.val j) = { (s.th i.core.val j).setG gd (BitVec.ofNat 64 (boolNat ab)) with st := .running })
      ∧ { t with cores := s.cores } = s ∧ sameMemory s t)
  ∧ (∀ (i : IssueA) (s : State), (i.site 0x34 1 .g .g .none true).goes s = true → (i.th s).gNat i.a.toNat ≤ 15 →
    (s.core i.core.val).handle ((i.th s).gNat i.a.toNat) = .pending →
    exec (.shwait i) s = .next ((i.site 0x34 1 .g .g .none true).after s (s.setTh i.core.val i.thread.val
      { i.th s with st := .waiting (.reduction ((i.th s).gNat i.a.toNat) i.d.toNat) })))
  ∧ (∀ (i : IssueA) (s : State), (i.site 0x34 1 .g .g .none true).goes s = true →
    15 < (i.th s).gNat i.a.toNat ∨ (s.core i.core.val).handle ((i.th s).gNat i.a.toNat) = .free →
    exec (.shwait i) s = .next ((i.site 0x34 1 .g .g .none true).trap s 0x0C ((i.th s).gNat i.a.toNat)))
  ∧ (∀ (i : IssueA) (s : State) (ab : Bool), (i.site 0x34 2 .none .g .none true).goes s = true → (i.th s).gNat i.a.toNat ≤ 15 →
    (s.core i.core.val).handle ((i.th s).gNat i.a.toNat) = .ended ab →
    exec (.shabort i) s = .next ((i.site 0x34 2 .none .g .none true).after s s))
  ∧ (∀ (i : IssueA) (s : State) (x : ShCtx), (i.site 0x34 2 .none .g .none true).goes s = true → (i.th s).gNat i.a.toNat ≤ 15 →
    (s.core i.core.val).handle ((i.th s).gNat i.a.toNat) = .pending →
    s.sheaf.find? (fun x => decide (x.owner = i.core.val) && decide (x.handle = (i.th s).gNat i.a.toNat)) = some x →
    exec (.shabort i) s = .next ((i.site 0x34 2 .none .g .none true).after s
      (if shKind x.desc = 2 then s.putCtx { x with failed := true } else s.shAbort x)))
  ∧ (∀ (i : IssueA) (s : State) (ab : Bool), (i.site 0x34 3 .g .g .none true).goes s = true → (i.th s).gNat i.a.toNat ≤ 15 →
    (s.core i.core.val).handle ((i.th s).gNat i.a.toNat) = .ended ab →
    ∃ t, exec (.shstat i) s = .next t ∧ wroteG (i.site 0x34 3 .g .g .none true) i.d.toNat (BitVec.ofNat 64 (boolNat ab)) s t)
  ∧ (∀ (i : IssueA) (s : State), (i.site 0x34 3 .g .g .none true).goes s = true → (i.th s).gNat i.a.toNat ≤ 15 →
    (s.core i.core.val).handle ((i.th s).gNat i.a.toNat) = .pending →
    ∃ t, exec (.shstat i) s = .next t ∧ wroteG (i.site 0x34 3 .g .g .none true) i.d.toNat 2 s t)
  ∧ (∀ (i : IssueA) (s : State), (i.site 0x30 2 .none .g .none true).goes s = true → (i.th s).bankOps = [] →
    exec (.mbring i) s = .next ((i.site 0x30 2 .none .g .none true).after s (s.berthOut i.core.val i.thread.val ((i.th s).gNat i.a.toNat))))
  ∧ (∀ r ∈ mailRows, ∀ (i : IssueA) (s : State) (b : Nat), (i.site 0x30 r.2 .g .g .none true).goes s = true → s.coreBarn i.core.val = some b →
    (s.berth b).bin &&& BitVec.ofNat 32 ((i.th s).gNat i.a.toNat % 2 ^ 32) ≠ 0 →
    ∃ t, exec (r.1 i) s = .next t
      ∧ (∀ n, (i.th t).gr n = if n = i.d.toNat ∧ n ≠ 0 then
          ((s.berth b).bin &&& BitVec.ofNat 32 ((i.th s).gNat i.a.toNat % 2 ^ 32)).setWidth 64 else (i.th s).gr n)
      ∧ { i.th t with g := (i.th s).g, pc := (i.th s).pc } = i.th s ∧ (i.th t).pc = (i.th s).pc + 4
      ∧ (t.berth b).bin = (s.berth b).bin &&& ~~~(BitVec.ofNat 32 ((i.th s).gNat i.a.toNat % 2 ^ 32))
      ∧ (∀ d, d ≠ b → t.berth d = s.berth d) ∧ onlyIssued i.core.val i.thread.val { s with berths := t.berths } t ∧ sameMemory s t)
  ∧ (∀ (i : IssueA) (s : State) (b : Nat), (i.site 0x30 4 .g .g .none true).goes s = true → s.coreBarn i.core.val = some b →
    (s.berth b).bin &&& BitVec.ofNat 32 ((i.th s).gNat i.a.toNat % 2 ^ 32) = 0 →
    ∃ t, exec (.mbpoll i) s = .next t ∧ wroteG (i.site 0x30 4 .g .g .none true) i.d.toNat 0 s t)
  ∧ ∀ (i : IssueA) (s : State) (b : Nat), (i.site 0x30 3 .g .g .none true).goes s = true → s.coreBarn i.core.val = some b →
    (s.berth b).bin &&& BitVec.ofNat 32 ((i.th s).gNat i.a.toNat % 2 ^ 32) = 0 →
    exec (.mbwait i) s = .next ((i.site 0x30 3 .g .g .none true).after s (s.setTh i.core.val i.thread.val
      { i.th s with st := .waiting (.mailbox ((i.th s).gNat i.a.toNat % 2 ^ 32) i.d.toNat) }))

/-- R90, R111 to R114, R400, Table 4-13: what barriers, time, interval markers and thread control do where they execute, and what they leave alone.
BARINIT sets a barrier's count; the BARWAIT that reaches the count lets the barrier's threads run, any other waits. TIME gives the reckoning counter,
WAITUNTIL waits for it, IMARK.S opens a marker, IMARK.E closes it and gives the interval, with bit 63 for one of no tick and bit 62 where no marker
was open. TSTART starts a stopped thread and says by its predicate whether it did, TSTOP and TKILL stop one, TRESTART resumes a faulted one, TFWAIT
gives the faulted threads its mask selects or waits, VALLOC takes registers from the pool if they are there, VFREE returns them, BRK raises
"breakpoint". TKILL, TRESTART and TFWAIT in any thread but 0 raise "privilege". -/
def Obligations.BarriersTimeAndThreads : Prop :=
  (∀ (i : IssueA) (s : State), (i.site 0x38 0 .none .g .g true).goes s = true → (i.th s).gNat i.a.toNat ≤ 7 →
    1 ≤ (i.th s).gNat i.b.toNat → (i.th s).gNat i.b.toNat ≤ 64 → (s.core i.core.val).barWaiters ((i.th s).gNat i.a.toNat) = [] →
    ∃ t, exec (.barinit i) s = .next t
      ∧ (∀ n, tget 0 (t.core i.core.val).bars n =
          if n = (i.th s).gNat i.a.toNat then (i.th s).gNat i.b.toNat else tget 0 (s.core i.core.val).bars n)
      ∧ i.th t = { i.th s with pc := (i.th s).pc + 4 } ∧ (∀ j, j ≠ i.thread.val → t.th i.core.val j = s.th i.core.val j)
      ∧ { t.core i.core.val with threads := (s.core i.core.val).threads, bars := (s.core i.core.val).bars } = (s.core i.core.val).issued i.thread.val
      ∧ { t with cores := s.cores } = s ∧ (∀ d, d ≠ i.core.val → t.core d = s.core d) ∧ sameMemory s t)
  ∧ (∀ (i : IssueA) (s : State), (i.site 0x38 1 .none .g .none true).goes s = true → (i.th s).gNat i.a.toNat ≤ 7 →
    tget 0 (s.core i.core.val).bars ((i.th s).gNat i.a.toNat) ≠ 0 →
    tget 0 (s.core i.core.val).bars ((i.th s).gNat i.a.toNat) ≤ ((s.core i.core.val).barWaiters ((i.th s).gNat i.a.toNat)).length + 1 →
    ∃ t, exec (.barwait i) s = .next t
      ∧ (∀ k, t.th i.core.val k = { s.th i.core.val k with
          st := if k ∈ (s.core i.core.val).barWaiters ((i.th s).gNat i.a.toNat) then .running else (s.th i.core.val k).st
          pc := (s.th i.core.val k).pc + (if k = i.thread.val then 4 else 0) })
      ∧ onlyIssuedThreads i.core.val i.thread.val s t ∧ sameMemory s t)
  ∧ (∀ (i : IssueA) (s : State), (i.site 0x38 1 .none .g .none true).goes s = true → (i.th s).gNat i.a.toNat ≤ 7 →
    ((s.core i.core.val).barWaiters ((i.th s).gNat i.a.toNat)).length + 1 < tget 0 (s.core i.core.val).bars ((i.th s).gNat i.a.toNat) →
    exec (.barwait i) s = .next ((i.site 0x38 1 .none .g .none true).after s (s.setTh i.core.val i.thread.val
      { i.th s with st := .waiting (.barrier ((i.th s).gNat i.a.toNat)) })))
  ∧ (∀ (i : IssueA) (s : State), (i.site 0x39 0 .g .none .none true).goes s = true →
    ∃ t, exec (.time i) s = .next t ∧ wroteG (i.site 0x39 0 .g .none .none true) i.d.toNat (BitVec.ofNat 64 s.reckon) s t)
  ∧ (∀ (i : IssueA) (s : State), (i.site 0x39 1 .none .g .none true).goes s = true → (i.th s).gNat i.a.toNat ≤ s.reckon →
    exec (.waituntil i) s = .next ((i.site 0x39 1 .none .g .none true).after s s))
  ∧ (∀ (i : IssueA) (s : State), (i.site 0x39 1 .none .g .none true).goes s = true → s.reckon < (i.th s).gNat i.a.toNat →
    exec (.waituntil i) s = .next ((i.site 0x39 1 .none .g .none true).after s (s.setTh i.core.val i.thread.val
      { i.th s with st := .waiting (.time ((i.th s).gNat i.a.toNat)) })))
  ∧ (∀ (i : IssueA) (s : State), (i.site 0x39 2 .none .g .none true).goes s = true → (i.th s).gNat i.a.toNat ≤ 15 →
    exec (.imarkS i) s = .next ((i.site 0x39 2 .none .g .none true).after s (s.setTh i.core.val i.thread.val
      { i.th s with markers := tset none (i.th s).markers ((i.th s).gNat i.a.toNat) (some ⟨s.reckon, tget 0 s.dieCycle (coreDie i.core.val)⟩) })))
  ∧ (∀ (i : IssueA) (s : State) (m : Mark), (i.site 0x39 3 .g .g .none true).goes s = true → (i.th s).gNat i.a.toNat ≤ 15 →
    tget none (i.th s).markers ((i.th s).gNat i.a.toNat) = some m → m.at_ ≤ s.reckon → s.reckon < m.at_ + 2 ^ 62 →
    ∃ t, exec (.imarkE i) s = .next t
      ∧ (∀ n, tget none (i.th t).markers n = if n = (i.th s).gNat i.a.toNat then none else tget none (i.th s).markers n)
      ∧ (∀ n, (i.th t).gr n = if n = i.d.toNat ∧ n ≠ 0 then
          (if m.cycle / 2 = tget 0 s.dieCycle (coreDie i.core.val) / 2 then BitVec.ofNat 64 (2 ^ 63) else BitVec.ofNat 64 (s.reckon - m.at_))
        else (i.th s).gr n)
      ∧ { i.th t with g := (i.th s).g, pc := (i.th s).pc, markers := (i.th s).markers } = i.th s ∧ (i.th t).pc = (i.th s).pc + 4
      ∧ onlyIssued i.core.val i.thread.val s t ∧ sameMemory s t)
  ∧ (∀ (i : IssueA) (s : State), (i.site 0x39 3 .g .g .none true).goes s = true → (i.th s).gNat i.a.toNat ≤ 15 →
    tget none (i.th s).markers ((i.th s).gNat i.a.toNat) = none →
    ∃ t, exec (.imarkE i) s = .next t ∧ wroteG (i.site 0x39 3 .g .g .none true) i.d.toNat (BitVec.ofNat 64 (2 ^ 62))
      (match s.coreBarn i.core.val with
        | some b => s.meterOrphan b
        | none => s) t)
  ∧ (∀ (i : IssueA) (s : State), (i.site 0x3C 0 .p .g .g true).goes s = true → (i.th s).gNat i.a.toNat ≤ 63 →
    (s.th i.core.val ((i.th s).gNat i.a.toNat)).st = .stopped →
    ∃ t, exec (.tstart i) s = .next t
      ∧ i.th t = { (i.th s).setP i.d.toNat true with pc := (i.th s).pc + 4 }
      ∧ t.th i.core.val ((i.th s).gNat i.a.toNat) = { Thread.init with
          g := (t.th i.core.val ((i.th s).gNat i.a.toNat)).g, st := .running, pc := (i.th s).gNat i.b.toNat
          vmap := (s.th i.core.val ((i.th s).gNat i.a.toNat)).vmap, bankOps := (s.th i.core.val ((i.th s).gNat i.a.toNat)).bankOps
          sync := (s.core i.core.val).iHist.length }
      ∧ (∀ n, (t.th i.core.val ((i.th s).gNat i.a.toNat)).gr n = if n = 1 then BitVec.ofNat 64 i.thread.val else 0)
      ∧ (∀ j, j ≠ i.thread.val → j ≠ (i.th s).gNat i.a.toNat → t.th i.core.val j = s.th i.core.val j)
      ∧ onlyIssuedThreads i.core.val i.thread.val s t ∧ sameMemory s t)
  ∧ (∀ (i : IssueA) (s : State), (i.site 0x3C 0 .p .g .g true).goes s = true → (i.th s).gNat i.a.toNat ≤ 63 →
    (s.th i.core.val ((i.th s).gNat i.a.toNat)).st ≠ .stopped →
    ∃ t, exec (.tstart i) s = .next t ∧ wroteP (i.site 0x3C 0 .p .g .g true) i.d.toNat false s t)
  ∧ (∀ (i : IssueA) (s : State), (i.site 0x3C 1 .none .none .none true).goes s = true →
    ∃ t, exec (.tstop i) s = .next t
      ∧ i.th t = { i.th s with
          st := .stopped, vmap := [], markers := [], bankOps := (i.th s).bankOps.map fun o => { o with dead := true }
          storeErr := none, extra := 0, pc := (i.th s).pc + 4 }
      ∧ (t.core i.core.val).vzero = (s.core i.core.val).vzero ++ (i.th s).vmap
      ∧ (∀ j, j ≠ i.thread.val → t.th i.core.val j = s.th i.core.val j) ∧ (∀ d, d ≠ i.core.val → t.core d = s.core d)
      ∧ { t with cores := s.cores, berths := s.berths } = s ∧ sameMemory s t)
  ∧ (∀ (i : IssueA) (s : State), i.thread.val = 0 → (i.site 0x3C 2 .none .g .none true).goes s = true → 1 ≤ (i.th s).gNat i.a.toNat →
    (i.th s).gNat i.a.toNat ≤ 63 →
    ∃ t, exec (.tkill i) s = .next t
      ∧ t.th i.core.val ((i.th s).gNat i.a.toNat) = { s.th i.core.val ((i.th s).gNat i.a.toNat) with
          st := .stopped, vmap := [], markers := []
          bankOps := (s.th i.core.val ((i.th s).gNat i.a.toNat)).bankOps.map fun o => { o with dead := true }, storeErr := none, extra := 0 }
      ∧ (t.core i.core.val).vzero = (s.core i.core.val).vzero ++ (s.th i.core.val ((i.th s).gNat i.a.toNat)).vmap
      ∧ i.th t = { i.th s with pc := (i.th s).pc + 4 }
      ∧ (∀ j, j ≠ 0 → j ≠ (i.th s).gNat i.a.toNat → t.th i.core.val j = s.th i.core.val j) ∧ (∀ d, d ≠ i.core.val → t.core d = s.core d)
      ∧ { t with cores := s.cores, berths := s.berths } = s ∧ sameMemory s t)
  ∧ (∀ (i : IssueA) (s : State), i.thread.val = 0 → (i.site 0x3C 2 .none .g .none true).goes s = true → (i.th s).gNat i.a.toNat = 0 →
    exec (.tkill i) s = .next ((i.site 0x3C 2 .none .g .none true).after s (s.stopThread i.core.val 0)))
  ∧ (∀ (i : IssueA) (s : State), i.thread.val = 0 → (i.site 0x3C 3 .p .g .g true).goes s = true → (i.th s).gNat i.a.toNat ≤ 63 →
    (s.th i.core.val ((i.th s).gNat i.a.toNat)).st = .faulted →
    ∃ t, exec (.trestart i) s = .next t
      ∧ i.th t = { (i.th s).setP i.d.toNat true with pc := (i.th s).pc + 4 }
      ∧ t.th i.core.val ((i.th s).gNat i.a.toNat) = { s.th i.core.val ((i.th s).gNat i.a.toNat) with
          st := .running, pc := (i.th s).gNat i.b.toNat, sync := (s.core i.core.val).iHist.length }
      ∧ (∀ j, j ≠ 0 → j ≠ (i.th s).gNat i.a.toNat → t.th i.core.val j = s.th i.core.val j)
      ∧ onlyIssuedThreads i.core.val 0 s t ∧ sameMemory s t)
  ∧ (∀ (i : IssueA) (s : State), i.thread.val = 0 → (i.site 0x3C 3 .p .g .g true).goes s = true → (i.th s).gNat i.a.toNat ≤ 63 →
    (s.th i.core.val ((i.th s).gNat i.a.toNat)).st ≠ .faulted →
    ∃ t, exec (.trestart i) s = .next t ∧ wroteP (i.site 0x3C 3 .p .g .g true) i.d.toNat false s t)
  ∧ (∀ (i : IssueA) (s : State), i.thread.val = 0 → (i.site 0x3C 4 .g .g .none true).goes s = true →
    (s.core i.core.val).faultedMask &&& (i.th s).gNat i.a.toNat ≠ 0 →
    ∃ t, exec (.tfwait i) s = .next t ∧ wroteG (i.site 0x3C 4 .g .g .none true) i.d.toNat
      (BitVec.ofNat 64 ((s.core i.core.val).faultedMask &&& (i.th s).gNat i.a.toNat)) s t)
  ∧ (∀ (i : IssueA) (s : State), i.thread.val = 0 → (i.site 0x3C 4 .g .g .none true).goes s = true →
    (s.core i.core.val).faultedMask &&& (i.th s).gNat i.a.toNat = 0 →
    exec (.tfwait i) s = .next ((i.site 0x3C 4 .g .g .none true).after s (s.setTh i.core.val i.thread.val
      { i.th s with st := .waiting (.fault ((i.th s).gNat i.a.toNat) i.d.toNat) })))
  ∧ (∀ (i : IssueA) (s : State), (i.site 0x3C 5 .p .g .none true).goes s = true → 1 ≤ (i.th s).gNat i.a.toNat →
    (i.th s).gNat i.a.toNat ≤ 64 → (i.th s).vmap = [] → (i.th s).gNat i.a.toNat ≤ (s.core i.core.val).vFree.length →
    ∃ t, exec (.valloc i) s = .next t
      ∧ i.th t = { (i.th s).setP i.d.toNat true with
          vmap := (s.core i.core.val).vFree.take ((i.th s).gNat i.a.toNat), pc := (i.th s).pc + 4 }
      ∧ onlyIssued i.core.val i.thread.val s t ∧ sameMemory s t)
  ∧ (∀ (i : IssueA) (s : State), (i.site 0x3C 5 .p .g .none true).goes s = true → 1 ≤ (i.th s).gNat i.a.toNat →
    (i.th s).gNat i.a.toNat ≤ 64 → (i.th s).vmap ≠ [] ∨ (s.core i.core.val).vFree.length < (i.th s).gNat i.a.toNat →
    ∃ t, exec (.valloc i) s = .next t ∧ wroteP (i.site 0x3C 5 .p .g .none true) i.d.toNat false s t)
  ∧ (∀ (i : IssueA) (s : State), (i.site 0x3C 6 .none .none .none true).goes s = true → (s.core i.core.val).busyV i.thread.val = [] →
    ∃ t, exec (.vfree i) s = .next t
      ∧ i.th t = { i.th s with vmap := [], pc := (i.th s).pc + 4 }
      ∧ (t.core i.core.val).vzero = (s.core i.core.val).vzero ++ (i.th s).vmap
      ∧ (∀ j, j ≠ i.thread.val → t.th i.core.val j = s.th i.core.val j)
      ∧ { t.core i.core.val with threads := (s.core i.core.val).threads, vzero := (s.core i.core.val).vzero } = (s.core i.core.val).issued i.thread.val
      ∧ { t with cores := s.cores } = s ∧ (∀ d, d ≠ i.core.val → t.core d = s.core d) ∧ sameMemory s t)
  ∧ (∀ (i : IssueA) (s : State), (i.site 0x3C 7 .none .none .none true).goes s = true →
    exec (.brk i) s = .next ((i.site 0x3C 7 .none .none .none true).trap s 0x0B 0))
  ∧ (∀ (i : IssueA) (s : State), i.thread.val ≠ 0 → (i.site 0x3C 2 .none .g .none true).goes s = true →
    exec (.tkill i) s = .next ((i.site 0x3C 2 .none .g .none true).trap s 0x03 (i.word 0x3C 2)))
  ∧ (∀ (i : IssueA) (s : State), i.thread.val ≠ 0 → (i.site 0x3C 3 .p .g .g true).goes s = true →
    exec (.trestart i) s = .next ((i.site 0x3C 3 .p .g .g true).trap s 0x03 (i.word 0x3C 3)))
  ∧ (∀ (i : IssueA) (s : State), i.thread.val ≠ 0 → (i.site 0x3C 4 .g .g .none true).goes s = true →
    exec (.tfwait i) s = .next ((i.site 0x3C 4 .g .g .none true).trap s 0x03 (i.word 0x3C 4)))

/-- R91, R113, Table 4-4: SRD reads the special register that FN names, SRDT another thread's, SWR writes one: FPFLAGS bits written 1
clear, SR_SEED, SR_TAG and SR_STEP take gA, a write of any other is discarded. SRDT in any thread but 0 raises "privilege". The last clauses say
what each register holds. -/
def Obligations.SpecialRegisters : Prop :=
  (∀ (i : IssueA) (fn : BitVec 7) (s : State) (v : BitVec 64), (i.site 0x3D fn.toNat .g .none .none (decide (fn.toNat ≤ 0x0D))).goes s = true →
    s.sreg i.core.val i.thread.val fn.toNat = some v →
    ∃ t, exec (.srd i fn) s = .next t ∧ wroteG (i.site 0x3D fn.toNat .g .none .none (decide (fn.toNat ≤ 0x0D))) i.d.toNat v s t)
  ∧ (∀ (i : IssueA) (fn : BitVec 7) (s : State) (v : BitVec 64), i.thread.val = 0 →
    (i.site 0x3F fn.toNat .g .g .none (decide (fn.toNat ≤ 0x0D))).goes s = true → (i.th s).gNat i.a.toNat ≤ 63 →
    s.sreg i.core.val ((i.th s).gNat i.a.toNat) fn.toNat = some v →
    ∃ t, exec (.srdt i fn) s = .next t ∧ wroteG (i.site 0x3F fn.toNat .g .g .none (decide (fn.toNat ≤ 0x0D))) i.d.toNat v s t)
  ∧ (∀ (i : IssueA) (fn : BitVec 7) (s : State), i.thread.val ≠ 0 →
    (i.site 0x3F fn.toNat .g .g .none (decide (fn.toNat ≤ 0x0D))).goes s = true →
    exec (.srdt i fn) s = .next ((i.site 0x3F fn.toNat .g .g .none (decide (fn.toNat ≤ 0x0D))).trap s 0x03 (i.word 0x3F fn.toNat)))
  ∧ (∀ (i : IssueA) (fn : BitVec 7) (s : State), (i.site 0x3E fn.toNat .none .g .none (decide (fn.toNat ≤ 0x0D))).goes s = true →
    ∃ t, exec (.swr i fn) s = .next t
      ∧ i.th t = { i.th s with
          fpflags := if fn.toNat = 3 then (i.th s).fpflags &&& ~~~(((i.th s).gr i.a.toNat).setWidth 5) else (i.th s).fpflags
          srSeed := if fn.toNat = 4 then (i.th s).gr i.a.toNat else (i.th s).srSeed
          srTag := if fn.toNat = 5 then ((i.th s).gr i.a.toNat).setWidth 32 else (i.th s).srTag
          srStep := if fn.toNat = 6 then ((i.th s).gr i.a.toNat).setWidth 32 else (i.th s).srStep
          pc := (i.th s).pc + 4 }
      ∧ onlyIssued i.core.val i.thread.val s t ∧ sameMemory s t)
  ∧ ∀ (s : State) (c t : Nat),
    s.sreg c t 0x00 = some (BitVec.ofNat 64 t) ∧ s.sreg c t 0x01 = some (BitVec.ofNat 64 (coordOf s.selfNum c))
    ∧ s.sreg c t 0x02 = some (BitVec.ofNat 64 (s.coreStamp c)) ∧ s.sreg c t 0x03 = some ((s.th c t).fpflags.setWidth 64)
    ∧ s.sreg c t 0x04 = some (s.th c t).srSeed ∧ s.sreg c t 0x05 = some ((s.th c t).srTag.setWidth 64)
    ∧ s.sreg c t 0x06 = some ((s.th c t).srStep.setWidth 64) ∧ s.sreg c t 0x07 = some (BitVec.ofNat 64 (s.th c t).vmap.length)
    ∧ s.sreg c t 0x08 = some ((s.th c t).fcause.setWidth 64) ∧ s.sreg c t 0x09 = some ((s.th c t).fpc.setWidth 64)
    ∧ s.sreg c t 0x0A = some (s.th c t).faddr ∧ s.sreg c t 0x0B = some (BitVec.ofNat 64 (s.core c).faultedMask)
    ∧ s.sreg c t 0x0C = some (BitVec.ofNat 64 s.reckon) ∧ s.sreg c t 0x0D = some (BitVec.ofNat 64 (s.core c).launchSeq)

/-- R60, R62, R94, R95, R99, R104, R114, R115, R116: what an instruction does that does not execute. A thread that is not running or whose turn has not
come, or with an operand outstanding, changes nothing; a waiting store error faults with its status and address; a PC that is no multiple of 4 or
beyond the store faults; where the words that its fetch finds are another instruction's, nothing changes, and where their OP or FN is none of the
tables' they fault; an illegal encoding faults whatever the guard; a false guard only moves the PC. -/
def Obligations.InstructionsThatDoNotExecute : Prop :=
  ∀ (i : Instr) (x : Site) (s : State), siteOf i = some x → x.goes s = false →
    exec i s = .next (
      let h := s.th x.c x.t
      if s.canIssue x.c x.t = false then s
      else match h.storeErr with
        | some (addr, status) => (s.setTh x.c x.t { h with storeErr := none, extra := 0 }).raise x.c x.t 0x09 status h.extra h.pc addr
        | none =>
          if h.pc % 4 ≠ 0 then s.raise x.c x.t 0x05 0 0 h.pc h.pc
          else if 0x7FFC < h.pc then s.raise x.c x.t 0x02 0 0 h.pc h.pc
          else if x.fetched h.pc ((s.core x.c).fetchable x.t) = false then
            match ((s.core x.c).fetchable x.t).find? fun p => !wordKnown p.1 with
            | some p => x.trap s 0x01 p.1
            | none => s
          else if 0x8000 < h.pc + 4 * x.words then s.raise x.c x.t 0x02 0 0 h.pc (h.pc + 4)
          else if x.legal = false then x.trap s 0x01 x.word0
          else if x.guard h = false then x.after s s
          else s)

/-- R61, R115 to R117: an exception makes a thread that is neither faulted nor stopped faulted, with the cause, the PC's bits [14:0] and the address, and keeps its
registers, predicates, PC and vector registers; the core's other threads, its queued and running phases and its counters, every other core and
all memory are unchanged; but for thread 0, whose fault is noticed at its barn's berth, nothing else changes at all. -/
def Obligations.ExceptionEntry : Prop :=
  ∀ (s : State) (c t code status extra pc addr : Nat), (s.th c t).st ≠ .faulted → (s.th c t).st ≠ .stopped →
    ((s.raise c t code status extra pc addr).th c t) = { s.th c t with
      st := .faulted, fcause := BitVec.ofNat 24 (code + 256 * status + 65536 * min 255 extra), fpc := BitVec.ofNat 15 pc
      faddr := BitVec.ofNat 64 addr }
    ∧ (∀ j, j ≠ t → (s.raise c t code status extra pc addr).th c j = s.th c j)
    ∧ { (s.raise c t code status extra pc addr).core c with threads := (s.core c).threads } = s.core c
    ∧ (∀ d, d ≠ c → (s.raise c t code status extra pc addr).core d = s.core d)
    ∧ sameMemory s (s.raise c t code status extra pc addr)
    ∧ (t ≠ 0 → { s.raise c t code status extra pc addr with cores := s.cores } = s)

/-- R79, R100, R107 to R112, R117, R254: how the waits of a thread end on an active core, outside hold cycles, and that they change nothing else. -/
def Obligations.WaitsEnd : Prop :=
  (∀ (c : CoreId) (k : ThreadId) (s : State) (n thr : Nat), (s.th c.val k.val).st = .waiting (.tally n thr) → s.coreSteps c.val = true →
    tallyMet (s.tally (coreCluster c.val) n) thr = true →
    exec (.tallyWaitMet c k) s = .next (s.setTh c.val k.val { s.th c.val k.val with st := .running }))
  ∧ (∀ (c : CoreId) (k : ThreadId) (s : State) (cr take : Bool) (n thr : Nat), (s.th c.val k.val).st = .waiting (.counter cr n thr take) →
    s.coreSteps c.val = true → (s.core c.val).headTakes cr n = false → (s.core c.val).takeBefore cr n (if take then k.val else 64) = false →
    thr ≤ (s.core c.val).ctr cr n →
    ∃ t, exec (.counterWaitMet c k) s = .next t ∧ t.th c.val k.val = { s.th c.val k.val with st := .running }
      ∧ (∀ r m, (t.core c.val).ctr r m = (s.core c.val).ctr r m - (if r = cr ∧ m = n ∧ take then thr else 0))
      ∧ (∀ j, j ≠ k.val → t.th c.val j = s.th c.val j)
      ∧ { t.core c.val with threads := (s.core c.val).threads, tk := (s.core c.val).tk, cc := (s.core c.val).cc } = s.core c.val
      ∧ { t with cores := s.cores } = s ∧ (∀ d, d ≠ c.val → t.core d = s.core d))
  ∧ (∀ (c : CoreId) (k : ThreadId) (s : State) (seq gd v : Nat), (s.th c.val k.val).st = .waiting (.phase seq gd) → s.coreSteps c.val = true →
    (s.core c.val).launchView seq = .ended v →
    exec (.phaseWaitEnd c k) s = .next (s.wake c.val k.val gd (BitVec.ofNat 64 v)))
  ∧ (∀ (c : CoreId) (k : ThreadId) (s : State) (e gd : Nat), (s.th c.val k.val).st = .waiting (.launch e gd) → s.coreSteps c.val = true →
    (s.core c.val).queued < 8 → (s.core c.val).valid.contains e = true → (s.core c.val).locked.contains e = false →
    ∃ t, exec (.launchWaitEnd c k) s = .next t
      ∧ t.th c.val k.val = { (s.th c.val k.val).setG gd (BitVec.ofNat 64 (s.core c.val).launchSeq) with st := .running }
      ∧ (t.core c.val).launchSeq = ((s.core c.val).launchSeq + 1) % 2 ^ 32
      ∧ (t.core c.val).queue = (s.core c.val).queue ++
        [⟨(s.core c.val).launchSeq, e, (s.th c.val k.val).srSeed, (s.th c.val k.val).srTag, (s.th c.val k.val).srStep, false⟩]
      ∧ (∀ j, j ≠ k.val → t.th c.val j = s.th c.val j) ∧ { t with cores := s.cores } = s ∧ (∀ d, d ≠ c.val → t.core d = s.core d))
  ∧ (∀ (c : CoreId) (h : Fin 16) (k : ThreadId) (s : State) (ab : Bool) (gd : Nat), (s.core c.val).handle h.val = .ended ab → s.coreSteps c.val = true →
    (s.core c.val).threads = [(k.val, s.th c.val k.val)] → (s.th c.val k.val).st = .waiting (.reduction h.val gd) →
    ∃ t, exec (.reductionWaitEnd c h) s = .next t
      ∧ (∀ n, (t.core c.val).handle n = if n = h.val then .free else (s.core c.val).handle n)
      ∧ t.th c.val k.val = { (s.th c.val k.val).setG gd (BitVec.ofNat 64 (boolNat ab)) with st := .running }
      ∧ { t with cores := s.cores } = s ∧ (∀ d, d ≠ c.val → t.core d = s.core d))
  ∧ (∀ (c : CoreId) (k : ThreadId) (s : State) (mask gd b : Nat), (s.th c.val k.val).st = .waiting (.mailbox mask gd) → s.coreSteps c.val = true →
    s.coreBarn c.val = some b → (s.berth b).bin &&& BitVec.ofNat 32 mask ≠ 0 → s.mailBefore c.val k.val mask = false →
    ∃ t, exec (.mailboxWaitMet c k) s = .next t
      ∧ t.th c.val k.val = { (s.th c.val k.val).setG gd (((s.berth b).bin &&& BitVec.ofNat 32 mask).setWidth 64) with st := .running }
      ∧ (t.berth b).bin = (s.berth b).bin &&& ~~~(BitVec.ofNat 32 mask) ∧ (∀ d, d ≠ b → t.berth d = s.berth d)
      ∧ onlyThread c.val k.val { s with berths := t.berths } t)
  ∧ (∀ (c : CoreId) (k : ThreadId) (s : State) (tgt : Nat), (s.th c.val k.val).st = .waiting (.time tgt) → s.coreSteps c.val = true →
    tgt ≤ s.reckon → exec (.waituntilMet c k) s = .next (s.setTh c.val k.val { s.th c.val k.val with st := .running }))
  ∧ (∀ (c : CoreId) (k : ThreadId) (s : State) (mask gd : Nat), (s.th c.val k.val).st = .waiting (.fault mask gd) → s.coreSteps c.val = true →
    (s.core c.val).faultedMask &&& mask ≠ 0 →
    exec (.faultWaitMet c k) s = .next (s.wake c.val k.val gd (BitVec.ofNat 64 ((s.core c.val).faultedMask &&& mask))))
  ∧ (∀ (c : CoreId) (k : ThreadId) (s : State) (all : Bool), (s.th c.val k.val).st = .waiting (.fence all) → s.coreSteps c.val = true →
    (s.core c.val).spanPending k.val all = false → (s.th c.val k.val).storeErr = none →
    exec (.fenceComplete c k) s = .next (s.setTh c.val k.val { s.th c.val k.val with st := .running }))
  ∧ ∀ (c : CoreId) (k : ThreadId) (s : State) (all : Bool) (addr status : Nat), (s.th c.val k.val).st = .waiting (.fence all) →
    s.coreSteps c.val = true → (s.core c.val).spanPending k.val all = false → (s.th c.val k.val).storeErr = some (addr, status) →
    exec (.fenceComplete c k) s = .next ((s.setTh c.val k.val { s.th c.val k.val with storeErr := none, extra := 0 }).raise
      c.val k.val 0x09 status (s.th c.val k.val).extra ((s.th c.val k.val).pc - 4) addr)

/-! Phases, cores, the mesh and the sheaf (spec/03, spec/05, spec/06). -/

/-- R61, R68 to R71, R75 to R83, R122 to R131, R139: a launch at the head of the queue whose conditions hold fires, or, with a gang line, is armed, and
the named counters are reduced; every member of a gang fires together; a lost gang faults every member's phase; a step that names no access ends the
phase when it is the last and otherwise moves on as its repeat count and loops give; an ended phase makes its posts and leaves the outcome
"completed"; a fault drops the phase, holds the queue and touches nothing else; a new hold count takes effect at a frame boundary. A MAC step of a
format without blocks adds its terms to the accumulator entries of its cells, and a DRAIN step leaves its 32 entries empty. -/
def Obligations.PhaseSequencing : Prop :=
  (∀ (c : CoreId) (s : State) (l : Launch) (q : List Launch), (s.core c.val).queue = l :: q → s.coreSteps c.val = true →
    (s.core c.val).run = none → (s.core c.val).held = none → l.armed = false → (s.core c.val).condsHold l.entry = true →
    (s.core c.val).gangOf l.entry = 0 →
    ∃ t r, exec (.phaseFire c) s = .next t ∧ (t.core c.val).queue = q ∧ (t.core c.val).run = some r ∧ r.launch = l ∧ r.stepNo = 0
      ∧ r.word = pdBase (tget 0 (s.core c.val).phaseTab l.entry) ∧ r.parity = tget 0 (s.core c.val).fires l.entry % 2
      ∧ (∀ e, tget 0 (t.core c.val).fires e = tget 0 (s.core c.val).fires e + (if e = l.entry then 1 else 0))
      ∧ (∀ cr n, (t.core c.val).ctr cr n = ((s.core c.val).takeConds l.entry).ctr cr n)
      ∧ { t.core c.val with queue := (s.core c.val).queue, run := (s.core c.val).run, fires := (s.core c.val).fires, tk := (s.core c.val).tk
                            cc := (s.core c.val).cc, cbeats := (s.core c.val).cbeats, stepped := (s.core c.val).stepped } = s.core c.val
      ∧ { t with cores := s.cores } = s ∧ ∀ d, d ≠ c.val → t.core d = s.core d)
  ∧ (∀ (c : CoreId) (s : State) (l : Launch) (q : List Launch), (s.core c.val).queue = l :: q → s.coreSteps c.val = true →
    (s.core c.val).run = none → (s.core c.val).held = none → l.armed = false → (s.core c.val).condsHold l.entry = true →
    (s.core c.val).gangOf l.entry ≠ 0 →
    exec (.phaseFire c) s = .next (s.setCore c.val { (s.core c.val).takeConds l.entry with queue := { l with armed := true } :: q }))
  ∧ (∀ (d : DieId) (line : Fin 32) (s : State), (s.gang (32 * d.val + line.val)).members ≠ [] → (s.gang (32 * d.val + line.val)).lost = false →
    (∀ c ∈ (s.gang (32 * d.val + line.val)).members, s.coreSteps c = true ∧ ((s.core c).armedFor (line.val + 1)).isSome = true) →
    ∃ t, exec (.gangFire d line) s = .next t
      ∧ (∀ c ∈ (s.gang (32 * d.val + line.val)).members,
        (t.core c).run.map (·.launch) = ((s.core c).armedFor (line.val + 1)).map (·.1)
        ∧ some (t.core c).queue = ((s.core c).armedFor (line.val + 1)).map (·.2))
      ∧ (∀ c, c ∉ (s.gang (32 * d.val + line.val)).members → t.core c = s.core c) ∧ { t with cores := s.cores } = s)
  ∧ (∀ (d : DieId) (line : Fin 32) (s : State), (s.gang (32 * d.val + line.val)).lost = true →
    ∃ t, exec (.gangLost d line) s = .next t ∧ (t.gang (32 * d.val + line.val)).lost = false
      ∧ (∀ c ∈ (s.gang (32 * d.val + line.val)).members, (s.core c).inGang (line.val + 1) = true → (t.core c).held = some 6)
      ∧ ∀ c, c ∉ (s.gang (32 * d.val + line.val)).members ∨ (s.core c).inGang (line.val + 1) = false → t.core c = s.core c)
  ∧ (∀ (c : CoreId) (s : State) (l : Launch), (s.core c.val).ending = some l →
    (s.core c.val).spanCount + ((pdPosts (tget 0 (s.core c.val).phaseTab l.entry)).filter fun p => p.en && p.remote).length ≤ 256 →
    (∀ p ∈ pdPosts (tget 0 (s.core c.val).phaseTab l.entry), p.en = false) →
    exec (.phaseEnd c) s = .next (s.setCore c.val ({ s.core c.val with ending := none }.outcome ⟨l.seq, 0, 0⟩)))
  ∧ (∀ (c : CoreId) (s : State) (l : Launch) (ps : List Post), (s.core c.val).ending = some l →
    ps = (pdPosts (tget 0 (s.core c.val).phaseTab l.entry)).filter (·.en) →
    (s.core c.val).spanCount + (ps.filter (·.remote)).length ≤ 256 →
    exec (.phaseEnd c) s = .next (postRemote c.val (ps.filter (·.remote))
      (State.addCounters (s.setCore c.val ({ s.core c.val with ending := none }.outcome ⟨l.seq, 0, 0⟩)) c.val
        ((ps.filter fun p => !p.remote).map fun p => (p.credit, p.ctr, p.amount)))))
  ∧ (∀ (s : State) (c : Nat) (l : List (Bool × Nat × Nat)), (∀ cr n, (s.core c).ctr cr n + sumTo l cr n ≤ 65535) →
    (∀ cr n, ((s.addCounters c l).core c).ctr cr n = (s.core c).ctr cr n + sumTo l cr n)
    ∧ { (s.addCounters c l).core c with tk := (s.core c).tk, cc := (s.core c).cc } = s.core c
    ∧ { s.addCounters c l with cores := s.cores } = s ∧ ∀ d, d ≠ c → (s.addCounters c l).core d = s.core d)
  ∧ (∀ (d : DieId) (s : State) (n : Nat), tget 0 s.holdNotice d.val = n + 1 → tget 0 s.dieCycle d.val % 64 = 0 →
    ∃ t, exec (.holdCountApply d) s = .next t ∧ t.holdOf d.val = n ∧ tget 0 t.holdNotice d.val = 0
      ∧ (∀ e, e ≠ d.val → t.holdOf e = s.holdOf e ∧ tget 0 t.holdNotice e = tget 0 s.holdNotice e)
      ∧ { t with hold := s.hold, holdNotice := s.holdNotice } = s)
  ∧ (∀ (d : DieId) (s : State), tget 0 s.dieCycle d.val % 64 ≠ 0 → exec (.holdCountApply d) s = .next s)
  ∧ (∀ (c : CoreId) (s : State) (r : PhaseRun), (s.core c.val).run = some r → s.coreSteps c.val = true → (s.core c.val).ending = none →
    (s.core c.val).stepped < s.freeCycles (coreDie c.val) → pdSchedCount (tget 0 (s.core c.val).phaseTab r.launch.entry) = 0 →
    ((s.core c.val).stepAt r.word).mac = false → ((s.core c.val).stepAt r.word).drain = false → ((s.core c.val).stepAt r.word).init = false →
    ∃ t, exec (.phaseStep c [] []) s = .next t
      ∧ (t.core c.val).run.map (fun x => (x.launch, x.word, x.rep, x.stepNo)) =
        ((s.core c.val).walkNext (tget 0 (s.core c.val).phaseTab r.launch.entry) ⟨r.word, r.rep, r.loops, r.sched, r.schedRep⟩).map
          (fun w => (r.launch, w.word, w.rep, r.stepNo + 1))
      ∧ (t.core c.val).ending = (if ((s.core c.val).walkNext (tget 0 (s.core c.val).phaseTab r.launch.entry)
          ⟨r.word, r.rep, r.loops, r.sched, r.schedRep⟩).isNone = true then some r.launch else none)
      ∧ { t.core c.val with run := (s.core c.val).run, ending := (s.core c.val).ending, stepped := (s.core c.val).stepped
                            sentNow := (s.core c.val).sentNow, cbeats := (s.core c.val).cbeats } = s.core c.val
      ∧ { t with cores := s.cores } = s ∧ (∀ d, d ≠ c.val → t.core d = s.core d) ∧ sameMemory s t)
  ∧ (∀ (k : Core) (r : PhaseRun) (d : Nat) (w : StepWord) (a b sa sb : List Byte) (m n kk : Nat) (win : Bool),
    macShape w.fmtA w.fmtB = some (m, n, kk, win) → w.blk = 0 → w.accBase + m * n ≤ 1024 →
    let terms (i : Nat) : List FVal := (List.range kk).map fun x =>
      (fmulX (opElem w.fmtA (leVal a) (i / n * kk + x)) (opElem w.fmtB (leVal b) (i % n * kk + x))).1
    (∀ i, i < m * n → (k.accAt (accBank w.accSel r.parity) (w.accBase + i)).room win (macAnchor d w) kk = true) →
    ∃ k', k.macStep r d w a b sa sb = some (k', r) ∧ { k' with acc := k.acc } = k
      ∧ (∀ i, i < m * n → k'.accAt (accBank w.accSel r.parity) (w.accBase + i) =
        (k.accAt (accBank w.accSel r.parity) (w.accBase + i)).take win (macAnchor d w) 43 1 (terms i))
      ∧ ∀ bank e, e < 1024 → bank ≠ accBank w.accSel r.parity ∨ e < w.accBase ∨ w.accBase + m * n ≤ e → k'.accAt bank e = k.accAt bank e)
  ∧ (∀ (k : Core) (r : PhaseRun) (d : Nat) (w : StepWord), drainBase w r.rep + 32 ≤ 1024 →
    (∀ bank e, e < 1024 → (k.drainStep r d w).1.accAt bank e =
      if bank = accBank w.dsel r.parity ∧ drainBase w r.rep ≤ e ∧ e < drainBase w r.rep + 32 then .empty else k.accAt bank e)
    ∧ { (k.drainStep r d w).1 with acc := k.acc } = k
    ∧ (k.drainStep r d w).2 = (List.range 32).flatMap fun i =>
        drainEntry r w (k.leadKind d).2 i (k.accAt (accBank w.dsel r.parity) (drainBase w r.rep + i)))
  ∧ (∀ (s : State) (c code : Nat) (r : PhaseRun), (s.core c).run = some r →
    ((s.phaseFault c code).core c).run = none ∧ ((s.phaseFault c code).core c).held = some code
    ∧ ((s.core c).recentSeq r.launch.seq = true → ((s.phaseFault c code).core c).outcomes.getLast? = some ⟨r.launch.seq, 2, code⟩)
    ∧ ((s.phaseFault c code).core c).queue = (s.core c).queue ∧ ((s.phaseFault c code).core c).threads = (s.core c).threads
    ∧ (∀ cr n, ((s.phaseFault c code).core c).ctr cr n = (s.core c).ctr cr n) ∧ sameMemory s (s.phaseFault c code)
    ∧ ∀ d, d ≠ c → (s.phaseFault c code).core d = s.core d)
  ∧ ∀ (s : State) (c code : Nat) (l : Launch) (q : List Launch), (s.core c).run = none → (s.core c).queue = l :: q →
    ((s.phaseFault c code).core c).run = none ∧ ((s.phaseFault c code).core c).held = some code
    ∧ ((s.core c).recentSeq l.seq = true → ((s.phaseFault c code).core c).outcomes.getLast? = some ⟨l.seq, 2, code⟩)
    ∧ ((s.phaseFault c code).core c).queue = q ∧ ((s.phaseFault c code).core c).threads = (s.core c).threads
    ∧ (∀ cr n, ((s.phaseFault c code).core c).ctr cr n = (s.core c).ctr cr n) ∧ sameMemory s (s.phaseFault c code)
    ∧ ∀ d, d ≠ c → (s.phaseFault c code).core d = s.core d

/-- R65, R66, R67, R90, R141, R142, R149 to R153: events of a core and of the mesh's dynamic traffic: a pending write-back whose bank is free leaves, a
freed vector register is zeroed, zeroing ends and every row that fails is reported, inbound beats are gathered and the last one performs the packet or, with a
beat poisoned, answers "data error", and a beat moves along its route in its slot when the next buffer has room. -/
def Obligations.CoreAndMeshEvents : Prop :=
  (∀ (w : WriteBack) (s : State) (a : Nat), (s.core w.core.val).writeBacks[w.slot.val]? = some a → (s.core w.core.val).inboundAt a = false →
    exec (.sramWriteBack w) s = .next (s.setCore w.core.val
      { s.core w.core.val with writeBacks := (s.core w.core.val).writeBacks.eraseIdx w.slot.val }))
  ∧ (∀ (c : CoreId) (r : Fin 256) (s : State), (s.core c.val).vzero.contains r.val = true →
    ∃ t, exec (.vectorRegisterZeroed c r) s = .next t ∧ tget 0 (t.core c.val).vregs r.val = 0
      ∧ (t.core c.val).vzero = removeFirst r.val (s.core c.val).vzero
      ∧ (∀ n, n ≠ r.val → tget 0 (t.core c.val).vregs n = tget 0 (s.core c.val).vregs n)
      ∧ { t.core c.val with vregs := (s.core c.val).vregs, vzero := (s.core c.val).vzero } = s.core c.val
      ∧ { t with cores := s.cores } = s ∧ ∀ d, d ≠ c.val → t.core d = s.core d)
  ∧ (∀ (c : CoreId) (s : State) (rows : List (Fin 6144)), (s.core c.val).power = .zeroing → s.releaseWait = [] →
    exec (.coreZeroingComplete c rows) s =
      .next (rows.foldl (fun u r => u.report 0x03 c.val (64 * r.val)) (s.setCore c.val { s.core c.val with power := .running })))
  ∧ (∀ (c : CoreId) (es : List Ecc) (s : State) (b : Beat) (l : List Beat), (s.core c.val).inbound = b :: l → b.last = false →
    exec (.inboundDelivery c es) s =
      .next (s.setCore c.val { s.core c.val with inbound := l, inBad := (s.core c.val).inBad || b.poison }))
  ∧ (∀ (c : CoreId) (es : List Ecc) (s : State) (b : Beat) (p : Pkt) (l : List Beat), (s.core c.val).inbound = b :: l → b.last = true →
    b.poison = false → (s.core c.val).inBad = false → b.pkt = some p →
    exec (.inboundDelivery c es) s = .next (State.corePerform (s.setCore c.val { s.core c.val with inbound := l, inBad := false }) c.val p es))
  ∧ (∀ (c : CoreId) (es : List Ecc) (s : State) (b : Beat) (p : Pkt) (l : List Beat), (s.core c.val).inbound = b :: l → b.last = true →
    b.poison = true ∨ (s.core c.val).inBad = true → b.pkt = some p → isCplOp p.op = false → p.tc ≠ 0 →
    exec (.inboundDelivery c es) s =
      .next (State.coreReply (s.setCore c.val { s.core c.val with inbound := l, inBad := false }) c.val p (cplOp p.op) 0x05 []))
  ∧ (∀ (c : CoreId) (src : Fin 6) (e : Ecc) (s : State) (b : Beat) (l : List Beat) (j : Nat), (s.core c.val).buf src.val = b :: l →
    s.linkSlot c.val 4 src.val = some j → dynRoute c.val (decide (b.ident = 64)) b.dest = 4 → (s.core c.val).inbound.length < 8 →
    exec (.dynamicBeatForward c 4 src e) s = .next (s.onCore c.val fun k =>
      { k.setBuf src.val l with sentNow := (16 * j + 4) :: k.sentNow, inbound := k.inbound ++ [b] }))
  ∧ (∀ (c : CoreId) (src : Fin 6) (e : Ecc) (s : State) (b : Beat) (l : List Beat) (j : Nat), (s.core c.val).buf src.val = b :: l →
    s.linkSlot c.val 5 src.val = some j → dynRoute c.val (decide (b.ident = 64)) b.dest = 5 →
    exec (.dynamicBeatForward c 5 src e) s = .next (State.gatewayBeat (s.onCore c.val fun k =>
      { k.setBuf src.val l with sentNow := (16 * j + 8 + src.val) :: k.sentNow }) (coreCluster c.val) b))
  ∧ (∀ (c : CoreId) (link : Fin 6) (src : Fin 6) (s : State) (n : Nat) (b : Beat) (l : List Beat) (j : Nat), link.val < 4 →
    (s.core c.val).buf src.val = b :: l → s.linkSlot c.val link.val src.val = some j →
    dynRoute c.val (decide (b.ident = 64)) b.dest = link.val → neighbour c.val link.val = some n →
    n ≠ c.val → ((s.core n).buf (opposite link.val)).length < 4 →
    exec (.dynamicBeatForward c link src .ok) s = .next ((s.onCore c.val fun k =>
        { k.setBuf src.val l with sentNow := (16 * j + link.val) :: k.sentNow }).onCore n fun k =>
        k.setBuf (opposite link.val) (k.buf (opposite link.val) ++ [b])))
  ∧ ∀ (c : CoreId) (link : Fin 6) (src : Fin 6) (s : State) (n : Nat) (b : Beat) (l : List Beat) (j : Nat), link.val < 4 →
    (s.core c.val).buf src.val = b :: l → s.linkSlot c.val link.val src.val = some j →
    dynRoute c.val (decide (b.ident = 64)) b.dest = link.val → neighbour c.val link.val = some n →
    n ≠ c.val → ((s.core n).buf (opposite link.val)).length < 4 →
    exec (.dynamicBeatForward c link src .uncorrectable) s = .next (((s.report 0x07 (meshLink c.val link.val) 0).onCore c.val fun k =>
        { k.setBuf src.val l with sentNow := (16 * j + link.val) :: k.sentNow }).onCore n fun k =>
        k.setBuf (opposite link.val) (k.buf (opposite link.val) ++ [{ b with poison := true }]))

/-- R86, R246: what a request of another agent does at a core once its last beat is there: a load answers the bytes of its window, a store
writes them, an atomic does both, and the answer leaves over the mesh; an uncorrectable row read answers "data error". -/
def Obligations.CoreServesRequests : Prop :=
  (∀ (s : State) (c : Nat) (p : Pkt), p.op = 0x01 →
    s.corePerform c p [] = s.coreReply c p 0x08 0 (s.windowRead c (p.addr % 2 ^ 20) (loadLen p)))
  ∧ (∀ (s : State) (c : Nat) (p : Pkt) (es : List Ecc), p.op = 0x02 ∨ p.op = 0x03 →
    s.corePerform c p es = (s.windowWrite c (p.addr % 2 ^ 20) p.payload).coreReply c p 0x09 0 [])
  ∧ (∀ (s : State) (c : Nat) (p : Pkt) (es : List Ecc), p.op = 0x11 →
    s.corePerform c p es = (State.destTally (s.windowWrite c (p.addr % 2 ^ 20) (p.payload.drop 16)) (leVal (p.payload.take 16))
      (p.payload.drop 16).length).coreReply c p 0x09 0 [])
  ∧ (∀ (s : State) (c : Nat) (p : Pkt) (v : BitVec 64), 0x20 ≤ p.op → p.op ≤ 0x29 →
    atomicNew (p.op - 0x20) (BitVec.ofNat 64 (leVal (s.windowRead c (p.addr % 2 ^ 20) 8))) (BitVec.ofNat 64 (leVal (p.payload.take 8)))
      (BitVec.ofNat 64 (leVal (p.payload.drop 8))) = some v →
    s.corePerform c p [] =
      (s.windowWrite c (p.addr % 2 ^ 20) (leBytes 8 v.toNat)).coreReply c p 0x0A 0 (s.windowRead c (p.addr % 2 ^ 20) 8))
  ∧ (∀ (s : State) (c : Nat) (p : Pkt), p.op = 0x01 → p.addr % 2 ^ 20 < 0x60000 → 1 ≤ loadLen p →
    s.corePerform c p [.uncorrectable] =
      State.coreReply ((s.setCore c { s.core c with ue := true }).report 0x02 c (p.addr % 2 ^ 20 / 64 * 64)) c p 0x08 0x05 [])
  ∧ ∀ (s : State) (c a : Nat) (bs : List Byte), a + bs.length ≤ 0x60000 →
    (∀ x, memGet ((s.windowWrite c a bs).core c).sram x = if a ≤ x ∧ x < a + bs.length then bs.getD (x - a) 0 else memGet (s.core c).sram x)
    ∧ (∀ d, d ≠ c → (s.windowWrite c a bs).core d = s.core d) ∧ (∀ k, (s.windowWrite c a bs).th c k = s.th c k)
    ∧ (s.windowWrite c a bs).hbm = s.hbm

/-- R158 to R164: the reduction tree at a context of its node: a word is accepted by its context, stored early, or refused as busy where the early words
are full; a fast sum's inputs fold in order; finished root writes, a final notice and a timeout end or abort the context; a word refused as busy
is sent again to those that refused it; form and finish descriptors run, or abort on an uncorrectable row; an ended context gives its handle the
outcome. That an unlisted arrival is at the node itself is the model's reading (log 41). -/
def Obligations.ReductionEvents : Prop :=
  (∀ (p : Pkt) (s : State) (n : Nat) (x : ShCtx), p.plain = true → s.behind p = false → nodeOfEp s.variant p.dst = some n →
    (landed s p).nodeOut n = false → (landed s p).nodeInReset n = false → 16384 ≤ n ∨ s.net.contains p = false →
    (landed s p).wordCtx n p.barn (p.addr % 2 ^ 32) = some x →
    exec (.sheafWord p) s = .next (((landed s p).nodeReply n p 0).shAccept x p))
  ∧ (∀ (p : Pkt) (s : State) (n : Nat), p.plain = true → s.behind p = false → nodeOfEp s.variant p.dst = some n →
    (landed s p).nodeOut n = false → (landed s p).nodeInReset n = false → 16384 ≤ n ∨ s.net.contains p = false →
    (landed s p).wordCtx n p.barn (p.addr % 2 ^ 32) = none →
    exec (.sheafWord p) s = .next (
      if nodeEarly n ≤ ((landed s p).sheafEarly.filter fun y => decide (y.1 = n)).length then (landed s p).nodeReply n p 0x0E
      else { (landed s p).nodeReply n p 0 with sheafEarly := (landed s p).sheafEarly ++ [(n, p)] }))
  ∧ (∀ (node : Nat) (r : CtxRef) (s : State) (x : ShCtx), s.ctx node r = some x → shKind x.desc = 0 → shLocal x.desc = 0 → shRoot x.desc = false →
    x.stage = .sum → x.inputsReady = true →
    let els := (List.range (shBlocks x.desc)).flatMap fun b => fastFold ((sortChildren x.children).map fun y => fp32Block y.sum b)
    exec (.sheafNodeFold node r []) s = .next (
      let q := s.shWords { x with stage := .notice } (shParent x.desc) false 128 (els.flatMap fun v => leBytes 4 v)
      q.2.putCtx q.1))
  ∧ (∀ (node : Nat) (r : CtxRef) (s : State) (x : ShCtx), s.ctx node r = some x → x.stage = .writing → x.sent.any (·.write) = false →
    exec (.rootWritesComplete node r) s = .next ((ctrlAll s x (if x.failed then 2 else 1) x.childEps).endCtx x x.failed))
  ∧ (∀ (node : Nat) (r : CtxRef) (s : State) (x : ShCtx), s.ctx node r = some x → shTimeout x.desc ≠ 0 →
    exec (.sheafTimeout node r) s = .next (if x.stage = .notice then s.endCtx x true else s.shAbort x))
  ∧ (∀ (p : Pkt) (s : State), s.net.contains p = false → s.inbox.contains p = false → p.taken = true →
    exec (.sheafCtrl p) s = .next (s.ctrlTake p))
  ∧ (∀ (p : Pkt) (s : State) (n : Nat), s.net.contains p = true → p.taken = true → epPkg p.src = s.selfNum ∨ s.helmServes = true →
    nodeOfEp s.variant p.dst = some n →
    exec (.sheafCtrl p) s = .next (if n < 16384 then (s.consume p).inject n p else (s.consume p).ctrlTake p))
  ∧ (∀ (s : State) (p : Pkt) (n : Nat) (x : ShCtx), nodeOfEp s.variant p.dst = some n → s.wordCtx n p.barn (p.addr % 2 ^ 32) = some x →
    x.stage = .notice → leVal ((p.payload.drop 16).take 1) = 1 →
    s.ctrlTake p = (ctrlAll s x 1 x.childEps).endCtx x false)
  ∧ (∀ (s : State) (p : Pkt) (n : Nat) (x : ShCtx), nodeOfEp s.variant p.dst = some n → s.wordCtx n p.barn (p.addr % 2 ^ 32) = some x →
    leVal ((p.payload.drop 16).take 1) = 0 → s.ctrlTake p = s.shAbort x)
  ∧ (∀ (node : Nat) (r : CtxRef) (s : State) (x : ShCtx) (y : ShSent), s.ctx node r = some x → x.sent.find? (fun z => !z.busy.isEmpty) = some y →
    exec (.sheafBusyResend node r) s = .next (
      let q := stampAll s (y.busy.map fun e => { y.pkt with dst := e })
      (q.2.putCtx { x with sent := x.sent.map fun z =>
        if z.rtag = y.rtag then { y with busy := [], want := y.want ++ awaits q.1 } else z }).nodeSend node q.1))
  ∧ (∀ (c : CoreId) (h : Fin 16) (s : State) (x : ShCtx), s.handleCtx c.val h.val 2 = some x → shExp x.desc ≠ 0 →
    exec (.sheafFormComplete c h []) s = .next (State.endCtx (s.setCore c.val ((s.core c.val).sramWrite (shMapSrc x.desc)
      ((List.range (shBlocks x.desc)).flatMap fun b => ((s.core c.val).shSumWord x.desc b (shExp x.desc) x.failed).mesh))) x false))
  ∧ (∀ (c : CoreId) (h : Fin 16) (s : State) (x : ShCtx), s.handleCtx c.val h.val 2 = some x → shExp x.desc = 0 →
    exec (.sheafFormComplete c h []) s = .next (State.endCtx (s.setCore c.val ((s.core c.val).sramWrite (shMapSrc x.desc)
      (padTo (shMapBytes x.desc) ((List.range (shBlocks x.desc)).flatMap fun b => leBytes 16
        (RedHdr.bits { (s.core c.val).shExpHdr x.desc b with abort := ((s.core c.val).shExpHdr x.desc b).abort || x.failed })))))
      x false))
  ∧ (∀ (c : CoreId) (h : Fin 16) (s : State) (x : ShCtx), s.handleCtx c.val h.val 3 = some x → x.stage = .sum →
    let hdr (b : Nat) : RedHdr := RedHdr.ofBits (leVal (memRead (s.core c.val).sram (shMapSrc x.desc + 16 * b) 16))
    let word (b : Nat) : RedWord := RedWord.ofMesh (memRead (s.core c.val).sram (shSrc x.desc + 256 * b) 256)
    exec (.sheafFinishComplete c h []) s = .next (
      if (List.range (shBlocks x.desc)).all (fun b =>
          decide ((hdr b).tag = BitVec.ofNat 16 (shTag x.desc)) && decide ((hdr b).pass = false) && decide ((hdr b).g = redG (shN x.desc))
          && decide ((hdr b).exp = shExp x.desc)
          && (decide ((word b).hdr.tag = BitVec.ofNat 16 (shTag x.desc)) && decide ((word b).hdr.pass = true)
            && decide ((word b).hdr.g = redG (shN x.desc)) && decide ((word b).hdr.exp = shExp x.desc))
          && redExpOk (shN x.desc) (hdr b) && redSumOk (shN x.desc) (hdr b) (word b))
      then s.shDecide x ((List.range (shBlocks x.desc)).flatMap fun b => redFinish (shFmt (shOfmt x.desc)) (shN x.desc) (word b))
      else s.endCtx x true))
  ∧ (∀ (c : CoreId) (h : Fin 16) (s : State) (x : ShCtx), s.handleCtx c.val h.val 3 = some x → x.stage = .sum → 1 ≤ shSrcRows x.desc →
    exec (.sheafFinishComplete c h [.uncorrectable]) s = .next
      (State.endCtx ((s.setCore c.val { s.core c.val with ue := true }).report 0x02 c.val (shSrc x.desc / 64 * 64)) x true))
  ∧ ∀ (s : State) (x : ShCtx) (ab : Bool), (s.core x.owner).handle x.handle = .pending →
    ((s.endCtx x ab).core x.owner).handle x.handle = .ended ab
    ∧ ∀ y ∈ (s.endCtx x ab).sheaf, x.is y = false

/-! Memory, copies and queues (spec/10). -/

/-- R24, R65, R241, R246, R248, R266, R386: a request that arrives in its path's order and that its HBM target admits: a load answers the bytes and changes
none of them; a store writes its bytes, and every other byte of HBM reads as before; an atomic answers the old value. A load of a register of the
register window answers its value; a request of a core's window goes on over the mesh. A refused store is answered with its status and writes
nothing, a load that meets an uncorrectable line answers "data error", and an in-package store behind one of its path waits, as does any request
to an HBM channel that retrains. -/
def Obligations.HbmRequests : Prop :=
  (∀ (p : Pkt) (s : State) (d o : Nat), p.plain = true → s.behind p = false → localRegion (addrLocal p.addr) = .hbm d o → 1 ≤ loadLen p →
    loadLen p ≤ 256 → (landed s p).targetCheck (epPkg p.src) p.barn .load (addrLocal p.addr) (loadLen p) = (0, landed s p) →
    ∃ t, exec (.load p []) s = .next t ∧ t = (landed s p).reply p 0x08 0 (memRead s.hbm (addrLocal p.addr) (loadLen p))
      ∧ ∀ a, memGet t.hbm a = memGet s.hbm a)
  ∧ (∀ (p : Pkt) (s u : State) (e : List HbmErr) (d o : Nat), p.plain = true → s.behind p = false → localRegion (addrLocal p.addr) = .hbm d o →
    1 ≤ loadLen p → loadLen p ≤ 256 →
    (landed s p).targetCheck (epPkg p.src) p.barn .load (addrLocal p.addr) (loadLen p) = (0, landed s p) →
    hbmErrors (landed s p) e (linesOf (addrLocal p.addr) (loadLen p)) = (false, u) →
    exec (.load p e) s = .next (u.reply p 0x08 0x05 []))
  ∧ (∀ (p : Pkt) (s : State) (d o : Nat), p.plain = true → s.behind p = false → localRegion (addrLocal p.addr) = .hbm d o →
    (landed s p).targetCheck (epPkg p.src) p.barn .store (addrLocal p.addr) p.payload.length = (0, landed s p) →
    ∃ t, exec (.store p []) s = .next t
      ∧ t = ((landed s p).hbmStore (addrLocal p.addr) p.payload).reply p 0x09 0 []
      ∧ ∀ a, memGet t.hbm a = if addrLocal p.addr ≤ a ∧ a < addrLocal p.addr + p.payload.length then
          p.payload.getD (a - addrLocal p.addr) 0 else memGet s.hbm a)
  ∧ (∀ (p : Pkt) (s : State) (d o : Nat) (v : BitVec 64), p.plain = true → s.behind p = false → localRegion (addrLocal p.addr) = .hbm d o →
    (landed s p).targetCheck (epPkg p.src) p.barn .atomic (addrLocal p.addr) 8 = (0, landed s p) →
    atomicNew (p.op - 0x20) (BitVec.ofNat 64 (leVal (memRead s.hbm (addrLocal p.addr) 8))) (BitVec.ofNat 64 (leVal (p.payload.take 8)))
      (BitVec.ofNat 64 (leVal (p.payload.drop 8))) = some v →
    ∃ t, exec (.atomic p []) s = .next t
      ∧ t = ((landed s p).hbmStore (addrLocal p.addr) (leBytes 8 v.toNat)).reply p 0x0A 0 (memRead s.hbm (addrLocal p.addr) 8)
      ∧ ∀ a, memGet t.hbm a = if addrLocal p.addr ≤ a ∧ a < addrLocal p.addr + 8 then
          (leBytes 8 v.toNat).getD (a - addrLocal p.addr) 0 else memGet s.hbm a)
  ∧ (∀ (p : Pkt) (s : State) (o v : Nat) (e : List HbmErr), p.plain = true → s.behind p = false → localRegion (addrLocal p.addr) = .reg o →
    loadLen p = 8 → (landed s p).targetCheck (epPkg p.src) p.barn .load (addrLocal p.addr) 8 = (0, landed s p) →
    (landed s p).regLoad p.barn o = some v →
    exec (.load p e) s = .next ((landed s p).reply p 0x08 0 (leBytes 8 v)))
  ∧ (∀ (p : Pkt) (s : State) (c o : Nat) (e : List HbmErr), p.plain = true → s.behind p = false → localRegion (addrLocal p.addr) = .core c o →
    (1 ≤ loadLen p → loadLen p ≤ 256 →
      (landed s p).targetCheck (epPkg p.src) p.barn .load (addrLocal p.addr) (loadLen p) = (0, landed s p) →
      exec (.load p e) s = .next ((landed s p).inject c p))
    ∧ ((landed s p).targetCheck (epPkg p.src) p.barn .store (addrLocal p.addr) p.payload.length = (0, landed s p) →
      exec (.store p e) s = .next ((landed s p).inject c p))
    ∧ ((landed s p).targetCheck (epPkg p.src) p.barn .atomic (addrLocal p.addr) 8 = (0, landed s p) →
      exec (.atomic p e) s = .next ((landed s p).inject c p)))
  ∧ (∀ (p : Pkt) (s u : State) (st : Nat) (e : List HbmErr), p.plain = true → s.behind p = false → st ≠ 0 →
    (landed s p).targetCheck (epPkg p.src) p.barn .store (addrLocal p.addr) p.payload.length = (st, u) →
    ∃ t, exec (.store p e) s = .next t ∧ t = u.reply p 0x09 st [] ∧ ∀ a, memGet t.hbm a = memGet s.hbm a)
  ∧ (∀ (p : Pkt) (s : State) (e : List HbmErr), s.hbmWaits (addrLocal p.addr) (accessLen p) = true →
    exec (.load p e) s = .next s ∧ exec (.store p e) s = .next s ∧ exec (.atomic p e) s = .next s ∧ exec (.copyWrite p e) s = .next s
    ∧ exec (.copyPull p e) s = .next s)
  ∧ ∀ (p : Pkt) (s : State) (e : List HbmErr), s.behind p = true → exec (.store p e) s = .next s

/-- R24, R25, R240, R244, R245, R266: an access that Table 10-4 admits comes from the barn that owns its HBM granule, core or queue, or is to a register
page of an existing barn; it is aligned, inside what is fitted, its target is in service, and it reads no poisoned line. A unit out of service is
answered 0x03 before anything else, a core in reset 0x04, an access that is not allowed 0x06, and one of another barn 0x0F, counted for the owner. -/
def Obligations.TargetChecks : Prop :=
  (∀ (s u : State) (pkg barn : Nat) (kind : TKind) (l n : Nat), s.targetCheck pkg barn kind l n = (0, u) →
    u = s ∧ alignedReq kind l n = true
    ∧ (∀ d o, localRegion l = .hbm d o → s.granuleBarn (granuleOf l) = some barn ∧ o + n ≤ hbmLimit s.variant ∧ kind ≠ .counter
      ∧ s.dieDown.contains d = false
      ∧ ∀ w ∈ linesOf l n, ¬(kind = .store ∧ l ≤ 64 * w ∧ 64 * w + 64 ≤ l + n) → s.poison.contains w = false)
    ∧ (∀ c o, localRegion l = .core c o → s.coreBarn c = some barn ∧ (s.core c).power = .running ∧ s.coreOut c = false
      ∧ s.dieDown.contains (coreDie c) = false ∧ (kind = .atomic → o + n ≤ 0x60000))
    ∧ ∀ o, localRegion l = .reg o → pkg = s.selfNum ∧ n = 8 ∧ s.dieDown.contains (localStation l) = false
      ∧ (o < 0x100000 → s.barnExists barn = true) ∧ (0x100000 ≤ o → s.queueBarn ((o - 0x100000) / 32) = some barn))
  ∧ (∀ (s : State) (pkg barn : Nat) (kind : TKind) (l n : Nat), localRegion l ≠ .none →
    (∀ d o, localRegion l = .hbm d o → s.dieDown.contains d = true) → (∀ o, localRegion l = .reg o → s.dieDown.contains (localStation l) = true) →
    (∀ c o, localRegion l = .core c o → s.coreOut c = true ∨ s.dieDown.contains (coreDie c) = true) →
    s.targetCheck pkg barn kind l n = (0x03, s))
  ∧ (∀ (s : State) (pkg barn : Nat) (kind : TKind) (l n c o : Nat), localRegion l = .core c o → s.coreOut c = false →
    s.dieDown.contains (coreDie c) = false → (s.core c).power ≠ .running → s.targetCheck pkg barn kind l n = (0x04, s))
  ∧ (∀ (s : State) (pkg barn : Nat) (kind : TKind) (l n d o : Nat), localRegion l = .hbm d o → s.dieDown.contains d = false →
    s.opAllowed (decide (pkg = s.selfNum)) true kind l n = false → s.targetCheck pkg barn kind l n = (0x06, s))
  ∧ ∀ (s : State) (pkg barn : Nat) (kind : TKind) (l n d o b : Nat), localRegion l = .hbm d o → s.dieDown.contains d = false →
    s.opAllowed (decide (pkg = s.selfNum)) true kind l n = true → s.granuleBarn (granuleOf l) = some b → b ≠ barn →
    s.targetCheck pkg barn kind l n = (0x0F, s.onMctr b fun m => { m with denied := (m.denied + 1) % 2 ^ 64 })

/-- R86, R252, R257, R258, R260: counter stores, messages, copy segments and pulls at targets that admit them: a counter store enters the core's mesh, a
message is written into its ring with its sender and time and the tail advances, a segment is written and answered, a pull is answered with a
segment. A message to a queue that is not enabled is answered 0x06, to a full ring 0x07, and the ring keeps its tail. -/
def Obligations.CopyMessageAndCounterRequests : Prop :=
  (∀ (p : Pkt) (s : State) (c o : Nat), p.plain = true → s.behind p = false → localRegion (addrLocal p.addr) = .core c o →
    (landed s p).targetCheck (epPkg p.src) p.barn .counter (addrLocal p.addr) 4 = (0, landed s p) →
    exec (.counterStore p) s = .next ((landed s p).inject c p))
  ∧ (∀ (p : Pkt) (s : State), p.plain = true → s.behind p = false → s.dieDown.contains (p.addr % 65536 / 4096) = false →
    (s.queue (p.addr % 65536)).en = true →
    s.queueBarn (p.addr % 65536) = some p.barn → s.peerAdmitted p.barn (epPkg p.src) = true →
    (2 ^ 32 + (s.queue (p.addr % 65536)).tail - (s.queue (p.addr % 65536)).head) % 2 ^ 32 ≠ (s.queue (p.addr % 65536)).entries →
    p.payload.length + 16 ≤ (s.queue (p.addr % 65536)).entryBytes →
    ∃ t, exec (.message p) s = .next t
      ∧ t.queue (p.addr % 65536) = { s.queue (p.addr % 65536) with tail := ((s.queue (p.addr % 65536)).tail + 1) % 2 ^ 32 }
      ∧ (∀ q, q ≠ p.addr % 65536 → t.queue q = s.queue q)
      ∧ (∀ a, memGet t.hbm a =
        if (s.queue (p.addr % 65536)).base + (s.queue (p.addr % 65536)).tail % (s.queue (p.addr % 65536)).entries * (s.queue (p.addr % 65536)).entryBytes ≤ a
          ∧ a < (s.queue (p.addr % 65536)).base + (s.queue (p.addr % 65536)).tail % (s.queue (p.addr % 65536)).entries
            * (s.queue (p.addr % 65536)).entryBytes + (s.queue (p.addr % 65536)).entryBytes
        then (leBytes 8 (packFields [(30, p.src), (3, p.skind), (13, p.payload.length)]) ++ leBytes 8 s.reckon ++ p.payload).getD
          (a - ((s.queue (p.addr % 65536)).base + (s.queue (p.addr % 65536)).tail % (s.queue (p.addr % 65536)).entries
            * (s.queue (p.addr % 65536)).entryBytes)) 0
        else memGet s.hbm a))
  ∧ (∀ (p : Pkt) (s : State), p.plain = true → s.behind p = false → s.dieDown.contains (p.addr % 65536 / 4096) = false →
    ((s.queue (p.addr % 65536)).en = false → exec (.message p) s = .next ((landed s p).reply p 0x09 0x06 []))
    ∧ ((s.queue (p.addr % 65536)).en = true → s.queueBarn (p.addr % 65536) = some p.barn → s.peerAdmitted p.barn (epPkg p.src) = true →
      (2 ^ 32 + (s.queue (p.addr % 65536)).tail - (s.queue (p.addr % 65536)).head) % 2 ^ 32 = (s.queue (p.addr % 65536)).entries →
      exec (.message p) s = .next (State.reply ((landed s p).onMctr p.barn fun m => { m with msgRefused := (m.msgRefused + 1) % 2 ^ 64 })
        p 0x09 0x07 [])))
  ∧ (∀ (p : Pkt) (s : State) (d o : Nat), p.plain = true → s.behind p = false → localRegion (addrLocal p.addr) = .hbm d o →
    (landed s p).rangeCheck (epPkg p.src) p.barn .store (addrLocal p.addr) (p.payload.drop 16).length = (0, landed s p) →
    exec (.copyWrite p []) s = .next ((((landed s p).hbmStore (addrLocal p.addr) (p.payload.drop 16)).destTally
      (leVal (p.payload.take 16)) (p.payload.drop 16).length).reply p 0x09 0 []))
  ∧ (∀ (p : Pkt) (s : State) (c o : Nat) (e : List HbmErr), p.plain = true → s.behind p = false → localRegion (addrLocal p.addr) = .core c o →
    (landed s p).rangeCheck (epPkg p.src) p.barn .store (addrLocal p.addr) (p.payload.drop 16).length = (0, landed s p) →
    exec (.copyWrite p e) s = .next ((landed s p).inject c p))
  ∧ ∀ (p : Pkt) (s : State) (d o : Nat), p.plain = true → s.behind p = false → localRegion (addrLocal p.addr) = .hbm d o →
    (landed s p).rangeCheck (epPkg p.src) p.barn .load (addrLocal p.addr) (pullLen p) = (0, landed s p) →
    rangeAssigned (addrLocal (leVal ((p.payload.drop 16).take 6))) (pullLen p) = true → (landed s p).pullRefusal p = none →
    exec (.copyPull p []) s = .next (State.pullSend ((landed s p).served p.src (bitsAt (leVal (p.payload.take 16)) 64 8) p.barn
      (addrLocal p.addr) (pullLen p) false) p (memRead s.hbm (addrLocal p.addr) (pullLen p)))

/-- R104, R116, R142, R146, R255, R302: completions. One that the in-package network brings to a core that awaits it goes on over the mesh; any other is
at its requester. A load's data goes to its register, extended as the instruction asks, a vector load's to its register and an atomic's old value to
its own; an error status faults the thread with "load completion error" and leaves the register; a failed store is kept for the next issue. -/
def Obligations.CompletionsReachRequesters : Prop :=
  (∀ mk ∈ [Instr.loadCpl, Instr.storeCpl, Instr.atomicCpl], ∀ (p : Pkt) (s : State), p.plain = true →
    exec (mk p) s = .next (if s.net.contains p = true ∧ epPlane p.dst = false ∧ (landed s p).cplWanted p = true
      then (landed s p).inject (p.dst % 16384) p else (landed s p).deliverCpl p (p.addr % 256) p.payload))
  ∧ (∀ (p : Pkt) (s : State) (st : Nat) (data : List Byte), p.skind ≠ 3 → epPlane p.dst = false →
    s.deliverCpl p st data = s.reqDone (p.dst % 16384) p.src p.rtag st data)
  ∧ (∀ (p : Pkt) (s : State) (st : Nat) (data : List Byte), p.skind ≠ 3 → epPlane p.dst = true → epX p.dst = 1 →
    s.deliverCpl p st data = s.segDone (16 * epDie p.dst + epY p.dst % 16) p.barn p.src p.rtag st)
  ∧ (∀ (s : State) (c src tag t gd n : Nat) (sg : Bool) (data : List Byte) (r : Req),
    (s.core c).reqs.find? (fun r => r.has src tag) = some r → dropAwait src tag r.want = [] → r.dead = false → r.st = 0 →
    r.who = .load t gd n sg → data ≠ [] →
    (∀ m, ((s.reqDone c src tag 0 data).th c t).gr m = if m = gd ∧ m ≠ 0 then
        (if sg then BitVec.ofInt 64 (signedOf (8 * n) (leVal data)) else BitVec.ofNat 64 (leVal data)) else (s.th c t).gr m)
    ∧ { (s.reqDone c src tag 0 data).th c t with g := (s.th c t).g } = s.th c t
    ∧ (∀ j, j ≠ t → (s.reqDone c src tag 0 data).th c j = s.th c j)
    ∧ ((s.reqDone c src tag 0 data).core c).reqs = (s.core c).reqs.filter fun x => decide (x.tag ≠ r.tag))
  ∧ (∀ (s : State) (c src tag t gd : Nat) (data : List Byte) (r : Req),
    (s.core c).reqs.find? (fun r => r.has src tag) = some r → dropAwait src tag r.want = [] → r.dead = false → r.st = 0 →
    r.who = .atomic t gd → data ≠ [] →
    (∀ m, ((s.reqDone c src tag 0 data).th c t).gr m = if m = gd ∧ m ≠ 0 then BitVec.ofNat 64 (leVal data) else (s.th c t).gr m)
    ∧ ((s.reqDone c src tag 0 data).core c).reqs = (s.core c).reqs.filter fun x => decide (x.tag ≠ r.tag))
  ∧ (∀ (s : State) (c src tag t pool v : Nat) (data : List Byte) (r : Req),
    (s.core c).reqs.find? (fun r => r.has src tag) = some r → dropAwait src tag r.want = [] → r.dead = false → r.st = 0 →
    r.who = .vload t pool v → data ≠ [] →
    (∀ n, tget 0 ((s.reqDone c src tag 0 data).core c).vregs n = if n = pool then leVal data else tget 0 (s.core c).vregs n)
    ∧ ((s.reqDone c src tag 0 data).core c).threads = (s.core c).threads)
  ∧ (∀ (s : State) (c src tag t gd n st : Nat) (sg : Bool) (r : Req),
    (s.core c).reqs.find? (fun r => r.has src tag) = some r → dropAwait src tag r.want = [] → r.dead = false → r.st = 0 →
    r.who = .load t gd n sg → st ≠ 0 → st < 256 → (s.th c t).st ≠ .faulted → (s.th c t).st ≠ .stopped →
    ((s.reqDone c src tag st []).th c t) = { s.th c t with
      st := .faulted, fcause := BitVec.ofNat 24 (0x08 + 256 * st), fpc := BitVec.ofNat 15 r.pc, faddr := BitVec.ofNat 64 r.addr })
  ∧ ∀ (s : State) (c src tag t st : Nat) (r : Req),
    (s.core c).reqs.find? (fun r => r.has src tag) = some r → dropAwait src tag r.want = [] → r.dead = false → r.st = 0 →
    r.who = .store t → (s.th c t).st ≠ .faulted → (s.th c t).storeErr = none →
    (s.reqDone c src tag st []).th c t = { s.th c t with storeErr := if st = 0 then none else some (r.addr, st) }

/-- R249, R250 to R257, R303: the events at a gateway: ordered stores, copies that are cut into segments, lines read ahead, and a copy's end. -/
def Obligations.GatewayEvents : Prop :=
  (∀ (g : ClusterId) (c : CoreId) (tag : BitVec 12) (s : State) (o : OrdStore),
    (s.gw g.val).ordered.find? (fun o => decide (o.core = c.val) && decide (o.tag = tag.toNat)) = some o →
    (s.core c.val).orderHeld o.pkt.dst o.tag = false →
    exec (.orderedStoreIssue g c tag) s = .next (State.egress ((s.setGw g.val { s.gw g.val with ordered := removeFirst o (s.gw g.val).ordered }).onCore
      c.val fun k => k.markSent o.pkt.dst o.tag) o.pkt))
  ∧ (∀ (g : ClusterId) (k : Fin 256) (e : ReadErr) (s s2 s3 : State) (t t' : Tracker) (src dst len slot : Nat) (ps : List Pkt),
    tget none (s.gw g.val).trackers k.val = some t → t.next (s.copyP t.desc) = some (src, dst, len, t') →
    (List.range 15).find? (fun n => s.segTagFree g.val t (16 * k.val + n)) = some slot → cdSrcPkg t.desc = s.selfNum →
    rangeAssigned src len = true → (cdKind t.desc = 3 ∨ rangeAssigned dst len = true) → s.hbmWaits src len = false →
    s.rangeCheck s.selfNum t.barn .load src len = (0, s) → s.readCheck src len e = (true, s2) →
    s2.submit (s2.segPkt g.val k.val (16 * k.val + slot) t.barn t.desc src dst len (s2.sourceBytes t.barn src len)) true = .inr (ps, s3) →
    exec (.copySegmentSend g k e) s = .next (
      let u := s3.served (gatewayEp s.selfNum g.val) k.val t.barn src len (decide (cdKind t.desc = 0))
      let p := s2.segPkt g.val k.val (16 * k.val + slot) t.barn t.desc src dst len (s2.sourceBytes t.barn src len)
      egressAll (u.setGw g.val { u.gw g.val with trackers := tset none (u.gw g.val).trackers k.val (some {
        t' with segs := t.segs ++ [⟨16 * k.val + slot, len, offUnits s2 ps, p.tc, segAwaits t.desc dst ps, 0⟩] }) }) ps))
  ∧ (∀ (g : ClusterId) (k : Fin 256) (e : ReadErr) (s : State) (t t' : Tracker) (src dst len slot st : Nat),
    tget none (s.gw g.val).trackers k.val = some t → t.next (s.copyP t.desc) = some (src, dst, len, t') →
    (List.range 15).find? (fun n => s.segTagFree g.val t (16 * k.val + n)) = some slot → cdSrcPkg t.desc = s.selfNum →
    rangeAssigned src len = true → (cdKind t.desc = 3 ∨ rangeAssigned dst len = true) → st ≠ 0 →
    s.hbmWaits src len = false → s.rangeCheck s.selfNum t.barn .load src len = (st, s) →
    exec (.copySegmentSend g k e) s = .next (State.copyEnd (s.setGw g.val { s.gw g.val with
      trackers := tset none (s.gw g.val).trackers k.val (some { t' with status := if t.status = 0 then st else t.status }) }) g.val k.val))
  ∧ (∀ (g : Fin 1073741824) (k : Fin 256) (s : State) (r : ReadAhead), s.aheadOf g.val k.val = some r → r.linear = true →
    (∀ last, s.homeCopy g.val k.val = some last → 64 * (r.next + r.lines.length) ≤ last) → r.lines.length < 64 → r.bytes < 16384 →
    r.next + r.lines.length < 2 ^ 34 → s.granuleBarn (granuleOf (64 * (r.next + r.lines.length))) = some r.barn →
    s.poison.contains (r.next + r.lines.length) = false → 64 * (r.next + r.lines.length) % 2 ^ 36 < hbmLimit s.variant →
    s.hbmWaits (64 * (r.next + r.lines.length)) 64 = false →
    exec (.readAheadFetch g k []) s = .next (
      (s.putAhead { r with bytes := r.bytes + 64, lines := r.lines ++ [r.next + r.lines.length] }).onMctr r.barn fun m =>
        { m with raBytes := (m.raBytes + 64) % 2 ^ 64 }))
  ∧ (∀ (g : Fin 1073741824) (k : Fin 256) (e : HbmErr) (s : State) (r : ReadAhead), s.aheadOf g.val k.val = some r → r.linear = true →
    (∀ last, s.homeCopy g.val k.val = some last → 64 * (r.next + r.lines.length) ≤ last) → r.lines.length < 64 → r.bytes < 16384 →
    s.poison.contains (r.next + r.lines.length) = true →
    exec (.readAheadFetch g k e) s = .next (s.onMctr r.barn fun m => { m with raDropped := (m.raDropped + 1) % 2 ^ 64 }))
  ∧ (∀ (s : State) (g k : Nat) (t : Tracker), tget none (s.gw g).trackers k = some t → t.cut = true → t.segs = [] → cdCtrEn t.desc = false →
    (s.core t.core).power = .running →
    tget none ((s.copyEnd g k).gw g).trackers k = none
    ∧ (bitAt t.desc 31 = true → (s.copyEnd g k).tally g (bitsAt t.desc 32 10) = (s.tally g (bitsAt t.desc 32 10) + 1) % 2 ^ 32)
    ∧ (bitAt t.desc 30 = true → memRead ((s.copyEnd g k).core t.core).sram (cdStat t.desc) 8 = leBytes 4 t.status ++ leBytes 4 t.done)
    ∧ (bitAt t.desc 30 = false → ∀ a, memGet ((s.copyEnd g k).core t.core).sram a = memGet (s.core t.core).sram a)
    ∧ (∀ b, (s.copyEnd g k).mctr b = if t.status ≠ 0 ∧ b = t.barn then { s.mctr b with copyErr := ((s.mctr b).copyErr + 1) % 2 ^ 64 } else s.mctr b))
  ∧ ∀ (s : State) (g b src tag st n : Nat) (t : Tracker) (x : Seg), (s.gw g).trackers = [(n, some t)] →
    t.segs.find? (fun x => x.want.any fun a => a.is src tag) = some x → dropAwait src tag x.want = [] →
    let st' := if x.st = 0 then st else x.st
    let t' : Tracker := { t with
      segs := t.segs.filter fun y => decide (y.tag ≠ x.tag), done := if st' = 0 then t.done + x.bytes else t.done
      status := if t.status = 0 then st' else t.status }
    s.segDone g b src tag st = State.copyEnd (State.onFctr (s.setGw g { s.gw g with trackers := tset none (s.gw g).trackers n (some t') })
      t.barn fun f => f.subUse x.tc x.units) g n

/-- R259 to R262, R266 to R268, R386: queue registers take what is written, a scrubbed granule reads zero and belongs to its barn, a patrol read judges
its line; a corrected error is counted and reported, an uncorrectable error poisons and clears one line and no other and
asks for its row's repair; a row repair is kept or retires its granule, and a channel's retraining starts and ends. -/
def Obligations.HbmUpkeep : Prop :=
  (∀ (q : QueueId) (b : BarnId) (v : BitVec 64) (s : State), s.queueBarn q.val = some b.val → (s.queue q.val).en = false →
    bitAt v.toNat 0 = false →
    exec (.qcfgWrite q b v) s = .next (s.setQueue q.val { s.queue q.val with cfg := v.toNat % 2 ^ 23 }))
  ∧ (∀ (q : QueueId) (b : BarnId) (v : BitVec 64) (s : State), s.queueBarn q.val = some b.val → (s.queue q.val).en = false →
    bitAt v.toNat 0 = true → bitsAt (v.toNat % 2 ^ 23) 1 3 ≠ 7 → bitsAt (v.toNat % 2 ^ 23) 4 4 ≠ 15 →
    exec (.qcfgWrite q b v) s = .next (if s.qbaseOk b.val (v.toNat % 2 ^ 23) (s.queue q.val).base = true
      then s.setQueue q.val { s.queue q.val with cfg := v.toNat % 2 ^ 23 } else s))
  ∧ (∀ (q : QueueId) (b : BarnId) (v : BitVec 64) (s : State), s.queueBarn q.val = some b.val →
    exec (.qheadWrite q b v) s = .next (s.setQueue q.val { s.queue q.val with head := v.toNat % 2 ^ 32 }))
  ∧ (∀ (q : QueueId) (b : BarnId) (v : BitVec 64) (s : State), s.queueBarn q.val ≠ some b.val →
    exec (.qcfgWrite q b v) s = .next s ∧ exec (.qheadWrite q b v) s = .next s)
  ∧ (∀ (g : GranuleId) (s : State) (b : Nat), (s.granule g.val).st = .scrubbing b →
    s.hbmWaits (g.val / 64 * 2 ^ 36 + g.val % 64 * 2 ^ 30) (2 ^ 30) = false →
    ∃ t, exec (.granuleScrubComplete g) s = .next t ∧ t.granule g.val = { s.granule g.val with st := .owned b }
      ∧ (∀ a, memGet t.hbm a = if g.val / 64 * 2 ^ 36 + g.val % 64 * 2 ^ 30 ≤ a ∧ a < g.val / 64 * 2 ^ 36 + g.val % 64 * 2 ^ 30 + 2 ^ 30 then 0
        else memGet s.hbm a)
      ∧ (∀ w, t.poison.contains w = (s.poison.contains w && !(decide (g.val / 64 * 2 ^ 36 + g.val % 64 * 2 ^ 30 ≤ 64 * w)
          && decide (64 * w < g.val / 64 * 2 ^ 36 + g.val % 64 * 2 ^ 30 + 2 ^ 30))))
      ∧ (∀ h, h ≠ g.val → t.granule h = s.granule h) ∧ { t with granules := s.granules, hbm := s.hbm, poison := s.poison } = s)
  ∧ (∀ (line : Nat) (e : HbmErr) (s : State) (b : Nat), line < 2 ^ 34 → s.granuleBarn (granuleOf (64 * line)) = some b →
    s.poison.contains line = false → s.hbmWaits (64 * line) 64 = false → exec (.patrolRead line e) s = .next (s.hbmError (64 * line) e).2)
  ∧ (∀ (s : State) (l b : Nat) (e : HbmErr) (w : Fin 8), s.granuleBarn (granuleOf l) = some b → hbmOutcome e = .corrected w →
    s.hbmError l e = (true, (s.onMctr b fun m => { m with ce := (m.ce + 1) % 2 ^ 64 }).report 0x20 (granuleOf l) (hbmRowDetail l)))
  ∧ (∀ (s : State) (l b : Nat) (e : HbmErr), s.granuleBarn (granuleOf l) = some b → hbmOutcome e = .uncorrectable →
    (s.hbmError l e).1 = false ∧ (s.hbmError l e).2.poison.contains (l / 64) = true
    ∧ (∀ w, w ≠ l / 64 → (s.hbmError l e).2.poison.contains w = s.poison.contains w)
    ∧ (s.hbmError l e).2.rowWait.contains (granuleOf l, hbmRowDetail l) = true
    ∧ ((s.hbmError l e).2.mctr b).ue = ((s.mctr b).ue + 1) % 2 ^ 64
    ∧ (∀ w, l / 64 * 64 ≤ w → w < l / 64 * 64 + 64 → memGet (s.hbmError l e).2.hbm w = 0)
    ∧ ∀ w, w < l / 64 * 64 ∨ l / 64 * 64 + 64 ≤ w → memGet (s.hbmError l e).2.hbm w = memGet s.hbm w)
  ∧ (∀ (g : GranuleId) (d : BitVec 32) (s : State), s.rowWait.contains (g.val, d.toNat) = true →
    (tget HbmChan.init s.channels (32 * (g.val / 64) + d.toNat % 32)).training = false →
    exec (.rowRepairComplete g d true) s =
      .next { s with rowWait := removeFirst (g.val, d.toNat) s.rowWait, repairs := s.repairs ++ [(g.val, d.toNat)] }
    ∧ exec (.rowRepairComplete g d false) s = .next (State.retireGranule { s with rowWait := removeFirst (g.val, d.toNat) s.rowWait } g.val))
  ∧ (∀ (s : State) (g : Nat), (s.granule g).retired = false →
    s.retireGranule g = (s.setGranule g { s.granule g with retired := true }).report 0x22 g 0)
  ∧ (∀ (d : DieId) (c : Fin 32) (s : State), (s.channel d.val c.val).outOfService = false → (∀ k, k < 32 → (s.channel d.val k).training = false) →
    exec (.hbmChannelRetrainStart d c) s = .next (s.setChannel d.val c.val { s.channel d.val c.val with training := true }))
  ∧ ∀ (d : DieId) (c : Fin 32) (s : State), (s.channel d.val c.val).training = true →
    exec (.hbmChannelRetrainComplete d c true) s = .next (s.setChannel d.val c.val ⟨false, false, false⟩)
    ∧ ((s.channel d.val c.val).failedOnce = false → exec (.hbmChannelRetrainComplete d c false) s =
      .next (s.setChannel d.val c.val { s.channel d.val c.val with failedOnce := true }))
    ∧ ((s.channel d.val c.val).failedOnce = true → ∃ t, exec (.hbmChannelRetrainComplete d c false) s = .next t
      ∧ t.channel d.val c.val = ⟨false, false, true⟩ ∧ (∀ g, g < 64 → (t.granule (64 * d.val + g)).retired = true)
      ∧ ∀ g, (t.granule g).st = (s.granule g).st)

/-! The packet fabric (spec/09). -/

/-- R226 to R228, R385: windows: a waiting packet whose units fit the grant is served, WUPDATE returns and grants units, WREQ queues a request, a
grant leaves the pool, a WUPDATE carries what was freed, an idle window gives its extra units back, a gap is skipped and reported, WGIVE refills
the pool; a control packet that fails its check is counted for its barn and has no other effect. -/
def Obligations.WindowEvents : Prop :=
  (∀ (dest : Fin 32768) (cls : Bool) (s : State) (x : WaitPkt) (l : List WaitPkt), (s.swin (winKey dest.val (clsTc cls))).waiting = x :: l →
    (s.swin (winKey dest.val (clsTc cls))).inUse + x.pkt.units ≤ s.grant (winKey dest.val (clsTc cls)) →
    exec (.windowAdmit dest cls) s = .next (State.askWindow (State.serve ((s.setSwin (winKey dest.val (clsTc cls))
        { s.swin (winKey dest.val (clsTc cls)) with waiting := l }).onFctr x.pkt.barn fun f =>
          { f with delayTime := (f.delayTime + (s.reckon - x.since)) % 2 ^ 64 }) (winKey dest.val (clsTc cls)) x.pkt) dest.val (clsTc cls)))
  ∧ (∀ (p : Pkt) (s : State), p.taken = true →
    exec (.wupdate p) s = .next (State.askWindow ((s.consume p).setSwin (winKey (epPkg p.src) (bodyTc p))
      { s.swin (winKey (epPkg p.src) (bodyTc p)) with
        inUse := (s.swin (winKey (epPkg p.src) (bodyTc p))).inUse - bodyAt p 1
        extra := (s.swin (winKey (epPkg p.src) (bodyTc p))).extra + bodyAt p 2
        asked := (s.swin (winKey (epPkg p.src) (bodyTc p))).asked && decide (bodyAt p 2 = 0) }) (epPkg p.src) (bodyTc p)))
  ∧ (∀ (p : Pkt) (s : State), p.taken = true → (s.grantQ.any fun r => decide (r.src = epPkg p.src) && decide (r.cls = bodyTc p)) = false →
    exec (.wreq p) s = .next { s.consume p with grantQ := s.grantQ ++ [⟨epPkg p.src, bodyTc p, bodyAt p 1⟩] })
  ∧ (∀ (s : State) (r : WinReq) (l : List WinReq), s.grantQ = r :: l → r.units ≤ (if r.cls = 1 then s.pool1 else s.pool3) →
    ∃ t, exec .windowGrant s = .next t ∧ t.grantQ = l ∧ (if r.cls = 1 then t.pool1 + r.units = s.pool1 ∧ t.pool3 = s.pool3
        else t.pool3 + r.units = s.pool3 ∧ t.pool1 = s.pool1)
      ∧ t.dwin (winKey r.src r.cls) = { s.dwin (winKey r.src r.cls) with
          granted := (s.dwin (winKey r.src r.cls)).granted + r.units, total := (s.dwin (winKey r.src r.cls)).total + r.units }
      ∧ { t with grantQ := s.grantQ, pool1 := s.pool1, pool3 := s.pool3, dstWin := s.dstWin } = s
      ∧ ∀ k, k ≠ winKey r.src r.cls → t.dwin k = s.dwin k)
  ∧ (∀ (src : Fin 32768) (cls : Bool) (s : State),
    (s.dwin (winKey src.val (clsTc cls))).freed ≠ 0 ∨ (s.dwin (winKey src.val (clsTc cls))).granted ≠ 0 →
    exec (.wupdateSend src cls) s = .next (State.dispatch (s.setDwin (winKey src.val (clsTc cls))
      { s.dwin (winKey src.val (clsTc cls)) with freed := 0, granted := 0 })
      (mkPkt 0x31 4 (memEp src.val 0) (memEp s.selfNum 0) 0 0 0
        (winBody (clsTc cls) [(s.dwin (winKey src.val (clsTc cls))).freed, (s.dwin (winKey src.val (clsTc cls))).granted, 0])).seal))
  ∧ (∀ (dest : Fin 32768) (cls : Bool) (s : State), (s.swin (winKey dest.val (clsTc cls))).inUse = 0 → (s.swin (winKey dest.val (clsTc cls))).waiting = [] →
    (s.swin (winKey dest.val (clsTc cls))).extra ≠ 0 →
    exec (.windowIdleGiveback dest cls) s = .next (State.dispatch (s.setSwin (winKey dest.val (clsTc cls))
      { s.swin (winKey dest.val (clsTc cls)) with extra := 0 })
      (mkPkt 0x32 4 (memEp dest.val 0) (memEp s.selfNum 0) 0 0 0 (winBody (clsTc cls) [(s.swin (winKey dest.val (clsTc cls))).extra])).seal))
  ∧ (∀ (src : Fin 32768) (cls : Bool) (s : State) (d : Nat) (p : Pkt), (s.dwin (winKey src.val (clsTc cls))).held = [(d, p)] →
    (65536 + p.wseq - (s.dwin (winKey src.val (clsTc cls))).expect) % 65536 ≠ 0 →
    exec (.wseqGapSkip src cls) s = .next (State.pump ((s.setDwin (winKey src.val (clsTc cls)) { s.dwin (winKey src.val (clsTc cls)) with
      expect := ((s.dwin (winKey src.val (clsTc cls))).expect
        + (65536 + p.wseq - (s.dwin (winKey src.val (clsTc cls))).expect) % 65536) % 65536
      skipped := (s.dwin (winKey src.val (clsTc cls))).skipped ++
        (List.range ((65536 + p.wseq - (s.dwin (winKey src.val (clsTc cls))).expect) % 65536)).map fun i =>
          ((s.dwin (winKey src.val (clsTc cls))).expect + i) % 65536
      gaps := (s.dwin (winKey src.val (clsTc cls))).gaps + 1 }).report 0x19 s.selfNum src.val) (winKey src.val (clsTc cls))))
  ∧ (∀ (p : Pkt) (s : State), p.taken = true → bodyAt p 1 ≠ 2 ^ 32 - 1 →
    ∃ t, exec (.wgive p) s = .next t ∧ t.pool1 = s.pool1 + (if bodyTc p = 1 then bodyAt p 1 else 0)
      ∧ t.pool3 = s.pool3 + (if bodyTc p = 1 then 0 else bodyAt p 1)
      ∧ t.dwin (winKey (epPkg p.src) (bodyTc p)) = { s.dwin (winKey (epPkg p.src) (bodyTc p)) with
          total := (s.dwin (winKey (epPkg p.src) (bodyTc p))).total - bodyAt p 1 }
      ∧ (∀ k, k ≠ winKey (epPkg p.src) (bodyTc p) → t.dwin k = s.dwin k)
      ∧ { t with pool1 := s.pool1, pool3 := s.pool3, dstWin := s.dstWin, net := s.net } = s)
  ∧ (∀ (p : Pkt) (s : State), p.taken = true → bodyAt p 1 = 2 ^ 32 - 1 →
    ∃ t, exec (.wgive p) s = .next t
      ∧ t.pool1 = s.pool1 + (if bodyTc p = 1 then (s.dwin (winKey (epPkg p.src) (bodyTc p))).total else 0)
      ∧ t.pool3 = s.pool3 + (if bodyTc p = 1 then 0 else (s.dwin (winKey (epPkg p.src) (bodyTc p))).total)
      ∧ t.dwin (winKey (epPkg p.src) (bodyTc p)) = { DstWin.init with gaps := (s.dwin (winKey (epPkg p.src) (bodyTc p))).gaps }
      ∧ (t.swin (winKey (epPkg p.src) (bodyTc p))).inUse = 0 ∧ (t.swin (winKey (epPkg p.src) (bodyTc p))).next = 0)
  ∧ ∀ (p : Pkt) (s : State), p.taken = false →
    exec (.wreq p) s = .next ((s.consume p).endTc0 p) ∧ exec (.wupdate p) s = .next ((s.consume p).endTc0 p)
      ∧ exec (.wgive p) s = .next ((s.consume p).endTc0 p) ∧ exec (.advice p) s = .next ((s.consume p).endTc0 p)
      ∧ exec (.harvestReq p) s = .next ((s.consume p).endTc0 p)

/-- R219, R234, R236 to R238: an ADVICE marks the alternatives that begin with its course, and the congestion counters and the
harvest of a congestion map. -/
def Obligations.AdviceAndCongestion : Prop :=
  (∀ (p : Pkt) (s : State), p.taken = true →
    let at_ (a : Nat) : Nat := tget 0 s.courses (4 * (p.addr % 32768) + a)
    let h := leVal ((p.payload.drop 8).take 1)
    let hit (e : Nat) : Prop := courseValid e = true ∧ courseDown e = false ∧ h < courseHops e
      ∧ ∀ i, i ≤ h → coursePort (coursePorts e) i = coursePort (leVal (p.payload.take 6)) i
    ∃ t, exec (.advice p) s = .next t
    ∧ (∀ k, (∀ a, a < 4 → k ≠ 4 * (p.addr % 32768) + a) → tget 0 t.courses k = tget 0 s.courses k)
    ∧ (∀ a, a < 4 → (hit (at_ a) → tget 0 t.courses (4 * (p.addr % 32768) + a) = at_ a + 2 ^ 46)
      ∧ (¬ hit (at_ a) → tget 0 t.courses (4 * (p.addr % 32768) + a) = at_ a))
    ∧ { t with net := s.net, courses := s.courses } = s)
  ∧ (∀ (s : State), ∃ t, exec .congestionSample s = .next t ∧ (∀ p, p < 72 → portFitted s.variant p = true →
      (t.port p).cong = s.sampleOf p ∧ (t.port p).queue = (s.port p).queue)
    ∧ ∀ p, portFitted s.variant p = false → t.port p = s.port p)
  ∧ (∀ (s : State) (p : Nat), (s.port p).queue = [] → (s.port p).cong.occ = List.replicate 8 0 → (s.sampleOf p).occ = [1, 0, 0, 0, 0, 0, 0, 0])
  ∧ (∀ (p : Pkt) (s : State), p.taken = true →
    exec (.harvestReq p) s = .next (sendMap 20 { (s.consume p).closeMap with hseq := (s.hseq + 1) % 2 ^ 32 } p 0
      (State.congMap { s.consume p with hseq := (s.hseq + 1) % 2 ^ 32 })))

/-! Edge ports (spec/09, spec/11, spec/17). -/

/-- R217, R220 to R223, R234, R275, R277: an edge port sends the packet that arbitration picks when it has the credits: the packet leaves the queue,
its units leave the credit, and its frames, one for each 240 bytes of it, go out and wait in the replay buffer under the next numbers; a packet that no virtual
channel takes ends "course invalid"; unacknowledged frames are sent again on a replay timeout, and the eighth failed replay loses the port; a
port that is down re-courses or ends what it holds. -/
def Obligations.EdgeTransmission : Prop :=
  (∀ (p : PortId) (s : State) (q : QPkt) (arb : ArbState), (s.port p.val).st = .up → (s.port p.val).drain = false → (s.port p.val).maint = none →
    (∀ r ∈ (s.port p.val).queue, s.vcOnPort p.val r.pkt < 12) → (s.port p.val).replay.length + q.pieces.length ≤ 2048 →
    (s.port p.val).keys.sigmaTx < 2 ^ 36 → s.txPick p.val = some (q, arb) → s.hopOk q.pkt p.val = true → q.pkt.op ≠ 0x38 →
    ∃ t l, exec (.edgeTxPick p) s = .next t
      ∧ t.out = s.out ++ l ∧ l.length = q.pieces.length ∧ (∀ o ∈ l, ∃ bs, o = .edge p.val bs)
      ∧ (t.port p.val).queue = removeFirst q (s.port p.val).queue ∧ (t.port p.val).arb = arb
      ∧ (t.port p.val).replay = (s.port p.val).replay ++ q.pieces.zipIdx.map (fun (b, i) =>
          ⟨((s.port p.val).txSeq + i) % 4096, 1, if i = 0 then 0 else 63, b,
            if i + 1 = q.pieces.length then [⟨q.pkt, q.arr.map fun a => (a.1, 12)⟩] else []⟩)
      ∧ ((s.port p.val).txSeq < 4096 → (t.port p.val).txSeq = ((s.port p.val).txSeq + q.pieces.length) % 4096)
      ∧ (t.port p.val).cong.txBytes = ((s.port p.val).cong.txBytes + q.pkt.payload.length) % 2 ^ 64
      ∧ tget 0 (t.port p.val).credit (s.vcOnPort p.val q.pkt) = tget 0 (s.port p.val).credit (s.vcOnPort p.val q.pkt) - q.pkt.units
      ∧ (∀ v, v ≠ s.vcOnPort p.val q.pkt → tget 0 (t.port p.val).credit v = tget 0 (s.port p.val).credit v)
      ∧ (∀ r, r ≠ p.val → q.arr.map Prod.fst ≠ some r → t.port r = s.port r) ∧ { t with ports := s.ports, out := s.out } = s)
  ∧ (∀ (p : PortId) (s : State) (q : QPkt) (arb : ArbState), s.txPick p.val = some (q, arb) →
    q ∈ (s.port p.val).queue ∧ q.pkt.units ≤ tget 0 (s.port p.val).credit (s.vcOnPort p.val q.pkt))
  ∧ (∀ (s : State) (p kind seq start : Nat) (payload : List Byte), (s.port p).keyed = false →
    (s.sendFrame p kind seq start payload).out = s.out ++ [.edge p (edgeBytes ((s.port p).ectl kind seq start) payload)]
    ∧ ((s.sendFrame p kind seq start payload).port p).nakDue = false
    ∧ ((s.sendFrame p kind seq start payload).port p).replay = (s.port p).replay)
  ∧ (∀ (p : PortId) (s : State) (q : QPkt) (l : List QPkt), (s.port p.val).st = .up → (s.port p.val).drain = false → (s.port p.val).maint = none →
    (s.port p.val).keys.sigmaTx < 2 ^ 36 → (s.port p.val).queue = q :: l → 12 ≤ s.vcOnPort p.val q.pkt →
    exec (.edgeTxPick p) s = .next (s.courseInvalid p.val q))
  ∧ (∀ (p : PortId) (s : State) (q : QPkt) (l : List QPkt),
    (s.port p.val).st ∈ [.dark, .probe, .lock, .deskew, .eye, .ident, .keying, .disagree] → (s.port p.val).queue = q :: l →
    exec (.edgeTxPick p) s = .next (reCourseAll (s.setPort p.val { s.port p.val with queue := l }) (p.val % 16) p.val [q]).2)
  ∧ (∀ (p : PortId) (s : State) (q : QPkt) (l : List QPkt), (s.port p.val).st = .probe → (s.port p.val).queue = q :: l → q.pkt.tc = 0 →
    s.reAlt q.pkt = none →
    ∃ t, exec (.edgeTxPick p) s = .next t ∧ (t.port p.val).queue = l ∧ (t.port p.val).cong.ended = sat32 ((s.port p.val).cong.ended + 1)
      ∧ (t.fctr q.pkt.barn).ended = ((s.fctr q.pkt.barn).ended + 1) % 2 ^ 64)
  ∧ (∀ (p : PortId) (s : State), (s.port p.val).st = .up → (s.port p.val).replay ≠ [] →
    (s.port p.val).replayFails + boolNat (s.port p.val).resent < 8 →
    ∃ t l, exec (.edgeReplayTimeout p) s = .next t ∧ t.out = s.out ++ l ∧ l.length = (s.port p.val).replay.length
      ∧ (∀ o ∈ l, ∃ bs, o = .edge p.val bs) ∧ (t.port p.val).resent = true ∧ (t.port p.val).replay = (s.port p.val).replay
      ∧ (t.port p.val).queue = (s.port p.val).queue ∧ (t.port p.val).credit = (s.port p.val).credit
      ∧ (t.port p.val).replayFails = (s.port p.val).replayFails + boolNat (s.port p.val).resent
      ∧ (∀ r, r ≠ p.val → t.port r = s.port r) ∧ { t with ports := s.ports, out := s.out } = s)
  ∧ ∀ (p : PortId) (s : State), (s.port p.val).st = .up → (s.port p.val).replay ≠ [] → (s.port p.val).resent = true →
    (s.port p.val).replayFails = 7 →
    exec (.edgeReplayTimeout p) s = .next (State.portLost (s.setPort p.val { s.port p.val with resent := true, replayFails := 8 }) p.val)

/-- R233, R286: a lost port forgets its keys and awaits the partner's report; the report releases the frames that have arrived and the rest
is re-coursed; without a report the unacknowledged packets end; the port then looks for light again. A report that comes before the loss is kept. -/
def Obligations.PortLossAndSalvage : Prop :=
  (∀ (p : PortId) (s : State), (s.port p.val).st = .up → (s.port p.val).early = none →
    ∃ t, exec (.portLoss p) s = .next t ∧ (t.port p.val).st = .lost ∧ (t.port p.val).held = true ∧ (t.port p.val).lossSeen = true
      ∧ (t.port p.val).keyed = false ∧ (t.port p.val).keys.txGen = (s.port p.val).keys.txGen + 1
      ∧ (t.port p.val).keys.rxGen = (s.port p.val).keys.rxGen + 1 ∧ (t.port p.val).maint = none
      ∧ (t.port p.val).replay = (s.port p.val).replay ∧ (∀ c, t.core c = s.core c) ∧ t.hbm = s.hbm)
  ∧ (∀ (p : PortId) (s : State), (s.port p.val).st ≠ .up → exec (.portLoss p) s = .next s)
  ∧ (∀ (p : Pkt) (s : State) (q : Nat), p.taken = true → (s.port q).st = .lost → (s.port q).held = true →
    (List.range 72).find? (fun q => (s.port q).peerValid && decide ((s.port q).peer = epPkg p.src) && decide ((s.port q).peerPort = p.addr % 128))
      = some q →
    exec (.salvage p) s = .next ((s.consume p).salvageTake q (leVal p.payload)))
  ∧ (∀ (p : Pkt) (s : State) (q : Nat), p.taken = true → (s.port q).st = .lost → (s.port q).held = true →
    (List.range 72).find? (fun q => (s.port q).peerValid && decide ((s.port q).peer = epPkg p.src) && decide ((s.port q).peerPort = p.addr % 128))
      = some q →
    releaseTo (leVal p.payload) (s.port q).replay = [] → (s.port q).queue = [] → (s.port q).shut = false →
    ∃ t, exec (.salvage p) s = .next t ∧ (t.port q).held = false ∧ (t.port q).replay = [] ∧ (t.port q).queue = [] ∧ (t.port q).ctlQ = []
      ∧ (t.port q).st = (if (s.port q).light = true then .lock else .probe)
      ∧ t.reports = s.reports ++ [⟨0x16, q, 0, s.reckon, none⟩] ∧ (∀ r, r ≠ q → t.port r = s.port r)
      ∧ { t with ports := s.ports, reports := s.reports, net := s.net, out := s.out } = s)
  ∧ (∀ (p : Pkt) (s : State) (q : Nat), p.taken = true → (s.port q).st = .up →
    (List.range 72).find? (fun q => (s.port q).peerValid && decide ((s.port q).peer = epPkg p.src) && decide ((s.port q).peerPort = p.addr % 128))
      = some q →
    exec (.salvage p) s = .next ((s.consume p).setPort q { s.port q with early := some (leVal p.payload) }))
  ∧ (∀ (p : PortId) (s : State), (s.port p.val).st = .lost → (s.port p.val).held = true → (s.port p.val).queue = [] →
    ∃ t, exec (.salvageTimeout p) s = .next t ∧ (t.port p.val).held = false ∧ (t.port p.val).replay = []
      ∧ (t.port p.val).st = (if (s.port p.val).shut = true then .disagree else if (s.port p.val).light = true then .lock else .probe)
      ∧ t.reports = s.reports ++ [⟨if (framePkts (s.port p.val).replay).length = 0 then 0x16 else 0x17, p.val, 0, s.reckon, none⟩])
  ∧ ∀ (last : Nat) (l : List TxFrame), (∃ k, releaseTo last l = l.drop k) ∧ ((∀ f ∈ l, f.seq ≠ last) → releaseTo last l = l)
    ∧ ∀ (a : List TxFrame) (f : TxFrame) (b : List TxFrame), l = a ++ f :: b → f.seq = last → (∀ g ∈ a, g.seq ≠ last) → releaseTo last l = b

/-- R276 to R278, R280: a frame received in UP: one that cannot be corrected, or comes out of order, starts the discarding of what follows until its
replay; a good frame in order is acknowledged by the next number and its packets go on; acknowledgements release frames and credits add modulo
512; the eighth failed superframe tag in a row loses the port. Light in any other state, and a training frame, is no frame. -/
def Obligations.FramesReceived : Prop :=
  (∀ (p : PortId) (f : EdgeFrame) (errs : List (Fin 256 × BitVec 8)) (tag : Fin 3) (s : State), (s.port p.val).st = .up → f.kind ≠ 2 →
    tag.val = 1 → (s.port p.val).tagFails < 8 → edgeOutcome errs = none →
    ∃ t, exec (.edgeFrameRx p f errs tag) s = .next t ∧ (t.port p.val).discarding = true ∧ (t.port p.val).rxNext = (s.port p.val).rxNext
      ∧ (t.port p.val).nakDue = ((s.port p.val).nakDue || !(s.port p.val).discarding) ∧ (t.port p.val).replay = (s.port p.val).replay
      ∧ t.reports = s.reports ++ [⟨0x09, 512 + p.val, 0, s.reckon, none⟩] ∧ (∀ r, r ≠ p.val → t.port r = s.port r)
      ∧ { t with ports := s.ports, reports := s.reports } = s)
  ∧ (∀ (p : PortId) (f : EdgeFrame) (tag : Fin 3) (s : State), (s.port p.val).st = .up → tag.val = 1 → (s.port p.val).tagFails < 8 →
    f.kind = 1 → f.cvc = 15 → f.avalid = false → (s.port p.val).replayFails < 8 → f.seq = (s.port p.val).rxNext →
    (∀ q ∈ f.pkts, q.headerOk s.mtu = true) →
    ∃ t u, exec (.edgeFrameRx p f [] tag) s = .next t ∧ t = portDeliverAll u p.val f.pkts
      ∧ (u.port p.val).rxNext = ((s.port p.val).rxNext + 1) % 4096 ∧ (u.port p.val).discarding = false ∧ (u.port p.val).nakDue = false
      ∧ (u.port p.val).lastDone = (if f.pkts = [] then (s.port p.val).lastDone else some f.seq)
      ∧ (u.port p.val).credit = (s.port p.val).credit ∧ (u.port p.val).replay = (s.port p.val).replay
      ∧ (∀ r, r ≠ p.val → u.port r = s.port r) ∧ { u with ports := s.ports } = s)
  ∧ (∀ (p : PortId) (f : EdgeFrame) (tag : Fin 3) (s : State), (s.port p.val).st = .up → tag.val = 1 → (s.port p.val).tagFails < 8 →
    f.kind = 0 → f.cvc < 12 → f.avalid = true → f.nak = false → (s.port p.val).replayFails < 8 → (s.port p.val).ctlQ = [] →
    (s.port p.val).maint = none → f.pkts = [] →
    ∃ t, exec (.edgeFrameRx p f [] tag) s = .next t ∧ (t.port p.val).replay = releaseTo f.ackSeq (s.port p.val).replay
      ∧ (t.port p.val).credit = ((s.port p.val).takeCredit f.cvc f.cunits).credit ∧ (t.port p.val).rxNext = (s.port p.val).rxNext
      ∧ (t.port p.val).queue = (s.port p.val).queue ∧ (∀ r, r ≠ p.val → t.port r = s.port r) ∧ { t with ports := s.ports } = s)
  ∧ (∀ (p : PortId) (f : EdgeFrame) (tag : Fin 3) (s : State), (s.port p.val).st = .up → tag.val = 1 → (s.port p.val).tagFails < 8 →
    f.kind = 1 → f.cvc = 15 → f.avalid = false → (s.port p.val).replayFails < 8 → f.seq ≠ (s.port p.val).rxNext →
    (s.port p.val).discarding = false → f.pkts = [] →
    ∃ t, exec (.edgeFrameRx p f [] tag) s = .next t ∧ (t.port p.val).discarding = true ∧ (t.port p.val).nakDue = true
      ∧ (t.port p.val).rxNext = (s.port p.val).rxNext ∧ t.reports = s.reports ++ [⟨0x09, 512 + p.val, 0, s.reckon, none⟩])
  ∧ (∀ (x : EdgePort) (vc units : Nat), vc < 12 → tget 0 x.credSeen vc ≤ units → units < 512 →
    tget 0 (x.takeCredit vc units).credit vc = tget 0 x.credit vc + (units - tget 0 x.credSeen vc)
      ∧ tget 0 (x.takeCredit vc units).credSeen vc = units
      ∧ ∀ v, v ≠ vc → tget 0 (x.takeCredit vc units).credit v = tget 0 x.credit v)
  ∧ (∀ (x : EdgePort) (vc units : Nat), vc < 12 → units < tget 0 x.credSeen vc → tget 0 x.credSeen vc < 512 →
    tget 0 (x.takeCredit vc units).credit vc = tget 0 x.credit vc + (512 + units - tget 0 x.credSeen vc))
  ∧ (∀ (x : EdgePort) (n : Nat) (nak : Bool), (x.takeAck n nak).replay = releaseTo n x.replay)
  ∧ (∀ (p : PortId) (f : EdgeFrame) (errs : List (Fin 256 × BitVec 8)) (tag : Fin 3) (s : State), (s.port p.val).st = .up → f.kind ≠ 2 →
    tag.val = 0 → (s.port p.val).keyed = true → (s.port p.val).keys.rxPos = 0 → (s.port p.val).tagFails = 7 → (s.port p.val).early = none →
    ∃ t, exec (.edgeFrameRx p f errs tag) s = .next t ∧ (t.port p.val).st = .lost ∧ (t.port p.val).keyed = false
      ∧ (t.port p.val).replay = (s.port p.val).replay)
  ∧ ∀ (p : PortId) (f : EdgeFrame) (errs : List (Fin 256 × BitVec 8)) (tag : Fin 3) (s : State), (s.port p.val).st ≠ .up ∨ f.kind = 2 →
    exec (.edgeFrameRx p f errs tag) s = .next s

/-- R282, R284 to R288, R291: the states a port trains through, one event each, and light: a probe burst, the partner's light, lock, deskew, eye,
keying to UP, a width agreed, maintenance ended, and light lost, stopped or dark. A state that trains sends its light. -/
def Obligations.PortTraining : Prop :=
  (∀ (p : PortId) (s : State), (s.port p.val).st = .probe → exec (.probeBurst p) s = .next { s with out := s.out ++ [.link p.val 0x10] })
  ∧ (∀ (p : PortId) (w : BitVec 16) (s : State), (s.port p.val).st = .probe →
    exec (.partnerLightDetect p w) s = .next (State.train
      (s.setPort p.val { s.port p.val with light := true, rxPower := w.toNat, lightOff := false, st := .lock }) (512 + p.val) 1 0xFFFF false))
  ∧ (∀ (p : PortId) (w : BitVec 16) (s : State), (s.port p.val).st ≠ .probe →
    exec (.partnerLightDetect p w) s = .next (s.setPort p.val { s.port p.val with light := true, rxPower := w.toNat }))
  ∧ (∀ (p : PortId) (m : BitVec 16) (s : State), (s.port p.val).st = .lock → 8 ≤ (bitsSet 16 m.toNat).length →
    exec (.portLockAchieved p m) s = .next (State.train (s.setPort p.val { s.port p.val with
      st := .deskew, width := (bitsSet 16 m.toNat).length, laneMask := m.toNat }) (512 + p.val) 2 m.toNat false))
  ∧ (∀ (p : PortId) (m : BitVec 16) (s : State), (s.port p.val).st = .lock → (bitsSet 16 m.toNat).length < 8 →
    exec (.portLockAchieved p m) s = .next (s.setPort p.val { s.port p.val with width := (bitsSet 16 m.toNat).length, laneMask := m.toNat }))
  ∧ (∀ (p : PortId) (n : BitVec 16) (s : State), (s.port p.val).st = .deskew →
    ∃ t, exec (.portDeskewDone p n) s = .next t ∧ t.port p.val = { s.port p.val with st := .eye, latency := n.toNat, pos := 0 }
      ∧ ∀ r, r ≠ p.val → t.port r = s.port r)
  ∧ (∀ (p : PortId) (s : State), (s.port p.val).st = .eye →
    ∃ t, exec (.portEyeDone p) s = .next t ∧ (t.port p.val).st = .ident ∧ (t.port p.val).rxNext = 0 ∧ (t.port p.val).txSeq = 1
      ∧ (t.port p.val).replay.map (fun f => (f.seq, f.kind)) = [(0, 3)] ∧ ∀ r, r ≠ p.val → t.port r = s.port r)
  ∧ (∀ (p : PortId) (s : State), (s.port p.val).st = .keying → (s.port p.val).keyed = true →
    ∃ t, exec (.portUp p) s = .next t ∧ (t.port p.val).st = .up ∧ (t.port p.val).trained = true ∧ (t.port p.val).freed = []
      ∧ (∀ i, tget 0 (t.port p.val).credit i = s.slices.getD i 0) ∧ (t.port p.val).queue = (s.port p.val).queue
      ∧ (t.port p.val).replay = (s.port p.val).replay ∧ (t.port p.val).keys = (s.port p.val).keys ∧ ∀ r, r ≠ p.val → t.port r = s.port r)
  ∧ (∀ (p : PortId) (m : BitVec 16) (s : State), (s.port p.val).st = .width → 8 ≤ (bitsSet 16 ((s.port p.val).propose &&& m.toNat)).length →
    exec (.portWidthAgreed p m) s = .next (s.setPort p.val { s.port p.val with
      st := .up, laneMask := (s.port p.val).propose &&& m.toNat, width := (bitsSet 16 ((s.port p.val).propose &&& m.toNat)).length }))
  ∧ (∀ (p : PortId) (m : BitVec 16) (s : State), (s.port p.val).st = .width → (bitsSet 16 ((s.port p.val).propose &&& m.toNat)).length < 8 →
    (s.port p.val).early = none → ∃ t, exec (.portWidthAgreed p m) s = .next t ∧ (t.port p.val).st = .lost)
  ∧ (∀ (p : PortId) (w : BitVec 16) (s : State), -2000 ≤ signedOf 16 w.toNat →
    exec (.rxLightLoss p w) s = .next (s.setPort p.val { s.port p.val with rxPower := w.toNat }))
  ∧ (∀ (p : PortId) (w : BitVec 16) (s : State), signedOf 16 w.toNat < -2000 → (s.port p.val).st ≠ .up →
    exec (.rxLightLoss p w) s = .next (s.setPort p.val { s.port p.val with light := false, rxPower := w.toNat }))
  ∧ (∀ (p : PortId) (w : BitVec 16) (s : State), signedOf 16 w.toNat < -2000 → (s.port p.val).st = .up → (s.port p.val).early = none →
    ∃ t, exec (.rxLightLoss p w) s = .next t ∧ (t.port p.val).st = .lost ∧ (t.port p.val).light = false ∧ (t.port p.val).rxPower = w.toNat)
  ∧ (∀ (p : PortId) (s : State), (s.port p.val).light = false →
    exec (.modulatedLightStop p) s = .next (s.setPort p.val { s.port p.val with lightOff := true }))
  ∧ (∀ (p : PortId) (s : State), (s.port p.val).light = false → (s.port p.val).st ∈ [.lock, .deskew, .eye, .ident, .keying] →
    exec (.returnToProbe p) s = .next (s.setPort p.val { s.port p.val with lightOff := true, st := .probe }))
  ∧ (∀ (p : PortId) (s : State), (s.port p.val).light = false → (s.port p.val).st = .up → (s.port p.val).early = none →
    ∃ t, exec (.returnToProbe p) s = .next t ∧ (t.port p.val).st = .lost ∧ (t.port p.val).lightOff = true)
  ∧ ∀ (p : PortId) (d : MaintDone) (s : State) (r : Bool) (m : Nat), (s.port p.val).st = .maint → (s.port p.val).maint = some ⟨r, []⟩ →
    s.maskLeft (512 + p.val) d.mask.toNat = m → 8 ≤ maskWidth m →
    ∃ t, exec (.maintEnd p d) s = .next t ∧ (t.port p.val).st = .up ∧ (t.port p.val).maint = none ∧ (t.port p.val).laneMask = m
      ∧ (t.port p.val).width = maskWidth m ∧ (t.port p.val).latency = d.cycles.toNat ∧ (∀ n, t.port n = s.port n ∨ n = p.val)

/-- R283, R284, R288, R420 to R423: link-control frames in order: identity is recorded and judged, an offer that meets the checks is answered and an
encapsulation confirmed, a confirmed key exchange gives the port its keys, a frame from another partner than the recorded one loses the port,
maintenance begins and ends with the partner's, and an update of the keys runs in UP. -/
def Obligations.LinkControlAndKeys : Prop :=
  (∀ (p : PortId) (seq : BitVec 12) (lc : LinkControl) (v : Bool) (s : State), (s.port p.val).st = .ident → seq.toNat = (s.port p.val).rxNext →
    lc.lckind = 1 →
    ∃ t, exec (.linkControlFrameRx p seq lc v) s = .next t ∧ (t.port p.val).peer = lc.package ∧ (t.port p.val).peerPort = lc.port
      ∧ (t.port p.val).peerValid = true ∧ (t.port p.val).peerRole = lc.role ∧ (t.port p.val).peerMtu = lc.mtu
      ∧ (t.port p.val).digest = lc.digest ∧ (t.port p.val).rxNext = ((s.port p.val).rxNext + 1) % 4096
      ∧ (0x10 ≤ t.sightResult p.val → (t.port p.val).st = .disagree)
      ∧ (t.sightResult p.val < 0x10 → (t.port p.val).st = if s.rngStopped = true then .ident else .keying) ∧ ∀ r, r ≠ p.val → t.port r = s.port r)
  ∧ (∀ (p : PortId) (seq : BitVec 12) (lc : LinkControl) (v : Bool) (s : State), (s.port p.val).st = .keying → seq.toNat = (s.port p.val).rxNext →
    lc.lckind = 2 → lc.mtype = 1 ∨ lc.mtype = 3 → s.offerOk p.val lc v = true →
    exec (.linkControlFrameRx p seq lc v) s = .next (State.sendControl (s.setPort p.val { s.port p.val with
      rxNext := ((s.port p.val).rxNext + 1) % 4096, delivered := true, discarding := false, nakDue := false }) p.val 2 2))
  ∧ (∀ (p : PortId) (seq : BitVec 12) (lc : LinkControl) (v : Bool) (s : State), (s.port p.val).st = .keying → seq.toNat = (s.port p.val).rxNext →
    lc.lckind = 2 → lc.mtype = 1 ∨ lc.mtype = 3 → s.offerOk p.val lc v = false →
    ∃ t, exec (.linkControlFrameRx p seq lc v) s = .next t ∧ (t.port p.val).keyed = false ∧ (t.port p.val).st = .disagree
      ∧ (t.port p.val).attested = false)
  ∧ (∀ (p : PortId) (seq : BitVec 12) (lc : LinkControl) (v : Bool) (s : State), (s.port p.val).st = .keying → seq.toNat = (s.port p.val).rxNext →
    lc.lckind = 2 → lc.mtype = 2 →
    exec (.linkControlFrameRx p seq lc v) s = .next (State.sendControl (s.setPort p.val { s.port p.val with
      rxNext := ((s.port p.val).rxNext + 1) % 4096, delivered := true, discarding := false, nakDue := false }) p.val 3 0))
  ∧ (∀ (p : PortId) (seq : BitVec 12) (lc : LinkControl) (s : State), (s.port p.val).st = .keying → seq.toNat = (s.port p.val).rxNext →
    lc.lckind = 3 →
    ∃ t, exec (.linkControlFrameRx p seq lc true) s = .next t ∧ (t.port p.val).keyed = true ∧ (t.port p.val).st = .keying
      ∧ (t.port p.val).keys.sigmaTx = 0 ∧ (t.port p.val).keys.sigmaRx = 0 ∧ (t.port p.val).keys.txGen = (s.port p.val).keys.txGen
      ∧ (t.port p.val).keys.rxGen = (s.port p.val).keys.rxGen ∧ (∀ r, r ≠ p.val → t.port r = s.port r) ∧ { t with ports := s.ports } = s)
  ∧ (∀ (p : PortId) (seq : BitVec 12) (lc : LinkControl) (s : State), (s.port p.val).st = .keying → seq.toNat = (s.port p.val).rxNext →
    lc.lckind = 3 →
    ∃ t, exec (.linkControlFrameRx p seq lc false) s = .next t ∧ (t.port p.val).keyed = false ∧ (t.port p.val).st = .disagree
      ∧ (t.port p.val).attested = false ∧ ∀ r, r ≠ p.val → t.port r = s.port r)
  ∧ (∀ (p : PortId) (seq : BitVec 12) (lc : LinkControl) (v : Bool) (s : State), (s.port p.val).st = .up → seq.toNat = (s.port p.val).rxNext →
    1 ≤ lc.lckind → lc.lckind ≤ 5 → lc.package ≠ (s.port p.val).peer ∨ lc.port ≠ (s.port p.val).peerPort → (s.port p.val).early = none →
    ∃ t, exec (.linkControlFrameRx p seq lc v) s = .next t ∧ (t.port p.val).st = .lost ∧ (t.port p.val).keyed = false)
  ∧ (∀ (p : PortId) (seq : BitVec 12) (lc : LinkControl) (v : Bool) (s : State), (s.port p.val).st = .up → seq.toNat = (s.port p.val).rxNext →
    lc.lckind = 4 → lc.package = (s.port p.val).peer → lc.port = (s.port p.val).peerPort → (s.port p.val).maint = none →
    (s.port p.val).queue = [] →
    ∃ t, exec (.linkControlFrameRx p seq lc v) s = .next t ∧ (t.port p.val).maint = some ⟨false, []⟩
      ∧ (t.port p.val).st = (if (s.port p.val).replay = [] ∧ (s.port p.val).ctlQ = [] then .maint else .up))
  ∧ (∀ (p : PortId) (seq : BitVec 12) (lc : LinkControl) (v : Bool) (s : State), (s.port p.val).st = .maint → seq.toNat = (s.port p.val).rxNext →
    lc.lckind = 5 → (s.port p.val).maint = some ⟨false, []⟩ →
    ∃ t, exec (.linkControlFrameRx p seq lc v) s = .next t ∧ (t.port p.val).st = .up ∧ (t.port p.val).maint = none
      ∧ ∀ r, r ≠ p.val → t.port r = s.port r)
  ∧ (∀ (p : PortId) (s : State), (s.port p.val).st = .up → (s.port p.val).keys.updating = false → (s.port p.val).keys.confirmAcked = false →
    s.rngStopped = false → (s.port p.val).replay.length < 2048 →
    ∃ t, exec (.keyUpdateStart p) s = .next t ∧ (t.port p.val).st = .up ∧ (t.port p.val).keys.updating = true
      ∧ (t.port p.val).replay.map (fun f => (f.seq, f.kind)) =
        (s.port p.val).replay.map (fun f => (f.seq, f.kind)) ++ [((s.port p.val).txSeq, 3)]
      ∧ ∀ r, r ≠ p.val → t.port r = s.port r)
  ∧ (∀ (p : PortId) (s : State), (s.port p.val).st = .up → (s.port p.val).keys.updating = true → s.rngStopped = false →
    ∃ t, exec (.keyUpdateTimeout p) s = .next t ∧ (t.port p.val).st = .keying ∧ (t.port p.val).keyed = false
      ∧ (t.port p.val).keys.updating = false ∧ (t.port p.val).keys.txGen = (s.port p.val).keys.txGen ∧ ∀ r, r ≠ p.val → t.port r = s.port r)
  ∧ ∀ (s : State) (p : Nat) (lc : LinkControl) (v : Bool), s.offerOk p lc v = true →
    v = true ∧ lc.factory = false ∧ s.peerMinSvn ≤ lc.svn ∧ lc.certDigest = (s.port p).digest

/-! Steering, links, light and calibration (spec/07, spec/08, spec/18). -/

/-- R178 to R183, R191, Tables 7-6 to 7-9: a store of STEER_STAGE or STEER_COMMIT joins the barn's queue, or ends at once with result 4 behind
eight; the next request starts when none runs, and a set that is not loaded or another barn's ends it with result 2 or 3; a stage assigns its dark links,
a commit gives each entry its state, the paths that it clears first; a request ends with result 1 where an entry names a withdrawn link, else 0, and
ENDED and the named tally count it. A link that has drained switches, goes dark or waits for its receive link; an entry becomes live with the lanes
that are not excluded, and below 8 lanes the link is lost. -/
def Obligations.Steering : Prop :=
  (∀ (i : Instr) (stage : Bool) (c : CoreId) (set : Fin 256) (n : BitVec 16) (en : Bool) (s : State) (b : Nat),
    ((i = .steerStage c set n en ∧ stage = true) ∨ (i = .steerCommit c set n en ∧ stage = false)) →
    s.coreBarn c.val = some b → n.toNat < 1024 → (s.steer b).queued < 8 →
    ∃ t, exec i s = .next t ∧ t.steer b = { s.steer b with
        commit := set.val + 256 * boolNat stage + 2 ^ 16 * n.toNat + 2 ^ 32 * boolNat en
        queue := (s.steer b).queue ++ [⟨set.val, stage, if en = true then some (coreCluster c.val, n.toNat) else none⟩] }
      ∧ (∀ k, k ≠ b → t.steer k = s.steer k) ∧ { t with steers := s.steers } = s)
  ∧ (∀ (i : Instr) (stage : Bool) (c : CoreId) (set : Fin 256) (n : BitVec 16) (s : State) (b : Nat),
    ((i = .steerStage c set n true ∧ stage = true) ∨ (i = .steerCommit c set n true ∧ stage = false)) →
    s.coreBarn c.val = some b → n.toNat < 1024 → 8 ≤ (s.steer b).queued →
    ∃ t, exec i s = .next t ∧ t.steer b = { s.steer b with
        commit := set.val + 256 * boolNat stage + 2 ^ 16 * n.toNat + 2 ^ 32
        lastSet := set.val, result := 4, ended := ((s.steer b).ended + 1) % 2 ^ 32 }
      ∧ t.tally (coreCluster c.val) n.toNat = (s.tally (coreCluster c.val) n.toNat + 1) % 2 ^ 32
      ∧ (∀ k, k ≠ b → t.steer k = s.steer k) ∧ { t with steers := s.steers, gateways := s.gateways } = s)
  ∧ (∀ (b : BarnId) (s : State) (q : SteerReq) (l : List SteerReq) (r : Nat), (s.steer b.val).cur = none → (s.steer b.val).queue = q :: l →
    q.tally = none →
    ((tget none s.pathSets q.set = none ∧ r = 2) ∨ ∃ set, tget none s.pathSets q.set = some set ∧ set.barn ≠ b.val ∧ r = 3) →
    ∃ t, exec (.steerRequestStart b) s = .next t ∧ t.steer b.val = { s.steer b.val with
        queue := l, lastSet := q.set, result := r, ended := ((s.steer b.val).ended + 1) % 2 ^ 32 }
      ∧ (∀ k, k ≠ b.val → t.steer k = s.steer k) ∧ { t with steers := s.steers } = s)
  ∧ (∀ (b : BarnId) (s s1 : State) (q : SteerReq) (l : List SteerReq) (set : PathSet), (s.steer b.val).cur = none →
    (s.steer b.val).queue = q :: l → tget none s.pathSets q.set = some set → set.barn = b.val → q.stage = true →
    s1 = set.entries.foldl (fun s e => stageEntry s b.val e) (s.setSteer b.val { s.steer b.val with queue := l }) →
    exec (.steerRequestStart b) s = .next (s1.setSteer b.val { s1.steer b.val with cur := some (q, []) }))
  ∧ (∀ (s : State) (b : Nat) (e : PathEntry), s.entrySkips b e = false → e.dark = false → (s.link e.tx).st = .dark →
    s.rxHeld e.tx e.rx = false → stageEntry s b e = s.setLink e.tx { s.link e.tx with st := .staged, rx := some e.rx })
  ∧ (∀ (s : State) (b : Nat) (e : PathEntry),
    (s.entrySkips b e = true ∨ e.dark = true ∨ (s.link e.tx).st ≠ .dark ∨ s.rxHeld e.tx e.rx = true) → stageEntry s b e = s)
  ∧ (∀ (b : BarnId) (s s1 s2 : State) (q : SteerReq) (l : List SteerReq) (set : PathSet) (es : List SteerEntry), (s.steer b.val).cur = none →
    (s.steer b.val).queue = q :: l → tget none s.pathSets q.set = some set → set.barn = b.val → q.stage = false →
    s1 = (s.setSteer b.val { s.steer b.val with queue := l }).cancelStaged (set.entries.filter fun e =>
      !(s.setSteer b.val { s.steer b.val with queue := l }).entrySkips b.val e) →
    (es, s2) = commitAll s1 b.val (s1.clears b.val set.entries ++ set.entries) →
    es.map (·.e) = s1.clears b.val set.entries ++ set.entries
      ∧ exec (.steerRequestStart b) s = .next (s2.setSteer b.val { s2.steer b.val with cur := some (q, es) }))
  ∧ (∀ (s : State) (b : Nat) (e : PathEntry), s.commitEntry b e =
    if s.entrySkips b e = true then (⟨e, .skipped⟩, s)
    else if (s.link e.tx).work ≠ .none ∨ (s.link e.tx).st = .lost then (⟨e, .waiting⟩, s)
    else if (s.link e.tx).st = .live ∧ e.dark = false ∧ (s.link e.tx).rx = some e.rx then (⟨e, .done⟩, s)
    else if (s.link e.tx).st = .live then (⟨e, .drain⟩, s.setLink e.tx { s.link e.tx with st := .changing, drain := true })
    else if e.dark = true then (⟨e, .done⟩, s.setLink e.tx { s.link e.tx with st := .dark, rx := none, mask := 0, drain := false })
    else if (s.link e.tx).st = .staged ∧ (s.link e.tx).rx = some e.rx then
      (⟨e, .relock⟩, (s.setLink e.tx { s.link e.tx with st := .changing }).train e.tx 4 (s.rxMask e.rx) false)
    else if s.rxHeld e.tx e.rx = true then (⟨e, .waiting⟩, s)
    else (⟨e, .switching⟩, s.setLink e.tx { s.link e.tx with st := .changing, rx := some e.rx, drain := false }))
  ∧ (∀ (s : State) (b : Nat) (es : List PathEntry) (d : PathEntry), d ∈ s.clears b es →
    d.dark = true ∧ isPool d.tx = true ∧ (∃ x, (d.tx, x) ∈ s.links ∧ x.st = .live ∧ x.rx = some d.rx ∧ x.subst = false)
      ∧ (∃ e ∈ es, e.dark = false ∧ e.rx = d.rx) ∧ ∀ e ∈ es, e.tx ≠ d.tx)
  ∧ (∀ (b : BarnId) (s : State) (q : SteerReq) (es : List SteerEntry) (set : PathSet), (s.steer b.val).cur = some (q, es) → q.stage = true →
    q.tally = none → tget none s.pathSets q.set = some set →
    ∃ t, exec (.steerStageEnd b) s = .next t ∧ t.steer b.val = { s.steer b.val with
        cur := none, lastSet := q.set, ended := ((s.steer b.val).ended + 1) % 2 ^ 32
        result := if set.entries.any s.entryWithdrawn = true then 1 else 0 }
      ∧ (∀ k, k ≠ b.val → t.steer k = s.steer k) ∧ { t with steers := s.steers } = s)
  ∧ (∀ (b : BarnId) (s : State) (q : SteerReq) (es : List SteerEntry), (s.steer b.val).cur = some (q, es) → q.stage = false → q.tally = none →
    (∀ e ∈ es, e.ph = .done ∨ e.ph = .skipped) →
    ∃ t, exec (.steerCommitEnd b) s = .next t ∧ t.steer b.val = { s.steer b.val with
        cur := none, lastSet := q.set, ended := ((s.steer b.val).ended + 1) % 2 ^ 32
        result := if es.any (fun e => decide (e.ph = .skipped) && s.entryWithdrawn e.e) = true then 1 else 0 }
      ∧ (∀ k, k ≠ b.val → t.steer k = s.steer k) ∧ { t with steers := s.steers } = s)
  ∧ (∀ (l : LinkId) (s : State) (b : Nat) (e : SteerEntry), s.entryOf l.val = some (b, e) → e.ph = .drain → s.linkBusy l.val = false →
    s.entrySkips b e.e = false → (s.link l.val).idle = true → (∀ c ∈ s.cands, c.1 / 16 = l.val / 32 → l.val ∉ c.2) → e.e.dark = true →
    exec (.linkDrainComplete l) s = .next (State.setEntry
      (s.setLink l.val { s.link l.val with st := .dark, rx := none, mask := 0, drain := false }) b l.val .done))
  ∧ (∀ (l : LinkId) (s : State) (b : Nat) (e : SteerEntry), s.entryOf l.val = some (b, e) → e.ph = .drain → s.linkBusy l.val = false →
    s.entrySkips b e.e = false → (s.link l.val).idle = true → (∀ c ∈ s.cands, c.1 / 16 = l.val / 32 → l.val ∉ c.2) → e.e.dark = false →
    exec (.linkDrainComplete l) s = .next (if s.rxHeld l.val e.e.rx = true then
      State.setEntry (s.setLink l.val { s.link l.val with st := .changing, rx := none, mask := 0, drain := false }) b l.val .waiting
      else State.setEntry (s.setLink l.val { s.link l.val with rx := some e.e.rx, drain := false }) b l.val .switching))
  ∧ (∀ (l : LinkId) (s : State) (b : Nat) (e : SteerEntry), s.entryOf l.val = some (b, e) → e.ph = .drain → s.linkBusy l.val = false →
    s.entrySkips b e.e = false → (s.link l.val).idle = false → exec (.linkDrainComplete l) s = .next s)
  ∧ (∀ (l : LinkId) (s : State) (b : Nat) (e : SteerEntry), s.entryOf l.val = some (b, e) → (e.ph = .switching ∨ e.ph = .relock) →
    s.linkBusy l.val = false → s.entrySkips b e.e = false →
    exec (.steerEntryLive l) s = .next ((s.pathLive l.val e.e.rx).setEntry b l.val .done))
  ∧ (∀ (l : LinkId) (s s1 : State) (b : Nat) (e e' : SteerEntry), s.entryOf l.val = some (b, e) → e.ph = .waiting →
    s.linkBusy l.val = false → s.entrySkips b e.e = false → (e', s1) = s.commitEntry b e.e →
    exec (.steerEntryLive l) s = .next (s1.setEntry b l.val e'.ph))
  ∧ (∀ (s : State) (l r : Nat), l < 512 → 8 ≤ maskWidth (s.rxMask r) →
    (s.pathLive l r).link l = { s.link l with
      st := .live, mask := s.rxMask r, discarding := false, drain := false, sendAt := 0, pos := 0
      latency := Config.freeValue s.freeCtr % 2 ^ 16 }
    ∧ (∀ n, n ≠ l → (s.pathLive l r).link n = s.link n)
    ∧ { s.pathLive l r with links := s.links, freeCtr := s.freeCtr, cal := s.cal } = s)
  ∧ ∀ (s : State) (r k : Nat), k < 16 → bitAt (s.rxMask r) k = !(s.lane (16 * r + k)).excluded

/-- R165 to R169, R175, R176, R181, R186 to R190, R203 to R207: a link sends its next frame and the receiver delivers one in order, discards what it
cannot correct or what is out of order until the replay, and lets the record act; light that something changes is unframed. A candidate set changes when
its links hold nothing unacknowledged. A failed module is marked; a lane leaves a link or port through a width change, and below 8 lanes
the link is lost; a lost link is replaced or withdrawn; sweeps and retrains wait, begin and end; core BIST and captures end. -/
def Obligations.LanesAndSweeps : Prop :=
  (∀ (l : LinkId) (f : LinkFrame) (s : State), ((s.link l.val).rx = none ∨ (s.link l.val).framed = false ∨ isFabric l.val = false) →
    exec (.linkFrameRx l f) s = .next s)
  ∧ (∀ (l : LinkId) (f : LinkFrame) (s : State) (r : Nat) (fr : Option LFrame) (x1 : Link) (places : List Nat), (s.link l.val).rx = some r →
    (s.link l.val).framed = true → isFabric l.val = true → (fr, x1) = (s.link l.val).nextFrame → s.nextRecord (l.val / 32) (r / 32) = none →
    frameDecode (hitBytes (frameBytes fr none) f.errs) = some (frameBytes fr none, places) →
    exec (.linkFrameRx l f) s = .next (State.frameTake
      (countLanes (s.setLink l.val { x1 with pos := x1.pos + 256 }) r (s.link l.val).mask (s.link l.val).pos places) l.val (r / 32) fr))
  ∧ (∀ (l : LinkId) (f : LinkFrame) (s : State) (r m : Nat) (fr : Option LFrame) (x1 : Link) (places : List Nat), (s.link l.val).rx = some r →
    (s.link l.val).framed = true → isFabric l.val = true → (fr, x1) = (s.link l.val).nextFrame → s.nextRecord (l.val / 32) (r / 32) = some m →
    frameDecode (hitBytes (frameBytes fr (some (s.recordOf m))) f.errs) = some (frameBytes fr (some (s.recordOf m)), places) →
    exec (.linkFrameRx l f) s = .next (State.frameTake (State.recordTake
      (countLanes (s.setLink l.val { x1 with pos := x1.pos + 256 }) r (s.link l.val).mask (s.link l.val).pos places)
        (l.val / 32) (r / 32) m (s.recordOf m)) l.val (r / 32) fr))
  ∧ (∀ (l : LinkId) (f : LinkFrame) (s : State) (r : Nat) (fr : Option LFrame) (x1 : Link), (s.link l.val).rx = some r →
    (s.link l.val).framed = true → isFabric l.val = true → (fr, x1) = (s.link l.val).nextFrame →
    frameDecode (hitBytes (frameBytes fr ((s.nextRecord (l.val / 32) (r / 32)).map s.recordOf)) f.errs) = none →
    ∃ t, exec (.linkFrameRx l f) s = .next t ∧ t.link l.val = { x1 with pos := x1.pos + 256, discarding := true, nakDue := true }
      ∧ (∀ n, n ≠ l.val → t.link n = s.link n) ∧ t.reports = s.reports ++ [⟨0x09, l.val, 0, s.reckon, none⟩]
      ∧ { t with links := s.links, reports := s.reports } = s)
  ∧ (∀ (s : State) (l b : Nat) (f : LFrame), f.seq = (s.link l).rxNext → s.frameTake l b (some f) = dieTakeAll
      (s.setLink l { s.link l with rxNext := (f.seq + 1) % 256, discarding := false, ackDue := true, nakDue := false }) b f.pkts)
  ∧ (∀ (s : State) (l b : Nat) (f : LFrame), f.seq ≠ (s.link l).rxNext → s.frameTake l b (some f) =
    if (s.link l).discarding = true then s
    else State.report (s.setLink l { s.link l with discarding := true, nakDue := true }) 0x09 l 0)
  ∧ (∀ (x : Link) (a b : List LFrame) (f : LFrame) (nak : Bool), x.replay = a ++ f :: b → (∀ g ∈ a, g.seq ≠ f.seq) → (nak = false ∨ b = []) →
    x.takeAck f.seq nak = { x with replay := b, sendAt := x.sendAt - (a.length + 1), failedReplays := 0 })
  ∧ (∀ (x : Link) (seq : Nat), x.replay ≠ [] → (∀ g ∈ x.replay, g.seq ≠ seq) →
    x.takeAck seq true = { x with sendAt := 0, failedReplays := x.failedReplays + 1 })
  ∧ (∀ (d e : DieId) (s : State), (d = e ∨ (tget [] s.cands (16 * d.val + e.val) ≠ s.wantCands d.val e.val
      ∧ s.candBusy d.val e.val (s.wantCands d.val e.val) = true)) → exec (.candidateSetChange d e) s = .next s)
  ∧ (∀ (d e : DieId) (s : State), d ≠ e → tget [] s.cands (16 * d.val + e.val) = s.wantCands d.val e.val →
    tget [] s.dieWait (16 * d.val + e.val) = [] → exec (.candidateSetChange d e) s = .next (s.startDrained d.val))
  ∧ (∀ (d e : DieId) (s s1 : State) (back : List LinkPkt), d ≠ e → tget [] s.cands (16 * d.val + e.val) ≠ s.wantCands d.val e.val →
    s.candBusy d.val e.val (s.wantCands d.val e.val) = false → (back, s1) = takeBack s e.val (tget [] s.cands (16 * d.val + e.val)) →
    exec (.candidateSetChange d e) s = .next (State.startDrained (linkSendAll { s1 with
        cands := tset [] s1.cands (16 * d.val + e.val) (s.wantCands d.val e.val), dieWait := tset [] s1.dieWait (16 * d.val + e.val) [] }
      d.val (back ++ tget [] s.dieWait (16 * d.val + e.val))) d.val))
  ∧ (∀ (m : ModuleId) (trims : List (BitVec 32 × Byte)) (s : State), (s.module m.val).fitted = true → (s.module m.val).failed = false →
    (s.module m.val).admitted = true → (s.module m.val).released = false →
    exec (.lighthouseModuleFailure m trims) s = .next (State.feedRetrim (State.refeed (State.postNotice (State.report
      (s.setModule m.val { s.module m.val with failed := true }) 0x13 m.val 0) 256 0x07 (leBytes 1 m.val ++ leBytes 1 1)) s.availModules)
      s.availModules trims))
  ∧ (∀ (l : Fin 584) (k : Fin 16) (s : State) (r : Nat), l.val < 512 → (s.link l.val).st = .live → (s.link l.val).work = .none →
    (s.link l.val).rx = some r → bitAt (s.link l.val).mask k.val = true →
    ∃ t, exec (.laneExclusion l k) s = .next t
      ∧ t.link l.val = { s.link l.val with work := .width ((s.link l.val).mask - 2 ^ k.val) }
      ∧ t.lane (16 * r + k.val) = { s.lane (16 * r + k.val) with excluded := true }
      ∧ t.out = (s.train l.val 5 ((s.link l.val).mask - 2 ^ k.val) false).out
      ∧ t.reports = s.reports ++ [⟨0x10, 16 * l.val + k.val, 0, s.reckon, none⟩]
      ∧ (∀ n, n ≠ l.val → t.link n = s.link n) ∧ (∀ n, n ≠ 16 * r + k.val → t.lane n = s.lane n)
      ∧ { t with links := s.links, lanes := s.lanes, out := s.out, reports := s.reports } = s)
  ∧ (∀ (l : Fin 584) (k : Fin 16) (s : State), 512 ≤ l.val → (s.port (l.val - 512)).st = .up → (s.port (l.val - 512)).maint = none →
    bitAt (s.port (l.val - 512)).laneMask k.val = true →
    exec (.laneExclusion l k) s = .next (State.report (State.setLane
      (s.portWidth (l.val - 512) ((s.port (l.val - 512)).laneMask - 2 ^ k.val)) (16 * l.val + k.val)
        { s.lane (16 * l.val + k.val) with excluded := true }) 0x10 (16 * l.val + k.val) 0))
  ∧ (∀ (l : Fin 584) (s : State) (m : Nat), l.val < 512 → (s.link l.val).work = .width m → 8 ≤ maskWidth m →
    ∃ t, exec (.widthChangeComplete l) s = .next t ∧ t.link l.val = { s.link l.val with
        mask := m, work := .none, pos := 0, latency := Config.freeValue s.freeCtr % 2 ^ 16 }
      ∧ (∀ n, n ≠ l.val → t.link n = s.link n) ∧ { t with links := s.links, freeCtr := s.freeCtr, cal := s.cal } = s)
  ∧ (∀ (l : Fin 584) (s : State) (m : Nat), l.val < 512 → (s.link l.val).st = .live → (s.link l.val).work = .width m → maskWidth m < 8 →
    attachPort l.val = none →
    ∃ t, exec (.widthChangeComplete l) s = .next t ∧ t.link l.val = { s.link l.val with
        mask := m, work := .none, pos := 0, st := .lost, discarding := false, drain := false }
      ∧ t.reports = s.reports ++ [⟨0x11, l.val, 0, s.reckon, none⟩]
      ∧ (∀ n, n ≠ l.val → t.link n = s.link n) ∧ { t with links := s.links, reports := s.reports } = s)
  ∧ (∀ (l : Fin 584) (s : State), 512 ≤ l.val → (s.port (l.val - 512)).st = .width → 8 ≤ maskWidth (s.port (l.val - 512)).propose →
    ∃ t, exec (.widthChangeComplete l) s = .next t ∧ t.port (l.val - 512) = { s.port (l.val - 512) with
        st := .up, laneMask := (s.port (l.val - 512)).propose, width := maskWidth (s.port (l.val - 512)).propose, pos := 0
        latency := Config.freeValue s.freeCtr % 2 ^ 16 }
      ∧ (∀ n, n ≠ l.val - 512 → t.port n = s.port n) ∧ { t with ports := s.ports, freeCtr := s.freeCtr, cal := s.cal } = s)
  ∧ (∀ (l : Fin 584) (k : Fin 16) (s : State) (r : Nat), l.val < 512 → (s.link l.val).st = .live → (s.link l.val).work = .none →
    (s.link l.val).rx = some r → (s.lane (16 * r + k.val)).excluded = true → (s.lane (16 * r + k.val)).retired = false →
    bitAt (s.link l.val).mask k.val = false →
    ∃ t, exec (.laneRetrainComplete l k) s = .next t
      ∧ t.link l.val = { s.link l.val with work := .width ((s.link l.val).mask + 2 ^ k.val) }
      ∧ t.lane (16 * r + k.val) = { s.lane (16 * r + k.val) with excluded := false }
      ∧ t.out = (s.train l.val 5 ((s.link l.val).mask + 2 ^ k.val) false).out
      ∧ (∀ n, n ≠ l.val → t.link n = s.link n) ∧ (∀ n, n ≠ 16 * r + k.val → t.lane n = s.lane n)
      ∧ { t with links := s.links, lanes := s.lanes, out := s.out } = s)
  ∧ (∀ (l : LinkId) (s : State), (s.link l.val).st = .lost → isPool l.val = true → (s.link l.val).subst = false →
    exec (.linkSubstitution l) s = .next (s.withdraw l.val))
  ∧ (∀ (s : State) (l : Nat), ((s.withdraw l).link l).st = .withdrawn ∧ ((s.withdraw l).link l).rx = none ∧ ((s.withdraw l).link l).mask = 0
    ∧ ((s.withdraw l).link l).replay = [] ∧ ((s.withdraw l).link l).txQ = [] ∧ (∀ n, n ≠ l → (s.withdraw l).link n = s.link n)
    ∧ { s.withdraw l with links := s.links, dieWait := s.dieWait } = s)
  ∧ (∀ (l : LinkId) (s s2 : State) (i r t q : Nat), (s.link l.val).st = .lost → linkRole l.val = .standing i → (s.link l.val).subst = false →
    (s.link l.val).rx = some r → s.spareTx (l.val / 32) = some t → s.spareRx (r / 32) = some q →
    s2 = State.takeRx (State.takeTx (s.setLink l.val
      { (s.link l.val).emptied with rx := none, subst := false, mask := 0, drain := false }) t) q →
    8 ≤ maskWidth (s2.rxMask q) →
    exec (.linkSubstitution l) s = .next (State.newLatency (s2.setLink t { s.link l.val with
      st := .live, mask := s2.rxMask q, rx := some q, subst := true, taken := isPool t, work := .none, drain := false, sendAt := 0, pos := 0
      failedReplays := 0 }) t))
  ∧ (∀ (l : Fin 584) (s : State) (c : CalReq), l.val < 512 → s.calQueue.find? (fun c => decide (c.link = l.val)) = some c →
    (s.link l.val).st = .live → (s.link l.val).work = .none → s.otherCand l.val = true →
    exec (.deferredCalStart l) s = .next (State.setLink { s with calQueue := removeFirst c s.calQueue } l.val
      { s.link l.val with work := .calWait c.retrain c.ops none }))
  ∧ (∀ (l : Fin 584) (s : State) (c : CalReq), l.val < 512 → s.calQueue.find? (fun c => decide (c.link = l.val)) = some c →
    (s.link l.val).st = .live → (s.link l.val).work = .none → c.force = false → s.hasSubstitute l.val = false →
    exec (.deferredCalStart l) s = .next s)
  ∧ (∀ (l : Fin 584) (s : State) (c : CalReq), l.val < 512 → s.calQueue.find? (fun c => decide (c.link = l.val)) = some c →
    (s.link l.val).st ∈ [.lost, .withdrawn, .dark] →
    exec (.deferredCalStart l) s = .next (opFinAll { s with calQueue := removeFirst c s.calQueue } 3 0x24 c.ops))
  ∧ (∀ (i : Instr) (retrain : Bool) (l : LinkId) (m n : BitVec 16) (tr : List (BitVec 32 × Byte)) (s : State) (r : Nat),
    ((i = .linkSweepComplete l m n tr ∧ retrain = false) ∨ (i = .linkRetrainComplete l m n tr ∧ retrain = true)) →
    (s.link l.val).work = .calib retrain [] none → 8 ≤ maskWidth m.toNat → (s.link l.val).rx = some r →
    ∃ t, exec i s = .next t ∧ t.link l.val = { s.link l.val with work := .none, mask := m.toNat, sendAt := 0, pos := 0, latency := n.toNat }
      ∧ (∀ k, k < 16 → t.lane (16 * r + k) = { s.lane (16 * r + k) with excluded := !bitAt m.toNat k })
      ∧ (∀ k, k / 16 ≠ r → t.lane k = s.lane k) ∧ (∀ k, k ≠ l.val → t.link k = s.link k)
      ∧ { t with links := s.links, lanes := s.lanes, cal := s.cal, calHeld := s.calHeld } = s)
  ∧ (∀ (i : Instr) (retrain : Bool) (l : LinkId) (m n : BitVec 16) (tr : List (BitVec 32 × Byte)) (s : State) (ops : List Nat) (sub : Option Nat),
    ((i = .linkSweepComplete l m n tr ∧ retrain = false) ∨ (i = .linkRetrainComplete l m n tr ∧ retrain = true)) →
    (s.link l.val).work = .calib retrain ops sub → exec i s = .next (
      if maskWidth m.toNat < 8 then (s.calApplyLink l.val tr).linkLost l.val 0x11 else (s.calApplyLink l.val tr).calEnd l.val retrain m.toNat n.toNat))
  ∧ (∀ (i : Instr) (retrain : Bool) (l : LinkId) (m n : BitVec 16) (tr : List (BitVec 32 × Byte)) (s : State),
    ((i = .linkSweepComplete l m n tr ∧ retrain = false) ∨ (i = .linkRetrainComplete l m n tr ∧ retrain = true)) →
    (∀ ops sub, (s.link l.val).work ≠ .calib retrain ops sub) → exec i s = .next s)
  ∧ (∀ (l : Fin 584) (f : TrainFrame) (s : State) (m : Nat), l.val < 512 → (s.link l.val).work = .width m → f.tkind = 5 →
    exec (.trainingFrameRx l f) s = .next (s.setLink l.val { s.link l.val with work := .width (m &&& f.laneMask) }))
  ∧ (∀ (l : Fin 584) (f : TrainFrame) (s : State), l.val < 512 → (s.link l.val).work = .none → (s.link l.val).st = .live → f.tkind = 5 →
    (s.link l.val).mask &&& f.laneMask ≠ (s.link l.val).mask →
    exec (.trainingFrameRx l f) s = .next (State.train (s.setLink l.val { s.link l.val with work := .width ((s.link l.val).mask &&& f.laneMask) })
      l.val 5 ((s.link l.val).mask &&& f.laneMask) false))
  ∧ (∀ (l : Fin 584) (f : TrainFrame) (s : State), f.tkind = 4 → f.ack = true → (s.link l.val).work = .relock →
    exec (.trainingFrameRx l f) s = .next (s.setLink l.val { s.link l.val with work := .none, sendAt := 0, pos := 0 }))
  ∧ (∀ (l : Fin 584) (f : TrainFrame) (s : State), 512 ≤ l.val → (s.port (l.val - 512)).st = .width → f.tkind = 5 →
    exec (.trainingFrameRx l f) s =
      .next (s.setPort (l.val - 512) { s.port (l.val - 512) with propose := (s.port (l.val - 512)).propose &&& f.laneMask }))
  ∧ (∀ (op : Nat) (s : State) (o : Op), s.op op = some o → o.opcode = 0x0503 → o.args.headD 0 = 4 → o.fin = none → o.st = 1 →
    ∃ t, exec (.coreBistComplete op []) s = .next t ∧ t.bist = s.bist.filter (fun c => !o.work.contains c)
      ∧ (∀ c, t.core c = if c ∈ o.work ∧ (s.core c).power = .bist then { s.core c with power := .zeroing } else s.core c)
      ∧ t.reports = s.reports)
  ∧ (∀ (op : Nat) (s : State), s.capture = some (op, true) →
    exec (.calCaptureComplete op) s = .next (State.opFin { State.calRelease { s with capture := none } with
      nv := (State.calRelease { s with capture := none }).nv.putCal s.calSnapshot } op 2 0))
  ∧ ∀ (op : Nat) (s : State), s.capture = some (op, false) →
    exec (.calCaptureComplete op) s = .next (State.opFin (State.opBuffer (State.calRelease { s with capture := none }) op s.calImageBytes) op 2 0)

/-- R192 to R201, R203, R452 to R459, Table 8-5: a sensor's output is a sample unless it is one of the three after a reset, or falls between two of slow
mode; figures, residuals and rechecks are judged against their limits: inside the warning limit the conditions clear, beyond it a note is
reported, beyond the action limit a sweep, a re-lock or an exclusion is asked; a re-lock and a zone retrim end. -/
def Obligations.SensorsAndFigures : Prop :=
  (∀ (n : SensorId) (w : BitVec 16) (s : State), s.sensorOn n.val = true → (s.sensor n.val).retired = false →
    (n.val < 576 → (s.sensor n.val).invalid = 0) →
    ((s.sensor n.val).fast = true ∨ (s.sensor n.val).phase = 0) →
    ∃ t, exec (.sensorSample n w) s = .next t ∧ t.sensor n.val = { s.sensor n.val with
        last := some (signedOf 16 w.toNat), phase := ((s.sensor n.val).phase + 1) % 20
        warn := flagAt (s.sensor n.val).warn (thresholds n.val).warnSet (thresholds n.val).warnClear (signedOf 16 w.toNat)
        throttle := flagAt (s.sensor n.val).throttle (thresholds n.val).throttleSet (thresholds n.val).throttleClear (signedOf 16 w.toNat)
        run := if (thresholds n.val).shutdown ≤ signedOf 16 w.toNat then min 2 ((s.sensor n.val).run + 1) else 0
        fast := flagAt (s.sensor n.val).fast (thresholds n.val).fast (thresholds n.val).slow (signedOf 16 w.toNat) }
      ∧ (∀ k, k ≠ n.val → t.sensor k = s.sensor k)
      ∧ { t with sensors := s.sensors, reports := s.reports, zones := s.zones, pins := s.pins, out := s.out, fns := s.fns } = s)
  ∧ (∀ (n : SensorId) (w : BitVec 16) (s : State) (k : Nat), s.sensorOn n.val = true → n.val < 576 → (s.sensor n.val).retired = false →
    (s.sensor n.val).invalid = k + 1 →
    exec (.sensorSample n w) s = .next (s.setSensor n.val { s.sensor n.val with invalid := k }))
  ∧ (∀ (n : SensorId) (w : BitVec 16) (s : State), s.sensorOn n.val = true → (s.sensor n.val).retired = false →
    (n.val < 576 → (s.sensor n.val).invalid = 0) →
    (s.sensor n.val).fast = false → (s.sensor n.val).phase ≠ 0 →
    exec (.sensorSample n w) s = .next (s.setSensor n.val { s.sensor n.val with phase := ((s.sensor n.val).phase + 1) % 20 }))
  ∧ (∀ (n : Fin 576) (w : BitVec 16) (s : State), s.sensorOn n.val = true → (s.sensor n.val).retired = false → (s.sensor n.val).last ≠ none →
    (signedOf 16 w.toNat).natAbs ≤ 15 →
    exec (.sensorResidualCheck n w) s = .next (s.setSensor n.val { s.sensor n.val with residWarn := false, resid := signedOf 16 w.toNat }))
  ∧ (∀ (n : Fin 576) (w : BitVec 16) (s : State), s.sensorOn n.val = true → (s.sensor n.val).retired = false → (s.sensor n.val).last ≠ none →
    15 < (signedOf 16 w.toNat).natAbs → (signedOf 16 w.toNat).natAbs ≤ 30 → (s.sensor n.val).residWarn = false →
    exec (.sensorResidualCheck n w) s = .next (State.report (s.setSensor n.val { s.sensor n.val with residWarn := true, resid := signedOf 16 w.toNat })
      0x15 (13 * 2 ^ 24 + n.val) (signedOf 16 w.toNat).natAbs))
  ∧ (∀ (n : Fin 576) (w : BitVec 16) (s : State), s.sensorOn n.val = true → (s.sensor n.val).retired = false → (s.sensor n.val).last ≠ none →
    30 < (signedOf 16 w.toNat).natAbs → (s.sensor n.val).residWarn = true →
    exec (.sensorResidualCheck n w) s = .next (State.retireSensor
      (s.setSensor n.val { s.sensor n.val with residWarn := true, resid := signedOf 16 w.toNat }) n.val))
  ∧ (∀ (s : State) (n : Nat), (s.sensor n).retired = false → ((s.retireSensor n).sensor n).retired = true
    ∧ (∀ k, k ≠ n → (s.retireSensor n).sensor k = s.sensor k) ∧ ∃ l, (s.retireSensor n).reports = s.reports ++ ⟨0x43, n, 0, s.reckon, none⟩ :: l)
  ∧ (∀ (n : Fin 584) (k : Fin 16) (w : Fin 65) (s : State), s.linkParked n.val = false → s.rxFramed n.val = true → 26 ≤ w.val →
    ∃ t, exec (.eyeWidthMeasure n k w) s = .next t ∧ t.lane (16 * n.val + k.val) = { s.lane (16 * n.val + k.val) with
        eyeW := w.val, updated := some s.reckon
        warn := (s.lane (16 * n.val + k.val)).warn &&& 6, action := (s.lane (16 * n.val + k.val)).action &&& 6 }
      ∧ (∀ j, j ≠ 16 * n.val + k.val → t.lane j = s.lane j) ∧ { t with lanes := s.lanes } = s)
  ∧ (∀ (n : Fin 584) (k : Fin 16) (w : Fin 65) (s : State), s.linkParked n.val = false → s.rxFramed n.val = true → 20 ≤ w.val → w.val < 26 →
    bitAt (s.lane (16 * n.val + k.val)).warn 0 = false →
    ∃ t, exec (.eyeWidthMeasure n k w) s = .next t ∧ t.lane (16 * n.val + k.val) = { s.lane (16 * n.val + k.val) with
        eyeW := w.val, updated := some s.reckon, warn := (s.lane (16 * n.val + k.val)).warn ||| 1 }
      ∧ t.reports = s.reports ++ [⟨0x15, 7 * 2 ^ 24 + (16 * n.val + k.val), 0, s.reckon, none⟩]
      ∧ (∀ j, j ≠ 16 * n.val + k.val → t.lane j = s.lane j) ∧ { t with lanes := s.lanes, reports := s.reports } = s)
  ∧ (∀ (n : Fin 584) (k : Fin 16) (w : Fin 65) (s : State) (l : Nat), s.linkParked n.val = false → s.rxFramed n.val = true → w.val < 20 →
    bitAt (s.lane (16 * n.val + k.val)).warn 0 = true → bitAt (s.lane (16 * n.val + k.val)).action 0 = false → s.txLink n.val = some l →
    ∃ u : State, exec (.eyeWidthMeasure n k w) s = .next (State.calAsk u l false 0 false)
      ∧ u.lane (16 * n.val + k.val) = { s.lane (16 * n.val + k.val) with
          eyeW := w.val, updated := some s.reckon
          warn := (s.lane (16 * n.val + k.val)).warn ||| 1, action := (s.lane (16 * n.val + k.val)).action ||| 1 }
      ∧ (∀ j, j ≠ 16 * n.val + k.val → u.lane j = s.lane j) ∧ { u with lanes := s.lanes } = s)
  ∧ (∀ (n : Fin 584) (k : Fin 16) (w : Fin 65) (s : State), s.linkParked n.val = false → s.rxFramed n.val = false → s.rxSwept n.val = false →
    exec (.eyeWidthMeasure n k w) s = .next s)
  ∧ (∀ (n : Fin 584) (k : Fin 16) (h : BitVec 8) (s : State), s.linkParked n.val = false → s.rxFramed n.val = true → 60 ≤ h.toNat →
    ∃ t, exec (.eyeHeightMeasure n k h) s = .next t ∧ t.lane (16 * n.val + k.val) = { s.lane (16 * n.val + k.val) with
        eyeH := h.toNat, updated := some s.reckon
        warn := (s.lane (16 * n.val + k.val)).warn &&& 5, action := (s.lane (16 * n.val + k.val)).action &&& 5 }
      ∧ (∀ j, j ≠ 16 * n.val + k.val → t.lane j = s.lane j) ∧ { t with lanes := s.lanes } = s)
  ∧ (∀ (n : Fin 584) (k : Fin 16) (e : BitVec 8) (s : State), s.linkParked n.val = false → s.rxFramed n.val = true → 90 ≤ e.toNat →
    ∃ t, exec (.berWindowEnd n k e) s = .next t ∧ t.lane (16 * n.val + k.val) = { s.lane (16 * n.val + k.val) with
        ber := e.toNat, updated := some s.reckon
        warn := (s.lane (16 * n.val + k.val)).warn &&& 3, action := (s.lane (16 * n.val + k.val)).action &&& 3 }
      ∧ (∀ j, j ≠ 16 * n.val + k.val → t.lane j = s.lane j) ∧ { t with lanes := s.lanes } = s)
  ∧ (∀ (n : Fin 584) (s : State), s.linkParked n.val = false → s.rxFramed n.val = true → (∀ k, k < 16 → (s.lane (16 * n.val + k)).corr = 0) →
    ∃ t, exec (.exclusionWindowEnd n []) s = .next t
      ∧ (∀ k, k < 16 → t.lane (16 * n.val + k) = { s.lane (16 * n.val + k) with share := 0, updated := some s.reckon, corr := 0 })
      ∧ (∀ j, j / 16 ≠ n.val → t.lane j = s.lane j) ∧ { t with lanes := s.lanes } = s)
  ∧ (∀ (n : Fin 584) (k : Fin 16) (c l : Nat) (s : State), s.linkParked n.val = false → s.rxFramed n.val = true → 4096 ≤ c →
    (∀ j, j < 16 → (s.lane (16 * n.val + j)).corr = 0) → s.txLink n.val = some l →
    ∃ u : State, exec (.exclusionWindowEnd n [(k, c)]) s = .next (u.excludeLane l k.val true)
      ∧ (∀ j, j < 16 → u.lane (16 * n.val + j) = { s.lane (16 * n.val + j) with
          share := if j = k.val then 255 else 0, updated := some s.reckon, corr := 0 })
      ∧ (∀ j, j / 16 ≠ n.val → u.lane j = s.lane j) ∧ { u with lanes := s.lanes } = s)
  ∧ (∀ (r : Fin 212888) (w : BitVec 16) (m : Fin 3) (s : State), s.ringLive r.val = true → 17536 ≤ r.val → (signedOf 16 w.toNat).natAbs ≤ 60 →
    s.ringHeld r.val = false →
    exec (.lockLoopUpdate r w m) s = .next { s with
      ringRes := tset 0 s.ringRes r.val (signedOf 16 w.toNat)
      ringWarn := s.ringWarn.filter (fun x => decide (x ≠ r.val)), ringAct := s.ringAct.filter fun x => decide (x ≠ r.val) })
  ∧ (∀ (r : Fin 212888) (w : BitVec 16) (m : Fin 3) (s : State), s.ringLive r.val = true → r.val < 17536 → s.capture = none →
    ∃ u : State, exec (.lockLoopUpdate r w m) s = .next (State.judgeRing u r.val (signedOf 16 w.toNat).natAbs)
      ∧ u.ringOffset r.val = max (-2048) (min 2047 (s.ringOffset r.val + (m.val : Int) - 1))
      ∧ (∀ q, q ≠ r.val → u.ringOffset q = s.ringOffset q) ∧ u.ringRes = tset 0 s.ringRes r.val (signedOf 16 w.toNat)
      ∧ { u with cal := s.cal, ringRes := s.ringRes } = s)
  ∧ (∀ (s : State) (r res : Nat), 60 < res → res ≤ 120 → s.ringHeld r = false → s.ringWarn.contains r = false →
    s.judgeRing r res = State.report { s with ringWarn := insertSorted r s.ringWarn } 0x15 (8 * 2 ^ 24 + r) res)
  ∧ (∀ (s : State) (r res : Nat), 120 < res → s.ringWarn.contains r = true → s.ringAct.contains r = false → s.judgeRing r res =
    State.ringRelock { s with ringWarn := insertSorted r s.ringWarn, ringAct := insertSorted r s.ringAct } r)
  ∧ (∀ (s : State) (r l : Nat), s.ringLink r = some l → s.ringRelock r = if r < 17536 then
      State.excludeLane (State.report { s with relocks := insertSorted r s.relocks } 0x14 r 0) l (ringLane r) false else s.calAsk l false 0 false)
  ∧ (∀ (r : Fin 17536) (o : BitVec 12) (s : State) (l : Nat), s.relocks.contains r.val = true → s.capture = none → s.ringLink r.val = some l →
    ∃ u : State, exec (.ringRelockComplete r o) s = .next (u.restoreLane l (ringLane r.val)) ∧ u.relocks = s.relocks.filter (fun x => decide (x ≠ r.val))
      ∧ u.ringOffset r.val = signedOf 12 o.toNat ∧ (∀ q, q ≠ r.val → u.ringOffset q = s.ringOffset q)
      ∧ { u with relocks := s.relocks, cal := s.cal } = s)
  ∧ (∀ (z : Fin 64) (s : State) (x : Int), (tget Zone.init s.zones z.val).retrim = true → (tget Zone.init s.zones z.val).ops = [] →
    s.capture = none → s.zoneTemp z.val = some x →
    ∃ t, exec (.zoneRetrimComplete z []) s = .next t ∧ tget Zone.init t.zones z.val = Zone.init
      ∧ t.calRead 2 (2 * z.val) 2 = wrapTo 16 (tenths x) ∧ (∀ k, k ≠ z.val → tget Zone.init t.zones k = tget Zone.init s.zones k)
      ∧ { t with zones := s.zones, cal := s.cal } = s)
  ∧ (∀ (v : BitVec 32) (a b : List Byte) (s : State), s.ready = true → (v.toNat < 1960000 ∨ 2040000 < v.toNat) →
    exec (.analogueRecheck v a b) s = .next (State.report { s with rcalHeld := true } 0x35 0 v.toNat))
  ∧ (∀ (v : BitVec 32) (a b : List Byte) (s : State), s.ready = true → 1960000 ≤ v.toNat → v.toNat ≤ 2040000 →
    200 * (v.toNat - s.rcalBoot) ≤ s.rcalBoot → 200 * (s.rcalBoot - v.toNat) ≤ s.rcalBoot →
    exec (.analogueRecheck v a b) s = .next { s with rcalHeld := false })
  ∧ ∀ (v : BitVec 32) (a b : List Byte) (s : State), s.ready = true → 1960000 ≤ v.toNat → v.toNat ≤ 2040000 →
    (s.rcalBoot < 200 * (v.toNat - s.rcalBoot) ∨ s.rcalBoot < 200 * (s.rcalBoot - v.toNat)) →
    exec (.analogueRecheck v a b) s = .next (State.retrimAnalogue (State.report { s with rcalHeld := false } 0x34 0 v.toNat) a b)

/-- R455, Table 18-7: the thresholds; a flag is set at a valid sample at or above its set value and cleared at one at or below its clear value, each
setting is reported, under kind 0x40 for WARN and 0x41 for THROTTLE, and clearing is not; the second sample in a row at or above the shutdown
value is reported under kind 0x42. -/
def Obligations.SensorFlags : Prop :=
  (∀ n, n < 512 → thresholds n = ⟨16 * 95, 16 * 92, 16 * 103, 16 * 99, 16 * 115, 16 * 98, 16 * 96⟩)
  ∧ (∀ n, 512 ≤ n → n < 576 → thresholds n = ⟨16 * 80, 16 * 77, 16 * 88, 16 * 84, 16 * 100, 16 * 83, 16 * 81⟩)
  ∧ (∀ n, 576 ≤ n → thresholds n = ⟨16 * 85, 16 * 82, 16 * 92, 16 * 89, 16 * 100, 16 * 87, 16 * 85⟩)
  ∧ (∀ (s : State) (n : Nat) (x : Int),
    ((s.judgeFlags n x).sensor n).warn = (if (thresholds n).warnSet ≤ x then true else if x ≤ (thresholds n).warnClear then false else (s.sensor n).warn)
    ∧ ((s.judgeFlags n x).sensor n).throttle =
      (if (thresholds n).throttleSet ≤ x then true else if x ≤ (thresholds n).throttleClear then false else (s.sensor n).throttle)
    ∧ (s.judgeFlags n x).reports = s.reports
      ++ (if ((s.judgeFlags n x).sensor n).warn = true ∧ (s.sensor n).warn = false then [⟨0x40, n, wrapTo 16 x, s.reckon, none⟩] else [])
      ++ (if ((s.judgeFlags n x).sensor n).throttle = true ∧ (s.sensor n).throttle = false then [⟨0x41, n, wrapTo 16 x, s.reckon, none⟩] else [])
    ∧ ∀ k, k ≠ n → (s.judgeFlags n x).sensor k = s.sensor k)
  ∧ ∀ (n : SensorId) (w : BitVec 16) (s : State), s.sensorOn n.val = true → (s.sensor n.val).retired = false →
    (n.val < 576 → (s.sensor n.val).invalid = 0) → ((s.sensor n.val).fast = true ∨ (s.sensor n.val).phase = 0) →
    ∃ t : State, exec (.sensorSample n w) s = .next t
      ∧ (t.sensor n.val).warn = (s.judgeFlags n.val (signedOf 16 w.toNat)).anyWarn [n.val]
      ∧ (t.sensor n.val).throttle = (s.judgeFlags n.val (signedOf 16 w.toNat)).anyThrottle [n.val]
      ∧ t.reports = (s.judgeFlags n.val (signedOf 16 w.toNat)).reports
        ++ if (thresholds n.val).shutdown ≤ signedOf 16 w.toNat ∧ (s.sensor n.val).run = 1 then
          [⟨0x42, n.val, wrapTo 16 (signedOf 16 w.toNat), s.reckon, none⟩] else []

/-! Berths and commands (spec/12, spec/13, spec/17). -/

/-- R324 to R331, R337, R338: a slot's life: a write to a free slot claims it, another identity's write to a claimed slot is discarded and counted, one to
a slot being served is discarded, and a sender that the berth does not admit changes nothing but DENIED; a ring is kept and a zero withdraws it;
the helm takes the first ring and copies the request; the reply is written and its bit raised, or discarded with a dropped claim; the
claimer's clear frees the slot; the beat of every berth that the helm serves counts. -/
def Obligations.BerthSlots : Prop :=
  (∀ (b : BerthId) (path : BerthPath) (off : Fin 4096) (bytes : List Byte) (s : State) (who k : Nat), s.pathId path = some who →
    s.admits b.val who = true → k < 7 → 0x200 * k ≤ off.val → off.val + bytes.length ≤ 0x200 * (k + 1) → bytes ≠ [] →
    ((s.berth b.val).slot k).st = .free →
    exec (.berthSlotClaim b path off bytes) s = .next (s.setBerth b.val { (s.berth b.val).setSlot k { Slot.init with st := .claimed, who := who } with
      reqArea := memWrite (s.berth b.val).reqArea off.val bytes }))
  ∧ (∀ (b : BerthId) (path : BerthPath) (off : Fin 4096) (bytes : List Byte) (s : State) (who k : Nat), s.pathId path = some who →
    s.admits b.val who = true → k < 7 → 0x200 * k ≤ off.val → off.val + bytes.length ≤ 0x200 * (k + 1) → bytes ≠ [] →
    ((s.berth b.val).slot k).st = .claimed → ((s.berth b.val).slot k).who = who →
    exec (.berthSlotClaim b path off bytes) s = .next (s.setBerth b.val { s.berth b.val with
      reqArea := memWrite (s.berth b.val).reqArea off.val bytes }))
  ∧ (∀ (b : BerthId) (path : BerthPath) (off : Fin 4096) (bytes : List Byte) (s : State) (who k : Nat), s.pathId path = some who →
    s.admits b.val who = true → k < 7 → 0x200 * k ≤ off.val → off.val + bytes.length ≤ 0x200 * (k + 1) → bytes ≠ [] →
    ((s.berth b.val).slot k).st = .claimed → ((s.berth b.val).slot k).who ≠ who →
    exec (.berthSlotClaim b path off bytes) s = .next (s.setBerth b.val { s.berth b.val with denied := (s.berth b.val).denied + 1 }))
  ∧ (∀ (b : BerthId) (path : BerthPath) (off : Fin 4096) (bytes : List Byte) (s : State) (who k : Nat), s.pathId path = some who →
    s.admits b.val who = true → k < 7 → 0x200 * k ≤ off.val → off.val + bytes.length ≤ 0x200 * (k + 1) → bytes ≠ [] →
    ((s.berth b.val).slot k).st ∈ [.serving, .served] →
    exec (.berthSlotClaim b path off bytes) s = .next (s.setBerth b.val (s.berth b.val)))
  ∧ (∀ (b : BerthId) (path : BerthPath) (off : Fin 4096) (bytes : List Byte) (s : State) (who : Nat), s.pathId path = some who →
    s.admits b.val who = false →
    exec (.berthSlotClaim b path off bytes) s = .next (s.setBerth b.val { s.berth b.val with denied := (s.berth b.val).denied + 1 }))
  ∧ (∀ (b : BerthId) (path : BerthPath) (v : BitVec 32) (s : State) (who : Nat), s.pathId path = some who → s.admits b.val who = false →
    exec (.berthRing b path v) s = .next (s.setBerth b.val { s.berth b.val with denied := (s.berth b.val).denied + 1 })
      ∧ exec (.berthReplyClear b path v) s = .next (s.setBerth b.val { s.berth b.val with denied := (s.berth b.val).denied + 1 }))
  ∧ (∀ (b : BerthId) (path : BerthPath) (off : Fin 4096) (bytes : List Byte) (v : BitVec 32) (s : State), s.pathId path = none →
    exec (.berthSlotClaim b path off bytes) s = .next s ∧ exec (.berthRing b path v) s = .next s ∧ exec (.berthReplyClear b path v) s = .next s)
  ∧ (∀ (b : BerthId) (path : BerthPath) (v : BitVec 32) (s : State) (who k : Nat), s.pathId path = some who →
    s.admits b.val who = true → k < 7 → v.toNat = 65537 * 2 ^ k → (k, who) ∉ (s.berth b.val).rings →
    exec (.berthRing b path v) s = .next (s.setBerth b.val { s.berth b.val with rings := (s.berth b.val).rings ++ [(k, who)] }))
  ∧ (∀ (b : BerthId) (path : BerthPath) (v : BitVec 32) (s : State) (who k : Nat), s.pathId path = some who →
    s.admits b.val who = true → k < 7 → v.toNat = 65536 * 2 ^ k →
    exec (.berthRing b path v) s = .next (s.setBerth b.val { s.berth b.val with
      rings := (s.berth b.val).rings.filter fun r => decide (r.1 ≠ k) }))
  ∧ (∀ (b : BerthId) (s : State) (k who : Nat) (l : List (Nat × Nat)), s.helmServesBerth b.val = true →
    (∀ x ∈ (s.berth b.val).slots, x.2.st ≠ .serving) → (s.berth b.val).rings = (k, who) :: l → ((s.berth b.val).slot k).st = .claimed →
    ((s.berth b.val).slot k).who = who →
    ∃ x : Slot, exec (.berthTake b) s = .next (s.setBerth b.val
        (Berth.setSlot { s.berth b.val with rings := l.filter fun r => decide (r.1 ≠ k) } k x))
      ∧ x.st = .serving ∧ x.who = who ∧ x.req = memRead (s.berth b.val).reqArea (0x200 * k) 512
      ∧ x.dropped = ((s.berth b.val).slot k).dropped
      ∧ x.rep = if opcodes.contains (parseCmd b.val who x.req).opcode = true then none
        else some ((parseCmd b.val who x.req).reply ⟨0x02, 0, 0, []⟩))
  ∧ (∀ (b : BerthId) (s : State) (k who : Nat) (l : List (Nat × Nat)), s.helmServesBerth b.val = true →
    (∀ x ∈ (s.berth b.val).slots, x.2.st ≠ .serving) → (s.berth b.val).rings = (k, who) :: l → ((s.berth b.val).slot k).st ≠ .claimed →
    exec (.berthTake b) s = .next (s.setBerth b.val { s.berth b.val with rings := l.filter fun r => decide (r.1 ≠ k) }))
  ∧ (∀ (b : BerthId) (s : State), (s.helmServesBerth b.val = false ∨ ∃ x ∈ (s.berth b.val).slots, x.2.st = .serving) →
    exec (.berthTake b) s = .next s)
  ∧ (∀ (b : BerthId) (k : Fin 7) (s : State) (rep bytes : List Byte), ((s.berth b.val).slot k.val).st = .serving →
    ((s.berth b.val).slot k.val).rep = some rep → ((s.berth b.val).slot k.val).dropped = false →
    bytes = padTo 256 (rep.take 12 ++ leBytes 4 ((s.berth b.val).rseq + 1) ++ rep.drop 16) →
    exec (.berthReply b k) s = .next (State.berthRaise (State.setBerth
      { s with posted := keepPosted s.reckon s.posted ⟨b.val, some k.val, s.reckon, bytes⟩ } b.val
      (Berth.setSlot { s.berth b.val with
        repArea := memWrite (s.berth b.val).repArea (0x100 * k.val) bytes, rseq := ((s.berth b.val).rseq + 1) % 2 ^ 32 } k.val
        { (s.berth b.val).slot k.val with st := .served, rep := none })) b.val k.val))
  ∧ (∀ (b : BerthId) (k : Fin 7) (s : State) (rep : List Byte), ((s.berth b.val).slot k.val).st = .serving →
    ((s.berth b.val).slot k.val).rep = some rep → ((s.berth b.val).slot k.val).dropped = true →
    exec (.berthReply b k) s = .next (s.setBerth b.val ((s.berth b.val).setSlot k.val Slot.init)))
  ∧ (∀ (b : BerthId) (path : BerthPath) (v : BitVec 32) (s : State) (who : Nat), s.pathId path = some who → s.admits b.val who = true →
    ∃ h : Berth, exec (.berthReplyClear b path v) s = .next (s.setBerth b.val h) ∧ h.bin = (s.berth b.val).bin &&& ~~~v
      ∧ (∀ k, h.slot k = if k < 7 ∧ bitAt v.toNat k = true ∧ ((s.berth b.val).slot k).st = .served ∧ ((s.berth b.val).slot k).who = who then Slot.init
        else (s.berth b.val).slot k)
      ∧ { h with bin := (s.berth b.val).bin, slots := (s.berth b.val).slots } = s.berth b.val)
  ∧ ∀ (s : State), s.ready = true → s.helmServes = true → (∀ b ∈ tkeys s.barns, b < 256) → (tkeys s.barns).Nodup →
    ∃ t : State, exec .helmBeatTick s = .next t
      ∧ (∀ b, (b ∈ tkeys s.barns ∨ b = 256 ∨ b = 257 ∨ b = 258) → t.berth b = { s.berth b with
          repArea := memWrite (s.berth b).repArea 0xF00 (leBytes 8 (leVal (memRead (s.berth b).repArea 0xF00 8) + 1)) })
      ∧ (∀ b, b ∉ tkeys s.barns → b < 256 ∨ 258 < b → t.berth b = s.berth b) ∧ { t with berths := s.berths } = s

/-- R330, R331, R339, R439, Table 13-9: the checks that every command meets before its own work, in their order: a latched class 4, the berth,
the framing; without a request that carries the row's opcode nothing happens. -/
def Obligations.CommandChecks : Prop :=
  ∀ (b k opcode need : Nat) (berths : Nat → Bool) (f : Cmd → State → Rep × State) (s : State),
    (s.request b k opcode = none → serve b k opcode berths need f s = .next s)
    ∧ ∀ c, s.request b k opcode = some c →
      (s.gleaner.fatal = true → fatalServes b opcode = false → serve b k opcode berths need f s = .next (s.answered b k c (Rep.err 0x07)))
      ∧ ((s.gleaner.fatal = true → fatalServes b opcode = true) → berths b = false →
        serve b k opcode berths need f s = .next (s.answered b k c (Rep.err 0x03)))
      ∧ ((s.gleaner.fatal = true → fatalServes b opcode = true) → berths b = true → c.malformed need = true →
        serve b k opcode berths need f s = .next (s.answered b k c (Rep.err 0x04)))
      ∧ ((s.gleaner.fatal = true → fatalServes b opcode = true) → berths b = true → c.malformed need = false →
        serve b k opcode berths need f s = .next ((f c s).2.answered b k c (f c s).1))
      ∧ (c.opcode = opcode ∧ ((s.berth b).slot k).st = .serving)

/-- R332 to R335: a long command takes the next operation number and starts, or is refused with 256 running or a status address that it may not name; its
record goes out again while it runs, until a write of it fails; at its end the notice, and its place among the 1,024 ended last. -/
def Obligations.LongOperations : Prop :=
  (∀ (s : State) (c : Cmd) (total : Nat) (work : List Nat), s.ops.length < 256 → s.statusOk c = true →
    ∃ o : Op, s.newOp c total work = .inr (s.opNext, { s with
        ops := s.ops ++ [o], opNext := if s.opNext + 1 = 2 ^ 32 then 1 else s.opNext + 1 })
      ∧ o.num = s.opNext ∧ o.opcode = c.opcode ∧ o.berth = c.berth ∧ o.who = c.who ∧ o.barn = c.barn ∧ o.akind = c.akind ∧ o.sdb = c.sdb
      ∧ o.statusAddr = c.statusAddr ∧ o.bufAddr = c.bufAddr ∧ o.bufLen = c.bufLen ∧ o.args = c.payload ∧ o.work = work ∧ o.st = 0 ∧ o.result = 0
      ∧ o.progress = 0 ∧ o.total = total ∧ o.updates = 0 ∧ o.fin = none)
  ∧ (∀ (s : State) (c : Cmd) (total : Nat) (work : List Nat), 256 ≤ s.ops.length → s.newOp c total work = .inl (Rep.err 0x08))
  ∧ (∀ (s : State) (c : Cmd) (total : Nat) (work : List Nat), s.ops.length < 256 → s.statusOk c = false →
    s.newOp c total work = .inl (Rep.err 0x09))
  ∧ (∀ (s : State) (c : Cmd) (total : Nat) (work : List Nat), s.ops.length < 256 → s.statusOk c = true → c.statusAddr = 0 → s.op s.opNext = none →
    ∃ o : Op, s.started c total work = { s with ops := s.ops ++ [o], opNext := if s.opNext + 1 = 2 ^ 32 then 1 else s.opNext + 1 }
      ∧ o.num = s.opNext ∧ o.st = 1 ∧ o.opcode = c.opcode ∧ o.args = c.payload ∧ o.work = work ∧ o.fin = none)
  ∧ (∀ (n : Nat) (s : State) (o : Op), s.op n = some o → o.statusAddr ≠ 0 → o.akind = 1 → idKind o.who = 1 → o.sdb = false →
    ∃ t o1, exec (.opStatusPeriodic n) s = .next t ∧ o1 = { o with updates := (o.updates + 1) % 2 ^ 32 } ∧ t.op n = some o1
      ∧ t.out = s.out ++ [.hostWrite 0 o.statusAddr ((o1.record s.reckon).take 20), .hostWrite 0 (o.statusAddr + 24) ((o1.record s.reckon).drop 24),
        .hostWrite 0 (o.statusAddr + 20) (leBytes 4 o1.updates)] ∧ { t with ops := s.ops, out := s.out } = s)
  ∧ (∀ (n : Nat) (s : State) (o : Op), s.op n = some o → o.statusAddr ≠ 0 → s.addrOk o.akind o.who o.barn o.statusAddr 32 = false →
    exec (.opStatusPeriodic n) s = .next (s.setOp { o with statusAddr := 0 }))
  ∧ (∀ (n : Nat) (s : State) (o : Op), s.op n = some o → o.statusAddr = 0 → exec (.opStatusPeriodic n) s = .next s)
  ∧ (∀ (n : Nat) (s : State) (o : Op) (st r : Nat), s.op n = some o → s.opOver o = some (st, r) → o.statusAddr = 0 → o.opcode ≠ 0x0403 →
    o.opcode ≠ 0x0204 →
    exec (.operationEnd n) s = .next (State.postNotice { s with
      ops := s.ops.filter (fun x => decide (x.num ≠ n)), opsEnded := lastN 1024 (s.opsEnded ++ [{ o with st := st, result := r }]) }
      o.berth 0x02 (leBytes 4 n ++ leBytes 1 st ++ leBytes 1 r)))
  ∧ (∀ (n : Nat) (s : State) (o : Op) (r b g : Nat) (gs : List Nat), s.op n = some o → o.opcode = 0x0204 → o.work = b :: g :: gs →
    s.opOver o = some (2, r) → o.statusAddr = 0 →
    exec (.operationEnd n) s = .next (State.postNotice { s.configChanged b with
      ops := s.ops.filter (fun x => decide (x.num ≠ n)), opsEnded := lastN 1024 (s.opsEnded ++ [{ o with st := 2, result := r }]) }
      o.berth 0x02 (leBytes 4 n ++ leBytes 1 2 ++ leBytes 1 r)))
  ∧ (∀ (n : Nat) (s : State) (o : Op), s.op n = some o → s.opOver o = none → exec (.operationEnd n) s = .next s)
  ∧ (∀ (s : State) (o : Op) (x : Nat × Nat), o.fin = some x → s.opOver o = some x)
  ∧ ∀ (s : State) (o : Op) (b : Nat) (gs : List Nat), o.fin = none → o.opcode = 0x0204 → o.work = b :: gs →
    s.opOver o = if ∃ g ∈ gs, (s.granule g).st = .scrubbing b then none else some (2, 0)

/-- R323, R334, R339, R342, R412 to R422, R205, R206: the commands of operations, helm, attestation and keys: each whose conditions hold is answered as its
row says and has its effect and no other; a request that the requester may not control is answered 0x06. -/
def Obligations.HelmCommands : Prop :=
  (∀ (b : BerthId) (k : Fin 7) (s : State) (c : Cmd), s.asked b.val k.val 0x0000 0 c →
    exec (.nop b k) s = .next (s.answered b.val k.val c (Rep.ok [])))
  ∧ (∀ (b : BerthId) (k : Fin 7) (s : State) (c : Cmd) (o : Op), s.asked b.val k.val 0x0001 4 c → s.opOrEnded (c.at 0 4) = some o →
    exec (.opStatus b k) s = .next (s.answered b.val k.val c (Rep.ok (o.record s.reckon))))
  ∧ (∀ (b : BerthId) (k : Fin 7) (s : State) (c : Cmd), s.asked b.val k.val 0x0001 4 c → s.opOrEnded (c.at 0 4) = none →
    exec (.opStatus b k) s = .next (s.answered b.val k.val c (Rep.refused 0x01)))
  ∧ (∀ (b : BerthId) (k : Fin 7) (s : State) (c : Cmd) (o : Op), s.asked b.val k.val 0x0002 4 c → s.op (c.at 0 4) = some o → c.mayControl o = true →
    (o.opcode = 0x0503 ∨ o.opcode = 0x0601) → o.fin = none →
    exec (.opCancel b k) s = .next ((s.cancelOp o).answered b.val k.val c (Rep.ok [])))
  ∧ (∀ (s : State) (o : Op), s.op o.num = some o → o.fin = none →
    ((s.cancelOp o).op o.num).map (·.fin) = some (some (5, 0x25)) ∧ (s.cancelOp o).bist = s.bist.filter (fun c => !o.work.contains c)
      ∧ (s.cancelOp o).calQueue = (s.calQueue.map fun r => { r with ops := r.ops.filter fun n => decide (n ≠ o.num) }).filter (fun r => !r.ops.isEmpty)
      ∧ ∀ c, (s.cancelOp o).core c = if c ∈ o.work ∧ c ∈ s.bist ∧ (s.core c).power = .bist then { s.core c with power := .zeroing } else s.core c)
  ∧ (∀ (b : BerthId) (k : Fin 7) (s : State) (c : Cmd) (o : Op), s.asked b.val k.val 0x0002 4 c → s.op (c.at 0 4) = some o → c.mayControl o = false →
    exec (.opCancel b k) s = .next (s.answered b.val k.val c (Rep.err 0x06)))
  ∧ (∀ (b : BerthId) (k : Fin 7) (s : State) (c : Cmd), s.asked b.val k.val 0x0002 4 c →
    (s.op (c.at 0 4) = none ∨ ∃ o, s.op (c.at 0 4) = some o ∧ c.mayControl o = true ∧ ((o.opcode ≠ 0x0503 ∧ o.opcode ≠ 0x0601) ∨ o.fin ≠ none)) →
    exec (.opCancel b k) s = .next (s.answered b.val k.val c (Rep.refused 0x02)))
  ∧ (∀ (b : BerthId) (k : Fin 7) (s : State) (c : Cmd) (o : Op) (r : CalReq), s.asked b.val k.val 0x0003 4 c → at256Barn b.val = true →
    s.op (c.at 0 4) = some o → c.mayControl o = true → s.calQueue.find? (fun r => r.ops.contains o.num) = some r →
    exec (.opForce b k) s = .next ((State.deferredStart { s with
      calQueue := s.calQueue.map fun x => if x = r then { x with force := true } else x } r.link).answered b.val k.val c (Rep.ok [])))
  ∧ (∀ (b : BerthId) (k : Fin 7) (s : State) (c : Cmd) (o : Op), s.asked b.val k.val 0x0003 4 c → at256Barn b.val = true →
    s.op (c.at 0 4) = some o → c.mayControl o = true → (∀ r ∈ s.calQueue, o.num ∉ r.ops) →
    exec (.opForce b k) s = .next (s.answered b.val k.val c (Rep.refused 0x03)))
  ∧ (∀ (b : BerthId) (k : Fin 7) (s : State) (c : Cmd) (n : Nat), b.val = 256 → s.asked b.val k.val 0x0004 2 c → n = c.at 0 2 → n < 272 →
    exec (.berthInfo b k) s = .next (s.answered b.val k.val c (Rep.ok (memRead (s.berth n).reqArea 0xF08 8 ++ memRead (s.berth n).repArea 0xF00 8
      ++ leBytes 8 (s.berth n).denied ++ memRead (s.berth n).repArea 0xF08 8 ++ leBytes 4 (s.berth n).slotsReg))))
  ∧ (∀ (b : BerthId) (k : Fin 7) (s : State) (c : Cmd), b.val = 256 ∨ b.val = 257 ∨ b.val = 258 → s.asked b.val k.val 0x0101 0 c →
    exec (.helmStatus b k) s = .next (s.answered b.val k.val c (Rep.ok (leBytes 1 s.helm.st.code ++ leBytes 1 (s.helm.retired.getD 0xFF)
      ++ leBytes 6 0 ++ leBytes 8 s.helm.fwA ++ leBytes 8 s.helm.fwB))))
  ∧ (∀ (b : BerthId) (k : Fin 7) (i : FwImage) (s s1 : State) (c : Cmd), b.val = 256 → s.askedLong b.val k.val 0x0102 0 c → s.helm.st = .paired →
    s.helm.update = none → s.bufOk c 7552 = true → s1 = s.started c 0 [] →
    exec (.fwUpdate b k i) s = .next (s.accepts { s1 with helm := { s1.helm with update := some ⟨s.opNext, i, false⟩ } } b.val k.val c))
  ∧ (∀ (b : BerthId) (k : Fin 7) (i : FwImage) (s : State) (c : Cmd), b.val = 256 → s.asked b.val k.val 0x0102 0 c →
    (s.helm.st ≠ .paired ∨ s.helm.update ≠ none) → exec (.fwUpdate b k i) s = .next (s.answered b.val k.val c (Rep.err 0x05)))
  ∧ (∀ (b : BerthId) (k : Fin 7) (s : State) (c : Cmd) (l : List Nat), b.val = 256 → s.asked b.val k.val 0x0103 4 c → c.at 0 2 ≤ 0x8000 →
    c.at 2 2 ≤ 0x8000 → l = [c.at 0 2, c.at 2 2].filter (fun x => decide (x < 0x8000)) →
    exec (.fmDesignate b k) s = .next (State.answered (State.releaseClaims { s with fmPeers := l } fun who =>
      decide (idKind who = 3) && !l.contains (idPkg who)) b.val k.val c (Rep.ok [])))
  ∧ (∀ (b : BerthId) (k : Fin 7) (s : State) (c : Cmd) (body : List Byte), at256Barn b.val = true → s.askedLong b.val k.val 0x0110 40 c →
    c.ownBarn (c.at 0 2) = true → (c.at 0 2 = 0xFFFF ∨ s.barnExists (c.at 0 2) = true) → s.bufOk c 5056 = true →
    body = s.reportBody ((c.payload.drop 8).take 32) (if c.at 0 2 = 0xFFFF then none else some (c.at 0 2)) →
    exec (.attest b k) s = .next (s.acceptsDone b.val k.val c fun t =>
      t.opBuffer s.opNext (padTo 5056 (body ++ padTo 4723 (Config.aliasSign body)))))
  ∧ (∀ (b : BerthId) (k : Fin 7) (s : State) (c : Cmd), at256Barn b.val = true → s.asked b.val k.val 0x0110 40 c → c.ownBarn (c.at 0 2) = false →
    exec (.attest b k) s = .next (s.answered b.val k.val c (Rep.err 0x06)))
  ∧ (∀ (b : BerthId) (k : Fin 7) (s : State) (c : Cmd) (i : FwImage), at256Barn b.val = true → s.askedLong b.val k.val 0x0111 0 c →
    s.bufOk c 15104 = true → s.helm.image = some i →
    exec (.certChain b k) s = .next (s.acceptsDone b.val k.val c fun t =>
      t.opBuffer s.opNext (padTo 7552 Config.deviceCert ++ padTo 7552 (Config.aliasCert i.digest))))
  ∧ (∀ (b : BerthId) (k : Fin 7) (s : State) (c : Cmd), b.val < 256 → s.askedLong b.val k.val 0x0112 48 c →
    exec (.measureExtend b k) s = .next (s.acceptsDone b.val k.val c fun t =>
      t.onBarn c.berth fun x => { x with measure := Config.sha384 (digestBytes x.measure ++ c.payload.take 48) }))
  ∧ (∀ (b : BerthId) (k : Fin 7) (s : State) (c : Cmd), b.val < 256 → s.askedLong b.val k.val 0x0113 0 c → c.akind = 2 →
    s.bufOk c 4096 = true →
    exec (.barnPeers b k) s = .next (s.acceptsDone b.val k.val c fun t =>
      (t.onBarn c.berth fun x => { x with peersOpen := false, peers := bitsSet 32768 (leVal (s.localRead c.bufAddr 4096)) }).configChanged c.berth))
  ∧ (∀ (b : BerthId) (k : Fin 7) (s : State) (c : Cmd) (x : Barn), b.val < 256 → s.askedLong b.val k.val 0x0114 0 c → c.akind = 2 →
    s.bufOk c 1568 = true → s.addrOk 2 c.who c.barn (2048 + c.bufAddr) 32 = true → s.barn c.berth = some x →
    exec (.keyImport b k) s = .next (s.acceptsDone b.val k.val c fun t =>
      t.localWrite (2048 + c.bufAddr) (padTo 32 (Config.decapsulate c.berth x.keyEpoch (s.localRead c.bufAddr 1568)))))
  ∧ (∀ (b : BerthId) (k : Fin 7) (s : State) (c : Cmd) (i : FwImage), b.val = 256 → s.askedLong b.val k.val 0x0115 0 c → s.helm.image = some i →
    s.helm.st = .paired → s.helm.fwA = i.version → s.helm.fwB = i.version →
    exec (.svnAdvance b k) s = .next (s.acceptsDone b.val k.val c fun t =>
      { t with nv := { t.nv with rollback := max t.nv.rollback (min 64 i.svn) } }))
  ∧ (∀ (b : BerthId) (k : Fin 7) (s : State) (c : Cmd) (i : FwImage), b.val = 256 → s.asked b.val k.val 0x0115 0 c → s.helm.image = some i →
    (s.helm.st ≠ .paired ∨ s.helm.fwA ≠ i.version ∨ s.helm.fwB ≠ i.version) →
    exec (.svnAdvance b k) s = .next (s.answered b.val k.val c (Rep.err 0x07)))
  ∧ (∀ (b : BerthId) (k : Fin 7) (s : State) (c : Cmd), b.val = 256 → s.askedLong b.val k.val 0x0116 4 c → c.at 0 4 ≤ 64 → s.peerMinSvn ≤ c.at 0 4 →
    exec (.peerMinSvn b k) s = .next (s.acceptsDone b.val k.val c fun t => { t with peerMinSvn := c.at 0 4 }))
  ∧ ∀ (b : BerthId) (k : Fin 7) (s : State) (c : Cmd), b.val = 256 → s.asked b.val k.val 0x0116 4 c → (64 < c.at 0 4 ∨ c.at 0 4 < s.peerMinSvn) →
    exec (.peerMinSvn b k) s = .next (s.answered b.val k.val c (Rep.refused 0x0A))

/-- R259, R261, R262, R378, R424 to R433: the barn commands: each whose conditions hold is accepted as an operation with the stated effect on clusters,
granules, queues, tags and the barn's record; a name that no barn can have, or has, a barn with a command running, and the last cluster are refused. -/
def Obligations.BarnCommands : Prop :=
  (∀ (b : BerthId) (k : Fin 7) (s : State) (c : Cmd) (n : Nat) (ks : List Nat), b.val = 256 → s.askedLong b.val k.val 0x0201 48 c → n = c.at 0 2 →
    ks = c.clusters 16 → c.at 12 4 = 0 → c.at 3 1 ≤ 1 → 1 ≤ n → n ≤ 255 → s.barnBusy n [] = false → s.unitsHeld clusterOps ks = false →
    s.barnExists n = false → 1 ≤ c.at 2 1 → c.at 4 4 ≤ 2 ^ 31 → c.at 8 4 ≤ 2 ^ 31 → s.clusterDetail 0 ks (bitAt (c.at 3 1) 0) = none →
    s.rngStopped = false →
    exec (.barnCreate b k) s = .next (s.accepts (State.configChanged (State.createBarn (State.moveClusters (s.started c 0 (n :: ks)) ks n)
      n (c.at 2 1) (c.at 4 4) (c.at 8 4)) 0) b.val k.val c))
  ∧ (∀ (s : State) (n w q1 q3 : Nat), (s.createBarn n w q1 q3).barn n =
      some ⟨w, if q1 = 0 then 65536 else q1, if q3 = 0 then 65536 else q3, true, [], 0, 1, s.freeCtr⟩
    ∧ (∀ d, d ≠ n → (s.createBarn n w q1 q3).barn d = s.barn d) ∧ (s.createBarn n w q1 q3).berth n = Berth.init
    ∧ (s.createBarn n w q1 q3).cores = s.cores ∧ (s.createBarn n w q1 q3).clusterOwner = s.clusterOwner)
  ∧ (∀ (s : State) (ks : List Nat) (n : Nat), (∀ g ∈ ks, tget 0 (s.moveClusters ks n).clusterOwner g = n)
    ∧ (∀ g, g ∉ ks → tget 0 (s.moveClusters ks n).clusterOwner g = tget 0 s.clusterOwner g)
    ∧ ∀ x ∈ (s.moveClusters ks n).gangs, ∀ c ∈ x.2.members, coreCluster c ∉ ks)
  ∧ (∀ (b : BerthId) (k : Fin 7) (s : State) (c : Cmd), b.val = 256 → s.asked b.val k.val 0x0201 48 c → c.at 12 4 = 0 → c.at 3 1 ≤ 1 →
    (c.at 0 2 = 0 ∨ 255 < c.at 0 2) → exec (.barnCreate b k) s = .next (s.answered b.val k.val c (Rep.refused 0x01)))
  ∧ (∀ (b : BerthId) (k : Fin 7) (s : State) (c : Cmd) (n : Nat), b.val = 256 → s.askedLong b.val k.val 0x0202 2 c → n = c.at 0 2 →
    1 ≤ n → n ≤ 255 → s.barnBusy n [0x0204] = false → s.barnExists n = true →
    exec (.barnDestroy b k) s = .next (s.accepts (State.configChanged (State.destroyBarn
      (s.started c 0 (n :: (List.range 256).filter fun g => s.ownsCluster n g)) n) 0) b.val k.val c))
  ∧ (∀ (s : State) (n : Nat), (s.destroyBarn n).barn n = none ∧ (∀ g, (s.destroyBarn n).clusterBarn g ≠ some n)
    ∧ (∀ g, (s.destroyBarn n).granuleBarn g ≠ some n) ∧ (s.destroyBarn n).berth n = Berth.init ∧ ∀ g ∈ (s.destroyBarn n).gangs, g.2.barn ≠ n)
  ∧ (∀ (b : BerthId) (k : Fin 7) (s : State) (c : Cmd) (n act : Nat) (ks : List Nat), b.val = 256 → s.askedLong b.val k.val 0x0203 48 c → n = c.at 0 2 →
    act = c.at 2 1 → ks = c.clusters 16 → c.at 3 1 ≤ 1 → 1 ≤ n → n ≤ 255 → s.barnBusy n [] = false → s.unitsHeld clusterOps ks = false →
    s.barnExists n = true → (act = 1 ∨ act = 2) → s.clusterDetail (if act = 1 then 0 else n) ks (bitAt (c.at 3 1) 0) = none →
    exec (.barnClusters b k) s = .next (s.accepts (State.configChanged (State.configChanged
      (State.moveClusters (s.started c 0 (n :: ks)) ks (if act = 1 then n else 0)) n) 0) b.val k.val c))
  ∧ (∀ (b : BerthId) (k : Fin 7) (s s1 : State) (c : Cmd) (n : Nat) (gs : List Nat), b.val = 256 → s.askedLong b.val k.val 0x0204 132 c → n = c.at 0 2 →
    gs = c.granules 4 → n ≤ 255 → s.barnBusy n [] = false → s.unitsHeld granuleOps gs = false → s.barnExists n = true → s.stageDone 7 = true →
    (∀ g ∈ gs, (s.granule g).st = .free ∧ (s.granule g).retired = false ∧ s.granuleFitted g = true) → s.rngStopped = false →
    s1 = s.started c 0 (n :: gs) →
    ∃ t : State, exec (.granuleAssign b k) s = .next (s.accepts t b.val k.val c)
      ∧ (∀ g ∈ gs, t.granule g = { s1.granule g with st := .scrubbing n, epoch := (s1.granule g).epoch + 1 })
      ∧ (∀ g, g ∉ gs → t.granule g = s1.granule g) ∧ { t with granules := s1.granules } = s1)
  ∧ (∀ (b : BerthId) (k : Fin 7) (s : State) (c : Cmd) (n : Nat), b.val = 256 → s.asked b.val k.val 0x0204 132 c → n = c.at 0 2 → n ≤ 255 →
    s.barnBusy n [] = false → s.unitsHeld granuleOps (c.granules 4) = false → s.barnExists n = true →
    (∃ g ∈ c.granules 4, (s.granule g).st ≠ .free) → exec (.granuleAssign b k) s = .next (s.answered b.val k.val c (Rep.refused 0x06)))
  ∧ (∀ (b : BerthId) (k : Fin 7) (s s1 : State) (c : Cmd) (n : Nat) (gs : List Nat), b.val = 256 → s.askedLong b.val k.val 0x0205 132 c → n = c.at 0 2 →
    gs = c.granules 4 → gs ≠ [] → n ≤ 255 → s.barnBusy n [] = false → s.unitsHeld granuleOps gs = false → s.barnExists n = true →
    (∀ g ∈ gs, s.granuleBarn g = some n) → s1 = s.started c 0 (n :: gs) →
    ∃ t : State, exec (.granuleRelease b k) s = .next (s.accepts ((t.configChanged n).opFin s.opNext 2 0) b.val k.val c)
      ∧ (∀ g ∈ gs, t.granule g = { s1.granule g with st := .free, epoch := (s1.granule g).epoch + 1 })
      ∧ (∀ g, g ∉ gs → t.granule g = s1.granule g) ∧ { t with granules := s1.granules } = s1)
  ∧ (∀ (b : BerthId) (k : Fin 7) (s s1 : State) (c : Cmd) (n first m : Nat) (qs : List Nat), b.val = 256 → s.askedLong b.val k.val 0x0206 9 c →
    n = c.at 0 2 → first = c.at 2 2 → m = c.at 4 4 → n ≤ 255 → n ≠ 0 → s.barnBusy n [] = false → s.barnExists n = true →
    1 ≤ m → first + m ≤ 65536 → (c.at 8 1 = 1 ∨ (c.at 8 1 = 0 ∧ ∀ x ∈ s.queues, first ≤ x.1 → x.1 < first + m → x.2.en = false)) →
    (∀ x ∈ s.queueOwner, first ≤ x.1 → x.1 < first + m → x.2 = 0) →
    qs = (((List.range m).map fun i => first + i).filter fun q => decide (tget 0 s.queueOwner q ≠ n)) → qs ≠ [] → s1 = s.started c 0 [n] →
    exec (.queueAssign b k) s = .next (s.accepts (State.opFin (State.configChanged (State.configChanged (s1.giveQueues qs n) 0) n)
      s.opNext 2 0) b.val k.val c))
  ∧ (∀ (b : BerthId) (k : Fin 7) (s s1 : State) (c : Cmd) (first m : Nat) (qs owners : List Nat), b.val = 256 → s.askedLong b.val k.val 0x0206 9 c →
    c.at 0 2 = 0 → first = c.at 2 2 → m = c.at 4 4 → s.barnBusy 0 [] = false → s.barnExists 0 = true → 1 ≤ m → first + m ≤ 65536 → c.at 8 1 = 1 →
    qs = (((List.range m).map fun i => first + i).filter fun q => decide (tget 0 s.queueOwner q ≠ 0)) → qs ≠ [] → s1 = s.started c 0 [0] →
    owners = ((s.queueOwner.filter fun x => decide (first ≤ x.1) && decide (x.1 < first + m) && decide (x.2 ≠ 0)).map (·.2)).eraseDups →
    exec (.queueAssign b k) s = .next (s.accepts (State.opFin (State.configChanged
      (owners.foldl (fun (s : State) o => s.configChanged o) (s1.giveQueues qs 0)) 0) s.opNext 2 0) b.val k.val c))
  ∧ (∀ (s : State) (qs : List Nat) (n : Nat), (∀ q ∈ qs, tget 0 (s.giveQueues qs n).queueOwner q = n
      ∧ tget MQueue.init (s.giveQueues qs n).queues q = MQueue.init)
    ∧ (∀ q, q ∉ qs → tget 0 (s.giveQueues qs n).queueOwner q = tget 0 s.queueOwner q
      ∧ tget MQueue.init (s.giveQueues qs n).queues q = tget MQueue.init s.queues q)
    ∧ { s.giveQueues qs n with queueOwner := s.queueOwner, queues := s.queues } = s)
  ∧ (∀ (b : BerthId) (k : Fin 7) (s s1 : State) (c : Cmd) (n : Nat) (x y : Barn), b.val = 256 → s.askedLong b.val k.val 0x0207 12 c → n = c.at 0 2 →
    n ≤ 255 → s.barnBusy n [] = false → s.barn n = some x → c.at 4 4 ≤ 2 ^ 31 → c.at 8 4 ≤ 2 ^ 31 → s1 = s.started c 0 [n] →
    y = { x with
      weight := if c.at 2 1 = 0 then x.weight else c.at 2 1
      quota1 := if c.at 4 4 = 0 then x.quota1 else c.at 4 4
      quota3 := if c.at 8 4 = 0 then x.quota3 else c.at 8 4 } → y ≠ x →
    ∃ t : State, exec (.barnLimits b k) s = .next (s.accepts (t.opFin s.opNext 2 0) b.val k.val c)
      ∧ t.barn n = some { y with configSeq := (x.configSeq + 1) % 2 ^ 32 } ∧ (∀ d, d ≠ n → t.barn d = s.barn d) ∧ { t with barns := s1.barns } = s1)
  ∧ (∀ (b : BerthId) (k : Fin 7) (s : State) (c : Cmd) (n : Nat), b.val = 256 → s.askedLong b.val k.val 0x0208 2 c → n = c.at 0 2 → n ≤ 255 →
    s.barnBusy n [] = false → s.barnExists n = true →
    exec (.barnReset b k) s = .next (s.accepts (State.resetBarn
      (s.started c 0 (n :: (List.range 256).filter fun g => s.ownsCluster n g)) n) b.val k.val c))
  ∧ (∀ (s : State) (n : Nat), (∀ g ∈ (s.resetBarn n).gangs, g.2.barn ≠ n) ∧ (s.resetBarn n).clusterOwner = s.clusterOwner)
  ∧ (∀ (b : BerthId) (k : Fin 7) (s : State) (c : Cmd) (x : Barn), b.val = 256 → s.askedLong b.val k.val 0x0209 2 c → s.barnBusy (c.at 0 2) [] = false →
    s.barn (c.at 0 2) = some x → s.bufOk c (leBytes 4 x.configSeq ++ s.configRecord (c.at 0 2)).length = true →
    exec (.barnInfo b k) s = .next (s.acceptsDone b.val k.val c fun t =>
      t.opBuffer s.opNext (leBytes 4 x.configSeq ++ s.configRecord (c.at 0 2))))
  ∧ (∀ (b : BerthId) (k : Fin 7) (s : State) (c : Cmd) (bs : List Byte), b.val = 256 → s.askedLong b.val k.val 0x020A 1 c → c.at 0 1 ≤ 16 →
    bs = (if c.at 0 1 = 0 then (List.range 64).flatMap (fun i => s.tagBlock 0 i) else s.tagBlock (c.at 0 1) 0) → s.bufOk c bs.length = true →
    exec (.tagRead b k) s = .next (s.acceptsDone b.val k.val c fun t => t.opBuffer s.opNext bs))
  ∧ ∀ (b : BerthId) (k : Fin 7) (s : State) (c : Cmd) (key n : Nat), b.val = 256 → s.askedLong b.val k.val 0x020B 68 c → c.at 0 1 ≤ 16 →
    c.at 1 1 < 64 → (c.at 0 1 ≠ 0 → c.at 1 1 = 0) → key = tagWriteKey (c.at 0 1) (c.at 1 1) → n = tget 0 s.nv.tagWrites key → n < 10000 →
    exec (.tagWrite b k) s = .next (s.acceptsDone b.val k.val c fun t => { t with nv := { t.nv with
      tags := memWrite t.nv.tags (tagKey (c.at 0 1) (c.at 1 1)) ((c.payload.drop 4).take 64), tagWrites := tset 0 t.nv.tagWrites key (n + 1) } })

/-- R114, R118, R136, R177, R340, R341, Table 5-9: the commands on threads, phases and path sets: each whose conditions hold is answered and has its
effect and no other; a release of a cluster that the barn does not own is answered 0x06, a rejected phase image fails its operation, an entry
that a check refuses stays invalid and unlocked, and one that passes becomes valid. -/
def Obligations.ProgramCommands : Prop :=
  (∀ (b : BerthId) (k : Fin 7) (s : State) (c : Cmd), b.val < 256 → s.asked b.val k.val 0x0301 36 c →
    (∀ g ∈ c.clusters 4, s.ownsCluster c.berth g = true) →
    exec (.release b k) s = .next (State.answered
      (((c.clusters 4).flatMap clusterCores).foldl (fun (s : State) n => s.releaseCore (c.at 0 2) n) s) b.val k.val c (Rep.ok [])))
  ∧ (∀ (s : State) (pc c : Nat), s.coreUsable c = true → (s.core c).power = .running → (s.th c 0).st = .stopped →
    ((s.releaseCore pc c).th c 0).st = .running ∧ ((s.releaseCore pc c).th c 0).pc = pc ∧ (∀ n, ((s.releaseCore pc c).th c 0).gr n = if n = 1 then 64 else 0)
      ∧ onlyThread c 0 s (s.releaseCore pc c))
  ∧ (∀ (s : State) (pc c : Nat), s.coreUsable c = true → (s.core c).power ≠ .running →
    s.releaseCore pc c = { s with releaseWait := (s.releaseWait.filter fun x => decide (x.1 ≠ c)) ++ [(c, pc)] })
  ∧ (∀ (b : BerthId) (k : Fin 7) (s : State) (c : Cmd) (g : Nat), b.val < 256 → s.asked b.val k.val 0x0301 36 c →
    g ∈ c.clusters 4 → s.ownsCluster c.berth g = false →
    exec (.release b k) s = .next (s.answered b.val k.val c (Rep.err 0x06)))
  ∧ (∀ (b : BerthId) (k : Fin 7) (s : State) (c : Cmd) (n : Nat), b.val < 256 → s.asked b.val k.val 0x0302 8 c → n = c.at 0 4 % 16384 → c.at 4 1 = 1 →
    c.at 0 4 = coordOf s.selfNum n → s.coreUsable n = true → s.coreBarn n = some c.berth → (s.th n 0).st = .faulted →
    exec (.thread0 b k) s = .next ((s.setTh n 0 { s.th n 0 with st := .running, pc := c.at 6 2 }).answered b.val k.val c (Rep.ok [])))
  ∧ (∀ (b : BerthId) (k : Fin 7) (s : State) (c : Cmd) (n : Nat), b.val < 256 → s.asked b.val k.val 0x0302 8 c → n = c.at 0 4 % 16384 → c.at 4 1 = 2 →
    c.at 0 4 = coordOf s.selfNum n → s.coreUsable n = true → s.coreBarn n = some c.berth → (s.th n 0).st ≠ .stopped →
    exec (.thread0 b k) s = .next ((s.stopThread n 0).answered b.val k.val c (Rep.ok [])))
  ∧ (∀ (b : BerthId) (k : Fin 7) (s : State) (c : Cmd) (n : Nat), b.val < 256 → s.asked b.val k.val 0x0302 8 c → n = c.at 0 4 % 16384 →
    (c.at 4 1 = 1 ∨ c.at 4 1 = 2) → (c.at 0 4 ≠ coordOf s.selfNum n ∨ s.coreUsable n = false ∨ s.coreBarn n ≠ some c.berth) →
    exec (.thread0 b k) s = .next (s.answered b.val k.val c (Rep.err 0x06)))
  ∧ (∀ (b : BerthId) (k : Fin 7) (s : State) (c : Cmd), b.val < 256 → s.askedLong b.val k.val 0x0303 12 c →
    c.at 0 8 < 2 ^ 40 → s.ownsLocal c.berth (c.at 0 8) (max 1 (min (c.at 8 4) (2 ^ 30))) = true → c.bufLen = 0 →
    s.parseImage (c.at 0 8) (c.at 8 4) = none →
    exec (.phaseLoad b k) s = .next (s.accepts ((s.started c 0 []).opFin s.opNext 3 0x02) b.val k.val c))
  ∧ (∀ (b : BerthId) (k : Fin 7) (s s1 s2 : State) (c : Cmd) (secs : List Section) (recs : List Nat) (n : Nat), b.val < 256 →
    s.asked b.val k.val 0x0303 12 c → c.at 0 8 < 2 ^ 40 → s.ownsLocal c.berth (c.at 0 8) (max 1 (min (c.at 8 4) (2 ^ 30))) = true → c.bufLen = 0 →
    s.parseImage (c.at 0 8) (c.at 8 4) = some secs → (∀ q ∈ secs, s.coreBarn q.core = some c.berth) → (recs, s1) = s.phaseWrite (c.at 0 8) secs →
    s.newOp c recs.length recs = .inr (n, s2) →
    exec (.phaseLoad b k) s = .next (State.answered (State.opState { s1 with ops := s2.ops, opNext := s2.opNext } n 1 0) b.val k.val c (Rep.accepted n)))
  ∧ (∀ (s : State) (l : Nat) (q : Section), q.store = 1 → (s.core q.core).rangeBusy q = false →
    (s.phaseWrite l [q]).1 = []
      ∧ (∀ i, i < q.count → tget 0 ((s.phaseWrite l [q]).2.core q.core).steps (q.first + i) = leVal (s.localRead (l + q.off + 16 * i) 16))
      ∧ ((s.phaseWrite l [q]).2.core q.core).phaseTab = (s.core q.core).phaseTab
      ∧ ((s.phaseWrite l [q]).2.core q.core).rangeLocks = (s.core q.core).rangeLocks ++ [(s.opNext, 1, q.first, q.count)]
      ∧ ∀ n, n ≠ q.core → (s.phaseWrite l [q]).2.core n = s.core n)
  ∧ (∀ (op : Nat) (s : State) (o : Op), s.op op = some o → o.opcode = 0x0303 → o.fin = none → o.work = [] → o.statusAddr = 0 → o.bufLen = 0 →
    ∃ t : State, exec (.phaseValidationComplete op) s = .next t ∧ (t.op op).map (·.fin) = some (some (2, 0))
      ∧ ∀ n, (t.core n).valid = (s.core n).valid)
  ∧ (∀ (op : Nat) (s : State) (o : Op) (x : Nat), s.op op = some o → o.opcode = 0x0303 → o.fin = none → o.work = [x] → o.statusAddr = 0 →
    (s.recResult x).1 ≠ 0 →
    ∃ t : State, exec (.phaseValidationComplete op) s = .next t ∧ (t.op op).map (·.fin) = some (some (2, 1))
      ∧ (t.core (recCore x)).valid = (s.core (recCore x)).valid ∧ (recCode x = 0 → recEntry x ∉ (t.core (recCore x)).locked))
  ∧ (∀ (op : Nat) (s : State) (o : Op) (x : Nat), s.op op = some o → o.opcode = 0x0303 → o.fin = none → o.work = [x] → o.statusAddr = 0 →
    (s.recResult x).1 = 0 → s.helmCheck o.barn [x] x = 0 →
    ∃ t : State, exec (.phaseValidationComplete op) s = .next t ∧ (t.op op).map (·.fin) = some (some (2, 0))
      ∧ recEntry x ∈ (t.core (recCore x)).valid ∧ recEntry x ∉ (t.core (recCore x)).locked)
  ∧ (∀ (b : BerthId) (k : Fin 7) (s : State) (c : Cmd) (raw : List Nat), b.val < 256 → s.asked b.val k.val 0x0304 16 c → 1 ≤ c.at 2 2 →
    c.at 2 2 ≤ 192 → s.ownsLocal c.berth (c.at 8 8) (4 * c.at 2 2) = true → raw = wordsOf (s.localRead (c.at 8 8) (4 * c.at 2 2)) →
    s.pathRefusal c.berth (c.at 0 1) raw = none →
    exec (.pathsetLoad b k) s = .next (State.answered { s with
      pathSets := tset none s.pathSets (c.at 0 1) (some ⟨c.berth, raw.map parsePath⟩) } b.val k.val c (Rep.ok [])))
  ∧ (∀ (b : BerthId) (k : Fin 7) (s : State) (c : Cmd) (d : Nat), b.val < 256 → s.asked b.val k.val 0x0304 16 c → 1 ≤ c.at 2 2 →
    c.at 2 2 ≤ 192 → s.ownsLocal c.berth (c.at 8 8) (4 * c.at 2 2) = true →
    s.pathRefusal c.berth (c.at 0 1) (wordsOf (s.localRead (c.at 8 8) (4 * c.at 2 2))) = some d →
    exec (.pathsetLoad b k) s = .next (s.answered b.val k.val c (Rep.reason 0x0304 d)))
  ∧ (∀ (b : BerthId) (k : Fin 7) (s : State) (c : Cmd) (p : PathSet), b.val < 256 → s.asked b.val k.val 0x0305 1 c →
    tget none s.pathSets (c.at 0 1) = some p → p.barn = c.berth → (s.steer c.berth).holds (c.at 0 1) = false →
    exec (.pathsetDrop b k) s = .next (State.answered { s with pathSets := tset none s.pathSets (c.at 0 1) none } b.val k.val c (Rep.ok [])))
  ∧ ∀ (b : BerthId) (k : Fin 7) (s : State) (c : Cmd) (p : PathSet), b.val < 256 → s.asked b.val k.val 0x0305 1 c →
    tget none s.pathSets (c.at 0 1) = some p → (p.barn ≠ c.berth ∨ (s.steer c.berth).holds (c.at 0 1) = true) →
    exec (.pathsetDrop b k) s = .next (s.answered b.val k.val c (Rep.err (if p.barn ≠ c.berth then 0x06 else 0x05)))

/-- R218, R222, R225, R238, R271 to R273, R289, R292, R300, R309, R311: the commands on courses, the plan, ports, sighting, harvests, pairs, the twin and
the slices: each whose conditions hold is answered and has its effect and no other; a course entry, a plan, pairs and slices that their rules refuse
are answered with the failing check (its code is log 10's), and a port in WIDTH, MAINT or LOST is busy. -/
def Obligations.FabricCommands : Prop :=
  (∀ (b : BerthId) (k : Fin 7) (s : State) (c : Cmd) (rs : List (List Byte)), b.val = 257 → s.asked b.val k.val 0x0401 40 c → c.length % 40 = 0 →
    rs = ((List.range (c.length / 40)).map fun i => (c.payload.drop (40 * i)).take 40) → (∀ r ∈ rs, leVal (r.take 2) < 32768) →
    exec (.courseLoad b k) s = .next (State.answered (courseRecords s rs).2 b.val k.val c
      (if (courseRecords s rs).1 = true then Rep.ok [] else Rep.reason 0x0401 1)))
  ∧ (∀ (s : State) (r : List Byte), (∀ i, i < 4 → s.courseBad (leVal ((r.drop (8 + 8 * i)).take 8)) = false) →
    (s.courseRecord r).1 = true
      ∧ (∀ i, i < 4 → tget 0 (s.courseRecord r).2.courses (4 * leVal (r.take 2) + i) = putBits (leVal ((r.drop (8 + 8 * i)).take 8)) 46 1 0)
      ∧ (∀ n, n / 4 ≠ leVal (r.take 2) → tget 0 (s.courseRecord r).2.courses n = tget 0 s.courses n)
      ∧ { (s.courseRecord r).2 with courses := s.courses } = s)
  ∧ (∀ (s : State) (r : List Byte) (i : Nat), i < 4 → s.courseBad (leVal ((r.drop (8 + 8 * i)).take 8)) = true → s.courseRecord r = (false, s))
  ∧ (∀ (s : State) (r : List Byte) (l : List (List Byte)), courseRecords s (r :: l) =
    ((s.courseRecord r).1 && (courseRecords (s.courseRecord r).2 l).1, (courseRecords (s.courseRecord r).2 l).2))
  ∧ (∀ (b : BerthId) (k : Fin 7) (host : List Byte) (s : State) (c : Cmd), b.val = 256 ∨ b.val = 257 → s.asked b.val k.val 0x0402 0 c →
    s.bufOk c 640 = true → (Plan.mk (s.bufIn c 640 host)).refusal s.variant = none → s.planLate (Plan.mk (s.bufIn c 640 host)) = none →
    exec (.planUpload b k host) s = .next ((s.applyPlan (Plan.mk (s.bufIn c 640 host))).answered b.val k.val c (Rep.ok [])))
  ∧ (∀ (s : State) (p : Plan), p.bytes.length = 640 → memRead (s.applyPlan p).plan 0 640 = p.bytes
    ∧ (s.applyPlan p).selfNum = leVal ((p.bytes.drop 6).take 2) % 32768 ∧ (s.applyPlan p).selfValid = true
    ∧ ∀ q, q ∉ s.planDiff p → (s.applyPlan p).port q = s.port q)
  ∧ (∀ (b : BerthId) (k : Fin 7) (host : List Byte) (s : State) (c : Cmd) (d : Nat), b.val = 256 ∨ b.val = 257 → s.asked b.val k.val 0x0402 0 c →
    s.bufOk c 640 = true → (Plan.mk (s.bufIn c 640 host)).refusal s.variant = some d →
    exec (.planUpload b k host) s = .next (s.answered b.val k.val c (Rep.reason 0x0402 d)))
  ∧ (∀ (b : BerthId) (k : Fin 7) (host : List Byte) (s : State) (c : Cmd) (r : Rep), b.val = 256 ∨ b.val = 257 → s.asked b.val k.val 0x0402 0 c →
    s.bufOk c 640 = true → (Plan.mk (s.bufIn c 640 host)).refusal s.variant = none → s.planLate (Plan.mk (s.bufIn c 640 host)) = some r →
    exec (.planUpload b k host) s = .next (s.answered b.val k.val c r))
  ∧ (∀ (b : BerthId) (k : Fin 7) (s s1 : State) (c : Cmd), b.val = 256 ∨ b.val = 257 → s.askedLong b.val k.val 0x0403 1 c →
    portFitted s.variant (c.at 0 1) = true → (s.port (c.at 0 1)).st = .up → s1 = s.started c 0 [c.at 0 1] →
    exec (.portRelease b k) s = .next (s.accepts (s1.setPort (c.at 0 1) { s1.port (c.at 0 1) with drain := true }) b.val k.val c))
  ∧ (∀ (b : BerthId) (k : Fin 7) (s : State) (c : Cmd), b.val = 256 ∨ b.val = 257 → s.askedLong b.val k.val 0x0403 1 c →
    portFitted s.variant (c.at 0 1) = true → (s.port (c.at 0 1)).st ∈ [.dark, .probe] →
    exec (.portRelease b k) s = .next (s.acceptsDone b.val k.val c id))
  ∧ (∀ (b : BerthId) (k : Fin 7) (s : State) (c : Cmd), b.val = 256 ∨ b.val = 257 → s.askedLong b.val k.val 0x0403 1 c →
    portFitted s.variant (c.at 0 1) = true → (s.port (c.at 0 1)).st ∈ [.lock, .deskew, .eye, .ident, .keying, .disagree] →
    exec (.portRelease b k) s = .next (s.acceptsDone b.val k.val c fun t =>
      t.setPort (c.at 0 1) { t.port (c.at 0 1) with st := .disagree, keyed := false }))
  ∧ (∀ (b : BerthId) (k : Fin 7) (s : State) (c : Cmd), b.val = 256 ∨ b.val = 257 → s.asked b.val k.val 0x0403 1 c →
    portFitted s.variant (c.at 0 1) = true → (s.port (c.at 0 1)).st ∈ [.width, .maint, .lost] →
    exec (.portRelease b k) s = .next (s.answered b.val k.val c (Rep.err 0x05)))
  ∧ (∀ (b : BerthId) (k : Fin 7) (s : State) (c : Cmd), b.val = 256 ∨ b.val = 257 → s.askedLong b.val k.val 0x0404 0 c → s.bufOk c 1184 = true →
    exec (.sighting b k) s = .next (s.acceptsDone b.val k.val c fun t => t.opBuffer s.opNext t.sightReport))
  ∧ (∀ (b : BerthId) (k : Fin 7) (s : State) (c : Cmd), b.val = 257 → s.askedLong b.val k.val 0x0405 2 c → c.at 0 2 < 32768 → s.bufOk c 4672 = true →
    exec (.harvest b k) s = .next (s.accepts (State.egress (s.started c 4672 [c.at 0 2, 0])
      (mkPkt 0x3A 4 (helmEp (c.at 0 2)) (helmEp (s.started c 4672 [c.at 0 2, 0]).selfNum) 0 0 0 (List.replicate 16 0)).seal) b.val k.val c))
  ∧ (∀ (b : BerthId) (k : Fin 7) (s : State) (c : Cmd) (raw : List Nat), b.val = 257 → s.asked b.val k.val 0x0406 128 c →
    raw = ((List.range 16).map fun n => c.at (8 * n) 8) → (∀ x ∈ raw, bitsAt x 40 24 = 0) → s.pairRefusal raw = none →
    (∀ n, n < 16 → (pairDesc (raw.getD n 0)).valid = true → raw.getD n 0 ≠ tget 0 s.pairTable n →
      ∀ g ∈ s.pairClusters (pairDesc (raw.getD n 0)), s.clusterIdle g = true) →
    exec (.pairLoad b k) s = .next ((s.loadPairs raw).answered b.val k.val c (Rep.ok [])))
  ∧ (∀ (s : State) (raw : List Nat) (n : Nat), n < 16 → tget 0 (s.loadPairs raw).pairTable n = raw.getD n 0
    ∧ (raw.getD n 0 ≠ tget 0 s.pairTable n → (pairDesc (raw.getD n 0)).valid = true → (s.loadPairs raw).pairRec n = PairRec.init)
    ∧ (raw.getD n 0 = tget 0 s.pairTable n → (s.loadPairs raw).pairRec n = s.pairRec n))
  ∧ (∀ (b : BerthId) (k : Fin 7) (s : State) (c : Cmd) (raw : List Nat) (d : Nat), b.val = 257 → s.asked b.val k.val 0x0406 128 c →
    raw = ((List.range 16).map fun n => c.at (8 * n) 8) → (∀ x ∈ raw, bitsAt x 40 24 = 0) → s.pairRefusal raw = some d →
    exec (.pairLoad b k) s = .next (s.answered b.val k.val c (Rep.reason 0x0406 d)))
  ∧ (∀ (b : BerthId) (k : Fin 7) (s : State) (c : Cmd), at257Barn b.val = true → s.asked b.val k.val 0x0407 1 c → c.at 0 1 ≤ 15 →
    (c.berth = 257 ∨ (pairDesc (tget 0 s.pairTable (c.at 0 1))).barn = c.berth) →
    exec (.pairStatus b k) s = .next (s.answered b.val k.val c (Rep.ok (s.pairRec (c.at 0 1)).bytes)))
  ∧ (∀ (b : BerthId) (k : Fin 7) (s : State) (c : Cmd), at257Barn b.val = true → s.asked b.val k.val 0x0407 1 c → c.at 0 1 ≤ 15 →
    c.berth ≠ 257 → (pairDesc (tget 0 s.pairTable (c.at 0 1))).barn ≠ c.berth →
    exec (.pairStatus b k) s = .next (s.answered b.val k.val c (Rep.err 0x06)))
  ∧ (∀ (b : BerthId) (k : Fin 7) (s : State) (c : Cmd), b.val = 257 → s.asked b.val k.val 0x0408 1 c → c.at 0 1 ≠ s.selfSlot →
    c.at 0 1 < s.planSlots →
    exec (.twinSet b k) s = .next (State.answered { s with twin := some (c.at 0 1) } b.val k.val c (Rep.ok [])))
  ∧ (∀ (b : BerthId) (k : Fin 7) (s : State) (c : Cmd), b.val = 257 → s.asked b.val k.val 0x0408 1 c → (c.at 0 1 = s.selfSlot ∨
    s.planSlots ≤ c.at 0 1) → exec (.twinSet b k) s = .next (s.answered b.val k.val c (Rep.refused 0x01)))
  ∧ (∀ (b : BerthId) (k : Fin 7) (s : State) (c : Cmd), b.val = 256 → s.asked b.val k.val 0x0409 32 c →
    (∀ i, i < 12 → s.leastSlice i ≤ c.at (2 * i) 2) → ((List.range 12).map fun i => c.at (2 * i) 2).foldl (· + ·) 0 ≤ 8192 →
    c.at 24 4 ≤ 16384 → c.at 28 4 ≤ 16384 →
    exec (.fabricConfig b k) s = .next (State.answered { s with
      slices := (List.range 12).map fun i => c.at (2 * i) 2, grantMax1 := c.at 24 4, grantMax3 := c.at 28 4 } b.val k.val c (Rep.ok [])))
  ∧ ∀ (b : BerthId) (k : Fin 7) (s : State) (c : Cmd) (i : Nat), b.val = 256 → s.asked b.val k.val 0x0409 32 c → i < 12 →
    c.at (2 * i) 2 < s.leastSlice i → exec (.fabricConfig b k) s = .next (s.answered b.val k.val c (Rep.reason 0x0409 1))

/-- R187, R203 to R210, R313, R398, R406, R443, R446, R451: the commands on the light supply, calibration, the standby test, the map, the gleaner,
time and meters: each whose conditions hold is answered and has its effect and no other; what they may not do is refused. -/
def Obligations.PlantCommands : Prop :=
  (∀ (b : BerthId) (k : Fin 7) (trims : List (BitVec 32 × Byte)) (s : State) (c : Cmd) (m : Nat), b.val = 256 → s.askedLong b.val k.val 0x0501 1 c →
    m = c.at 0 1 → m < 12 → s.stageDone 5 = true → (s.module m).available = true →
    ((List.range 12).filter fun n => decide (n ≠ m) && !(s.module n).available).length < 2 →
    exec (.moduleRelease b k trims) s = .next (s.acceptsDone b.val k.val c fun t => t.releaseModule m trims))
  ∧ (∀ (b : BerthId) (k : Fin 7) (trims : List (BitVec 32 × Byte)) (s : State) (c : Cmd) (m : Nat), b.val = 256 → s.asked b.val k.val 0x0501 1 c →
    m = c.at 0 1 → m < 12 → s.stageDone 5 = true → (s.module m).available = true →
    2 ≤ ((List.range 12).filter fun n => decide (n ≠ m) && !(s.module n).available).length →
    exec (.moduleRelease b k trims) s = .next (s.answered b.val k.val c (Rep.reason 0x0501 1)))
  ∧ (∀ (b : BerthId) (k : Fin 7) (v : BitVec 128) (trims : List (BitVec 32 × Byte)) (s : State) (c : Cmd) (m : Nat), b.val = 256 →
    s.askedLong b.val k.val 0x0502 1 c → m = c.at 0 1 → m < 12 → s.stageDone 5 = true → (s.module m).retired ≠ some v.toNat →
    exec (.moduleAdmit b k (some v) true trims) s = .next (s.acceptsDone b.val k.val c fun t => t.admitModule m v.toNat trims))
  ∧ (∀ (s : State) (m v : Nat) (trims : List (BitVec 32 × Byte)),
    ((s.releaseModule m trims).module m) = { s.module m with released := true } ∧ (s.admitModule m v trims).module m = ⟨true, true, false, false, v, none⟩
    ∧ ∀ n, n ≠ m → (s.releaseModule m trims).module n = s.module n ∧ (s.admitModule m v trims).module n = s.module n)
  ∧ (∀ (b : BerthId) (k : Fin 7) (v : Option (BitVec 128)) (closed : Bool) (trims : List (BitVec 32 × Byte)) (s : State) (c : Cmd) (r : Nat), b.val = 256 →
    s.asked b.val k.val 0x0502 1 c → c.at 0 1 < 12 → s.stageDone 5 = true →
    ((v = none ∧ r = 1) ∨ (∃ w, v = some w ∧ (s.module (c.at 0 1)).retired = some w.toNat ∧ r = 2)
      ∨ (∃ w, v = some w ∧ (s.module (c.at 0 1)).retired ≠ some w.toNat ∧ closed = false ∧ r = 3)) →
    exec (.moduleAdmit b k v closed trims) s = .next (s.answered b.val k.val c (Rep.reason 0x0502 r)))
  ∧ (∀ (b : BerthId) (k : Fin 7) (s s1 : State) (c : Cmd) (n z : Nat), b.val = 256 → s.asked b.val k.val 0x0503 4 c → c.at 0 1 = 1 → c.at 1 1 ≤ 1 →
    z = c.at 2 2 → z < 64 → s.stageDone 5 = true → s.newOp c 0 [] = .inr (n, s1) →
    exec (.calRequest b k) s = .next (State.answered (State.opState { s1 with
      zones := tset Zone.init s.zones z ⟨true, (tget Zone.init s.zones z).ops ++ [n]⟩ } n 1 0) b.val k.val c (Rep.accepted n)))
  ∧ (∀ (b : BerthId) (k : Fin 7) (s s1 : State) (c : Cmd) (n l : Nat), b.val = 256 → s.asked b.val k.val 0x0503 4 c → (c.at 0 1 = 2 ∨ c.at 0 1 = 3) →
    c.at 1 1 ≤ 1 → l = c.at 2 2 → l < 584 → s.stageDone (if l < 512 then 8 else 9) = true → s.newOp c 0 [] = .inr (n, s1) →
    exec (.calRequest b k) s = .next (State.answered (s1.calAsk l (decide (c.at 0 1 = 3)) n (decide (c.at 1 1 = 1))) b.val k.val c (Rep.accepted n)))
  ∧ (∀ (b : BerthId) (k : Fin 7) (s s1 : State) (c : Cmd) (n d : Nat) (cores : List Nat), b.val = 256 → s.asked b.val k.val 0x0503 4 c → c.at 0 1 = 4 →
    c.at 1 1 ≤ 1 → d = c.at 2 2 → d < 16 → 132 ≤ c.length → s.stageDone 6 = true →
    cores = (((bitsSet 1024 (c.at 4 128)).map fun i => 1024 * d + i).filter s.coreUsable) → s.newOp c cores.length cores = .inr (n, s1) →
    exec (.calRequest b k) s = .next (State.answered
      (if cores.all s1.coreIdle = true then (s1.startBist cores).opState n 1 0 else s1.opFin n 3 0x21) b.val k.val c (Rep.accepted n)))
  ∧ (∀ (b : BerthId) (k : Fin 7) (s s1 : State) (c : Cmd), b.val = 256 → s.askedLong b.val k.val 0x0504 1 c → c.at 0 1 ≤ 1 → s.stageDone 5 = true →
    s.capture = none → (c.at 0 1 = 0 → s.bufOk c 470880 = true) → s1 = s.started c 0 [] →
    exec (.calSave b k) s = .next (s.accepts { s1 with capture := some (s.opNext, decide (c.at 0 1 = 1)) } b.val k.val c))
  ∧ (∀ (b : BerthId) (k : Fin 7) (image : List Byte) (s s1 : State) (c : Cmd) (i : CalImage), b.val = 256 → s.askedLong b.val k.val 0x0505 1 c →
    c.at 0 1 ≤ 1 → ((s.bu.stage = 4 ∧ s.bu.st = .done) ∨ (s.bu.stage = 5 ∧ s.bu.st = .running ∧ s.calWaits = true)) →
    (c.at 0 1 = 0 → s.bufOk c 240 = true) → s1 = s.started c 0 [] →
    i = (if c.at 0 1 = 0 then s.calParse (s.bufIn c c.bufLen image) else s.nv.calPick.getD ⟨0, [], [], 1⟩) →
    exec (.calRestore b k image) s = .next (s.accepts (State.opFin { s1 with calImage := some i } s.opNext (if i.reason = 0 then 2 else 3)
      (if i.reason = 0 then 0 else Config.reasonCode 0x0505 i.reason % 256)) b.val k.val c))
  ∧ (∀ (b : BerthId) (k : Fin 7) (s s1 : State) (c : Cmd) (cores : List Nat), b.val = 256 ∨ b.val = 257 → s.askedLong b.val k.val 0x0601 0 c →
    s.ready = true → s.standby = none → (∀ n ∈ tkeys s.barns, n = 0) → (∀ x ∈ s.cores, x.2.activeThreads = 0) →
    cores = (List.range 16384).filter s.coreUsable → s1 = s.started c 0 cores →
    exec (.standbyTest b k) s = .next (s.accepts (State.startBist { s1 with standby := some s.opNext } cores) b.val k.val c))
  ∧ (∀ (op : Nat) (s : State), s.standby = some op →
    exec (.standbyTestComplete op [] [] [] [] []) s = .next (State.opFin { s with
      standby := none, bist := [], hbm := [], poison := []
      cores := s.cores.map fun x => (x.1, if x.2.power = .bist then { x.2 with power := .zeroing } else x.2) } op 2 0))
  ∧ (∀ (b : BerthId) (k : Fin 7) (s : State) (c : Cmd), b.val = 256 ∨ b.val = 257 ∨ b.val < 256 → s.asked b.val k.val 0x0602 0 c →
    s.stageDone 6 = true → s.bufOk c 6208 = true →
    exec (.floorplanRead b k) s = .next (State.answered (s.putAt c.akind c.who c.barn c.bufAddr (s.floorPlan.take c.bufLen)) b.val k.val c (Rep.ok [])))
  ∧ (∀ (b : BerthId) (k : Fin 7) (s : State) (c : Cmd) (l : List (Nat × List Byte)), b.val = 256 ∨ b.val = 258 → s.asked b.val k.val 0x0610 8 c →
    c.at 0 1 ≤ 1 → c.akind = 0 → l = ((if c.at 0 1 = 0 then s.gleaner.ring else s.gleaner.latched).map fun r => (r.seq, r.bytes)) →
    ∃ sel : List (List Byte), sel = (((l.filter fun x => decide (c.at 4 4 ≤ x.1)).map (·.2)).take 6)
      ∧ exec (.gleanerRead b k) s = .next (s.answered b.val k.val c (Rep.ok
        (leBytes 4 ((l.map (·.1)).headD 0) ++ leBytes 4 ((l.map (·.1)).getLastD 0) ++ leBytes 4 sel.length ++ sel.flatten))))
  ∧ (∀ (b : BerthId) (k : Fin 7) (s : State) (c : Cmd) (l : List (Nat × List Byte)), b.val = 256 ∨ b.val = 258 → s.asked b.val k.val 0x0610 8 c →
    c.at 0 1 ≤ 1 → c.akind ≠ 0 → s.bufOk c 32 = true →
    l = ((if c.at 0 1 = 0 then s.gleaner.ring else s.gleaner.latched).map fun r => (r.seq, r.bytes)) →
    ∃ sel : List (List Byte), sel = (((l.filter fun x => decide (c.at 4 4 ≤ x.1)).map (·.2)).take (c.bufLen / 32))
      ∧ exec (.gleanerRead b k) s = .next (State.answered (s.putAt c.akind c.who c.barn c.bufAddr (sel.flatten.take c.bufLen)) b.val k.val c
        (Rep.ok (leBytes 4 ((l.map (·.1)).headD 0) ++ leBytes 4 ((l.map (·.1)).getLastD 0) ++ leBytes 4 sel.length))))
  ∧ (∀ (b : BerthId) (k : Fin 7) (s : State) (c : Cmd), b.val = 256 ∨ b.val = 258 → s.asked b.val k.val 0x0611 1 c →
    exec (.gleanerAck b k) s = .next ((s.ackClasses (c.at 0 1 % 16)).answered b.val k.val c (Rep.ok [])))
  ∧ (∀ (b : BerthId) (k : Fin 7) (s : State) (c : Cmd), b.val = 256 → s.asked b.val k.val 0x0612 8 c → (kindRow (c.at 0 2)).isSome = true →
    c.at 4 4 ≠ 0 →
    exec (.countConfig b k) s = .next (State.answered { s with gleaner := { s.gleaner with
      kinds := tset none s.gleaner.kinds (c.at 0 2) (some ⟨c.at 2 2, c.at 4 4, 0⟩) } } b.val k.val c (Rep.ok [])))
  ∧ (∀ (b : BerthId) (k : Fin 7) (s : State) (c : Cmd) (r : Nat), b.val = 256 → s.asked b.val k.val 0x0612 8 c →
    ((kindRow (c.at 0 2) = none ∧ r = 1) ∨ (kindRow (c.at 0 2) ≠ none ∧ c.at 4 4 = 0 ∧ r = 2)) →
    exec (.countConfig b k) s = .next (s.answered b.val k.val c (Rep.refused r)))
  ∧ (∀ (b : BerthId) (k : Fin 7) (s : State) (c : Cmd) (x : KindCfg), b.val = 256 ∨ b.val = 258 → s.asked b.val k.val 0x0613 2 c →
    (kindRow (c.at 0 2)).isSome = true → x = s.gleaner.cfg (c.at 0 2) →
    exec (.countRead b k) s = .next (s.answered b.val k.val c (Rep.ok (leBytes 4 x.n ++ leBytes 4 x.window ++ leBytes 4 x.overflow
      ++ leBytes 2 ((s.gleaner.live s.reckon).filter fun y => decide (y.kind = c.at 0 2)).length ++ leBytes 2 (s.gleaner.live s.reckon).length))))
  ∧ (∀ (b : BerthId) (k : Fin 7) (s : State) (c : Cmd), b.val = 256 ∨ b.val = 258 → s.asked b.val k.val 0x0614 1 c → c.at 0 1 = 0 →
    exec (.thermalRead b k) s = .next (s.answered b.val k.val c (Rep.ok (leBytes 4 s.thStatus
      ++ (List.range 16).flatMap (fun d => leBytes 4 (s.thDie d)) ++ (List.range 16).flatMap fun n => leBytes 4 (s.thHbm n)))))
  ∧ (∀ (b : BerthId) (k : Fin 7) (s : State) (c : Cmd), b.val = 256 ∨ b.val = 258 → s.asked b.val k.val 0x0614 1 c → c.at 0 1 = 1 →
    exec (.thermalRead b k) s = .next (s.answered b.val k.val c (Rep.ok ((List.range 64).flatMap (fun z => leBytes 2 (s.thZone z))
      ++ bitmap 64 (fun z => bitAt (s.thZone z) 16) ++ bitmap 64 (fun z => bitAt (s.thZone z) 17) ++ bitmap 64 fun z => bitAt (s.thZone z) 18))))
  ∧ (∀ (b : BerthId) (k : Fin 7) (s : State) (c : Cmd), b.val = 271 → s.asked b.val k.val 0x7F10 16 c → s.factoryMode = true →
    (kindRow (c.at 0 2)).isSome = true →
    exec (.faultInject b k) s = .next ((s.record (c.at 0 2) (c.at 2 1) (c.at 4 4) (c.at 8 8) s.reckon none true).answered b.val k.val c (Rep.ok [])))
  ∧ (∀ (b : BerthId) (k : Fin 7) (s : State) (c : Cmd), b.val = 271 → s.asked b.val k.val 0x7F10 16 c → s.factoryMode = false →
    exec (.faultInject b k) s = .next (s.answered b.val k.val c (Rep.err 0x07)))
  ∧ (∀ (b : BerthId) (k : Fin 7) (s : State) (c : Cmd), b.val = 256 → s.asked b.val k.val 0x0701 4 c → c.at 0 1 ≤ 2 →
    1 ≤ c.at 2 2 → c.at 2 2 ≤ 100 →
    (c.at 0 1 = 1 → s.clock.ppsEn = true) → (c.at 0 1 = 2 → c.at 1 1 < 72 ∧ (s.planRole (c.at 1 1) = 1 ∨ s.planRole (c.at 1 1) = 2)) →
    exec (.timeConfig b k) s = .next (State.answered
      { s with clock := { s.clock with next := some (c.at 0 1, c.at 1 1, c.at 2 2) } } b.val k.val c (Rep.ok [])))
  ∧ (∀ (b : BerthId) (k : Fin 7) (s : State) (c : Cmd), b.val = 256 → s.asked b.val k.val 0x0701 4 c → c.at 0 1 ≤ 1 →
    (c.at 2 2 = 0 ∨ 100 < c.at 2 2) →
    exec (.timeConfig b k) s = .next (s.answered b.val k.val c (Rep.refused 0x02)))
  ∧ (∀ (b : BerthId) (k : Fin 7) (s : State) (c : Cmd), b.val = 256 → s.asked b.val k.val 0x0702 4 c → 60 ≤ c.at 0 4 → 86400 % c.at 0 4 = 0 →
    exec (.meterConfig b k) s = .next (State.answered { s with alm := { s.alm with nextInterval := c.at 0 4 } } b.val k.val c (Rep.ok [])))
  ∧ (∀ (b : BerthId) (k : Fin 7) (s : State) (c : Cmd), b.val = 256 → s.asked b.val k.val 0x0702 4 c → (c.at 0 4 < 60 ∨ 86400 % c.at 0 4 ≠ 0) →
    exec (.meterConfig b k) s = .next (s.answered b.val k.val c (Rep.refused 0x01)))
  ∧ ∀ (b : BerthId) (k : Fin 7) (s : State) (c : Cmd) (l : List (Nat × List Byte)), at256Barn b.val = true → s.asked b.val k.val 0x0703 8 c →
    c.at 0 2 ≤ 256 → (c.berth = 256 ∨ c.at 0 2 = c.berth) → s.bufOk c 96 = true →
    l = ((s.meter (c.at 0 2)).ring.map fun r => (leVal ((r.drop 4).take 4), r)) →
    ∃ sel : List (List Byte), sel = (((l.filter fun x => decide (c.at 4 4 ≤ x.1)).map (·.2)).take (c.bufLen / 96))
      ∧ exec (.meterRead b k) s = .next (State.answered (s.putAt c.akind c.who c.barn c.bufAddr (sel.flatten.take c.bufLen)) b.val k.val c
        (Rep.ok (leBytes 4 ((l.map (·.1)).headD 0) ++ leBytes 4 ((l.map (·.1)).getLastD 0) ++ leBytes 4 sel.length)))

/-- R319 to R323, R412, R413, R475: the helm pair. A mismatch holds the output; one failing half is retired and its partner goes on alone (SINGLE, a
count, a report of class 1, notice 0x06 and the outputs of the last 100 µs again), both or neither stop the helm, as does the serving half in
SINGLE; in SPLIT a failing half is retired and the update ends failed, both stop the helm. A retired half that passes joins again, with class 0
and notice 0x06, unless it has been retired three times or fails: then it stays out, with class 2. An update passes authentication, SPLIT, a takeover once no
request is served, and the re-forming of the pair, each failure with its result and a report of class 1; a revocation blows its fuse. -/
def Obligations.HelmPair : Prop :=
  (∀ (s : State), exec .helmOutputMismatch s =
    .next (if s.helm.st = .paired ∧ s.helm.stopped = false then { s with helm := { s.helm with hold := true } } else s))
  ∧ (∀ (a b : Bool) (s : State), s.helm.st = .paired → s.helm.stopped = false → exec (.helmSelfCheckEnd a b) s = .next (
      if s.helm.hold = false then s else if a = b then s.helmStop else s.retireHalf (if a = true then 0 else 1)))
  ∧ (∀ (a b : Bool) (s : State) (half : Nat), s.helm.st = .single → s.helm.stopped = false → s.helm.retired = some half → half < 2 →
    exec (.helmSelfCheckEnd a b) s = .next (if (if half = 0 then b else a) = true then s.helmStop else s))
  ∧ (∀ (a b : Bool) (s : State), s.helm.st = .split → s.helm.stopped = false → exec (.helmSelfCheckEnd a b) s = .next (
      if a = true ∧ b = true then s.helmStop
      else if a = true ∨ b = true then (s.updateFail 0x03).retireHalf (if a = true then 0 else 1) else s))
  ∧ (∀ (a b : Bool) (s : State), s.helm.st = .rom ∨ s.helm.stopped = true → exec (.helmSelfCheckEnd a b) s = .next s)
  ∧ (∀ (half : Nat) (s : State), half < 2 → ∃ u : State, s.retireHalf half = (u.helmNotice).repostAll
      ∧ u = { s with
        helm := { s.helm with st := .single, retired := some half, hold := false, retireA := s.helm.retireA + (1 - half), retireB := s.helm.retireB + half }
        reports := s.reports ++ [⟨0x30, half, 0, s.reckon, none⟩] }
      ∧ (s.retireHalf half).helm = u.helm ∧ (s.retireHalf half).reports = u.reports ∧ (s.retireHalf half).nv = s.nv)
  ∧ (∀ (s : State), s.helmStop = { s with
      helm := { s.helm with stopped := true, hold := true }, reports := s.reports ++ [⟨0x31, s.selfNum, 0, s.reckon, none⟩] })
  ∧ (∀ (p : Bool) (s : State) (half : Nat), s.helm.stopped = false → s.helm.st = .single → s.helm.retired = some half → s.helm.final = false →
    exec (.helmReform p) s = .next (if p = true ∧ (if half = 0 then s.helm.retireA else s.helm.retireB) < 3 then
      State.helmNotice { s with
        helm := { s.helm with
          st := .paired, retired := none
          fwA := if half = 0 then s.helm.fwB else s.helm.fwA, fwB := if half = 0 then s.helm.fwB else s.helm.fwA }
        reports := s.reports ++ [⟨0x30, half, 0, s.reckon, some 0⟩] }
    else { s with helm := { s.helm with final := true }, reports := s.reports ++ [⟨0x30, half, 0, s.reckon, some 2⟩] }))
  ∧ (∀ (p : Bool) (s : State), s.helm.st = .single → s.helm.final = true → exec (.helmReform p) s = .next s)
  ∧ (∀ (p : Bool) (s : State) (u : FwUpdate), s.helm.st = .split → s.helm.update = some u → u.takenOver = true → s.helm.stopped = false →
    exec (.helmReform p) s = .next (if p = true then
      State.helmNotice (State.opFin { s with
        helm := { s.helm with st := .paired, fwA := u.image.version, fwB := u.image.version, update := none }
        nv := s.nv.putFw s.helm.bootSlot u.image } u.op 2 0x00)
    else (s.updateFail 0x03).retireHalf 0))
  ∧ (∀ (s : State), s.helm.update = none ∨ s.helm.st ≠ .paired ∨ s.helm.stopped = true → exec .fwUpdateSplit s = .next s)
  ∧ (∀ (s : State) (u : FwUpdate), s.helm.update = some u → s.helm.st = .paired → s.helm.stopped = false →
    exec .fwUpdateSplit s = .next (
      if u.image.typ = 2 then
        if s.nv.revokeOk u.image = true then
          State.opFin { s with
            helm := { s.helm with update := none }, nv := { s.nv with revoked := s.nv.revoked ||| 2 ^ u.image.revokes.val } } u.op 2 0x00
        else (State.opFin { s with helm := { s.helm with update := none } } u.op 3 0x01).report 0x30 1 0
      else if s.nv.fwRefusal u.image = none then State.helmNotice { s with helm := { s.helm with st := .split } }
      else (s.updateFail ((s.nv.fwRefusal u.image).getD 0)).report 0x30 1 0))
  ∧ (∀ (v : Bool) (s : State) (u : FwUpdate), s.helm.st = .split → s.helm.update = some u →
    exec (.fwUpdateTakeover v) s = .next (
      if u.takenOver = true ∨ s.helm.stopped = true then s
      else if v = false then State.helmNotice { (s.updateFail 0x04).report 0x30 1 0 with helm := { s.helm with st := .paired, update := none } }
      else if ∃ x ∈ s.berths, ∃ y ∈ x.2.slots, y.2.st = .serving then s
      else State.repostAll { s with
        helm := { s.helm with fwB := u.image.version, image := some u.image, update := some { u with takenOver := true } } }))
  ∧ (∀ (nv : NonVol) (i : FwImage), nv.fwRefusal i = none ↔
    i.typ = 1 ∧ i.signed = true ∧ bitAt nv.revoked i.keySlot.val = false ∧ nv.rollback ≤ i.svn)
  ∧ ∀ (nv : NonVol) (i : FwImage), nv.revokeOk i = true ↔
    i.signed = true ∧ bitAt nv.revoked i.keySlot.val = false ∧ i.keySlot ≠ i.revokes ∧ ∃ k, k < 4 ∧ k ≠ i.revokes.val ∧ bitAt nv.revoked k = false

/-- R232, R235, R238, R307, R310, R339: what the helm takes from peers, harvests and pair checks. A message whose trailer fails is ended as R235 says; one
that a serving helm cannot take yet waits in the inbox, or finds its 4,096 entries full and is answered 0x10 and counted; a message from a package that
is no fabric manager's, or for another berth than 0x101, is answered 0x05, a write, a ring and a read act at berth 0x101; the segments of a
congestion map go to the harvest's buffer and the last ends it; the outcome of pair checks is kept, told and acted on; and an entry that has held one copy
for its time is unpaired, its waiting operations answered 0x05. -/
def Obligations.HelmMessages : Prop :=
  (∀ (p : Pkt) (s : State), p ∉ s.net → p ∉ s.inbox ∨ p.op ≠ 0x3C → exec (.helmMsg p) s = .next s)
  ∧ (∀ (p : Pkt) (s : State), p ∈ s.net → exec (.helmMsg p) s = .next (
      if p.taken = false then (s.consume p).endTc0 p
      else if s.helmServes = true then (s.consume p).helmTake p
      else if s.inbox.length < 4096 then { s.consume p with inbox := s.inbox ++ [p] }
      else State.helmAnswer { s.consume p with inboxLost := s.inboxLost + 1 } p 0x10 []))
  ∧ (∀ (p : Pkt) (s : State), p ∉ s.net → p ∈ s.inbox → p.op = 0x3C → exec (.helmMsg p) s = .next (
      if s.helmServes = true then State.helmTake { s with inbox := removeFirst p s.inbox } p else s))
  ∧ (∀ (p : Pkt) (s : State), s.consume p = { s with net := removeFirst p s.net })
  ∧ (∀ (p : Pkt) (s : State) (bop : Nat), leVal (p.payload.take 1) = bop → bop = 1 ∨ bop = 2 ∨ bop = 3 →
    leVal ((p.payload.drop 2).take 2) ≠ 257 ∨ epPkg p.src ∉ s.fmPeers → s.helmTake p = s.helmAnswer p 0x05 [])
  ∧ (∀ (p : Pkt) (s : State) (n : Nat) (d : List Byte), leVal ((p.payload.drop 2).take 2) = 257 → epPkg p.src ∈ s.fmPeers →
    n = min 48 (leVal ((p.payload.drop 6).take 1)) → d = (p.payload.drop 16).take n →
    (leVal (p.payload.take 1) = 1 → s.helmTake p = s.berthWrite 257 (idPeer (epPkg p.src)) (leVal ((p.payload.drop 4).take 2) % 4096) d)
    ∧ (leVal (p.payload.take 1) = 2 →
      s.helmTake p = s.berthRingWrite 257 (idPeer (epPkg p.src)) (leVal (d.take 4) / 65536) (leVal (d.take 4)))
    ∧ (leVal (p.payload.take 1) = 3 → s.helmTake p =
      State.helmAnswer (s.berthRead 257 (idPeer (epPkg p.src)) (leVal ((p.payload.drop 4).take 2) % 4096) n).2 p 0x04
        (s.berthRead 257 (idPeer (epPkg p.src)) (leVal ((p.payload.drop 4).take 2) % 4096) n).1))
  ∧ (∀ (p : Pkt) (s : State), leVal (p.payload.take 1) = 0x11 → leVal ((p.payload.drop 1).take 1) < 16 →
    s.helmTake p = s.pairFault (leVal ((p.payload.drop 1).take 1)) true)
  ∧ (∀ (p : Pkt) (s : State) (bop : Nat), leVal (p.payload.take 1) = bop →
    bop ≠ 1 → bop ≠ 2 → bop ≠ 3 → bop ≠ 0x11 ∨ 16 ≤ leVal ((p.payload.drop 1).take 1) → s.helmTake p = s)
  ∧ (∀ (p : Pkt) (s : State), p ∉ s.net → exec (.harvestData p) s = .next s)
  ∧ (∀ (p : Pkt) (s : State), p ∈ s.net → p.taken = false → exec (.harvestData p) s = .next (((s.consume p).freed p).endTc0 p))
  ∧ (∀ (p : Pkt) (s u : State), p ∈ s.net → p.taken = true → u = (s.consume p).freed p →
    u.ops.find? (fun o => decide (o.opcode = 0x0405) && o.fin.isNone && decide (o.work.headD 0 = epPkg p.src)) = none →
    exec (.harvestData p) s = .next u)
  ∧ (∀ (p : Pkt) (s u w : State) (o : Op), p ∈ s.net → p.taken = true → u = (s.consume p).freed p →
    u.ops.find? (fun o => decide (o.opcode = 0x0405) && o.fin.isNone && decide (o.work.headD 0 = epPkg p.src)) = some o →
    w = (u.putAt o.akind o.who o.barn (o.bufAddr + p.addr % 2 ^ 32) (p.payload.take (o.bufLen - p.addr % 2 ^ 32))).setOp { o with
      work := [epPkg p.src, o.work.getD 1 0 + p.payload.length]
      partialBytes := if p.addr % 2 ^ 32 = o.partialBytes then p.addr % 2 ^ 32 + (p.payload.take (o.bufLen - p.addr % 2 ^ 32)).length else o.partialBytes } →
    exec (.harvestData p) s = .next (if 4672 ≤ o.work.getD 1 0 + p.payload.length then w.opFin o.num 2 0x00 else w))
  ∧ (∀ (n : Fin 16) (a b : Bool) (f : FaultyUnits) (s : State), (s.pairRec n.val).checking = false → exec (.pairChecksComplete n a b f) s = .next s)
  ∧ (∀ (n : Fin 16) (f : FaultyUnits) (s u : State) (d : PairDesc), (s.pairRec n.val).checking = true → d = pairDesc (tget 0 s.pairTable n.val) →
    s.memberBad n.val false = false → s.memberBad n.val true = false →
    u = s.onPairRec n.val (fun x => { x with outcome := 3, checking := false }) →
    exec (.pairChecksComplete n false false f) s =
      .next ((u.postNotice 257 0x04 (leBytes 1 n.val ++ leBytes 1 3)).postNotice d.barn 0x04 (leBytes 1 n.val ++ leBytes 1 3)))
  ∧ (∀ (n : Fin 16) (a b : Bool) (f : FaultyUnits) (s u : State) (d : PairDesc), (s.pairRec n.val).checking = true →
    d = pairDesc (tget 0 s.pairTable n.val) → (a = true ∨ s.memberBad n.val false = true) → (b = true ∨ s.memberBad n.val true = true) →
    u = State.faultyOut (s.onPairRec n.val fun x => { x with outcome := 4, checking := false }) (s.memberDies d false ++ s.memberDies d true) f →
    exec (.pairChecksComplete n a b f) s = .next (((u.report 0x1D s.selfNum n.val).postNotice 257 0x04
      (leBytes 1 n.val ++ leBytes 1 4)).postNotice d.barn 0x04 (leBytes 1 n.val ++ leBytes 1 4)))
  ∧ (∀ (n : Fin 16) (a b : Bool) (f : FaultyUnits) (s u w : State) (d : PairDesc) (code : Nat), (s.pairRec n.val).checking = true →
    d = pairDesc (tget 0 s.pairTable n.val) → (b || s.memberBad n.val true) = !(a || s.memberBad n.val false) →
    code = (if (if (a || s.memberBad n.val false) = true then (s.pairRec n.val).fromA else (s.pairRec n.val).fromB) = true then 2 else 1) →
    u = State.faultyOut (s.onPairRec n.val fun x => { x with outcome := code, checking := false })
      (s.memberDies d !(a || s.memberBad n.val false)) f →
    w = (if code = 2 then u.dropPair n.val else { u.dropPair n.val with
      frozen := u.frozen.filter fun x => !(s.memberDies d (a || s.memberBad n.val false)).contains x }) →
    exec (.pairChecksComplete n a b f) s = .next ((w.postNotice 257 0x04 (leBytes 1 n.val ++ leBytes 1 code)).postNotice d.barn 0x04
      (leBytes 1 n.val ++ leBytes 1 code)))
  ∧ ∀ (g : ClusterId) (n m : Fin 16) (q : BitVec 14) (s : State) (k : Nat) (e : ChaffEntry), k = chaffKey g.val n.val m.val →
    e = (s.chaffWin k).at q.toNat →
    (e.state = 2 → exec (.unpairTimeout g n m q) s = .next (answerAll (State.unpairedEvent
      (s.setChaff k ((s.chaffWin k).put q.toNat { ChaffEntry.resolved with unpaired := true })) n.val e.memberB) 0x05 [] e.waiting))
    ∧ (e.state = 1 → e.waiting ≠ [] → exec (.unpairTimeout g n m q) s = .next (answerAll (State.overrunEvent
      (s.setChaff k ((s.chaffWin k).put q.toNat ChaffEntry.resolved)) n.val) 0x05 [] e.waiting))
    ∧ (e.state = 1 → e.waiting = [] → exec (.unpairTimeout g n m q) s = .next s)
    ∧ (e.state ≠ 1 → e.state ≠ 2 → exec (.unpairTimeout g n m q) s = .next s)

/-! Registers, bring-up, resets, time and faults (spec/14 to spec/19). -/

/-- R14, R208, R343 to R353, R359, R361, R363, R364: accesses of the host. A write of 4 or 8 bytes, aligned, is taken by the register at its offset, each
of the physical function's by its fields' kinds; any other access writes nothing and counts as advisory; a 64-bit register is written
whole or in halves and its low half's read captures the high one. The indirect pair acts at its service address, increments where asked and keeps
its error; apertures before their barn exists end with 0x0F; functions are reset and removed. -/
def Obligations.RegisterAccess : Prop :=
  (∀ (f : FnId) (off : Fin 1048576) (v : List Byte) (s : State), exec (.registerWrite f off v) s = .next (
      if s.fnUp f.val = false then s
      else if v.length = 4 ∧ off.val % 4 = 0 then s.writeHalf f.val off.val (leVal v)
      else if v.length = 8 ∧ off.val % 8 = 0 then s.writeWide f.val off.val (leVal v)
      else s.setFn f.val { s.fn f.val with advisory := true }))
  ∧ (∀ (f : FnId) (off : Fin 1048576) (v : List Byte) (s : State) (old : Nat) (put : Nat → State), s.fnUp f.val = true → v.length = 8 →
    off.val % 8 = 0 → s.wideReg f.val (barPlace f.val off.val) = some (old, put) →
    exec (.registerWrite f off v) s = .next ((put (leVal v)).onFn f.val fun x => { x with lowLatch := tdel x.lowLatch off.val }))
  ∧ (∀ (lo hi : List Byte) (s t : State), s.pins.pcie = true → lo.length = 4 → hi.length = 4 →
    t = s.onFn 0 (fun x => { x with lowLatch := tset 0 x.lowLatch 0x1018 (leVal lo + 1) }) →
    exec (.registerWrite 0 0x1018 lo) s = .next t ∧ exec (.registerWrite 0 0x101C hi) t = .next (State.onFn
      { t with bu := { s.bu with bufAddr := leVal lo + 2 ^ 32 * leVal hi } } 0 fun x => { x with lowLatch := tdel x.lowLatch 0x1018 }))
  ∧ (∀ (v : List Byte) (s : State) (n : Nat), s.pins.pcie = true → v.length = 4 → leVal v = n →
    exec (.registerWrite 0 0x1000 v) s = .next (s.buCtl n)
    ∧ exec (.registerWrite 0 0x1004 v) s = .next (if bitAt n 17 = true then { s with bu := { s.bu with refused := false } } else s)
    ∧ exec (.registerWrite 0 0x1020 v) s = .next { s with bu := { s.bu with bufLen := n } }
    ∧ exec (.registerWrite 0 0x1030 v) s = .next { s with bu := { s.bu with repLen := n } }
    ∧ exec (.registerWrite 0 0x2000 v) s = .next (s.ackClasses (n % 16))
    ∧ exec (.registerWrite 0 0x2004 v) s = .next { s with gleaner := s.gleaner.ctlWrite n }
    ∧ exec (.registerWrite 0 0x4008 v) s = .next (if bitAt n 3 = true then { s with clock := { s.clock with ppsSeen := false } } else s)
    ∧ exec (.registerWrite 0 0x4030 v) s = .next (s.almCtl n)
    ∧ exec (.registerWrite 0 0x4038 v) s = .next (if bitAt n 2 = true then { s with alm := { s.alm with setback := false } } else s)
    ∧ exec (.registerWrite 0 0x5000 v) s = .next { s with ind := { s.ind with addr := n / 4 * 4 } }
    ∧ exec (.registerWrite 0 0x5004 v) s = .next { s with ind := { s.ind with inc := if bitAt n 16 = true then bitAt n 0 else s.ind.inc } }
    ∧ exec (.registerWrite 0 0x5008 v) s = .next (s.indWrite n false)
    ∧ exec (.registerWrite 0 0x5010 v) s = .next { s with
        ind := { s.ind with err := s.ind.err && !bitAt n 0, rejected := s.ind.rejected && !bitAt n 1 } }
    ∧ exec (.registerWrite 0 0x6008 v) s = .next (if bitAt n 8 = true then s.setFn 0 { s.fn 0 with aptErr := false } else s))
  ∧ (∀ (f : FnId) (off : Fin 1048576) (v : List Byte) (s : State), s.fnUp f.val = true → v.length = 4 → off.val % 4 = 0 →
    (∀ o, barPlace f.val off.val = .msixTable o → exec (.registerWrite f off v) s = .next (s.msixWrite f.val o (leVal v)))
    ∧ (∀ b o, barPlace f.val off.val = .berth b o → exec (.registerWrite f off v) s = .next (s.berthPageWrite f.val b o (leVal v)))
    ∧ (∀ o, barPlace f.val off.val = .ident o ∨ barPlace f.val off.val = .thermal o ∨ barPlace f.val off.val = .msixPend o
        ∨ barPlace f.val off.val = .none → exec (.registerWrite f off v) s = .next s))
  ∧ (∀ (f n v : Nat) (s : State), n < vectors f →
    s.msixWrite f (16 * n + 12) v = (
      if bitAt v 0 = true then s.setFn f { s.fn f with unmasked := (s.fn f).unmasked - (if bitAt (s.fn f).unmasked n = true then 2 ^ n else 0) }
      else if bitAt (s.fn f).pend n = true then State.setFn { s with out := s.out ++ [.msix f n] } f
        { s.fn f with unmasked := (s.fn f).unmasked ||| 2 ^ n, pend := (s.fn f).pend - 2 ^ n }
      else s.setFn f { s.fn f with unmasked := (s.fn f).unmasked ||| 2 ^ n }))
  ∧ (∀ (f : FnId) (off : Fin 1048576) (s : State), exec (.registerLowHalfRead f off) s = .next (
      if s.fnUp f.val = false then s
      else if off.val % 4 = 0 then { (s.read32 f.val off.val).2 with out := (s.read32 f.val off.val).2.out ++ [.regRead (s.read32 f.val off.val).1] }
      else State.setFn { s with out := s.out ++ [.unsupported f.val] } f.val { s.fn f.val with advisory := true }))
  ∧ (∀ (f : FnId) (off : Fin 1048576) (v : Nat) (s : State), s.fnUp f.val = true → off.val % 4 = 0 →
    (∃ o, barPlace f.val off.val = .ident o ∨ barPlace f.val off.val = .bringUp o ∨ barPlace f.val off.val = .fault o
      ∨ barPlace f.val off.val = .thermal o ∨ barPlace f.val off.val = .time o ∨ barPlace f.val off.val = .aperture o
      ∨ (barPlace f.val off.val = .indirect o ∧ o ≠ 8)) →
    (s.blockReg f.val (barPlace f.val off.val) = some (4, v) →
      exec (.registerLowHalfRead f off) s = .next { s with out := s.out ++ [.regRead v] })
    ∧ (s.blockReg f.val (barPlace f.val off.val) = some (8, v) →
      exec (.registerLowHalfRead f off) s = .next (State.onFn { s with out := s.out ++ [.regRead (v % 2 ^ 32)] } f.val fun x =>
        { x with highCap := tset 0 x.highCap off.val (v / 2 ^ 32 + 1) }))
    ∧ (s.blockReg f.val (barPlace f.val off.val) = none → off.val % 8 = 0 →
      exec (.registerLowHalfRead f off) s = .next { s with out := s.out ++ [.regRead 0] }))
  ∧ (∀ (s : State), s.pins.pcie = true → exec (.registerLowHalfRead 0 0) s =
    .next { s with out := s.out ++ [.regRead (packFields [(16, 0xF072), (4, s.variant), (4, s.nv.stepping)])] })
  ∧ (∀ (s : State), s.pins.pcie = true →
    ∃ t u : State, exec (.registerLowHalfRead 0 0x4000) s = .next t ∧ t.out = s.out ++ [.regRead (s.reckon % 2 ^ 32)]
      ∧ ∀ (r : Nat), exec (.registerLowHalfRead 0 0x4004) { t with reckon := r } = .next u → u.out = t.out ++ [.regRead (s.reckon / 2 ^ 32)])
  ∧ (∀ (v : BitVec 64) (e : Bool) (s : State), s.pins.pcie = false → exec (.indDataWrite v e) s = .next s ∧ exec (.indDataRead e) s = .next s)
  ∧ (∀ (v : BitVec 64) (e : Bool) (n : Nat) (s : State), s.pins.pcie = true → n = (if e = true then 8 else 4) →
    (s.svcRead s.ind.addr n = none → exec (.indDataWrite v e) s = .next (s.indError.indAdvance n))
    ∧ (s.svcRead s.ind.addr n ≠ none →
      (∀ sec off, calPlace s.ind.addr = some (sec, off) → (∀ i, i < n → s.calWritable sec (off + i) = true) →
        exec (.indDataWrite v e) s = .next (State.indAdvance (if sec = 6 then
          (s.calWrite sec off (leBytes n v.toNat)).resync (memRead s.cal (calBase 6) 1152) else s.calWrite sec off (leBytes n v.toNat)) n))
      ∧ (∀ sec off i, calPlace s.ind.addr = some (sec, off) → i < n → s.calWritable sec (off + i) = false →
        exec (.indDataWrite v e) s = .next (State.indAdvance { s with ind := { s.ind with rejected := true, errAddr := s.ind.addr } } n))
      ∧ (calPlace s.ind.addr = none → exec (.indDataWrite v e) s = .next (State.indAdvance (
        if 0x02000000 ≤ s.ind.addr ∧ s.ind.addr < 0x04000000 ∧ s.ind.addr % 0x200 < 8
          ∧ bitAt ((if e = true then v.toNat else v.toNat % 2 ^ 32) * 2 ^ (8 * (s.ind.addr % 8))) 53 = true then
          s.setPort ((s.ind.addr - 0x02000000) / 0x200) { s.port ((s.ind.addr - 0x02000000) / 0x200) with lossSeen := false } else s) n))))
  ∧ (∀ (s : State) (sec off : Nat), s.stageDone 5 = false → s.calWritable sec off = true)
  ∧ (∀ (s : State) (sec off l : Nat), s.stageDone 5 = true → s.calOwner sec off = some l →
    s.calWritable sec off = if l < 512 then decide ((s.link l).st = .dark ∨ (s.link l).st = .withdrawn) else decide ((s.port (l - 512)).st = .dark))
  ∧ (∀ (e : Bool) (n : Nat) (s : State), s.pins.pcie = true → n = (if e = true then 8 else 4) → s.svcRead s.ind.addr n = none →
    exec (.indDataRead e) s = .next (State.indAdvance { s with
      out := s.out ++ [.regRead 0], ind := { s.ind with err := true, errAddr := s.ind.addr } } n))
  ∧ (∀ (e : Bool) (n v : Nat) (s : State), s.pins.pcie = true → n = (if e = true then 8 else 4) → s.svcRead s.ind.addr n = some v →
    e = true ∨ (calPlace s.ind.addr).isSome = true ∨ crossWord s.ind.addr = true →
    exec (.indDataRead e) s = .next (State.indAdvance { s with out := s.out ++ [.regRead v] } n))
  ∧ (∀ (r v : Nat) (s : State), s.pins.pcie = true → s.svcRead s.ind.addr 4 = some v → calPlace s.ind.addr = none → crossWord s.ind.addr = false →
    s.ind.addr % 8 = 0 → s.svcReg s.ind.addr = some r →
    exec (.indDataRead false) s = .next (State.indAdvance { s with
      out := s.out ++ [.regRead v], ind := { s.ind with cap := some (s.ind.addr + 4, r / 2 ^ 32) } } 4))
  ∧ (∀ (h v : Nat) (s : State), s.pins.pcie = true → s.svcRead s.ind.addr 4 = some v → calPlace s.ind.addr = none → crossWord s.ind.addr = false →
    s.ind.addr % 8 ≠ 0 → s.ind.cap = some (s.ind.addr, h) →
    exec (.indDataRead false) s = .next (State.indAdvance { s with out := s.out ++ [.regRead h], ind := { s.ind with cap := none } } 4))
  ∧ (∀ (v : Nat) (s : State), s.pins.pcie = true → s.svcRead s.ind.addr 4 = some v → calPlace s.ind.addr = none → crossWord s.ind.addr = false →
    s.ind.addr % 8 ≠ 0 → (∀ h, s.ind.cap ≠ some (s.ind.addr, h)) →
    exec (.indDataRead false) s = .next (State.indAdvance { s with out := s.out ++ [.regRead v] } 4))
  ∧ (∀ (s : State) (n : Nat), s.indAdvance n = if s.ind.inc = true then { s with ind := { s.ind with addr := (s.ind.addr + n) % 2 ^ 32 } } else s)
  ∧ (∀ (f : FnId) (off : Fin 268435456) (n : Fin 4097) (bs : List Byte) (s : State), exec (.apertureRead f off n) s = .next (
      if s.fnUp f.val = true then aptReadAll f.val ((s.fn f.val).aptBase + off.val) n.val s else s)
    ∧ exec (.apertureWrite f off bs) s = .next (if s.fnUp f.val = true then
      (aptPieces ((s.fn f.val).aptBase + off.val) bs.length).foldl (fun s x => s.aptSend f.val x.1 x.2 none
        ((bs.drop (x.1 - ((s.fn f.val).aptBase + off.val))).take x.2)) s else s))
  ∧ (∀ (f : FnId) (off : Fin 268435456) (n : Fin 4097) (a : Nat) (s : State), s.fnUp f.val = true → 1 ≤ n.val → n.val ≤ 8 → s.barnExists f.val = false →
    a = (s.fn f.val).aptBase + off.val → a % 8 = 0 → (∀ r ∈ s.aptReads, r.id ≠ s.aptNext) →
    exec (.apertureRead f off n) s = .next { (s.aptError f.val a 0x0F).onFctr f.val (fun c => c.refuse 0x0F) with
      aptNext := s.aptNext + 1, out := s.out ++ [.hostRead f.val a (List.replicate n.val 0xFF#8)] })
  ∧ (∀ (f : FnId) (off : Fin 268435456) (bs : List Byte) (a : Nat) (s : State), s.fnUp f.val = true → 1 ≤ bs.length → bs.length ≤ 8 →
    s.barnExists f.val = false → a = (s.fn f.val).aptBase + off.val → a % 8 = 0 →
    exec (.apertureWrite f off bs) s = .next ((s.aptError f.val a 0x0F).onFctr f.val fun c => c.refuse 0x0F))
  ∧ (∀ (f : Nat) (s : State) (a st : Nat), s.aptError f a st = s.setFn f { s.fn f with aptLast := st, aptErr := true, aptErrAddr := a })
  ∧ (∀ (f : FnId) (s : State), exec (.functionLevelReset f) s = .next (if s.fnUp f.val = true then
      (s.releaseClaims fun who => decide (who = idFn f.val)).onFn f.val fun x =>
        { x with table := [], unmasked := 0, pend := 0, aptBase := 0, aptLast := 0, aptErr := false } else s))
  ∧ (∀ (en : Bool) (n : Fin 256) (s : State), s.pins.pcie = false → exec (.vfEnableChange en n) s = .next s)
  ∧ ∀ (en : Bool) (n : Fin 256) (s u : State), s.pins.pcie = true → u = { s with vfEnable := en, numVfs := n.val } →
    exec (.vfEnableChange en n) s = .next (((List.range 256).filter fun f => s.fnExists f && !u.fnExists f).foldl
      (fun s f => (s.releaseClaims fun who => decide (who = idVf f)).setFn f Fn.init) u)

/-- R355 to R357, R366 to R377, Tables 14-5 to 14-7: bring-up. GO starts the next stage and is refused while one runs, when READY or when the target
lies below it; ACCEPT needs DISAGREE; ABORT ends the running stage; a refused action undoes the write. A stage that starts takes its buffers; with FATAL set
it fails with 0x7F; one that passes goes on, or ends in its state at the target. Each stage's end, from stage 1 to READY, has its effect and each
failure its result; READY needs the minimum of cores on every die and no class 3 report pending, and creates barn 0. -/
def Obligations.BringUpStages : Prop :=
  (∀ (v : BitVec 32) (s : State), exec (.buGo v) s = .next (if s.pins.pcie = true then s.buCtl v.toNat else s)
    ∧ exec (.buAccept v) s = .next (if s.pins.pcie = true then s.buCtl v.toNat else s)
    ∧ exec (.buAbort v) s = .next (if s.pins.pcie = true then s.buCtl v.toNat else s))
  ∧ (∀ (s : State) (v : Nat), bitsAt (v / 65536) 10 6 ≠ 0 → s.buCtl v = s)
  ∧ (∀ (s : State) (t : Nat), t < 16 → s.buCtl (0x001F0010 + t) = (
      if s.bu.st = .running then { s with bu := { s.bu with refused := true, why := 1 } }
      else if s.bu.st = .ready ∨ min 10 t < s.bu.next then { s with bu := { s.bu with refused := true, why := 2 } }
      else State.stageStart { s with
        bu := { s.bu with target := t, calSource := s.bu.calSource &&& 3, fwSource := s.bu.fwSource &&& 1, goal := min 10 t, accepting := false } } s.bu.next))
  ∧ (∀ (b : BringUp), b.next = match b.st with
      | .idle => b.stage + 1
      | .done => b.stage + 1
      | .disagree => 9
      | .running => b.stage
      | .failed => b.stage
      | .aborted => b.stage
      | .ready => b.stage)
  ∧ (∀ (s : State), s.buCtl 0x00200020 = (if s.bu.st ≠ .disagree then { s with bu := { s.bu with refused := true, why := 3 } }
      else State.acceptReport { s with
        bu := { s.bu with target := s.bu.target &&& 15, calSource := s.bu.calSource &&& 3, fwSource := s.bu.fwSource &&& 1 } }))
  ∧ (∀ (s : State), s.gleaner.fatal = false → s.acceptReport.bu.stage = 10 ∧ s.acceptReport.bu.st = .running ∧ s.acceptReport.accepted = true
    ∧ s.acceptReport.bu.accepting = true)
  ∧ (∀ (s u : State), u = { s with
        bu := { s.bu with target := s.bu.target &&& 15, calSource := s.bu.calSource &&& 3, fwSource := s.bu.fwSource &&& 1 } } →
    s.buCtl 0x02000200 = if s.bu.st = .running then u.buSet .aborted 0x80 else u)
  ∧ (∀ (s : State) (st : BuSt) (r : Nat), s.buSet st r =
      if s.bu.st = st then { s with bu := { s.bu with result := r } } else State.msix { s with bu := { s.bu with st := st, result := r } } 0 3)
  ∧ (∀ (s u : State) (n : Nat), u = State.buSet { s with
        bu := { s.bu with
          stage := n, start := s.reckon, done := 0, total := 0, repBytes := 0
          took := [s.bu.bufAddr, s.bu.bufLen, s.bu.repAddr, s.bu.repLen, s.bu.fwSource, s.bu.calSource] } } .running 0 →
    s.stageStart n = if s.gleaner.fatal = true then u.buSet .failed 0x7F
      else (if n = 6 then u.markUnits (decide (s.bu.stage = 6)) else u).stageEnter n)
  ∧ (∀ (s : State) (r : Nat), s.stagePass r = if s.bu.stage < s.bu.goal then s.stageStart (s.bu.stage + 1) else s.buSet .done r)
  ∧ (∀ (s : State), s.selfValid = false → s.stageEnter 9 = s.buSet .failed 0x01)
  ∧ (∀ (b1 b2 b3 b4 : Bool) (v : BitVec 32) (h : Option FwImage) (k1 k2 : List ClusterId) (x : List (DieId × Fin 192)) (s : State),
    (¬ s.inStage 1 → exec (.standbyDomainSelfCheck b1 b2 v b3 b4) s = .next (s.outOfStage 1))
    ∧ (¬ s.inStage 2 → exec (.firmwareAuthentication h) s = .next (s.outOfStage 2))
    ∧ (s.pins.discharging = true → exec (.vin48SoftStart b1 b2 k1) s = .next s)
    ∧ (s.pins.discharging = false → ¬ s.inStage 3 → exec (.vin48SoftStart b1 b2 k1) s = .next (s.outOfStage 3))
    ∧ (¬ s.inStage 4 → exec (.clockDistribution b1 k2 x) s = .next (s.outOfStage 4)))
  ∧ (∀ (b1 b2 : Bool) (fit : List (ModuleId × BitVec 128)) (op : List (Fin 4)) (tr : List (BitVec 32 × Byte)) (cs : List CoreId) (ks : List ClusterId)
      (ls : List (Fin 32768)) (ds : List DieId) (gs : List GranuleId) (tl : List (LinkId × BitVec 16 × BitVec 16)) (s : State),
    (¬ s.inStage 5 → exec (.lightCalibration fit op b1 b2 tr) s = .next (s.outOfStage 5))
    ∧ (¬ s.inStage 6 → exec (.dieBringup cs ks ls ds) s = .next (s.outOfStage 6))
    ∧ (¬ s.inStage 7 → exec (.hbmBringup b1 b2 gs) s = .next (s.outOfStage 7))
    ∧ (¬ s.inStage 8 → exec (.inPackageLinkTraining tl) s = .next (s.outOfStage 8))
    ∧ (¬ s.inStage 9 → exec .edgeTrainingSighting s = .next (s.outOfStage 9))
    ∧ (¬ s.inStage 10 → exec .ready s = .next (s.outOfStage 10)))
  ∧ (∀ (rail ref a b : Bool) (v : BitVec 32) (s u : State), s.inStage 1 → u = { s with rcalBoot := v.toNat, rcalHeld := false } →
    exec (.standbyDomainSelfCheck rail ref v a b) s = .next (
      if rail = true then s.buSet .failed 0x01 else if ref = true then s.buSet .failed 0x02
      else if v.toNat < 1960000 ∨ 2040000 < v.toNat then s.buSet .failed 0x03
      else if a = true ∧ b = true then s.buSet .failed 0x04
      else if a = true then State.stagePass { u with
        helm := { s.helm with st := .single, retired := some 0, retireA := s.helm.retireA + 1 }
        reports := s.reports ++ [⟨0x30, 0, 0, s.reckon, none⟩] } 0
      else if b = true then State.stagePass { u with
        helm := { s.helm with st := .single, retired := some 1, retireB := s.helm.retireB + 1 }
        reports := s.reports ++ [⟨0x30, 1, 0, s.reckon, none⟩] } 0
      else State.stagePass { u with helm := { s.helm with st := .paired, retired := none } } 0))
  ∧ (∀ (host : Option FwImage) (s : State) (imgs : List (Nat × FwImage)), s.inStage 2 →
    imgs = (if s.bu.took.getD 4 0 = 0 then s.nv.fwOrder
      else if s.bu.took.getD 1 0 = 0 ∨ s.bu.took.getD 0 0 % 64 ≠ 0 then [] else host.toList.map fun i => (2, i)) →
    (∀ slot i, imgs.find? (fun x => (s.nv.fwRefusal x.2).isNone) = some (slot, i) → exec (.firmwareAuthentication host) s = .next (State.stagePass
      { s with helm := { s.helm with image := some i, fwA := i.version, fwB := i.version, bootSlot := slot } } 0))
    ∧ (imgs = [] → exec (.firmwareAuthentication host) s = .next (s.buSet .failed 0x81))
    ∧ ∀ x l e, imgs = x :: l → s.nv.fwRefusal x.2 = some e → imgs.find? (fun x => (s.nv.fwRefusal x.2).isNone) = none →
      exec (.firmwareAuthentication host) s = .next (s.buSet .failed e))
  ∧ (∀ (nv : NonVol) (a b : FwImage), (nv.fw0 = some a → nv.fw1 = some b →
      nv.fwOrder = if a.version < b.version then [(1, b), (0, a)] else [(0, a), (1, b)])
    ∧ (nv.fw0 = some a → nv.fw1 = none → nv.fwOrder = [(0, a)]) ∧ (nv.fw0 = none → nv.fw1 = some b → nv.fwOrder = [(1, b)])
    ∧ (nv.fw0 = none → nv.fw1 = none → nv.fwOrder = []))
  ∧ (∀ (ok bad : Bool) (ks : List ClusterId) (s u : State), s.pins.discharging = false → s.inStage 3 → u = { s with pins := { s.pins with vin48 := ok } } →
    exec (.vin48SoftStart ok bad ks) s = .next (if ok = false then u.buSet .failed 0x01 else if bad = true then u.buSet .failed 0x02
      else State.stagePass (State.clusterFails { u with pins := { u.pins with vinOpen := false } } 4 (ks.map fun k => k.val)) 0))
  ∧ (∀ (ks : List ClusterId) (xs : List (DieId × Fin 192)) (s : State), s.inStage 4 →
    exec (.clockDistribution true ks xs) s = .next (s.buSet .failed 0x01))
  ∧ (∀ (ks : List ClusterId) (xs : List (DieId × Fin 192)) (s a u w : State), s.inStage 4 →
    a = (List.range 16).foldl (fun s d => s.alignDie d) s →
    u = { a with cross := (List.range 16).flatMap fun d => (List.range 192).map fun i => (256 * d + i, if a.crossDown d i then 0xFFFF else 0x0303) } →
    w = xs.foldl (fun s x => (s.retireCrossing (256 * x.1.val + x.2.val)).report 0x08 (256 * x.1.val + x.2.val) 0) u →
    exec (.clockDistribution false ks xs) s = .next (State.stagePass (w.clusterFails 3 (ks.map fun k => k.val)) 0))
  ∧ (∀ (s : State), s.inStage 4 → s.bu.goal = 4 →
    ∃ t : State, exec (.clockDistribution false [] []) s = .next t ∧ t.bu.st = .done
      ∧ ∀ d i, d < 16 → i < 192 → tget 0 t.cross (256 * d + i) = if s.crossDown d i = true then 0xFFFF else 0x0303)
  ∧ (∀ (fit : List (ModuleId × BitVec 128)) (a u : Bool) (tr : List (BitVec 32 × Byte)) (s : State), s.inStage 5 → s.bu.goal = 5 →
    s.calWaits = false → (∀ m : ModuleId, ∃ v, (m, v) ∈ fit) → (∀ m, m < 12 → (s.module m).retired = none) →
    ∃ t : State, exec (.lightCalibration fit [] a u tr) s = .next t ∧ t.bu.st = (if u = true then .failed else .done)
      ∧ t.bu.result = (if u = true then 0x02 else 0x00) ∧ t.pins.intlk = 15 ∧ (∀ m, m < 12 → (t.module m).admitted = true)
      ∧ (∀ i, s.calImage = some i → i.reason = 0 → s.bu.took.getD 5 0 = 2 → a = false → u = false → t.bu.warm = true)
      ∧ (s.bu.took.getD 5 0 = 0 → s.bu.warm = false → t.bu.warm = false))
  ∧ (∀ (fit : List (ModuleId × BitVec 128)) (k : Fin 4) (a u : Bool) (tr : List (BitVec 32 × Byte)) (s : State), s.inStage 5 → s.calWaits = false →
    ∃ t : State, exec (.lightCalibration fit [k] a u tr) s = .next t ∧ t.bu.st = .failed ∧ t.bu.result = 0x01 ∧ bitAt t.pins.intlk k.val = false
      ∧ ∀ i, i < 3 → (t.module (3 * k.val + i)).admitted = false)
  ∧ (∀ (fit : List (ModuleId × BitVec 128)) (op : List (Fin 4)) (a u : Bool) (tr : List (BitVec 32 × Byte)) (s : State), s.calWaits = true →
    s.gleaner.fatal = false → exec (.lightCalibration fit op a u tr) s = .next s)
  ∧ (∀ (s : State), exec .calImageWaitTimeout s = .next (if s.bu.stage = 5 ∧ s.bu.st = .running ∧ s.calWaits = true then
      { s with bu := { s.bu with took := listSet s.bu.took 5 0 } } else s))
  ∧ (∀ (s : State), s.inStage 6 → s.bu.goal = 6 → s.bu.took.getD 2 0 = 0 →
    s.coreDown = [] → s.clusterDown = [] → s.dieDown = [] → s.nv.fusedCores = [] →
    ∃ t : State, exec (.dieBringup [] [] [] []) s = .next t ∧ t.bu.st = .done ∧ t.generation = (s.generation + 1) % 2 ^ 32 ∧ t.changed = s.reckon
      ∧ ∀ c, c < 16384 → t.core c = { Core.init with power := .running })
  ∧ (∀ (c : CoreId) (cs : List CoreId) (ks : List ClusterId) (ls : List (Fin 32768)) (ds : List DieId) (s : State), s.inStage 6 → c ∈ cs →
    c.val ∉ s.nv.fusedCores →
    ∃ t : State, exec (.dieBringup cs ks ls ds) s = .next t ∧ c.val ∈ t.coreDown ∧ (t.core c.val).power = .off
      ∧ (⟨0x04, c.val, 0, s.reckon, none⟩ : Report) ∈ t.reports)
  ∧ (∀ (d : DieId) (cs : List CoreId) (ks : List ClusterId) (ls : List (Fin 32768)) (s : State), s.inStage 6 → d.val ∈ s.dieDown →
    ∃ t : State, exec (.dieBringup cs ks ls []) s = .next t ∧ t.bu.st = .failed ∧ t.bu.result = 0x01)
  ∧ (∀ (d : DieId) (cs : List CoreId) (ks : List ClusterId) (ls : List (Fin 32768)) (ds : List DieId) (s : State), s.inStage 6 →
    ∃ t : State, exec (.dieBringup cs ks ls (d :: ds)) s = .next t ∧ t.bu.st = .failed ∧ t.bu.result = 0x02)
  ∧ (∀ (stack repair : Bool) (r : List GranuleId) (s : State), s.inStage 7 → stack = true ∨ repair = true →
    exec (.hbmBringup stack repair r) s = .next (s.buSet .failed (if stack = true then 0x01 else 0x02)))
  ∧ (∀ (r : List GranuleId) (s : State), s.inStage 7 → s.bu.goal = 7 →
    ∃ t : State, exec (.hbmBringup false false r) s = .next t ∧ t.bu.st = .done ∧ t.hbm = [] ∧ t.poison = [] ∧ t.resValid = true
      ∧ (∀ g, (t.granule g).st = .free) ∧ (∀ g ∈ r, (t.granule g.val).retired = true)
      ∧ (∀ g, (s.granule g).retired = true → (t.granule g).retired = true)
      ∧ t.reports = s.reports ++ r.map fun g => ⟨0x22, g.val, 0, s.reckon, none⟩)
  ∧ (∀ (s : State) (trained : List (LinkId × BitVec 16 × BitVec 16)), s.inStage 8 → s.bu.goal = 8 →
    (∀ l : LinkId, ∃ x, trained.find? (fun x => decide (x.1.val = l.val) && decide (8 ≤ maskWidth x.2.1.toNat)) = some x) →
    ∃ t : State, exec (.inPackageLinkTraining trained) s = .next t ∧ t.bu.st = .done
      ∧ ∀ l i, l < 512 → linkRole l = .standing i → (t.link l).st = .live ∧ (t.link l).rx = some (standingRx l))
  ∧ (∀ (s u : State) (trained : List (LinkId × BitVec 16 × BitVec 16)) (stand : List Nat), s.inStage 8 →
    stand = (List.range 512).filter (fun l => decide ((linkRole l).code = 0)) →
    u = stand.foldl (fun s l => s.substitute l) ((List.range 512).foldl (fun s l => s.trainLink trained l) s) →
    exec (.inPackageLinkTraining trained) s = .next (if stand.all u.pathStands = true then u.stagePass 0 else u.buSet .failed 0x01))
  ∧ (∀ (s : State), s.inStage 9 → exec .edgeTrainingSighting s = .next (
      if (List.range 72).any (fun p => portFitted (s.stageReport s.sightReport).2.variant p
          && sightDisagrees ((s.stageReport s.sightReport).2.sightResult p)) = true then
        (s.stageReport s.sightReport).2.buSet .disagree 0x02
      else (s.stageReport s.sightReport).2.stagePass (s.stageReport s.sightReport).1))
  ∧ (∀ (s : State) (bs : List Byte), s.stageReport bs = (
      if s.bu.took.getD 2 0 = 0 then (0, s) else if s.bu.took.getD 3 0 < bs.length then (0x82, s)
      else (0, { s with out := s.out ++ [.hostWrite 0 (s.bu.took.getD 2 0) bs], bu := { s.bu with repBytes := bs.length } })))
  ∧ (∀ (s : State), s.inStage 10 → 3 ∉ s.gleaner.pending → (∀ d, d < 16 → coreMinimum s.variant ≤ s.usableOn d) →
    ∃ t : State, exec .ready s = .next t ∧ t.bu.st = .ready ∧ t.bu.result = 0 ∧ t.accepted = s.accepted ∧ t.bu.accepted = s.bu.accepting
      ∧ t.ready = true ∧ t.hseq = 0 ∧ t.barnExists 0 = true ∧ t.clusterOwner = [] ∧ t.queueOwner = [] ∧ ∀ c, t.core c = s.core c)
  ∧ ∀ (s : State), s.inStage 10 → 3 ∈ s.gleaner.pending ∨ (∃ d, d < 16 ∧ s.usableOn d < coreMinimum s.variant) →
    exec .ready s = .next (s.buSet .failed 0x01)

/-- R25, R378 to R384, R465 to R483: the resets. A core's reset empties it, zeroing, and answers the requests that were under way to it; a cluster's takes
its 64 cores and zeroes its gateway's tallies; an orphaned tag becomes free; a package reset keeps what survives it. Supplies, straps and pins: what VAUX,
VBAT and VIN48 leave when they go, PERST#, the straps sampled once, and the interlock loops, which stop a block's ports and modules. -/
def Obligations.ResetsAndSupplies : Prop :=
  (∀ (c : CoreId) (s : State), exec (.coreReset c) s = .next (if (s.core c.val).power = .off then s else s.resetCore c.val .zeroing))
  ∧ (∀ (c : CoreId) (s : State), (s.core c.val).power ≠ .off →
    ∃ t : State, exec (.coreReset c) s = .next t ∧ (t.core c.val).power = .zeroing ∧ (t.core c.val).threads = [] ∧ (t.core c.val).queue = []
      ∧ (t.core c.val).run = none ∧ (t.core c.val).reqs = [] ∧ (t.core c.val).sram = [] ∧ (t.core c.val).istore = [])
  ∧ (∀ (c : CoreId) (s : State), (s.core c.val).power ≠ .off → (s.core c.val).inbound = [] → (s.core c.val).outQ = [] → (s.core c.val).outWait = [] →
    (∀ n ∈ clusterCores (coreCluster c.val), beatsFor c.val (s.core n) = []) →
    ∃ t : State, exec (.coreReset c) s = .next t ∧ t.hbm = s.hbm
      ∧ ∀ d, d ≠ c.val → (t.core d).threads = (s.core d).threads ∧ (t.core d).sram = (s.core d).sram ∧ (t.core d).istore = (s.core d).istore)
  ∧ (∀ (st c : Nat) (b : Beat) (l : List Beat) (p : Pkt) (s : State), b.pkt = some p → isCplOp p.op = false →
    answerReset st s c (b :: l) =
      if p.dst = coordOf s.selfNum c ∧ p.tc ≠ 0 then answerReset st (s.answer p (cplOp p.op) st []) c l else answerReset st s c l)
  ∧ (∀ (g : ClusterId) (s : State), exec (.clusterReset g) s = .next (s.resetCluster g.val .zeroing))
  ∧ (∀ (g : ClusterId) (s : State),
    ∃ t : State, exec (.clusterReset g) s = .next t ∧ (∀ n, t.tally g.val n = 0) ∧ (t.gw g.val).ordered = [] ∧ (t.gw g.val).posts = []
      ∧ ∀ c ∈ clusterCores g.val, (s.core c).power ≠ .off → (t.core c).power = .zeroing)
  ∧ (∀ (g : ClusterId) (who : Nat) (tag : BitVec 12) (s : State) (x : Option Orphan),
    (s.gw g.val).orphans.find? (fun o => decide (o.who = who) && decide (o.tag = tag.toNat)) = x →
    exec (.orphanTagTimeout g who tag) s = .next (match x with
      | some o => State.onFctr (s.setGw g.val { s.gw g.val with orphans := removeFirst o (s.gw g.val).orphans }) o.barn fun f => f.subUse o.tc o.units
      | none => s))
  ∧ (∀ (s : State), exec .packageReset s = .next (if s.pins.vaux = true then s.packageReset else s))
  ∧ (∀ (s : State), s.packageReset.cores = [] ∧ s.packageReset.hbm = [] ∧ s.packageReset.barns = [] ∧ s.packageReset.berths = []
      ∧ s.packageReset.net = [] ∧ s.packageReset.links = [] ∧ s.packageReset.ports = [] ∧ s.packageReset.ready = false ∧ s.packageReset.reckon = 0
      ∧ s.packageReset.bu = .init ∧ s.packageReset.helm = .init ∧ s.packageReset.gleaner = { Gleaner.init with
          fatal := s.gleaner.fatal, shutdown := s.gleaner.shutdown, shutWhere := s.gleaner.shutWhere, latched := s.gleaner.latched, seq := s.gleaner.seq })
  ∧ (∀ (s : State), s.packageReset.nv = s.nv ∧ s.packageReset.variant = s.variant ∧ s.packageReset.repairs = s.repairs
      ∧ s.packageReset.reports = s.reports ∧ s.packageReset.factoryMode = s.factoryMode ∧ s.packageReset.pending = s.pending
      ∧ s.packageReset.freeCtr = s.freeCtr ∧ s.packageReset.alm.time = s.alm.time ∧ s.packageReset.alm.valid = s.alm.valid
      ∧ s.packageReset.alm.drift = s.alm.drift ∧ ∀ g, (s.granule g).retired = true → (s.packageReset.granule g).retired = true)
  ∧ (∀ (s u : State), u = { s with pins := { s.pins with perst := false, pcie := false } } →
    exec .perstAssert s = .next (if s.pins.vaux = true then u.packageReset else u))
  ∧ (∀ (s : State), exec .perstRelease s = .next (
      if s.pins.vaux = true then { s with pins := { s.pins with perst := true, pcie := true } } else s))
  ∧ (∀ (s : State), s.pins.vaux = false → exec .vauxLoss s = .next s)
  ∧ (∀ (s : State), s.pins.vaux = true →
    ∃ t : State, exec .vauxLoss s = .next t ∧ t.pins.vaux = false ∧ t.pins.pcie = false ∧ t.pins.sampled = false ∧ t.pins.thermN = false
      ∧ t.cores = [] ∧ t.hbm = [] ∧ t.barns = [] ∧ t.reckon = 0 ∧ t.bu = .init ∧ t.helm = .init ∧ t.gleaner = .init ∧ t.nv = s.nv
      ∧ (s.pins.vbat = true → t.alm.time = s.alm.time ∧ t.alm.valid = s.alm.valid) ∧ (s.pins.vbat = false → t.alm = .init))
  ∧ (∀ (b : Bool) (s : State), exec (.vauxPowerOn b) s = .next (if s.pins.vaux = true then s else State.packageReset { s with
      pins := { s.pins with vaux := true, vbat := b, perst := false, pcie := false, sampled := false }
      factoryMode := false, gleaner := .init, reports := [], alm := { s.alm with vbatLow := !b } }))
  ∧ (∀ (a b : Bool) (n : Fin 4) (s : State), exec (.strapSample a b n) s = .next (if s.pins.vaux = true ∧ s.pins.sampled = false then { s with
      pins := { s.pins with sampled := true, testmode := a, sris := b, i3cAddr := n.val }, factoryMode := a && !s.nv.factoryClosed } else s))
  ∧ (∀ (s : State), exec .vbatLoss s = .next { s with
      pins := { s.pins with vbat := false }
      alm := if s.pins.vaux = true then { s.alm with vbatLow := true } else { Almanac.init with vbatLow := true } })
  ∧ (∀ (s u : State), u = { s with pins := { s.pins with vin48 := false, vinOpen := true, discharging := true } } →
    exec .vin48Loss s = .next (
      if s.pins.vaux = false then s else if s.gleaner.fatal = true ∨ s.bu.stage < 3 then u
      else if s.bu.stage = 3 ∧ s.bu.st = .running then u.buSet .failed 0x01 else u.vinReset))
  ∧ (∀ (s : State), s.vinReset.bu.stage = 2 ∧ s.vinReset.bu.st = .done ∧ s.vinReset.bu.result = 0 ∧ s.vinReset.cores = [] ∧ s.vinReset.hbm = []
      ∧ s.vinReset.barns = [] ∧ s.vinReset.links = [] ∧ s.vinReset.ports = [] ∧ s.vinReset.ready = false ∧ s.vinReset.helm = s.helm
      ∧ s.vinReset.reckon = s.reckon ∧ s.vinReset.alm = s.alm ∧ s.vinReset.clock = s.clock ∧ s.vinReset.nv = s.nv ∧ s.vinReset.plan = s.plan
      ∧ s.vinReset.berths = s.berths ∧ s.vinReset.gleaner = { s.gleaner with ring := [] })
  ∧ (∀ (s : State) (o : Op), s.op o.num = some o → o.fin = none → o.opcode ≠ 0x0102 → (∀ x ∈ s.ops, x.num = o.num → x = o) →
    ∃ x, s.vinReset.op o.num = some x ∧ x.fin = some (5, 0x25))
  ∧ (∀ (s : State), exec .vin48DischargeEnd s = .next { s with pins := { s.pins with discharging := false } })
  ∧ (∀ (b : Fin 4) (trims : List (BitVec 32 × Byte)) (s : State), bitAt s.pins.intlk b.val = false → exec (.interlockOpen b trims) s = .next s)
  ∧ ∀ (b : Fin 4) (trims : List (BitVec 32 × Byte)) (s : State), bitAt s.pins.intlk b.val = true →
    ∃ t : State, exec (.interlockOpen b trims) s = .next t ∧ bitAt t.pins.intlk b.val = false
      ∧ (∀ k, k < 4 → k ≠ b.val → bitAt t.pins.intlk k = bitAt s.pins.intlk k)
      ∧ (∀ i, i < 3 → (t.module (3 * b.val + i)).admitted = false ∧ bitAt t.pins.lhEn (3 * b.val + i) = false)
      ∧ ∀ i, i < 18 → (t.port (18 * b.val + i)).st ≠ .up

/-- R83, R387 to R407: the clock's tick on an empty queue, the reference's fault, the servo's measurements, the configuration that waits for an edge or an
exchange, PPS edges, the time exchange, the almanac as it is set and as it counts, the meters' boundaries, and the hold cycles of a frame. That an empty
queue ticks is the model's choice (log 1). -/
def Obligations.TimeAndMeters : Prop :=
  (∀ (s : State), s.pending = [] → step s = .next s.tick)
  ∧ (∀ (s : State), exec .refclkFault s = .next (if s.clock.pllHeld = true then s else
      State.report { s with clock := { s.clock with pllHeld := true } } 0x33 1 0))
  ∧ (∀ (s : State), s.timeApply = match s.clock.next with
      | none => s
      | some (src, port, period) => { s with clock := { s.clock with
          next := none, source := src, port := port, period := period, locked := false, good := 0, miss := 0, owed := 0, exch := none, depth := 0 } })
  ∧ (∀ (sub : Fin 20) (s : State), exec (.ppsEdge sub) s = exec (.ppsEdge sub) s.timeApply ∧ exec .timeExchPeriod s = exec .timeExchPeriod s.timeApply)
  ∧ (∀ (sub : Fin 20) (s : State), s.clock.next = none → s.clock.ppsEn = false →
    exec (.ppsEdge sub) s = .next (if s.alm.discipline = 1 then s.almPps else s))
  ∧ (∀ (sub : Fin 20) (s u v : State) (cap : Nat), s.clock.next = none → s.clock.ppsEn = true → cap = (s.reckon + sub.val) % 2 ^ 64 →
    u = { s with clock := { s.clock with ppsCapture := cap, ppsSeen := true, ppsLast := some cap } } →
    v = (if s.clock.source ≠ 1 ∨ s.clock.ppsAlign = false then u
      else if s.clock.ppsLast.any (fun t => decide (cap < 8000000000 + t) || decide (24000000000 + t < cap)) = true then u.timeMissing
      else u.timeMeasure (if cap % 16000000000 ≤ 8000000000 then ((cap % 16000000000 : Nat) : Int) else ((cap % 16000000000 : Nat) : Int) - 16000000000)) →
    exec (.ppsEdge sub) s = .next (if v.alm.discipline = 1 then v.almPps else v))
  ∧ (∀ (s : State) (θ : Int), (s.timeMeasure θ).clock.good = (if θ.natAbs ≤ 32 then min 8 (s.clock.good + 1) else 0)
    ∧ (s.timeMeasure θ).clock.miss = 0 ∧ (s.timeMeasure θ).clock.offset = max (-32768) (min 32767 θ)
    ∧ (s.timeMeasure θ).clock.locked = (decide (θ.natAbs ≤ 128) && (s.clock.locked || (decide (θ.natAbs ≤ 32) && decide (7 ≤ s.clock.good))))
    ∧ (s.timeMeasure θ).reports = s.reports ++ (if s.clock.locked = true ∧ 128 < θ.natAbs then [⟨0x19, s.selfNum, 0, s.reckon, none⟩] else []))
  ∧ (∀ (s : State) (θ : Int), (s.timeMeasure θ).clock.locked = false → θ < -16000000 →
    (s.timeMeasure θ).reckon = (s.reckon + θ.natAbs) % 2 ^ 64 ∧ (s.timeMeasure θ).clock.owed = 0)
  ∧ (∀ (s : State) (θ : Int), (s.timeMeasure θ).clock.locked = true ∨ -16000000 ≤ θ →
    (s.timeMeasure θ).reckon = s.reckon ∧ (s.timeMeasure θ).clock.owed = -θ)
  ∧ (∀ (s : State), s.timeMissing = { s with
      clock := { s.clock with good := 0, miss := min 8 (s.clock.miss + 1), locked := s.clock.locked && decide (min 8 (s.clock.miss + 1) < 8) }
      reports := s.reports ++ if s.clock.locked = true ∧ 7 ≤ s.clock.miss then [⟨0x19, s.selfNum, 0, s.reckon, none⟩] else [] })
  ∧ (∀ (s : State), s.clock.next = none → s.clock.source ≠ 2 → exec .timeExchPeriod s = .next s)
  ∧ (∀ (s u : State) (q : Nat), s.clock.next = none → s.clock.source = 2 →
    u = (if s.clock.exch = none then s else State.timeMissing { s with clock := { s.clock with exch := none } }) →
    q = (s.clock.exchSeq + 1) % 65536 →
    exec .timeExchPeriod s = .next (if (s.port s.clock.port).st ≠ .up then u.timeMissing else
      State.timeSend { u with clock := { u.clock with exchSeq := q, exch := some (q, s.reckon) } } s.clock.port (timeBody 1 0 q 0 0)))
  ∧ (∀ (p : Pkt) (v : BitVec 64) (r : Bool) (s : State), p.taken = false → exec (.timeExch p v r) s = .next ((s.consume p).endTc0 p))
  ∧ (∀ (p : Pkt) (v : BitVec 64) (r : Bool) (s : State) (x : Option Nat), p.taken = true → leVal (p.payload.take 1) = 1 →
    (List.range 72).find? (fun q => (s.port q).peerValid && decide ((s.port q).peer = epPkg p.src)
      && decide ((s.port q).peerPort = coursePort p.course 0)) = x →
    exec (.timeExch p v r) s = .next (match x with
      | none => s.consume p
      | some q => (s.consume p).timeSend q (timeBody 2 (boolNat (s.clock.locked || decide (s.clock.source ≠ 2)))
          (leVal ((p.payload.drop 2).take 2)) s.clock.depth v.toNat)))
  ∧ (∀ (p : Pkt) (v : BitVec 64) (r : Bool) (s : State), p.taken = true → leVal (p.payload.take 1) ≠ 1 →
    leVal (p.payload.take 1) ≠ 2 ∨ s.clock.source ≠ 2 ∨ s.clock.exch = none → exec (.timeExch p v r) s = .next (s.consume p))
  ∧ (∀ (p : Pkt) (v : BitVec 64) (r : Bool) (s u : State) (seq t1 : Nat), p.taken = true → leVal (p.payload.take 1) = 2 → s.clock.source = 2 →
    s.clock.exch = some (seq, t1) →
    u = { s.consume p with clock := { s.clock with exch := if leVal ((p.payload.drop 2).take 2) = seq then none else s.clock.exch } } →
    (r = true ∨ leVal ((p.payload.drop 2).take 2) ≠ seq ∨ 3200000 * s.clock.period + t1 < v.toNat → exec (.timeExch p v r) s = .next u.timeMissing)
    ∧ (r = false → leVal ((p.payload.drop 2).take 2) = seq → v.toNat ≤ 3200000 * s.clock.period + t1 → 6 ≤ leVal ((p.payload.drop 4).take 1) →
      exec (.timeExch p v r) s = .next (if s.clock.depthNoted = true then u.timeMissing
        else State.timeNote { u.timeMissing with clock := { u.timeMissing.clock with depthNoted := true } }))
    ∧ (r = false → leVal ((p.payload.drop 2).take 2) = seq → v.toNat ≤ 3200000 * s.clock.period + t1 → leVal ((p.payload.drop 4).take 1) < 6 →
      exec (.timeExch p v r) s = .next (State.timeMeasure { (u.free 1).2 with
        clock := { (u.free 1).2.clock with depth := min 255 (leVal ((p.payload.drop 4).take 1) + 1), depthNoted := false } }
        (((v.toNat : Int) - (leVal ((p.payload.drop 16).take 8) : Nat) - ((leVal ((p.payload.drop 8).take 8) : Nat) - (t1 : Int)) + ((u.free 1).1 : Int)) / 2))))
  ∧ (∀ (v : BitVec 32) (s : State), exec (.almanacSet v) s = .next (s.almCtl v.toNat))
  ∧ (∀ (s : State), s.alm.discipline < 4 → s.almCtl 0x00010001 = s.almLoad s.alm.set)
  ∧ (∀ (s : State) (e : Nat), e < 4 → s.almCtl (0x00060000 + 2 * e) = if e = 3 then s else { s with alm := { s.alm with discipline := e } })
  ∧ (∀ (s : State) (t : Nat), (s.almLoad t).alm.time = t ∧ (s.almLoad t).alm.valid = true ∧ (s.almLoad t).alm.sub = 0
    ∧ (s.alm.lastBoundary = none → (s.almLoad t).alm.setback = s.alm.setback ∧ (s.almLoad t).meters = s.meters)
    ∧ ∀ b c, s.alm.lastBoundary = some b → c = min (s.alm.time / 2 ^ 24) b / s.alm.interval * s.alm.interval →
      (t < b * 2 ^ 24 → s.alm.time ≤ t ∨ t < c * 2 ^ 24 → (s.almLoad t).alm.setback = true)
      ∧ (b * 2 ^ 24 ≤ t ∨ (t < s.alm.time ∧ c * 2 ^ 24 ≤ t) → (s.almLoad t).alm.setback = s.alm.setback ∧ (s.almLoad t).meters = s.meters))
  ∧ (∀ (a : Almanac), a.left = 0 → a.tick = { a with
      time := (a.time + (a.sub + 2 ^ 24) / 800000000) % 2 ^ 64, sub := (a.sub + 2 ^ 24) % 800000000, owed := 0 })
  ∧ (∀ (s : State), s.alm.valid = false ∨ s.alm.time / 2 ^ 24 / s.alm.interval * s.alm.interval ≤ s.alm.lastBoundary.getD 0 →
    exec .meterBoundary s = .next s)
  ∧ (∀ (s : State) (b : Nat), s.alm.valid = true → b = s.alm.time / 2 ^ 24 / s.alm.interval * s.alm.interval → s.alm.lastBoundary.getD 0 < b →
    ∃ t : State, exec .meterBoundary s = .next t ∧ t.alm = { s.alm with lastBoundary := some b, interval := s.alm.nextInterval }
      ∧ ∀ k ∈ s.meterKeys, (t.meter k).opened = ⟨b * 2 ^ 24, s.reckon, 0, 0, 0, 0, 0, false⟩)
  ∧ (∀ (s : State) (d : Nat), tget 0 (s.dieTick d).dieCycle d = (tget 0 s.dieCycle d + 2) % 2 ^ 64
    ∧ tget 0 (s.dieTick d).dieStep d = (tget 0 s.dieStep d + s.freeCycles d) % 2 ^ 64)
  ∧ ∀ (h j : Nat), h ≤ 64 → ((List.range 64).filter fun k => isHold h (64 * j + k)).length = h

/-- R359, R416, R434 to R448, R457: reports become records in order, the least of one cycle first, are counted, promoted, escalated and latched;
class 4 sets FATAL; acknowledgement, FAULT_N, THERM_N, notices, the governor's steps and the random generator. -/
def Obligations.FaultHandling : Prop :=
  (∀ (s : State), s.reports = [] → exec .faultReport s = .next s)
  ∧ (∀ (s : State) (r : Report), s.reports = [r] →
    ∃ t f, exec .faultReport s = .next t ∧ t.gleaner.ring.getLast? = some f ∧ f.kind = r.kind ∧ f.detail = r.detailOf ∧ f.reckon = r.at_
      ∧ f.injected = false ∧ f.unit = unitKey (reportUnit r.kind r.unit).1 (reportUnit r.kind r.unit).2
      ∧ f.seq = (s.gleaner.seq + 1) % 2 ^ 32 ∧ t.gleaner.lastSeq = f.seq ∧ t.gleaner.lastClass = f.cls
      ∧ (f.cls < 4 → f.cls ∈ t.gleaner.pending) ∧ (f.cls = 4 → t.gleaner.fatal = true) ∧ (3 ≤ f.cls → t.gleaner.latched.getLast? = some f)
      ∧ (s.gleaner.minClass ≤ f.cls → t.gleaner.pulse = true) ∧ (1 ≤ f.cls → t.gleaner.notices = s.gleaner.notices ++ [f])
      ∧ (r.kind = 0x42 → t.gleaner.shutdown = true) ∧ t.pins.thermN = t.thermWant)
  ∧ (∀ (s : State) (a b : Report), s.reports = [a, b] → a.at_ = b.at_ → exec .faultReport s = .next (
      if reportLess b a = true then State.record { s with reports := [a] } b.kind (reportUnit b.kind b.unit).1 (reportUnit b.kind b.unit).2
        b.detailOf b.at_ b.base false
      else State.record { s with reports := [b] } a.kind (reportUnit a.kind a.unit).1 (reportUnit a.kind a.unit).2 a.detailOf a.at_ a.base false))
  ∧ (∀ (s : State), s.thermFollow = if s.pins.thermN = s.thermWant then s
      else { s with pins := { s.pins with thermN := s.thermWant }, out := s.out ++ [.thermN s.thermWant] })
  ∧ (∀ (g : Gleaner) (c : Counter) (base now : Nat), base < 4 → (g.cfg c.kind).n ≠ 0 → c.windowOpen now (g.cfg c.kind).window = true →
    c.count + 1 = (g.cfg c.kind).n → c.count < 65535 → c.marks = [] →
    (g.judgeCounter c base now).1.promoted = true ∧ (g.judgeCounter c base now).1.cls = base + 1)
  ∧ (∀ (g : Gleaner) (c : Counter) (base now : Nat), 1 ≤ base → base ≤ 3 → (g.cfg c.kind).n = 0 → c.windowOpen now (g.cfg c.kind).window = false →
    base ∈ c.marks → (g.judgeCounter c base now).1.escalated = true ∧ (g.judgeCounter c base now).1.cls = base + 1)
  ∧ (∀ (g : Gleaner) (c : Counter) (base now : Nat), base ≤ 4 → (g.cfg c.kind).n = 0 → c.windowOpen now (g.cfg c.kind).window = false → base ∉ c.marks →
    (g.judgeCounter c base now).1 = ⟨base, false, false, false, false⟩)
  ∧ (∀ (g : Gleaner) (kind key base now : Nat), g.counter kind key = none → 8192 ≤ (g.live now).length → (g.cfg kind).overflow < 65534 → base ≤ 4 →
    (g.judge kind key base now).1 = ⟨base, false, false, false, true⟩)
  ∧ (∀ (cls : Fin 4) (s : State), exec (.faultAck cls) s = .next (s.ackClasses (2 ^ cls.val)))
  ∧ (∀ (cls : Fin 4) (s : State),
    ∃ t : State, exec (.faultAck cls) s = .next t ∧ t.gleaner.pending = s.gleaner.pending.filter (fun c => decide (c ≠ cls.val))
      ∧ (∀ c ∈ t.gleaner.counters, cls.val ∉ c.marks)
      ∧ t.gleaner.ring = s.gleaner.ring ∧ t.gleaner.latched = s.gleaner.latched ∧ t.gleaner.fatal = s.gleaner.fatal)
  ∧ (∀ (s : State), exec .faultNPulseEnd s = .next (
      if s.gleaner.pulse = true then { s with gleaner := { s.gleaner with pulse := false, level := some s.gleaner.hold } } else s))
  ∧ (∀ (s : State), s.gleaner.notices = [] ∨ s.helmServes = false → exec .faultNoticePost s = .next s)
  ∧ (∀ (s : State) (r : FaultRec) (l : List FaultRec), s.gleaner.notices = r :: l → s.helmServes = true →
    exec .faultNoticePost s = .next (State.faultNotice { s with gleaner := { s.gleaner with notices := l } } r))
  ∧ (∀ (s : State) (r : FaultRec), r.cls < 3 → s.faultNotice r = (match r.barn with
      | some b => if 2 ≤ r.cls ∧ ((s.postNotice 256 0x03 r.bytes).postNotice 258 0x03 r.bytes).barnExists b = true then
          ((s.postNotice 256 0x03 r.bytes).postNotice 258 0x03 r.bytes).postNotice b 0x03 r.bytes
        else (s.postNotice 256 0x03 r.bytes).postNotice 258 0x03 r.bytes
      | none => (s.postNotice 256 0x03 r.bytes).postNotice 258 0x03 r.bytes))
  ∧ (∀ (k : BitVec 16) (u : Nat) (s : State), s.gleaner.counter k.toNat u = none → exec (.countWindowEnd k u) s = .next s)
  ∧ (∀ (k : BitVec 16) (u : Nat) (s : State) (c : Counter), s.gleaner.counter k.toNat u = some c →
    exec (.countWindowEnd k u) s = .next (if s.reckon < 16000000 * (s.gleaner.cfg c.kind).window + c.opened then s else { s with
      gleaner := { s.gleaner with counters := (s.gleaner.counters.filter fun x => decide (x ≠ c))
        ++ if c.marks = [] then [] else [{ c with count := 0, sat := false }] } }))
  ∧ (∀ (d : DieId) (s : State) (h n : Nat) (hot : Bool), h = (match tget 0 s.holdNotice d.val with
        | 0 => s.holdOf d.val
        | n + 1 => n) →
    hot = (governorInputs d.val).any (fun n => (s.sensor n).throttle && (s.sensor n).last.any fun t => decide (throttleSet n ≤ t)) →
    n = (if hot = true then min 48 (h + 8) else if (governorInputs d.val).any (fun n => (s.sensor n).throttle) = true then h else h - 4) →
    exec (.governorTick d) s = .next (if n = h then s else { s with holdNotice := tset 0 s.holdNotice d.val (n + 1) }))
  ∧ ∀ (s : State), exec .rngHealthFailure s = .next (if s.rngStopped = true then s else State.report { s with rngStopped := true } 0x32 s.selfNum 0)

/-! The whole machine. -/

/-- R392: the reckoning counter is 0 after reset and after a package reset; at a tick it advances by 20, or by 21 or 19 where a correction is
owed and 127 ticks have passed since the last such tick, modulo 2^64; it steps only forward, while unlocked and more than 1 ms behind. -/
def Obligations.ReckoningCounter : Prop :=
  State.reset.reckon = 0
  ∧ (∀ (s : State), s.pins.vaux = true → ∃ t : State, exec .packageReset s = .next t ∧ t.reckon = 0)
  ∧ (∀ (s : State), s.pins.vaux = true → s.tick.reckon = (s.reckon +
      if s.clock.owed = 0 ∨ s.clock.sinceSlew < 127 then 20 else if 0 < s.clock.owed then 21 else 19) % 2 ^ 64)
  ∧ (∀ (s : State), s.pins.vaux = true → s.clock.owed ≠ 0 → 127 ≤ s.clock.sinceSlew → s.tick.clock.sinceSlew = 0
      ∧ s.tick.clock.owed.natAbs + 1 = s.clock.owed.natAbs)
  ∧ (∀ (s : State) (θ : Int), s.clock.locked = false → θ < -16000000 →
    (s.timeCorrect θ).reckon = (s.reckon + θ.natAbs) % 2 ^ 64 ∧ (s.timeCorrect θ).clock.owed = 0)
  ∧ ∀ (s : State) (θ : Int), s.clock.locked = true ∨ -16000000 ≤ θ → (s.timeCorrect θ).reckon = s.reckon ∧ (s.timeCorrect θ).clock.owed = -θ

/-- What reset leaves (Tables 14-5 to 14-14, R222, R225, R384, R392): no command waits, memory lists nothing, bring-up stands before its first stage,
the helm in its ROM, the counter at 0, no barn, no fault, FAULT_N's fields and the windows' settings at their reset values. The empty queue and
memory's form are the model's own (logs 1 and 8). -/
def Obligations.ResetLeaves : Prop :=
  State.reset.pending = [] ∧ State.reset.hbm = [] ∧ memWf State.reset.hbm = true ∧ (∀ c, State.reset.core c = Core.init)
  ∧ State.reset.bu.stage = 0 ∧ State.reset.bu.st = .idle ∧ State.reset.bu.warm = false ∧ State.reset.bu.accepted = false
  ∧ State.reset.helm.st = .rom ∧ State.reset.reckon = 0 ∧ State.reset.clock.source = 0 ∧ State.reset.clock.locked = false
  ∧ State.reset.ready = false ∧ (∀ b, State.reset.barnExists b = false)
  ∧ State.reset.gleaner.pending = [] ∧ State.reset.gleaner.fatal = false ∧ State.reset.gleaner.shutdown = false
  ∧ State.reset.gleaner.shutWhere = 0xFF ∧ State.reset.gleaner.hold = true ∧ State.reset.gleaner.minClass = 2
  ∧ State.reset.fsStatus = 7 * 2 ^ 5 ∧ State.reset.generation = 0
  ∧ State.reset.grantMax1 = 256 ∧ State.reset.grantMax3 = 1024
  ∧ State.reset.slices.foldl (· + ·) 0 = 8192 ∧ (∀ p, (State.reset.port p).st = .dark) ∧ ∀ b, (State.reset.berth b).rseq = 0

/-- R375, Table 15-5: no command and no tick changes the variant, the stepping, the serial number, the identity or the fused cores; ID_PART,
ID_RESOURCES and the map's header report the variant, and it fixes the core minimum, the granules and edge ports fitted, and the spans a plan may have. -/
def Obligations.VariantIsFused : Prop :=
  (∀ (s t : State), step s = .next t → t.variant = s.variant ∧ t.nv.stepping = s.nv.stepping ∧ t.nv.serial = s.nv.serial
    ∧ t.nv.idDigest = s.nv.idDigest ∧ t.nv.rom = s.nv.rom ∧ t.nv.fusedCores = s.nv.fusedCores ∧ t.nv.factoryClosed = s.nv.factoryClosed)
  ∧ (∀ (s : State), s.variant < 16 → s.nv.stepping < 256 → ∃ v, s.idReg 0 = some (4, v) ∧ bitsAt v 16 4 = s.variant ∧ v % 65536 = 0xF072)
  ∧ (∀ (s : State), ∃ v, s.idReg 0x30 = some (8, v) ∧ (s.usableCores < 65536 → s.usableGranules < 2048 →
      bitsAt v 27 7 = if s.variant = 3 then 40 else 72))
  ∧ (∀ (s : State), s.variant < 256 → leVal ((s.floorPlan.drop 2).take 1) = s.variant)
  ∧ coreMinimum 1 = 992 ∧ coreMinimum 2 = 960 ∧ coreMinimum 3 = 992
  ∧ (∀ (s : State) (d : Nat), ((List.range 64).filter fun g => s.granuleFitted (64 * d + g)).length = if s.variant = 2 then 48 else 64)
  ∧ ((List.range 72).filter (portFitted 1)).length = 72 ∧ ((List.range 72).filter (portFitted 2)).length = 72
  ∧ ((List.range 72).filter (portFitted 3)).length = 40
  ∧ (∀ (p : Plan), 1 < p.at 8 2 ∨ 32 < p.at 10 1 → p.refusal 3 ≠ none)
  ∧ ∀ (p : Plan) (v : Nat), 512 < p.at 8 2 → p.refusal v ≠ none

/-- R413: only SVN_ADVANCE at berth 256 changes the anti-rollback counter, while the helm is PAIRED and both halves run the running firmware,
and raises it to that firmware's SVN; it stays at most 64, and an image below it is refused in stage 2 and in an update. -/
def Obligations.RollbackCounter : Prop :=
  (∀ (c : Instr) (s t : State), exec c s = .next t → t.nv.rollback = s.nv.rollback ∨
    ∃ b k i, c = .svnAdvance b k ∧ b.val = 256 ∧ s.helm.st = .paired ∧ s.helm.image = some i ∧ s.helm.fwA = i.version ∧ s.helm.fwB = i.version
      ∧ t.nv.rollback = max s.nv.rollback (min 64 i.svn))
  ∧ (∀ (s t : State), s.nv.rollback ≤ 64 → step s = .next t → t.nv.rollback ≤ 64 ∧ s.nv.rollback ≤ t.nv.rollback)
  ∧ State.reset.nv.rollback ≤ 64
  ∧ (∀ (nv : NonVol) (i : FwImage), i.typ = 1 → i.signed = true → bitAt nv.revoked i.keySlot.val = false → i.svn < nv.rollback →
    nv.fwRefusal i = some 0x02)
  ∧ (∀ (s : State) (u : FwUpdate) (e : Nat), s.helm.update = some u → s.helm.st = .paired → s.helm.stopped = false → u.image.typ ≠ 2 →
    s.nv.fwRefusal u.image = some e →
    ∃ t : State, exec .fwUpdateSplit s = .next t ∧ t = (s.updateFail e).report 0x30 1 0 ∧ t.helm.st = .paired ∧ t.helm.update = none)
  ∧ ∀ (i : FwImage) (e : Nat) (s : State), s.bu.stage = 2 → s.bu.st = .running → s.gleaner.fatal = false → s.bu.took.getD 4 0 = 1 →
    s.bu.took.getD 1 0 ≠ 0 → s.bu.took.getD 0 0 % 64 = 0 → s.nv.fwRefusal i = some e →
    ∃ t : State, exec (.firmwareAuthentication (some i)) s = .next t ∧ t.bu.st = .failed ∧ t.bu.result = e ∧ t.helm = s.helm

/-- Every step keeps HBM in its canonical form: addresses strictly rising and no byte listed that equals what an unlisted address reads as, which is
0 by the model's choice (log 8). -/
def Obligations.HbmStaysCanonical : Prop :=
  ∀ (s t : State), memWf s.hbm = true → step s = .next t → memWf t.hbm = true

/-- Every command completes in every state, and leaves the queue to the step. That no command faults and none is refused is the model's choice (logs
1 and 2): a command whose condition does not hold changes nothing. -/
def Obligations.NoCommandStops : Prop :=
  ∀ (c : Instr) (s : State), ∃ t, exec c s = .next t ∧ t.pending = s.pending
end

