-- ==== Sys2Proof/Laws/Table.lean ====
section
/-! SUPPORT. Read-after-write and canonical-form laws of the sparse tables and byte memories. They hold of every table, canonical or
not, but where they say so. -/
namespace Sys2Proof

theorem tget_tput {β : Type} (d : β) (m : Map β) (k : Nat) (v : β) (j : Nat) :
    tget d (tput m k v) j = if j = k then v else tget d m j := by
  induction m with
  | nil => simp only [tput, tget]; by_cases h : k = j <;> simp [h, eq_comm]
  | cons e m ih =>
    obtain ⟨a, w⟩ := e
    simp only [tput]
    split
    · simp only [tget]
      by_cases h : j = k
      · simp [h]
      · rw [if_neg (fun e => h e.symm), if_neg h]
    · split
      · next h => subst h; simp only [tget]; by_cases h : j = a <;> simp [h, eq_comm]
      · next h1 h2 =>
        simp only [tget, ih]
        by_cases h : j = k
        · subst h; simp [h2]
        · simp [h]

theorem tget_tdel {β : Type} (d : β) (m : Map β) (k j : Nat) :
    tget d (tdel m k) j = if j = k then d else tget d m j := by
  induction m with
  | nil => simp [tdel, tget]
  | cons e m ih =>
    obtain ⟨a, w⟩ := e
    simp only [tdel]
    split
    · next h =>
      subst h; rw [ih]; simp only [tget]
      by_cases h : j = a
      · simp [h]
      · rw [if_neg h, if_neg h, if_neg (fun e => h e.symm)]
    · next h2 =>
      simp only [tget, ih]
      by_cases h : j = k
      · subst h; simp [h2]
      · simp [h]

/-- Reading a table after a write: the value written at its key, every other key as before. -/
@[simp] theorem tget_tset {β : Type} [DecidableEq β] (d : β) (m : Map β) (k : Nat) (v : β) (j : Nat) :
    tget d (tset d m k v) j = if j = k then v else tget d m j := by
  unfold tset; split
  · subst_vars; rw [tget_tdel]
  · rw [tget_tput]
theorem tget_tset_self {β : Type} [DecidableEq β] (d : β) (m : Map β) (k : Nat) (v : β) : tget d (tset d m k v) k = v := by simp
theorem tget_tset_of_ne {β : Type} [DecidableEq β] (d : β) (m : Map β) {k j : Nat} (v : β) (h : j ≠ k) :
    tget d (tset d m k v) j = tget d m j := by simp [h]

theorem twfFrom_mono {β : Type} [DecidableEq β] (d : β) (m : Map β) {a b : Nat} (h : a ≤ b) (w : twfFrom d b m = true) :
    twfFrom d a m = true := by
  cases m with
  | nil => rfl
  | cons e m => obtain ⟨j, v⟩ := e; simp only [twfFrom, Bool.and_eq_true, decide_eq_true_eq] at w ⊢; exact ⟨⟨by omega, w.1.2⟩, w.2⟩
theorem twfFrom_tput {β : Type} [DecidableEq β] (d : β) (m : Map β) (k : Nat) (v : β) (hv : v ≠ d) :
    ∀ lo, lo ≤ k → twfFrom d lo m = true → twfFrom d lo (tput m k v) = true := by
  induction m with
  | nil => intro lo h _; simp [tput, twfFrom, h, hv]
  | cons e m ih =>
    obtain ⟨a, w⟩ := e
    intro lo h hw
    simp only [twfFrom, Bool.and_eq_true, decide_eq_true_eq] at hw
    simp only [tput]
    split
    · simp only [twfFrom, Bool.and_eq_true, decide_eq_true_eq]; exact ⟨⟨h, hv⟩, ⟨by omega, hw.1.2⟩, hw.2⟩
    · split
      · subst_vars; simp only [twfFrom, Bool.and_eq_true, decide_eq_true_eq]; exact ⟨⟨h, hv⟩, hw.2⟩
      · simp only [twfFrom, Bool.and_eq_true, decide_eq_true_eq]; exact ⟨hw.1, ih _ (by omega) hw.2⟩
theorem twfFrom_tdel {β : Type} [DecidableEq β] (d : β) (m : Map β) (k : Nat) : ∀ lo, twfFrom d lo m = true → twfFrom d lo (tdel m k) = true := by
  induction m with
  | nil => intro lo _; rfl
  | cons e m ih =>
    obtain ⟨a, w⟩ := e
    intro lo hw
    simp only [twfFrom, Bool.and_eq_true, decide_eq_true_eq] at hw
    simp only [tdel]
    split
    · exact ih _ (twfFrom_mono d m (by omega) hw.2)
    · simp only [twfFrom, Bool.and_eq_true, decide_eq_true_eq]; exact ⟨hw.1, ih _ hw.2⟩
theorem twfFrom_filter {β : Type} [DecidableEq β] (d : β) (p : Nat × β → Bool) (m : Map β) :
    ∀ lo, twfFrom d lo m = true → twfFrom d lo (m.filter p) = true := by
  induction m with
  | nil => intro lo _; rfl
  | cons e m ih =>
    obtain ⟨a, w⟩ := e
    intro lo hw
    simp only [twfFrom, Bool.and_eq_true, decide_eq_true_eq] at hw
    rw [List.filter_cons]; split
    · simp only [twfFrom, Bool.and_eq_true, decide_eq_true_eq]; exact ⟨hw.1, ih _ hw.2⟩
    · exact ih _ (twfFrom_mono d m (by omega) hw.2)

/-- A write keeps the canonical form. -/
theorem twf_tset {β : Type} [DecidableEq β] (d : β) (m : Map β) (k : Nat) (v : β) (h : twf d m = true) : twf d (tset d m k v) = true := by
  unfold tset; split
  · exact twfFrom_tdel d m k 0 h
  · next hv => exact twfFrom_tput d m k v hv 0 (Nat.zero_le _) h

/-! Byte memories. -/

@[simp] theorem memGet_memSet (m : Mem) (a : Nat) (v : Byte) (x : Nat) : memGet (memSet m a v) x = if x = a then v else memGet m x :=
  tget_tset 0 m a v x
/-- Reading a byte after a write: the bytes written at their addresses, every other byte as before. -/
theorem memGet_memWrite (bs : List Byte) : ∀ (m : Mem) (a x : Nat),
    memGet (memWrite m a bs) x = if a ≤ x ∧ x < a + bs.length then bs.getD (x - a) 0 else memGet m x := by
  induction bs with
  | nil => intro m a x; simp only [memWrite, List.length_nil]; rw [if_neg (by omega)]
  | cons b bs ih =>
    intro m a x
    simp only [memWrite, ih, List.length_cons, memGet_memSet]
    rcases Nat.lt_trichotomy x a with h | h | h
    · rw [if_neg (by omega), if_neg (by omega), if_neg (by omega)]
    · subst h; rw [if_neg (by omega), if_pos rfl, if_pos (by omega)]; simp
    · obtain ⟨n, rfl⟩ : ∃ n, x = a + 1 + n := ⟨x - (a + 1), by omega⟩
      have e1 : a + 1 + n - (a + 1) = n := by omega
      have e2 : a + 1 + n - a = n + 1 := by omega
      rw [e1, e2]
      by_cases hn : n < bs.length
      · rw [if_pos (by omega), if_pos (by omega)]; simp
      · rw [if_neg (by omega), if_neg (by omega), if_neg (by omega)]
theorem tget_filter_key {β : Type} (d : β) (p : Nat → Bool) (m : Map β) (k : Nat) :
    tget d (m.filter fun e => p e.1) k = if p k = true then tget d m k else d := by
  induction m with
  | nil => simp [tget]
  | cons e m ih =>
    obtain ⟨a, w⟩ := e
    rw [List.filter_cons]
    split
    · next h =>
      simp only [tget, ih]
      split
      · subst_vars; simp_all
      · rfl
    · next h =>
      rw [ih]; simp only [tget]
      split
      · split
        · subst_vars; simp_all
        · rfl
      · rfl
/-- Zeroing a range: its bytes read zero, every other byte as before. -/
theorem memGet_memClear (m : Mem) (a n x : Nat) : memGet (memClear m a n) x = if a ≤ x ∧ x < a + n then 0 else memGet m x := by
  unfold memGet memClear
  rw [tget_filter_key (0 : Byte) (fun k => decide (k < a) || decide (a + n ≤ k)) m x]
  by_cases h : a ≤ x ∧ x < a + n
  · rw [if_pos h, if_neg (by simp; omega)]
  · rw [if_neg h, if_pos (by simp; omega)]
theorem memWf_memSet (m : Mem) (a : Nat) (v : Byte) (h : memWf m = true) : memWf (memSet m a v) = true := twf_tset 0 m a v h
/-- Every memory operation keeps the canonical form. -/
theorem memWf_memWrite (bs : List Byte) : ∀ (m : Mem) (a : Nat), memWf m = true → memWf (memWrite m a bs) = true := by
  induction bs with
  | nil => intro m a h; exact h
  | cons b bs ih => intro m a h; exact ih _ _ (memWf_memSet m a b h)
theorem memWf_memClear (m : Mem) (a n : Nat) (h : memWf m = true) : memWf (memClear m a n) = true :=
  twfFrom_filter (0 : Byte) _ m 0 h
theorem memRead_length (m : Mem) (a n : Nat) : (memRead m a n).length = n := by simp [memRead]
theorem leBytes_length (n x : Nat) : (leBytes n x).length = n := by
  induction n generalizing x with
  | zero => rfl
  | succ n ih => simp [leBytes, ih]

end Sys2Proof
end

