-- ==== Sys2Proof/Laws/State.lean ====
section
/-! SUPPORT. The updates of the state, field by field: what each reads back as, and every other field as before. No later proof needs to unfold a
record update. -/
namespace Sys2Proof.Machine
variable (s : State)

/-! What a table reads after its update. -/

@[simp] theorem State.core_setCore (c : Nat) (k : Core) (d : Nat) : (s.setCore c k).core d = if d = c then k else s.core d := by
  simp [State.core, State.setCore]
@[simp] theorem Core.th_setTh (k : Core) (u : Nat) (h : Thread) (v : Nat) : (k.setTh u h).th v = if v = u then h else k.th v := by
  simp [Core.th, Core.setTh]
@[simp] theorem State.core_setTh (c u : Nat) (h : Thread) (d : Nat) :
    (s.setTh c u h).core d = if d = c then (s.core c).setTh u h else s.core d := by simp [State.setTh]
@[simp] theorem State.th_setTh (c u : Nat) (h : Thread) (d v : Nat) :
    (s.setTh c u h).th d v = if d = c ∧ v = u then h else s.th d v := by
  simp only [State.th, State.core_setTh]
  by_cases hd : d = c
  · subst hd; simp
  · simp [hd]
@[simp] theorem State.gw_setGw (g : Nat) (w : Gateway) (j : Nat) : (s.setGw g w).gw j = if j = g then w else s.gw j := by
  simp [State.gw, State.setGw]
@[simp] theorem State.berth_setBerth (b : Nat) (h : Berth) (j : Nat) : (s.setBerth b h).berth j = if j = b then h else s.berth j := by
  simp [State.berth, State.setBerth]
@[simp] theorem State.port_setPort (p : Nat) (e : EdgePort) (j : Nat) : (s.setPort p e).port j = if j = p then e else s.port j := by
  simp [State.port, State.setPort]
@[simp] theorem State.fn_setFn (f : Nat) (x : Fn) (j : Nat) : (s.setFn f x).fn j = if j = f then x else s.fn j := by
  simp [State.fn, State.setFn]
@[simp] theorem State.mctr_onMctr (b : Nat) (f : MemCtr → MemCtr) (j : Nat) :
    (s.onMctr b f).mctr j = if j = b then f (s.mctr b) else s.mctr j := by simp [State.mctr, State.onMctr]
@[simp] theorem State.fctr_onFctr (b : Nat) (f : FabCtr → FabCtr) (j : Nat) :
    (s.onFctr b f).fctr j = if j = b then f (s.fctr b) else s.fctr j := by simp [State.fctr, State.onFctr]
@[simp] theorem State.core_issued (c u d : Nat) :
    (s.issued c u).core d = if d = c then (s.core c).issued u else s.core d := by simp [State.issued, State.onCore]
@[simp] theorem Core.th_issued (k : Core) (u v : Nat) : (k.issued u).th v = k.th v := rfl
@[simp] theorem State.th_issued (c u d v : Nat) : (s.issued c u).th d v = s.th d v := by
  simp only [State.th, State.core_issued]
  by_cases hd : d = c
  · subst hd; simp
  · simp [hd]
@[simp] theorem State.th_setPc (c u pc d v : Nat) :
    (s.setPc c u pc).th d v = if d = c ∧ v = u then { s.th c u with pc := pc } else s.th d v := by simp [State.setPc]

/-! Registers of a thread (R88): g0 stays zero and p0 stays one. -/

@[simp] theorem Thread.gr_zero (h : Thread) : h.gr 0 = 0 := rfl
@[simp] theorem Thread.gr_setG (h : Thread) (n : Nat) (v : BitVec 64) (m : Nat) :
    (h.setG n v).gr m = if m = n ∧ m ≠ 0 then v else h.gr m := by
  unfold Thread.setG Thread.gr
  by_cases hn : n = 0
  · subst hn; simp
  · by_cases hm : m = 0
    · subst hm; simp
    · simp [hn, hm]
@[simp] theorem Thread.pr_zero (h : Thread) : h.pr 0 = true := rfl
theorem Thread.pr_setP (h : Thread) (n : Nat) (b : Bool) {m : Nat} (hm : m < 8) :
    (h.setP n b).pr m = if m = n ∧ m ≠ 0 then b else h.pr m := by
  unfold Thread.setP Thread.pr
  by_cases hn : n = 0
  · subst hn; by_cases h0 : m = 0 <;> simp [h0]
  · by_cases h0 : m = 0
    · subst h0; simp [hn]
    · have hs : (1#8 <<< n).getLsbD m = decide (m = n) := by
        rw [BitVec.getLsbD_shiftLeft]
        by_cases he : m = n
        · subst he; simp [hm]
        · by_cases hl : m < n
          · simp [hl, he]
          · have : m - n ≠ 0 := by omega
            simp [he, BitVec.getLsbD_one, this]
      cases b <;> simp only [hn, h0, if_false, Bool.false_eq_true, if_true, decide_false, Bool.false_or, BitVec.getLsbD_and,
        BitVec.getLsbD_or, BitVec.getLsbD_not, hs, hm, decide_true, Bool.true_and] <;> by_cases he : m = n <;> simp [he, hn]
theorem Thread.setG_rest (h : Thread) (n : Nat) (v : BitVec 64) : { h.setG n v with g := h.g } = h := by
  unfold Thread.setG; split <;> rfl
theorem Thread.setP_rest (h : Thread) (n : Nat) (b : Bool) : { h.setP n b with p := h.p } = h := by
  unfold Thread.setP; split <;> rfl

@[simp] theorem Thread.setG_st (h : Thread) (n : Nat) (v : BitVec 64) : (h.setG n v).st = h.st := by unfold Thread.setG; split <;> rfl
@[simp] theorem Thread.setP_st (h : Thread) (n : Nat) (b : Bool) : (h.setP n b).st = h.st := by unfold Thread.setP; split <;> rfl
@[simp] theorem Thread.setG_pc (h : Thread) (n : Nat) (v : BitVec 64) : (h.setG n v).pc = h.pc := by unfold Thread.setG; split <;> rfl
@[simp] theorem Thread.setP_pc (h : Thread) (n : Nat) (b : Bool) : (h.setP n b).pc = h.pc := by unfold Thread.setP; split <;> rfl
@[simp] theorem Thread.setG_vmap (h : Thread) (n : Nat) (v : BitVec 64) : (h.setG n v).vmap = h.vmap := by unfold Thread.setG; split <;> rfl
@[simp] theorem Thread.setP_vmap (h : Thread) (n : Nat) (b : Bool) : (h.setP n b).vmap = h.vmap := by unfold Thread.setP; split <;> rfl
@[simp] theorem Thread.setG_fpflags (h : Thread) (n : Nat) (v : BitVec 64) : (h.setG n v).fpflags = h.fpflags := by unfold Thread.setG; split <;> rfl
@[simp] theorem Thread.setP_fpflags (h : Thread) (n : Nat) (b : Bool) : (h.setP n b).fpflags = h.fpflags := by unfold Thread.setP; split <;> rfl
@[simp] theorem Thread.setG_srSeed (h : Thread) (n : Nat) (v : BitVec 64) : (h.setG n v).srSeed = h.srSeed := by unfold Thread.setG; split <;> rfl
@[simp] theorem Thread.setP_srSeed (h : Thread) (n : Nat) (b : Bool) : (h.setP n b).srSeed = h.srSeed := by unfold Thread.setP; split <;> rfl
@[simp] theorem Thread.setG_srTag (h : Thread) (n : Nat) (v : BitVec 64) : (h.setG n v).srTag = h.srTag := by unfold Thread.setG; split <;> rfl
@[simp] theorem Thread.setP_srTag (h : Thread) (n : Nat) (b : Bool) : (h.setP n b).srTag = h.srTag := by unfold Thread.setP; split <;> rfl
@[simp] theorem Thread.setG_srStep (h : Thread) (n : Nat) (v : BitVec 64) : (h.setG n v).srStep = h.srStep := by unfold Thread.setG; split <;> rfl
@[simp] theorem Thread.setP_srStep (h : Thread) (n : Nat) (b : Bool) : (h.setP n b).srStep = h.srStep := by unfold Thread.setP; split <;> rfl
@[simp] theorem Thread.setG_fcause (h : Thread) (n : Nat) (v : BitVec 64) : (h.setG n v).fcause = h.fcause := by unfold Thread.setG; split <;> rfl
@[simp] theorem Thread.setP_fcause (h : Thread) (n : Nat) (b : Bool) : (h.setP n b).fcause = h.fcause := by unfold Thread.setP; split <;> rfl
@[simp] theorem Thread.setG_fpc (h : Thread) (n : Nat) (v : BitVec 64) : (h.setG n v).fpc = h.fpc := by unfold Thread.setG; split <;> rfl
@[simp] theorem Thread.setP_fpc (h : Thread) (n : Nat) (b : Bool) : (h.setP n b).fpc = h.fpc := by unfold Thread.setP; split <;> rfl
@[simp] theorem Thread.setG_faddr (h : Thread) (n : Nat) (v : BitVec 64) : (h.setG n v).faddr = h.faddr := by unfold Thread.setG; split <;> rfl
@[simp] theorem Thread.setP_faddr (h : Thread) (n : Nat) (b : Bool) : (h.setP n b).faddr = h.faddr := by unfold Thread.setP; split <;> rfl
@[simp] theorem Thread.setG_markers (h : Thread) (n : Nat) (v : BitVec 64) : (h.setG n v).markers = h.markers := by unfold Thread.setG; split <;> rfl
@[simp] theorem Thread.setP_markers (h : Thread) (n : Nat) (b : Bool) : (h.setP n b).markers = h.markers := by unfold Thread.setP; split <;> rfl
@[simp] theorem Thread.setG_bankOps (h : Thread) (n : Nat) (v : BitVec 64) : (h.setG n v).bankOps = h.bankOps := by unfold Thread.setG; split <;> rfl
@[simp] theorem Thread.setP_bankOps (h : Thread) (n : Nat) (b : Bool) : (h.setP n b).bankOps = h.bankOps := by unfold Thread.setP; split <;> rfl
@[simp] theorem Thread.setG_storeErr (h : Thread) (n : Nat) (v : BitVec 64) : (h.setG n v).storeErr = h.storeErr := by unfold Thread.setG; split <;> rfl
@[simp] theorem Thread.setP_storeErr (h : Thread) (n : Nat) (b : Bool) : (h.setP n b).storeErr = h.storeErr := by unfold Thread.setP; split <;> rfl
@[simp] theorem Thread.setG_extra (h : Thread) (n : Nat) (v : BitVec 64) : (h.setG n v).extra = h.extra := by unfold Thread.setG; split <;> rfl
@[simp] theorem Thread.setP_extra (h : Thread) (n : Nat) (b : Bool) : (h.setP n b).extra = h.extra := by unfold Thread.setP; split <;> rfl
@[simp] theorem Thread.setG_p (h : Thread) (n : Nat) (v : BitVec 64) : (h.setG n v).p = h.p := by unfold Thread.setG; split <;> rfl
@[simp] theorem Thread.setP_g (h : Thread) (n : Nat) (b : Bool) : (h.setP n b).g = h.g := by unfold Thread.setP; split <;> rfl

/-! Every field that an update does not name is as before. -/

@[simp] theorem State.setCore_pending (c : Nat) (k : Core) : (s.setCore c k).pending = s.pending := rfl
@[simp] theorem State.setCore_freeCtr (c : Nat) (k : Core) : (s.setCore c k).freeCtr = s.freeCtr := rfl
@[simp] theorem State.setCore_net (c : Nat) (k : Core) : (s.setCore c k).net = s.net := rfl
@[simp] theorem State.setCore_out (c : Nat) (k : Core) : (s.setCore c k).out = s.out := rfl
@[simp] theorem State.setCore_reports (c : Nat) (k : Core) : (s.setCore c k).reports = s.reports := rfl
@[simp] theorem State.setCore_reckon (c : Nat) (k : Core) : (s.setCore c k).reckon = s.reckon := rfl
@[simp] theorem State.setCore_dieCycle (c : Nat) (k : Core) : (s.setCore c k).dieCycle = s.dieCycle := rfl
@[simp] theorem State.setCore_dieStep (c : Nat) (k : Core) : (s.setCore c k).dieStep = s.dieStep := rfl
@[simp] theorem State.setCore_hold (c : Nat) (k : Core) : (s.setCore c k).hold = s.hold := rfl
@[simp] theorem State.setCore_holdNotice (c : Nat) (k : Core) : (s.setCore c k).holdNotice = s.holdNotice := rfl
@[simp] theorem State.setCore_meshDown (c : Nat) (k : Core) : (s.setCore c k).meshDown = s.meshDown := rfl
@[simp] theorem State.setCore_selfNum (c : Nat) (k : Core) : (s.setCore c k).selfNum = s.selfNum := rfl
@[simp] theorem State.setCore_selfValid (c : Nat) (k : Core) : (s.setCore c k).selfValid = s.selfValid := rfl
@[simp] theorem State.setCore_variant (c : Nat) (k : Core) : (s.setCore c k).variant = s.variant := rfl
@[simp] theorem State.setCore_ready (c : Nat) (k : Core) : (s.setCore c k).ready = s.ready := rfl
@[simp] theorem State.setCore_gateways (c : Nat) (k : Core) : (s.setCore c k).gateways = s.gateways := rfl
@[simp] theorem State.setCore_coreDown (c : Nat) (k : Core) : (s.setCore c k).coreDown = s.coreDown := rfl
@[simp] theorem State.setCore_dieDown (c : Nat) (k : Core) : (s.setCore c k).dieDown = s.dieDown := rfl
@[simp] theorem State.setCore_clusterDown (c : Nat) (k : Core) : (s.setCore c k).clusterDown = s.clusterDown := rfl
@[simp] theorem State.setCore_clusterUp (c : Nat) (k : Core) : (s.setCore c k).clusterUp = s.clusterUp := rfl
@[simp] theorem State.setCore_clusterOwner (c : Nat) (k : Core) : (s.setCore c k).clusterOwner = s.clusterOwner := rfl
@[simp] theorem State.setCore_barns (c : Nat) (k : Core) : (s.setCore c k).barns = s.barns := rfl
@[simp] theorem State.setCore_gangs (c : Nat) (k : Core) : (s.setCore c k).gangs = s.gangs := rfl
@[simp] theorem State.setCore_sheaf (c : Nat) (k : Core) : (s.setCore c k).sheaf = s.sheaf := rfl
@[simp] theorem State.setCore_sheafEarly (c : Nat) (k : Core) : (s.setCore c k).sheafEarly = s.sheafEarly := rfl
@[simp] theorem State.setCore_shLate (c : Nat) (k : Core) : (s.setCore c k).shLate = s.shLate := rfl
@[simp] theorem State.setCore_hbm (c : Nat) (k : Core) : (s.setCore c k).hbm = s.hbm := rfl
@[simp] theorem State.setCore_poison (c : Nat) (k : Core) : (s.setCore c k).poison = s.poison := rfl
@[simp] theorem State.setCore_granules (c : Nat) (k : Core) : (s.setCore c k).granules = s.granules := rfl
@[simp] theorem State.setCore_channels (c : Nat) (k : Core) : (s.setCore c k).channels = s.channels := rfl
@[simp] theorem State.setCore_queueOwner (c : Nat) (k : Core) : (s.setCore c k).queueOwner = s.queueOwner := rfl
@[simp] theorem State.setCore_queues (c : Nat) (k : Core) : (s.setCore c k).queues = s.queues := rfl
@[simp] theorem State.setCore_readAhead (c : Nat) (k : Core) : (s.setCore c k).readAhead = s.readAhead := rfl
@[simp] theorem State.setCore_rowWait (c : Nat) (k : Core) : (s.setCore c k).rowWait = s.rowWait := rfl
@[simp] theorem State.setCore_repairs (c : Nat) (k : Core) : (s.setCore c k).repairs = s.repairs := rfl
@[simp] theorem State.setCore_courses (c : Nat) (k : Core) : (s.setCore c k).courses = s.courses := rfl
@[simp] theorem State.setCore_srcWin (c : Nat) (k : Core) : (s.setCore c k).srcWin = s.srcWin := rfl
@[simp] theorem State.setCore_dstWin (c : Nat) (k : Core) : (s.setCore c k).dstWin = s.dstWin := rfl
@[simp] theorem State.setCore_pool1 (c : Nat) (k : Core) : (s.setCore c k).pool1 = s.pool1 := rfl
@[simp] theorem State.setCore_pool3 (c : Nat) (k : Core) : (s.setCore c k).pool3 = s.pool3 := rfl
@[simp] theorem State.setCore_grantQ (c : Nat) (k : Core) : (s.setCore c k).grantQ = s.grantQ := rfl
@[simp] theorem State.setCore_grantMax1 (c : Nat) (k : Core) : (s.setCore c k).grantMax1 = s.grantMax1 := rfl
@[simp] theorem State.setCore_grantMax3 (c : Nat) (k : Core) : (s.setCore c k).grantMax3 = s.grantMax3 := rfl
@[simp] theorem State.setCore_slices (c : Nat) (k : Core) : (s.setCore c k).slices = s.slices := rfl
@[simp] theorem State.setCore_fabCtr (c : Nat) (k : Core) : (s.setCore c k).fabCtr = s.fabCtr := rfl
@[simp] theorem State.setCore_memCtr (c : Nat) (k : Core) : (s.setCore c k).memCtr = s.memCtr := rfl
@[simp] theorem State.setCore_plan (c : Nat) (k : Core) : (s.setCore c k).plan = s.plan := rfl
@[simp] theorem State.setCore_ports (c : Nat) (k : Core) : (s.setCore c k).ports = s.ports := rfl
@[simp] theorem State.setCore_pairTable (c : Nat) (k : Core) : (s.setCore c k).pairTable = s.pairTable := rfl
@[simp] theorem State.setCore_pairRecs (c : Nat) (k : Core) : (s.setCore c k).pairRecs = s.pairRecs := rfl
@[simp] theorem State.setCore_pseq (c : Nat) (k : Core) : (s.setCore c k).pseq = s.pseq := rfl
@[simp] theorem State.setCore_chaff (c : Nat) (k : Core) : (s.setCore c k).chaff = s.chaff := rfl
@[simp] theorem State.setCore_twin (c : Nat) (k : Core) : (s.setCore c k).twin = s.twin := rfl
@[simp] theorem State.setCore_berths (c : Nat) (k : Core) : (s.setCore c k).berths = s.berths := rfl
@[simp] theorem State.setCore_posted (c : Nat) (k : Core) : (s.setCore c k).posted = s.posted := rfl
@[simp] theorem State.setCore_inbox (c : Nat) (k : Core) : (s.setCore c k).inbox = s.inbox := rfl
@[simp] theorem State.setCore_inboxLost (c : Nat) (k : Core) : (s.setCore c k).inboxLost = s.inboxLost := rfl
@[simp] theorem State.setCore_ops (c : Nat) (k : Core) : (s.setCore c k).ops = s.ops := rfl
@[simp] theorem State.setCore_opsEnded (c : Nat) (k : Core) : (s.setCore c k).opsEnded = s.opsEnded := rfl
@[simp] theorem State.setCore_opNext (c : Nat) (k : Core) : (s.setCore c k).opNext = s.opNext := rfl
@[simp] theorem State.setCore_fmPeers (c : Nat) (k : Core) : (s.setCore c k).fmPeers = s.fmPeers := rfl
@[simp] theorem State.setCore_factoryMode (c : Nat) (k : Core) : (s.setCore c k).factoryMode = s.factoryMode := rfl
@[simp] theorem State.setCore_fns (c : Nat) (k : Core) : (s.setCore c k).fns = s.fns := rfl
@[simp] theorem State.setCore_vfEnable (c : Nat) (k : Core) : (s.setCore c k).vfEnable = s.vfEnable := rfl
@[simp] theorem State.setCore_numVfs (c : Nat) (k : Core) : (s.setCore c k).numVfs = s.numVfs := rfl
@[simp] theorem State.setCore_aptReqs (c : Nat) (k : Core) : (s.setCore c k).aptReqs = s.aptReqs := rfl
@[simp] theorem State.setCore_aptReads (c : Nat) (k : Core) : (s.setCore c k).aptReads = s.aptReads := rfl
@[simp] theorem State.setCore_aptNext (c : Nat) (k : Core) : (s.setCore c k).aptNext = s.aptNext := rfl
@[simp] theorem State.setCore_aptWait (c : Nat) (k : Core) : (s.setCore c k).aptWait = s.aptWait := rfl
@[simp] theorem State.setCore_hseq (c : Nat) (k : Core) : (s.setCore c k).hseq = s.hseq := rfl
@[simp] theorem State.setCore_hstart (c : Nat) (k : Core) : (s.setCore c k).hstart = s.hstart := rfl
@[simp] theorem State.setCore_advised (c : Nat) (k : Core) : (s.setCore c k).advised = s.advised := rfl
@[simp] theorem State.setCore_meters (c : Nat) (k : Core) : (s.setCore c k).meters = s.meters := rfl
@[simp] theorem State.setCore_frozen (c : Nat) (k : Core) : (s.setCore c k).frozen = s.frozen := rfl
@[simp] theorem State.setCore_links (c : Nat) (k : Core) : (s.setCore c k).links = s.links := rfl
@[simp] theorem State.setCore_lanes (c : Nat) (k : Core) : (s.setCore c k).lanes = s.lanes := rfl
@[simp] theorem State.setCore_modules (c : Nat) (k : Core) : (s.setCore c k).modules = s.modules := rfl
@[simp] theorem State.setCore_pathSets (c : Nat) (k : Core) : (s.setCore c k).pathSets = s.pathSets := rfl
@[simp] theorem State.setCore_steers (c : Nat) (k : Core) : (s.setCore c k).steers = s.steers := rfl
@[simp] theorem State.setCore_cands (c : Nat) (k : Core) : (s.setCore c k).cands = s.cands := rfl
@[simp] theorem State.setCore_dieWait (c : Nat) (k : Core) : (s.setCore c k).dieWait = s.dieWait := rfl
@[simp] theorem State.setCore_ackPtr (c : Nat) (k : Core) : (s.setCore c k).ackPtr = s.ackPtr := rfl
@[simp] theorem State.setCore_unreached (c : Nat) (k : Core) : (s.setCore c k).unreached = s.unreached := rfl
@[simp] theorem State.setCore_zones (c : Nat) (k : Core) : (s.setCore c k).zones = s.zones := rfl
@[simp] theorem State.setCore_cal (c : Nat) (k : Core) : (s.setCore c k).cal = s.cal := rfl
@[simp] theorem State.setCore_calQueue (c : Nat) (k : Core) : (s.setCore c k).calQueue = s.calQueue := rfl
@[simp] theorem State.setCore_relocks (c : Nat) (k : Core) : (s.setCore c k).relocks = s.relocks := rfl
@[simp] theorem State.setCore_ringWarn (c : Nat) (k : Core) : (s.setCore c k).ringWarn = s.ringWarn := rfl
@[simp] theorem State.setCore_ringAct (c : Nat) (k : Core) : (s.setCore c k).ringAct = s.ringAct := rfl
@[simp] theorem State.setCore_ringRes (c : Nat) (k : Core) : (s.setCore c k).ringRes = s.ringRes := rfl
@[simp] theorem State.setCore_rxOut (c : Nat) (k : Core) : (s.setCore c k).rxOut = s.rxOut := rfl
@[simp] theorem State.setCore_sensors (c : Nat) (k : Core) : (s.setCore c k).sensors = s.sensors := rfl
@[simp] theorem State.setCore_accepted (c : Nat) (k : Core) : (s.setCore c k).accepted = s.accepted := rfl
@[simp] theorem State.setCore_peerMinSvn (c : Nat) (k : Core) : (s.setCore c k).peerMinSvn = s.peerMinSvn := rfl
@[simp] theorem State.setCore_rngStopped (c : Nat) (k : Core) : (s.setCore c k).rngStopped = s.rngStopped := rfl
@[simp] theorem State.setCore_helm (c : Nat) (k : Core) : (s.setCore c k).helm = s.helm := rfl
@[simp] theorem State.setCore_clock (c : Nat) (k : Core) : (s.setCore c k).clock = s.clock := rfl
@[simp] theorem State.setCore_alm (c : Nat) (k : Core) : (s.setCore c k).alm = s.alm := rfl
@[simp] theorem State.setCore_gleaner (c : Nat) (k : Core) : (s.setCore c k).gleaner = s.gleaner := rfl
@[simp] theorem State.setCore_pins (c : Nat) (k : Core) : (s.setCore c k).pins = s.pins := rfl
@[simp] theorem State.setCore_bu (c : Nat) (k : Core) : (s.setCore c k).bu = s.bu := rfl
@[simp] theorem State.setCore_ind (c : Nat) (k : Core) : (s.setCore c k).ind = s.ind := rfl
@[simp] theorem State.setCore_nv (c : Nat) (k : Core) : (s.setCore c k).nv = s.nv := rfl
@[simp] theorem State.setCore_resValid (c : Nat) (k : Core) : (s.setCore c k).resValid = s.resValid := rfl
@[simp] theorem State.setCore_rcalBoot (c : Nat) (k : Core) : (s.setCore c k).rcalBoot = s.rcalBoot := rfl
@[simp] theorem State.setCore_rcalHeld (c : Nat) (k : Core) : (s.setCore c k).rcalHeld = s.rcalHeld := rfl
@[simp] theorem State.setCore_cross (c : Nat) (k : Core) : (s.setCore c k).cross = s.cross := rfl
@[simp] theorem State.setCore_dieCause (c : Nat) (k : Core) : (s.setCore c k).dieCause = s.dieCause := rfl
@[simp] theorem State.setCore_generation (c : Nat) (k : Core) : (s.setCore c k).generation = s.generation := rfl
@[simp] theorem State.setCore_changed (c : Nat) (k : Core) : (s.setCore c k).changed = s.changed := rfl
@[simp] theorem State.setCore_calImage (c : Nat) (k : Core) : (s.setCore c k).calImage = s.calImage := rfl
@[simp] theorem State.setCore_bist (c : Nat) (k : Core) : (s.setCore c k).bist = s.bist := rfl
@[simp] theorem State.setCore_releaseWait (c : Nat) (k : Core) : (s.setCore c k).releaseWait = s.releaseWait := rfl
@[simp] theorem State.setCore_capture (c : Nat) (k : Core) : (s.setCore c k).capture = s.capture := rfl
@[simp] theorem State.setCore_calHeld (c : Nat) (k : Core) : (s.setCore c k).calHeld = s.calHeld := rfl
@[simp] theorem State.setCore_standby (c : Nat) (k : Core) : (s.setCore c k).standby = s.standby := rfl

@[simp] theorem State.setTh_pending (c u : Nat) (h : Thread) : (s.setTh c u h).pending = s.pending := rfl
@[simp] theorem State.setTh_freeCtr (c u : Nat) (h : Thread) : (s.setTh c u h).freeCtr = s.freeCtr := rfl
@[simp] theorem State.setTh_net (c u : Nat) (h : Thread) : (s.setTh c u h).net = s.net := rfl
@[simp] theorem State.setTh_out (c u : Nat) (h : Thread) : (s.setTh c u h).out = s.out := rfl
@[simp] theorem State.setTh_reports (c u : Nat) (h : Thread) : (s.setTh c u h).reports = s.reports := rfl
@[simp] theorem State.setTh_reckon (c u : Nat) (h : Thread) : (s.setTh c u h).reckon = s.reckon := rfl
@[simp] theorem State.setTh_dieCycle (c u : Nat) (h : Thread) : (s.setTh c u h).dieCycle = s.dieCycle := rfl
@[simp] theorem State.setTh_dieStep (c u : Nat) (h : Thread) : (s.setTh c u h).dieStep = s.dieStep := rfl
@[simp] theorem State.setTh_hold (c u : Nat) (h : Thread) : (s.setTh c u h).hold = s.hold := rfl
@[simp] theorem State.setTh_holdNotice (c u : Nat) (h : Thread) : (s.setTh c u h).holdNotice = s.holdNotice := rfl
@[simp] theorem State.setTh_meshDown (c u : Nat) (h : Thread) : (s.setTh c u h).meshDown = s.meshDown := rfl
@[simp] theorem State.setTh_selfNum (c u : Nat) (h : Thread) : (s.setTh c u h).selfNum = s.selfNum := rfl
@[simp] theorem State.setTh_selfValid (c u : Nat) (h : Thread) : (s.setTh c u h).selfValid = s.selfValid := rfl
@[simp] theorem State.setTh_variant (c u : Nat) (h : Thread) : (s.setTh c u h).variant = s.variant := rfl
@[simp] theorem State.setTh_ready (c u : Nat) (h : Thread) : (s.setTh c u h).ready = s.ready := rfl
@[simp] theorem State.setTh_gateways (c u : Nat) (h : Thread) : (s.setTh c u h).gateways = s.gateways := rfl
@[simp] theorem State.setTh_coreDown (c u : Nat) (h : Thread) : (s.setTh c u h).coreDown = s.coreDown := rfl
@[simp] theorem State.setTh_dieDown (c u : Nat) (h : Thread) : (s.setTh c u h).dieDown = s.dieDown := rfl
@[simp] theorem State.setTh_clusterDown (c u : Nat) (h : Thread) : (s.setTh c u h).clusterDown = s.clusterDown := rfl
@[simp] theorem State.setTh_clusterUp (c u : Nat) (h : Thread) : (s.setTh c u h).clusterUp = s.clusterUp := rfl
@[simp] theorem State.setTh_clusterOwner (c u : Nat) (h : Thread) : (s.setTh c u h).clusterOwner = s.clusterOwner := rfl
@[simp] theorem State.setTh_barns (c u : Nat) (h : Thread) : (s.setTh c u h).barns = s.barns := rfl
@[simp] theorem State.setTh_gangs (c u : Nat) (h : Thread) : (s.setTh c u h).gangs = s.gangs := rfl
@[simp] theorem State.setTh_sheaf (c u : Nat) (h : Thread) : (s.setTh c u h).sheaf = s.sheaf := rfl
@[simp] theorem State.setTh_sheafEarly (c u : Nat) (h : Thread) : (s.setTh c u h).sheafEarly = s.sheafEarly := rfl
@[simp] theorem State.setTh_shLate (c u : Nat) (h : Thread) : (s.setTh c u h).shLate = s.shLate := rfl
@[simp] theorem State.setTh_hbm (c u : Nat) (h : Thread) : (s.setTh c u h).hbm = s.hbm := rfl
@[simp] theorem State.setTh_poison (c u : Nat) (h : Thread) : (s.setTh c u h).poison = s.poison := rfl
@[simp] theorem State.setTh_granules (c u : Nat) (h : Thread) : (s.setTh c u h).granules = s.granules := rfl
@[simp] theorem State.setTh_channels (c u : Nat) (h : Thread) : (s.setTh c u h).channels = s.channels := rfl
@[simp] theorem State.setTh_queueOwner (c u : Nat) (h : Thread) : (s.setTh c u h).queueOwner = s.queueOwner := rfl
@[simp] theorem State.setTh_queues (c u : Nat) (h : Thread) : (s.setTh c u h).queues = s.queues := rfl
@[simp] theorem State.setTh_readAhead (c u : Nat) (h : Thread) : (s.setTh c u h).readAhead = s.readAhead := rfl
@[simp] theorem State.setTh_rowWait (c u : Nat) (h : Thread) : (s.setTh c u h).rowWait = s.rowWait := rfl
@[simp] theorem State.setTh_repairs (c u : Nat) (h : Thread) : (s.setTh c u h).repairs = s.repairs := rfl
@[simp] theorem State.setTh_courses (c u : Nat) (h : Thread) : (s.setTh c u h).courses = s.courses := rfl
@[simp] theorem State.setTh_srcWin (c u : Nat) (h : Thread) : (s.setTh c u h).srcWin = s.srcWin := rfl
@[simp] theorem State.setTh_dstWin (c u : Nat) (h : Thread) : (s.setTh c u h).dstWin = s.dstWin := rfl
@[simp] theorem State.setTh_pool1 (c u : Nat) (h : Thread) : (s.setTh c u h).pool1 = s.pool1 := rfl
@[simp] theorem State.setTh_pool3 (c u : Nat) (h : Thread) : (s.setTh c u h).pool3 = s.pool3 := rfl
@[simp] theorem State.setTh_grantQ (c u : Nat) (h : Thread) : (s.setTh c u h).grantQ = s.grantQ := rfl
@[simp] theorem State.setTh_grantMax1 (c u : Nat) (h : Thread) : (s.setTh c u h).grantMax1 = s.grantMax1 := rfl
@[simp] theorem State.setTh_grantMax3 (c u : Nat) (h : Thread) : (s.setTh c u h).grantMax3 = s.grantMax3 := rfl
@[simp] theorem State.setTh_slices (c u : Nat) (h : Thread) : (s.setTh c u h).slices = s.slices := rfl
@[simp] theorem State.setTh_fabCtr (c u : Nat) (h : Thread) : (s.setTh c u h).fabCtr = s.fabCtr := rfl
@[simp] theorem State.setTh_memCtr (c u : Nat) (h : Thread) : (s.setTh c u h).memCtr = s.memCtr := rfl
@[simp] theorem State.setTh_plan (c u : Nat) (h : Thread) : (s.setTh c u h).plan = s.plan := rfl
@[simp] theorem State.setTh_ports (c u : Nat) (h : Thread) : (s.setTh c u h).ports = s.ports := rfl
@[simp] theorem State.setTh_pairTable (c u : Nat) (h : Thread) : (s.setTh c u h).pairTable = s.pairTable := rfl
@[simp] theorem State.setTh_pairRecs (c u : Nat) (h : Thread) : (s.setTh c u h).pairRecs = s.pairRecs := rfl
@[simp] theorem State.setTh_pseq (c u : Nat) (h : Thread) : (s.setTh c u h).pseq = s.pseq := rfl
@[simp] theorem State.setTh_chaff (c u : Nat) (h : Thread) : (s.setTh c u h).chaff = s.chaff := rfl
@[simp] theorem State.setTh_twin (c u : Nat) (h : Thread) : (s.setTh c u h).twin = s.twin := rfl
@[simp] theorem State.setTh_berths (c u : Nat) (h : Thread) : (s.setTh c u h).berths = s.berths := rfl
@[simp] theorem State.setTh_posted (c u : Nat) (h : Thread) : (s.setTh c u h).posted = s.posted := rfl
@[simp] theorem State.setTh_inbox (c u : Nat) (h : Thread) : (s.setTh c u h).inbox = s.inbox := rfl
@[simp] theorem State.setTh_inboxLost (c u : Nat) (h : Thread) : (s.setTh c u h).inboxLost = s.inboxLost := rfl
@[simp] theorem State.setTh_ops (c u : Nat) (h : Thread) : (s.setTh c u h).ops = s.ops := rfl
@[simp] theorem State.setTh_opsEnded (c u : Nat) (h : Thread) : (s.setTh c u h).opsEnded = s.opsEnded := rfl
@[simp] theorem State.setTh_opNext (c u : Nat) (h : Thread) : (s.setTh c u h).opNext = s.opNext := rfl
@[simp] theorem State.setTh_fmPeers (c u : Nat) (h : Thread) : (s.setTh c u h).fmPeers = s.fmPeers := rfl
@[simp] theorem State.setTh_factoryMode (c u : Nat) (h : Thread) : (s.setTh c u h).factoryMode = s.factoryMode := rfl
@[simp] theorem State.setTh_fns (c u : Nat) (h : Thread) : (s.setTh c u h).fns = s.fns := rfl
@[simp] theorem State.setTh_vfEnable (c u : Nat) (h : Thread) : (s.setTh c u h).vfEnable = s.vfEnable := rfl
@[simp] theorem State.setTh_numVfs (c u : Nat) (h : Thread) : (s.setTh c u h).numVfs = s.numVfs := rfl
@[simp] theorem State.setTh_aptReqs (c u : Nat) (h : Thread) : (s.setTh c u h).aptReqs = s.aptReqs := rfl
@[simp] theorem State.setTh_aptReads (c u : Nat) (h : Thread) : (s.setTh c u h).aptReads = s.aptReads := rfl
@[simp] theorem State.setTh_aptNext (c u : Nat) (h : Thread) : (s.setTh c u h).aptNext = s.aptNext := rfl
@[simp] theorem State.setTh_aptWait (c u : Nat) (h : Thread) : (s.setTh c u h).aptWait = s.aptWait := rfl
@[simp] theorem State.setTh_hseq (c u : Nat) (h : Thread) : (s.setTh c u h).hseq = s.hseq := rfl
@[simp] theorem State.setTh_hstart (c u : Nat) (h : Thread) : (s.setTh c u h).hstart = s.hstart := rfl
@[simp] theorem State.setTh_advised (c u : Nat) (h : Thread) : (s.setTh c u h).advised = s.advised := rfl
@[simp] theorem State.setTh_meters (c u : Nat) (h : Thread) : (s.setTh c u h).meters = s.meters := rfl
@[simp] theorem State.setTh_frozen (c u : Nat) (h : Thread) : (s.setTh c u h).frozen = s.frozen := rfl
@[simp] theorem State.setTh_links (c u : Nat) (h : Thread) : (s.setTh c u h).links = s.links := rfl
@[simp] theorem State.setTh_lanes (c u : Nat) (h : Thread) : (s.setTh c u h).lanes = s.lanes := rfl
@[simp] theorem State.setTh_modules (c u : Nat) (h : Thread) : (s.setTh c u h).modules = s.modules := rfl
@[simp] theorem State.setTh_pathSets (c u : Nat) (h : Thread) : (s.setTh c u h).pathSets = s.pathSets := rfl
@[simp] theorem State.setTh_steers (c u : Nat) (h : Thread) : (s.setTh c u h).steers = s.steers := rfl
@[simp] theorem State.setTh_cands (c u : Nat) (h : Thread) : (s.setTh c u h).cands = s.cands := rfl
@[simp] theorem State.setTh_dieWait (c u : Nat) (h : Thread) : (s.setTh c u h).dieWait = s.dieWait := rfl
@[simp] theorem State.setTh_ackPtr (c u : Nat) (h : Thread) : (s.setTh c u h).ackPtr = s.ackPtr := rfl
@[simp] theorem State.setTh_unreached (c u : Nat) (h : Thread) : (s.setTh c u h).unreached = s.unreached := rfl
@[simp] theorem State.setTh_zones (c u : Nat) (h : Thread) : (s.setTh c u h).zones = s.zones := rfl
@[simp] theorem State.setTh_cal (c u : Nat) (h : Thread) : (s.setTh c u h).cal = s.cal := rfl
@[simp] theorem State.setTh_calQueue (c u : Nat) (h : Thread) : (s.setTh c u h).calQueue = s.calQueue := rfl
@[simp] theorem State.setTh_relocks (c u : Nat) (h : Thread) : (s.setTh c u h).relocks = s.relocks := rfl
@[simp] theorem State.setTh_ringWarn (c u : Nat) (h : Thread) : (s.setTh c u h).ringWarn = s.ringWarn := rfl
@[simp] theorem State.setTh_ringAct (c u : Nat) (h : Thread) : (s.setTh c u h).ringAct = s.ringAct := rfl
@[simp] theorem State.setTh_ringRes (c u : Nat) (h : Thread) : (s.setTh c u h).ringRes = s.ringRes := rfl
@[simp] theorem State.setTh_rxOut (c u : Nat) (h : Thread) : (s.setTh c u h).rxOut = s.rxOut := rfl
@[simp] theorem State.setTh_sensors (c u : Nat) (h : Thread) : (s.setTh c u h).sensors = s.sensors := rfl
@[simp] theorem State.setTh_accepted (c u : Nat) (h : Thread) : (s.setTh c u h).accepted = s.accepted := rfl
@[simp] theorem State.setTh_peerMinSvn (c u : Nat) (h : Thread) : (s.setTh c u h).peerMinSvn = s.peerMinSvn := rfl
@[simp] theorem State.setTh_rngStopped (c u : Nat) (h : Thread) : (s.setTh c u h).rngStopped = s.rngStopped := rfl
@[simp] theorem State.setTh_helm (c u : Nat) (h : Thread) : (s.setTh c u h).helm = s.helm := rfl
@[simp] theorem State.setTh_clock (c u : Nat) (h : Thread) : (s.setTh c u h).clock = s.clock := rfl
@[simp] theorem State.setTh_alm (c u : Nat) (h : Thread) : (s.setTh c u h).alm = s.alm := rfl
@[simp] theorem State.setTh_gleaner (c u : Nat) (h : Thread) : (s.setTh c u h).gleaner = s.gleaner := rfl
@[simp] theorem State.setTh_pins (c u : Nat) (h : Thread) : (s.setTh c u h).pins = s.pins := rfl
@[simp] theorem State.setTh_bu (c u : Nat) (h : Thread) : (s.setTh c u h).bu = s.bu := rfl
@[simp] theorem State.setTh_ind (c u : Nat) (h : Thread) : (s.setTh c u h).ind = s.ind := rfl
@[simp] theorem State.setTh_nv (c u : Nat) (h : Thread) : (s.setTh c u h).nv = s.nv := rfl
@[simp] theorem State.setTh_resValid (c u : Nat) (h : Thread) : (s.setTh c u h).resValid = s.resValid := rfl
@[simp] theorem State.setTh_rcalBoot (c u : Nat) (h : Thread) : (s.setTh c u h).rcalBoot = s.rcalBoot := rfl
@[simp] theorem State.setTh_rcalHeld (c u : Nat) (h : Thread) : (s.setTh c u h).rcalHeld = s.rcalHeld := rfl
@[simp] theorem State.setTh_cross (c u : Nat) (h : Thread) : (s.setTh c u h).cross = s.cross := rfl
@[simp] theorem State.setTh_dieCause (c u : Nat) (h : Thread) : (s.setTh c u h).dieCause = s.dieCause := rfl
@[simp] theorem State.setTh_generation (c u : Nat) (h : Thread) : (s.setTh c u h).generation = s.generation := rfl
@[simp] theorem State.setTh_changed (c u : Nat) (h : Thread) : (s.setTh c u h).changed = s.changed := rfl
@[simp] theorem State.setTh_calImage (c u : Nat) (h : Thread) : (s.setTh c u h).calImage = s.calImage := rfl
@[simp] theorem State.setTh_bist (c u : Nat) (h : Thread) : (s.setTh c u h).bist = s.bist := rfl
@[simp] theorem State.setTh_releaseWait (c u : Nat) (h : Thread) : (s.setTh c u h).releaseWait = s.releaseWait := rfl
@[simp] theorem State.setTh_capture (c u : Nat) (h : Thread) : (s.setTh c u h).capture = s.capture := rfl
@[simp] theorem State.setTh_calHeld (c u : Nat) (h : Thread) : (s.setTh c u h).calHeld = s.calHeld := rfl
@[simp] theorem State.setTh_standby (c u : Nat) (h : Thread) : (s.setTh c u h).standby = s.standby := rfl

@[simp] theorem State.setGw_pending (g : Nat) (w : Gateway) : (s.setGw g w).pending = s.pending := rfl
@[simp] theorem State.setGw_freeCtr (g : Nat) (w : Gateway) : (s.setGw g w).freeCtr = s.freeCtr := rfl
@[simp] theorem State.setGw_net (g : Nat) (w : Gateway) : (s.setGw g w).net = s.net := rfl
@[simp] theorem State.setGw_out (g : Nat) (w : Gateway) : (s.setGw g w).out = s.out := rfl
@[simp] theorem State.setGw_reports (g : Nat) (w : Gateway) : (s.setGw g w).reports = s.reports := rfl
@[simp] theorem State.setGw_reckon (g : Nat) (w : Gateway) : (s.setGw g w).reckon = s.reckon := rfl
@[simp] theorem State.setGw_dieCycle (g : Nat) (w : Gateway) : (s.setGw g w).dieCycle = s.dieCycle := rfl
@[simp] theorem State.setGw_dieStep (g : Nat) (w : Gateway) : (s.setGw g w).dieStep = s.dieStep := rfl
@[simp] theorem State.setGw_hold (g : Nat) (w : Gateway) : (s.setGw g w).hold = s.hold := rfl
@[simp] theorem State.setGw_holdNotice (g : Nat) (w : Gateway) : (s.setGw g w).holdNotice = s.holdNotice := rfl
@[simp] theorem State.setGw_meshDown (g : Nat) (w : Gateway) : (s.setGw g w).meshDown = s.meshDown := rfl
@[simp] theorem State.setGw_selfNum (g : Nat) (w : Gateway) : (s.setGw g w).selfNum = s.selfNum := rfl
@[simp] theorem State.setGw_selfValid (g : Nat) (w : Gateway) : (s.setGw g w).selfValid = s.selfValid := rfl
@[simp] theorem State.setGw_variant (g : Nat) (w : Gateway) : (s.setGw g w).variant = s.variant := rfl
@[simp] theorem State.setGw_ready (g : Nat) (w : Gateway) : (s.setGw g w).ready = s.ready := rfl
@[simp] theorem State.setGw_cores (g : Nat) (w : Gateway) : (s.setGw g w).cores = s.cores := rfl
@[simp] theorem State.setGw_coreDown (g : Nat) (w : Gateway) : (s.setGw g w).coreDown = s.coreDown := rfl
@[simp] theorem State.setGw_dieDown (g : Nat) (w : Gateway) : (s.setGw g w).dieDown = s.dieDown := rfl
@[simp] theorem State.setGw_clusterDown (g : Nat) (w : Gateway) : (s.setGw g w).clusterDown = s.clusterDown := rfl
@[simp] theorem State.setGw_clusterUp (g : Nat) (w : Gateway) : (s.setGw g w).clusterUp = s.clusterUp := rfl
@[simp] theorem State.setGw_clusterOwner (g : Nat) (w : Gateway) : (s.setGw g w).clusterOwner = s.clusterOwner := rfl
@[simp] theorem State.setGw_barns (g : Nat) (w : Gateway) : (s.setGw g w).barns = s.barns := rfl
@[simp] theorem State.setGw_gangs (g : Nat) (w : Gateway) : (s.setGw g w).gangs = s.gangs := rfl
@[simp] theorem State.setGw_sheaf (g : Nat) (w : Gateway) : (s.setGw g w).sheaf = s.sheaf := rfl
@[simp] theorem State.setGw_sheafEarly (g : Nat) (w : Gateway) : (s.setGw g w).sheafEarly = s.sheafEarly := rfl
@[simp] theorem State.setGw_shLate (g : Nat) (w : Gateway) : (s.setGw g w).shLate = s.shLate := rfl
@[simp] theorem State.setGw_hbm (g : Nat) (w : Gateway) : (s.setGw g w).hbm = s.hbm := rfl
@[simp] theorem State.setGw_poison (g : Nat) (w : Gateway) : (s.setGw g w).poison = s.poison := rfl
@[simp] theorem State.setGw_granules (g : Nat) (w : Gateway) : (s.setGw g w).granules = s.granules := rfl
@[simp] theorem State.setGw_channels (g : Nat) (w : Gateway) : (s.setGw g w).channels = s.channels := rfl
@[simp] theorem State.setGw_queueOwner (g : Nat) (w : Gateway) : (s.setGw g w).queueOwner = s.queueOwner := rfl
@[simp] theorem State.setGw_queues (g : Nat) (w : Gateway) : (s.setGw g w).queues = s.queues := rfl
@[simp] theorem State.setGw_readAhead (g : Nat) (w : Gateway) : (s.setGw g w).readAhead = s.readAhead := rfl
@[simp] theorem State.setGw_rowWait (g : Nat) (w : Gateway) : (s.setGw g w).rowWait = s.rowWait := rfl
@[simp] theorem State.setGw_repairs (g : Nat) (w : Gateway) : (s.setGw g w).repairs = s.repairs := rfl
@[simp] theorem State.setGw_courses (g : Nat) (w : Gateway) : (s.setGw g w).courses = s.courses := rfl
@[simp] theorem State.setGw_srcWin (g : Nat) (w : Gateway) : (s.setGw g w).srcWin = s.srcWin := rfl
@[simp] theorem State.setGw_dstWin (g : Nat) (w : Gateway) : (s.setGw g w).dstWin = s.dstWin := rfl
@[simp] theorem State.setGw_pool1 (g : Nat) (w : Gateway) : (s.setGw g w).pool1 = s.pool1 := rfl
@[simp] theorem State.setGw_pool3 (g : Nat) (w : Gateway) : (s.setGw g w).pool3 = s.pool3 := rfl
@[simp] theorem State.setGw_grantQ (g : Nat) (w : Gateway) : (s.setGw g w).grantQ = s.grantQ := rfl
@[simp] theorem State.setGw_grantMax1 (g : Nat) (w : Gateway) : (s.setGw g w).grantMax1 = s.grantMax1 := rfl
@[simp] theorem State.setGw_grantMax3 (g : Nat) (w : Gateway) : (s.setGw g w).grantMax3 = s.grantMax3 := rfl
@[simp] theorem State.setGw_slices (g : Nat) (w : Gateway) : (s.setGw g w).slices = s.slices := rfl
@[simp] theorem State.setGw_fabCtr (g : Nat) (w : Gateway) : (s.setGw g w).fabCtr = s.fabCtr := rfl
@[simp] theorem State.setGw_memCtr (g : Nat) (w : Gateway) : (s.setGw g w).memCtr = s.memCtr := rfl
@[simp] theorem State.setGw_plan (g : Nat) (w : Gateway) : (s.setGw g w).plan = s.plan := rfl
@[simp] theorem State.setGw_ports (g : Nat) (w : Gateway) : (s.setGw g w).ports = s.ports := rfl
@[simp] theorem State.setGw_pairTable (g : Nat) (w : Gateway) : (s.setGw g w).pairTable = s.pairTable := rfl
@[simp] theorem State.setGw_pairRecs (g : Nat) (w : Gateway) : (s.setGw g w).pairRecs = s.pairRecs := rfl
@[simp] theorem State.setGw_pseq (g : Nat) (w : Gateway) : (s.setGw g w).pseq = s.pseq := rfl
@[simp] theorem State.setGw_chaff (g : Nat) (w : Gateway) : (s.setGw g w).chaff = s.chaff := rfl
@[simp] theorem State.setGw_twin (g : Nat) (w : Gateway) : (s.setGw g w).twin = s.twin := rfl
@[simp] theorem State.setGw_berths (g : Nat) (w : Gateway) : (s.setGw g w).berths = s.berths := rfl
@[simp] theorem State.setGw_posted (g : Nat) (w : Gateway) : (s.setGw g w).posted = s.posted := rfl
@[simp] theorem State.setGw_inbox (g : Nat) (w : Gateway) : (s.setGw g w).inbox = s.inbox := rfl
@[simp] theorem State.setGw_inboxLost (g : Nat) (w : Gateway) : (s.setGw g w).inboxLost = s.inboxLost := rfl
@[simp] theorem State.setGw_ops (g : Nat) (w : Gateway) : (s.setGw g w).ops = s.ops := rfl
@[simp] theorem State.setGw_opsEnded (g : Nat) (w : Gateway) : (s.setGw g w).opsEnded = s.opsEnded := rfl
@[simp] theorem State.setGw_opNext (g : Nat) (w : Gateway) : (s.setGw g w).opNext = s.opNext := rfl
@[simp] theorem State.setGw_fmPeers (g : Nat) (w : Gateway) : (s.setGw g w).fmPeers = s.fmPeers := rfl
@[simp] theorem State.setGw_factoryMode (g : Nat) (w : Gateway) : (s.setGw g w).factoryMode = s.factoryMode := rfl
@[simp] theorem State.setGw_fns (g : Nat) (w : Gateway) : (s.setGw g w).fns = s.fns := rfl
@[simp] theorem State.setGw_vfEnable (g : Nat) (w : Gateway) : (s.setGw g w).vfEnable = s.vfEnable := rfl
@[simp] theorem State.setGw_numVfs (g : Nat) (w : Gateway) : (s.setGw g w).numVfs = s.numVfs := rfl
@[simp] theorem State.setGw_aptReqs (g : Nat) (w : Gateway) : (s.setGw g w).aptReqs = s.aptReqs := rfl
@[simp] theorem State.setGw_aptReads (g : Nat) (w : Gateway) : (s.setGw g w).aptReads = s.aptReads := rfl
@[simp] theorem State.setGw_aptNext (g : Nat) (w : Gateway) : (s.setGw g w).aptNext = s.aptNext := rfl
@[simp] theorem State.setGw_aptWait (g : Nat) (w : Gateway) : (s.setGw g w).aptWait = s.aptWait := rfl
@[simp] theorem State.setGw_hseq (g : Nat) (w : Gateway) : (s.setGw g w).hseq = s.hseq := rfl
@[simp] theorem State.setGw_hstart (g : Nat) (w : Gateway) : (s.setGw g w).hstart = s.hstart := rfl
@[simp] theorem State.setGw_advised (g : Nat) (w : Gateway) : (s.setGw g w).advised = s.advised := rfl
@[simp] theorem State.setGw_meters (g : Nat) (w : Gateway) : (s.setGw g w).meters = s.meters := rfl
@[simp] theorem State.setGw_frozen (g : Nat) (w : Gateway) : (s.setGw g w).frozen = s.frozen := rfl
@[simp] theorem State.setGw_links (g : Nat) (w : Gateway) : (s.setGw g w).links = s.links := rfl
@[simp] theorem State.setGw_lanes (g : Nat) (w : Gateway) : (s.setGw g w).lanes = s.lanes := rfl
@[simp] theorem State.setGw_modules (g : Nat) (w : Gateway) : (s.setGw g w).modules = s.modules := rfl
@[simp] theorem State.setGw_pathSets (g : Nat) (w : Gateway) : (s.setGw g w).pathSets = s.pathSets := rfl
@[simp] theorem State.setGw_steers (g : Nat) (w : Gateway) : (s.setGw g w).steers = s.steers := rfl
@[simp] theorem State.setGw_cands (g : Nat) (w : Gateway) : (s.setGw g w).cands = s.cands := rfl
@[simp] theorem State.setGw_dieWait (g : Nat) (w : Gateway) : (s.setGw g w).dieWait = s.dieWait := rfl
@[simp] theorem State.setGw_ackPtr (g : Nat) (w : Gateway) : (s.setGw g w).ackPtr = s.ackPtr := rfl
@[simp] theorem State.setGw_unreached (g : Nat) (w : Gateway) : (s.setGw g w).unreached = s.unreached := rfl
@[simp] theorem State.setGw_zones (g : Nat) (w : Gateway) : (s.setGw g w).zones = s.zones := rfl
@[simp] theorem State.setGw_cal (g : Nat) (w : Gateway) : (s.setGw g w).cal = s.cal := rfl
@[simp] theorem State.setGw_calQueue (g : Nat) (w : Gateway) : (s.setGw g w).calQueue = s.calQueue := rfl
@[simp] theorem State.setGw_relocks (g : Nat) (w : Gateway) : (s.setGw g w).relocks = s.relocks := rfl
@[simp] theorem State.setGw_ringWarn (g : Nat) (w : Gateway) : (s.setGw g w).ringWarn = s.ringWarn := rfl
@[simp] theorem State.setGw_ringAct (g : Nat) (w : Gateway) : (s.setGw g w).ringAct = s.ringAct := rfl
@[simp] theorem State.setGw_ringRes (g : Nat) (w : Gateway) : (s.setGw g w).ringRes = s.ringRes := rfl
@[simp] theorem State.setGw_rxOut (g : Nat) (w : Gateway) : (s.setGw g w).rxOut = s.rxOut := rfl
@[simp] theorem State.setGw_sensors (g : Nat) (w : Gateway) : (s.setGw g w).sensors = s.sensors := rfl
@[simp] theorem State.setGw_accepted (g : Nat) (w : Gateway) : (s.setGw g w).accepted = s.accepted := rfl
@[simp] theorem State.setGw_peerMinSvn (g : Nat) (w : Gateway) : (s.setGw g w).peerMinSvn = s.peerMinSvn := rfl
@[simp] theorem State.setGw_rngStopped (g : Nat) (w : Gateway) : (s.setGw g w).rngStopped = s.rngStopped := rfl
@[simp] theorem State.setGw_helm (g : Nat) (w : Gateway) : (s.setGw g w).helm = s.helm := rfl
@[simp] theorem State.setGw_clock (g : Nat) (w : Gateway) : (s.setGw g w).clock = s.clock := rfl
@[simp] theorem State.setGw_alm (g : Nat) (w : Gateway) : (s.setGw g w).alm = s.alm := rfl
@[simp] theorem State.setGw_gleaner (g : Nat) (w : Gateway) : (s.setGw g w).gleaner = s.gleaner := rfl
@[simp] theorem State.setGw_pins (g : Nat) (w : Gateway) : (s.setGw g w).pins = s.pins := rfl
@[simp] theorem State.setGw_bu (g : Nat) (w : Gateway) : (s.setGw g w).bu = s.bu := rfl
@[simp] theorem State.setGw_ind (g : Nat) (w : Gateway) : (s.setGw g w).ind = s.ind := rfl
@[simp] theorem State.setGw_nv (g : Nat) (w : Gateway) : (s.setGw g w).nv = s.nv := rfl
@[simp] theorem State.setGw_resValid (g : Nat) (w : Gateway) : (s.setGw g w).resValid = s.resValid := rfl
@[simp] theorem State.setGw_rcalBoot (g : Nat) (w : Gateway) : (s.setGw g w).rcalBoot = s.rcalBoot := rfl
@[simp] theorem State.setGw_rcalHeld (g : Nat) (w : Gateway) : (s.setGw g w).rcalHeld = s.rcalHeld := rfl
@[simp] theorem State.setGw_cross (g : Nat) (w : Gateway) : (s.setGw g w).cross = s.cross := rfl
@[simp] theorem State.setGw_dieCause (g : Nat) (w : Gateway) : (s.setGw g w).dieCause = s.dieCause := rfl
@[simp] theorem State.setGw_generation (g : Nat) (w : Gateway) : (s.setGw g w).generation = s.generation := rfl
@[simp] theorem State.setGw_changed (g : Nat) (w : Gateway) : (s.setGw g w).changed = s.changed := rfl
@[simp] theorem State.setGw_calImage (g : Nat) (w : Gateway) : (s.setGw g w).calImage = s.calImage := rfl
@[simp] theorem State.setGw_bist (g : Nat) (w : Gateway) : (s.setGw g w).bist = s.bist := rfl
@[simp] theorem State.setGw_releaseWait (g : Nat) (w : Gateway) : (s.setGw g w).releaseWait = s.releaseWait := rfl
@[simp] theorem State.setGw_capture (g : Nat) (w : Gateway) : (s.setGw g w).capture = s.capture := rfl
@[simp] theorem State.setGw_calHeld (g : Nat) (w : Gateway) : (s.setGw g w).calHeld = s.calHeld := rfl
@[simp] theorem State.setGw_standby (g : Nat) (w : Gateway) : (s.setGw g w).standby = s.standby := rfl

@[simp] theorem State.setBerth_pending (b : Nat) (h : Berth) : (s.setBerth b h).pending = s.pending := rfl
@[simp] theorem State.setBerth_freeCtr (b : Nat) (h : Berth) : (s.setBerth b h).freeCtr = s.freeCtr := rfl
@[simp] theorem State.setBerth_net (b : Nat) (h : Berth) : (s.setBerth b h).net = s.net := rfl
@[simp] theorem State.setBerth_out (b : Nat) (h : Berth) : (s.setBerth b h).out = s.out := rfl
@[simp] theorem State.setBerth_reports (b : Nat) (h : Berth) : (s.setBerth b h).reports = s.reports := rfl
@[simp] theorem State.setBerth_reckon (b : Nat) (h : Berth) : (s.setBerth b h).reckon = s.reckon := rfl
@[simp] theorem State.setBerth_dieCycle (b : Nat) (h : Berth) : (s.setBerth b h).dieCycle = s.dieCycle := rfl
@[simp] theorem State.setBerth_dieStep (b : Nat) (h : Berth) : (s.setBerth b h).dieStep = s.dieStep := rfl
@[simp] theorem State.setBerth_hold (b : Nat) (h : Berth) : (s.setBerth b h).hold = s.hold := rfl
@[simp] theorem State.setBerth_holdNotice (b : Nat) (h : Berth) : (s.setBerth b h).holdNotice = s.holdNotice := rfl
@[simp] theorem State.setBerth_meshDown (b : Nat) (h : Berth) : (s.setBerth b h).meshDown = s.meshDown := rfl
@[simp] theorem State.setBerth_selfNum (b : Nat) (h : Berth) : (s.setBerth b h).selfNum = s.selfNum := rfl
@[simp] theorem State.setBerth_selfValid (b : Nat) (h : Berth) : (s.setBerth b h).selfValid = s.selfValid := rfl
@[simp] theorem State.setBerth_variant (b : Nat) (h : Berth) : (s.setBerth b h).variant = s.variant := rfl
@[simp] theorem State.setBerth_ready (b : Nat) (h : Berth) : (s.setBerth b h).ready = s.ready := rfl
@[simp] theorem State.setBerth_cores (b : Nat) (h : Berth) : (s.setBerth b h).cores = s.cores := rfl
@[simp] theorem State.setBerth_gateways (b : Nat) (h : Berth) : (s.setBerth b h).gateways = s.gateways := rfl
@[simp] theorem State.setBerth_coreDown (b : Nat) (h : Berth) : (s.setBerth b h).coreDown = s.coreDown := rfl
@[simp] theorem State.setBerth_dieDown (b : Nat) (h : Berth) : (s.setBerth b h).dieDown = s.dieDown := rfl
@[simp] theorem State.setBerth_clusterDown (b : Nat) (h : Berth) : (s.setBerth b h).clusterDown = s.clusterDown := rfl
@[simp] theorem State.setBerth_clusterUp (b : Nat) (h : Berth) : (s.setBerth b h).clusterUp = s.clusterUp := rfl
@[simp] theorem State.setBerth_clusterOwner (b : Nat) (h : Berth) : (s.setBerth b h).clusterOwner = s.clusterOwner := rfl
@[simp] theorem State.setBerth_barns (b : Nat) (h : Berth) : (s.setBerth b h).barns = s.barns := rfl
@[simp] theorem State.setBerth_gangs (b : Nat) (h : Berth) : (s.setBerth b h).gangs = s.gangs := rfl
@[simp] theorem State.setBerth_sheaf (b : Nat) (h : Berth) : (s.setBerth b h).sheaf = s.sheaf := rfl
@[simp] theorem State.setBerth_sheafEarly (b : Nat) (h : Berth) : (s.setBerth b h).sheafEarly = s.sheafEarly := rfl
@[simp] theorem State.setBerth_shLate (b : Nat) (h : Berth) : (s.setBerth b h).shLate = s.shLate := rfl
@[simp] theorem State.setBerth_hbm (b : Nat) (h : Berth) : (s.setBerth b h).hbm = s.hbm := rfl
@[simp] theorem State.setBerth_poison (b : Nat) (h : Berth) : (s.setBerth b h).poison = s.poison := rfl
@[simp] theorem State.setBerth_granules (b : Nat) (h : Berth) : (s.setBerth b h).granules = s.granules := rfl
@[simp] theorem State.setBerth_channels (b : Nat) (h : Berth) : (s.setBerth b h).channels = s.channels := rfl
@[simp] theorem State.setBerth_queueOwner (b : Nat) (h : Berth) : (s.setBerth b h).queueOwner = s.queueOwner := rfl
@[simp] theorem State.setBerth_queues (b : Nat) (h : Berth) : (s.setBerth b h).queues = s.queues := rfl
@[simp] theorem State.setBerth_readAhead (b : Nat) (h : Berth) : (s.setBerth b h).readAhead = s.readAhead := rfl
@[simp] theorem State.setBerth_rowWait (b : Nat) (h : Berth) : (s.setBerth b h).rowWait = s.rowWait := rfl
@[simp] theorem State.setBerth_repairs (b : Nat) (h : Berth) : (s.setBerth b h).repairs = s.repairs := rfl
@[simp] theorem State.setBerth_courses (b : Nat) (h : Berth) : (s.setBerth b h).courses = s.courses := rfl
@[simp] theorem State.setBerth_srcWin (b : Nat) (h : Berth) : (s.setBerth b h).srcWin = s.srcWin := rfl
@[simp] theorem State.setBerth_dstWin (b : Nat) (h : Berth) : (s.setBerth b h).dstWin = s.dstWin := rfl
@[simp] theorem State.setBerth_pool1 (b : Nat) (h : Berth) : (s.setBerth b h).pool1 = s.pool1 := rfl
@[simp] theorem State.setBerth_pool3 (b : Nat) (h : Berth) : (s.setBerth b h).pool3 = s.pool3 := rfl
@[simp] theorem State.setBerth_grantQ (b : Nat) (h : Berth) : (s.setBerth b h).grantQ = s.grantQ := rfl
@[simp] theorem State.setBerth_grantMax1 (b : Nat) (h : Berth) : (s.setBerth b h).grantMax1 = s.grantMax1 := rfl
@[simp] theorem State.setBerth_grantMax3 (b : Nat) (h : Berth) : (s.setBerth b h).grantMax3 = s.grantMax3 := rfl
@[simp] theorem State.setBerth_slices (b : Nat) (h : Berth) : (s.setBerth b h).slices = s.slices := rfl
@[simp] theorem State.setBerth_fabCtr (b : Nat) (h : Berth) : (s.setBerth b h).fabCtr = s.fabCtr := rfl
@[simp] theorem State.setBerth_memCtr (b : Nat) (h : Berth) : (s.setBerth b h).memCtr = s.memCtr := rfl
@[simp] theorem State.setBerth_plan (b : Nat) (h : Berth) : (s.setBerth b h).plan = s.plan := rfl
@[simp] theorem State.setBerth_ports (b : Nat) (h : Berth) : (s.setBerth b h).ports = s.ports := rfl
@[simp] theorem State.setBerth_pairTable (b : Nat) (h : Berth) : (s.setBerth b h).pairTable = s.pairTable := rfl
@[simp] theorem State.setBerth_pairRecs (b : Nat) (h : Berth) : (s.setBerth b h).pairRecs = s.pairRecs := rfl
@[simp] theorem State.setBerth_pseq (b : Nat) (h : Berth) : (s.setBerth b h).pseq = s.pseq := rfl
@[simp] theorem State.setBerth_chaff (b : Nat) (h : Berth) : (s.setBerth b h).chaff = s.chaff := rfl
@[simp] theorem State.setBerth_twin (b : Nat) (h : Berth) : (s.setBerth b h).twin = s.twin := rfl
@[simp] theorem State.setBerth_posted (b : Nat) (h : Berth) : (s.setBerth b h).posted = s.posted := rfl
@[simp] theorem State.setBerth_inbox (b : Nat) (h : Berth) : (s.setBerth b h).inbox = s.inbox := rfl
@[simp] theorem State.setBerth_inboxLost (b : Nat) (h : Berth) : (s.setBerth b h).inboxLost = s.inboxLost := rfl
@[simp] theorem State.setBerth_ops (b : Nat) (h : Berth) : (s.setBerth b h).ops = s.ops := rfl
@[simp] theorem State.setBerth_opsEnded (b : Nat) (h : Berth) : (s.setBerth b h).opsEnded = s.opsEnded := rfl
@[simp] theorem State.setBerth_opNext (b : Nat) (h : Berth) : (s.setBerth b h).opNext = s.opNext := rfl
@[simp] theorem State.setBerth_fmPeers (b : Nat) (h : Berth) : (s.setBerth b h).fmPeers = s.fmPeers := rfl
@[simp] theorem State.setBerth_factoryMode (b : Nat) (h : Berth) : (s.setBerth b h).factoryMode = s.factoryMode := rfl
@[simp] theorem State.setBerth_fns (b : Nat) (h : Berth) : (s.setBerth b h).fns = s.fns := rfl
@[simp] theorem State.setBerth_vfEnable (b : Nat) (h : Berth) : (s.setBerth b h).vfEnable = s.vfEnable := rfl
@[simp] theorem State.setBerth_numVfs (b : Nat) (h : Berth) : (s.setBerth b h).numVfs = s.numVfs := rfl
@[simp] theorem State.setBerth_aptReqs (b : Nat) (h : Berth) : (s.setBerth b h).aptReqs = s.aptReqs := rfl
@[simp] theorem State.setBerth_aptReads (b : Nat) (h : Berth) : (s.setBerth b h).aptReads = s.aptReads := rfl
@[simp] theorem State.setBerth_aptNext (b : Nat) (h : Berth) : (s.setBerth b h).aptNext = s.aptNext := rfl
@[simp] theorem State.setBerth_aptWait (b : Nat) (h : Berth) : (s.setBerth b h).aptWait = s.aptWait := rfl
@[simp] theorem State.setBerth_hseq (b : Nat) (h : Berth) : (s.setBerth b h).hseq = s.hseq := rfl
@[simp] theorem State.setBerth_hstart (b : Nat) (h : Berth) : (s.setBerth b h).hstart = s.hstart := rfl
@[simp] theorem State.setBerth_advised (b : Nat) (h : Berth) : (s.setBerth b h).advised = s.advised := rfl
@[simp] theorem State.setBerth_meters (b : Nat) (h : Berth) : (s.setBerth b h).meters = s.meters := rfl
@[simp] theorem State.setBerth_frozen (b : Nat) (h : Berth) : (s.setBerth b h).frozen = s.frozen := rfl
@[simp] theorem State.setBerth_links (b : Nat) (h : Berth) : (s.setBerth b h).links = s.links := rfl
@[simp] theorem State.setBerth_lanes (b : Nat) (h : Berth) : (s.setBerth b h).lanes = s.lanes := rfl
@[simp] theorem State.setBerth_modules (b : Nat) (h : Berth) : (s.setBerth b h).modules = s.modules := rfl
@[simp] theorem State.setBerth_pathSets (b : Nat) (h : Berth) : (s.setBerth b h).pathSets = s.pathSets := rfl
@[simp] theorem State.setBerth_steers (b : Nat) (h : Berth) : (s.setBerth b h).steers = s.steers := rfl
@[simp] theorem State.setBerth_cands (b : Nat) (h : Berth) : (s.setBerth b h).cands = s.cands := rfl
@[simp] theorem State.setBerth_dieWait (b : Nat) (h : Berth) : (s.setBerth b h).dieWait = s.dieWait := rfl
@[simp] theorem State.setBerth_ackPtr (b : Nat) (h : Berth) : (s.setBerth b h).ackPtr = s.ackPtr := rfl
@[simp] theorem State.setBerth_unreached (b : Nat) (h : Berth) : (s.setBerth b h).unreached = s.unreached := rfl
@[simp] theorem State.setBerth_zones (b : Nat) (h : Berth) : (s.setBerth b h).zones = s.zones := rfl
@[simp] theorem State.setBerth_cal (b : Nat) (h : Berth) : (s.setBerth b h).cal = s.cal := rfl
@[simp] theorem State.setBerth_calQueue (b : Nat) (h : Berth) : (s.setBerth b h).calQueue = s.calQueue := rfl
@[simp] theorem State.setBerth_relocks (b : Nat) (h : Berth) : (s.setBerth b h).relocks = s.relocks := rfl
@[simp] theorem State.setBerth_ringWarn (b : Nat) (h : Berth) : (s.setBerth b h).ringWarn = s.ringWarn := rfl
@[simp] theorem State.setBerth_ringAct (b : Nat) (h : Berth) : (s.setBerth b h).ringAct = s.ringAct := rfl
@[simp] theorem State.setBerth_ringRes (b : Nat) (h : Berth) : (s.setBerth b h).ringRes = s.ringRes := rfl
@[simp] theorem State.setBerth_rxOut (b : Nat) (h : Berth) : (s.setBerth b h).rxOut = s.rxOut := rfl
@[simp] theorem State.setBerth_sensors (b : Nat) (h : Berth) : (s.setBerth b h).sensors = s.sensors := rfl
@[simp] theorem State.setBerth_accepted (b : Nat) (h : Berth) : (s.setBerth b h).accepted = s.accepted := rfl
@[simp] theorem State.setBerth_peerMinSvn (b : Nat) (h : Berth) : (s.setBerth b h).peerMinSvn = s.peerMinSvn := rfl
@[simp] theorem State.setBerth_rngStopped (b : Nat) (h : Berth) : (s.setBerth b h).rngStopped = s.rngStopped := rfl
@[simp] theorem State.setBerth_helm (b : Nat) (h : Berth) : (s.setBerth b h).helm = s.helm := rfl
@[simp] theorem State.setBerth_clock (b : Nat) (h : Berth) : (s.setBerth b h).clock = s.clock := rfl
@[simp] theorem State.setBerth_alm (b : Nat) (h : Berth) : (s.setBerth b h).alm = s.alm := rfl
@[simp] theorem State.setBerth_gleaner (b : Nat) (h : Berth) : (s.setBerth b h).gleaner = s.gleaner := rfl
@[simp] theorem State.setBerth_pins (b : Nat) (h : Berth) : (s.setBerth b h).pins = s.pins := rfl
@[simp] theorem State.setBerth_bu (b : Nat) (h : Berth) : (s.setBerth b h).bu = s.bu := rfl
@[simp] theorem State.setBerth_ind (b : Nat) (h : Berth) : (s.setBerth b h).ind = s.ind := rfl
@[simp] theorem State.setBerth_nv (b : Nat) (h : Berth) : (s.setBerth b h).nv = s.nv := rfl
@[simp] theorem State.setBerth_resValid (b : Nat) (h : Berth) : (s.setBerth b h).resValid = s.resValid := rfl
@[simp] theorem State.setBerth_rcalBoot (b : Nat) (h : Berth) : (s.setBerth b h).rcalBoot = s.rcalBoot := rfl
@[simp] theorem State.setBerth_rcalHeld (b : Nat) (h : Berth) : (s.setBerth b h).rcalHeld = s.rcalHeld := rfl
@[simp] theorem State.setBerth_cross (b : Nat) (h : Berth) : (s.setBerth b h).cross = s.cross := rfl
@[simp] theorem State.setBerth_dieCause (b : Nat) (h : Berth) : (s.setBerth b h).dieCause = s.dieCause := rfl
@[simp] theorem State.setBerth_generation (b : Nat) (h : Berth) : (s.setBerth b h).generation = s.generation := rfl
@[simp] theorem State.setBerth_changed (b : Nat) (h : Berth) : (s.setBerth b h).changed = s.changed := rfl
@[simp] theorem State.setBerth_calImage (b : Nat) (h : Berth) : (s.setBerth b h).calImage = s.calImage := rfl
@[simp] theorem State.setBerth_bist (b : Nat) (h : Berth) : (s.setBerth b h).bist = s.bist := rfl
@[simp] theorem State.setBerth_releaseWait (b : Nat) (h : Berth) : (s.setBerth b h).releaseWait = s.releaseWait := rfl
@[simp] theorem State.setBerth_capture (b : Nat) (h : Berth) : (s.setBerth b h).capture = s.capture := rfl
@[simp] theorem State.setBerth_calHeld (b : Nat) (h : Berth) : (s.setBerth b h).calHeld = s.calHeld := rfl
@[simp] theorem State.setBerth_standby (b : Nat) (h : Berth) : (s.setBerth b h).standby = s.standby := rfl

@[simp] theorem State.setPort_pending (p : Nat) (e : EdgePort) : (s.setPort p e).pending = s.pending := rfl
@[simp] theorem State.setPort_freeCtr (p : Nat) (e : EdgePort) : (s.setPort p e).freeCtr = s.freeCtr := rfl
@[simp] theorem State.setPort_net (p : Nat) (e : EdgePort) : (s.setPort p e).net = s.net := rfl
@[simp] theorem State.setPort_out (p : Nat) (e : EdgePort) : (s.setPort p e).out = s.out := rfl
@[simp] theorem State.setPort_reports (p : Nat) (e : EdgePort) : (s.setPort p e).reports = s.reports := rfl
@[simp] theorem State.setPort_reckon (p : Nat) (e : EdgePort) : (s.setPort p e).reckon = s.reckon := rfl
@[simp] theorem State.setPort_dieCycle (p : Nat) (e : EdgePort) : (s.setPort p e).dieCycle = s.dieCycle := rfl
@[simp] theorem State.setPort_dieStep (p : Nat) (e : EdgePort) : (s.setPort p e).dieStep = s.dieStep := rfl
@[simp] theorem State.setPort_hold (p : Nat) (e : EdgePort) : (s.setPort p e).hold = s.hold := rfl
@[simp] theorem State.setPort_holdNotice (p : Nat) (e : EdgePort) : (s.setPort p e).holdNotice = s.holdNotice := rfl
@[simp] theorem State.setPort_meshDown (p : Nat) (e : EdgePort) : (s.setPort p e).meshDown = s.meshDown := rfl
@[simp] theorem State.setPort_selfNum (p : Nat) (e : EdgePort) : (s.setPort p e).selfNum = s.selfNum := rfl
@[simp] theorem State.setPort_selfValid (p : Nat) (e : EdgePort) : (s.setPort p e).selfValid = s.selfValid := rfl
@[simp] theorem State.setPort_variant (p : Nat) (e : EdgePort) : (s.setPort p e).variant = s.variant := rfl
@[simp] theorem State.setPort_ready (p : Nat) (e : EdgePort) : (s.setPort p e).ready = s.ready := rfl
@[simp] theorem State.setPort_cores (p : Nat) (e : EdgePort) : (s.setPort p e).cores = s.cores := rfl
@[simp] theorem State.setPort_gateways (p : Nat) (e : EdgePort) : (s.setPort p e).gateways = s.gateways := rfl
@[simp] theorem State.setPort_coreDown (p : Nat) (e : EdgePort) : (s.setPort p e).coreDown = s.coreDown := rfl
@[simp] theorem State.setPort_dieDown (p : Nat) (e : EdgePort) : (s.setPort p e).dieDown = s.dieDown := rfl
@[simp] theorem State.setPort_clusterDown (p : Nat) (e : EdgePort) : (s.setPort p e).clusterDown = s.clusterDown := rfl
@[simp] theorem State.setPort_clusterUp (p : Nat) (e : EdgePort) : (s.setPort p e).clusterUp = s.clusterUp := rfl
@[simp] theorem State.setPort_clusterOwner (p : Nat) (e : EdgePort) : (s.setPort p e).clusterOwner = s.clusterOwner := rfl
@[simp] theorem State.setPort_barns (p : Nat) (e : EdgePort) : (s.setPort p e).barns = s.barns := rfl
@[simp] theorem State.setPort_gangs (p : Nat) (e : EdgePort) : (s.setPort p e).gangs = s.gangs := rfl
@[simp] theorem State.setPort_sheaf (p : Nat) (e : EdgePort) : (s.setPort p e).sheaf = s.sheaf := rfl
@[simp] theorem State.setPort_sheafEarly (p : Nat) (e : EdgePort) : (s.setPort p e).sheafEarly = s.sheafEarly := rfl
@[simp] theorem State.setPort_shLate (p : Nat) (e : EdgePort) : (s.setPort p e).shLate = s.shLate := rfl
@[simp] theorem State.setPort_hbm (p : Nat) (e : EdgePort) : (s.setPort p e).hbm = s.hbm := rfl
@[simp] theorem State.setPort_poison (p : Nat) (e : EdgePort) : (s.setPort p e).poison = s.poison := rfl
@[simp] theorem State.setPort_granules (p : Nat) (e : EdgePort) : (s.setPort p e).granules = s.granules := rfl
@[simp] theorem State.setPort_channels (p : Nat) (e : EdgePort) : (s.setPort p e).channels = s.channels := rfl
@[simp] theorem State.setPort_queueOwner (p : Nat) (e : EdgePort) : (s.setPort p e).queueOwner = s.queueOwner := rfl
@[simp] theorem State.setPort_queues (p : Nat) (e : EdgePort) : (s.setPort p e).queues = s.queues := rfl
@[simp] theorem State.setPort_readAhead (p : Nat) (e : EdgePort) : (s.setPort p e).readAhead = s.readAhead := rfl
@[simp] theorem State.setPort_rowWait (p : Nat) (e : EdgePort) : (s.setPort p e).rowWait = s.rowWait := rfl
@[simp] theorem State.setPort_repairs (p : Nat) (e : EdgePort) : (s.setPort p e).repairs = s.repairs := rfl
@[simp] theorem State.setPort_courses (p : Nat) (e : EdgePort) : (s.setPort p e).courses = s.courses := rfl
@[simp] theorem State.setPort_srcWin (p : Nat) (e : EdgePort) : (s.setPort p e).srcWin = s.srcWin := rfl
@[simp] theorem State.setPort_dstWin (p : Nat) (e : EdgePort) : (s.setPort p e).dstWin = s.dstWin := rfl
@[simp] theorem State.setPort_pool1 (p : Nat) (e : EdgePort) : (s.setPort p e).pool1 = s.pool1 := rfl
@[simp] theorem State.setPort_pool3 (p : Nat) (e : EdgePort) : (s.setPort p e).pool3 = s.pool3 := rfl
@[simp] theorem State.setPort_grantQ (p : Nat) (e : EdgePort) : (s.setPort p e).grantQ = s.grantQ := rfl
@[simp] theorem State.setPort_grantMax1 (p : Nat) (e : EdgePort) : (s.setPort p e).grantMax1 = s.grantMax1 := rfl
@[simp] theorem State.setPort_grantMax3 (p : Nat) (e : EdgePort) : (s.setPort p e).grantMax3 = s.grantMax3 := rfl
@[simp] theorem State.setPort_slices (p : Nat) (e : EdgePort) : (s.setPort p e).slices = s.slices := rfl
@[simp] theorem State.setPort_fabCtr (p : Nat) (e : EdgePort) : (s.setPort p e).fabCtr = s.fabCtr := rfl
@[simp] theorem State.setPort_memCtr (p : Nat) (e : EdgePort) : (s.setPort p e).memCtr = s.memCtr := rfl
@[simp] theorem State.setPort_plan (p : Nat) (e : EdgePort) : (s.setPort p e).plan = s.plan := rfl
@[simp] theorem State.setPort_pairTable (p : Nat) (e : EdgePort) : (s.setPort p e).pairTable = s.pairTable := rfl
@[simp] theorem State.setPort_pairRecs (p : Nat) (e : EdgePort) : (s.setPort p e).pairRecs = s.pairRecs := rfl
@[simp] theorem State.setPort_pseq (p : Nat) (e : EdgePort) : (s.setPort p e).pseq = s.pseq := rfl
@[simp] theorem State.setPort_chaff (p : Nat) (e : EdgePort) : (s.setPort p e).chaff = s.chaff := rfl
@[simp] theorem State.setPort_twin (p : Nat) (e : EdgePort) : (s.setPort p e).twin = s.twin := rfl
@[simp] theorem State.setPort_berths (p : Nat) (e : EdgePort) : (s.setPort p e).berths = s.berths := rfl
@[simp] theorem State.setPort_posted (p : Nat) (e : EdgePort) : (s.setPort p e).posted = s.posted := rfl
@[simp] theorem State.setPort_inbox (p : Nat) (e : EdgePort) : (s.setPort p e).inbox = s.inbox := rfl
@[simp] theorem State.setPort_inboxLost (p : Nat) (e : EdgePort) : (s.setPort p e).inboxLost = s.inboxLost := rfl
@[simp] theorem State.setPort_ops (p : Nat) (e : EdgePort) : (s.setPort p e).ops = s.ops := rfl
@[simp] theorem State.setPort_opsEnded (p : Nat) (e : EdgePort) : (s.setPort p e).opsEnded = s.opsEnded := rfl
@[simp] theorem State.setPort_opNext (p : Nat) (e : EdgePort) : (s.setPort p e).opNext = s.opNext := rfl
@[simp] theorem State.setPort_fmPeers (p : Nat) (e : EdgePort) : (s.setPort p e).fmPeers = s.fmPeers := rfl
@[simp] theorem State.setPort_factoryMode (p : Nat) (e : EdgePort) : (s.setPort p e).factoryMode = s.factoryMode := rfl
@[simp] theorem State.setPort_fns (p : Nat) (e : EdgePort) : (s.setPort p e).fns = s.fns := rfl
@[simp] theorem State.setPort_vfEnable (p : Nat) (e : EdgePort) : (s.setPort p e).vfEnable = s.vfEnable := rfl
@[simp] theorem State.setPort_numVfs (p : Nat) (e : EdgePort) : (s.setPort p e).numVfs = s.numVfs := rfl
@[simp] theorem State.setPort_aptReqs (p : Nat) (e : EdgePort) : (s.setPort p e).aptReqs = s.aptReqs := rfl
@[simp] theorem State.setPort_aptReads (p : Nat) (e : EdgePort) : (s.setPort p e).aptReads = s.aptReads := rfl
@[simp] theorem State.setPort_aptNext (p : Nat) (e : EdgePort) : (s.setPort p e).aptNext = s.aptNext := rfl
@[simp] theorem State.setPort_aptWait (p : Nat) (e : EdgePort) : (s.setPort p e).aptWait = s.aptWait := rfl
@[simp] theorem State.setPort_hseq (p : Nat) (e : EdgePort) : (s.setPort p e).hseq = s.hseq := rfl
@[simp] theorem State.setPort_hstart (p : Nat) (e : EdgePort) : (s.setPort p e).hstart = s.hstart := rfl
@[simp] theorem State.setPort_advised (p : Nat) (e : EdgePort) : (s.setPort p e).advised = s.advised := rfl
@[simp] theorem State.setPort_meters (p : Nat) (e : EdgePort) : (s.setPort p e).meters = s.meters := rfl
@[simp] theorem State.setPort_frozen (p : Nat) (e : EdgePort) : (s.setPort p e).frozen = s.frozen := rfl
@[simp] theorem State.setPort_links (p : Nat) (e : EdgePort) : (s.setPort p e).links = s.links := rfl
@[simp] theorem State.setPort_lanes (p : Nat) (e : EdgePort) : (s.setPort p e).lanes = s.lanes := rfl
@[simp] theorem State.setPort_modules (p : Nat) (e : EdgePort) : (s.setPort p e).modules = s.modules := rfl
@[simp] theorem State.setPort_pathSets (p : Nat) (e : EdgePort) : (s.setPort p e).pathSets = s.pathSets := rfl
@[simp] theorem State.setPort_steers (p : Nat) (e : EdgePort) : (s.setPort p e).steers = s.steers := rfl
@[simp] theorem State.setPort_cands (p : Nat) (e : EdgePort) : (s.setPort p e).cands = s.cands := rfl
@[simp] theorem State.setPort_dieWait (p : Nat) (e : EdgePort) : (s.setPort p e).dieWait = s.dieWait := rfl
@[simp] theorem State.setPort_ackPtr (p : Nat) (e : EdgePort) : (s.setPort p e).ackPtr = s.ackPtr := rfl
@[simp] theorem State.setPort_unreached (p : Nat) (e : EdgePort) : (s.setPort p e).unreached = s.unreached := rfl
@[simp] theorem State.setPort_zones (p : Nat) (e : EdgePort) : (s.setPort p e).zones = s.zones := rfl
@[simp] theorem State.setPort_cal (p : Nat) (e : EdgePort) : (s.setPort p e).cal = s.cal := rfl
@[simp] theorem State.setPort_calQueue (p : Nat) (e : EdgePort) : (s.setPort p e).calQueue = s.calQueue := rfl
@[simp] theorem State.setPort_relocks (p : Nat) (e : EdgePort) : (s.setPort p e).relocks = s.relocks := rfl
@[simp] theorem State.setPort_ringWarn (p : Nat) (e : EdgePort) : (s.setPort p e).ringWarn = s.ringWarn := rfl
@[simp] theorem State.setPort_ringAct (p : Nat) (e : EdgePort) : (s.setPort p e).ringAct = s.ringAct := rfl
@[simp] theorem State.setPort_ringRes (p : Nat) (e : EdgePort) : (s.setPort p e).ringRes = s.ringRes := rfl
@[simp] theorem State.setPort_rxOut (p : Nat) (e : EdgePort) : (s.setPort p e).rxOut = s.rxOut := rfl
@[simp] theorem State.setPort_sensors (p : Nat) (e : EdgePort) : (s.setPort p e).sensors = s.sensors := rfl
@[simp] theorem State.setPort_accepted (p : Nat) (e : EdgePort) : (s.setPort p e).accepted = s.accepted := rfl
@[simp] theorem State.setPort_peerMinSvn (p : Nat) (e : EdgePort) : (s.setPort p e).peerMinSvn = s.peerMinSvn := rfl
@[simp] theorem State.setPort_rngStopped (p : Nat) (e : EdgePort) : (s.setPort p e).rngStopped = s.rngStopped := rfl
@[simp] theorem State.setPort_helm (p : Nat) (e : EdgePort) : (s.setPort p e).helm = s.helm := rfl
@[simp] theorem State.setPort_clock (p : Nat) (e : EdgePort) : (s.setPort p e).clock = s.clock := rfl
@[simp] theorem State.setPort_alm (p : Nat) (e : EdgePort) : (s.setPort p e).alm = s.alm := rfl
@[simp] theorem State.setPort_gleaner (p : Nat) (e : EdgePort) : (s.setPort p e).gleaner = s.gleaner := rfl
@[simp] theorem State.setPort_pins (p : Nat) (e : EdgePort) : (s.setPort p e).pins = s.pins := rfl
@[simp] theorem State.setPort_bu (p : Nat) (e : EdgePort) : (s.setPort p e).bu = s.bu := rfl
@[simp] theorem State.setPort_ind (p : Nat) (e : EdgePort) : (s.setPort p e).ind = s.ind := rfl
@[simp] theorem State.setPort_nv (p : Nat) (e : EdgePort) : (s.setPort p e).nv = s.nv := rfl
@[simp] theorem State.setPort_resValid (p : Nat) (e : EdgePort) : (s.setPort p e).resValid = s.resValid := rfl
@[simp] theorem State.setPort_rcalBoot (p : Nat) (e : EdgePort) : (s.setPort p e).rcalBoot = s.rcalBoot := rfl
@[simp] theorem State.setPort_rcalHeld (p : Nat) (e : EdgePort) : (s.setPort p e).rcalHeld = s.rcalHeld := rfl
@[simp] theorem State.setPort_cross (p : Nat) (e : EdgePort) : (s.setPort p e).cross = s.cross := rfl
@[simp] theorem State.setPort_dieCause (p : Nat) (e : EdgePort) : (s.setPort p e).dieCause = s.dieCause := rfl
@[simp] theorem State.setPort_generation (p : Nat) (e : EdgePort) : (s.setPort p e).generation = s.generation := rfl
@[simp] theorem State.setPort_changed (p : Nat) (e : EdgePort) : (s.setPort p e).changed = s.changed := rfl
@[simp] theorem State.setPort_calImage (p : Nat) (e : EdgePort) : (s.setPort p e).calImage = s.calImage := rfl
@[simp] theorem State.setPort_bist (p : Nat) (e : EdgePort) : (s.setPort p e).bist = s.bist := rfl
@[simp] theorem State.setPort_releaseWait (p : Nat) (e : EdgePort) : (s.setPort p e).releaseWait = s.releaseWait := rfl
@[simp] theorem State.setPort_capture (p : Nat) (e : EdgePort) : (s.setPort p e).capture = s.capture := rfl
@[simp] theorem State.setPort_calHeld (p : Nat) (e : EdgePort) : (s.setPort p e).calHeld = s.calHeld := rfl
@[simp] theorem State.setPort_standby (p : Nat) (e : EdgePort) : (s.setPort p e).standby = s.standby := rfl

@[simp] theorem State.setFn_pending (f : Nat) (x : Fn) : (s.setFn f x).pending = s.pending := rfl
@[simp] theorem State.setFn_freeCtr (f : Nat) (x : Fn) : (s.setFn f x).freeCtr = s.freeCtr := rfl
@[simp] theorem State.setFn_net (f : Nat) (x : Fn) : (s.setFn f x).net = s.net := rfl
@[simp] theorem State.setFn_out (f : Nat) (x : Fn) : (s.setFn f x).out = s.out := rfl
@[simp] theorem State.setFn_reports (f : Nat) (x : Fn) : (s.setFn f x).reports = s.reports := rfl
@[simp] theorem State.setFn_reckon (f : Nat) (x : Fn) : (s.setFn f x).reckon = s.reckon := rfl
@[simp] theorem State.setFn_dieCycle (f : Nat) (x : Fn) : (s.setFn f x).dieCycle = s.dieCycle := rfl
@[simp] theorem State.setFn_dieStep (f : Nat) (x : Fn) : (s.setFn f x).dieStep = s.dieStep := rfl
@[simp] theorem State.setFn_hold (f : Nat) (x : Fn) : (s.setFn f x).hold = s.hold := rfl
@[simp] theorem State.setFn_holdNotice (f : Nat) (x : Fn) : (s.setFn f x).holdNotice = s.holdNotice := rfl
@[simp] theorem State.setFn_meshDown (f : Nat) (x : Fn) : (s.setFn f x).meshDown = s.meshDown := rfl
@[simp] theorem State.setFn_selfNum (f : Nat) (x : Fn) : (s.setFn f x).selfNum = s.selfNum := rfl
@[simp] theorem State.setFn_selfValid (f : Nat) (x : Fn) : (s.setFn f x).selfValid = s.selfValid := rfl
@[simp] theorem State.setFn_variant (f : Nat) (x : Fn) : (s.setFn f x).variant = s.variant := rfl
@[simp] theorem State.setFn_ready (f : Nat) (x : Fn) : (s.setFn f x).ready = s.ready := rfl
@[simp] theorem State.setFn_cores (f : Nat) (x : Fn) : (s.setFn f x).cores = s.cores := rfl
@[simp] theorem State.setFn_gateways (f : Nat) (x : Fn) : (s.setFn f x).gateways = s.gateways := rfl
@[simp] theorem State.setFn_coreDown (f : Nat) (x : Fn) : (s.setFn f x).coreDown = s.coreDown := rfl
@[simp] theorem State.setFn_dieDown (f : Nat) (x : Fn) : (s.setFn f x).dieDown = s.dieDown := rfl
@[simp] theorem State.setFn_clusterDown (f : Nat) (x : Fn) : (s.setFn f x).clusterDown = s.clusterDown := rfl
@[simp] theorem State.setFn_clusterUp (f : Nat) (x : Fn) : (s.setFn f x).clusterUp = s.clusterUp := rfl
@[simp] theorem State.setFn_clusterOwner (f : Nat) (x : Fn) : (s.setFn f x).clusterOwner = s.clusterOwner := rfl
@[simp] theorem State.setFn_barns (f : Nat) (x : Fn) : (s.setFn f x).barns = s.barns := rfl
@[simp] theorem State.setFn_gangs (f : Nat) (x : Fn) : (s.setFn f x).gangs = s.gangs := rfl
@[simp] theorem State.setFn_sheaf (f : Nat) (x : Fn) : (s.setFn f x).sheaf = s.sheaf := rfl
@[simp] theorem State.setFn_sheafEarly (f : Nat) (x : Fn) : (s.setFn f x).sheafEarly = s.sheafEarly := rfl
@[simp] theorem State.setFn_shLate (f : Nat) (x : Fn) : (s.setFn f x).shLate = s.shLate := rfl
@[simp] theorem State.setFn_hbm (f : Nat) (x : Fn) : (s.setFn f x).hbm = s.hbm := rfl
@[simp] theorem State.setFn_poison (f : Nat) (x : Fn) : (s.setFn f x).poison = s.poison := rfl
@[simp] theorem State.setFn_granules (f : Nat) (x : Fn) : (s.setFn f x).granules = s.granules := rfl
@[simp] theorem State.setFn_channels (f : Nat) (x : Fn) : (s.setFn f x).channels = s.channels := rfl
@[simp] theorem State.setFn_queueOwner (f : Nat) (x : Fn) : (s.setFn f x).queueOwner = s.queueOwner := rfl
@[simp] theorem State.setFn_queues (f : Nat) (x : Fn) : (s.setFn f x).queues = s.queues := rfl
@[simp] theorem State.setFn_readAhead (f : Nat) (x : Fn) : (s.setFn f x).readAhead = s.readAhead := rfl
@[simp] theorem State.setFn_rowWait (f : Nat) (x : Fn) : (s.setFn f x).rowWait = s.rowWait := rfl
@[simp] theorem State.setFn_repairs (f : Nat) (x : Fn) : (s.setFn f x).repairs = s.repairs := rfl
@[simp] theorem State.setFn_courses (f : Nat) (x : Fn) : (s.setFn f x).courses = s.courses := rfl
@[simp] theorem State.setFn_srcWin (f : Nat) (x : Fn) : (s.setFn f x).srcWin = s.srcWin := rfl
@[simp] theorem State.setFn_dstWin (f : Nat) (x : Fn) : (s.setFn f x).dstWin = s.dstWin := rfl
@[simp] theorem State.setFn_pool1 (f : Nat) (x : Fn) : (s.setFn f x).pool1 = s.pool1 := rfl
@[simp] theorem State.setFn_pool3 (f : Nat) (x : Fn) : (s.setFn f x).pool3 = s.pool3 := rfl
@[simp] theorem State.setFn_grantQ (f : Nat) (x : Fn) : (s.setFn f x).grantQ = s.grantQ := rfl
@[simp] theorem State.setFn_grantMax1 (f : Nat) (x : Fn) : (s.setFn f x).grantMax1 = s.grantMax1 := rfl
@[simp] theorem State.setFn_grantMax3 (f : Nat) (x : Fn) : (s.setFn f x).grantMax3 = s.grantMax3 := rfl
@[simp] theorem State.setFn_slices (f : Nat) (x : Fn) : (s.setFn f x).slices = s.slices := rfl
@[simp] theorem State.setFn_fabCtr (f : Nat) (x : Fn) : (s.setFn f x).fabCtr = s.fabCtr := rfl
@[simp] theorem State.setFn_memCtr (f : Nat) (x : Fn) : (s.setFn f x).memCtr = s.memCtr := rfl
@[simp] theorem State.setFn_plan (f : Nat) (x : Fn) : (s.setFn f x).plan = s.plan := rfl
@[simp] theorem State.setFn_ports (f : Nat) (x : Fn) : (s.setFn f x).ports = s.ports := rfl
@[simp] theorem State.setFn_pairTable (f : Nat) (x : Fn) : (s.setFn f x).pairTable = s.pairTable := rfl
@[simp] theorem State.setFn_pairRecs (f : Nat) (x : Fn) : (s.setFn f x).pairRecs = s.pairRecs := rfl
@[simp] theorem State.setFn_pseq (f : Nat) (x : Fn) : (s.setFn f x).pseq = s.pseq := rfl
@[simp] theorem State.setFn_chaff (f : Nat) (x : Fn) : (s.setFn f x).chaff = s.chaff := rfl
@[simp] theorem State.setFn_twin (f : Nat) (x : Fn) : (s.setFn f x).twin = s.twin := rfl
@[simp] theorem State.setFn_berths (f : Nat) (x : Fn) : (s.setFn f x).berths = s.berths := rfl
@[simp] theorem State.setFn_posted (f : Nat) (x : Fn) : (s.setFn f x).posted = s.posted := rfl
@[simp] theorem State.setFn_inbox (f : Nat) (x : Fn) : (s.setFn f x).inbox = s.inbox := rfl
@[simp] theorem State.setFn_inboxLost (f : Nat) (x : Fn) : (s.setFn f x).inboxLost = s.inboxLost := rfl
@[simp] theorem State.setFn_ops (f : Nat) (x : Fn) : (s.setFn f x).ops = s.ops := rfl
@[simp] theorem State.setFn_opsEnded (f : Nat) (x : Fn) : (s.setFn f x).opsEnded = s.opsEnded := rfl
@[simp] theorem State.setFn_opNext (f : Nat) (x : Fn) : (s.setFn f x).opNext = s.opNext := rfl
@[simp] theorem State.setFn_fmPeers (f : Nat) (x : Fn) : (s.setFn f x).fmPeers = s.fmPeers := rfl
@[simp] theorem State.setFn_factoryMode (f : Nat) (x : Fn) : (s.setFn f x).factoryMode = s.factoryMode := rfl
@[simp] theorem State.setFn_vfEnable (f : Nat) (x : Fn) : (s.setFn f x).vfEnable = s.vfEnable := rfl
@[simp] theorem State.setFn_numVfs (f : Nat) (x : Fn) : (s.setFn f x).numVfs = s.numVfs := rfl
@[simp] theorem State.setFn_aptReqs (f : Nat) (x : Fn) : (s.setFn f x).aptReqs = s.aptReqs := rfl
@[simp] theorem State.setFn_aptReads (f : Nat) (x : Fn) : (s.setFn f x).aptReads = s.aptReads := rfl
@[simp] theorem State.setFn_aptNext (f : Nat) (x : Fn) : (s.setFn f x).aptNext = s.aptNext := rfl
@[simp] theorem State.setFn_aptWait (f : Nat) (x : Fn) : (s.setFn f x).aptWait = s.aptWait := rfl
@[simp] theorem State.setFn_hseq (f : Nat) (x : Fn) : (s.setFn f x).hseq = s.hseq := rfl
@[simp] theorem State.setFn_hstart (f : Nat) (x : Fn) : (s.setFn f x).hstart = s.hstart := rfl
@[simp] theorem State.setFn_advised (f : Nat) (x : Fn) : (s.setFn f x).advised = s.advised := rfl
@[simp] theorem State.setFn_meters (f : Nat) (x : Fn) : (s.setFn f x).meters = s.meters := rfl
@[simp] theorem State.setFn_frozen (f : Nat) (x : Fn) : (s.setFn f x).frozen = s.frozen := rfl
@[simp] theorem State.setFn_links (f : Nat) (x : Fn) : (s.setFn f x).links = s.links := rfl
@[simp] theorem State.setFn_lanes (f : Nat) (x : Fn) : (s.setFn f x).lanes = s.lanes := rfl
@[simp] theorem State.setFn_modules (f : Nat) (x : Fn) : (s.setFn f x).modules = s.modules := rfl
@[simp] theorem State.setFn_pathSets (f : Nat) (x : Fn) : (s.setFn f x).pathSets = s.pathSets := rfl
@[simp] theorem State.setFn_steers (f : Nat) (x : Fn) : (s.setFn f x).steers = s.steers := rfl
@[simp] theorem State.setFn_cands (f : Nat) (x : Fn) : (s.setFn f x).cands = s.cands := rfl
@[simp] theorem State.setFn_dieWait (f : Nat) (x : Fn) : (s.setFn f x).dieWait = s.dieWait := rfl
@[simp] theorem State.setFn_ackPtr (f : Nat) (x : Fn) : (s.setFn f x).ackPtr = s.ackPtr := rfl
@[simp] theorem State.setFn_unreached (f : Nat) (x : Fn) : (s.setFn f x).unreached = s.unreached := rfl
@[simp] theorem State.setFn_zones (f : Nat) (x : Fn) : (s.setFn f x).zones = s.zones := rfl
@[simp] theorem State.setFn_cal (f : Nat) (x : Fn) : (s.setFn f x).cal = s.cal := rfl
@[simp] theorem State.setFn_calQueue (f : Nat) (x : Fn) : (s.setFn f x).calQueue = s.calQueue := rfl
@[simp] theorem State.setFn_relocks (f : Nat) (x : Fn) : (s.setFn f x).relocks = s.relocks := rfl
@[simp] theorem State.setFn_ringWarn (f : Nat) (x : Fn) : (s.setFn f x).ringWarn = s.ringWarn := rfl
@[simp] theorem State.setFn_ringAct (f : Nat) (x : Fn) : (s.setFn f x).ringAct = s.ringAct := rfl
@[simp] theorem State.setFn_ringRes (f : Nat) (x : Fn) : (s.setFn f x).ringRes = s.ringRes := rfl
@[simp] theorem State.setFn_rxOut (f : Nat) (x : Fn) : (s.setFn f x).rxOut = s.rxOut := rfl
@[simp] theorem State.setFn_sensors (f : Nat) (x : Fn) : (s.setFn f x).sensors = s.sensors := rfl
@[simp] theorem State.setFn_accepted (f : Nat) (x : Fn) : (s.setFn f x).accepted = s.accepted := rfl
@[simp] theorem State.setFn_peerMinSvn (f : Nat) (x : Fn) : (s.setFn f x).peerMinSvn = s.peerMinSvn := rfl
@[simp] theorem State.setFn_rngStopped (f : Nat) (x : Fn) : (s.setFn f x).rngStopped = s.rngStopped := rfl
@[simp] theorem State.setFn_helm (f : Nat) (x : Fn) : (s.setFn f x).helm = s.helm := rfl
@[simp] theorem State.setFn_clock (f : Nat) (x : Fn) : (s.setFn f x).clock = s.clock := rfl
@[simp] theorem State.setFn_alm (f : Nat) (x : Fn) : (s.setFn f x).alm = s.alm := rfl
@[simp] theorem State.setFn_gleaner (f : Nat) (x : Fn) : (s.setFn f x).gleaner = s.gleaner := rfl
@[simp] theorem State.setFn_pins (f : Nat) (x : Fn) : (s.setFn f x).pins = s.pins := rfl
@[simp] theorem State.setFn_bu (f : Nat) (x : Fn) : (s.setFn f x).bu = s.bu := rfl
@[simp] theorem State.setFn_ind (f : Nat) (x : Fn) : (s.setFn f x).ind = s.ind := rfl
@[simp] theorem State.setFn_nv (f : Nat) (x : Fn) : (s.setFn f x).nv = s.nv := rfl
@[simp] theorem State.setFn_resValid (f : Nat) (x : Fn) : (s.setFn f x).resValid = s.resValid := rfl
@[simp] theorem State.setFn_rcalBoot (f : Nat) (x : Fn) : (s.setFn f x).rcalBoot = s.rcalBoot := rfl
@[simp] theorem State.setFn_rcalHeld (f : Nat) (x : Fn) : (s.setFn f x).rcalHeld = s.rcalHeld := rfl
@[simp] theorem State.setFn_cross (f : Nat) (x : Fn) : (s.setFn f x).cross = s.cross := rfl
@[simp] theorem State.setFn_dieCause (f : Nat) (x : Fn) : (s.setFn f x).dieCause = s.dieCause := rfl
@[simp] theorem State.setFn_generation (f : Nat) (x : Fn) : (s.setFn f x).generation = s.generation := rfl
@[simp] theorem State.setFn_changed (f : Nat) (x : Fn) : (s.setFn f x).changed = s.changed := rfl
@[simp] theorem State.setFn_calImage (f : Nat) (x : Fn) : (s.setFn f x).calImage = s.calImage := rfl
@[simp] theorem State.setFn_bist (f : Nat) (x : Fn) : (s.setFn f x).bist = s.bist := rfl
@[simp] theorem State.setFn_releaseWait (f : Nat) (x : Fn) : (s.setFn f x).releaseWait = s.releaseWait := rfl
@[simp] theorem State.setFn_capture (f : Nat) (x : Fn) : (s.setFn f x).capture = s.capture := rfl
@[simp] theorem State.setFn_calHeld (f : Nat) (x : Fn) : (s.setFn f x).calHeld = s.calHeld := rfl
@[simp] theorem State.setFn_standby (f : Nat) (x : Fn) : (s.setFn f x).standby = s.standby := rfl

@[simp] theorem State.onMctr_pending (b : Nat) (f : MemCtr → MemCtr) : (s.onMctr b f).pending = s.pending := rfl
@[simp] theorem State.onMctr_freeCtr (b : Nat) (f : MemCtr → MemCtr) : (s.onMctr b f).freeCtr = s.freeCtr := rfl
@[simp] theorem State.onMctr_net (b : Nat) (f : MemCtr → MemCtr) : (s.onMctr b f).net = s.net := rfl
@[simp] theorem State.onMctr_out (b : Nat) (f : MemCtr → MemCtr) : (s.onMctr b f).out = s.out := rfl
@[simp] theorem State.onMctr_reports (b : Nat) (f : MemCtr → MemCtr) : (s.onMctr b f).reports = s.reports := rfl
@[simp] theorem State.onMctr_reckon (b : Nat) (f : MemCtr → MemCtr) : (s.onMctr b f).reckon = s.reckon := rfl
@[simp] theorem State.onMctr_dieCycle (b : Nat) (f : MemCtr → MemCtr) : (s.onMctr b f).dieCycle = s.dieCycle := rfl
@[simp] theorem State.onMctr_dieStep (b : Nat) (f : MemCtr → MemCtr) : (s.onMctr b f).dieStep = s.dieStep := rfl
@[simp] theorem State.onMctr_hold (b : Nat) (f : MemCtr → MemCtr) : (s.onMctr b f).hold = s.hold := rfl
@[simp] theorem State.onMctr_holdNotice (b : Nat) (f : MemCtr → MemCtr) : (s.onMctr b f).holdNotice = s.holdNotice := rfl
@[simp] theorem State.onMctr_meshDown (b : Nat) (f : MemCtr → MemCtr) : (s.onMctr b f).meshDown = s.meshDown := rfl
@[simp] theorem State.onMctr_selfNum (b : Nat) (f : MemCtr → MemCtr) : (s.onMctr b f).selfNum = s.selfNum := rfl
@[simp] theorem State.onMctr_selfValid (b : Nat) (f : MemCtr → MemCtr) : (s.onMctr b f).selfValid = s.selfValid := rfl
@[simp] theorem State.onMctr_variant (b : Nat) (f : MemCtr → MemCtr) : (s.onMctr b f).variant = s.variant := rfl
@[simp] theorem State.onMctr_ready (b : Nat) (f : MemCtr → MemCtr) : (s.onMctr b f).ready = s.ready := rfl
@[simp] theorem State.onMctr_cores (b : Nat) (f : MemCtr → MemCtr) : (s.onMctr b f).cores = s.cores := rfl
@[simp] theorem State.onMctr_gateways (b : Nat) (f : MemCtr → MemCtr) : (s.onMctr b f).gateways = s.gateways := rfl
@[simp] theorem State.onMctr_coreDown (b : Nat) (f : MemCtr → MemCtr) : (s.onMctr b f).coreDown = s.coreDown := rfl
@[simp] theorem State.onMctr_dieDown (b : Nat) (f : MemCtr → MemCtr) : (s.onMctr b f).dieDown = s.dieDown := rfl
@[simp] theorem State.onMctr_clusterDown (b : Nat) (f : MemCtr → MemCtr) : (s.onMctr b f).clusterDown = s.clusterDown := rfl
@[simp] theorem State.onMctr_clusterUp (b : Nat) (f : MemCtr → MemCtr) : (s.onMctr b f).clusterUp = s.clusterUp := rfl
@[simp] theorem State.onMctr_clusterOwner (b : Nat) (f : MemCtr → MemCtr) : (s.onMctr b f).clusterOwner = s.clusterOwner := rfl
@[simp] theorem State.onMctr_barns (b : Nat) (f : MemCtr → MemCtr) : (s.onMctr b f).barns = s.barns := rfl
@[simp] theorem State.onMctr_gangs (b : Nat) (f : MemCtr → MemCtr) : (s.onMctr b f).gangs = s.gangs := rfl
@[simp] theorem State.onMctr_sheaf (b : Nat) (f : MemCtr → MemCtr) : (s.onMctr b f).sheaf = s.sheaf := rfl
@[simp] theorem State.onMctr_sheafEarly (b : Nat) (f : MemCtr → MemCtr) : (s.onMctr b f).sheafEarly = s.sheafEarly := rfl
@[simp] theorem State.onMctr_shLate (b : Nat) (f : MemCtr → MemCtr) : (s.onMctr b f).shLate = s.shLate := rfl
@[simp] theorem State.onMctr_hbm (b : Nat) (f : MemCtr → MemCtr) : (s.onMctr b f).hbm = s.hbm := rfl
@[simp] theorem State.onMctr_poison (b : Nat) (f : MemCtr → MemCtr) : (s.onMctr b f).poison = s.poison := rfl
@[simp] theorem State.onMctr_granules (b : Nat) (f : MemCtr → MemCtr) : (s.onMctr b f).granules = s.granules := rfl
@[simp] theorem State.onMctr_channels (b : Nat) (f : MemCtr → MemCtr) : (s.onMctr b f).channels = s.channels := rfl
@[simp] theorem State.onMctr_queueOwner (b : Nat) (f : MemCtr → MemCtr) : (s.onMctr b f).queueOwner = s.queueOwner := rfl
@[simp] theorem State.onMctr_queues (b : Nat) (f : MemCtr → MemCtr) : (s.onMctr b f).queues = s.queues := rfl
@[simp] theorem State.onMctr_readAhead (b : Nat) (f : MemCtr → MemCtr) : (s.onMctr b f).readAhead = s.readAhead := rfl
@[simp] theorem State.onMctr_rowWait (b : Nat) (f : MemCtr → MemCtr) : (s.onMctr b f).rowWait = s.rowWait := rfl
@[simp] theorem State.onMctr_repairs (b : Nat) (f : MemCtr → MemCtr) : (s.onMctr b f).repairs = s.repairs := rfl
@[simp] theorem State.onMctr_courses (b : Nat) (f : MemCtr → MemCtr) : (s.onMctr b f).courses = s.courses := rfl
@[simp] theorem State.onMctr_srcWin (b : Nat) (f : MemCtr → MemCtr) : (s.onMctr b f).srcWin = s.srcWin := rfl
@[simp] theorem State.onMctr_dstWin (b : Nat) (f : MemCtr → MemCtr) : (s.onMctr b f).dstWin = s.dstWin := rfl
@[simp] theorem State.onMctr_pool1 (b : Nat) (f : MemCtr → MemCtr) : (s.onMctr b f).pool1 = s.pool1 := rfl
@[simp] theorem State.onMctr_pool3 (b : Nat) (f : MemCtr → MemCtr) : (s.onMctr b f).pool3 = s.pool3 := rfl
@[simp] theorem State.onMctr_grantQ (b : Nat) (f : MemCtr → MemCtr) : (s.onMctr b f).grantQ = s.grantQ := rfl
@[simp] theorem State.onMctr_grantMax1 (b : Nat) (f : MemCtr → MemCtr) : (s.onMctr b f).grantMax1 = s.grantMax1 := rfl
@[simp] theorem State.onMctr_grantMax3 (b : Nat) (f : MemCtr → MemCtr) : (s.onMctr b f).grantMax3 = s.grantMax3 := rfl
@[simp] theorem State.onMctr_slices (b : Nat) (f : MemCtr → MemCtr) : (s.onMctr b f).slices = s.slices := rfl
@[simp] theorem State.onMctr_fabCtr (b : Nat) (f : MemCtr → MemCtr) : (s.onMctr b f).fabCtr = s.fabCtr := rfl
@[simp] theorem State.onMctr_plan (b : Nat) (f : MemCtr → MemCtr) : (s.onMctr b f).plan = s.plan := rfl
@[simp] theorem State.onMctr_ports (b : Nat) (f : MemCtr → MemCtr) : (s.onMctr b f).ports = s.ports := rfl
@[simp] theorem State.onMctr_pairTable (b : Nat) (f : MemCtr → MemCtr) : (s.onMctr b f).pairTable = s.pairTable := rfl
@[simp] theorem State.onMctr_pairRecs (b : Nat) (f : MemCtr → MemCtr) : (s.onMctr b f).pairRecs = s.pairRecs := rfl
@[simp] theorem State.onMctr_pseq (b : Nat) (f : MemCtr → MemCtr) : (s.onMctr b f).pseq = s.pseq := rfl
@[simp] theorem State.onMctr_chaff (b : Nat) (f : MemCtr → MemCtr) : (s.onMctr b f).chaff = s.chaff := rfl
@[simp] theorem State.onMctr_twin (b : Nat) (f : MemCtr → MemCtr) : (s.onMctr b f).twin = s.twin := rfl
@[simp] theorem State.onMctr_berths (b : Nat) (f : MemCtr → MemCtr) : (s.onMctr b f).berths = s.berths := rfl
@[simp] theorem State.onMctr_posted (b : Nat) (f : MemCtr → MemCtr) : (s.onMctr b f).posted = s.posted := rfl
@[simp] theorem State.onMctr_inbox (b : Nat) (f : MemCtr → MemCtr) : (s.onMctr b f).inbox = s.inbox := rfl
@[simp] theorem State.onMctr_inboxLost (b : Nat) (f : MemCtr → MemCtr) : (s.onMctr b f).inboxLost = s.inboxLost := rfl
@[simp] theorem State.onMctr_ops (b : Nat) (f : MemCtr → MemCtr) : (s.onMctr b f).ops = s.ops := rfl
@[simp] theorem State.onMctr_opsEnded (b : Nat) (f : MemCtr → MemCtr) : (s.onMctr b f).opsEnded = s.opsEnded := rfl
@[simp] theorem State.onMctr_opNext (b : Nat) (f : MemCtr → MemCtr) : (s.onMctr b f).opNext = s.opNext := rfl
@[simp] theorem State.onMctr_fmPeers (b : Nat) (f : MemCtr → MemCtr) : (s.onMctr b f).fmPeers = s.fmPeers := rfl
@[simp] theorem State.onMctr_factoryMode (b : Nat) (f : MemCtr → MemCtr) : (s.onMctr b f).factoryMode = s.factoryMode := rfl
@[simp] theorem State.onMctr_fns (b : Nat) (f : MemCtr → MemCtr) : (s.onMctr b f).fns = s.fns := rfl
@[simp] theorem State.onMctr_vfEnable (b : Nat) (f : MemCtr → MemCtr) : (s.onMctr b f).vfEnable = s.vfEnable := rfl
@[simp] theorem State.onMctr_numVfs (b : Nat) (f : MemCtr → MemCtr) : (s.onMctr b f).numVfs = s.numVfs := rfl
@[simp] theorem State.onMctr_aptReqs (b : Nat) (f : MemCtr → MemCtr) : (s.onMctr b f).aptReqs = s.aptReqs := rfl
@[simp] theorem State.onMctr_aptReads (b : Nat) (f : MemCtr → MemCtr) : (s.onMctr b f).aptReads = s.aptReads := rfl
@[simp] theorem State.onMctr_aptNext (b : Nat) (f : MemCtr → MemCtr) : (s.onMctr b f).aptNext = s.aptNext := rfl
@[simp] theorem State.onMctr_aptWait (b : Nat) (f : MemCtr → MemCtr) : (s.onMctr b f).aptWait = s.aptWait := rfl
@[simp] theorem State.onMctr_hseq (b : Nat) (f : MemCtr → MemCtr) : (s.onMctr b f).hseq = s.hseq := rfl
@[simp] theorem State.onMctr_hstart (b : Nat) (f : MemCtr → MemCtr) : (s.onMctr b f).hstart = s.hstart := rfl
@[simp] theorem State.onMctr_advised (b : Nat) (f : MemCtr → MemCtr) : (s.onMctr b f).advised = s.advised := rfl
@[simp] theorem State.onMctr_meters (b : Nat) (f : MemCtr → MemCtr) : (s.onMctr b f).meters = s.meters := rfl
@[simp] theorem State.onMctr_frozen (b : Nat) (f : MemCtr → MemCtr) : (s.onMctr b f).frozen = s.frozen := rfl
@[simp] theorem State.onMctr_links (b : Nat) (f : MemCtr → MemCtr) : (s.onMctr b f).links = s.links := rfl
@[simp] theorem State.onMctr_lanes (b : Nat) (f : MemCtr → MemCtr) : (s.onMctr b f).lanes = s.lanes := rfl
@[simp] theorem State.onMctr_modules (b : Nat) (f : MemCtr → MemCtr) : (s.onMctr b f).modules = s.modules := rfl
@[simp] theorem State.onMctr_pathSets (b : Nat) (f : MemCtr → MemCtr) : (s.onMctr b f).pathSets = s.pathSets := rfl
@[simp] theorem State.onMctr_steers (b : Nat) (f : MemCtr → MemCtr) : (s.onMctr b f).steers = s.steers := rfl
@[simp] theorem State.onMctr_cands (b : Nat) (f : MemCtr → MemCtr) : (s.onMctr b f).cands = s.cands := rfl
@[simp] theorem State.onMctr_dieWait (b : Nat) (f : MemCtr → MemCtr) : (s.onMctr b f).dieWait = s.dieWait := rfl
@[simp] theorem State.onMctr_ackPtr (b : Nat) (f : MemCtr → MemCtr) : (s.onMctr b f).ackPtr = s.ackPtr := rfl
@[simp] theorem State.onMctr_unreached (b : Nat) (f : MemCtr → MemCtr) : (s.onMctr b f).unreached = s.unreached := rfl
@[simp] theorem State.onMctr_zones (b : Nat) (f : MemCtr → MemCtr) : (s.onMctr b f).zones = s.zones := rfl
@[simp] theorem State.onMctr_cal (b : Nat) (f : MemCtr → MemCtr) : (s.onMctr b f).cal = s.cal := rfl
@[simp] theorem State.onMctr_calQueue (b : Nat) (f : MemCtr → MemCtr) : (s.onMctr b f).calQueue = s.calQueue := rfl
@[simp] theorem State.onMctr_relocks (b : Nat) (f : MemCtr → MemCtr) : (s.onMctr b f).relocks = s.relocks := rfl
@[simp] theorem State.onMctr_ringWarn (b : Nat) (f : MemCtr → MemCtr) : (s.onMctr b f).ringWarn = s.ringWarn := rfl
@[simp] theorem State.onMctr_ringAct (b : Nat) (f : MemCtr → MemCtr) : (s.onMctr b f).ringAct = s.ringAct := rfl
@[simp] theorem State.onMctr_ringRes (b : Nat) (f : MemCtr → MemCtr) : (s.onMctr b f).ringRes = s.ringRes := rfl
@[simp] theorem State.onMctr_rxOut (b : Nat) (f : MemCtr → MemCtr) : (s.onMctr b f).rxOut = s.rxOut := rfl
@[simp] theorem State.onMctr_sensors (b : Nat) (f : MemCtr → MemCtr) : (s.onMctr b f).sensors = s.sensors := rfl
@[simp] theorem State.onMctr_accepted (b : Nat) (f : MemCtr → MemCtr) : (s.onMctr b f).accepted = s.accepted := rfl
@[simp] theorem State.onMctr_peerMinSvn (b : Nat) (f : MemCtr → MemCtr) : (s.onMctr b f).peerMinSvn = s.peerMinSvn := rfl
@[simp] theorem State.onMctr_rngStopped (b : Nat) (f : MemCtr → MemCtr) : (s.onMctr b f).rngStopped = s.rngStopped := rfl
@[simp] theorem State.onMctr_helm (b : Nat) (f : MemCtr → MemCtr) : (s.onMctr b f).helm = s.helm := rfl
@[simp] theorem State.onMctr_clock (b : Nat) (f : MemCtr → MemCtr) : (s.onMctr b f).clock = s.clock := rfl
@[simp] theorem State.onMctr_alm (b : Nat) (f : MemCtr → MemCtr) : (s.onMctr b f).alm = s.alm := rfl
@[simp] theorem State.onMctr_gleaner (b : Nat) (f : MemCtr → MemCtr) : (s.onMctr b f).gleaner = s.gleaner := rfl
@[simp] theorem State.onMctr_pins (b : Nat) (f : MemCtr → MemCtr) : (s.onMctr b f).pins = s.pins := rfl
@[simp] theorem State.onMctr_bu (b : Nat) (f : MemCtr → MemCtr) : (s.onMctr b f).bu = s.bu := rfl
@[simp] theorem State.onMctr_ind (b : Nat) (f : MemCtr → MemCtr) : (s.onMctr b f).ind = s.ind := rfl
@[simp] theorem State.onMctr_nv (b : Nat) (f : MemCtr → MemCtr) : (s.onMctr b f).nv = s.nv := rfl
@[simp] theorem State.onMctr_resValid (b : Nat) (f : MemCtr → MemCtr) : (s.onMctr b f).resValid = s.resValid := rfl
@[simp] theorem State.onMctr_rcalBoot (b : Nat) (f : MemCtr → MemCtr) : (s.onMctr b f).rcalBoot = s.rcalBoot := rfl
@[simp] theorem State.onMctr_rcalHeld (b : Nat) (f : MemCtr → MemCtr) : (s.onMctr b f).rcalHeld = s.rcalHeld := rfl
@[simp] theorem State.onMctr_cross (b : Nat) (f : MemCtr → MemCtr) : (s.onMctr b f).cross = s.cross := rfl
@[simp] theorem State.onMctr_dieCause (b : Nat) (f : MemCtr → MemCtr) : (s.onMctr b f).dieCause = s.dieCause := rfl
@[simp] theorem State.onMctr_generation (b : Nat) (f : MemCtr → MemCtr) : (s.onMctr b f).generation = s.generation := rfl
@[simp] theorem State.onMctr_changed (b : Nat) (f : MemCtr → MemCtr) : (s.onMctr b f).changed = s.changed := rfl
@[simp] theorem State.onMctr_calImage (b : Nat) (f : MemCtr → MemCtr) : (s.onMctr b f).calImage = s.calImage := rfl
@[simp] theorem State.onMctr_bist (b : Nat) (f : MemCtr → MemCtr) : (s.onMctr b f).bist = s.bist := rfl
@[simp] theorem State.onMctr_releaseWait (b : Nat) (f : MemCtr → MemCtr) : (s.onMctr b f).releaseWait = s.releaseWait := rfl
@[simp] theorem State.onMctr_capture (b : Nat) (f : MemCtr → MemCtr) : (s.onMctr b f).capture = s.capture := rfl
@[simp] theorem State.onMctr_calHeld (b : Nat) (f : MemCtr → MemCtr) : (s.onMctr b f).calHeld = s.calHeld := rfl
@[simp] theorem State.onMctr_standby (b : Nat) (f : MemCtr → MemCtr) : (s.onMctr b f).standby = s.standby := rfl

@[simp] theorem State.onFctr_pending (b : Nat) (f : FabCtr → FabCtr) : (s.onFctr b f).pending = s.pending := rfl
@[simp] theorem State.onFctr_freeCtr (b : Nat) (f : FabCtr → FabCtr) : (s.onFctr b f).freeCtr = s.freeCtr := rfl
@[simp] theorem State.onFctr_net (b : Nat) (f : FabCtr → FabCtr) : (s.onFctr b f).net = s.net := rfl
@[simp] theorem State.onFctr_out (b : Nat) (f : FabCtr → FabCtr) : (s.onFctr b f).out = s.out := rfl
@[simp] theorem State.onFctr_reports (b : Nat) (f : FabCtr → FabCtr) : (s.onFctr b f).reports = s.reports := rfl
@[simp] theorem State.onFctr_reckon (b : Nat) (f : FabCtr → FabCtr) : (s.onFctr b f).reckon = s.reckon := rfl
@[simp] theorem State.onFctr_dieCycle (b : Nat) (f : FabCtr → FabCtr) : (s.onFctr b f).dieCycle = s.dieCycle := rfl
@[simp] theorem State.onFctr_dieStep (b : Nat) (f : FabCtr → FabCtr) : (s.onFctr b f).dieStep = s.dieStep := rfl
@[simp] theorem State.onFctr_hold (b : Nat) (f : FabCtr → FabCtr) : (s.onFctr b f).hold = s.hold := rfl
@[simp] theorem State.onFctr_holdNotice (b : Nat) (f : FabCtr → FabCtr) : (s.onFctr b f).holdNotice = s.holdNotice := rfl
@[simp] theorem State.onFctr_meshDown (b : Nat) (f : FabCtr → FabCtr) : (s.onFctr b f).meshDown = s.meshDown := rfl
@[simp] theorem State.onFctr_selfNum (b : Nat) (f : FabCtr → FabCtr) : (s.onFctr b f).selfNum = s.selfNum := rfl
@[simp] theorem State.onFctr_selfValid (b : Nat) (f : FabCtr → FabCtr) : (s.onFctr b f).selfValid = s.selfValid := rfl
@[simp] theorem State.onFctr_variant (b : Nat) (f : FabCtr → FabCtr) : (s.onFctr b f).variant = s.variant := rfl
@[simp] theorem State.onFctr_ready (b : Nat) (f : FabCtr → FabCtr) : (s.onFctr b f).ready = s.ready := rfl
@[simp] theorem State.onFctr_cores (b : Nat) (f : FabCtr → FabCtr) : (s.onFctr b f).cores = s.cores := rfl
@[simp] theorem State.onFctr_gateways (b : Nat) (f : FabCtr → FabCtr) : (s.onFctr b f).gateways = s.gateways := rfl
@[simp] theorem State.onFctr_coreDown (b : Nat) (f : FabCtr → FabCtr) : (s.onFctr b f).coreDown = s.coreDown := rfl
@[simp] theorem State.onFctr_dieDown (b : Nat) (f : FabCtr → FabCtr) : (s.onFctr b f).dieDown = s.dieDown := rfl
@[simp] theorem State.onFctr_clusterDown (b : Nat) (f : FabCtr → FabCtr) : (s.onFctr b f).clusterDown = s.clusterDown := rfl
@[simp] theorem State.onFctr_clusterUp (b : Nat) (f : FabCtr → FabCtr) : (s.onFctr b f).clusterUp = s.clusterUp := rfl
@[simp] theorem State.onFctr_clusterOwner (b : Nat) (f : FabCtr → FabCtr) : (s.onFctr b f).clusterOwner = s.clusterOwner := rfl
@[simp] theorem State.onFctr_barns (b : Nat) (f : FabCtr → FabCtr) : (s.onFctr b f).barns = s.barns := rfl
@[simp] theorem State.onFctr_gangs (b : Nat) (f : FabCtr → FabCtr) : (s.onFctr b f).gangs = s.gangs := rfl
@[simp] theorem State.onFctr_sheaf (b : Nat) (f : FabCtr → FabCtr) : (s.onFctr b f).sheaf = s.sheaf := rfl
@[simp] theorem State.onFctr_sheafEarly (b : Nat) (f : FabCtr → FabCtr) : (s.onFctr b f).sheafEarly = s.sheafEarly := rfl
@[simp] theorem State.onFctr_shLate (b : Nat) (f : FabCtr → FabCtr) : (s.onFctr b f).shLate = s.shLate := rfl
@[simp] theorem State.onFctr_hbm (b : Nat) (f : FabCtr → FabCtr) : (s.onFctr b f).hbm = s.hbm := rfl
@[simp] theorem State.onFctr_poison (b : Nat) (f : FabCtr → FabCtr) : (s.onFctr b f).poison = s.poison := rfl
@[simp] theorem State.onFctr_granules (b : Nat) (f : FabCtr → FabCtr) : (s.onFctr b f).granules = s.granules := rfl
@[simp] theorem State.onFctr_channels (b : Nat) (f : FabCtr → FabCtr) : (s.onFctr b f).channels = s.channels := rfl
@[simp] theorem State.onFctr_queueOwner (b : Nat) (f : FabCtr → FabCtr) : (s.onFctr b f).queueOwner = s.queueOwner := rfl
@[simp] theorem State.onFctr_queues (b : Nat) (f : FabCtr → FabCtr) : (s.onFctr b f).queues = s.queues := rfl
@[simp] theorem State.onFctr_readAhead (b : Nat) (f : FabCtr → FabCtr) : (s.onFctr b f).readAhead = s.readAhead := rfl
@[simp] theorem State.onFctr_rowWait (b : Nat) (f : FabCtr → FabCtr) : (s.onFctr b f).rowWait = s.rowWait := rfl
@[simp] theorem State.onFctr_repairs (b : Nat) (f : FabCtr → FabCtr) : (s.onFctr b f).repairs = s.repairs := rfl
@[simp] theorem State.onFctr_courses (b : Nat) (f : FabCtr → FabCtr) : (s.onFctr b f).courses = s.courses := rfl
@[simp] theorem State.onFctr_srcWin (b : Nat) (f : FabCtr → FabCtr) : (s.onFctr b f).srcWin = s.srcWin := rfl
@[simp] theorem State.onFctr_dstWin (b : Nat) (f : FabCtr → FabCtr) : (s.onFctr b f).dstWin = s.dstWin := rfl
@[simp] theorem State.onFctr_pool1 (b : Nat) (f : FabCtr → FabCtr) : (s.onFctr b f).pool1 = s.pool1 := rfl
@[simp] theorem State.onFctr_pool3 (b : Nat) (f : FabCtr → FabCtr) : (s.onFctr b f).pool3 = s.pool3 := rfl
@[simp] theorem State.onFctr_grantQ (b : Nat) (f : FabCtr → FabCtr) : (s.onFctr b f).grantQ = s.grantQ := rfl
@[simp] theorem State.onFctr_grantMax1 (b : Nat) (f : FabCtr → FabCtr) : (s.onFctr b f).grantMax1 = s.grantMax1 := rfl
@[simp] theorem State.onFctr_grantMax3 (b : Nat) (f : FabCtr → FabCtr) : (s.onFctr b f).grantMax3 = s.grantMax3 := rfl
@[simp] theorem State.onFctr_slices (b : Nat) (f : FabCtr → FabCtr) : (s.onFctr b f).slices = s.slices := rfl
@[simp] theorem State.onFctr_memCtr (b : Nat) (f : FabCtr → FabCtr) : (s.onFctr b f).memCtr = s.memCtr := rfl
@[simp] theorem State.onFctr_plan (b : Nat) (f : FabCtr → FabCtr) : (s.onFctr b f).plan = s.plan := rfl
@[simp] theorem State.onFctr_ports (b : Nat) (f : FabCtr → FabCtr) : (s.onFctr b f).ports = s.ports := rfl
@[simp] theorem State.onFctr_pairTable (b : Nat) (f : FabCtr → FabCtr) : (s.onFctr b f).pairTable = s.pairTable := rfl
@[simp] theorem State.onFctr_pairRecs (b : Nat) (f : FabCtr → FabCtr) : (s.onFctr b f).pairRecs = s.pairRecs := rfl
@[simp] theorem State.onFctr_pseq (b : Nat) (f : FabCtr → FabCtr) : (s.onFctr b f).pseq = s.pseq := rfl
@[simp] theorem State.onFctr_chaff (b : Nat) (f : FabCtr → FabCtr) : (s.onFctr b f).chaff = s.chaff := rfl
@[simp] theorem State.onFctr_twin (b : Nat) (f : FabCtr → FabCtr) : (s.onFctr b f).twin = s.twin := rfl
@[simp] theorem State.onFctr_berths (b : Nat) (f : FabCtr → FabCtr) : (s.onFctr b f).berths = s.berths := rfl
@[simp] theorem State.onFctr_posted (b : Nat) (f : FabCtr → FabCtr) : (s.onFctr b f).posted = s.posted := rfl
@[simp] theorem State.onFctr_inbox (b : Nat) (f : FabCtr → FabCtr) : (s.onFctr b f).inbox = s.inbox := rfl
@[simp] theorem State.onFctr_inboxLost (b : Nat) (f : FabCtr → FabCtr) : (s.onFctr b f).inboxLost = s.inboxLost := rfl
@[simp] theorem State.onFctr_ops (b : Nat) (f : FabCtr → FabCtr) : (s.onFctr b f).ops = s.ops := rfl
@[simp] theorem State.onFctr_opsEnded (b : Nat) (f : FabCtr → FabCtr) : (s.onFctr b f).opsEnded = s.opsEnded := rfl
@[simp] theorem State.onFctr_opNext (b : Nat) (f : FabCtr → FabCtr) : (s.onFctr b f).opNext = s.opNext := rfl
@[simp] theorem State.onFctr_fmPeers (b : Nat) (f : FabCtr → FabCtr) : (s.onFctr b f).fmPeers = s.fmPeers := rfl
@[simp] theorem State.onFctr_factoryMode (b : Nat) (f : FabCtr → FabCtr) : (s.onFctr b f).factoryMode = s.factoryMode := rfl
@[simp] theorem State.onFctr_fns (b : Nat) (f : FabCtr → FabCtr) : (s.onFctr b f).fns = s.fns := rfl
@[simp] theorem State.onFctr_vfEnable (b : Nat) (f : FabCtr → FabCtr) : (s.onFctr b f).vfEnable = s.vfEnable := rfl
@[simp] theorem State.onFctr_numVfs (b : Nat) (f : FabCtr → FabCtr) : (s.onFctr b f).numVfs = s.numVfs := rfl
@[simp] theorem State.onFctr_aptReqs (b : Nat) (f : FabCtr → FabCtr) : (s.onFctr b f).aptReqs = s.aptReqs := rfl
@[simp] theorem State.onFctr_aptReads (b : Nat) (f : FabCtr → FabCtr) : (s.onFctr b f).aptReads = s.aptReads := rfl
@[simp] theorem State.onFctr_aptNext (b : Nat) (f : FabCtr → FabCtr) : (s.onFctr b f).aptNext = s.aptNext := rfl
@[simp] theorem State.onFctr_aptWait (b : Nat) (f : FabCtr → FabCtr) : (s.onFctr b f).aptWait = s.aptWait := rfl
@[simp] theorem State.onFctr_hseq (b : Nat) (f : FabCtr → FabCtr) : (s.onFctr b f).hseq = s.hseq := rfl
@[simp] theorem State.onFctr_hstart (b : Nat) (f : FabCtr → FabCtr) : (s.onFctr b f).hstart = s.hstart := rfl
@[simp] theorem State.onFctr_advised (b : Nat) (f : FabCtr → FabCtr) : (s.onFctr b f).advised = s.advised := rfl
@[simp] theorem State.onFctr_meters (b : Nat) (f : FabCtr → FabCtr) : (s.onFctr b f).meters = s.meters := rfl
@[simp] theorem State.onFctr_frozen (b : Nat) (f : FabCtr → FabCtr) : (s.onFctr b f).frozen = s.frozen := rfl
@[simp] theorem State.onFctr_links (b : Nat) (f : FabCtr → FabCtr) : (s.onFctr b f).links = s.links := rfl
@[simp] theorem State.onFctr_lanes (b : Nat) (f : FabCtr → FabCtr) : (s.onFctr b f).lanes = s.lanes := rfl
@[simp] theorem State.onFctr_modules (b : Nat) (f : FabCtr → FabCtr) : (s.onFctr b f).modules = s.modules := rfl
@[simp] theorem State.onFctr_pathSets (b : Nat) (f : FabCtr → FabCtr) : (s.onFctr b f).pathSets = s.pathSets := rfl
@[simp] theorem State.onFctr_steers (b : Nat) (f : FabCtr → FabCtr) : (s.onFctr b f).steers = s.steers := rfl
@[simp] theorem State.onFctr_cands (b : Nat) (f : FabCtr → FabCtr) : (s.onFctr b f).cands = s.cands := rfl
@[simp] theorem State.onFctr_dieWait (b : Nat) (f : FabCtr → FabCtr) : (s.onFctr b f).dieWait = s.dieWait := rfl
@[simp] theorem State.onFctr_ackPtr (b : Nat) (f : FabCtr → FabCtr) : (s.onFctr b f).ackPtr = s.ackPtr := rfl
@[simp] theorem State.onFctr_unreached (b : Nat) (f : FabCtr → FabCtr) : (s.onFctr b f).unreached = s.unreached := rfl
@[simp] theorem State.onFctr_zones (b : Nat) (f : FabCtr → FabCtr) : (s.onFctr b f).zones = s.zones := rfl
@[simp] theorem State.onFctr_cal (b : Nat) (f : FabCtr → FabCtr) : (s.onFctr b f).cal = s.cal := rfl
@[simp] theorem State.onFctr_calQueue (b : Nat) (f : FabCtr → FabCtr) : (s.onFctr b f).calQueue = s.calQueue := rfl
@[simp] theorem State.onFctr_relocks (b : Nat) (f : FabCtr → FabCtr) : (s.onFctr b f).relocks = s.relocks := rfl
@[simp] theorem State.onFctr_ringWarn (b : Nat) (f : FabCtr → FabCtr) : (s.onFctr b f).ringWarn = s.ringWarn := rfl
@[simp] theorem State.onFctr_ringAct (b : Nat) (f : FabCtr → FabCtr) : (s.onFctr b f).ringAct = s.ringAct := rfl
@[simp] theorem State.onFctr_ringRes (b : Nat) (f : FabCtr → FabCtr) : (s.onFctr b f).ringRes = s.ringRes := rfl
@[simp] theorem State.onFctr_rxOut (b : Nat) (f : FabCtr → FabCtr) : (s.onFctr b f).rxOut = s.rxOut := rfl
@[simp] theorem State.onFctr_sensors (b : Nat) (f : FabCtr → FabCtr) : (s.onFctr b f).sensors = s.sensors := rfl
@[simp] theorem State.onFctr_accepted (b : Nat) (f : FabCtr → FabCtr) : (s.onFctr b f).accepted = s.accepted := rfl
@[simp] theorem State.onFctr_peerMinSvn (b : Nat) (f : FabCtr → FabCtr) : (s.onFctr b f).peerMinSvn = s.peerMinSvn := rfl
@[simp] theorem State.onFctr_rngStopped (b : Nat) (f : FabCtr → FabCtr) : (s.onFctr b f).rngStopped = s.rngStopped := rfl
@[simp] theorem State.onFctr_helm (b : Nat) (f : FabCtr → FabCtr) : (s.onFctr b f).helm = s.helm := rfl
@[simp] theorem State.onFctr_clock (b : Nat) (f : FabCtr → FabCtr) : (s.onFctr b f).clock = s.clock := rfl
@[simp] theorem State.onFctr_alm (b : Nat) (f : FabCtr → FabCtr) : (s.onFctr b f).alm = s.alm := rfl
@[simp] theorem State.onFctr_gleaner (b : Nat) (f : FabCtr → FabCtr) : (s.onFctr b f).gleaner = s.gleaner := rfl
@[simp] theorem State.onFctr_pins (b : Nat) (f : FabCtr → FabCtr) : (s.onFctr b f).pins = s.pins := rfl
@[simp] theorem State.onFctr_bu (b : Nat) (f : FabCtr → FabCtr) : (s.onFctr b f).bu = s.bu := rfl
@[simp] theorem State.onFctr_ind (b : Nat) (f : FabCtr → FabCtr) : (s.onFctr b f).ind = s.ind := rfl
@[simp] theorem State.onFctr_nv (b : Nat) (f : FabCtr → FabCtr) : (s.onFctr b f).nv = s.nv := rfl
@[simp] theorem State.onFctr_resValid (b : Nat) (f : FabCtr → FabCtr) : (s.onFctr b f).resValid = s.resValid := rfl
@[simp] theorem State.onFctr_rcalBoot (b : Nat) (f : FabCtr → FabCtr) : (s.onFctr b f).rcalBoot = s.rcalBoot := rfl
@[simp] theorem State.onFctr_rcalHeld (b : Nat) (f : FabCtr → FabCtr) : (s.onFctr b f).rcalHeld = s.rcalHeld := rfl
@[simp] theorem State.onFctr_cross (b : Nat) (f : FabCtr → FabCtr) : (s.onFctr b f).cross = s.cross := rfl
@[simp] theorem State.onFctr_dieCause (b : Nat) (f : FabCtr → FabCtr) : (s.onFctr b f).dieCause = s.dieCause := rfl
@[simp] theorem State.onFctr_generation (b : Nat) (f : FabCtr → FabCtr) : (s.onFctr b f).generation = s.generation := rfl
@[simp] theorem State.onFctr_changed (b : Nat) (f : FabCtr → FabCtr) : (s.onFctr b f).changed = s.changed := rfl
@[simp] theorem State.onFctr_calImage (b : Nat) (f : FabCtr → FabCtr) : (s.onFctr b f).calImage = s.calImage := rfl
@[simp] theorem State.onFctr_bist (b : Nat) (f : FabCtr → FabCtr) : (s.onFctr b f).bist = s.bist := rfl
@[simp] theorem State.onFctr_releaseWait (b : Nat) (f : FabCtr → FabCtr) : (s.onFctr b f).releaseWait = s.releaseWait := rfl
@[simp] theorem State.onFctr_capture (b : Nat) (f : FabCtr → FabCtr) : (s.onFctr b f).capture = s.capture := rfl
@[simp] theorem State.onFctr_calHeld (b : Nat) (f : FabCtr → FabCtr) : (s.onFctr b f).calHeld = s.calHeld := rfl
@[simp] theorem State.onFctr_standby (b : Nat) (f : FabCtr → FabCtr) : (s.onFctr b f).standby = s.standby := rfl

@[simp] theorem State.report_pending (k u d : Nat) : (s.report k u d).pending = s.pending := rfl
@[simp] theorem State.report_freeCtr (k u d : Nat) : (s.report k u d).freeCtr = s.freeCtr := rfl
@[simp] theorem State.report_net (k u d : Nat) : (s.report k u d).net = s.net := rfl
@[simp] theorem State.report_out (k u d : Nat) : (s.report k u d).out = s.out := rfl
@[simp] theorem State.report_reckon (k u d : Nat) : (s.report k u d).reckon = s.reckon := rfl
@[simp] theorem State.report_dieCycle (k u d : Nat) : (s.report k u d).dieCycle = s.dieCycle := rfl
@[simp] theorem State.report_dieStep (k u d : Nat) : (s.report k u d).dieStep = s.dieStep := rfl
@[simp] theorem State.report_hold (k u d : Nat) : (s.report k u d).hold = s.hold := rfl
@[simp] theorem State.report_holdNotice (k u d : Nat) : (s.report k u d).holdNotice = s.holdNotice := rfl
@[simp] theorem State.report_meshDown (k u d : Nat) : (s.report k u d).meshDown = s.meshDown := rfl
@[simp] theorem State.report_selfNum (k u d : Nat) : (s.report k u d).selfNum = s.selfNum := rfl
@[simp] theorem State.report_selfValid (k u d : Nat) : (s.report k u d).selfValid = s.selfValid := rfl
@[simp] theorem State.report_variant (k u d : Nat) : (s.report k u d).variant = s.variant := rfl
@[simp] theorem State.report_ready (k u d : Nat) : (s.report k u d).ready = s.ready := rfl
@[simp] theorem State.report_cores (k u d : Nat) : (s.report k u d).cores = s.cores := rfl
@[simp] theorem State.report_gateways (k u d : Nat) : (s.report k u d).gateways = s.gateways := rfl
@[simp] theorem State.report_coreDown (k u d : Nat) : (s.report k u d).coreDown = s.coreDown := rfl
@[simp] theorem State.report_dieDown (k u d : Nat) : (s.report k u d).dieDown = s.dieDown := rfl
@[simp] theorem State.report_clusterDown (k u d : Nat) : (s.report k u d).clusterDown = s.clusterDown := rfl
@[simp] theorem State.report_clusterUp (k u d : Nat) : (s.report k u d).clusterUp = s.clusterUp := rfl
@[simp] theorem State.report_clusterOwner (k u d : Nat) : (s.report k u d).clusterOwner = s.clusterOwner := rfl
@[simp] theorem State.report_barns (k u d : Nat) : (s.report k u d).barns = s.barns := rfl
@[simp] theorem State.report_gangs (k u d : Nat) : (s.report k u d).gangs = s.gangs := rfl
@[simp] theorem State.report_sheaf (k u d : Nat) : (s.report k u d).sheaf = s.sheaf := rfl
@[simp] theorem State.report_sheafEarly (k u d : Nat) : (s.report k u d).sheafEarly = s.sheafEarly := rfl
@[simp] theorem State.report_shLate (k u d : Nat) : (s.report k u d).shLate = s.shLate := rfl
@[simp] theorem State.report_hbm (k u d : Nat) : (s.report k u d).hbm = s.hbm := rfl
@[simp] theorem State.report_poison (k u d : Nat) : (s.report k u d).poison = s.poison := rfl
@[simp] theorem State.report_granules (k u d : Nat) : (s.report k u d).granules = s.granules := rfl
@[simp] theorem State.report_channels (k u d : Nat) : (s.report k u d).channels = s.channels := rfl
@[simp] theorem State.report_queueOwner (k u d : Nat) : (s.report k u d).queueOwner = s.queueOwner := rfl
@[simp] theorem State.report_queues (k u d : Nat) : (s.report k u d).queues = s.queues := rfl
@[simp] theorem State.report_readAhead (k u d : Nat) : (s.report k u d).readAhead = s.readAhead := rfl
@[simp] theorem State.report_rowWait (k u d : Nat) : (s.report k u d).rowWait = s.rowWait := rfl
@[simp] theorem State.report_repairs (k u d : Nat) : (s.report k u d).repairs = s.repairs := rfl
@[simp] theorem State.report_courses (k u d : Nat) : (s.report k u d).courses = s.courses := rfl
@[simp] theorem State.report_srcWin (k u d : Nat) : (s.report k u d).srcWin = s.srcWin := rfl
@[simp] theorem State.report_dstWin (k u d : Nat) : (s.report k u d).dstWin = s.dstWin := rfl
@[simp] theorem State.report_pool1 (k u d : Nat) : (s.report k u d).pool1 = s.pool1 := rfl
@[simp] theorem State.report_pool3 (k u d : Nat) : (s.report k u d).pool3 = s.pool3 := rfl
@[simp] theorem State.report_grantQ (k u d : Nat) : (s.report k u d).grantQ = s.grantQ := rfl
@[simp] theorem State.report_grantMax1 (k u d : Nat) : (s.report k u d).grantMax1 = s.grantMax1 := rfl
@[simp] theorem State.report_grantMax3 (k u d : Nat) : (s.report k u d).grantMax3 = s.grantMax3 := rfl
@[simp] theorem State.report_slices (k u d : Nat) : (s.report k u d).slices = s.slices := rfl
@[simp] theorem State.report_fabCtr (k u d : Nat) : (s.report k u d).fabCtr = s.fabCtr := rfl
@[simp] theorem State.report_memCtr (k u d : Nat) : (s.report k u d).memCtr = s.memCtr := rfl
@[simp] theorem State.report_plan (k u d : Nat) : (s.report k u d).plan = s.plan := rfl
@[simp] theorem State.report_ports (k u d : Nat) : (s.report k u d).ports = s.ports := rfl
@[simp] theorem State.report_pairTable (k u d : Nat) : (s.report k u d).pairTable = s.pairTable := rfl
@[simp] theorem State.report_pairRecs (k u d : Nat) : (s.report k u d).pairRecs = s.pairRecs := rfl
@[simp] theorem State.report_pseq (k u d : Nat) : (s.report k u d).pseq = s.pseq := rfl
@[simp] theorem State.report_chaff (k u d : Nat) : (s.report k u d).chaff = s.chaff := rfl
@[simp] theorem State.report_twin (k u d : Nat) : (s.report k u d).twin = s.twin := rfl
@[simp] theorem State.report_berths (k u d : Nat) : (s.report k u d).berths = s.berths := rfl
@[simp] theorem State.report_posted (k u d : Nat) : (s.report k u d).posted = s.posted := rfl
@[simp] theorem State.report_inbox (k u d : Nat) : (s.report k u d).inbox = s.inbox := rfl
@[simp] theorem State.report_inboxLost (k u d : Nat) : (s.report k u d).inboxLost = s.inboxLost := rfl
@[simp] theorem State.report_ops (k u d : Nat) : (s.report k u d).ops = s.ops := rfl
@[simp] theorem State.report_opsEnded (k u d : Nat) : (s.report k u d).opsEnded = s.opsEnded := rfl
@[simp] theorem State.report_opNext (k u d : Nat) : (s.report k u d).opNext = s.opNext := rfl
@[simp] theorem State.report_fmPeers (k u d : Nat) : (s.report k u d).fmPeers = s.fmPeers := rfl
@[simp] theorem State.report_factoryMode (k u d : Nat) : (s.report k u d).factoryMode = s.factoryMode := rfl
@[simp] theorem State.report_fns (k u d : Nat) : (s.report k u d).fns = s.fns := rfl
@[simp] theorem State.report_vfEnable (k u d : Nat) : (s.report k u d).vfEnable = s.vfEnable := rfl
@[simp] theorem State.report_numVfs (k u d : Nat) : (s.report k u d).numVfs = s.numVfs := rfl
@[simp] theorem State.report_aptReqs (k u d : Nat) : (s.report k u d).aptReqs = s.aptReqs := rfl
@[simp] theorem State.report_aptReads (k u d : Nat) : (s.report k u d).aptReads = s.aptReads := rfl
@[simp] theorem State.report_aptNext (k u d : Nat) : (s.report k u d).aptNext = s.aptNext := rfl
@[simp] theorem State.report_aptWait (k u d : Nat) : (s.report k u d).aptWait = s.aptWait := rfl
@[simp] theorem State.report_hseq (k u d : Nat) : (s.report k u d).hseq = s.hseq := rfl
@[simp] theorem State.report_hstart (k u d : Nat) : (s.report k u d).hstart = s.hstart := rfl
@[simp] theorem State.report_advised (k u d : Nat) : (s.report k u d).advised = s.advised := rfl
@[simp] theorem State.report_meters (k u d : Nat) : (s.report k u d).meters = s.meters := rfl
@[simp] theorem State.report_frozen (k u d : Nat) : (s.report k u d).frozen = s.frozen := rfl
@[simp] theorem State.report_links (k u d : Nat) : (s.report k u d).links = s.links := rfl
@[simp] theorem State.report_lanes (k u d : Nat) : (s.report k u d).lanes = s.lanes := rfl
@[simp] theorem State.report_modules (k u d : Nat) : (s.report k u d).modules = s.modules := rfl
@[simp] theorem State.report_pathSets (k u d : Nat) : (s.report k u d).pathSets = s.pathSets := rfl
@[simp] theorem State.report_steers (k u d : Nat) : (s.report k u d).steers = s.steers := rfl
@[simp] theorem State.report_cands (k u d : Nat) : (s.report k u d).cands = s.cands := rfl
@[simp] theorem State.report_dieWait (k u d : Nat) : (s.report k u d).dieWait = s.dieWait := rfl
@[simp] theorem State.report_ackPtr (k u d : Nat) : (s.report k u d).ackPtr = s.ackPtr := rfl
@[simp] theorem State.report_unreached (k u d : Nat) : (s.report k u d).unreached = s.unreached := rfl
@[simp] theorem State.report_zones (k u d : Nat) : (s.report k u d).zones = s.zones := rfl
@[simp] theorem State.report_cal (k u d : Nat) : (s.report k u d).cal = s.cal := rfl
@[simp] theorem State.report_calQueue (k u d : Nat) : (s.report k u d).calQueue = s.calQueue := rfl
@[simp] theorem State.report_relocks (k u d : Nat) : (s.report k u d).relocks = s.relocks := rfl
@[simp] theorem State.report_ringWarn (k u d : Nat) : (s.report k u d).ringWarn = s.ringWarn := rfl
@[simp] theorem State.report_ringAct (k u d : Nat) : (s.report k u d).ringAct = s.ringAct := rfl
@[simp] theorem State.report_ringRes (k u d : Nat) : (s.report k u d).ringRes = s.ringRes := rfl
@[simp] theorem State.report_rxOut (k u d : Nat) : (s.report k u d).rxOut = s.rxOut := rfl
@[simp] theorem State.report_sensors (k u d : Nat) : (s.report k u d).sensors = s.sensors := rfl
@[simp] theorem State.report_accepted (k u d : Nat) : (s.report k u d).accepted = s.accepted := rfl
@[simp] theorem State.report_peerMinSvn (k u d : Nat) : (s.report k u d).peerMinSvn = s.peerMinSvn := rfl
@[simp] theorem State.report_rngStopped (k u d : Nat) : (s.report k u d).rngStopped = s.rngStopped := rfl
@[simp] theorem State.report_helm (k u d : Nat) : (s.report k u d).helm = s.helm := rfl
@[simp] theorem State.report_clock (k u d : Nat) : (s.report k u d).clock = s.clock := rfl
@[simp] theorem State.report_alm (k u d : Nat) : (s.report k u d).alm = s.alm := rfl
@[simp] theorem State.report_gleaner (k u d : Nat) : (s.report k u d).gleaner = s.gleaner := rfl
@[simp] theorem State.report_pins (k u d : Nat) : (s.report k u d).pins = s.pins := rfl
@[simp] theorem State.report_bu (k u d : Nat) : (s.report k u d).bu = s.bu := rfl
@[simp] theorem State.report_ind (k u d : Nat) : (s.report k u d).ind = s.ind := rfl
@[simp] theorem State.report_nv (k u d : Nat) : (s.report k u d).nv = s.nv := rfl
@[simp] theorem State.report_resValid (k u d : Nat) : (s.report k u d).resValid = s.resValid := rfl
@[simp] theorem State.report_rcalBoot (k u d : Nat) : (s.report k u d).rcalBoot = s.rcalBoot := rfl
@[simp] theorem State.report_rcalHeld (k u d : Nat) : (s.report k u d).rcalHeld = s.rcalHeld := rfl
@[simp] theorem State.report_cross (k u d : Nat) : (s.report k u d).cross = s.cross := rfl
@[simp] theorem State.report_dieCause (k u d : Nat) : (s.report k u d).dieCause = s.dieCause := rfl
@[simp] theorem State.report_generation (k u d : Nat) : (s.report k u d).generation = s.generation := rfl
@[simp] theorem State.report_changed (k u d : Nat) : (s.report k u d).changed = s.changed := rfl
@[simp] theorem State.report_calImage (k u d : Nat) : (s.report k u d).calImage = s.calImage := rfl
@[simp] theorem State.report_bist (k u d : Nat) : (s.report k u d).bist = s.bist := rfl
@[simp] theorem State.report_releaseWait (k u d : Nat) : (s.report k u d).releaseWait = s.releaseWait := rfl
@[simp] theorem State.report_capture (k u d : Nat) : (s.report k u d).capture = s.capture := rfl
@[simp] theorem State.report_calHeld (k u d : Nat) : (s.report k u d).calHeld = s.calHeld := rfl
@[simp] theorem State.report_standby (k u d : Nat) : (s.report k u d).standby = s.standby := rfl

@[simp] theorem State.issued_pending (c u : Nat) : (s.issued c u).pending = s.pending := rfl
@[simp] theorem State.issued_freeCtr (c u : Nat) : (s.issued c u).freeCtr = s.freeCtr := rfl
@[simp] theorem State.issued_net (c u : Nat) : (s.issued c u).net = s.net := rfl
@[simp] theorem State.issued_out (c u : Nat) : (s.issued c u).out = s.out := rfl
@[simp] theorem State.issued_reports (c u : Nat) : (s.issued c u).reports = s.reports := rfl
@[simp] theorem State.issued_reckon (c u : Nat) : (s.issued c u).reckon = s.reckon := rfl
@[simp] theorem State.issued_dieCycle (c u : Nat) : (s.issued c u).dieCycle = s.dieCycle := rfl
@[simp] theorem State.issued_dieStep (c u : Nat) : (s.issued c u).dieStep = s.dieStep := rfl
@[simp] theorem State.issued_hold (c u : Nat) : (s.issued c u).hold = s.hold := rfl
@[simp] theorem State.issued_holdNotice (c u : Nat) : (s.issued c u).holdNotice = s.holdNotice := rfl
@[simp] theorem State.issued_meshDown (c u : Nat) : (s.issued c u).meshDown = s.meshDown := rfl
@[simp] theorem State.issued_selfNum (c u : Nat) : (s.issued c u).selfNum = s.selfNum := rfl
@[simp] theorem State.issued_selfValid (c u : Nat) : (s.issued c u).selfValid = s.selfValid := rfl
@[simp] theorem State.issued_variant (c u : Nat) : (s.issued c u).variant = s.variant := rfl
@[simp] theorem State.issued_ready (c u : Nat) : (s.issued c u).ready = s.ready := rfl
@[simp] theorem State.issued_gateways (c u : Nat) : (s.issued c u).gateways = s.gateways := rfl
@[simp] theorem State.issued_coreDown (c u : Nat) : (s.issued c u).coreDown = s.coreDown := rfl
@[simp] theorem State.issued_dieDown (c u : Nat) : (s.issued c u).dieDown = s.dieDown := rfl
@[simp] theorem State.issued_clusterDown (c u : Nat) : (s.issued c u).clusterDown = s.clusterDown := rfl
@[simp] theorem State.issued_clusterUp (c u : Nat) : (s.issued c u).clusterUp = s.clusterUp := rfl
@[simp] theorem State.issued_clusterOwner (c u : Nat) : (s.issued c u).clusterOwner = s.clusterOwner := rfl
@[simp] theorem State.issued_barns (c u : Nat) : (s.issued c u).barns = s.barns := rfl
@[simp] theorem State.issued_gangs (c u : Nat) : (s.issued c u).gangs = s.gangs := rfl
@[simp] theorem State.issued_sheaf (c u : Nat) : (s.issued c u).sheaf = s.sheaf := rfl
@[simp] theorem State.issued_sheafEarly (c u : Nat) : (s.issued c u).sheafEarly = s.sheafEarly := rfl
@[simp] theorem State.issued_shLate (c u : Nat) : (s.issued c u).shLate = s.shLate := rfl
@[simp] theorem State.issued_hbm (c u : Nat) : (s.issued c u).hbm = s.hbm := rfl
@[simp] theorem State.issued_poison (c u : Nat) : (s.issued c u).poison = s.poison := rfl
@[simp] theorem State.issued_granules (c u : Nat) : (s.issued c u).granules = s.granules := rfl
@[simp] theorem State.issued_channels (c u : Nat) : (s.issued c u).channels = s.channels := rfl
@[simp] theorem State.issued_queueOwner (c u : Nat) : (s.issued c u).queueOwner = s.queueOwner := rfl
@[simp] theorem State.issued_queues (c u : Nat) : (s.issued c u).queues = s.queues := rfl
@[simp] theorem State.issued_readAhead (c u : Nat) : (s.issued c u).readAhead = s.readAhead := rfl
@[simp] theorem State.issued_rowWait (c u : Nat) : (s.issued c u).rowWait = s.rowWait := rfl
@[simp] theorem State.issued_repairs (c u : Nat) : (s.issued c u).repairs = s.repairs := rfl
@[simp] theorem State.issued_courses (c u : Nat) : (s.issued c u).courses = s.courses := rfl
@[simp] theorem State.issued_srcWin (c u : Nat) : (s.issued c u).srcWin = s.srcWin := rfl
@[simp] theorem State.issued_dstWin (c u : Nat) : (s.issued c u).dstWin = s.dstWin := rfl
@[simp] theorem State.issued_pool1 (c u : Nat) : (s.issued c u).pool1 = s.pool1 := rfl
@[simp] theorem State.issued_pool3 (c u : Nat) : (s.issued c u).pool3 = s.pool3 := rfl
@[simp] theorem State.issued_grantQ (c u : Nat) : (s.issued c u).grantQ = s.grantQ := rfl
@[simp] theorem State.issued_grantMax1 (c u : Nat) : (s.issued c u).grantMax1 = s.grantMax1 := rfl
@[simp] theorem State.issued_grantMax3 (c u : Nat) : (s.issued c u).grantMax3 = s.grantMax3 := rfl
@[simp] theorem State.issued_slices (c u : Nat) : (s.issued c u).slices = s.slices := rfl
@[simp] theorem State.issued_fabCtr (c u : Nat) : (s.issued c u).fabCtr = s.fabCtr := rfl
@[simp] theorem State.issued_memCtr (c u : Nat) : (s.issued c u).memCtr = s.memCtr := rfl
@[simp] theorem State.issued_plan (c u : Nat) : (s.issued c u).plan = s.plan := rfl
@[simp] theorem State.issued_ports (c u : Nat) : (s.issued c u).ports = s.ports := rfl
@[simp] theorem State.issued_pairTable (c u : Nat) : (s.issued c u).pairTable = s.pairTable := rfl
@[simp] theorem State.issued_pairRecs (c u : Nat) : (s.issued c u).pairRecs = s.pairRecs := rfl
@[simp] theorem State.issued_pseq (c u : Nat) : (s.issued c u).pseq = s.pseq := rfl
@[simp] theorem State.issued_chaff (c u : Nat) : (s.issued c u).chaff = s.chaff := rfl
@[simp] theorem State.issued_twin (c u : Nat) : (s.issued c u).twin = s.twin := rfl
@[simp] theorem State.issued_berths (c u : Nat) : (s.issued c u).berths = s.berths := rfl
@[simp] theorem State.issued_posted (c u : Nat) : (s.issued c u).posted = s.posted := rfl
@[simp] theorem State.issued_inbox (c u : Nat) : (s.issued c u).inbox = s.inbox := rfl
@[simp] theorem State.issued_inboxLost (c u : Nat) : (s.issued c u).inboxLost = s.inboxLost := rfl
@[simp] theorem State.issued_ops (c u : Nat) : (s.issued c u).ops = s.ops := rfl
@[simp] theorem State.issued_opsEnded (c u : Nat) : (s.issued c u).opsEnded = s.opsEnded := rfl
@[simp] theorem State.issued_opNext (c u : Nat) : (s.issued c u).opNext = s.opNext := rfl
@[simp] theorem State.issued_fmPeers (c u : Nat) : (s.issued c u).fmPeers = s.fmPeers := rfl
@[simp] theorem State.issued_factoryMode (c u : Nat) : (s.issued c u).factoryMode = s.factoryMode := rfl
@[simp] theorem State.issued_fns (c u : Nat) : (s.issued c u).fns = s.fns := rfl
@[simp] theorem State.issued_vfEnable (c u : Nat) : (s.issued c u).vfEnable = s.vfEnable := rfl
@[simp] theorem State.issued_numVfs (c u : Nat) : (s.issued c u).numVfs = s.numVfs := rfl
@[simp] theorem State.issued_aptReqs (c u : Nat) : (s.issued c u).aptReqs = s.aptReqs := rfl
@[simp] theorem State.issued_aptReads (c u : Nat) : (s.issued c u).aptReads = s.aptReads := rfl
@[simp] theorem State.issued_aptNext (c u : Nat) : (s.issued c u).aptNext = s.aptNext := rfl
@[simp] theorem State.issued_aptWait (c u : Nat) : (s.issued c u).aptWait = s.aptWait := rfl
@[simp] theorem State.issued_hseq (c u : Nat) : (s.issued c u).hseq = s.hseq := rfl
@[simp] theorem State.issued_hstart (c u : Nat) : (s.issued c u).hstart = s.hstart := rfl
@[simp] theorem State.issued_advised (c u : Nat) : (s.issued c u).advised = s.advised := rfl
@[simp] theorem State.issued_meters (c u : Nat) : (s.issued c u).meters = s.meters := rfl
@[simp] theorem State.issued_frozen (c u : Nat) : (s.issued c u).frozen = s.frozen := rfl
@[simp] theorem State.issued_links (c u : Nat) : (s.issued c u).links = s.links := rfl
@[simp] theorem State.issued_lanes (c u : Nat) : (s.issued c u).lanes = s.lanes := rfl
@[simp] theorem State.issued_modules (c u : Nat) : (s.issued c u).modules = s.modules := rfl
@[simp] theorem State.issued_pathSets (c u : Nat) : (s.issued c u).pathSets = s.pathSets := rfl
@[simp] theorem State.issued_steers (c u : Nat) : (s.issued c u).steers = s.steers := rfl
@[simp] theorem State.issued_cands (c u : Nat) : (s.issued c u).cands = s.cands := rfl
@[simp] theorem State.issued_dieWait (c u : Nat) : (s.issued c u).dieWait = s.dieWait := rfl
@[simp] theorem State.issued_ackPtr (c u : Nat) : (s.issued c u).ackPtr = s.ackPtr := rfl
@[simp] theorem State.issued_unreached (c u : Nat) : (s.issued c u).unreached = s.unreached := rfl
@[simp] theorem State.issued_zones (c u : Nat) : (s.issued c u).zones = s.zones := rfl
@[simp] theorem State.issued_cal (c u : Nat) : (s.issued c u).cal = s.cal := rfl
@[simp] theorem State.issued_calQueue (c u : Nat) : (s.issued c u).calQueue = s.calQueue := rfl
@[simp] theorem State.issued_relocks (c u : Nat) : (s.issued c u).relocks = s.relocks := rfl
@[simp] theorem State.issued_ringWarn (c u : Nat) : (s.issued c u).ringWarn = s.ringWarn := rfl
@[simp] theorem State.issued_ringAct (c u : Nat) : (s.issued c u).ringAct = s.ringAct := rfl
@[simp] theorem State.issued_ringRes (c u : Nat) : (s.issued c u).ringRes = s.ringRes := rfl
@[simp] theorem State.issued_rxOut (c u : Nat) : (s.issued c u).rxOut = s.rxOut := rfl
@[simp] theorem State.issued_sensors (c u : Nat) : (s.issued c u).sensors = s.sensors := rfl
@[simp] theorem State.issued_accepted (c u : Nat) : (s.issued c u).accepted = s.accepted := rfl
@[simp] theorem State.issued_peerMinSvn (c u : Nat) : (s.issued c u).peerMinSvn = s.peerMinSvn := rfl
@[simp] theorem State.issued_rngStopped (c u : Nat) : (s.issued c u).rngStopped = s.rngStopped := rfl
@[simp] theorem State.issued_helm (c u : Nat) : (s.issued c u).helm = s.helm := rfl
@[simp] theorem State.issued_clock (c u : Nat) : (s.issued c u).clock = s.clock := rfl
@[simp] theorem State.issued_alm (c u : Nat) : (s.issued c u).alm = s.alm := rfl
@[simp] theorem State.issued_gleaner (c u : Nat) : (s.issued c u).gleaner = s.gleaner := rfl
@[simp] theorem State.issued_pins (c u : Nat) : (s.issued c u).pins = s.pins := rfl
@[simp] theorem State.issued_bu (c u : Nat) : (s.issued c u).bu = s.bu := rfl
@[simp] theorem State.issued_ind (c u : Nat) : (s.issued c u).ind = s.ind := rfl
@[simp] theorem State.issued_nv (c u : Nat) : (s.issued c u).nv = s.nv := rfl
@[simp] theorem State.issued_resValid (c u : Nat) : (s.issued c u).resValid = s.resValid := rfl
@[simp] theorem State.issued_rcalBoot (c u : Nat) : (s.issued c u).rcalBoot = s.rcalBoot := rfl
@[simp] theorem State.issued_rcalHeld (c u : Nat) : (s.issued c u).rcalHeld = s.rcalHeld := rfl
@[simp] theorem State.issued_cross (c u : Nat) : (s.issued c u).cross = s.cross := rfl
@[simp] theorem State.issued_dieCause (c u : Nat) : (s.issued c u).dieCause = s.dieCause := rfl
@[simp] theorem State.issued_generation (c u : Nat) : (s.issued c u).generation = s.generation := rfl
@[simp] theorem State.issued_changed (c u : Nat) : (s.issued c u).changed = s.changed := rfl
@[simp] theorem State.issued_calImage (c u : Nat) : (s.issued c u).calImage = s.calImage := rfl
@[simp] theorem State.issued_bist (c u : Nat) : (s.issued c u).bist = s.bist := rfl
@[simp] theorem State.issued_releaseWait (c u : Nat) : (s.issued c u).releaseWait = s.releaseWait := rfl
@[simp] theorem State.issued_capture (c u : Nat) : (s.issued c u).capture = s.capture := rfl
@[simp] theorem State.issued_calHeld (c u : Nat) : (s.issued c u).calHeld = s.calHeld := rfl
@[simp] theorem State.issued_standby (c u : Nat) : (s.issued c u).standby = s.standby := rfl

@[simp] theorem State.setPc_pending (c u pc : Nat) : (s.setPc c u pc).pending = s.pending := rfl
@[simp] theorem State.setPc_freeCtr (c u pc : Nat) : (s.setPc c u pc).freeCtr = s.freeCtr := rfl
@[simp] theorem State.setPc_net (c u pc : Nat) : (s.setPc c u pc).net = s.net := rfl
@[simp] theorem State.setPc_out (c u pc : Nat) : (s.setPc c u pc).out = s.out := rfl
@[simp] theorem State.setPc_reports (c u pc : Nat) : (s.setPc c u pc).reports = s.reports := rfl
@[simp] theorem State.setPc_reckon (c u pc : Nat) : (s.setPc c u pc).reckon = s.reckon := rfl
@[simp] theorem State.setPc_dieCycle (c u pc : Nat) : (s.setPc c u pc).dieCycle = s.dieCycle := rfl
@[simp] theorem State.setPc_dieStep (c u pc : Nat) : (s.setPc c u pc).dieStep = s.dieStep := rfl
@[simp] theorem State.setPc_hold (c u pc : Nat) : (s.setPc c u pc).hold = s.hold := rfl
@[simp] theorem State.setPc_holdNotice (c u pc : Nat) : (s.setPc c u pc).holdNotice = s.holdNotice := rfl
@[simp] theorem State.setPc_meshDown (c u pc : Nat) : (s.setPc c u pc).meshDown = s.meshDown := rfl
@[simp] theorem State.setPc_selfNum (c u pc : Nat) : (s.setPc c u pc).selfNum = s.selfNum := rfl
@[simp] theorem State.setPc_selfValid (c u pc : Nat) : (s.setPc c u pc).selfValid = s.selfValid := rfl
@[simp] theorem State.setPc_variant (c u pc : Nat) : (s.setPc c u pc).variant = s.variant := rfl
@[simp] theorem State.setPc_ready (c u pc : Nat) : (s.setPc c u pc).ready = s.ready := rfl
@[simp] theorem State.setPc_gateways (c u pc : Nat) : (s.setPc c u pc).gateways = s.gateways := rfl
@[simp] theorem State.setPc_coreDown (c u pc : Nat) : (s.setPc c u pc).coreDown = s.coreDown := rfl
@[simp] theorem State.setPc_dieDown (c u pc : Nat) : (s.setPc c u pc).dieDown = s.dieDown := rfl
@[simp] theorem State.setPc_clusterDown (c u pc : Nat) : (s.setPc c u pc).clusterDown = s.clusterDown := rfl
@[simp] theorem State.setPc_clusterUp (c u pc : Nat) : (s.setPc c u pc).clusterUp = s.clusterUp := rfl
@[simp] theorem State.setPc_clusterOwner (c u pc : Nat) : (s.setPc c u pc).clusterOwner = s.clusterOwner := rfl
@[simp] theorem State.setPc_barns (c u pc : Nat) : (s.setPc c u pc).barns = s.barns := rfl
@[simp] theorem State.setPc_gangs (c u pc : Nat) : (s.setPc c u pc).gangs = s.gangs := rfl
@[simp] theorem State.setPc_sheaf (c u pc : Nat) : (s.setPc c u pc).sheaf = s.sheaf := rfl
@[simp] theorem State.setPc_sheafEarly (c u pc : Nat) : (s.setPc c u pc).sheafEarly = s.sheafEarly := rfl
@[simp] theorem State.setPc_shLate (c u pc : Nat) : (s.setPc c u pc).shLate = s.shLate := rfl
@[simp] theorem State.setPc_hbm (c u pc : Nat) : (s.setPc c u pc).hbm = s.hbm := rfl
@[simp] theorem State.setPc_poison (c u pc : Nat) : (s.setPc c u pc).poison = s.poison := rfl
@[simp] theorem State.setPc_granules (c u pc : Nat) : (s.setPc c u pc).granules = s.granules := rfl
@[simp] theorem State.setPc_channels (c u pc : Nat) : (s.setPc c u pc).channels = s.channels := rfl
@[simp] theorem State.setPc_queueOwner (c u pc : Nat) : (s.setPc c u pc).queueOwner = s.queueOwner := rfl
@[simp] theorem State.setPc_queues (c u pc : Nat) : (s.setPc c u pc).queues = s.queues := rfl
@[simp] theorem State.setPc_readAhead (c u pc : Nat) : (s.setPc c u pc).readAhead = s.readAhead := rfl
@[simp] theorem State.setPc_rowWait (c u pc : Nat) : (s.setPc c u pc).rowWait = s.rowWait := rfl
@[simp] theorem State.setPc_repairs (c u pc : Nat) : (s.setPc c u pc).repairs = s.repairs := rfl
@[simp] theorem State.setPc_courses (c u pc : Nat) : (s.setPc c u pc).courses = s.courses := rfl
@[simp] theorem State.setPc_srcWin (c u pc : Nat) : (s.setPc c u pc).srcWin = s.srcWin := rfl
@[simp] theorem State.setPc_dstWin (c u pc : Nat) : (s.setPc c u pc).dstWin = s.dstWin := rfl
@[simp] theorem State.setPc_pool1 (c u pc : Nat) : (s.setPc c u pc).pool1 = s.pool1 := rfl
@[simp] theorem State.setPc_pool3 (c u pc : Nat) : (s.setPc c u pc).pool3 = s.pool3 := rfl
@[simp] theorem State.setPc_grantQ (c u pc : Nat) : (s.setPc c u pc).grantQ = s.grantQ := rfl
@[simp] theorem State.setPc_grantMax1 (c u pc : Nat) : (s.setPc c u pc).grantMax1 = s.grantMax1 := rfl
@[simp] theorem State.setPc_grantMax3 (c u pc : Nat) : (s.setPc c u pc).grantMax3 = s.grantMax3 := rfl
@[simp] theorem State.setPc_slices (c u pc : Nat) : (s.setPc c u pc).slices = s.slices := rfl
@[simp] theorem State.setPc_fabCtr (c u pc : Nat) : (s.setPc c u pc).fabCtr = s.fabCtr := rfl
@[simp] theorem State.setPc_memCtr (c u pc : Nat) : (s.setPc c u pc).memCtr = s.memCtr := rfl
@[simp] theorem State.setPc_plan (c u pc : Nat) : (s.setPc c u pc).plan = s.plan := rfl
@[simp] theorem State.setPc_ports (c u pc : Nat) : (s.setPc c u pc).ports = s.ports := rfl
@[simp] theorem State.setPc_pairTable (c u pc : Nat) : (s.setPc c u pc).pairTable = s.pairTable := rfl
@[simp] theorem State.setPc_pairRecs (c u pc : Nat) : (s.setPc c u pc).pairRecs = s.pairRecs := rfl
@[simp] theorem State.setPc_pseq (c u pc : Nat) : (s.setPc c u pc).pseq = s.pseq := rfl
@[simp] theorem State.setPc_chaff (c u pc : Nat) : (s.setPc c u pc).chaff = s.chaff := rfl
@[simp] theorem State.setPc_twin (c u pc : Nat) : (s.setPc c u pc).twin = s.twin := rfl
@[simp] theorem State.setPc_berths (c u pc : Nat) : (s.setPc c u pc).berths = s.berths := rfl
@[simp] theorem State.setPc_posted (c u pc : Nat) : (s.setPc c u pc).posted = s.posted := rfl
@[simp] theorem State.setPc_inbox (c u pc : Nat) : (s.setPc c u pc).inbox = s.inbox := rfl
@[simp] theorem State.setPc_inboxLost (c u pc : Nat) : (s.setPc c u pc).inboxLost = s.inboxLost := rfl
@[simp] theorem State.setPc_ops (c u pc : Nat) : (s.setPc c u pc).ops = s.ops := rfl
@[simp] theorem State.setPc_opsEnded (c u pc : Nat) : (s.setPc c u pc).opsEnded = s.opsEnded := rfl
@[simp] theorem State.setPc_opNext (c u pc : Nat) : (s.setPc c u pc).opNext = s.opNext := rfl
@[simp] theorem State.setPc_fmPeers (c u pc : Nat) : (s.setPc c u pc).fmPeers = s.fmPeers := rfl
@[simp] theorem State.setPc_factoryMode (c u pc : Nat) : (s.setPc c u pc).factoryMode = s.factoryMode := rfl
@[simp] theorem State.setPc_fns (c u pc : Nat) : (s.setPc c u pc).fns = s.fns := rfl
@[simp] theorem State.setPc_vfEnable (c u pc : Nat) : (s.setPc c u pc).vfEnable = s.vfEnable := rfl
@[simp] theorem State.setPc_numVfs (c u pc : Nat) : (s.setPc c u pc).numVfs = s.numVfs := rfl
@[simp] theorem State.setPc_aptReqs (c u pc : Nat) : (s.setPc c u pc).aptReqs = s.aptReqs := rfl
@[simp] theorem State.setPc_aptReads (c u pc : Nat) : (s.setPc c u pc).aptReads = s.aptReads := rfl
@[simp] theorem State.setPc_aptNext (c u pc : Nat) : (s.setPc c u pc).aptNext = s.aptNext := rfl
@[simp] theorem State.setPc_aptWait (c u pc : Nat) : (s.setPc c u pc).aptWait = s.aptWait := rfl
@[simp] theorem State.setPc_hseq (c u pc : Nat) : (s.setPc c u pc).hseq = s.hseq := rfl
@[simp] theorem State.setPc_hstart (c u pc : Nat) : (s.setPc c u pc).hstart = s.hstart := rfl
@[simp] theorem State.setPc_advised (c u pc : Nat) : (s.setPc c u pc).advised = s.advised := rfl
@[simp] theorem State.setPc_meters (c u pc : Nat) : (s.setPc c u pc).meters = s.meters := rfl
@[simp] theorem State.setPc_frozen (c u pc : Nat) : (s.setPc c u pc).frozen = s.frozen := rfl
@[simp] theorem State.setPc_links (c u pc : Nat) : (s.setPc c u pc).links = s.links := rfl
@[simp] theorem State.setPc_lanes (c u pc : Nat) : (s.setPc c u pc).lanes = s.lanes := rfl
@[simp] theorem State.setPc_modules (c u pc : Nat) : (s.setPc c u pc).modules = s.modules := rfl
@[simp] theorem State.setPc_pathSets (c u pc : Nat) : (s.setPc c u pc).pathSets = s.pathSets := rfl
@[simp] theorem State.setPc_steers (c u pc : Nat) : (s.setPc c u pc).steers = s.steers := rfl
@[simp] theorem State.setPc_cands (c u pc : Nat) : (s.setPc c u pc).cands = s.cands := rfl
@[simp] theorem State.setPc_dieWait (c u pc : Nat) : (s.setPc c u pc).dieWait = s.dieWait := rfl
@[simp] theorem State.setPc_ackPtr (c u pc : Nat) : (s.setPc c u pc).ackPtr = s.ackPtr := rfl
@[simp] theorem State.setPc_unreached (c u pc : Nat) : (s.setPc c u pc).unreached = s.unreached := rfl
@[simp] theorem State.setPc_zones (c u pc : Nat) : (s.setPc c u pc).zones = s.zones := rfl
@[simp] theorem State.setPc_cal (c u pc : Nat) : (s.setPc c u pc).cal = s.cal := rfl
@[simp] theorem State.setPc_calQueue (c u pc : Nat) : (s.setPc c u pc).calQueue = s.calQueue := rfl
@[simp] theorem State.setPc_relocks (c u pc : Nat) : (s.setPc c u pc).relocks = s.relocks := rfl
@[simp] theorem State.setPc_ringWarn (c u pc : Nat) : (s.setPc c u pc).ringWarn = s.ringWarn := rfl
@[simp] theorem State.setPc_ringAct (c u pc : Nat) : (s.setPc c u pc).ringAct = s.ringAct := rfl
@[simp] theorem State.setPc_ringRes (c u pc : Nat) : (s.setPc c u pc).ringRes = s.ringRes := rfl
@[simp] theorem State.setPc_rxOut (c u pc : Nat) : (s.setPc c u pc).rxOut = s.rxOut := rfl
@[simp] theorem State.setPc_sensors (c u pc : Nat) : (s.setPc c u pc).sensors = s.sensors := rfl
@[simp] theorem State.setPc_accepted (c u pc : Nat) : (s.setPc c u pc).accepted = s.accepted := rfl
@[simp] theorem State.setPc_peerMinSvn (c u pc : Nat) : (s.setPc c u pc).peerMinSvn = s.peerMinSvn := rfl
@[simp] theorem State.setPc_rngStopped (c u pc : Nat) : (s.setPc c u pc).rngStopped = s.rngStopped := rfl
@[simp] theorem State.setPc_helm (c u pc : Nat) : (s.setPc c u pc).helm = s.helm := rfl
@[simp] theorem State.setPc_clock (c u pc : Nat) : (s.setPc c u pc).clock = s.clock := rfl
@[simp] theorem State.setPc_alm (c u pc : Nat) : (s.setPc c u pc).alm = s.alm := rfl
@[simp] theorem State.setPc_gleaner (c u pc : Nat) : (s.setPc c u pc).gleaner = s.gleaner := rfl
@[simp] theorem State.setPc_pins (c u pc : Nat) : (s.setPc c u pc).pins = s.pins := rfl
@[simp] theorem State.setPc_bu (c u pc : Nat) : (s.setPc c u pc).bu = s.bu := rfl
@[simp] theorem State.setPc_ind (c u pc : Nat) : (s.setPc c u pc).ind = s.ind := rfl
@[simp] theorem State.setPc_nv (c u pc : Nat) : (s.setPc c u pc).nv = s.nv := rfl
@[simp] theorem State.setPc_resValid (c u pc : Nat) : (s.setPc c u pc).resValid = s.resValid := rfl
@[simp] theorem State.setPc_rcalBoot (c u pc : Nat) : (s.setPc c u pc).rcalBoot = s.rcalBoot := rfl
@[simp] theorem State.setPc_rcalHeld (c u pc : Nat) : (s.setPc c u pc).rcalHeld = s.rcalHeld := rfl
@[simp] theorem State.setPc_cross (c u pc : Nat) : (s.setPc c u pc).cross = s.cross := rfl
@[simp] theorem State.setPc_dieCause (c u pc : Nat) : (s.setPc c u pc).dieCause = s.dieCause := rfl
@[simp] theorem State.setPc_generation (c u pc : Nat) : (s.setPc c u pc).generation = s.generation := rfl
@[simp] theorem State.setPc_changed (c u pc : Nat) : (s.setPc c u pc).changed = s.changed := rfl
@[simp] theorem State.setPc_calImage (c u pc : Nat) : (s.setPc c u pc).calImage = s.calImage := rfl
@[simp] theorem State.setPc_bist (c u pc : Nat) : (s.setPc c u pc).bist = s.bist := rfl
@[simp] theorem State.setPc_releaseWait (c u pc : Nat) : (s.setPc c u pc).releaseWait = s.releaseWait := rfl
@[simp] theorem State.setPc_capture (c u pc : Nat) : (s.setPc c u pc).capture = s.capture := rfl
@[simp] theorem State.setPc_calHeld (c u pc : Nat) : (s.setPc c u pc).calHeld = s.calHeld := rfl
@[simp] theorem State.setPc_standby (c u pc : Nat) : (s.setPc c u pc).standby = s.standby := rfl

end Sys2Proof.Machine
end

