-- ==== Sys2Proof/Laws/Issue.lean ====
section
/-! SUPPORT. What the issue of a thread instruction can do (R59 to R61, R94, R95, R99, R104, R114): once for every instruction, so that a proof about
one instruction needs its body alone. -/
namespace Sys2Proof.Machine

/-- At a site whose instruction may execute, issuing is the body's effect, with the PC and the issue pointer moved as that effect says. -/
theorem issue_of_goes (x : Site) (body : State → Body) (s : State) (hw : 1 ≤ x.words) (h : x.goes s = true) :
    issue x body s = match body s with
      | .done s' => .next (x.after s s')
      | .jump s' pc => .next ((s'.issued x.c x.t).setPc x.c x.t pc)
      | .raise code addr => .next (x.trap s code addr)
      | .refused s' status addr => .next ((s'.issued x.c x.t).raise x.c x.t 0x08 status 0 (s.th x.c x.t).pc addr)
      | .notReady => .next s := by
  obtain ⟨⟨⟨⟨⟨⟨⟨h1, h2⟩, h3⟩, h4⟩, h8⟩, h5⟩, h6⟩, h7⟩ : (((((((s.canIssue x.c x.t = true ∧ (s.th x.c x.t).storeErr = none)
      ∧ (s.th x.c x.t).pc % 4 = 0) ∧ (s.th x.c x.t).pc + 4 * x.words ≤ 0x8000)
      ∧ x.fetched (s.th x.c x.t).pc ((s.core x.c).fetchable x.t) = true) ∧ x.legal = true) ∧ x.guard (s.th x.c x.t) = true)
      ∧ x.clear (s.core x.c) = true) := by simpa [Site.goes] using h
  unfold issue
  have e1 : ¬ (0x7FFC < (s.th x.c x.t).pc) := by omega
  have e2 : ¬ (x.words = 2 ∧ 0x7FFC < (s.th x.c x.t).pc + 4) := by omega
  simp only [h1, h2, h3, h5, h6, h7, h8, e1, e2, Bool.not_true, Bool.false_eq_true, if_false, ne_eq, not_true_eq_false]
  rfl

/-- Issuing never stops the machine. -/
theorem issue_next (x : Site) (body : State → Body) (s : State) : ∃ t, issue x body s = .next t := by
  unfold issue
  dsimp only
  repeat' split
  all_goals exact ⟨_, rfl⟩

/-- A thread that is not ready leaves everything as it was. -/
theorem issue_of_not_canIssue (x : Site) (body : State → Body) (s : State) (h : s.canIssue x.c x.t = false) : issue x body s = .next s := by
  simp [issue, h]

/-! The places of the sites of the instruction formats. -/

@[simp] theorem IssueA.site_c (i : IssueA) (op fn : Nat) (d a b : Use) (ok : Bool) : (i.site op fn d a b ok).c = i.core.val := rfl
@[simp] theorem IssueA.site_t (i : IssueA) (op fn : Nat) (d a b : Use) (ok : Bool) : (i.site op fn d a b ok).t = i.thread.val := rfl
@[simp] theorem IssueA.site_words (i : IssueA) (op fn : Nat) (d a b : Use) (ok : Bool) : (i.site op fn d a b ok).words = 1 := rfl
@[simp] theorem IssueI.site_c (i : IssueI) (op : Nat) (u ok : Bool) : (i.site op u ok).c = i.core.val := rfl
@[simp] theorem IssueI.site_t (i : IssueI) (op : Nat) (u ok : Bool) : (i.site op u ok).t = i.thread.val := rfl
@[simp] theorem IssueI.site_words (i : IssueI) (op : Nat) (u ok : Bool) : (i.site op u ok).words = 1 := rfl
@[simp] theorem IssueM.site_c (i : IssueM) (op : Nat) : (i.site op).c = i.core.val := rfl
@[simp] theorem IssueM.site_t (i : IssueM) (op : Nat) : (i.site op).t = i.thread.val := rfl
@[simp] theorem IssueM.site_words (i : IssueM) (op : Nat) : (i.site op).words = 1 := rfl
@[simp] theorem IssueK.site_c (i : IssueK) (op fn : Nat) : (i.site op fn).c = i.core.val := rfl
@[simp] theorem IssueK.site_t (i : IssueK) (op fn : Nat) : (i.site op fn).t = i.thread.val := rfl
@[simp] theorem IssueK.site_words (i : IssueK) (op fn : Nat) : (i.site op fn).words = 2 := rfl
@[simp] theorem IssueJ.site_c (i : IssueJ) (op : Nat) (g : List Nat) : (i.site op g).c = i.core.val := rfl
@[simp] theorem IssueJ.site_t (i : IssueJ) (op : Nat) (g : List Nat) : (i.site op g).t = i.thread.val := rfl
@[simp] theorem IssueJ.site_words (i : IssueJ) (op : Nat) (g : List Nat) : (i.site op g).words = 1 := rfl

/-- A core's tables but its threads and the issue slot are as they were once a thread has moved on. -/
theorem onlyIssued_after (x : Site) (s : State) (h : Thread) : onlyIssued x.c x.t s (x.after s (s.setTh x.c x.t h)) := by
  refine ⟨⟨?_, ?_, ?_⟩, ?_⟩
  · obtain ⟨m, hm⟩ : ∃ m, x.after s (s.setTh x.c x.t h) = { s with cores := m } := by
      unfold Site.after State.setPc State.setTh State.issued State.onCore State.setCore
      exact ⟨_, rfl⟩
    rw [hm]
  · intro d hd; simp [Site.after, State.setPc, hd]
  · simp [Site.after, State.setPc, Core.setTh, Core.issued]
  · intro j hj; simp [Site.after, hj]
theorem sameMemory_after (x : Site) (s : State) (h : Thread) : sameMemory s (x.after s (s.setTh x.c x.t h)) := by
  have e : ∀ d, ((x.after s (s.setTh x.c x.t h)).core d).sram = (s.core d).sram
      ∧ ((x.after s (s.setTh x.c x.t h)).core d).istore = (s.core d).istore := by
    intro d
    by_cases hd : d = x.c
    · subst hd; simp [Site.after, State.setPc, Core.setTh, Core.issued]
    · simp [Site.after, State.setPc, hd]
  refine ⟨fun _ => ?_, fun c a => by rw [(e c).1], fun c a => by rw [(e c).2]⟩
  simp [Site.after]
/-- Writing one g register and moving on is all that `wroteG` says. -/
theorem wroteG_after (x : Site) (s : State) (d : Nat) (v : BitVec 64) :
    wroteG x d v s (x.after s (s.setTh x.c x.t ((s.th x.c x.t).setG d v))) := by
  have e : (x.after s (s.setTh x.c x.t ((s.th x.c x.t).setG d v))).th x.c x.t
      = { (s.th x.c x.t).setG d v with pc := (s.th x.c x.t).pc + 4 * x.words } := by simp [Site.after]
  refine ⟨?_, ?_, ?_, onlyIssued_after x s _, sameMemory_after x s _⟩
  · intro n; rw [e]; exact Thread.gr_setG _ _ _ _
  · rw [e]; unfold Thread.setG; split <;> rfl
  · rw [e]
/-- Writing one predicate and moving on is all that `wroteP` says. -/
theorem wroteP_after (x : Site) (s : State) (d : Nat) (b : Bool) :
    wroteP x d b s (x.after s (s.setTh x.c x.t ((s.th x.c x.t).setP d b))) := by
  have e : (x.after s (s.setTh x.c x.t ((s.th x.c x.t).setP d b))).th x.c x.t
      = { (s.th x.c x.t).setP d b with pc := (s.th x.c x.t).pc + 4 * x.words } := by simp [Site.after]
  refine ⟨?_, ?_, ?_, onlyIssued_after x s _, sameMemory_after x s _⟩
  · intro n hn; rw [e]; exact Thread.pr_setP _ _ _ hn
  · rw [e]; unfold Thread.setP; split <;> rfl
  · rw [e]

end Sys2Proof.Machine
end

