-- ==== Sys2Proof/Laws/Keep.lean ====
section
/-! SUPPORT. What every shared operation leaves unchanged: the queue, the variant's fuse, what non-volatile memory and the fuses hold, and HBM,
each for the operations that do not write it. A step lemma cites these and unfolds none of them. -/
namespace Sys2Proof.Machine
set_option linter.all false
set_option maxRecDepth 4000
theorem pair_snd {α : Type} {p : α × State} {a : α} {t : State} (h : p = (a, t)) : t = p.2 := by subst h; rfl
theorem foldl_snd {α β γ : Type} (g : State → γ) (f : α × State → β → α × State) (l : List β) (y : α × State) (h : ∀ y x, g (f y x).2 = g y.2) : g (l.foldl f y).2 = g y.2 := by
  induction l generalizing y with
  | nil => rfl
  | cons a l ih => rw [List.foldl_cons, ih, h]
theorem foldl_pending {α : Type} (f : State → α → State) (l : List α) (s : State) (h : ∀ s x, (f s x).pending = s.pending) : (l.foldl f s).pending = s.pending := by
  induction l generalizing s with
  | nil => rfl
  | cons a l ih => rw [List.foldl_cons, ih, h]
@[simp] theorem ite_pending {p : Prop} [Decidable p] (a b : State) : (if p then a else b).pending = if p then a.pending else b.pending := by split <;> rfl
theorem foldl_variant {α : Type} (f : State → α → State) (l : List α) (s : State) (h : ∀ s x, (f s x).variant = s.variant) : (l.foldl f s).variant = s.variant := by
  induction l generalizing s with
  | nil => rfl
  | cons a l ih => rw [List.foldl_cons, ih, h]
@[simp] theorem ite_variant {p : Prop} [Decidable p] (a b : State) : (if p then a else b).variant = if p then a.variant else b.variant := by split <;> rfl
theorem foldl_nv {α : Type} (f : State → α → State) (l : List α) (s : State) (h : ∀ s x, (f s x).nv = s.nv) : (l.foldl f s).nv = s.nv := by
  induction l generalizing s with
  | nil => rfl
  | cons a l ih => rw [List.foldl_cons, ih, h]
@[simp] theorem ite_nv {p : Prop} [Decidable p] (a b : State) : (if p then a else b).nv = if p then a.nv else b.nv := by split <;> rfl
theorem foldl_hbm {α : Type} (f : State → α → State) (l : List α) (s : State) (h : ∀ s x, (f s x).hbm = s.hbm) : (l.foldl f s).hbm = s.hbm := by
  induction l generalizing s with
  | nil => rfl
  | cons a l ih => rw [List.foldl_cons, ih, h]
@[simp] theorem ite_hbm {p : Prop} [Decidable p] (a b : State) : (if p then a else b).hbm = if p then a.hbm else b.hbm := by split <;> rfl
@[simp] theorem State.setCore_keep (s : State) (c : Nat) (k : Core) : (State.setCore s c k).pending = s.pending ∧ (State.setCore s c k).variant = s.variant ∧ (State.setCore s c k).nv = s.nv ∧ (State.setCore s c k).hbm = s.hbm := by
  unfold State.setCore
  try dsimp only
  (repeat' split) <;> first | simp (disch := first | ((try intros); (try dsimp only); (repeat' split) <;> simp [*]; done) | fail) [*, foldl_pending, foldl_variant, foldl_nv, foldl_hbm] | exact ⟨rfl, rfl, rfl, rfl⟩
@[simp] theorem State.onCore_keep (s : State) (c : Nat) (f : Core → Core) : (State.onCore s c f).pending = s.pending ∧ (State.onCore s c f).variant = s.variant ∧ (State.onCore s c f).nv = s.nv ∧ (State.onCore s c f).hbm = s.hbm := by
  unfold State.onCore
  try dsimp only
  (repeat' split) <;> first | simp (disch := first | ((try intros); (try dsimp only); (repeat' split) <;> simp [*]; done) | fail) [*, foldl_pending, foldl_variant, foldl_nv, foldl_hbm] | exact ⟨rfl, rfl, rfl, rfl⟩
@[simp] theorem State.setTh_keep (s : State) (c t : Nat) (h : Thread) : (State.setTh s c t h).pending = s.pending ∧ (State.setTh s c t h).variant = s.variant ∧ (State.setTh s c t h).nv = s.nv ∧ (State.setTh s c t h).hbm = s.hbm := by
  unfold State.setTh
  try dsimp only
  (repeat' split) <;> first | simp (disch := first | ((try intros); (try dsimp only); (repeat' split) <;> simp [*]; done) | fail) [*, foldl_pending, foldl_variant, foldl_nv, foldl_hbm] | exact ⟨rfl, rfl, rfl, rfl⟩
@[simp] theorem State.setGw_keep (s : State) (g : Nat) (w : Gateway) : (State.setGw s g w).pending = s.pending ∧ (State.setGw s g w).variant = s.variant ∧ (State.setGw s g w).nv = s.nv ∧ (State.setGw s g w).hbm = s.hbm := by
  unfold State.setGw
  try dsimp only
  (repeat' split) <;> first | simp (disch := first | ((try intros); (try dsimp only); (repeat' split) <;> simp [*]; done) | fail) [*, foldl_pending, foldl_variant, foldl_nv, foldl_hbm] | exact ⟨rfl, rfl, rfl, rfl⟩
@[simp] theorem State.setBerth_keep (s : State) (b : Nat) (h : Berth) : (State.setBerth s b h).pending = s.pending ∧ (State.setBerth s b h).variant = s.variant ∧ (State.setBerth s b h).nv = s.nv ∧ (State.setBerth s b h).hbm = s.hbm := by
  unfold State.setBerth
  try dsimp only
  (repeat' split) <;> first | simp (disch := first | ((try intros); (try dsimp only); (repeat' split) <;> simp [*]; done) | fail) [*, foldl_pending, foldl_variant, foldl_nv, foldl_hbm] | exact ⟨rfl, rfl, rfl, rfl⟩
@[simp] theorem State.setPort_keep (s : State) (p : Nat) (e : EdgePort) : (State.setPort s p e).pending = s.pending ∧ (State.setPort s p e).variant = s.variant ∧ (State.setPort s p e).nv = s.nv ∧ (State.setPort s p e).hbm = s.hbm := by
  unfold State.setPort
  try dsimp only
  (repeat' split) <;> first | simp (disch := first | ((try intros); (try dsimp only); (repeat' split) <;> simp [*]; done) | fail) [*, foldl_pending, foldl_variant, foldl_nv, foldl_hbm] | exact ⟨rfl, rfl, rfl, rfl⟩
@[simp] theorem State.setFn_keep (s : State) (f : Nat) (x : Fn) : (State.setFn s f x).pending = s.pending ∧ (State.setFn s f x).variant = s.variant ∧ (State.setFn s f x).nv = s.nv ∧ (State.setFn s f x).hbm = s.hbm := by
  unfold State.setFn
  try dsimp only
  (repeat' split) <;> first | simp (disch := first | ((try intros); (try dsimp only); (repeat' split) <;> simp [*]; done) | fail) [*, foldl_pending, foldl_variant, foldl_nv, foldl_hbm] | exact ⟨rfl, rfl, rfl, rfl⟩
@[simp] theorem State.onBarn_keep (s : State) (b : Nat) (f : Barn → Barn) : (State.onBarn s b f).pending = s.pending ∧ (State.onBarn s b f).variant = s.variant ∧ (State.onBarn s b f).nv = s.nv ∧ (State.onBarn s b f).hbm = s.hbm := by
  unfold State.onBarn
  try dsimp only
  (repeat' split) <;> first | simp (disch := first | ((try intros); (try dsimp only); (repeat' split) <;> simp [*]; done) | fail) [*, foldl_pending, foldl_variant, foldl_nv, foldl_hbm] | exact ⟨rfl, rfl, rfl, rfl⟩
@[simp] theorem State.configChanged_keep (s : State) (b : Nat) : (State.configChanged s b).pending = s.pending ∧ (State.configChanged s b).variant = s.variant ∧ (State.configChanged s b).nv = s.nv ∧ (State.configChanged s b).hbm = s.hbm := by
  unfold State.configChanged
  try dsimp only
  (repeat' split) <;> first | simp (disch := first | ((try intros); (try dsimp only); (repeat' split) <;> simp [*]; done) | fail) [*, foldl_pending, foldl_variant, foldl_nv, foldl_hbm] | exact ⟨rfl, rfl, rfl, rfl⟩
@[simp] theorem State.onMctr_keep (s : State) (b : Nat) (f : MemCtr → MemCtr) : (State.onMctr s b f).pending = s.pending ∧ (State.onMctr s b f).variant = s.variant ∧ (State.onMctr s b f).nv = s.nv ∧ (State.onMctr s b f).hbm = s.hbm := by
  unfold State.onMctr
  try dsimp only
  (repeat' split) <;> first | simp (disch := first | ((try intros); (try dsimp only); (repeat' split) <;> simp [*]; done) | fail) [*, foldl_pending, foldl_variant, foldl_nv, foldl_hbm] | exact ⟨rfl, rfl, rfl, rfl⟩
@[simp] theorem State.onFctr_keep (s : State) (b : Nat) (f : FabCtr → FabCtr) : (State.onFctr s b f).pending = s.pending ∧ (State.onFctr s b f).variant = s.variant ∧ (State.onFctr s b f).nv = s.nv ∧ (State.onFctr s b f).hbm = s.hbm := by
  unfold State.onFctr
  try dsimp only
  (repeat' split) <;> first | simp (disch := first | ((try intros); (try dsimp only); (repeat' split) <;> simp [*]; done) | fail) [*, foldl_pending, foldl_variant, foldl_nv, foldl_hbm] | exact ⟨rfl, rfl, rfl, rfl⟩
@[simp] theorem State.free_keep (s : State) (w : Nat) : (State.free s w).2.pending = s.pending ∧ (State.free s w).2.variant = s.variant ∧ (State.free s w).2.nv = s.nv ∧ (State.free s w).2.hbm = s.hbm := by
  unfold State.free
  try dsimp only
  (repeat' split) <;> first | simp (disch := first | ((try intros); (try dsimp only); (repeat' split) <;> simp [*]; done) | fail) [*, foldl_pending, foldl_variant, foldl_nv, foldl_hbm] | exact ⟨rfl, rfl, rfl, rfl⟩
@[simp] theorem State.report_keep (s : State) (kind unit detail : Nat) : (State.report s kind unit detail).pending = s.pending ∧ (State.report s kind unit detail).variant = s.variant ∧ (State.report s kind unit detail).nv = s.nv ∧ (State.report s kind unit detail).hbm = s.hbm := by
  unfold State.report
  try dsimp only
  (repeat' split) <;> first | simp (disch := first | ((try intros); (try dsimp only); (repeat' split) <;> simp [*]; done) | fail) [*, foldl_pending, foldl_variant, foldl_nv, foldl_hbm] | exact ⟨rfl, rfl, rfl, rfl⟩
@[simp] theorem State.reportAs_keep (s : State) (base kind unit detail : Nat) : (State.reportAs s base kind unit detail).pending = s.pending ∧ (State.reportAs s base kind unit detail).variant = s.variant ∧ (State.reportAs s base kind unit detail).nv = s.nv ∧ (State.reportAs s base kind unit detail).hbm = s.hbm := by
  unfold State.reportAs
  try dsimp only
  (repeat' split) <;> first | simp (disch := first | ((try intros); (try dsimp only); (repeat' split) <;> simp [*]; done) | fail) [*, foldl_pending, foldl_variant, foldl_nv, foldl_hbm] | exact ⟨rfl, rfl, rfl, rfl⟩
@[simp] theorem State.msix_keep (s : State) (f vec : Nat) : (State.msix s f vec).pending = s.pending ∧ (State.msix s f vec).variant = s.variant ∧ (State.msix s f vec).nv = s.nv ∧ (State.msix s f vec).hbm = s.hbm := by
  unfold State.msix
  try dsimp only
  (repeat' split) <;> first | simp (disch := first | ((try intros); (try dsimp only); (repeat' split) <;> simp [*]; done) | fail) [*, foldl_pending, foldl_variant, foldl_nv, foldl_hbm] | exact ⟨rfl, rfl, rfl, rfl⟩
@[simp] theorem State.berthNotify_keep (s : State) (b n : Nat) : (State.berthNotify s b n).pending = s.pending ∧ (State.berthNotify s b n).variant = s.variant ∧ (State.berthNotify s b n).nv = s.nv ∧ (State.berthNotify s b n).hbm = s.hbm := by
  unfold State.berthNotify
  try dsimp only
  (repeat' split) <;> first | simp (disch := first | ((try intros); (try dsimp only); (repeat' split) <;> simp [*]; done) | fail) [*, foldl_pending, foldl_variant, foldl_nv, foldl_hbm] | exact ⟨rfl, rfl, rfl, rfl⟩
@[simp] theorem State.berthRaise_keep (s : State) (b n : Nat) : (State.berthRaise s b n).pending = s.pending ∧ (State.berthRaise s b n).variant = s.variant ∧ (State.berthRaise s b n).nv = s.nv ∧ (State.berthRaise s b n).hbm = s.hbm := by
  unfold State.berthRaise
  try dsimp only
  (repeat' split) <;> first | simp (disch := first | ((try intros); (try dsimp only); (repeat' split) <;> simp [*]; done) | fail) [*, foldl_pending, foldl_variant, foldl_nv, foldl_hbm] | exact ⟨rfl, rfl, rfl, rfl⟩
@[simp] theorem State.postNotice_keep (s : State) (b nkind : Nat) (body : List Byte) : (State.postNotice s b nkind body).pending = s.pending ∧ (State.postNotice s b nkind body).variant = s.variant ∧ (State.postNotice s b nkind body).nv = s.nv ∧ (State.postNotice s b nkind body).hbm = s.hbm := by
  unfold State.postNotice
  try dsimp only
  (repeat' split) <;> first | simp (disch := first | ((try intros); (try dsimp only); (repeat' split) <;> simp [*]; done) | fail) [*, foldl_pending, foldl_variant, foldl_nv, foldl_hbm] | exact ⟨rfl, rfl, rfl, rfl⟩
@[simp] theorem State.postPriority_keep (s : State) (b nkind : Nat) (body : List Byte) : (State.postPriority s b nkind body).pending = s.pending ∧ (State.postPriority s b nkind body).variant = s.variant ∧ (State.postPriority s b nkind body).nv = s.nv ∧ (State.postPriority s b nkind body).hbm = s.hbm := by
  unfold State.postPriority
  try dsimp only
  (repeat' split) <;> first | simp (disch := first | ((try intros); (try dsimp only); (repeat' split) <;> simp [*]; done) | fail) [*, foldl_pending, foldl_variant, foldl_nv, foldl_hbm] | exact ⟨rfl, rfl, rfl, rfl⟩
@[simp] theorem State.thread0Notice_keep (s : State) (c : Nat) : (State.thread0Notice s c).pending = s.pending ∧ (State.thread0Notice s c).variant = s.variant ∧ (State.thread0Notice s c).nv = s.nv ∧ (State.thread0Notice s c).hbm = s.hbm := by
  unfold State.thread0Notice
  try dsimp only
  (repeat' split) <;> first | simp (disch := first | ((try intros); (try dsimp only); (repeat' split) <;> simp [*]; done) | fail) [*, foldl_pending, foldl_variant, foldl_nv, foldl_hbm] | exact ⟨rfl, rfl, rfl, rfl⟩
@[simp] theorem State.raise_keep (s : State) (c t code status extra pc addr : Nat) : (State.raise s c t code status extra pc addr).pending = s.pending ∧ (State.raise s c t code status extra pc addr).variant = s.variant ∧ (State.raise s c t code status extra pc addr).nv = s.nv ∧ (State.raise s c t code status extra pc addr).hbm = s.hbm := by
  unfold State.raise
  try dsimp only
  (repeat' split) <;> first | simp (disch := first | ((try intros); (try dsimp only); (repeat' split) <;> simp [*]; done) | fail) [*, foldl_pending, foldl_variant, foldl_nv, foldl_hbm] | exact ⟨rfl, rfl, rfl, rfl⟩
@[simp] theorem State.gangLose_keep (s : State) (c line : Nat) (hit : Bool) : (State.gangLose s c line hit).pending = s.pending ∧ (State.gangLose s c line hit).variant = s.variant ∧ (State.gangLose s c line hit).nv = s.nv ∧ (State.gangLose s c line hit).hbm = s.hbm := by
  unfold State.gangLose
  try dsimp only
  (repeat' split) <;> first | simp (disch := first | ((try intros); (try dsimp only); (repeat' split) <;> simp [*]; done) | fail) [*, foldl_pending, foldl_variant, foldl_nv, foldl_hbm] | exact ⟨rfl, rfl, rfl, rfl⟩
@[simp] theorem State.phaseFault_keep (s : State) (c code : Nat) : (State.phaseFault s c code).pending = s.pending ∧ (State.phaseFault s c code).variant = s.variant ∧ (State.phaseFault s c code).nv = s.nv ∧ (State.phaseFault s c code).hbm = s.hbm := by
  unfold State.phaseFault
  try dsimp only
  (repeat' split) <;> first | simp (disch := first | ((try intros); (try dsimp only); (repeat' split) <;> simp [*]; done) | fail) [*, foldl_pending, foldl_variant, foldl_nv, foldl_hbm] | exact ⟨rfl, rfl, rfl, rfl⟩
@[simp] theorem State.addCounters_keep (s : State) (c : Nat) (l : List (Bool × Nat × Nat)) : (State.addCounters s c l).pending = s.pending ∧ (State.addCounters s c l).variant = s.variant ∧ (State.addCounters s c l).nv = s.nv ∧ (State.addCounters s c l).hbm = s.hbm := by
  unfold State.addCounters
  try dsimp only
  (repeat' split) <;> first | simp (disch := first | ((try intros); (try dsimp only); (repeat' split) <;> simp [*]; done) | fail) [*, foldl_pending, foldl_variant, foldl_nv, foldl_hbm] | exact ⟨rfl, rfl, rfl, rfl⟩
@[simp] theorem State.addCounter_keep (s : State) (c : Nat) (credit : Bool) (n amt : Nat) : (State.addCounter s c credit n amt).pending = s.pending ∧ (State.addCounter s c credit n amt).variant = s.variant ∧ (State.addCounter s c credit n amt).nv = s.nv ∧ (State.addCounter s c credit n amt).hbm = s.hbm := by
  unfold State.addCounter
  try dsimp only
  (repeat' split) <;> first | simp (disch := first | ((try intros); (try dsimp only); (repeat' split) <;> simp [*]; done) | fail) [*, foldl_pending, foldl_variant, foldl_nv, foldl_hbm] | exact ⟨rfl, rfl, rfl, rfl⟩
@[simp] theorem State.sramCheck_keep (s : State) (c row : Nat) (e : Ecc) : (State.sramCheck s c row e).2.pending = s.pending ∧ (State.sramCheck s c row e).2.variant = s.variant ∧ (State.sramCheck s c row e).2.nv = s.nv ∧ (State.sramCheck s c row e).2.hbm = s.hbm := by
  unfold State.sramCheck
  try dsimp only
  (repeat' split) <;> first | simp (disch := first | ((try intros); (try dsimp only); (repeat' split) <;> simp [*]; done) | fail) [*, foldl_pending, foldl_variant, foldl_nv, foldl_hbm] | exact ⟨rfl, rfl, rfl, rfl⟩
@[simp] theorem sramChecks_keep (s : State) (c row : Nat) (y0 : List Ecc) : (sramChecks s c row y0).2.pending = s.pending ∧ (sramChecks s c row y0).2.variant = s.variant ∧ (sramChecks s c row y0).2.nv = s.nv ∧ (sramChecks s c row y0).2.hbm = s.hbm := by
  induction y0 generalizing s c row <;> rw [sramChecks.eq_def] <;> (try dsimp only) <;> (repeat' split) <;> first | simp (disch := first | ((try intros); (try dsimp only); (repeat' split) <;> simp [*]; done) | fail) [*, foldl_pending, foldl_variant, foldl_nv, foldl_hbm] | exact ⟨rfl, rfl, rfl, rfl⟩
@[simp] theorem State.windowWrite_keep (s : State) (c a : Nat) (bs : List Byte) : (State.windowWrite s c a bs).pending = s.pending ∧ (State.windowWrite s c a bs).variant = s.variant ∧ (State.windowWrite s c a bs).nv = s.nv ∧ (State.windowWrite s c a bs).hbm = s.hbm := by
  unfold State.windowWrite
  try dsimp only
  (repeat' split) <;> first | simp (disch := first | ((try intros); (try dsimp only); (repeat' split) <;> simp [*]; done) | fail) [*, foldl_pending, foldl_variant, foldl_nv, foldl_hbm] | exact ⟨rfl, rfl, rfl, rfl⟩
@[simp] theorem State.onMeter_keep (s : State) (b : Nat) (f : MeterOpen → MeterOpen) : (State.onMeter s b f).pending = s.pending ∧ (State.onMeter s b f).variant = s.variant ∧ (State.onMeter s b f).nv = s.nv ∧ (State.onMeter s b f).hbm = s.hbm := by
  unfold State.onMeter
  try dsimp only
  (repeat' split) <;> first | simp (disch := first | ((try intros); (try dsimp only); (repeat' split) <;> simp [*]; done) | fail) [*, foldl_pending, foldl_variant, foldl_nv, foldl_hbm] | exact ⟨rfl, rfl, rfl, rfl⟩
@[simp] theorem State.meterOrphan_keep (s : State) (b : Nat) : (State.meterOrphan s b).pending = s.pending ∧ (State.meterOrphan s b).variant = s.variant ∧ (State.meterOrphan s b).nv = s.nv ∧ (State.meterOrphan s b).hbm = s.hbm := by
  unfold State.meterOrphan
  try dsimp only
  (repeat' split) <;> first | simp (disch := first | ((try intros); (try dsimp only); (repeat' split) <;> simp [*]; done) | fail) [*, foldl_pending, foldl_variant, foldl_nv, foldl_hbm] | exact ⟨rfl, rfl, rfl, rfl⟩
@[simp] theorem State.setTally_keep (s : State) (g n v : Nat) : (State.setTally s g n v).pending = s.pending ∧ (State.setTally s g n v).variant = s.variant ∧ (State.setTally s g n v).nv = s.nv ∧ (State.setTally s g n v).hbm = s.hbm := by
  unfold State.setTally
  try dsimp only
  (repeat' split) <;> first | simp (disch := first | ((try intros); (try dsimp only); (repeat' split) <;> simp [*]; done) | fail) [*, foldl_pending, foldl_variant, foldl_nv, foldl_hbm] | exact ⟨rfl, rfl, rfl, rfl⟩
@[simp] theorem State.addTally_keep (s : State) (g n v : Nat) : (State.addTally s g n v).pending = s.pending ∧ (State.addTally s g n v).variant = s.variant ∧ (State.addTally s g n v).nv = s.nv ∧ (State.addTally s g n v).hbm = s.hbm := by
  unfold State.addTally
  try dsimp only
  (repeat' split) <;> first | simp (disch := first | ((try intros); (try dsimp only); (repeat' split) <;> simp [*]; done) | fail) [*, foldl_pending, foldl_variant, foldl_nv, foldl_hbm] | exact ⟨rfl, rfl, rfl, rfl⟩
@[simp] theorem State.issued_keep (s : State) (c t : Nat) : (State.issued s c t).pending = s.pending ∧ (State.issued s c t).variant = s.variant ∧ (State.issued s c t).nv = s.nv ∧ (State.issued s c t).hbm = s.hbm := by
  unfold State.issued
  try dsimp only
  (repeat' split) <;> first | simp (disch := first | ((try intros); (try dsimp only); (repeat' split) <;> simp [*]; done) | fail) [*, foldl_pending, foldl_variant, foldl_nv, foldl_hbm] | exact ⟨rfl, rfl, rfl, rfl⟩
@[simp] theorem State.setPc_keep (s : State) (c t pc : Nat) : (State.setPc s c t pc).pending = s.pending ∧ (State.setPc s c t pc).variant = s.variant ∧ (State.setPc s c t pc).nv = s.nv ∧ (State.setPc s c t pc).hbm = s.hbm := by
  unfold State.setPc
  try dsimp only
  (repeat' split) <;> first | simp (disch := first | ((try intros); (try dsimp only); (repeat' split) <;> simp [*]; done) | fail) [*, foldl_pending, foldl_variant, foldl_nv, foldl_hbm] | exact ⟨rfl, rfl, rfl, rfl⟩
@[simp] theorem IssueA.put_keep (i : IssueA) (s : State) (f : Thread → Thread) : (IssueA.put i s f).pending = s.pending ∧ (IssueA.put i s f).variant = s.variant ∧ (IssueA.put i s f).nv = s.nv ∧ (IssueA.put i s f).hbm = s.hbm := by
  unfold IssueA.put
  try dsimp only
  (repeat' split) <;> first | simp (disch := first | ((try intros); (try dsimp only); (repeat' split) <;> simp [*]; done) | fail) [*, foldl_pending, foldl_variant, foldl_nv, foldl_hbm] | exact ⟨rfl, rfl, rfl, rfl⟩
@[simp] theorem IssueA.setD_keep (i : IssueA) (s : State) (v : BitVec 64) : (IssueA.setD i s v).pending = s.pending ∧ (IssueA.setD i s v).variant = s.variant ∧ (IssueA.setD i s v).nv = s.nv ∧ (IssueA.setD i s v).hbm = s.hbm := by
  unfold IssueA.setD
  try dsimp only
  (repeat' split) <;> first | simp (disch := first | ((try intros); (try dsimp only); (repeat' split) <;> simp [*]; done) | fail) [*, foldl_pending, foldl_variant, foldl_nv, foldl_hbm] | exact ⟨rfl, rfl, rfl, rfl⟩
@[simp] theorem IssueI.put_keep (i : IssueI) (s : State) (f : Thread → Thread) : (IssueI.put i s f).pending = s.pending ∧ (IssueI.put i s f).variant = s.variant ∧ (IssueI.put i s f).nv = s.nv ∧ (IssueI.put i s f).hbm = s.hbm := by
  unfold IssueI.put
  try dsimp only
  (repeat' split) <;> first | simp (disch := first | ((try intros); (try dsimp only); (repeat' split) <;> simp [*]; done) | fail) [*, foldl_pending, foldl_variant, foldl_nv, foldl_hbm] | exact ⟨rfl, rfl, rfl, rfl⟩
@[simp] theorem IssueK.put_keep (i : IssueK) (s : State) (f : Thread → Thread) : (IssueK.put i s f).pending = s.pending ∧ (IssueK.put i s f).variant = s.variant ∧ (IssueK.put i s f).nv = s.nv ∧ (IssueK.put i s f).hbm = s.hbm := by
  unfold IssueK.put
  try dsimp only
  (repeat' split) <;> first | simp (disch := first | ((try intros); (try dsimp only); (repeat' split) <;> simp [*]; done) | fail) [*, foldl_pending, foldl_variant, foldl_nv, foldl_hbm] | exact ⟨rfl, rfl, rfl, rfl⟩
@[simp] theorem IssueJ.put_keep (i : IssueJ) (s : State) (f : Thread → Thread) : (IssueJ.put i s f).pending = s.pending ∧ (IssueJ.put i s f).variant = s.variant ∧ (IssueJ.put i s f).nv = s.nv ∧ (IssueJ.put i s f).hbm = s.hbm := by
  unfold IssueJ.put
  try dsimp only
  (repeat' split) <;> first | simp (disch := first | ((try intros); (try dsimp only); (repeat' split) <;> simp [*]; done) | fail) [*, foldl_pending, foldl_variant, foldl_nv, foldl_hbm] | exact ⟨rfl, rfl, rfl, rfl⟩
@[simp] theorem State.setLink_keep (s : State) (l : Nat) (x : Link) : (State.setLink s l x).pending = s.pending ∧ (State.setLink s l x).variant = s.variant ∧ (State.setLink s l x).nv = s.nv ∧ (State.setLink s l x).hbm = s.hbm := by
  unfold State.setLink
  try dsimp only
  (repeat' split) <;> first | simp (disch := first | ((try intros); (try dsimp only); (repeat' split) <;> simp [*]; done) | fail) [*, foldl_pending, foldl_variant, foldl_nv, foldl_hbm] | exact ⟨rfl, rfl, rfl, rfl⟩
@[simp] theorem State.setLane_keep (s : State) (n : Nat) (x : Lane) : (State.setLane s n x).pending = s.pending ∧ (State.setLane s n x).variant = s.variant ∧ (State.setLane s n x).nv = s.nv ∧ (State.setLane s n x).hbm = s.hbm := by
  unfold State.setLane
  try dsimp only
  (repeat' split) <;> first | simp (disch := first | ((try intros); (try dsimp only); (repeat' split) <;> simp [*]; done) | fail) [*, foldl_pending, foldl_variant, foldl_nv, foldl_hbm] | exact ⟨rfl, rfl, rfl, rfl⟩
@[simp] theorem State.setSteer_keep (s : State) (b : Nat) (x : Steer) : (State.setSteer s b x).pending = s.pending ∧ (State.setSteer s b x).variant = s.variant ∧ (State.setSteer s b x).nv = s.nv ∧ (State.setSteer s b x).hbm = s.hbm := by
  unfold State.setSteer
  try dsimp only
  (repeat' split) <;> first | simp (disch := first | ((try intros); (try dsimp only); (repeat' split) <;> simp [*]; done) | fail) [*, foldl_pending, foldl_variant, foldl_nv, foldl_hbm] | exact ⟨rfl, rfl, rfl, rfl⟩
@[simp] theorem State.steerEnd_keep (s : State) (b : Nat) (q : SteerReq) (result : Nat) : (State.steerEnd s b q result).pending = s.pending ∧ (State.steerEnd s b q result).variant = s.variant ∧ (State.steerEnd s b q result).nv = s.nv ∧ (State.steerEnd s b q result).hbm = s.hbm := by
  unfold State.steerEnd
  try dsimp only
  (repeat' split) <;> first | simp (disch := first | ((try intros); (try dsimp only); (repeat' split) <;> simp [*]; done) | fail) [*, foldl_pending, foldl_variant, foldl_nv, foldl_hbm] | exact ⟨rfl, rfl, rfl, rfl⟩
@[simp] theorem State.steerStore_keep (s : State) (b g v : Nat) : (State.steerStore s b g v).2.pending = s.pending ∧ (State.steerStore s b g v).2.variant = s.variant ∧ (State.steerStore s b g v).2.nv = s.nv ∧ (State.steerStore s b g v).2.hbm = s.hbm := by
  unfold State.steerStore
  try dsimp only
  (repeat' split) <;> first | simp (disch := first | ((try intros); (try dsimp only); (repeat' split) <;> simp [*]; done) | fail) [*, foldl_pending, foldl_variant, foldl_nv, foldl_hbm] | exact ⟨rfl, rfl, rfl, rfl⟩
@[simp] theorem State.toPort_keep (s : State) (port : Nat) (p : Pkt) (arr : Option (Nat × Nat)) : (State.toPort s port p arr).pending = s.pending ∧ (State.toPort s port p arr).variant = s.variant ∧ (State.toPort s port p arr).nv = s.nv ∧ (State.toPort s port p arr).hbm = s.hbm := by
  unfold State.toPort
  try dsimp only
  (repeat' split) <;> first | simp (disch := first | ((try intros); (try dsimp only); (repeat' split) <;> simp [*]; done) | fail) [*, foldl_pending, foldl_variant, foldl_nv, foldl_hbm] | exact ⟨rfl, rfl, rfl, rfl⟩
@[simp] theorem State.linkPut_keep (s : State) (l : Nat) (q : LinkPkt) : (State.linkPut s l q).pending = s.pending ∧ (State.linkPut s l q).variant = s.variant ∧ (State.linkPut s l q).nv = s.nv ∧ (State.linkPut s l q).hbm = s.hbm := by
  unfold State.linkPut
  try dsimp only
  (repeat' split) <;> first | simp (disch := first | ((try intros); (try dsimp only); (repeat' split) <;> simp [*]; done) | fail) [*, foldl_pending, foldl_variant, foldl_nv, foldl_hbm] | exact ⟨rfl, rfl, rfl, rfl⟩
theorem State.linkSend_keep {s : State} {d : Nat} {q : LinkPkt} {t : State} (h : (State.linkSend s d q) = some t) : t.pending = s.pending ∧ t.variant = s.variant ∧ t.nv = s.nv ∧ t.hbm = s.hbm := by
  unfold State.linkSend at h
  try dsimp only at h
  (repeat' split at h) <;> first | (cases h; simp (disch := first | ((try intros); (try dsimp only); (repeat' split) <;> simp [*]; done) | fail) [*, foldl_pending, foldl_variant, foldl_nv, foldl_hbm]; done) | (simp at h; done) | (simp at h; subst h; simp (disch := first | ((try intros); (try dsimp only); (repeat' split) <;> simp [*]; done) | fail) [*, foldl_pending, foldl_variant, foldl_nv, foldl_hbm])
@[simp] theorem State.linkSend_getD_pending (s : State) (d : Nat) (q : LinkPkt) (e : State) (he : e.pending = s.pending) : ((State.linkSend s d q).getD e).pending = s.pending := by
  cases h : (State.linkSend s d q) with
  | none => exact he
  | some t => exact (State.linkSend_keep h).1
@[simp] theorem State.linkSend_getD_variant (s : State) (d : Nat) (q : LinkPkt) (e : State) (he : e.variant = s.variant) : ((State.linkSend s d q).getD e).variant = s.variant := by
  cases h : (State.linkSend s d q) with
  | none => exact he
  | some t => exact (State.linkSend_keep h).2.1
@[simp] theorem State.linkSend_getD_nv (s : State) (d : Nat) (q : LinkPkt) (e : State) (he : e.nv = s.nv) : ((State.linkSend s d q).getD e).nv = s.nv := by
  cases h : (State.linkSend s d q) with
  | none => exact he
  | some t => exact (State.linkSend_keep h).2.2.1
@[simp] theorem State.linkSend_getD_hbm (s : State) (d : Nat) (q : LinkPkt) (e : State) (he : e.hbm = s.hbm) : ((State.linkSend s d q).getD e).hbm = s.hbm := by
  cases h : (State.linkSend s d q) with
  | none => exact he
  | some t => exact (State.linkSend_keep h).2.2.2
@[simp] theorem State.unreachedAt_keep (s : State) (d : Nat) (p : Pkt) : (State.unreachedAt s d p).pending = s.pending ∧ (State.unreachedAt s d p).variant = s.variant ∧ (State.unreachedAt s d p).nv = s.nv ∧ (State.unreachedAt s d p).hbm = s.hbm := by
  unfold State.unreachedAt
  try dsimp only
  (repeat' split) <;> first | simp (disch := first | ((try intros); (try dsimp only); (repeat' split) <;> simp [*]; done) | fail) [*, foldl_pending, foldl_variant, foldl_nv, foldl_hbm] | exact ⟨rfl, rfl, rfl, rfl⟩
@[simp] theorem State.inside_keep (s : State) (d : Nat) (p : Pkt) : (State.inside s d p).pending = s.pending ∧ (State.inside s d p).variant = s.variant ∧ (State.inside s d p).nv = s.nv ∧ (State.inside s d p).hbm = s.hbm := by
  unfold State.inside
  try dsimp only
  (repeat' split) <;> first | simp (disch := first | ((try intros); (try dsimp only); (repeat' split) <;> simp [*]; done) | fail) [*, foldl_pending, foldl_variant, foldl_nv, foldl_hbm] | exact ⟨rfl, rfl, rfl, rfl⟩
@[simp] theorem State.towardPort_keep (s : State) (d port : Nat) (p : Pkt) (arr : Option (Nat × Nat)) : (State.towardPort s d port p arr).pending = s.pending ∧ (State.towardPort s d port p arr).variant = s.variant ∧ (State.towardPort s d port p arr).nv = s.nv ∧ (State.towardPort s d port p arr).hbm = s.hbm := by
  unfold State.towardPort
  try dsimp only
  (repeat' split) <;> first | simp (disch := first | ((try intros); (try dsimp only); (repeat' split) <;> simp [*]; done) | fail) [*, foldl_pending, foldl_variant, foldl_nv, foldl_hbm] | exact ⟨rfl, rfl, rfl, rfl⟩
@[simp] theorem State.dieTake_keep (s : State) (d : Nat) (q : LinkPkt) : (State.dieTake s d q).pending = s.pending ∧ (State.dieTake s d q).variant = s.variant ∧ (State.dieTake s d q).nv = s.nv ∧ (State.dieTake s d q).hbm = s.hbm := by
  unfold State.dieTake
  try dsimp only
  (repeat' split) <;> first | simp (disch := first | ((try intros); (try dsimp only); (repeat' split) <;> simp [*]; done) | fail) [*, foldl_pending, foldl_variant, foldl_nv, foldl_hbm] | exact ⟨rfl, rfl, rfl, rfl⟩
@[simp] theorem dieTakeAll_keep (s : State) (d : Nat) (y0 : List LinkPkt) : (dieTakeAll s d y0).pending = s.pending ∧ (dieTakeAll s d y0).variant = s.variant ∧ (dieTakeAll s d y0).nv = s.nv ∧ (dieTakeAll s d y0).hbm = s.hbm := by
  induction y0 generalizing s d <;> rw [dieTakeAll.eq_def] <;> (try dsimp only) <;> (repeat' split) <;> first | simp (disch := first | ((try intros); (try dsimp only); (repeat' split) <;> simp [*]; done) | fail) [*, foldl_pending, foldl_variant, foldl_nv, foldl_hbm] | exact ⟨rfl, rfl, rfl, rfl⟩
@[simp] theorem State.setSwin_keep (s : State) (k : Nat) (w : SrcWin) : (State.setSwin s k w).pending = s.pending ∧ (State.setSwin s k w).variant = s.variant ∧ (State.setSwin s k w).nv = s.nv ∧ (State.setSwin s k w).hbm = s.hbm := by
  unfold State.setSwin
  try dsimp only
  (repeat' split) <;> first | simp (disch := first | ((try intros); (try dsimp only); (repeat' split) <;> simp [*]; done) | fail) [*, foldl_pending, foldl_variant, foldl_nv, foldl_hbm] | exact ⟨rfl, rfl, rfl, rfl⟩
@[simp] theorem State.meterTx_keep (s : State) (p : Pkt) : (State.meterTx s p).pending = s.pending ∧ (State.meterTx s p).variant = s.variant ∧ (State.meterTx s p).nv = s.nv ∧ (State.meterTx s p).hbm = s.hbm := by
  unfold State.meterTx
  try dsimp only
  (repeat' split) <;> first | simp (disch := first | ((try intros); (try dsimp only); (repeat' split) <;> simp [*]; done) | fail) [*, foldl_pending, foldl_variant, foldl_nv, foldl_hbm] | exact ⟨rfl, rfl, rfl, rfl⟩
@[simp] theorem State.meterRx_keep (s : State) (p : Pkt) : (State.meterRx s p).pending = s.pending ∧ (State.meterRx s p).variant = s.variant ∧ (State.meterRx s p).nv = s.nv ∧ (State.meterRx s p).hbm = s.hbm := by
  unfold State.meterRx
  try dsimp only
  (repeat' split) <;> first | simp (disch := first | ((try intros); (try dsimp only); (repeat' split) <;> simp [*]; done) | fail) [*, foldl_pending, foldl_variant, foldl_nv, foldl_hbm] | exact ⟨rfl, rfl, rfl, rfl⟩
@[simp] theorem State.dispatch_keep (s : State) (p : Pkt) : (State.dispatch s p).pending = s.pending ∧ (State.dispatch s p).variant = s.variant ∧ (State.dispatch s p).nv = s.nv ∧ (State.dispatch s p).hbm = s.hbm := by
  unfold State.dispatch
  try dsimp only
  (repeat' split) <;> first | simp (disch := first | ((try intros); (try dsimp only); (repeat' split) <;> simp [*]; done) | fail) [*, foldl_pending, foldl_variant, foldl_nv, foldl_hbm] | exact ⟨rfl, rfl, rfl, rfl⟩
@[simp] theorem State.askWindow_keep (s : State) (dest tc : Nat) : (State.askWindow s dest tc).pending = s.pending ∧ (State.askWindow s dest tc).variant = s.variant ∧ (State.askWindow s dest tc).nv = s.nv ∧ (State.askWindow s dest tc).hbm = s.hbm := by
  unfold State.askWindow
  try dsimp only
  (repeat' split) <;> first | simp (disch := first | ((try intros); (try dsimp only); (repeat' split) <;> simp [*]; done) | fail) [*, foldl_pending, foldl_variant, foldl_nv, foldl_hbm] | exact ⟨rfl, rfl, rfl, rfl⟩
@[simp] theorem State.serve_keep (s : State) (k : Nat) (p : Pkt) : (State.serve s k p).pending = s.pending ∧ (State.serve s k p).variant = s.variant ∧ (State.serve s k p).nv = s.nv ∧ (State.serve s k p).hbm = s.hbm := by
  unfold State.serve
  try dsimp only
  (repeat' split) <;> first | simp (disch := first | ((try intros); (try dsimp only); (repeat' split) <;> simp [*]; done) | fail) [*, foldl_pending, foldl_variant, foldl_nv, foldl_hbm] | exact ⟨rfl, rfl, rfl, rfl⟩
@[simp] theorem State.atWindow_keep (s : State) (p : Pkt) : (State.atWindow s p).pending = s.pending ∧ (State.atWindow s p).variant = s.variant ∧ (State.atWindow s p).nv = s.nv ∧ (State.atWindow s p).hbm = s.hbm := by
  unfold State.atWindow
  try dsimp only
  (repeat' split) <;> first | simp (disch := first | ((try intros); (try dsimp only); (repeat' split) <;> simp [*]; done) | fail) [*, foldl_pending, foldl_variant, foldl_nv, foldl_hbm] | exact ⟨rfl, rfl, rfl, rfl⟩
@[simp] theorem State.egress_keep (s : State) (p : Pkt) : (State.egress s p).pending = s.pending ∧ (State.egress s p).variant = s.variant ∧ (State.egress s p).nv = s.nv ∧ (State.egress s p).hbm = s.hbm := by
  unfold State.egress
  try dsimp only
  (repeat' split) <;> first | simp (disch := first | ((try intros); (try dsimp only); (repeat' split) <;> simp [*]; done) | fail) [*, foldl_pending, foldl_variant, foldl_nv, foldl_hbm] | exact ⟨rfl, rfl, rfl, rfl⟩
@[simp] theorem State.stampPair_keep (s : State) (p : Pkt) : (State.stampPair s p).2.pending = s.pending ∧ (State.stampPair s p).2.variant = s.variant ∧ (State.stampPair s p).2.nv = s.nv ∧ (State.stampPair s p).2.hbm = s.hbm := by
  unfold State.stampPair
  try dsimp only
  (repeat' split) <;> first | simp (disch := first | ((try intros); (try dsimp only); (repeat' split) <;> simp [*]; done) | fail) [*, foldl_pending, foldl_variant, foldl_nv, foldl_hbm] | exact ⟨rfl, rfl, rfl, rfl⟩
@[simp] theorem stampAll_keep (s : State) (y0 : List Pkt) : (stampAll s y0).2.pending = s.pending ∧ (stampAll s y0).2.variant = s.variant ∧ (stampAll s y0).2.nv = s.nv ∧ (stampAll s y0).2.hbm = s.hbm := by
  induction y0 generalizing s <;> rw [stampAll.eq_def] <;> (try dsimp only) <;> (repeat' split) <;> first | simp (disch := first | ((try intros); (try dsimp only); (repeat' split) <;> simp [*]; done) | fail) [*, foldl_pending, foldl_variant, foldl_nv, foldl_hbm] | exact ⟨rfl, rfl, rfl, rfl⟩
theorem State.submit_keep {s : State} {p : Pkt} {e : Bool} {l : List Pkt} {t : State} (h : s.submit p e = .inr (l, t)) :
    t.pending = s.pending ∧ t.variant = s.variant ∧ t.nv = s.nv ∧ t.hbm = s.hbm := by
  unfold State.submit at h
  (repeat' split at h) <;> simp only [reduceCtorEq, Sum.inr.injEq, Prod.mk.injEq] at h
  have g := pair_snd (by assumption)
  rw [← h.2, g]; simp
@[simp] theorem State.coreSend_keep (s : State) (c : Nat) (p : Pkt) : (State.coreSend s c p).pending = s.pending ∧ (State.coreSend s c p).variant = s.variant ∧ (State.coreSend s c p).nv = s.nv ∧ (State.coreSend s c p).hbm = s.hbm := by
  unfold State.coreSend
  try dsimp only
  (repeat' split) <;> first | simp (disch := first | ((try intros); (try dsimp only); (repeat' split) <;> simp [*]; done) | fail) [*, foldl_pending, foldl_variant, foldl_nv, foldl_hbm] | exact ⟨rfl, rfl, rfl, rfl⟩
@[simp] theorem coreSendAll_keep (s : State) (c : Nat) (y0 : List Pkt) : (coreSendAll s c y0).pending = s.pending ∧ (coreSendAll s c y0).variant = s.variant ∧ (coreSendAll s c y0).nv = s.nv ∧ (coreSendAll s c y0).hbm = s.hbm := by
  induction y0 generalizing s c <;> rw [coreSendAll.eq_def] <;> (try dsimp only) <;> (repeat' split) <;> first | simp (disch := first | ((try intros); (try dsimp only); (repeat' split) <;> simp [*]; done) | fail) [*, foldl_pending, foldl_variant, foldl_nv, foldl_hbm] | exact ⟨rfl, rfl, rfl, rfl⟩
@[simp] theorem egressAll_keep (s : State) (y0 : List Pkt) : (egressAll s y0).pending = s.pending ∧ (egressAll s y0).variant = s.variant ∧ (egressAll s y0).nv = s.nv ∧ (egressAll s y0).hbm = s.hbm := by
  induction y0 generalizing s <;> rw [egressAll.eq_def] <;> (try dsimp only) <;> (repeat' split) <;> first | simp (disch := first | ((try intros); (try dsimp only); (repeat' split) <;> simp [*]; done) | fail) [*, foldl_pending, foldl_variant, foldl_nv, foldl_hbm] | exact ⟨rfl, rfl, rfl, rfl⟩
@[simp] theorem State.orphanReply_keep (s : State) (g who src tag : Nat) : (State.orphanReply s g who src tag).pending = s.pending ∧ (State.orphanReply s g who src tag).variant = s.variant ∧ (State.orphanReply s g who src tag).nv = s.nv ∧ (State.orphanReply s g who src tag).hbm = s.hbm := by
  unfold State.orphanReply
  try dsimp only
  (repeat' split) <;> first | simp (disch := first | ((try intros); (try dsimp only); (repeat' split) <;> simp [*]; done) | fail) [*, foldl_pending, foldl_variant, foldl_nv, foldl_hbm] | exact ⟨rfl, rfl, rfl, rfl⟩
@[simp] theorem State.sendReq_keep (s : State) (c : Nat) (who : Waiter) (skind pc op addr : Nat) (payload : List Byte)  : (State.sendReq s c who skind pc op addr payload).2.pending = s.pending ∧ (State.sendReq s c who skind pc op addr payload).2.variant = s.variant ∧ (State.sendReq s c who skind pc op addr payload).2.nv = s.nv ∧ (State.sendReq s c who skind pc op addr payload).2.hbm = s.hbm := by
  unfold State.sendReq
  try dsimp only
  (repeat' split) <;> (try have h := State.submit_keep (by assumption)) <;> simp [*]
@[simp] theorem State.setDwin_keep (s : State) (k : Nat) (w : DstWin) : (State.setDwin s k w).pending = s.pending ∧ (State.setDwin s k w).variant = s.variant ∧ (State.setDwin s k w).nv = s.nv ∧ (State.setDwin s k w).hbm = s.hbm := by
  unfold State.setDwin
  try dsimp only
  (repeat' split) <;> first | simp (disch := first | ((try intros); (try dsimp only); (repeat' split) <;> simp [*]; done) | fail) [*, foldl_pending, foldl_variant, foldl_nv, foldl_hbm] | exact ⟨rfl, rfl, rfl, rfl⟩
@[simp] theorem State.pump_keep (s : State) (k : Nat) : (State.pump s k).pending = s.pending ∧ (State.pump s k).variant = s.variant ∧ (State.pump s k).nv = s.nv ∧ (State.pump s k).hbm = s.hbm := by
  unfold State.pump
  try dsimp only
  (repeat' split) <;> first | simp (disch := first | ((try intros); (try dsimp only); (repeat' split) <;> simp [*]; done) | fail) [*, foldl_pending, foldl_variant, foldl_nv, foldl_hbm] | exact ⟨rfl, rfl, rfl, rfl⟩
@[simp] theorem State.freed_keep (s : State) (p : Pkt) : (State.freed s p).pending = s.pending ∧ (State.freed s p).variant = s.variant ∧ (State.freed s p).nv = s.nv ∧ (State.freed s p).hbm = s.hbm := by
  unfold State.freed
  try dsimp only
  (repeat' split) <;> first | simp (disch := first | ((try intros); (try dsimp only); (repeat' split) <;> simp [*]; done) | fail) [*, foldl_pending, foldl_variant, foldl_nv, foldl_hbm] | exact ⟨rfl, rfl, rfl, rfl⟩
@[simp] theorem State.setGranule_keep (s : State) (n : Nat) (g : Granule) : (State.setGranule s n g).pending = s.pending ∧ (State.setGranule s n g).variant = s.variant ∧ (State.setGranule s n g).nv = s.nv ∧ (State.setGranule s n g).hbm = s.hbm := by
  unfold State.setGranule
  try dsimp only
  (repeat' split) <;> first | simp (disch := first | ((try intros); (try dsimp only); (repeat' split) <;> simp [*]; done) | fail) [*, foldl_pending, foldl_variant, foldl_nv, foldl_hbm] | exact ⟨rfl, rfl, rfl, rfl⟩
@[simp] theorem State.wantRepair_keep (s : State) (g detail : Nat) : (State.wantRepair s g detail).pending = s.pending ∧ (State.wantRepair s g detail).variant = s.variant ∧ (State.wantRepair s g detail).nv = s.nv ∧ (State.wantRepair s g detail).hbm = s.hbm := by
  unfold State.wantRepair
  try dsimp only
  (repeat' split) <;> first | simp (disch := first | ((try intros); (try dsimp only); (repeat' split) <;> simp [*]; done) | fail) [*, foldl_pending, foldl_variant, foldl_nv, foldl_hbm] | exact ⟨rfl, rfl, rfl, rfl⟩
@[simp] theorem State.hbmError_keep (s : State) (l : Nat) (e : HbmErr) : (State.hbmError s l e).2.pending = s.pending ∧ (State.hbmError s l e).2.variant = s.variant ∧ (State.hbmError s l e).2.nv = s.nv := by
  unfold State.hbmError
  try dsimp only
  (repeat' split) <;> first | simp (disch := first | ((try intros); (try dsimp only); (repeat' split) <;> simp [*]; done) | fail) [*, foldl_pending, foldl_variant, foldl_nv, foldl_hbm] | exact ⟨rfl, rfl, rfl⟩
@[simp] theorem hbmErrors_keep (s : State) (es : List HbmErr) (y0 : List Nat) : (hbmErrors s es y0).2.pending = s.pending ∧ (hbmErrors s es y0).2.variant = s.variant ∧ (hbmErrors s es y0).2.nv = s.nv := by
  induction y0 generalizing s es <;> rw [hbmErrors.eq_def] <;> (try dsimp only) <;> (repeat' split) <;> first | simp (disch := first | ((try intros); (try dsimp only); (repeat' split) <;> simp [*]; done) | fail) [*, foldl_pending, foldl_variant, foldl_nv, foldl_hbm] | exact ⟨rfl, rfl, rfl⟩
@[simp] theorem State.targetCheckAl_keep (s : State) (pkg barn : Nat) (al : Bool) (kind : TKind) (l n : Nat) : (State.targetCheckAl s pkg barn al kind l n).2.pending = s.pending ∧ (State.targetCheckAl s pkg barn al kind l n).2.variant = s.variant ∧ (State.targetCheckAl s pkg barn al kind l n).2.nv = s.nv ∧ (State.targetCheckAl s pkg barn al kind l n).2.hbm = s.hbm := by
  unfold State.targetCheckAl
  try dsimp only
  (repeat' split) <;> first | simp (disch := first | ((try intros); (try dsimp only); (repeat' split) <;> simp [*]; done) | fail) [*, foldl_pending, foldl_variant, foldl_nv, foldl_hbm] | exact ⟨rfl, rfl, rfl, rfl⟩
@[simp] theorem State.targetCheck_keep (s : State) (pkg barn : Nat) (kind : TKind) (l n : Nat) : (State.targetCheck s pkg barn kind l n).2.pending = s.pending ∧ (State.targetCheck s pkg barn kind l n).2.variant = s.variant ∧ (State.targetCheck s pkg barn kind l n).2.nv = s.nv ∧ (State.targetCheck s pkg barn kind l n).2.hbm = s.hbm := by
  unfold State.targetCheck
  try dsimp only
  (repeat' split) <;> first | simp (disch := first | ((try intros); (try dsimp only); (repeat' split) <;> simp [*]; done) | fail) [*, foldl_pending, foldl_variant, foldl_nv, foldl_hbm] | exact ⟨rfl, rfl, rfl, rfl⟩
@[simp] theorem checkPieces_keep (s : State) (pkg barn : Nat) (kind : TKind) (y0 : List (Nat × Nat)) : (checkPieces s pkg barn kind y0).2.pending = s.pending ∧ (checkPieces s pkg barn kind y0).2.variant = s.variant ∧ (checkPieces s pkg barn kind y0).2.nv = s.nv ∧ (checkPieces s pkg barn kind y0).2.hbm = s.hbm := by
  induction y0 generalizing s with
  | nil => exact ⟨rfl, rfl, rfl, rfl⟩
  | cons a l ih =>
    rw [checkPieces.eq_def]; dsimp only
    have g := State.targetCheckAl_keep s pkg barn false kind a.1 a.2
    split
    · next h => rw [h] at g; simpa [ih] using g
    · exact g
@[simp] theorem State.rangeCheck_keep (s : State) (pkg barn : Nat) (kind : TKind) (l n : Nat) : (State.rangeCheck s pkg barn kind l n).2.pending = s.pending ∧ (State.rangeCheck s pkg barn kind l n).2.variant = s.variant ∧ (State.rangeCheck s pkg barn kind l n).2.nv = s.nv ∧ (State.rangeCheck s pkg barn kind l n).2.hbm = s.hbm := by
  unfold State.rangeCheck
  try dsimp only
  (repeat' split) <;> first | simp (disch := first | ((try intros); (try dsimp only); (repeat' split) <;> simp [*]; done) | fail) [*, foldl_pending, foldl_variant, foldl_nv, foldl_hbm] | exact ⟨rfl, rfl, rfl, rfl⟩
@[simp] theorem State.readCheck_keep (s : State) (l n : Nat) (e : ReadErr) : (State.readCheck s l n e).2.pending = s.pending ∧ (State.readCheck s l n e).2.variant = s.variant ∧ (State.readCheck s l n e).2.nv = s.nv := by
  unfold State.readCheck
  try dsimp only
  (repeat' split) <;> first | simp (disch := first | ((try intros); (try dsimp only); (repeat' split) <;> simp [*]; done) | fail) [*, foldl_pending, foldl_variant, foldl_nv, foldl_hbm] | exact ⟨rfl, rfl, rfl⟩
@[simp] theorem State.hbmStore_keep (s : State) (l : Nat) (bs : List Byte)  : (State.hbmStore s l bs).pending = s.pending ∧ (State.hbmStore s l bs).variant = s.variant ∧ (State.hbmStore s l bs).nv = s.nv := by
  unfold State.hbmStore
  try dsimp only
  (repeat' split) <;> first | simp (disch := first | ((try intros); (try dsimp only); (repeat' split) <;> simp [*]; done) | fail) [*, foldl_pending, foldl_variant, foldl_nv, foldl_hbm] | exact ⟨rfl, rfl, rfl⟩
@[simp] theorem State.putAhead_keep (s : State) (r : ReadAhead) : (State.putAhead s r).pending = s.pending ∧ (State.putAhead s r).variant = s.variant ∧ (State.putAhead s r).nv = s.nv ∧ (State.putAhead s r).hbm = s.hbm := by
  unfold State.putAhead
  try dsimp only
  (repeat' split) <;> first | simp (disch := first | ((try intros); (try dsimp only); (repeat' split) <;> simp [*]; done) | fail) [*, foldl_pending, foldl_variant, foldl_nv, foldl_hbm] | exact ⟨rfl, rfl, rfl, rfl⟩
@[simp] theorem State.served_keep (s : State) (who trk barn src len : Nat) (linear : Bool) : (State.served s who trk barn src len linear).pending = s.pending ∧ (State.served s who trk barn src len linear).variant = s.variant ∧ (State.served s who trk barn src len linear).nv = s.nv ∧ (State.served s who trk barn src len linear).hbm = s.hbm := by
  unfold State.served
  try dsimp only
  (repeat' split) <;> first | simp (disch := first | ((try intros); (try dsimp only); (repeat' split) <;> simp [*]; done) | fail) [*, foldl_pending, foldl_variant, foldl_nv, foldl_hbm] | exact ⟨rfl, rfl, rfl, rfl⟩
@[simp] theorem State.setQueue_keep (s : State) (q : Nat) (x : MQueue) : (State.setQueue s q x).pending = s.pending ∧ (State.setQueue s q x).variant = s.variant ∧ (State.setQueue s q x).nv = s.nv ∧ (State.setQueue s q x).hbm = s.hbm := by
  unfold State.setQueue
  try dsimp only
  (repeat' split) <;> first | simp (disch := first | ((try intros); (try dsimp only); (repeat' split) <;> simp [*]; done) | fail) [*, foldl_pending, foldl_variant, foldl_nv, foldl_hbm] | exact ⟨rfl, rfl, rfl, rfl⟩
@[simp] theorem State.writeQcfg_keep (s : State) (b q v : Nat) : (State.writeQcfg s b q v).pending = s.pending ∧ (State.writeQcfg s b q v).variant = s.variant ∧ (State.writeQcfg s b q v).nv = s.nv ∧ (State.writeQcfg s b q v).hbm = s.hbm := by
  unfold State.writeQcfg
  try dsimp only
  (repeat' split) <;> first | simp (disch := first | ((try intros); (try dsimp only); (repeat' split) <;> simp [*]; done) | fail) [*, foldl_pending, foldl_variant, foldl_nv, foldl_hbm] | exact ⟨rfl, rfl, rfl, rfl⟩
@[simp] theorem State.writeQbase_keep (s : State) (q v : Nat) : (State.writeQbase s q v).pending = s.pending ∧ (State.writeQbase s q v).variant = s.variant ∧ (State.writeQbase s q v).nv = s.nv ∧ (State.writeQbase s q v).hbm = s.hbm := by
  unfold State.writeQbase
  try dsimp only
  (repeat' split) <;> first | simp (disch := first | ((try intros); (try dsimp only); (repeat' split) <;> simp [*]; done) | fail) [*, foldl_pending, foldl_variant, foldl_nv, foldl_hbm] | exact ⟨rfl, rfl, rfl, rfl⟩
@[simp] theorem State.writeQhead_keep (s : State) (q v : Nat) : (State.writeQhead s q v).pending = s.pending ∧ (State.writeQhead s q v).variant = s.variant ∧ (State.writeQhead s q v).nv = s.nv ∧ (State.writeQhead s q v).hbm = s.hbm := by
  unfold State.writeQhead
  try dsimp only
  (repeat' split) <;> first | simp (disch := first | ((try intros); (try dsimp only); (repeat' split) <;> simp [*]; done) | fail) [*, foldl_pending, foldl_variant, foldl_nv, foldl_hbm] | exact ⟨rfl, rfl, rfl, rfl⟩
@[simp] theorem State.enqueue_keep (s : State) (p : Pkt) (q : Nat)  : (State.enqueue s p q).2.pending = s.pending ∧ (State.enqueue s p q).2.variant = s.variant ∧ (State.enqueue s p q).2.nv = s.nv := by
  unfold State.enqueue
  try dsimp only
  (repeat' split) <;> first | simp (disch := first | ((try intros); (try dsimp only); (repeat' split) <;> simp [*]; done) | fail) [*, foldl_pending, foldl_variant, foldl_nv, foldl_hbm] | exact ⟨rfl, rfl, rfl⟩
@[simp] theorem State.copyOver_keep (s : State) (g trk : Nat) (t : Tracker) (st : Nat) : (State.copyOver s g trk t st).pending = s.pending ∧ (State.copyOver s g trk t st).variant = s.variant ∧ (State.copyOver s g trk t st).nv = s.nv ∧ (State.copyOver s g trk t st).hbm = s.hbm := by
  unfold State.copyOver
  try dsimp only
  (repeat' split) <;> first | simp (disch := first | ((try intros); (try dsimp only); (repeat' split) <;> simp [*]; done) | fail) [*, foldl_pending, foldl_variant, foldl_nv, foldl_hbm] | exact ⟨rfl, rfl, rfl, rfl⟩
@[simp] theorem State.copyEnd_keep (s : State) (g trk : Nat) : (State.copyEnd s g trk).pending = s.pending ∧ (State.copyEnd s g trk).variant = s.variant ∧ (State.copyEnd s g trk).nv = s.nv ∧ (State.copyEnd s g trk).hbm = s.hbm := by
  unfold State.copyEnd
  dsimp only
  split
  · exact ⟨rfl, rfl, rfl, rfl⟩
  · split
    · split
      · split <;> simp
      · next h =>
        have g : True := trivial
        (repeat' split at h) <;> simp only [reduceCtorEq, Sum.inr.injEq] at h <;> (try have g := State.submit_keep (by assumption)) <;> subst h <;> simp [*]
    · exact ⟨rfl, rfl, rfl, rfl⟩
@[simp] theorem State.segDone_keep (s : State) (g barn src tag status : Nat) : (State.segDone s g barn src tag status).pending = s.pending ∧ (State.segDone s g barn src tag status).variant = s.variant ∧ (State.segDone s g barn src tag status).nv = s.nv ∧ (State.segDone s g barn src tag status).hbm = s.hbm := by
  unfold State.segDone
  try dsimp only
  (repeat' split) <;> first | simp (disch := first | ((try intros); (try dsimp only); (repeat' split) <;> simp [*]; done) | fail) [*, foldl_pending, foldl_variant, foldl_nv, foldl_hbm] | exact ⟨rfl, rfl, rfl, rfl⟩
@[simp] theorem State.copySubmit_keep (s : State) (c t gd d : Nat) (idx : List Nat) : (State.copySubmit s c t gd d idx).pending = s.pending ∧ (State.copySubmit s c t gd d idx).variant = s.variant ∧ (State.copySubmit s c t gd d idx).nv = s.nv ∧ (State.copySubmit s c t gd d idx).hbm = s.hbm := by
  unfold State.copySubmit
  try dsimp only
  (repeat' split) <;> first | simp (disch := first | ((try intros); (try dsimp only); (repeat' split) <;> simp [*]; done) | fail) [*, foldl_pending, foldl_variant, foldl_nv, foldl_hbm] | exact ⟨rfl, rfl, rfl, rfl⟩
@[simp] theorem State.copyRead_keep (s : State) (c t pc gd at_ d : Nat) (dead : Bool) : (State.copyRead s c t pc gd at_ d dead).pending = s.pending ∧ (State.copyRead s c t pc gd at_ d dead).variant = s.variant ∧ (State.copyRead s c t pc gd at_ d dead).nv = s.nv ∧ (State.copyRead s c t pc gd at_ d dead).hbm = s.hbm := by
  unfold State.copyRead
  try dsimp only
  (repeat' split) <;> first | simp (disch := first | ((try intros); (try dsimp only); (repeat' split) <;> simp [*]; done) | fail) [*, foldl_pending, foldl_variant, foldl_nv, foldl_hbm] | exact ⟨rfl, rfl, rfl, rfl⟩
@[simp] theorem State.copyIndexed_keep (s : State) (c t pc gd at_ d : Nat) (idx : List Nat) : (State.copyIndexed s c t pc gd at_ d idx).pending = s.pending ∧ (State.copyIndexed s c t pc gd at_ d idx).variant = s.variant ∧ (State.copyIndexed s c t pc gd at_ d idx).nv = s.nv ∧ (State.copyIndexed s c t pc gd at_ d idx).hbm = s.hbm := by
  unfold State.copyIndexed
  try dsimp only
  (repeat' split) <;> first | simp (disch := first | ((try intros); (try dsimp only); (repeat' split) <;> simp [*]; done) | fail) [*, foldl_pending, foldl_variant, foldl_nv, foldl_hbm] | exact ⟨rfl, rfl, rfl, rfl⟩
@[simp] theorem State.storeFailed_keep (s : State) (c t addr status : Nat) : (State.storeFailed s c t addr status).pending = s.pending ∧ (State.storeFailed s c t addr status).variant = s.variant ∧ (State.storeFailed s c t addr status).nv = s.nv ∧ (State.storeFailed s c t addr status).hbm = s.hbm := by
  unfold State.storeFailed
  try dsimp only
  (repeat' split) <;> first | simp (disch := first | ((try intros); (try dsimp only); (repeat' split) <;> simp [*]; done) | fail) [*, foldl_pending, foldl_variant, foldl_nv, foldl_hbm] | exact ⟨rfl, rfl, rfl, rfl⟩
@[simp] theorem State.stampCpl_keep (s : State) (p : Pkt) (op st : Nat) (data : List Byte) : (State.stampCpl s p op st data).2.pending = s.pending ∧ (State.stampCpl s p op st data).2.variant = s.variant ∧ (State.stampCpl s p op st data).2.nv = s.nv ∧ (State.stampCpl s p op st data).2.hbm = s.hbm := by
  unfold State.stampCpl
  try dsimp only
  (repeat' split) <;> first | simp (disch := first | ((try intros); (try dsimp only); (repeat' split) <;> simp [*]; done) | fail) [*, foldl_pending, foldl_variant, foldl_nv, foldl_hbm] | exact ⟨rfl, rfl, rfl, rfl⟩
@[simp] theorem State.answer_keep (s : State) (p : Pkt) (op st : Nat) (data : List Byte) : (State.answer s p op st data).pending = s.pending ∧ (State.answer s p op st data).variant = s.variant ∧ (State.answer s p op st data).nv = s.nv ∧ (State.answer s p op st data).hbm = s.hbm := by
  unfold State.answer
  try dsimp only
  (repeat' split) <;> first | simp (disch := first | ((try intros); (try dsimp only); (repeat' split) <;> simp [*]; done) | fail) [*, foldl_pending, foldl_variant, foldl_nv, foldl_hbm] | exact ⟨rfl, rfl, rfl, rfl⟩
@[simp] theorem State.onPairRec_keep (s : State) (n : Nat) (f : PairRec → PairRec) : (State.onPairRec s n f).pending = s.pending ∧ (State.onPairRec s n f).variant = s.variant ∧ (State.onPairRec s n f).nv = s.nv ∧ (State.onPairRec s n f).hbm = s.hbm := by
  unfold State.onPairRec
  try dsimp only
  (repeat' split) <;> first | simp (disch := first | ((try intros); (try dsimp only); (repeat' split) <;> simp [*]; done) | fail) [*, foldl_pending, foldl_variant, foldl_nv, foldl_hbm] | exact ⟨rfl, rfl, rfl, rfl⟩
@[simp] theorem State.freezePair_keep (s : State) (r : PairDesc) : (State.freezePair s r).pending = s.pending ∧ (State.freezePair s r).variant = s.variant ∧ (State.freezePair s r).nv = s.nv ∧ (State.freezePair s r).hbm = s.hbm := by
  unfold State.freezePair
  try dsimp only
  (repeat' split) <;> first | simp (disch := first | ((try intros); (try dsimp only); (repeat' split) <;> simp [*]; done) | fail) [*, foldl_pending, foldl_variant, foldl_nv, foldl_hbm] | exact ⟨rfl, rfl, rfl, rfl⟩
@[simp] theorem State.helmSend_keep (s : State) (pkg : Nat) (what : Nat) (body : List Byte) : (State.helmSend s pkg what body).pending = s.pending ∧ (State.helmSend s pkg what body).variant = s.variant ∧ (State.helmSend s pkg what body).nv = s.nv ∧ (State.helmSend s pkg what body).hbm = s.hbm := by
  unfold State.helmSend
  try dsimp only
  (repeat' split) <;> first | simp (disch := first | ((try intros); (try dsimp only); (repeat' split) <;> simp [*]; done) | fail) [*, foldl_pending, foldl_variant, foldl_nv, foldl_hbm] | exact ⟨rfl, rfl, rfl, rfl⟩
@[simp] theorem State.pairFault_keep (s : State) (n : Nat) (report : Bool) : (State.pairFault s n report).pending = s.pending ∧ (State.pairFault s n report).variant = s.variant ∧ (State.pairFault s n report).nv = s.nv ∧ (State.pairFault s n report).hbm = s.hbm := by
  unfold State.pairFault
  try dsimp only
  (repeat' split) <;> first | simp (disch := first | ((try intros); (try dsimp only); (repeat' split) <;> simp [*]; done) | fail) [*, foldl_pending, foldl_variant, foldl_nv, foldl_hbm] | exact ⟨rfl, rfl, rfl, rfl⟩
@[simp] theorem State.unpairedEvent_keep (s : State) (n : Nat) (fromB : Bool) : (State.unpairedEvent s n fromB).pending = s.pending ∧ (State.unpairedEvent s n fromB).variant = s.variant ∧ (State.unpairedEvent s n fromB).nv = s.nv ∧ (State.unpairedEvent s n fromB).hbm = s.hbm := by
  unfold State.unpairedEvent
  try dsimp only
  (repeat' split) <;> first | simp (disch := first | ((try intros); (try dsimp only); (repeat' split) <;> simp [*]; done) | fail) [*, foldl_pending, foldl_variant, foldl_nv, foldl_hbm] | exact ⟨rfl, rfl, rfl, rfl⟩
@[simp] theorem State.overrunEvent_keep (s : State) (n : Nat) : (State.overrunEvent s n).pending = s.pending ∧ (State.overrunEvent s n).variant = s.variant ∧ (State.overrunEvent s n).nv = s.nv ∧ (State.overrunEvent s n).hbm = s.hbm := by
  unfold State.overrunEvent
  try dsimp only
  (repeat' split) <;> first | simp (disch := first | ((try intros); (try dsimp only); (repeat' split) <;> simp [*]; done) | fail) [*, foldl_pending, foldl_variant, foldl_nv, foldl_hbm] | exact ⟨rfl, rfl, rfl, rfl⟩
@[simp] theorem State.mismatchEvent_keep (s : State) (n pseq checkA checkB : Nat) (fromB : Bool) : (State.mismatchEvent s n pseq checkA checkB fromB).pending = s.pending ∧ (State.mismatchEvent s n pseq checkA checkB fromB).variant = s.variant ∧ (State.mismatchEvent s n pseq checkA checkB fromB).nv = s.nv ∧ (State.mismatchEvent s n pseq checkA checkB fromB).hbm = s.hbm := by
  unfold State.mismatchEvent
  try dsimp only
  (repeat' split) <;> first | simp (disch := first | ((try intros); (try dsimp only); (repeat' split) <;> simp [*]; done) | fail) [*, foldl_pending, foldl_variant, foldl_nv, foldl_hbm] | exact ⟨rfl, rfl, rfl, rfl⟩
@[simp] theorem State.setChaff_keep (s : State) (k : Nat) (w : ChaffWin) : (State.setChaff s k w).pending = s.pending ∧ (State.setChaff s k w).variant = s.variant ∧ (State.setChaff s k w).nv = s.nv ∧ (State.setChaff s k w).hbm = s.hbm := by
  unfold State.setChaff
  try dsimp only
  (repeat' split) <;> first | simp (disch := first | ((try intros); (try dsimp only); (repeat' split) <;> simp [*]; done) | fail) [*, foldl_pending, foldl_variant, foldl_nv, foldl_hbm] | exact ⟨rfl, rfl, rfl, rfl⟩
@[simp] theorem answerAll_keep (s : State) (st : Nat) (data : List Byte) (y0 : List Pkt) : (answerAll s st data y0).pending = s.pending ∧ (answerAll s st data y0).variant = s.variant ∧ (answerAll s st data y0).nv = s.nv ∧ (answerAll s st data y0).hbm = s.hbm := by
  induction y0 generalizing s st data <;> rw [answerAll.eq_def] <;> (try dsimp only) <;> (repeat' split) <;> first | simp (disch := first | ((try intros); (try dsimp only); (repeat' split) <;> simp [*]; done) | fail) [*, foldl_pending, foldl_variant, foldl_nv, foldl_hbm] | exact ⟨rfl, rfl, rfl, rfl⟩
@[simp] theorem State.chaffLeave_keep (s : State) (n : Nat) (e : ChaffEntry) : (State.chaffLeave s n e).pending = s.pending ∧ (State.chaffLeave s n e).variant = s.variant ∧ (State.chaffLeave s n e).nv = s.nv ∧ (State.chaffLeave s n e).hbm = s.hbm := by
  unfold State.chaffLeave
  try dsimp only
  (repeat' split) <;> first | simp (disch := first | ((try intros); (try dsimp only); (repeat' split) <;> simp [*]; done) | fail) [*, foldl_pending, foldl_variant, foldl_nv, foldl_hbm] | exact ⟨rfl, rfl, rfl, rfl⟩
@[simp] theorem chaffAdvance_keep (y0 : Nat) (y1 : State) (y2 : Nat) (y3 : Nat) : (chaffAdvance y0 y1 y2 y3).pending = y1.pending ∧ (chaffAdvance y0 y1 y2 y3).variant = y1.variant ∧ (chaffAdvance y0 y1 y2 y3).nv = y1.nv ∧ (chaffAdvance y0 y1 y2 y3).hbm = y1.hbm := by
  induction y0 generalizing y1 y2 y3 <;> rw [chaffAdvance.eq_def] <;> (try dsimp only) <;> (repeat' split) <;> first | simp (disch := first | ((try intros); (try dsimp only); (repeat' split) <;> simp [*]; done) | fail) [*, foldl_pending, foldl_variant, foldl_nv, foldl_hbm] | exact ⟨rfl, rfl, rfl, rfl⟩
@[simp] theorem State.chaffDone_keep (s : State) (p : Pkt) (st : Nat) (data : List Byte) : (State.chaffDone s p st data).pending = s.pending ∧ (State.chaffDone s p st data).variant = s.variant ∧ (State.chaffDone s p st data).nv = s.nv ∧ (State.chaffDone s p st data).hbm = s.hbm := by
  unfold State.chaffDone
  try dsimp only
  (repeat' split) <;> first | simp (disch := first | ((try intros); (try dsimp only); (repeat' split) <;> simp [*]; done) | fail) [*, foldl_pending, foldl_variant, foldl_nv, foldl_hbm] | exact ⟨rfl, rfl, rfl, rfl⟩
@[simp] theorem State.reply_keep (s : State) (p : Pkt) (op st : Nat) (data : List Byte) : (State.reply s p op st data).pending = s.pending ∧ (State.reply s p op st data).variant = s.variant ∧ (State.reply s p op st data).nv = s.nv ∧ (State.reply s p op st data).hbm = s.hbm := by
  unfold State.reply
  try dsimp only
  (repeat' split) <;> first | simp (disch := first | ((try intros); (try dsimp only); (repeat' split) <;> simp [*]; done) | fail) [*, foldl_pending, foldl_variant, foldl_nv, foldl_hbm] | exact ⟨rfl, rfl, rfl, rfl⟩
@[simp] theorem State.coreReply_keep (s : State) (c : Nat) (p : Pkt) (op st : Nat) (data : List Byte) : (State.coreReply s c p op st data).pending = s.pending ∧ (State.coreReply s c p op st data).variant = s.variant ∧ (State.coreReply s c p op st data).nv = s.nv ∧ (State.coreReply s c p op st data).hbm = s.hbm := by
  unfold State.coreReply
  try dsimp only
  (repeat' split) <;> first | simp (disch := first | ((try intros); (try dsimp only); (repeat' split) <;> simp [*]; done) | fail) [*, foldl_pending, foldl_variant, foldl_nv, foldl_hbm] | exact ⟨rfl, rfl, rfl, rfl⟩
@[simp] theorem State.chaffTake_keep_pending (s : State) (p : Pkt) (bad : Bool) (f : State → State)  (hf_pending : ∀ u, (f u).pending = u.pending) : (State.chaffTake s p bad f).pending = s.pending := by
  unfold State.chaffTake
  split
  · split <;> simp [hf_pending]
  · extract_lets q w0 ahead late s1 w e
    have gl : ∀ u, (late u).pending = u.pending := by intro u; simp [late]
    have gu : s1.pending = s.pending := by dsimp only [s1]; split <;> simp
    split
    · simp [gl]
    · clear_value late
      clear_value w e s1
      split
      · (repeat' split) <;> simp +zetaDelta [hf_pending, gu]
      · (repeat' split) <;> simp +zetaDelta [hf_pending, gu, gl]
@[simp] theorem State.chaffTake_keep_variant (s : State) (p : Pkt) (bad : Bool) (f : State → State)  (hf_variant : ∀ u, (f u).variant = u.variant) : (State.chaffTake s p bad f).variant = s.variant := by
  unfold State.chaffTake
  split
  · split <;> simp [hf_variant]
  · extract_lets q w0 ahead late s1 w e
    have gl : ∀ u, (late u).variant = u.variant := by intro u; simp [late]
    have gu : s1.variant = s.variant := by dsimp only [s1]; split <;> simp
    split
    · simp [gl]
    · clear_value late
      clear_value w e s1
      split
      · (repeat' split) <;> simp +zetaDelta [hf_variant, gu]
      · (repeat' split) <;> simp +zetaDelta [hf_variant, gu, gl]
@[simp] theorem State.chaffTake_keep_nv (s : State) (p : Pkt) (bad : Bool) (f : State → State)  (hf_nv : ∀ u, (f u).nv = u.nv) : (State.chaffTake s p bad f).nv = s.nv := by
  unfold State.chaffTake
  split
  · split <;> simp [hf_nv]
  · extract_lets q w0 ahead late s1 w e
    have gl : ∀ u, (late u).nv = u.nv := by intro u; simp [late]
    have gu : s1.nv = s.nv := by dsimp only [s1]; split <;> simp
    split
    · simp [gl]
    · clear_value late
      clear_value w e s1
      split
      · (repeat' split) <;> simp +zetaDelta [hf_nv, gu]
      · (repeat' split) <;> simp +zetaDelta [hf_nv, gu, gl]
@[simp] theorem State.chaffTake_keep_hbm (s : State) (p : Pkt) (bad : Bool) (f : State → State)  (hf_hbm : ∀ u, (f u).hbm = u.hbm) : (State.chaffTake s p bad f).hbm = s.hbm := by
  unfold State.chaffTake
  split
  · split <;> simp [hf_hbm]
  · extract_lets q w0 ahead late s1 w e
    have gl : ∀ u, (late u).hbm = u.hbm := by intro u; simp [late]
    have gu : s1.hbm = s.hbm := by dsimp only [s1]; split <;> simp
    split
    · simp [gl]
    · clear_value late
      clear_value w e s1
      split
      · (repeat' split) <;> simp +zetaDelta [hf_hbm, gu]
      · (repeat' split) <;> simp +zetaDelta [hf_hbm, gu, gl]
@[simp] theorem State.arrive_keep_pending (s : State) (p : Pkt) (f : State → State)  (hf_pending : ∀ u, (f u).pending = u.pending) : (State.arrive s p f).pending = s.pending := by
  unfold State.arrive
  try dsimp only
  (repeat' split) <;> first | simp (disch := first | ((try intros); (try dsimp only); (repeat' split) <;> simp [*]; done) | fail) [*, foldl_pending, foldl_variant, foldl_nv, foldl_hbm] | exact ⟨⟩
@[simp] theorem State.arrive_keep_variant (s : State) (p : Pkt) (f : State → State)  (hf_variant : ∀ u, (f u).variant = u.variant) : (State.arrive s p f).variant = s.variant := by
  unfold State.arrive
  try dsimp only
  (repeat' split) <;> first | simp (disch := first | ((try intros); (try dsimp only); (repeat' split) <;> simp [*]; done) | fail) [*, foldl_pending, foldl_variant, foldl_nv, foldl_hbm] | exact ⟨⟩
@[simp] theorem State.arrive_keep_nv (s : State) (p : Pkt) (f : State → State)  (hf_nv : ∀ u, (f u).nv = u.nv) : (State.arrive s p f).nv = s.nv := by
  unfold State.arrive
  try dsimp only
  (repeat' split) <;> first | simp (disch := first | ((try intros); (try dsimp only); (repeat' split) <;> simp [*]; done) | fail) [*, foldl_pending, foldl_variant, foldl_nv, foldl_hbm] | exact ⟨⟩
@[simp] theorem State.arrive_keep_hbm (s : State) (p : Pkt) (f : State → State)  (hf_hbm : ∀ u, (f u).hbm = u.hbm) : (State.arrive s p f).hbm = s.hbm := by
  unfold State.arrive
  try dsimp only
  (repeat' split) <;> first | simp (disch := first | ((try intros); (try dsimp only); (repeat' split) <;> simp [*]; done) | fail) [*, foldl_pending, foldl_variant, foldl_nv, foldl_hbm] | exact ⟨⟩
@[simp] theorem State.putCtx_keep (s : State) (x : ShCtx) : (State.putCtx s x).pending = s.pending ∧ (State.putCtx s x).variant = s.variant ∧ (State.putCtx s x).nv = s.nv ∧ (State.putCtx s x).hbm = s.hbm := by
  unfold State.putCtx
  try dsimp only
  (repeat' split) <;> first | simp (disch := first | ((try intros); (try dsimp only); (repeat' split) <;> simp [*]; done) | fail) [*, foldl_pending, foldl_variant, foldl_nv, foldl_hbm] | exact ⟨rfl, rfl, rfl, rfl⟩
@[simp] theorem shLeave_keep (s : State) (n : NodeId) (barn : Nat) (y0 : List ShSent) : (shLeave s n barn y0).pending = s.pending ∧ (shLeave s n barn y0).variant = s.variant ∧ (shLeave s n barn y0).nv = s.nv ∧ (shLeave s n barn y0).hbm = s.hbm := by
  induction y0 generalizing s n barn <;> rw [shLeave.eq_def] <;> (try dsimp only) <;> (repeat' split) <;> first | simp (disch := first | ((try intros); (try dsimp only); (repeat' split) <;> simp [*]; done) | fail) [*, foldl_pending, foldl_variant, foldl_nv, foldl_hbm] | exact ⟨rfl, rfl, rfl, rfl⟩
@[simp] theorem State.dropCtxs_keep (s : State) (hit : ShCtx → Bool) : (State.dropCtxs s hit).pending = s.pending ∧ (State.dropCtxs s hit).variant = s.variant ∧ (State.dropCtxs s hit).nv = s.nv ∧ (State.dropCtxs s hit).hbm = s.hbm := by
  unfold State.dropCtxs
  try dsimp only
  (repeat' split) <;> first | simp (disch := first | ((try intros); (try dsimp only); (repeat' split) <;> simp [*]; done) | fail) [*, foldl_pending, foldl_variant, foldl_nv, foldl_hbm] | exact ⟨rfl, rfl, rfl, rfl⟩
@[simp] theorem State.endCtx_keep (s : State) (x : ShCtx) (aborted : Bool) : (State.endCtx s x aborted).pending = s.pending ∧ (State.endCtx s x aborted).variant = s.variant ∧ (State.endCtx s x aborted).nv = s.nv ∧ (State.endCtx s x aborted).hbm = s.hbm := by
  unfold State.endCtx
  try dsimp only
  (repeat' split) <;> first | simp (disch := first | ((try intros); (try dsimp only); (repeat' split) <;> simp [*]; done) | fail) [*, foldl_pending, foldl_variant, foldl_nv, foldl_hbm] | exact ⟨rfl, rfl, rfl, rfl⟩
@[simp] theorem State.nodeSend_keep (s : State) (n : NodeId) (ps : List Pkt) : (State.nodeSend s n ps).pending = s.pending ∧ (State.nodeSend s n ps).variant = s.variant ∧ (State.nodeSend s n ps).nv = s.nv ∧ (State.nodeSend s n ps).hbm = s.hbm := by
  unfold State.nodeSend
  try dsimp only
  (repeat' split) <;> first | simp (disch := first | ((try intros); (try dsimp only); (repeat' split) <;> simp [*]; done) | fail) [*, foldl_pending, foldl_variant, foldl_nv, foldl_hbm] | exact ⟨rfl, rfl, rfl, rfl⟩
@[simp] theorem State.shSend_keep (s : State) (x : ShCtx) (write : Bool) (op dst addr : Nat) (bytes : List Byte)  : (State.shSend s x write op dst addr bytes).2.pending = s.pending ∧ (State.shSend s x write op dst addr bytes).2.variant = s.variant ∧ (State.shSend s x write op dst addr bytes).2.nv = s.nv ∧ (State.shSend s x write op dst addr bytes).2.hbm = s.hbm := by
  unfold State.shSend
  try dsimp only
  (repeat' split) <;> (try have h := State.submit_keep (by assumption)) <;> simp [*]
@[simp] theorem shSendAll_keep (y0 : Nat) (y1 : State) (y2 : ShCtx) (y3 : Nat) (y4 : Nat) (y5 : Nat) (y6 : List Byte) : (shSendAll y0 y1 y2 y3 y4 y5 y6).2.pending = y1.pending ∧ (shSendAll y0 y1 y2 y3 y4 y5 y6).2.variant = y1.variant ∧ (shSendAll y0 y1 y2 y3 y4 y5 y6).2.nv = y1.nv ∧ (shSendAll y0 y1 y2 y3 y4 y5 y6).2.hbm = y1.hbm := by
  induction y0 generalizing y1 y2 y3 y4 y5 y6 <;> rw [shSendAll.eq_def] <;> (try dsimp only) <;> (repeat' split) <;> first | simp (disch := first | ((try intros); (try dsimp only); (repeat' split) <;> simp [*]; done) | fail) [*, foldl_pending, foldl_variant, foldl_nv, foldl_hbm] | exact ⟨rfl, rfl, rfl, rfl⟩
@[simp] theorem State.shWords_keep (s : State) (x : ShCtx) (dst : Nat) (bcast : Bool) (u : Nat) (bs : List Byte) : (State.shWords s x dst bcast u bs).2.pending = s.pending ∧ (State.shWords s x dst bcast u bs).2.variant = s.variant ∧ (State.shWords s x dst bcast u bs).2.nv = s.nv ∧ (State.shWords s x dst bcast u bs).2.hbm = s.hbm := by
  unfold State.shWords
  try dsimp only
  (repeat' split) <;> first | simp (disch := first | ((try intros); (try dsimp only); (repeat' split) <;> simp [*]; done) | fail) [*, foldl_pending, foldl_variant, foldl_nv, foldl_hbm] | exact ⟨rfl, rfl, rfl, rfl⟩
@[simp] theorem State.shCtrl_keep (s : State) (x : ShCtx) (dst what : Nat) : (State.shCtrl s x dst what).pending = s.pending ∧ (State.shCtrl s x dst what).variant = s.variant ∧ (State.shCtrl s x dst what).nv = s.nv ∧ (State.shCtrl s x dst what).hbm = s.hbm := by
  unfold State.shCtrl
  try dsimp only
  (repeat' split) <;> first | simp (disch := first | ((try intros); (try dsimp only); (repeat' split) <;> simp [*]; done) | fail) [*, foldl_pending, foldl_variant, foldl_nv, foldl_hbm] | exact ⟨rfl, rfl, rfl, rfl⟩
@[simp] theorem ctrlAll_keep (s : State) (x : ShCtx) (what : Nat) (y0 : List Nat) : (ctrlAll s x what y0).pending = s.pending ∧ (ctrlAll s x what y0).variant = s.variant ∧ (ctrlAll s x what y0).nv = s.nv ∧ (ctrlAll s x what y0).hbm = s.hbm := by
  induction y0 generalizing s x what <;> rw [ctrlAll.eq_def] <;> (try dsimp only) <;> (repeat' split) <;> first | simp (disch := first | ((try intros); (try dsimp only); (repeat' split) <;> simp [*]; done) | fail) [*, foldl_pending, foldl_variant, foldl_nv, foldl_hbm] | exact ⟨rfl, rfl, rfl, rfl⟩
@[simp] theorem State.shAbort_keep (s : State) (x : ShCtx) : (State.shAbort s x).pending = s.pending ∧ (State.shAbort s x).variant = s.variant ∧ (State.shAbort s x).nv = s.nv ∧ (State.shAbort s x).hbm = s.hbm := by
  unfold State.shAbort
  try dsimp only
  (repeat' split) <;> first | simp (disch := first | ((try intros); (try dsimp only); (repeat' split) <;> simp [*]; done) | fail) [*, foldl_pending, foldl_variant, foldl_nv, foldl_hbm] | exact ⟨rfl, rfl, rfl, rfl⟩
@[simp] theorem State.shAccept_keep (s : State) (x : ShCtx) (p : Pkt)  : (State.shAccept s x p).pending = s.pending ∧ (State.shAccept s x p).variant = s.variant ∧ (State.shAccept s x p).nv = s.nv ∧ (State.shAccept s x p).hbm = s.hbm := by
  unfold State.shAccept
  dsimp only
  have F : ∀ {γ : Type} (g : State → γ) (hg : ∀ (t : State) y d b u bs, g (t.shWords y d b u bs).2 = g t) (l : List Nat) (y : ShCtx × State) (bs : List Byte),
      g (l.foldl (fun (y : ShCtx × State) e => y.2.shWords y.1 e true 16 bs) y).2 = g y.2 :=
    fun g hg l y bs => foldl_snd g _ l y fun y x => hg _ _ _ _ _ _
  have f0 := F State.pending (by intros; simp)
  have f1 := F State.variant (by intros; simp)
  have f2 := F State.nv (by intros; simp)
  have f3 := F State.hbm (by intros; simp)
  (repeat' split) <;> simp [f0, f1, f2, f3]
@[simp] theorem shEarly_keep (y0 : List (Nat × Pkt)) (y1 : State) (y2 : NodeId) (y3 : Nat) (y4 : Nat) : (shEarly y0 y1 y2 y3 y4).pending = y1.pending ∧ (shEarly y0 y1 y2 y3 y4).variant = y1.variant ∧ (shEarly y0 y1 y2 y3 y4).nv = y1.nv ∧ (shEarly y0 y1 y2 y3 y4).hbm = y1.hbm := by
  induction y0 generalizing y1 y2 y3 y4 <;> rw [shEarly.eq_def] <;> (try dsimp only) <;> (repeat' split) <;> first | simp (disch := first | ((try intros); (try dsimp only); (repeat' split) <;> simp [*]; done) | fail) [*, foldl_pending, foldl_variant, foldl_nv, foldl_hbm] | exact ⟨rfl, rfl, rfl, rfl⟩
@[simp] theorem State.shRead_keep (s : State) (c t pc gd at_ d : Nat) : (State.shRead s c t pc gd at_ d).pending = s.pending ∧ (State.shRead s c t pc gd at_ d).variant = s.variant ∧ (State.shRead s c t pc gd at_ d).nv = s.nv ∧ (State.shRead s c t pc gd at_ d).hbm = s.hbm := by
  unfold State.shRead
  try dsimp only
  (repeat' split) <;> first | simp (disch := first | ((try intros); (try dsimp only); (repeat' split) <;> simp [*]; done) | fail) [*, foldl_pending, foldl_variant, foldl_nv, foldl_hbm] | exact ⟨rfl, rfl, rfl, rfl⟩
@[simp] theorem State.inject_keep (s : State) (c : Nat) (p : Pkt) : (State.inject s c p).pending = s.pending ∧ (State.inject s c p).variant = s.variant ∧ (State.inject s c p).nv = s.nv ∧ (State.inject s c p).hbm = s.hbm := by
  unfold State.inject
  try dsimp only
  (repeat' split) <;> first | simp (disch := first | ((try intros); (try dsimp only); (repeat' split) <;> simp [*]; done) | fail) [*, foldl_pending, foldl_variant, foldl_nv, foldl_hbm] | exact ⟨rfl, rfl, rfl, rfl⟩
@[simp] theorem State.shCpl_keep (s : State) (n : NodeId) (src rtag status : Nat) : (State.shCpl s n src rtag status).pending = s.pending ∧ (State.shCpl s n src rtag status).variant = s.variant ∧ (State.shCpl s n src rtag status).nv = s.nv ∧ (State.shCpl s n src rtag status).hbm = s.hbm := by
  unfold State.shCpl
  try dsimp only
  (repeat' split) <;> first | simp (disch := first | ((try intros); (try dsimp only); (repeat' split) <;> simp [*]; done) | fail) [*, foldl_pending, foldl_variant, foldl_nv, foldl_hbm] | exact ⟨rfl, rfl, rfl, rfl⟩
@[simp] theorem State.nodeReply_keep (s : State) (n : NodeId) (p : Pkt) (st : Nat) : (State.nodeReply s n p st).pending = s.pending ∧ (State.nodeReply s n p st).variant = s.variant ∧ (State.nodeReply s n p st).nv = s.nv ∧ (State.nodeReply s n p st).hbm = s.hbm := by
  unfold State.nodeReply
  try dsimp only
  (repeat' split) <;> first | simp (disch := first | ((try intros); (try dsimp only); (repeat' split) <;> simp [*]; done) | fail) [*, foldl_pending, foldl_variant, foldl_nv, foldl_hbm] | exact ⟨rfl, rfl, rfl, rfl⟩
@[simp] theorem State.sheafTake_keep (s : State) (n : NodeId) (p : Pkt) : (State.sheafTake s n p).pending = s.pending ∧ (State.sheafTake s n p).variant = s.variant ∧ (State.sheafTake s n p).nv = s.nv ∧ (State.sheafTake s n p).hbm = s.hbm := by
  unfold State.sheafTake
  try dsimp only
  (repeat' split) <;> first | simp (disch := first | ((try intros); (try dsimp only); (repeat' split) <;> simp [*]; done) | fail) [*, foldl_pending, foldl_variant, foldl_nv, foldl_hbm] | exact ⟨rfl, rfl, rfl, rfl⟩
@[simp] theorem State.shDecide_keep (s : State) (x : ShCtx) (els : List Nat)  : (State.shDecide s x els).pending = s.pending ∧ (State.shDecide s x els).variant = s.variant ∧ (State.shDecide s x els).nv = s.nv ∧ (State.shDecide s x els).hbm = s.hbm := by
  unfold State.shDecide
  dsimp only
  refine ⟨?_, ?_, ?_, ?_⟩
  · rw [(show ∀ u x, (State.putCtx u x).pending = u.pending from fun _ _ => by simp), foldl_snd State.pending _ _ _ (by intro y x; split <;> simp)]; simp
  · rw [(show ∀ u x, (State.putCtx u x).variant = u.variant from fun _ _ => by simp), foldl_snd State.variant _ _ _ (by intro y x; split <;> simp)]; simp
  · rw [(show ∀ u x, (State.putCtx u x).nv = u.nv from fun _ _ => by simp), foldl_snd State.nv _ _ _ (by intro y x; split <;> simp)]; simp
  · rw [(show ∀ u x, (State.putCtx u x).hbm = u.hbm from fun _ _ => by simp), foldl_snd State.hbm _ _ _ (by intro y x; split <;> simp)]; simp
@[simp] theorem State.ctrlTake_keep (s : State) (p : Pkt) : (State.ctrlTake s p).pending = s.pending ∧ (State.ctrlTake s p).variant = s.variant ∧ (State.ctrlTake s p).nv = s.nv ∧ (State.ctrlTake s p).hbm = s.hbm := by
  unfold State.ctrlTake
  try dsimp only
  (repeat' split) <;> first | simp (disch := first | ((try intros); (try dsimp only); (repeat' split) <;> simp [*]; done) | fail) [*, foldl_pending, foldl_variant, foldl_nv, foldl_hbm] | exact ⟨rfl, rfl, rfl, rfl⟩
@[simp] theorem State.regStore_keep (s : State) (b g o v : Nat) : (State.regStore s b g o v).2.pending = s.pending ∧ (State.regStore s b g o v).2.variant = s.variant ∧ (State.regStore s b g o v).2.nv = s.nv ∧ (State.regStore s b g o v).2.hbm = s.hbm := by
  unfold State.regStore
  try dsimp only
  (repeat' split) <;> first | simp (disch := first | ((try intros); (try dsimp only); (repeat' split) <;> simp [*]; done) | fail) [*, foldl_pending, foldl_variant, foldl_nv, foldl_hbm] | exact ⟨rfl, rfl, rfl, rfl⟩
@[simp] theorem State.destTally_keep (s : State) (x n : Nat) : (State.destTally s x n).pending = s.pending ∧ (State.destTally s x n).variant = s.variant ∧ (State.destTally s x n).nv = s.nv ∧ (State.destTally s x n).hbm = s.hbm := by
  unfold State.destTally
  try dsimp only
  (repeat' split) <;> first | simp (disch := first | ((try intros); (try dsimp only); (repeat' split) <;> simp [*]; done) | fail) [*, foldl_pending, foldl_variant, foldl_nv, foldl_hbm] | exact ⟨rfl, rfl, rfl, rfl⟩
@[simp] theorem State.pullSend_keep (s : State) (p : Pkt) (data : List Byte) : (State.pullSend s p data).pending = s.pending ∧ (State.pullSend s p data).variant = s.variant ∧ (State.pullSend s p data).nv = s.nv ∧ (State.pullSend s p data).hbm = s.hbm := by
  unfold State.pullSend
  try dsimp only
  (repeat' split) <;> first | simp (disch := first | ((try intros); (try dsimp only); (repeat' split) <;> simp [*]; done) | fail) [*, foldl_pending, foldl_variant, foldl_nv, foldl_hbm] | exact ⟨rfl, rfl, rfl, rfl⟩
@[simp] theorem State.performLoad_keep (s : State) (p : Pkt) (e : List HbmErr) : (State.performLoad s p e).pending = s.pending ∧ (State.performLoad s p e).variant = s.variant ∧ (State.performLoad s p e).nv = s.nv := by
  unfold State.performLoad
  try dsimp only
  (repeat' split) <;> first | simp (disch := first | ((try intros); (try dsimp only); (repeat' split) <;> simp [*]; done) | fail) [*, foldl_pending, foldl_variant, foldl_nv, foldl_hbm] | exact ⟨rfl, rfl, rfl⟩
@[simp] theorem State.performStore_keep (s : State) (p : Pkt) (e : List HbmErr) : (State.performStore s p e).pending = s.pending ∧ (State.performStore s p e).variant = s.variant ∧ (State.performStore s p e).nv = s.nv := by
  unfold State.performStore
  try dsimp only
  (repeat' split) <;> first | simp (disch := first | ((try intros); (try dsimp only); (repeat' split) <;> simp [*]; done) | fail) [*, foldl_pending, foldl_variant, foldl_nv, foldl_hbm] | exact ⟨rfl, rfl, rfl⟩
@[simp] theorem State.performCounter_keep (s : State) (p : Pkt) : (State.performCounter s p).pending = s.pending ∧ (State.performCounter s p).variant = s.variant ∧ (State.performCounter s p).nv = s.nv ∧ (State.performCounter s p).hbm = s.hbm := by
  unfold State.performCounter
  try dsimp only
  (repeat' split) <;> first | simp (disch := first | ((try intros); (try dsimp only); (repeat' split) <;> simp [*]; done) | fail) [*, foldl_pending, foldl_variant, foldl_nv, foldl_hbm] | exact ⟨rfl, rfl, rfl, rfl⟩
@[simp] theorem State.performAtomic_keep (s : State) (p : Pkt) (e : List HbmErr) : (State.performAtomic s p e).pending = s.pending ∧ (State.performAtomic s p e).variant = s.variant ∧ (State.performAtomic s p e).nv = s.nv := by
  unfold State.performAtomic
  try dsimp only
  (repeat' split) <;> first | simp (disch := first | ((try intros); (try dsimp only); (repeat' split) <;> simp [*]; done) | fail) [*, foldl_pending, foldl_variant, foldl_nv, foldl_hbm] | exact ⟨rfl, rfl, rfl⟩
@[simp] theorem State.performMessage_keep (s : State) (p : Pkt)  : (State.performMessage s p).pending = s.pending ∧ (State.performMessage s p).variant = s.variant ∧ (State.performMessage s p).nv = s.nv := by
  unfold State.performMessage
  try dsimp only
  (repeat' split) <;> first | simp (disch := first | ((try intros); (try dsimp only); (repeat' split) <;> simp [*]; done) | fail) [*, foldl_pending, foldl_variant, foldl_nv, foldl_hbm] | exact ⟨rfl, rfl, rfl⟩
@[simp] theorem State.performCopyWrite_keep (s : State) (p : Pkt) (e : List HbmErr) : (State.performCopyWrite s p e).pending = s.pending ∧ (State.performCopyWrite s p e).variant = s.variant ∧ (State.performCopyWrite s p e).nv = s.nv := by
  unfold State.performCopyWrite
  try dsimp only
  (repeat' split) <;> first | simp (disch := first | ((try intros); (try dsimp only); (repeat' split) <;> simp [*]; done) | fail) [*, foldl_pending, foldl_variant, foldl_nv, foldl_hbm] | exact ⟨rfl, rfl, rfl⟩
@[simp] theorem State.performPull_keep (s : State) (p : Pkt) (e : List HbmErr) : (State.performPull s p e).pending = s.pending ∧ (State.performPull s p e).variant = s.variant ∧ (State.performPull s p e).nv = s.nv := by
  unfold State.performPull
  try dsimp only
  (repeat' split) <;> first | simp (disch := first | ((try intros); (try dsimp only); (repeat' split) <;> simp [*]; done) | fail) [*, foldl_pending, foldl_variant, foldl_nv, foldl_hbm] | exact ⟨rfl, rfl, rfl⟩
@[simp] theorem State.reqDone_keep (s : State) (c src tag st : Nat) (data : List Byte) : (State.reqDone s c src tag st data).pending = s.pending ∧ (State.reqDone s c src tag st data).variant = s.variant ∧ (State.reqDone s c src tag st data).nv = s.nv ∧ (State.reqDone s c src tag st data).hbm = s.hbm := by
  unfold State.reqDone
  try dsimp only
  (repeat' split) <;> first | simp (disch := first | ((try intros); (try dsimp only); (repeat' split) <;> simp [*]; done) | fail) [*, foldl_pending, foldl_variant, foldl_nv, foldl_hbm] | exact ⟨rfl, rfl, rfl, rfl⟩
@[simp] theorem State.aptError_keep (s : State) (f addr st : Nat) : (State.aptError s f addr st).pending = s.pending ∧ (State.aptError s f addr st).variant = s.variant ∧ (State.aptError s f addr st).nv = s.nv ∧ (State.aptError s f addr st).hbm = s.hbm := by
  unfold State.aptError
  try dsimp only
  (repeat' split) <;> first | simp (disch := first | ((try intros); (try dsimp only); (repeat' split) <;> simp [*]; done) | fail) [*, foldl_pending, foldl_variant, foldl_nv, foldl_hbm] | exact ⟨rfl, rfl, rfl, rfl⟩
@[simp] theorem State.aptReadDone_keep (s : State) (id : Nat) : (State.aptReadDone s id).pending = s.pending ∧ (State.aptReadDone s id).variant = s.variant ∧ (State.aptReadDone s id).nv = s.nv ∧ (State.aptReadDone s id).hbm = s.hbm := by
  unfold State.aptReadDone
  try dsimp only
  (repeat' split) <;> first | simp (disch := first | ((try intros); (try dsimp only); (repeat' split) <;> simp [*]; done) | fail) [*, foldl_pending, foldl_variant, foldl_nv, foldl_hbm] | exact ⟨rfl, rfl, rfl, rfl⟩
@[simp] theorem State.aptPiece_keep (s : State) (id off : Nat) (bs : Option (List Byte)) : (State.aptPiece s id off bs).pending = s.pending ∧ (State.aptPiece s id off bs).variant = s.variant ∧ (State.aptPiece s id off bs).nv = s.nv ∧ (State.aptPiece s id off bs).hbm = s.hbm := by
  unfold State.aptPiece
  try dsimp only
  (repeat' split) <;> first | simp (disch := first | ((try intros); (try dsimp only); (repeat' split) <;> simp [*]; done) | fail) [*, foldl_pending, foldl_variant, foldl_nv, foldl_hbm] | exact ⟨rfl, rfl, rfl, rfl⟩
@[simp] theorem aptPump_keep (kept : List (Nat × Pkt)) (s : State) (y0 : List (Nat × Pkt)) : (aptPump kept s y0).pending = s.pending ∧ (aptPump kept s y0).variant = s.variant ∧ (aptPump kept s y0).nv = s.nv ∧ (aptPump kept s y0).hbm = s.hbm := by
  induction y0 generalizing s kept <;> rw [aptPump.eq_def] <;> (try dsimp only) <;> (repeat' split) <;> first | simp (disch := first | ((try intros); (try dsimp only); (repeat' split) <;> simp [*]; done) | fail) [*, foldl_pending, foldl_variant, foldl_nv, foldl_hbm] | exact ⟨rfl, rfl, rfl, rfl⟩
@[simp] theorem State.bridgeDone_keep (s : State) (src tag st : Nat) (data : List Byte) : (State.bridgeDone s src tag st data).pending = s.pending ∧ (State.bridgeDone s src tag st data).variant = s.variant ∧ (State.bridgeDone s src tag st data).nv = s.nv ∧ (State.bridgeDone s src tag st data).hbm = s.hbm := by
  unfold State.bridgeDone
  try dsimp only
  (repeat' split) <;> first | simp (disch := first | ((try intros); (try dsimp only); (repeat' split) <;> simp [*]; done) | fail) [*, foldl_pending, foldl_variant, foldl_nv, foldl_hbm] | exact ⟨rfl, rfl, rfl, rfl⟩
@[simp] theorem State.deliverCpl_keep (s : State) (p : Pkt) (st : Nat) (data : List Byte) : (State.deliverCpl s p st data).pending = s.pending ∧ (State.deliverCpl s p st data).variant = s.variant ∧ (State.deliverCpl s p st data).nv = s.nv ∧ (State.deliverCpl s p st data).hbm = s.hbm := by
  unfold State.deliverCpl
  try dsimp only
  (repeat' split) <;> first | simp (disch := first | ((try intros); (try dsimp only); (repeat' split) <;> simp [*]; done) | fail) [*, foldl_pending, foldl_variant, foldl_nv, foldl_hbm] | exact ⟨rfl, rfl, rfl, rfl⟩
@[simp] theorem State.windowCheck_keep (s : State) (c o n : Nat) (es : List Ecc) : (State.windowCheck s c o n es).2.pending = s.pending ∧ (State.windowCheck s c o n es).2.variant = s.variant ∧ (State.windowCheck s c o n es).2.nv = s.nv ∧ (State.windowCheck s c o n es).2.hbm = s.hbm := by
  unfold State.windowCheck
  try dsimp only
  (repeat' split) <;> first | simp (disch := first | ((try intros); (try dsimp only); (repeat' split) <;> simp [*]; done) | fail) [*, foldl_pending, foldl_variant, foldl_nv, foldl_hbm] | exact ⟨rfl, rfl, rfl, rfl⟩
@[simp] theorem State.corePerform_keep (s : State) (c : Nat) (p : Pkt) (es : List Ecc) : (State.corePerform s c p es).pending = s.pending ∧ (State.corePerform s c p es).variant = s.variant ∧ (State.corePerform s c p es).nv = s.nv ∧ (State.corePerform s c p es).hbm = s.hbm := by
  unfold State.corePerform
  try dsimp only
  (repeat' split) <;> first | simp (disch := first | ((try intros); (try dsimp only); (repeat' split) <;> simp [*]; done) | fail) [*, foldl_pending, foldl_variant, foldl_nv, foldl_hbm] | exact ⟨rfl, rfl, rfl, rfl⟩
@[simp] theorem State.corePoisoned_keep (s : State) (c : Nat) (p : Pkt) : (State.corePoisoned s c p).pending = s.pending ∧ (State.corePoisoned s c p).variant = s.variant ∧ (State.corePoisoned s c p).nv = s.nv ∧ (State.corePoisoned s c p).hbm = s.hbm := by
  unfold State.corePoisoned
  try dsimp only
  (repeat' split) <;> first | simp (disch := first | ((try intros); (try dsimp only); (repeat' split) <;> simp [*]; done) | fail) [*, foldl_pending, foldl_variant, foldl_nv, foldl_hbm] | exact ⟨rfl, rfl, rfl, rfl⟩
@[simp] theorem State.gatewayTake_keep (s : State) (c : Nat) (p : Pkt) : (State.gatewayTake s c p).pending = s.pending ∧ (State.gatewayTake s c p).variant = s.variant ∧ (State.gatewayTake s c p).nv = s.nv ∧ (State.gatewayTake s c p).hbm = s.hbm := by
  unfold State.gatewayTake
  try dsimp only
  (repeat' split) <;> first | simp (disch := first | ((try intros); (try dsimp only); (repeat' split) <;> simp [*]; done) | fail) [*, foldl_pending, foldl_variant, foldl_nv, foldl_hbm] | exact ⟨rfl, rfl, rfl, rfl⟩
@[simp] theorem State.gatewayBeat_keep (s : State) (g : Nat) (b : Beat) : (State.gatewayBeat s g b).pending = s.pending ∧ (State.gatewayBeat s g b).variant = s.variant ∧ (State.gatewayBeat s g b).nv = s.nv ∧ (State.gatewayBeat s g b).hbm = s.hbm := by
  unfold State.gatewayBeat
  try dsimp only
  (repeat' split) <;> first | simp (disch := first | ((try intros); (try dsimp only); (repeat' split) <;> simp [*]; done) | fail) [*, foldl_pending, foldl_variant, foldl_nv, foldl_hbm] | exact ⟨rfl, rfl, rfl, rfl⟩
@[simp] theorem State.cplTake_keep (s : State) (fromNet : Bool) (p : Pkt) : (State.cplTake s fromNet p).pending = s.pending ∧ (State.cplTake s fromNet p).variant = s.variant ∧ (State.cplTake s fromNet p).nv = s.nv ∧ (State.cplTake s fromNet p).hbm = s.hbm := by
  unfold State.cplTake
  try dsimp only
  (repeat' split) <;> first | simp (disch := first | ((try intros); (try dsimp only); (repeat' split) <;> simp [*]; done) | fail) [*, foldl_pending, foldl_variant, foldl_nv, foldl_hbm] | exact ⟨rfl, rfl, rfl, rfl⟩
@[simp] theorem State.takeCpl_keep (s : State) (p : Pkt) : (State.takeCpl s p).pending = s.pending ∧ (State.takeCpl s p).variant = s.variant ∧ (State.takeCpl s p).nv = s.nv ∧ (State.takeCpl s p).hbm = s.hbm := by
  unfold State.takeCpl
  try dsimp only
  (repeat' split) <;> first | simp (disch := first | ((try intros); (try dsimp only); (repeat' split) <;> simp [*]; done) | fail) [*, foldl_pending, foldl_variant, foldl_nv, foldl_hbm] | exact ⟨rfl, rfl, rfl, rfl⟩
@[simp] theorem readRows_keep (sram : List (Fin 24 × Ecc)) (c : Nat) (y0 : List Nat) (y1 : State) : (readRows sram c y0 y1).2.pending = y1.pending ∧ (readRows sram c y0 y1).2.variant = y1.variant ∧ (readRows sram c y0 y1).2.nv = y1.nv ∧ (readRows sram c y0 y1).2.hbm = y1.hbm := by
  induction y0 generalizing y1 sram c <;> rw [readRows.eq_def] <;> (try dsimp only) <;> (repeat' split) <;> first | simp (disch := first | ((try intros); (try dsimp only); (repeat' split) <;> simp [*]; done) | fail) [*, foldl_pending, foldl_variant, foldl_nv, foldl_hbm] | exact ⟨rfl, rfl, rfl, rfl⟩
@[simp] theorem beatErrors_keep (mesh : List (Fin 4 × Ecc)) (c : Nat) (y0 : List Nat) (y1 : State) : (beatErrors mesh c y0 y1).2.pending = y1.pending ∧ (beatErrors mesh c y0 y1).2.variant = y1.variant ∧ (beatErrors mesh c y0 y1).2.nv = y1.nv ∧ (beatErrors mesh c y0 y1).2.hbm = y1.hbm := by
  induction y0 generalizing y1 mesh c <;> rw [beatErrors.eq_def] <;> (try dsimp only) <;> (repeat' split) <;> first | simp (disch := first | ((try intros); (try dsimp only); (repeat' split) <;> simp [*]; done) | fail) [*, foldl_pending, foldl_variant, foldl_nv, foldl_hbm] | exact ⟨rfl, rfl, rfl, rfl⟩
@[simp] theorem sendBeats_keep (c step : Nat) (y0 : List (Nat × List Byte)) (y1 : State) : (sendBeats c step y0 y1).pending = y1.pending ∧ (sendBeats c step y0 y1).variant = y1.variant ∧ (sendBeats c step y0 y1).nv = y1.nv ∧ (sendBeats c step y0 y1).hbm = y1.hbm := by
  induction y0 generalizing y1 c step <;> rw [sendBeats.eq_def] <;> (try dsimp only) <;> (repeat' split) <;> first | simp (disch := first | ((try intros); (try dsimp only); (repeat' split) <;> simp [*]; done) | fail) [*, foldl_pending, foldl_variant, foldl_nv, foldl_hbm] | exact ⟨rfl, rfl, rfl, rfl⟩
@[simp] theorem postRemote_keep (c : Nat) (y0 : List Post) (y1 : State) : (postRemote c y0 y1).pending = y1.pending ∧ (postRemote c y0 y1).variant = y1.variant ∧ (postRemote c y0 y1).nv = y1.nv ∧ (postRemote c y0 y1).hbm = y1.hbm := by
  induction y0 generalizing y1 c <;> rw [postRemote.eq_def] <;> (try dsimp only) <;> (repeat' split) <;> first | simp (disch := first | ((try intros); (try dsimp only); (repeat' split) <;> simp [*]; done) | fail) [*, foldl_pending, foldl_variant, foldl_nv, foldl_hbm] | exact ⟨rfl, rfl, rfl, rfl⟩
@[simp] theorem postAll_keep (c : Nat) (ps : List Post) (s : State) : (postAll c ps s).pending = s.pending ∧ (postAll c ps s).variant = s.variant ∧ (postAll c ps s).nv = s.nv ∧ (postAll c ps s).hbm = s.hbm := by
  unfold postAll
  try dsimp only
  (repeat' split) <;> first | simp (disch := first | ((try intros); (try dsimp only); (repeat' split) <;> simp [*]; done) | fail) [*, foldl_pending, foldl_variant, foldl_nv, foldl_hbm] | exact ⟨rfl, rfl, rfl, rfl⟩
@[simp] theorem State.calWrite_keep (s : State) (sec off : Nat) (bs : List Byte) : (State.calWrite s sec off bs).pending = s.pending ∧ (State.calWrite s sec off bs).variant = s.variant ∧ (State.calWrite s sec off bs).nv = s.nv ∧ (State.calWrite s sec off bs).hbm = s.hbm := by
  unfold State.calWrite
  try dsimp only
  (repeat' split) <;> first | simp (disch := first | ((try intros); (try dsimp only); (repeat' split) <;> simp [*]; done) | fail) [*, foldl_pending, foldl_variant, foldl_nv, foldl_hbm] | exact ⟨rfl, rfl, rfl, rfl⟩
@[simp] theorem State.calPut_keep (s : State) (sec off : Nat) (bs : List Byte) : (State.calPut s sec off bs).pending = s.pending ∧ (State.calPut s sec off bs).variant = s.variant ∧ (State.calPut s sec off bs).nv = s.nv ∧ (State.calPut s sec off bs).hbm = s.hbm := by
  unfold State.calPut
  try dsimp only
  (repeat' split) <;> first | simp (disch := first | ((try intros); (try dsimp only); (repeat' split) <;> simp [*]; done) | fail) [*, foldl_pending, foldl_variant, foldl_nv, foldl_hbm] | exact ⟨rfl, rfl, rfl, rfl⟩
@[simp] theorem State.calRelease_keep (s : State) : (State.calRelease s).pending = s.pending ∧ (State.calRelease s).variant = s.variant ∧ (State.calRelease s).nv = s.nv ∧ (State.calRelease s).hbm = s.hbm := by
  unfold State.calRelease
  try dsimp only
  (repeat' split) <;> first | simp (disch := first | ((try intros); (try dsimp only); (repeat' split) <;> simp [*]; done) | fail) [*, foldl_pending, foldl_variant, foldl_nv, foldl_hbm] | exact ⟨rfl, rfl, rfl, rfl⟩
@[simp] theorem State.calApply_keep (s : State) (may : Nat → Nat → Bool) (trims : List (BitVec 32 × Byte)) : (State.calApply s may trims).pending = s.pending ∧ (State.calApply s may trims).variant = s.variant ∧ (State.calApply s may trims).nv = s.nv ∧ (State.calApply s may trims).hbm = s.hbm := by
  unfold State.calApply
  try dsimp only
  (repeat' split) <;> first | simp (disch := first | ((try intros); (try dsimp only); (repeat' split) <;> simp [*]; done) | fail) [*, foldl_pending, foldl_variant, foldl_nv, foldl_hbm] | exact ⟨rfl, rfl, rfl, rfl⟩
@[simp] theorem State.setLatency_keep (s : State) (l cycles : Nat) : (State.setLatency s l cycles).pending = s.pending ∧ (State.setLatency s l cycles).variant = s.variant ∧ (State.setLatency s l cycles).nv = s.nv ∧ (State.setLatency s l cycles).hbm = s.hbm := by
  unfold State.setLatency
  try dsimp only
  (repeat' split) <;> first | simp (disch := first | ((try intros); (try dsimp only); (repeat' split) <;> simp [*]; done) | fail) [*, foldl_pending, foldl_variant, foldl_nv, foldl_hbm] | exact ⟨rfl, rfl, rfl, rfl⟩
@[simp] theorem State.portTrained_keep (s : State) (p : Nat) : (State.portTrained s p).pending = s.pending ∧ (State.portTrained s p).variant = s.variant ∧ (State.portTrained s p).nv = s.nv ∧ (State.portTrained s p).hbm = s.hbm := by
  unfold State.portTrained
  try dsimp only
  (repeat' split) <;> first | simp (disch := first | ((try intros); (try dsimp only); (repeat' split) <;> simp [*]; done) | fail) [*, foldl_pending, foldl_variant, foldl_nv, foldl_hbm] | exact ⟨rfl, rfl, rfl, rfl⟩
@[simp] theorem State.calApplyLink_keep (s : State) (l : Nat) (trims : List (BitVec 32 × Byte)) : (State.calApplyLink s l trims).pending = s.pending ∧ (State.calApplyLink s l trims).variant = s.variant ∧ (State.calApplyLink s l trims).nv = s.nv ∧ (State.calApplyLink s l trims).hbm = s.hbm := by
  unfold State.calApplyLink
  try dsimp only
  (repeat' split) <;> first | simp (disch := first | ((try intros); (try dsimp only); (repeat' split) <;> simp [*]; done) | fail) [*, foldl_pending, foldl_variant, foldl_nv, foldl_hbm] | exact ⟨rfl, rfl, rfl, rfl⟩
@[simp] theorem State.consume_keep (s : State) (p : Pkt) : (State.consume s p).pending = s.pending ∧ (State.consume s p).variant = s.variant ∧ (State.consume s p).nv = s.nv ∧ (State.consume s p).hbm = s.hbm := by
  unfold State.consume
  try dsimp only
  (repeat' split) <;> first | simp (disch := first | ((try intros); (try dsimp only); (repeat' split) <;> simp [*]; done) | fail) [*, foldl_pending, foldl_variant, foldl_nv, foldl_hbm] | exact ⟨rfl, rfl, rfl, rfl⟩
@[simp] theorem State.endTc0_keep (s : State) (p : Pkt) : (State.endTc0 s p).pending = s.pending ∧ (State.endTc0 s p).variant = s.variant ∧ (State.endTc0 s p).nv = s.nv ∧ (State.endTc0 s p).hbm = s.hbm := by
  unfold State.endTc0
  try dsimp only
  (repeat' split) <;> first | simp (disch := first | ((try intros); (try dsimp only); (repeat' split) <;> simp [*]; done) | fail) [*, foldl_pending, foldl_variant, foldl_nv, foldl_hbm] | exact ⟨rfl, rfl, rfl, rfl⟩
@[simp] theorem State.closeMap_keep (s : State) : (State.closeMap s).pending = s.pending ∧ (State.closeMap s).variant = s.variant ∧ (State.closeMap s).nv = s.nv ∧ (State.closeMap s).hbm = s.hbm := by
  unfold State.closeMap
  exact ⟨foldl_pending _ _ _ fun t p => (State.setPort_keep t p _).1, foldl_variant _ _ _ fun t p => (State.setPort_keep t p _).2.1,
    foldl_nv _ _ _ fun t p => (State.setPort_keep t p _).2.2.1, foldl_hbm _ _ _ fun t p => (State.setPort_keep t p _).2.2.2⟩
@[simp] theorem sendMap_keep (y0 : Nat) (y1 : State) (y2 : Pkt) (y3 : Nat) (y4 : List Byte) : (sendMap y0 y1 y2 y3 y4).pending = y1.pending ∧ (sendMap y0 y1 y2 y3 y4).variant = y1.variant ∧ (sendMap y0 y1 y2 y3 y4).nv = y1.nv ∧ (sendMap y0 y1 y2 y3 y4).hbm = y1.hbm := by
  induction y0 generalizing y1 y2 y3 y4 <;> rw [sendMap.eq_def] <;> (try dsimp only) <;> (repeat' split) <;> first | simp (disch := first | ((try intros); (try dsimp only); (repeat' split) <;> simp [*]; done) | fail) [*, foldl_pending, foldl_variant, foldl_nv, foldl_hbm] | exact ⟨rfl, rfl, rfl, rfl⟩
@[simp] theorem State.retireGranule_keep (s : State) (g : Nat) : (State.retireGranule s g).pending = s.pending ∧ (State.retireGranule s g).variant = s.variant ∧ (State.retireGranule s g).nv = s.nv ∧ (State.retireGranule s g).hbm = s.hbm := by
  unfold State.retireGranule
  try dsimp only
  (repeat' split) <;> first | simp (disch := first | ((try intros); (try dsimp only); (repeat' split) <;> simp [*]; done) | fail) [*, foldl_pending, foldl_variant, foldl_nv, foldl_hbm] | exact ⟨rfl, rfl, rfl, rfl⟩
@[simp] theorem State.setChannel_keep (s : State) (d c : Nat) (x : HbmChan) : (State.setChannel s d c x).pending = s.pending ∧ (State.setChannel s d c x).variant = s.variant ∧ (State.setChannel s d c x).nv = s.nv ∧ (State.setChannel s d c x).hbm = s.hbm := by
  unfold State.setChannel
  try dsimp only
  (repeat' split) <;> first | simp (disch := first | ((try intros); (try dsimp only); (repeat' split) <;> simp [*]; done) | fail) [*, foldl_pending, foldl_variant, foldl_nv, foldl_hbm] | exact ⟨rfl, rfl, rfl, rfl⟩
@[simp] theorem State.berthWrite_keep (s : State) (b who off : Nat) (bs : List Byte) : (State.berthWrite s b who off bs).pending = s.pending ∧ (State.berthWrite s b who off bs).variant = s.variant ∧ (State.berthWrite s b who off bs).nv = s.nv ∧ (State.berthWrite s b who off bs).hbm = s.hbm := by
  unfold State.berthWrite
  try dsimp only
  (repeat' split) <;> first | simp (disch := first | ((try intros); (try dsimp only); (repeat' split) <;> simp [*]; done) | fail) [*, foldl_pending, foldl_variant, foldl_nv, foldl_hbm] | exact ⟨rfl, rfl, rfl, rfl⟩
@[simp] theorem State.berthRead_keep (s : State) (b who off n : Nat) : (State.berthRead s b who off n).2.pending = s.pending ∧ (State.berthRead s b who off n).2.variant = s.variant ∧ (State.berthRead s b who off n).2.nv = s.nv ∧ (State.berthRead s b who off n).2.hbm = s.hbm := by
  unfold State.berthRead
  try dsimp only
  (repeat' split) <;> first | simp (disch := first | ((try intros); (try dsimp only); (repeat' split) <;> simp [*]; done) | fail) [*, foldl_pending, foldl_variant, foldl_nv, foldl_hbm] | exact ⟨rfl, rfl, rfl, rfl⟩
@[simp] theorem State.berthRingWrite_keep (s : State) (b who sel val : Nat) : (State.berthRingWrite s b who sel val).pending = s.pending ∧ (State.berthRingWrite s b who sel val).variant = s.variant ∧ (State.berthRingWrite s b who sel val).nv = s.nv ∧ (State.berthRingWrite s b who sel val).hbm = s.hbm := by
  unfold State.berthRingWrite
  try dsimp only
  (repeat' split) <;> first | simp (disch := first | ((try intros); (try dsimp only); (repeat' split) <;> simp [*]; done) | fail) [*, foldl_pending, foldl_variant, foldl_nv, foldl_hbm] | exact ⟨rfl, rfl, rfl, rfl⟩
@[simp] theorem State.berthPut_keep (s : State) (c t off : Nat) (bs : List Byte) : (State.berthPut s c t off bs).pending = s.pending ∧ (State.berthPut s c t off bs).variant = s.variant ∧ (State.berthPut s c t off bs).nv = s.nv ∧ (State.berthPut s c t off bs).hbm = s.hbm := by
  unfold State.berthPut
  try dsimp only
  (repeat' split) <;> first | simp (disch := first | ((try intros); (try dsimp only); (repeat' split) <;> simp [*]; done) | fail) [*, foldl_pending, foldl_variant, foldl_nv, foldl_hbm] | exact ⟨rfl, rfl, rfl, rfl⟩
@[simp] theorem State.berthOut_keep (s : State) (c t bits : Nat) : (State.berthOut s c t bits).pending = s.pending ∧ (State.berthOut s c t bits).variant = s.variant ∧ (State.berthOut s c t bits).nv = s.nv ∧ (State.berthOut s c t bits).hbm = s.hbm := by
  unfold State.berthOut
  try dsimp only
  (repeat' split) <;> first | simp (disch := first | ((try intros); (try dsimp only); (repeat' split) <;> simp [*]; done) | fail) [*, foldl_pending, foldl_variant, foldl_nv, foldl_hbm] | exact ⟨rfl, rfl, rfl, rfl⟩
@[simp] theorem State.berthTakeIn_keep (s : State) (c t mask : Nat) : (State.berthTakeIn s c t mask).2.pending = s.pending ∧ (State.berthTakeIn s c t mask).2.variant = s.variant ∧ (State.berthTakeIn s c t mask).2.nv = s.nv ∧ (State.berthTakeIn s c t mask).2.hbm = s.hbm := by
  unfold State.berthTakeIn
  try dsimp only
  (repeat' split) <;> first | simp (disch := first | ((try intros); (try dsimp only); (repeat' split) <;> simp [*]; done) | fail) [*, foldl_pending, foldl_variant, foldl_nv, foldl_hbm] | exact ⟨rfl, rfl, rfl, rfl⟩
@[simp] theorem State.releaseClaims_keep (s : State) (p : Nat → Bool) : (State.releaseClaims s p).pending = s.pending ∧ (State.releaseClaims s p).variant = s.variant ∧ (State.releaseClaims s p).nv = s.nv ∧ (State.releaseClaims s p).hbm = s.hbm := by
  unfold State.releaseClaims
  try dsimp only
  (repeat' split) <;> first | simp (disch := first | ((try intros); (try dsimp only); (repeat' split) <;> simp [*]; done) | fail) [*, foldl_pending, foldl_variant, foldl_nv, foldl_hbm] | exact ⟨rfl, rfl, rfl, rfl⟩
@[simp] theorem State.localWrite_keep (s : State) (l : Nat) (bs : List Byte)  : (State.localWrite s l bs).pending = s.pending ∧ (State.localWrite s l bs).variant = s.variant ∧ (State.localWrite s l bs).nv = s.nv := by
  unfold State.localWrite
  try dsimp only
  (repeat' split) <;> first | simp (disch := first | ((try intros); (try dsimp only); (repeat' split) <;> simp [*]; done) | fail) [*, foldl_pending, foldl_variant, foldl_nv, foldl_hbm] | exact ⟨rfl, rfl, rfl⟩
@[simp] theorem State.putAt_keep (s : State) (akind who barn a : Nat) (bs : List Byte)  : (State.putAt s akind who barn a bs).pending = s.pending ∧ (State.putAt s akind who barn a bs).variant = s.variant ∧ (State.putAt s akind who barn a bs).nv = s.nv := by
  unfold State.putAt
  try dsimp only
  (repeat' split) <;> first | simp (disch := first | ((try intros); (try dsimp only); (repeat' split) <;> simp [*]; done) | fail) [*, foldl_pending, foldl_variant, foldl_nv, foldl_hbm] | exact ⟨rfl, rfl, rfl⟩
@[simp] theorem State.setOp_keep (s : State) (o : Op) : (State.setOp s o).pending = s.pending ∧ (State.setOp s o).variant = s.variant ∧ (State.setOp s o).nv = s.nv ∧ (State.setOp s o).hbm = s.hbm := by
  unfold State.setOp
  try dsimp only
  (repeat' split) <;> first | simp (disch := first | ((try intros); (try dsimp only); (repeat' split) <;> simp [*]; done) | fail) [*, foldl_pending, foldl_variant, foldl_nv, foldl_hbm] | exact ⟨rfl, rfl, rfl, rfl⟩
@[simp] theorem State.opWrite_keep (s : State) (o : Op)  : (State.opWrite s o).pending = s.pending ∧ (State.opWrite s o).variant = s.variant ∧ (State.opWrite s o).nv = s.nv := by
  unfold State.opWrite
  try dsimp only
  (repeat' split) <;> first | simp (disch := first | ((try intros); (try dsimp only); (repeat' split) <;> simp [*]; done) | fail) [*, foldl_pending, foldl_variant, foldl_nv, foldl_hbm] | exact ⟨rfl, rfl, rfl⟩
@[simp] theorem State.opChange_keep (s : State) (n : Nat) (f : Op → Op)  : (State.opChange s n f).pending = s.pending ∧ (State.opChange s n f).variant = s.variant ∧ (State.opChange s n f).nv = s.nv := by
  unfold State.opChange
  try dsimp only
  (repeat' split) <;> first | simp (disch := first | ((try intros); (try dsimp only); (repeat' split) <;> simp [*]; done) | fail) [*, foldl_pending, foldl_variant, foldl_nv, foldl_hbm] | exact ⟨rfl, rfl, rfl⟩
@[simp] theorem State.opState_keep (s : State) (n st result : Nat)  : (State.opState s n st result).pending = s.pending ∧ (State.opState s n st result).variant = s.variant ∧ (State.opState s n st result).nv = s.nv := by
  unfold State.opState
  try dsimp only
  (repeat' split) <;> first | simp (disch := first | ((try intros); (try dsimp only); (repeat' split) <;> simp [*]; done) | fail) [*, foldl_pending, foldl_variant, foldl_nv, foldl_hbm] | exact ⟨rfl, rfl, rfl⟩
@[simp] theorem State.opFin_keep (s : State) (n st result : Nat) : (State.opFin s n st result).pending = s.pending ∧ (State.opFin s n st result).variant = s.variant ∧ (State.opFin s n st result).nv = s.nv ∧ (State.opFin s n st result).hbm = s.hbm := by
  unfold State.opFin
  try dsimp only
  (repeat' split) <;> first | simp (disch := first | ((try intros); (try dsimp only); (repeat' split) <;> simp [*]; done) | fail) [*, foldl_pending, foldl_variant, foldl_nv, foldl_hbm] | exact ⟨rfl, rfl, rfl, rfl⟩
@[simp] theorem opFinAll_keep (s : State) (st result : Nat) (y0 : List Nat) : (opFinAll s st result y0).pending = s.pending ∧ (opFinAll s st result y0).variant = s.variant ∧ (opFinAll s st result y0).nv = s.nv ∧ (opFinAll s st result y0).hbm = s.hbm := by
  induction y0 generalizing s st result <;> rw [opFinAll.eq_def] <;> (try dsimp only) <;> (repeat' split) <;> first | simp (disch := first | ((try intros); (try dsimp only); (repeat' split) <;> simp [*]; done) | fail) [*, foldl_pending, foldl_variant, foldl_nv, foldl_hbm] | exact ⟨rfl, rfl, rfl, rfl⟩
@[simp] theorem State.opBuffer_keep (s : State) (n : Nat) (bs : List Byte)  : (State.opBuffer s n bs).pending = s.pending ∧ (State.opBuffer s n bs).variant = s.variant ∧ (State.opBuffer s n bs).nv = s.nv := by
  unfold State.opBuffer
  try dsimp only
  (repeat' split) <;> first | simp (disch := first | ((try intros); (try dsimp only); (repeat' split) <;> simp [*]; done) | fail) [*, foldl_pending, foldl_variant, foldl_nv, foldl_hbm] | exact ⟨rfl, rfl, rfl⟩
@[simp] theorem State.opReleased_keep (s : State) (o : Op) (st : Nat) : (State.opReleased s o st).pending = s.pending ∧ (State.opReleased s o st).variant = s.variant ∧ (State.opReleased s o st).nv = s.nv ∧ (State.opReleased s o st).hbm = s.hbm := by
  unfold State.opReleased
  try dsimp only
  (repeat' split) <;> first | simp (disch := first | ((try intros); (try dsimp only); (repeat' split) <;> simp [*]; done) | fail) [*, foldl_pending, foldl_variant, foldl_nv, foldl_hbm] | exact ⟨rfl, rfl, rfl, rfl⟩
@[simp] theorem State.onPort_keep (s : State) (p : Nat) (f : EdgePort → EdgePort) : (State.onPort s p f).pending = s.pending ∧ (State.onPort s p f).variant = s.variant ∧ (State.onPort s p f).nv = s.nv ∧ (State.onPort s p f).hbm = s.hbm := by
  unfold State.onPort
  try dsimp only
  (repeat' split) <;> first | simp (disch := first | ((try intros); (try dsimp only); (repeat' split) <;> simp [*]; done) | fail) [*, foldl_pending, foldl_variant, foldl_nv, foldl_hbm] | exact ⟨rfl, rfl, rfl, rfl⟩
@[simp] theorem State.onCong_keep (s : State) (p : Nat) (f : CongRec → CongRec) : (State.onCong s p f).pending = s.pending ∧ (State.onCong s p f).variant = s.variant ∧ (State.onCong s p f).nv = s.nv ∧ (State.onCong s p f).hbm = s.hbm := by
  unfold State.onCong
  try dsimp only
  (repeat' split) <;> first | simp (disch := first | ((try intros); (try dsimp only); (repeat' split) <;> simp [*]; done) | fail) [*, foldl_pending, foldl_variant, foldl_nv, foldl_hbm] | exact ⟨rfl, rfl, rfl, rfl⟩
@[simp] theorem State.portOut_keep (s : State) (p kind : Nat) : (State.portOut s p kind).pending = s.pending ∧ (State.portOut s p kind).variant = s.variant ∧ (State.portOut s p kind).nv = s.nv ∧ (State.portOut s p kind).hbm = s.hbm := by
  unfold State.portOut
  try dsimp only
  (repeat' split) <;> first | simp (disch := first | ((try intros); (try dsimp only); (repeat' split) <;> simp [*]; done) | fail) [*, foldl_pending, foldl_variant, foldl_nv, foldl_hbm] | exact ⟨rfl, rfl, rfl, rfl⟩
@[simp] theorem State.train_keep (s : State) (l tkind mask : Nat) (ack : Bool) : (State.train s l tkind mask ack).pending = s.pending ∧ (State.train s l tkind mask ack).variant = s.variant ∧ (State.train s l tkind mask ack).nv = s.nv ∧ (State.train s l tkind mask ack).hbm = s.hbm := by
  unfold State.train
  try dsimp only
  (repeat' split) <;> first | simp (disch := first | ((try intros); (try dsimp only); (repeat' split) <;> simp [*]; done) | fail) [*, foldl_pending, foldl_variant, foldl_nv, foldl_hbm] | exact ⟨rfl, rfl, rfl, rfl⟩
@[simp] theorem State.sendFrame_keep (s : State) (p kind seq start : Nat) (payload : List Byte) : (State.sendFrame s p kind seq start payload).pending = s.pending ∧ (State.sendFrame s p kind seq start payload).variant = s.variant ∧ (State.sendFrame s p kind seq start payload).nv = s.nv ∧ (State.sendFrame s p kind seq start payload).hbm = s.hbm := by
  unfold State.sendFrame
  try dsimp only
  (repeat' split) <;> first | simp (disch := first | ((try intros); (try dsimp only); (repeat' split) <;> simp [*]; done) | fail) [*, foldl_pending, foldl_variant, foldl_nv, foldl_hbm] | exact ⟨rfl, rfl, rfl, rfl⟩
@[simp] theorem State.keepFrame_keep (s : State) (p kind start : Nat) (payload : List Byte) (pkts : List QPkt) : (State.keepFrame s p kind start payload pkts).pending = s.pending ∧ (State.keepFrame s p kind start payload pkts).variant = s.variant ∧ (State.keepFrame s p kind start payload pkts).nv = s.nv ∧ (State.keepFrame s p kind start payload pkts).hbm = s.hbm := by
  unfold State.keepFrame
  try dsimp only
  (repeat' split) <;> first | simp (disch := first | ((try intros); (try dsimp only); (repeat' split) <;> simp [*]; done) | fail) [*, foldl_pending, foldl_variant, foldl_nv, foldl_hbm] | exact ⟨rfl, rfl, rfl, rfl⟩
@[simp] theorem keepAll_keep (s : State) (p start : Nat) (q : QPkt) (y0 : List (List Byte)) : (keepAll s p start q y0).pending = s.pending ∧ (keepAll s p start q y0).variant = s.variant ∧ (keepAll s p start q y0).nv = s.nv ∧ (keepAll s p start q y0).hbm = s.hbm := by
  induction y0 generalizing s start with
  | nil => exact ⟨rfl, rfl, rfl, rfl⟩
  | cons b l ih =>
    cases l with
    | nil => simp [keepAll]
    | cons c l => rw [keepAll]; · simp [ih]
                  · simp
@[simp] theorem State.sendPkt_keep (s : State) (p : Nat) (q : QPkt) : (State.sendPkt s p q).pending = s.pending ∧ (State.sendPkt s p q).variant = s.variant ∧ (State.sendPkt s p q).nv = s.nv ∧ (State.sendPkt s p q).hbm = s.hbm := by
  unfold State.sendPkt
  try dsimp only
  (repeat' split) <;> first | simp (disch := first | ((try intros); (try dsimp only); (repeat' split) <;> simp [*]; done) | fail) [*, foldl_pending, foldl_variant, foldl_nv, foldl_hbm] | exact ⟨rfl, rfl, rfl, rfl⟩
@[simp] theorem sendIdles_keep (s : State) (p : Nat) (y0 : Nat) : (sendIdles s p y0).pending = s.pending ∧ (sendIdles s p y0).variant = s.variant ∧ (sendIdles s p y0).nv = s.nv ∧ (sendIdles s p y0).hbm = s.hbm := by
  induction y0 generalizing s p <;> rw [sendIdles.eq_def] <;> (try dsimp only) <;> (repeat' split) <;> first | simp (disch := first | ((try intros); (try dsimp only); (repeat' split) <;> simp [*]; done) | fail) [*, foldl_pending, foldl_variant, foldl_nv, foldl_hbm] | exact ⟨rfl, rfl, rfl, rfl⟩
@[simp] theorem State.closeSuper_keep (s : State) (p : Nat) : (State.closeSuper s p).pending = s.pending ∧ (State.closeSuper s p).variant = s.variant ∧ (State.closeSuper s p).nv = s.nv ∧ (State.closeSuper s p).hbm = s.hbm := by
  unfold State.closeSuper
  try dsimp only
  (repeat' split) <;> first | simp (disch := first | ((try intros); (try dsimp only); (repeat' split) <;> simp [*]; done) | fail) [*, foldl_pending, foldl_variant, foldl_nv, foldl_hbm] | exact ⟨rfl, rfl, rfl, rfl⟩
@[simp] theorem State.resendAll_keep (s : State) (p : Nat) : (State.resendAll s p).pending = s.pending ∧ (State.resendAll s p).variant = s.variant ∧ (State.resendAll s p).nv = s.nv ∧ (State.resendAll s p).hbm = s.hbm := by
  unfold State.resendAll
  try dsimp only
  (repeat' split) <;> first | simp (disch := first | ((try intros); (try dsimp only); (repeat' split) <;> simp [*]; done) | fail) [*, foldl_pending, foldl_variant, foldl_nv, foldl_hbm] | exact ⟨rfl, rfl, rfl, rfl⟩
@[simp] theorem State.endPkt_keep (s : State) (p : Pkt) (cause : Nat) : (State.endPkt s p cause).pending = s.pending ∧ (State.endPkt s p cause).variant = s.variant ∧ (State.endPkt s p cause).nv = s.nv ∧ (State.endPkt s p cause).hbm = s.hbm := by
  unfold State.endPkt
  try dsimp only
  (repeat' split) <;> first | simp (disch := first | ((try intros); (try dsimp only); (repeat' split) <;> simp [*]; done) | fail) [*, foldl_pending, foldl_variant, foldl_nv, foldl_hbm] | exact ⟨rfl, rfl, rfl, rfl⟩
@[simp] theorem State.advise_keep (s : State) (p : Pkt) : (State.advise s p).pending = s.pending ∧ (State.advise s p).variant = s.variant ∧ (State.advise s p).nv = s.nv ∧ (State.advise s p).hbm = s.hbm := by
  unfold State.advise
  try dsimp only
  (repeat' split) <;> first | simp (disch := first | ((try intros); (try dsimp only); (repeat' split) <;> simp [*]; done) | fail) [*, foldl_pending, foldl_variant, foldl_nv, foldl_hbm] | exact ⟨rfl, rfl, rfl, rfl⟩
theorem State.reCourse_keep {s : State} {q : QPkt} {die at_ : Nat} {advice : Bool} {t : State} (h : (State.reCourse s q die at_ advice) = some t) : t.pending = s.pending ∧ t.variant = s.variant ∧ t.nv = s.nv ∧ t.hbm = s.hbm := by
  unfold State.reCourse at h
  try dsimp only at h
  (repeat' split at h) <;> first | (cases h; simp (disch := first | ((try intros); (try dsimp only); (repeat' split) <;> simp [*]; done) | fail) [*, foldl_pending, foldl_variant, foldl_nv, foldl_hbm]; done) | (simp at h; done) | (simp at h; subst h; simp (disch := first | ((try intros); (try dsimp only); (repeat' split) <;> simp [*]; done) | fail) [*, foldl_pending, foldl_variant, foldl_nv, foldl_hbm])
@[simp] theorem State.reCourse_getD_pending (s : State) (q : QPkt) (die at_ : Nat) (advice : Bool) (e : State) (he : e.pending = s.pending) : ((State.reCourse s q die at_ advice).getD e).pending = s.pending := by
  cases h : (State.reCourse s q die at_ advice) with
  | none => exact he
  | some t => exact (State.reCourse_keep h).1
@[simp] theorem State.reCourse_getD_variant (s : State) (q : QPkt) (die at_ : Nat) (advice : Bool) (e : State) (he : e.variant = s.variant) : ((State.reCourse s q die at_ advice).getD e).variant = s.variant := by
  cases h : (State.reCourse s q die at_ advice) with
  | none => exact he
  | some t => exact (State.reCourse_keep h).2.1
@[simp] theorem State.reCourse_getD_nv (s : State) (q : QPkt) (die at_ : Nat) (advice : Bool) (e : State) (he : e.nv = s.nv) : ((State.reCourse s q die at_ advice).getD e).nv = s.nv := by
  cases h : (State.reCourse s q die at_ advice) with
  | none => exact he
  | some t => exact (State.reCourse_keep h).2.2.1
@[simp] theorem State.reCourse_getD_hbm (s : State) (q : QPkt) (die at_ : Nat) (advice : Bool) (e : State) (he : e.hbm = s.hbm) : ((State.reCourse s q die at_ advice).getD e).hbm = s.hbm := by
  cases h : (State.reCourse s q die at_ advice) with
  | none => exact he
  | some t => exact (State.reCourse_keep h).2.2.2
@[simp] theorem State.freeArrival_keep (s : State) (q : QPkt) : (State.freeArrival s q).pending = s.pending ∧ (State.freeArrival s q).variant = s.variant ∧ (State.freeArrival s q).nv = s.nv ∧ (State.freeArrival s q).hbm = s.hbm := by
  unfold State.freeArrival
  try dsimp only
  (repeat' split) <;> first | simp (disch := first | ((try intros); (try dsimp only); (repeat' split) <;> simp [*]; done) | fail) [*, foldl_pending, foldl_variant, foldl_nv, foldl_hbm] | exact ⟨rfl, rfl, rfl, rfl⟩
@[simp] theorem reCourseAll_keep (s : State) (die at_ : Nat) (y0 : List QPkt) : (reCourseAll s die at_ y0).2.pending = s.pending ∧ (reCourseAll s die at_ y0).2.variant = s.variant ∧ (reCourseAll s die at_ y0).2.nv = s.nv ∧ (reCourseAll s die at_ y0).2.hbm = s.hbm := by
  induction y0 generalizing s with
  | nil => exact ⟨rfl, rfl, rfl, rfl⟩
  | cons q l ih =>
    unfold reCourseAll
    split
    · next h => have g := State.reCourse_keep h; simp [ih, g]
    · simp [ih]
@[simp] theorem reCourseQuiet_keep (s : State) (at_ : Nat) (y0 : List QPkt) : (reCourseQuiet s at_ y0).pending = s.pending ∧ (reCourseQuiet s at_ y0).variant = s.variant ∧ (reCourseQuiet s at_ y0).nv = s.nv ∧ (reCourseQuiet s at_ y0).hbm = s.hbm := by
  induction y0 generalizing s with
  | nil => exact ⟨rfl, rfl, rfl, rfl⟩
  | cons q l ih =>
    unfold reCourseQuiet
    split
    · next h => have g := State.reCourse_keep h; simp [ih, g]
    · simp [ih]
@[simp] theorem State.drainQuiet_keep (s : State) (p : Nat) : (State.drainQuiet s p).pending = s.pending ∧ (State.drainQuiet s p).variant = s.variant ∧ (State.drainQuiet s p).nv = s.nv ∧ (State.drainQuiet s p).hbm = s.hbm := by
  unfold State.drainQuiet
  try dsimp only
  (repeat' split) <;> first | simp (disch := first | ((try intros); (try dsimp only); (repeat' split) <;> simp [*]; done) | fail) [*, foldl_pending, foldl_variant, foldl_nv, foldl_hbm] | exact ⟨rfl, rfl, rfl, rfl⟩
@[simp] theorem State.forward_keep (s : State) (a : Nat) (q : QPkt) : (State.forward s a q).pending = s.pending ∧ (State.forward s a q).variant = s.variant ∧ (State.forward s a q).nv = s.nv ∧ (State.forward s a q).hbm = s.hbm := by
  unfold State.forward
  try dsimp only
  (repeat' split) <;> first | simp (disch := first | ((try intros); (try dsimp only); (repeat' split) <;> simp [*]; done) | fail) [*, foldl_pending, foldl_variant, foldl_nv, foldl_hbm] | exact ⟨rfl, rfl, rfl, rfl⟩
@[simp] theorem State.control_keep (s : State) (p kind : Nat) (payload : List Byte) : (State.control s p kind payload).pending = s.pending ∧ (State.control s p kind payload).variant = s.variant ∧ (State.control s p kind payload).nv = s.nv ∧ (State.control s p kind payload).hbm = s.hbm := by
  unfold State.control
  try dsimp only
  (repeat' split) <;> first | simp (disch := first | ((try intros); (try dsimp only); (repeat' split) <;> simp [*]; done) | fail) [*, foldl_pending, foldl_variant, foldl_nv, foldl_hbm] | exact ⟨rfl, rfl, rfl, rfl⟩
@[simp] theorem State.sendControl_keep (s : State) (p kind mtype : Nat) : (State.sendControl s p kind mtype).pending = s.pending ∧ (State.sendControl s p kind mtype).variant = s.variant ∧ (State.sendControl s p kind mtype).nv = s.nv ∧ (State.sendControl s p kind mtype).hbm = s.hbm := by
  unfold State.sendControl
  try dsimp only
  (repeat' split) <;> first | simp (disch := first | ((try intros); (try dsimp only); (repeat' split) <;> simp [*]; done) | fail) [*, foldl_pending, foldl_variant, foldl_nv, foldl_hbm] | exact ⟨rfl, rfl, rfl, rfl⟩
@[simp] theorem flushControl_keep (y0 : Nat) (y1 : State) (y2 : Nat) : (flushControl y0 y1 y2).pending = y1.pending ∧ (flushControl y0 y1 y2).variant = y1.variant ∧ (flushControl y0 y1 y2).nv = y1.nv ∧ (flushControl y0 y1 y2).hbm = y1.hbm := by
  induction y0 generalizing y1 y2 <;> rw [flushControl.eq_def] <;> (try dsimp only) <;> (repeat' split) <;> first | simp (disch := first | ((try intros); (try dsimp only); (repeat' split) <;> simp [*]; done) | fail) [*, foldl_pending, foldl_variant, foldl_nv, foldl_hbm] | exact ⟨rfl, rfl, rfl, rfl⟩
@[simp] theorem State.enter_keep (s : State) (p : Nat) (st : PortState) : (State.enter s p st).pending = s.pending ∧ (State.enter s p st).variant = s.variant ∧ (State.enter s p st).nv = s.nv ∧ (State.enter s p st).hbm = s.hbm := by
  unfold State.enter
  try dsimp only
  (repeat' split) <;> first | simp (disch := first | ((try intros); (try dsimp only); (repeat' split) <;> simp [*]; done) | fail) [*, foldl_pending, foldl_variant, foldl_nv, foldl_hbm] | exact ⟨rfl, rfl, rfl, rfl⟩
@[simp] theorem State.salvageEnd_keep (s : State) (p ended : Nat) : (State.salvageEnd s p ended).pending = s.pending ∧ (State.salvageEnd s p ended).variant = s.variant ∧ (State.salvageEnd s p ended).nv = s.nv ∧ (State.salvageEnd s p ended).hbm = s.hbm := by
  unfold State.salvageEnd
  try dsimp only
  (repeat' split) <;> first | simp (disch := first | ((try intros); (try dsimp only); (repeat' split) <;> simp [*]; done) | fail) [*, foldl_pending, foldl_variant, foldl_nv, foldl_hbm] | exact ⟨rfl, rfl, rfl, rfl⟩
@[simp] theorem State.salvageTake_keep (s : State) (p last : Nat) : (State.salvageTake s p last).pending = s.pending ∧ (State.salvageTake s p last).variant = s.variant ∧ (State.salvageTake s p last).nv = s.nv ∧ (State.salvageTake s p last).hbm = s.hbm := by
  unfold State.salvageTake
  try dsimp only
  (repeat' split) <;> first | simp (disch := first | ((try intros); (try dsimp only); (repeat' split) <;> simp [*]; done) | fail) [*, foldl_pending, foldl_variant, foldl_nv, foldl_hbm] | exact ⟨rfl, rfl, rfl, rfl⟩
@[simp] theorem State.dispatchAround_keep (s : State) (p : Pkt) (bad : Nat) : (State.dispatchAround s p bad).pending = s.pending ∧ (State.dispatchAround s p bad).variant = s.variant ∧ (State.dispatchAround s p bad).nv = s.nv ∧ (State.dispatchAround s p bad).hbm = s.hbm := by
  unfold State.dispatchAround
  try dsimp only
  (repeat' split) <;> first | simp (disch := first | ((try intros); (try dsimp only); (repeat' split) <;> simp [*]; done) | fail) [*, foldl_pending, foldl_variant, foldl_nv, foldl_hbm] | exact ⟨rfl, rfl, rfl, rfl⟩
@[simp] theorem State.portLost_keep (s : State) (p : Nat) : (State.portLost s p).pending = s.pending ∧ (State.portLost s p).variant = s.variant ∧ (State.portLost s p).nv = s.nv ∧ (State.portLost s p).hbm = s.hbm := by
  unfold State.portLost
  try dsimp only
  (repeat' split) <;> first | simp (disch := first | ((try intros); (try dsimp only); (repeat' split) <;> simp [*]; done) | fail) [*, foldl_pending, foldl_variant, foldl_nv, foldl_hbm] | exact ⟨rfl, rfl, rfl, rfl⟩
@[simp] theorem State.stampTime_keep (s : State) (p : Pkt) : (State.stampTime s p).2.pending = s.pending ∧ (State.stampTime s p).2.variant = s.variant ∧ (State.stampTime s p).2.nv = s.nv ∧ (State.stampTime s p).2.hbm = s.hbm := by
  unfold State.stampTime
  try dsimp only
  (repeat' split) <;> first | simp (disch := first | ((try intros); (try dsimp only); (repeat' split) <;> simp [*]; done) | fail) [*, foldl_pending, foldl_variant, foldl_nv, foldl_hbm] | exact ⟨rfl, rfl, rfl, rfl⟩
@[simp] theorem State.reCourseHead_keep (s : State) (p : Nat) : (State.reCourseHead s p).pending = s.pending ∧ (State.reCourseHead s p).variant = s.variant ∧ (State.reCourseHead s p).nv = s.nv ∧ (State.reCourseHead s p).hbm = s.hbm := by
  unfold State.reCourseHead
  dsimp only
  split
  · exact ⟨rfl, rfl, rfl, rfl⟩
  · split
    · exact ⟨(State.reCourse_getD_pending _ _ _ _ _ _ (State.setPort_keep s p _).1.symm).trans (State.setPort_keep s p _).1, (State.reCourse_getD_variant _ _ _ _ _ _ (State.setPort_keep s p _).2.1.symm).trans (State.setPort_keep s p _).2.1,
        (State.reCourse_getD_nv _ _ _ _ _ _ (State.setPort_keep s p _).2.2.1.symm).trans (State.setPort_keep s p _).2.2.1, (State.reCourse_getD_hbm _ _ _ _ _ _ (State.setPort_keep s p _).2.2.2.symm).trans (State.setPort_keep s p _).2.2.2⟩
    · simp
@[simp] theorem State.courseInvalid_keep (s : State) (p : Nat) (q : QPkt) : (State.courseInvalid s p q).pending = s.pending ∧ (State.courseInvalid s p q).variant = s.variant ∧ (State.courseInvalid s p q).nv = s.nv ∧ (State.courseInvalid s p q).hbm = s.hbm := by
  unfold State.courseInvalid
  try dsimp only
  (repeat' split) <;> first | simp (disch := first | ((try intros); (try dsimp only); (repeat' split) <;> simp [*]; done) | fail) [*, foldl_pending, foldl_variant, foldl_nv, foldl_hbm] | exact ⟨rfl, rfl, rfl, rfl⟩
@[simp] theorem State.landed_keep (s : State) (d : Nat) (p : Pkt) : (State.landed s d p).pending = s.pending ∧ (State.landed s d p).variant = s.variant ∧ (State.landed s d p).nv = s.nv ∧ (State.landed s d p).hbm = s.hbm := by
  unfold State.landed
  try dsimp only
  (repeat' split) <;> first | simp (disch := first | ((try intros); (try dsimp only); (repeat' split) <;> simp [*]; done) | fail) [*, foldl_pending, foldl_variant, foldl_nv, foldl_hbm] | exact ⟨rfl, rfl, rfl, rfl⟩
@[simp] theorem State.portDeliver_keep (s : State) (port : Nat) (p0 : Pkt) : (State.portDeliver s port p0).pending = s.pending ∧ (State.portDeliver s port p0).variant = s.variant ∧ (State.portDeliver s port p0).nv = s.nv ∧ (State.portDeliver s port p0).hbm = s.hbm := by
  unfold State.portDeliver
  try dsimp only
  (repeat' split) <;> first | simp (disch := first | ((try intros); (try dsimp only); (repeat' split) <;> simp [*]; done) | fail) [*, foldl_pending, foldl_variant, foldl_nv, foldl_hbm] | exact ⟨rfl, rfl, rfl, rfl⟩
@[simp] theorem portDeliverAll_keep (s : State) (port : Nat) (y0 : List Pkt) : (portDeliverAll s port y0).pending = s.pending ∧ (portDeliverAll s port y0).variant = s.variant ∧ (portDeliverAll s port y0).nv = s.nv ∧ (portDeliverAll s port y0).hbm = s.hbm := by
  induction y0 generalizing s port <;> rw [portDeliverAll.eq_def] <;> (try dsimp only) <;> (repeat' split) <;> first | simp (disch := first | ((try intros); (try dsimp only); (repeat' split) <;> simp [*]; done) | fail) [*, foldl_pending, foldl_variant, foldl_nv, foldl_hbm] | exact ⟨rfl, rfl, rfl, rfl⟩
@[simp] theorem State.edgeDiscard_keep (s : State) (p : Nat) (numbered : Bool) : (State.edgeDiscard s p numbered).pending = s.pending ∧ (State.edgeDiscard s p numbered).variant = s.variant ∧ (State.edgeDiscard s p numbered).nv = s.nv ∧ (State.edgeDiscard s p numbered).hbm = s.hbm := by
  unfold State.edgeDiscard
  try dsimp only
  (repeat' split) <;> first | simp (disch := first | ((try intros); (try dsimp only); (repeat' split) <;> simp [*]; done) | fail) [*, foldl_pending, foldl_variant, foldl_nv, foldl_hbm] | exact ⟨rfl, rfl, rfl, rfl⟩
@[simp] theorem countLanes_keep (s : State) (n mask pos : Nat) (places : List Nat) : (countLanes s n mask pos places).pending = s.pending ∧ (countLanes s n mask pos places).variant = s.variant ∧ (countLanes s n mask pos places).nv = s.nv ∧ (countLanes s n mask pos places).hbm = s.hbm := by
  unfold countLanes
  try dsimp only
  (repeat' split) <;> first | simp (disch := first | ((try intros); (try dsimp only); (repeat' split) <;> simp [*]; done) | fail) [*, foldl_pending, foldl_variant, foldl_nv, foldl_hbm] | exact ⟨rfl, rfl, rfl, rfl⟩
@[simp] theorem State.edgeHeard_keep (s : State) (p : Nat) (places : List Nat) : (State.edgeHeard s p places).pending = s.pending ∧ (State.edgeHeard s p places).variant = s.variant ∧ (State.edgeHeard s p places).nv = s.nv ∧ (State.edgeHeard s p places).hbm = s.hbm := by
  unfold State.edgeHeard
  try dsimp only
  (repeat' split) <;> first | simp (disch := first | ((try intros); (try dsimp only); (repeat' split) <;> simp [*]; done) | fail) [*, foldl_pending, foldl_variant, foldl_nv, foldl_hbm] | exact ⟨rfl, rfl, rfl, rfl⟩
@[simp] theorem State.maintReady_keep (s : State) (p : Nat) : (State.maintReady s p).pending = s.pending ∧ (State.maintReady s p).variant = s.variant ∧ (State.maintReady s p).nv = s.nv ∧ (State.maintReady s p).hbm = s.hbm := by
  unfold State.maintReady
  try dsimp only
  (repeat' split) <;> first | simp (disch := first | ((try intros); (try dsimp only); (repeat' split) <;> simp [*]; done) | fail) [*, foldl_pending, foldl_variant, foldl_nv, foldl_hbm] | exact ⟨rfl, rfl, rfl, rfl⟩
@[simp] theorem State.ackTake_keep (s : State) (p ackSeq : Nat) (nak : Bool) : (State.ackTake s p ackSeq nak).pending = s.pending ∧ (State.ackTake s p ackSeq nak).variant = s.variant ∧ (State.ackTake s p ackSeq nak).nv = s.nv ∧ (State.ackTake s p ackSeq nak).hbm = s.hbm := by
  unfold State.ackTake
  try dsimp only
  (repeat' split) <;> first | simp (disch := first | ((try intros); (try dsimp only); (repeat' split) <;> simp [*]; done) | fail) [*, foldl_pending, foldl_variant, foldl_nv, foldl_hbm] | exact ⟨rfl, rfl, rfl, rfl⟩
@[simp] theorem State.portUpNotice_keep (s : State) (p : Nat) : (State.portUpNotice s p).pending = s.pending ∧ (State.portUpNotice s p).variant = s.variant ∧ (State.portUpNotice s p).nv = s.nv ∧ (State.portUpNotice s p).hbm = s.hbm := by
  unfold State.portUpNotice
  try dsimp only
  (repeat' split) <;> first | simp (disch := first | ((try intros); (try dsimp only); (repeat' split) <;> simp [*]; done) | fail) [*, foldl_pending, foldl_variant, foldl_nv, foldl_hbm] | exact ⟨rfl, rfl, rfl, rfl⟩
@[simp] theorem State.maintStart_keep (s : State) (p : Nat) (retrain notice : Bool) (ops : List Nat) : (State.maintStart s p retrain notice ops).pending = s.pending ∧ (State.maintStart s p retrain notice ops).variant = s.variant ∧ (State.maintStart s p retrain notice ops).nv = s.nv ∧ (State.maintStart s p retrain notice ops).hbm = s.hbm := by
  unfold State.maintStart
  try dsimp only
  (repeat' split) <;> first | simp (disch := first | ((try intros); (try dsimp only); (repeat' split) <;> simp [*]; done) | fail) [*, foldl_pending, foldl_variant, foldl_nv, foldl_hbm] | exact ⟨rfl, rfl, rfl, rfl⟩
theorem State.joinDeferred_keep {s : State} {l op : Nat} {force : Bool} {t : State} (h : (State.joinDeferred s l op force) = some t) : t.pending = s.pending ∧ t.variant = s.variant ∧ t.nv = s.nv ∧ t.hbm = s.hbm := by
  unfold State.joinDeferred at h
  try dsimp only at h
  (repeat' split at h) <;> first | (cases h; simp (disch := first | ((try intros); (try dsimp only); (repeat' split) <;> simp [*]; done) | fail) [*, foldl_pending, foldl_variant, foldl_nv, foldl_hbm]; done) | (simp at h; done) | (simp at h; subst h; simp (disch := first | ((try intros); (try dsimp only); (repeat' split) <;> simp [*]; done) | fail) [*, foldl_pending, foldl_variant, foldl_nv, foldl_hbm])
@[simp] theorem State.joinDeferred_getD_pending (s : State) (l op : Nat) (force : Bool) (e : State) (he : e.pending = s.pending) : ((State.joinDeferred s l op force).getD e).pending = s.pending := by
  cases h : (State.joinDeferred s l op force) with
  | none => exact he
  | some t => exact (State.joinDeferred_keep h).1
@[simp] theorem State.joinDeferred_getD_variant (s : State) (l op : Nat) (force : Bool) (e : State) (he : e.variant = s.variant) : ((State.joinDeferred s l op force).getD e).variant = s.variant := by
  cases h : (State.joinDeferred s l op force) with
  | none => exact he
  | some t => exact (State.joinDeferred_keep h).2.1
@[simp] theorem State.joinDeferred_getD_nv (s : State) (l op : Nat) (force : Bool) (e : State) (he : e.nv = s.nv) : ((State.joinDeferred s l op force).getD e).nv = s.nv := by
  cases h : (State.joinDeferred s l op force) with
  | none => exact he
  | some t => exact (State.joinDeferred_keep h).2.2.1
@[simp] theorem State.joinDeferred_getD_hbm (s : State) (l op : Nat) (force : Bool) (e : State) (he : e.hbm = s.hbm) : ((State.joinDeferred s l op force).getD e).hbm = s.hbm := by
  cases h : (State.joinDeferred s l op force) with
  | none => exact he
  | some t => exact (State.joinDeferred_keep h).2.2.2
@[simp] theorem State.deferCal_keep (s : State) (l : Nat) (retrain : Bool) (op : Nat) (force : Bool) : (State.deferCal s l retrain op force).pending = s.pending ∧ (State.deferCal s l retrain op force).variant = s.variant ∧ (State.deferCal s l retrain op force).nv = s.nv := by
  unfold State.deferCal
  split
  · next h => have g := State.joinDeferred_keep h; simp [g]
  · split <;> simp
@[simp] theorem State.takeDeferred_keep (s : State) (l op : Nat) : (State.takeDeferred s l op).2.pending = s.pending ∧ (State.takeDeferred s l op).2.variant = s.variant ∧ (State.takeDeferred s l op).2.nv = s.nv ∧ (State.takeDeferred s l op).2.hbm = s.hbm := by
  unfold State.takeDeferred
  try dsimp only
  (repeat' split) <;> first | simp (disch := first | ((try intros); (try dsimp only); (repeat' split) <;> simp [*]; done) | fail) [*, foldl_pending, foldl_variant, foldl_nv, foldl_hbm] | exact ⟨rfl, rfl, rfl, rfl⟩
@[simp] theorem State.portCalAsk_keep (s : State) (p : Nat) (retrain : Bool) (op : Nat) (force : Bool)  : (State.portCalAsk s p retrain op force).pending = s.pending ∧ (State.portCalAsk s p retrain op force).variant = s.variant ∧ (State.portCalAsk s p retrain op force).nv = s.nv := by
  unfold State.portCalAsk
  try dsimp only
  (repeat' split) <;> first | simp (disch := first | ((try intros); (try dsimp only); (repeat' split) <;> simp [*]; done) | fail) [*, foldl_pending, foldl_variant, foldl_nv, foldl_hbm] | exact ⟨rfl, rfl, rfl⟩
@[simp] theorem State.setLanes_keep (s : State) (r mask : Nat) : (State.setLanes s r mask).pending = s.pending ∧ (State.setLanes s r mask).variant = s.variant ∧ (State.setLanes s r mask).nv = s.nv ∧ (State.setLanes s r mask).hbm = s.hbm := by
  unfold State.setLanes
  try dsimp only
  (repeat' split) <;> first | simp (disch := first | ((try intros); (try dsimp only); (repeat' split) <;> simp [*]; done) | fail) [*, foldl_pending, foldl_variant, foldl_nv, foldl_hbm] | exact ⟨rfl, rfl, rfl, rfl⟩
@[simp] theorem State.toKeying_keep (s : State) (p : Nat) : (State.toKeying s p).pending = s.pending ∧ (State.toKeying s p).variant = s.variant ∧ (State.toKeying s p).nv = s.nv ∧ (State.toKeying s p).hbm = s.hbm := by
  unfold State.toKeying
  try dsimp only
  (repeat' split) <;> first | simp (disch := first | ((try intros); (try dsimp only); (repeat' split) <;> simp [*]; done) | fail) [*, foldl_pending, foldl_variant, foldl_nv, foldl_hbm] | exact ⟨rfl, rfl, rfl, rfl⟩
@[simp] theorem State.identTake_keep (s : State) (p : Nat) (lc : LinkControl) : (State.identTake s p lc).pending = s.pending ∧ (State.identTake s p lc).variant = s.variant ∧ (State.identTake s p lc).nv = s.nv ∧ (State.identTake s p lc).hbm = s.hbm := by
  unfold State.identTake
  try dsimp only
  (repeat' split) <;> first | simp (disch := first | ((try intros); (try dsimp only); (repeat' split) <;> simp [*]; done) | fail) [*, foldl_pending, foldl_variant, foldl_nv, foldl_hbm] | exact ⟨rfl, rfl, rfl, rfl⟩
@[simp] theorem State.toDisagree_keep (s : State) (p : Nat) : (State.toDisagree s p).pending = s.pending ∧ (State.toDisagree s p).variant = s.variant ∧ (State.toDisagree s p).nv = s.nv ∧ (State.toDisagree s p).hbm = s.hbm := by
  unfold State.toDisagree
  try dsimp only
  (repeat' split) <;> first | simp (disch := first | ((try intros); (try dsimp only); (repeat' split) <;> simp [*]; done) | fail) [*, foldl_pending, foldl_variant, foldl_nv, foldl_hbm] | exact ⟨rfl, rfl, rfl, rfl⟩
@[simp] theorem State.keyTake_keep (s : State) (p : Nat) (lc : LinkControl) (verified : Bool) : (State.keyTake s p lc verified).pending = s.pending ∧ (State.keyTake s p lc verified).variant = s.variant ∧ (State.keyTake s p lc verified).nv = s.nv ∧ (State.keyTake s p lc verified).hbm = s.hbm := by
  unfold State.keyTake
  try dsimp only
  (repeat' split) <;> first | simp (disch := first | ((try intros); (try dsimp only); (repeat' split) <;> simp [*]; done) | fail) [*, foldl_pending, foldl_variant, foldl_nv, foldl_hbm] | exact ⟨rfl, rfl, rfl, rfl⟩
@[simp] theorem State.setModule_keep (s : State) (m : Nat) (x : Module) : (State.setModule s m x).pending = s.pending ∧ (State.setModule s m x).variant = s.variant ∧ (State.setModule s m x).nv = s.nv ∧ (State.setModule s m x).hbm = s.hbm := by
  unfold State.setModule
  try dsimp only
  (repeat' split) <;> first | simp (disch := first | ((try intros); (try dsimp only); (repeat' split) <;> simp [*]; done) | fail) [*, foldl_pending, foldl_variant, foldl_nv, foldl_hbm] | exact ⟨rfl, rfl, rfl, rfl⟩
@[simp] theorem State.waitFirst_keep (s : State) (d : Nat) (y0 : List LinkPkt) : (State.waitFirst s d y0).pending = s.pending ∧ (State.waitFirst s d y0).variant = s.variant ∧ (State.waitFirst s d y0).nv = s.nv ∧ (State.waitFirst s d y0).hbm = s.hbm := by
  induction y0 generalizing s d <;> rw [State.waitFirst.eq_def] <;> (try dsimp only) <;> (repeat' split) <;> first | simp (disch := first | ((try intros); (try dsimp only); (repeat' split) <;> simp [*]; done) | fail) [*, foldl_pending, foldl_variant, foldl_nv, foldl_hbm] | exact ⟨rfl, rfl, rfl, rfl⟩
@[simp] theorem State.evict_keep (s : State) (l : Nat) : (State.evict s l).pending = s.pending ∧ (State.evict s l).variant = s.variant ∧ (State.evict s l).nv = s.nv ∧ (State.evict s l).hbm = s.hbm := by
  unfold State.evict
  try dsimp only
  (repeat' split) <;> first | simp (disch := first | ((try intros); (try dsimp only); (repeat' split) <;> simp [*]; done) | fail) [*, foldl_pending, foldl_variant, foldl_nv, foldl_hbm] | exact ⟨rfl, rfl, rfl, rfl⟩
@[simp] theorem State.goDark_keep (s : State) (l : Nat) : (State.goDark s l).pending = s.pending ∧ (State.goDark s l).variant = s.variant ∧ (State.goDark s l).nv = s.nv ∧ (State.goDark s l).hbm = s.hbm := by
  unfold State.goDark
  try dsimp only
  (repeat' split) <;> first | simp (disch := first | ((try intros); (try dsimp only); (repeat' split) <;> simp [*]; done) | fail) [*, foldl_pending, foldl_variant, foldl_nv, foldl_hbm] | exact ⟨rfl, rfl, rfl, rfl⟩
@[simp] theorem State.newLatency_keep (s : State) (l : Nat) : (State.newLatency s l).pending = s.pending ∧ (State.newLatency s l).variant = s.variant ∧ (State.newLatency s l).nv = s.nv ∧ (State.newLatency s l).hbm = s.hbm := by
  unfold State.newLatency
  try dsimp only
  (repeat' split) <;> first | simp (disch := first | ((try intros); (try dsimp only); (repeat' split) <;> simp [*]; done) | fail) [*, foldl_pending, foldl_variant, foldl_nv, foldl_hbm] | exact ⟨rfl, rfl, rfl, rfl⟩
@[simp] theorem State.dropSub_keep (s : State) (w : LinkWork) : (State.dropSub s w).pending = s.pending ∧ (State.dropSub s w).variant = s.variant ∧ (State.dropSub s w).nv = s.nv ∧ (State.dropSub s w).hbm = s.hbm := by
  unfold State.dropSub
  try dsimp only
  (repeat' split) <;> first | simp (disch := first | ((try intros); (try dsimp only); (repeat' split) <;> simp [*]; done) | fail) [*, foldl_pending, foldl_variant, foldl_nv, foldl_hbm] | exact ⟨rfl, rfl, rfl, rfl⟩
@[simp] theorem State.endWork_keep (s : State) (l r : Nat) : (State.endWork s l r).pending = s.pending ∧ (State.endWork s l r).variant = s.variant ∧ (State.endWork s l r).nv = s.nv ∧ (State.endWork s l r).hbm = s.hbm := by
  unfold State.endWork
  try dsimp only
  (repeat' split) <;> first | simp (disch := first | ((try intros); (try dsimp only); (repeat' split) <;> simp [*]; done) | fail) [*, foldl_pending, foldl_variant, foldl_nv, foldl_hbm] | exact ⟨rfl, rfl, rfl, rfl⟩
@[simp] theorem State.linkLost_keep (s : State) (l kind : Nat) : (State.linkLost s l kind).pending = s.pending ∧ (State.linkLost s l kind).variant = s.variant ∧ (State.linkLost s l kind).nv = s.nv ∧ (State.linkLost s l kind).hbm = s.hbm := by
  unfold State.linkLost
  try dsimp only
  (repeat' split) <;> first | simp (disch := first | ((try intros); (try dsimp only); (repeat' split) <;> simp [*]; done) | fail) [*, foldl_pending, foldl_variant, foldl_nv, foldl_hbm] | exact ⟨rfl, rfl, rfl, rfl⟩
@[simp] theorem State.txDark_keep (s : State) (t : Nat) : (State.txDark s t).pending = s.pending ∧ (State.txDark s t).variant = s.variant ∧ (State.txDark s t).nv = s.nv ∧ (State.txDark s t).hbm = s.hbm := by
  unfold State.txDark
  try dsimp only
  (repeat' split) <;> first | simp (disch := first | ((try intros); (try dsimp only); (repeat' split) <;> simp [*]; done) | fail) [*, foldl_pending, foldl_variant, foldl_nv, foldl_hbm] | exact ⟨rfl, rfl, rfl, rfl⟩
@[simp] theorem State.withdraw_keep (s : State) (l : Nat) : (State.withdraw s l).pending = s.pending ∧ (State.withdraw s l).variant = s.variant ∧ (State.withdraw s l).nv = s.nv ∧ (State.withdraw s l).hbm = s.hbm := by
  unfold State.withdraw
  try dsimp only
  (repeat' split) <;> first | simp (disch := first | ((try intros); (try dsimp only); (repeat' split) <;> simp [*]; done) | fail) [*, foldl_pending, foldl_variant, foldl_nv, foldl_hbm] | exact ⟨rfl, rfl, rfl, rfl⟩
@[simp] theorem State.takeTx_keep (s : State) (t : Nat) : (State.takeTx s t).pending = s.pending ∧ (State.takeTx s t).variant = s.variant ∧ (State.takeTx s t).nv = s.nv ∧ (State.takeTx s t).hbm = s.hbm := by
  unfold State.takeTx
  try dsimp only
  (repeat' split) <;> first | simp (disch := first | ((try intros); (try dsimp only); (repeat' split) <;> simp [*]; done) | fail) [*, foldl_pending, foldl_variant, foldl_nv, foldl_hbm] | exact ⟨rfl, rfl, rfl, rfl⟩
@[simp] theorem State.takeRx_keep (s : State) (q : Nat) : (State.takeRx s q).pending = s.pending ∧ (State.takeRx s q).variant = s.variant ∧ (State.takeRx s q).nv = s.nv ∧ (State.takeRx s q).hbm = s.hbm := by
  unfold State.takeRx
  try dsimp only
  (repeat' split) <;> first | simp (disch := first | ((try intros); (try dsimp only); (repeat' split) <;> simp [*]; done) | fail) [*, foldl_pending, foldl_variant, foldl_nv, foldl_hbm] | exact ⟨rfl, rfl, rfl, rfl⟩
@[simp] theorem State.substitute_keep (s : State) (l : Nat) : (State.substitute s l).pending = s.pending ∧ (State.substitute s l).variant = s.variant ∧ (State.substitute s l).nv = s.nv ∧ (State.substitute s l).hbm = s.hbm := by
  unfold State.substitute
  try dsimp only
  (repeat' split) <;> first | simp (disch := first | ((try intros); (try dsimp only); (repeat' split) <;> simp [*]; done) | fail) [*, foldl_pending, foldl_variant, foldl_nv, foldl_hbm] | exact ⟨rfl, rfl, rfl, rfl⟩
@[simp] theorem State.recordTake_keep (s : State) (a b m : Nat) (n : Nat × Nat × Bool) : (State.recordTake s a b m n).pending = s.pending ∧ (State.recordTake s a b m n).variant = s.variant ∧ (State.recordTake s a b m n).nv = s.nv ∧ (State.recordTake s a b m n).hbm = s.hbm := by
  unfold State.recordTake
  try dsimp only
  (repeat' split) <;> first | simp (disch := first | ((try intros); (try dsimp only); (repeat' split) <;> simp [*]; done) | fail) [*, foldl_pending, foldl_variant, foldl_nv, foldl_hbm] | exact ⟨rfl, rfl, rfl, rfl⟩
@[simp] theorem State.frameTake_keep (s : State) (l b : Nat) (f : Option LFrame) : (State.frameTake s l b f).pending = s.pending ∧ (State.frameTake s l b f).variant = s.variant ∧ (State.frameTake s l b f).nv = s.nv ∧ (State.frameTake s l b f).hbm = s.hbm := by
  unfold State.frameTake
  try dsimp only
  (repeat' split) <;> first | simp (disch := first | ((try intros); (try dsimp only); (repeat' split) <;> simp [*]; done) | fail) [*, foldl_pending, foldl_variant, foldl_nv, foldl_hbm] | exact ⟨rfl, rfl, rfl, rfl⟩
@[simp] theorem linkSendAll_keep (s : State) (d : Nat) (y0 : List LinkPkt) : (linkSendAll s d y0).pending = s.pending ∧ (linkSendAll s d y0).variant = s.variant ∧ (linkSendAll s d y0).nv = s.nv ∧ (linkSendAll s d y0).hbm = s.hbm := by
  induction y0 generalizing s d <;> rw [linkSendAll.eq_def] <;> (try dsimp only) <;> (repeat' split) <;> first | simp (disch := first | ((try intros); (try dsimp only); (repeat' split) <;> simp [*]; done) | fail) [*, foldl_pending, foldl_variant, foldl_nv, foldl_hbm] | exact ⟨rfl, rfl, rfl, rfl⟩
@[simp] theorem takeBack_keep (s : State) (e : Nat) (y0 : List Nat) : (takeBack s e y0).2.pending = s.pending ∧ (takeBack s e y0).2.variant = s.variant ∧ (takeBack s e y0).2.nv = s.nv ∧ (takeBack s e y0).2.hbm = s.hbm := by
  induction y0 generalizing s e <;> rw [takeBack.eq_def] <;> (try dsimp only) <;> (repeat' split) <;> first | simp (disch := first | ((try intros); (try dsimp only); (repeat' split) <;> simp [*]; done) | fail) [*, foldl_pending, foldl_variant, foldl_nv, foldl_hbm] | exact ⟨rfl, rfl, rfl, rfl⟩
@[simp] theorem State.startDrained_keep (s : State) (d : Nat) : (State.startDrained s d).pending = s.pending ∧ (State.startDrained s d).variant = s.variant ∧ (State.startDrained s d).nv = s.nv := by
  unfold State.startDrained
  refine ⟨?_, ?_, ?_⟩
  · exact foldl_pending _ _ _ fun s x => by dsimp only; (repeat' split) <;> first | rfl | (rw [foldl_pending _ _ _ fun s x => by simp]; simp)
  · exact foldl_variant _ _ _ fun s x => by dsimp only; (repeat' split) <;> first | rfl | (rw [foldl_variant _ _ _ fun s x => by simp]; simp)
  · exact foldl_nv _ _ _ fun s x => by dsimp only; (repeat' split) <;> first | rfl | (rw [foldl_nv _ _ _ fun s x => by simp]; simp)
@[simp] theorem State.calStart_keep (s : State) (l : Nat) (retrain : Bool) (ops : List Nat)  : (State.calStart s l retrain ops).pending = s.pending ∧ (State.calStart s l retrain ops).variant = s.variant ∧ (State.calStart s l retrain ops).nv = s.nv := by
  unfold State.calStart
  try dsimp only
  (repeat' split) <;> first | simp (disch := first | ((try intros); (try dsimp only); (repeat' split) <;> simp [*]; done) | fail) [*, foldl_pending, foldl_variant, foldl_nv, foldl_hbm] | exact ⟨rfl, rfl, rfl⟩
@[simp] theorem State.calAsk_keep (s : State) (l : Nat) (retrain : Bool) (op : Nat) (force : Bool)  : (State.calAsk s l retrain op force).pending = s.pending ∧ (State.calAsk s l retrain op force).variant = s.variant ∧ (State.calAsk s l retrain op force).nv = s.nv := by
  unfold State.calAsk
  try dsimp only
  (repeat' split) <;> first | simp (disch := first | ((try intros); (try dsimp only); (repeat' split) <;> simp [*]; done) | fail) [*, foldl_pending, foldl_variant, foldl_nv, foldl_hbm] | exact ⟨rfl, rfl, rfl⟩
@[simp] theorem State.deferredStart_keep (s : State) (l : Nat) : (State.deferredStart s l).pending = s.pending ∧ (State.deferredStart s l).variant = s.variant ∧ (State.deferredStart s l).nv = s.nv := by
  unfold State.deferredStart
  try dsimp only
  (repeat' split) <;> first | simp (disch := first | ((try intros); (try dsimp only); (repeat' split) <;> simp [*]; done) | fail) [*, foldl_pending, foldl_variant, foldl_nv, foldl_hbm] | exact ⟨rfl, rfl, rfl⟩
@[simp] theorem State.calEnd_keep (s : State) (l : Nat) (retrain : Bool) (mask cycles : Nat) : (State.calEnd s l retrain mask cycles).pending = s.pending ∧ (State.calEnd s l retrain mask cycles).variant = s.variant ∧ (State.calEnd s l retrain mask cycles).nv = s.nv ∧ (State.calEnd s l retrain mask cycles).hbm = s.hbm := by
  unfold State.calEnd
  try dsimp only
  (repeat' split) <;> first | simp (disch := first | ((try intros); (try dsimp only); (repeat' split) <;> simp [*]; done) | fail) [*, foldl_pending, foldl_variant, foldl_nv, foldl_hbm] | exact ⟨rfl, rfl, rfl, rfl⟩
@[simp] theorem State.calDone_keep (s : State) (l : Nat) (retrain : Bool) (mask cycles : Nat) (trims : List (BitVec 32 × Byte)) : (State.calDone s l retrain mask cycles trims).pending = s.pending ∧ (State.calDone s l retrain mask cycles trims).variant = s.variant ∧ (State.calDone s l retrain mask cycles trims).nv = s.nv ∧ (State.calDone s l retrain mask cycles trims).hbm = s.hbm := by
  unfold State.calDone
  try dsimp only
  (repeat' split) <;> first | simp (disch := first | ((try intros); (try dsimp only); (repeat' split) <;> simp [*]; done) | fail) [*, foldl_pending, foldl_variant, foldl_nv, foldl_hbm] | exact ⟨rfl, rfl, rfl, rfl⟩
@[simp] theorem State.portWidth_keep (s : State) (p mask : Nat) : (State.portWidth s p mask).pending = s.pending ∧ (State.portWidth s p mask).variant = s.variant ∧ (State.portWidth s p mask).nv = s.nv ∧ (State.portWidth s p mask).hbm = s.hbm := by
  unfold State.portWidth
  try dsimp only
  (repeat' split) <;> first | simp (disch := first | ((try intros); (try dsimp only); (repeat' split) <;> simp [*]; done) | fail) [*, foldl_pending, foldl_variant, foldl_nv, foldl_hbm] | exact ⟨rfl, rfl, rfl, rfl⟩
@[simp] theorem State.excludeLane_keep (s : State) (l k : Nat) (fault : Bool) : (State.excludeLane s l k fault).pending = s.pending ∧ (State.excludeLane s l k fault).variant = s.variant ∧ (State.excludeLane s l k fault).nv = s.nv ∧ (State.excludeLane s l k fault).hbm = s.hbm := by
  unfold State.excludeLane
  try dsimp only
  (repeat' split) <;> first | simp (disch := first | ((try intros); (try dsimp only); (repeat' split) <;> simp [*]; done) | fail) [*, foldl_pending, foldl_variant, foldl_nv, foldl_hbm] | exact ⟨rfl, rfl, rfl, rfl⟩
@[simp] theorem State.linkWidth_keep (s : State) (l mask : Nat) : (State.linkWidth s l mask).pending = s.pending ∧ (State.linkWidth s l mask).variant = s.variant ∧ (State.linkWidth s l mask).nv = s.nv ∧ (State.linkWidth s l mask).hbm = s.hbm := by
  unfold State.linkWidth
  try dsimp only
  (repeat' split) <;> first | simp (disch := first | ((try intros); (try dsimp only); (repeat' split) <;> simp [*]; done) | fail) [*, foldl_pending, foldl_variant, foldl_nv, foldl_hbm] | exact ⟨rfl, rfl, rfl, rfl⟩
@[simp] theorem State.portWidthEnd_keep (s : State) (p mask : Nat) : (State.portWidthEnd s p mask).pending = s.pending ∧ (State.portWidthEnd s p mask).variant = s.variant ∧ (State.portWidthEnd s p mask).nv = s.nv ∧ (State.portWidthEnd s p mask).hbm = s.hbm := by
  unfold State.portWidthEnd
  try dsimp only
  (repeat' split) <;> first | simp (disch := first | ((try intros); (try dsimp only); (repeat' split) <;> simp [*]; done) | fail) [*, foldl_pending, foldl_variant, foldl_nv, foldl_hbm] | exact ⟨rfl, rfl, rfl, rfl⟩
@[simp] theorem State.restoreLane_keep (s : State) (l k : Nat) : (State.restoreLane s l k).pending = s.pending ∧ (State.restoreLane s l k).variant = s.variant ∧ (State.restoreLane s l k).nv = s.nv ∧ (State.restoreLane s l k).hbm = s.hbm := by
  unfold State.restoreLane
  try dsimp only
  (repeat' split) <;> first | simp (disch := first | ((try intros); (try dsimp only); (repeat' split) <;> simp [*]; done) | fail) [*, foldl_pending, foldl_variant, foldl_nv, foldl_hbm] | exact ⟨rfl, rfl, rfl, rfl⟩
@[simp] theorem State.refeed_keep (s : State) (old : List Nat) : (State.refeed s old).pending = s.pending ∧ (State.refeed s old).variant = s.variant ∧ (State.refeed s old).nv = s.nv ∧ (State.refeed s old).hbm = s.hbm := by
  unfold State.refeed
  try dsimp only
  (repeat' split) <;> first | simp (disch := first | ((try intros); (try dsimp only); (repeat' split) <;> simp [*]; done) | fail) [*, foldl_pending, foldl_variant, foldl_nv, foldl_hbm] | exact ⟨rfl, rfl, rfl, rfl⟩
@[simp] theorem State.relocked_keep (s : State) (l : Nat) : (State.relocked s l).pending = s.pending ∧ (State.relocked s l).variant = s.variant ∧ (State.relocked s l).nv = s.nv ∧ (State.relocked s l).hbm = s.hbm := by
  unfold State.relocked
  try dsimp only
  (repeat' split) <;> first | simp (disch := first | ((try intros); (try dsimp only); (repeat' split) <;> simp [*]; done) | fail) [*, foldl_pending, foldl_variant, foldl_nv, foldl_hbm] | exact ⟨rfl, rfl, rfl, rfl⟩
@[simp] theorem State.moduleFail_keep (s : State) (m : Nat) : (State.moduleFail s m).pending = s.pending ∧ (State.moduleFail s m).variant = s.variant ∧ (State.moduleFail s m).nv = s.nv ∧ (State.moduleFail s m).hbm = s.hbm := by
  unfold State.moduleFail
  try dsimp only
  (repeat' split) <;> first | simp (disch := first | ((try intros); (try dsimp only); (repeat' split) <;> simp [*]; done) | fail) [*, foldl_pending, foldl_variant, foldl_nv, foldl_hbm] | exact ⟨rfl, rfl, rfl, rfl⟩
@[simp] theorem State.feedRetrim_keep (s : State) (old : List Nat) (trims : List (BitVec 32 × Byte)) : (State.feedRetrim s old trims).pending = s.pending ∧ (State.feedRetrim s old trims).variant = s.variant ∧ (State.feedRetrim s old trims).nv = s.nv ∧ (State.feedRetrim s old trims).hbm = s.hbm := by
  unfold State.feedRetrim
  try dsimp only
  (repeat' split) <;> first | simp (disch := first | ((try intros); (try dsimp only); (repeat' split) <;> simp [*]; done) | fail) [*, foldl_pending, foldl_variant, foldl_nv, foldl_hbm] | exact ⟨rfl, rfl, rfl, rfl⟩
@[simp] theorem State.offPath_keep (s : State) (l : Nat) (st : LinkSt) : (State.offPath s l st).pending = s.pending ∧ (State.offPath s l st).variant = s.variant ∧ (State.offPath s l st).nv = s.nv ∧ (State.offPath s l st).hbm = s.hbm := by
  unfold State.offPath
  try dsimp only
  (repeat' split) <;> first | simp (disch := first | ((try intros); (try dsimp only); (repeat' split) <;> simp [*]; done) | fail) [*, foldl_pending, foldl_variant, foldl_nv, foldl_hbm] | exact ⟨rfl, rfl, rfl, rfl⟩
@[simp] theorem State.commitEntry_keep (s : State) (b : Nat) (e : PathEntry) : (State.commitEntry s b e).2.pending = s.pending ∧ (State.commitEntry s b e).2.variant = s.variant ∧ (State.commitEntry s b e).2.nv = s.nv ∧ (State.commitEntry s b e).2.hbm = s.hbm := by
  unfold State.commitEntry
  try dsimp only
  (repeat' split) <;> first | simp (disch := first | ((try intros); (try dsimp only); (repeat' split) <;> simp [*]; done) | fail) [*, foldl_pending, foldl_variant, foldl_nv, foldl_hbm] | exact ⟨rfl, rfl, rfl, rfl⟩
@[simp] theorem commitAll_keep (s : State) (b : Nat) (y0 : List PathEntry) : (commitAll s b y0).2.pending = s.pending ∧ (commitAll s b y0).2.variant = s.variant ∧ (commitAll s b y0).2.nv = s.nv ∧ (commitAll s b y0).2.hbm = s.hbm := by
  induction y0 generalizing s b <;> rw [commitAll.eq_def] <;> (try dsimp only) <;> (repeat' split) <;> first | simp (disch := first | ((try intros); (try dsimp only); (repeat' split) <;> simp [*]; done) | fail) [*, foldl_pending, foldl_variant, foldl_nv, foldl_hbm] | exact ⟨rfl, rfl, rfl, rfl⟩
@[simp] theorem stageEntry_keep (s : State) (b : Nat) (e : PathEntry) : (stageEntry s b e).pending = s.pending ∧ (stageEntry s b e).variant = s.variant ∧ (stageEntry s b e).nv = s.nv ∧ (stageEntry s b e).hbm = s.hbm := by
  unfold stageEntry
  try dsimp only
  (repeat' split) <;> first | simp (disch := first | ((try intros); (try dsimp only); (repeat' split) <;> simp [*]; done) | fail) [*, foldl_pending, foldl_variant, foldl_nv, foldl_hbm] | exact ⟨rfl, rfl, rfl, rfl⟩
@[simp] theorem State.cancelStaged_keep (s : State) (es : List PathEntry) : (State.cancelStaged s es).pending = s.pending ∧ (State.cancelStaged s es).variant = s.variant ∧ (State.cancelStaged s es).nv = s.nv ∧ (State.cancelStaged s es).hbm = s.hbm := by
  unfold State.cancelStaged
  try dsimp only
  (repeat' split) <;> first | simp (disch := first | ((try intros); (try dsimp only); (repeat' split) <;> simp [*]; done) | fail) [*, foldl_pending, foldl_variant, foldl_nv, foldl_hbm] | exact ⟨rfl, rfl, rfl, rfl⟩
@[simp] theorem State.setEntry_keep (s : State) (b l : Nat) (ph : EntryPh) : (State.setEntry s b l ph).pending = s.pending ∧ (State.setEntry s b l ph).variant = s.variant ∧ (State.setEntry s b l ph).nv = s.nv ∧ (State.setEntry s b l ph).hbm = s.hbm := by
  unfold State.setEntry
  try dsimp only
  (repeat' split) <;> first | simp (disch := first | ((try intros); (try dsimp only); (repeat' split) <;> simp [*]; done) | fail) [*, foldl_pending, foldl_variant, foldl_nv, foldl_hbm] | exact ⟨rfl, rfl, rfl, rfl⟩
@[simp] theorem State.skipEntry_keep (s : State) (b l : Nat) : (State.skipEntry s b l).pending = s.pending ∧ (State.skipEntry s b l).variant = s.variant ∧ (State.skipEntry s b l).nv = s.nv ∧ (State.skipEntry s b l).hbm = s.hbm := by
  unfold State.skipEntry
  try dsimp only
  (repeat' split) <;> first | simp (disch := first | ((try intros); (try dsimp only); (repeat' split) <;> simp [*]; done) | fail) [*, foldl_pending, foldl_variant, foldl_nv, foldl_hbm] | exact ⟨rfl, rfl, rfl, rfl⟩
@[simp] theorem State.pathLive_keep (s : State) (l r : Nat) : (State.pathLive s l r).pending = s.pending ∧ (State.pathLive s l r).variant = s.variant ∧ (State.pathLive s l r).nv = s.nv ∧ (State.pathLive s l r).hbm = s.hbm := by
  unfold State.pathLive
  try dsimp only
  (repeat' split) <;> first | simp (disch := first | ((try intros); (try dsimp only); (repeat' split) <;> simp [*]; done) | fail) [*, foldl_pending, foldl_variant, foldl_nv, foldl_hbm] | exact ⟨rfl, rfl, rfl, rfl⟩
@[simp] theorem State.darkenCluster_keep (s : State) (k : Nat) : (State.darkenCluster s k).pending = s.pending ∧ (State.darkenCluster s k).variant = s.variant ∧ (State.darkenCluster s k).nv = s.nv ∧ (State.darkenCluster s k).hbm = s.hbm := by
  unfold State.darkenCluster
  try dsimp only
  (repeat' split) <;> first | simp (disch := first | ((try intros); (try dsimp only); (repeat' split) <;> simp [*]; done) | fail) [*, foldl_pending, foldl_variant, foldl_nv, foldl_hbm] | exact ⟨rfl, rfl, rfl, rfl⟩
@[simp] theorem State.mapChange_keep (s : State) : (State.mapChange s).pending = s.pending ∧ (State.mapChange s).variant = s.variant ∧ (State.mapChange s).nv = s.nv ∧ (State.mapChange s).hbm = s.hbm := by
  unfold State.mapChange
  try dsimp only
  (repeat' split) <;> first | simp (disch := first | ((try intros); (try dsimp only); (repeat' split) <;> simp [*]; done) | fail) [*, foldl_pending, foldl_variant, foldl_nv, foldl_hbm] | exact ⟨rfl, rfl, rfl, rfl⟩
@[simp] theorem State.dieOut_keep (s : State) (d cause : Nat) : (State.dieOut s d cause).pending = s.pending ∧ (State.dieOut s d cause).variant = s.variant ∧ (State.dieOut s d cause).nv = s.nv ∧ (State.dieOut s d cause).hbm = s.hbm := by
  unfold State.dieOut
  try dsimp only
  (repeat' split) <;> first | simp (disch := first | ((try intros); (try dsimp only); (repeat' split) <;> simp [*]; done) | fail) [*, foldl_pending, foldl_variant, foldl_nv, foldl_hbm] | exact ⟨rfl, rfl, rfl, rfl⟩
@[simp] theorem State.dieCheck_keep (s : State) (before d : Nat) : (State.dieCheck s before d).pending = s.pending ∧ (State.dieCheck s before d).variant = s.variant ∧ (State.dieCheck s before d).nv = s.nv ∧ (State.dieCheck s before d).hbm = s.hbm := by
  unfold State.dieCheck
  try dsimp only
  (repeat' split) <;> first | simp (disch := first | ((try intros); (try dsimp only); (repeat' split) <;> simp [*]; done) | fail) [*, foldl_pending, foldl_variant, foldl_nv, foldl_hbm] | exact ⟨rfl, rfl, rfl, rfl⟩
@[simp] theorem answerReset_keep (st : Nat) (s : State) (c : Nat) (y0 : List Beat) : (answerReset st s c y0).pending = s.pending ∧ (answerReset st s c y0).variant = s.variant ∧ (answerReset st s c y0).nv = s.nv ∧ (answerReset st s c y0).hbm = s.hbm := by
  induction y0 generalizing s st c <;> rw [answerReset.eq_def] <;> (try dsimp only) <;> (repeat' split) <;> first | simp (disch := first | ((try intros); (try dsimp only); (repeat' split) <;> simp [*]; done) | fail) [*, foldl_pending, foldl_variant, foldl_nv, foldl_hbm] | exact ⟨rfl, rfl, rfl, rfl⟩
@[simp] theorem State.dropWaiting_keep (s : State) (hit : Pkt → Bool) : (State.dropWaiting s hit).pending = s.pending ∧ (State.dropWaiting s hit).variant = s.variant ∧ (State.dropWaiting s hit).nv = s.nv ∧ (State.dropWaiting s hit).hbm = s.hbm := by
  unfold State.dropWaiting
  try dsimp only
  (repeat' split) <;> first | simp (disch := first | ((try intros); (try dsimp only); (repeat' split) <;> simp [*]; done) | fail) [*, foldl_pending, foldl_variant, foldl_nv, foldl_hbm] | exact ⟨rfl, rfl, rfl, rfl⟩
@[simp] theorem State.orphan_keep (s : State) (g : Nat) (gone : List Pkt) (o : Orphan) : (State.orphan s g gone o).pending = s.pending ∧ (State.orphan s g gone o).variant = s.variant ∧ (State.orphan s g gone o).nv = s.nv ∧ (State.orphan s g gone o).hbm = s.hbm := by
  unfold State.orphan
  try dsimp only
  (repeat' split) <;> first | simp (disch := first | ((try intros); (try dsimp only); (repeat' split) <;> simp [*]; done) | fail) [*, foldl_pending, foldl_variant, foldl_nv, foldl_hbm] | exact ⟨rfl, rfl, rfl, rfl⟩
@[simp] theorem State.dropTrackers_keep (s : State) (g : Nat) (gone : List Pkt) (mine : Tracker → Bool) : (State.dropTrackers s g gone mine).pending = s.pending ∧ (State.dropTrackers s g gone mine).variant = s.variant ∧ (State.dropTrackers s g gone mine).nv = s.nv ∧ (State.dropTrackers s g gone mine).hbm = s.hbm := by
  unfold State.dropTrackers
  try dsimp only
  (repeat' split) <;> first | simp (disch := first | ((try intros); (try dsimp only); (repeat' split) <;> simp [*]; done) | fail) [*, foldl_pending, foldl_variant, foldl_nv, foldl_hbm] | exact ⟨rfl, rfl, rfl, rfl⟩
@[simp] theorem State.gangsLose_keep (s : State) (c : Nat) : (State.gangsLose s c).pending = s.pending ∧ (State.gangsLose s c).variant = s.variant ∧ (State.gangsLose s c).nv = s.nv ∧ (State.gangsLose s c).hbm = s.hbm := by
  unfold State.gangsLose
  try dsimp only
  (repeat' split) <;> first | simp (disch := first | ((try intros); (try dsimp only); (repeat' split) <;> simp [*]; done) | fail) [*, foldl_pending, foldl_variant, foldl_nv, foldl_hbm] | exact ⟨rfl, rfl, rfl, rfl⟩
@[simp] theorem State.forgetTraffic_keep (s : State) (c : Nat) : (State.forgetTraffic s c).pending = s.pending ∧ (State.forgetTraffic s c).variant = s.variant ∧ (State.forgetTraffic s c).nv = s.nv ∧ (State.forgetTraffic s c).hbm = s.hbm := by
  unfold State.forgetTraffic
  exact ⟨(State.setGw_keep _ _ _).1.trans (foldl_pending _ _ _ fun t n => (State.onCore_keep t n _).1),
    (State.setGw_keep _ _ _).2.1.trans (foldl_variant _ _ _ fun t n => (State.onCore_keep t n _).2.1),
    (State.setGw_keep _ _ _).2.2.1.trans (foldl_nv _ _ _ fun t n => (State.onCore_keep t n _).2.2.1),
    (State.setGw_keep _ _ _).2.2.2.trans (foldl_hbm _ _ _ fun t n => (State.onCore_keep t n _).2.2.2)⟩
@[simp] theorem State.forgetRequests_keep (s : State) (c : Nat) (gone : List Pkt) : (State.forgetRequests s c gone).pending = s.pending ∧ (State.forgetRequests s c gone).variant = s.variant ∧ (State.forgetRequests s c gone).nv = s.nv ∧ (State.forgetRequests s c gone).hbm = s.hbm := by
  unfold State.forgetRequests
  try dsimp only
  (repeat' split) <;> first | simp (disch := first | ((try intros); (try dsimp only); (repeat' split) <;> simp [*]; done) | fail) [*, foldl_pending, foldl_variant, foldl_nv, foldl_hbm] | exact ⟨rfl, rfl, rfl, rfl⟩
@[simp] theorem State.forgetUnits_keep (s : State) (c : Nat) : (State.forgetUnits s c).pending = s.pending ∧ (State.forgetUnits s c).variant = s.variant ∧ (State.forgetUnits s c).nv = s.nv ∧ (State.forgetUnits s c).hbm = s.hbm := by
  unfold State.forgetUnits
  try dsimp only
  (repeat' split) <;> first | simp (disch := first | ((try intros); (try dsimp only); (repeat' split) <;> simp [*]; done) | fail) [*, foldl_pending, foldl_variant, foldl_nv, foldl_hbm] | exact ⟨rfl, rfl, rfl, rfl⟩
@[simp] theorem State.resetCore_keep (s : State) (c : Nat) (p : CorePower) : (State.resetCore s c p).pending = s.pending ∧ (State.resetCore s c p).variant = s.variant ∧ (State.resetCore s c p).nv = s.nv ∧ (State.resetCore s c p).hbm = s.hbm := by
  unfold State.resetCore
  try dsimp only
  (repeat' split) <;> first | simp (disch := first | ((try intros); (try dsimp only); (repeat' split) <;> simp [*]; done) | fail) [*, foldl_pending, foldl_variant, foldl_nv, foldl_hbm] | exact ⟨rfl, rfl, rfl, rfl⟩
@[simp] theorem resetCores_keep (p : CorePower) (s : State) (y0 : List Nat) : (resetCores p s y0).pending = s.pending ∧ (resetCores p s y0).variant = s.variant ∧ (resetCores p s y0).nv = s.nv ∧ (resetCores p s y0).hbm = s.hbm := by
  induction y0 generalizing s p <;> rw [resetCores.eq_def] <;> (try dsimp only) <;> (repeat' split) <;> first | simp (disch := first | ((try intros); (try dsimp only); (repeat' split) <;> simp [*]; done) | fail) [*, foldl_pending, foldl_variant, foldl_nv, foldl_hbm] | exact ⟨rfl, rfl, rfl, rfl⟩
@[simp] theorem State.steerForget_keep (s : State) (g : Nat) : (State.steerForget s g).pending = s.pending ∧ (State.steerForget s g).variant = s.variant ∧ (State.steerForget s g).nv = s.nv ∧ (State.steerForget s g).hbm = s.hbm := by
  unfold State.steerForget
  try dsimp only
  (repeat' split) <;> first | simp (disch := first | ((try intros); (try dsimp only); (repeat' split) <;> simp [*]; done) | fail) [*, foldl_pending, foldl_variant, foldl_nv, foldl_hbm] | exact ⟨rfl, rfl, rfl, rfl⟩
@[simp] theorem State.resetCluster_keep (s : State) (g : Nat) (p : CorePower) : (State.resetCluster s g p).pending = s.pending ∧ (State.resetCluster s g p).variant = s.variant ∧ (State.resetCluster s g p).nv = s.nv ∧ (State.resetCluster s g p).hbm = s.hbm := by
  unfold State.resetCluster
  try dsimp only
  (repeat' split) <;> first | simp (disch := first | ((try intros); (try dsimp only); (repeat' split) <;> simp [*]; done) | fail) [*, foldl_pending, foldl_variant, foldl_nv, foldl_hbm] | exact ⟨rfl, rfl, rfl, rfl⟩
@[simp] theorem resetClusters_keep (p : CorePower) (s : State) (y0 : List Nat) : (resetClusters p s y0).pending = s.pending ∧ (resetClusters p s y0).variant = s.variant ∧ (resetClusters p s y0).nv = s.nv ∧ (resetClusters p s y0).hbm = s.hbm := by
  induction y0 generalizing s p <;> rw [resetClusters.eq_def] <;> (try dsimp only) <;> (repeat' split) <;> first | simp (disch := first | ((try intros); (try dsimp only); (repeat' split) <;> simp [*]; done) | fail) [*, foldl_pending, foldl_variant, foldl_nv, foldl_hbm] | exact ⟨rfl, rfl, rfl, rfl⟩
@[simp] theorem State.retireCore_keep (s : State) (c : Nat) : (State.retireCore s c).pending = s.pending ∧ (State.retireCore s c).variant = s.variant ∧ (State.retireCore s c).nv = s.nv ∧ (State.retireCore s c).hbm = s.hbm := by
  unfold State.retireCore
  try dsimp only
  (repeat' split) <;> first | simp (disch := first | ((try intros); (try dsimp only); (repeat' split) <;> simp [*]; done) | fail) [*, foldl_pending, foldl_variant, foldl_nv, foldl_hbm] | exact ⟨rfl, rfl, rfl, rfl⟩
@[simp] theorem State.retireCluster_keep (s : State) (g : Nat) : (State.retireCluster s g).pending = s.pending ∧ (State.retireCluster s g).variant = s.variant ∧ (State.retireCluster s g).nv = s.nv ∧ (State.retireCluster s g).hbm = s.hbm := by
  unfold State.retireCluster
  try dsimp only
  (repeat' split) <;> first | simp (disch := first | ((try intros); (try dsimp only); (repeat' split) <;> simp [*]; done) | fail) [*, foldl_pending, foldl_variant, foldl_nv, foldl_hbm] | exact ⟨rfl, rfl, rfl, rfl⟩
@[simp] theorem State.retireMeshLink_keep (s : State) (l : Nat) : (State.retireMeshLink s l).pending = s.pending ∧ (State.retireMeshLink s l).variant = s.variant ∧ (State.retireMeshLink s l).nv = s.nv ∧ (State.retireMeshLink s l).hbm = s.hbm := by
  unfold State.retireMeshLink
  try dsimp only
  (repeat' split) <;> first | simp (disch := first | ((try intros); (try dsimp only); (repeat' split) <;> simp [*]; done) | fail) [*, foldl_pending, foldl_variant, foldl_nv, foldl_hbm] | exact ⟨rfl, rfl, rfl, rfl⟩
@[simp] theorem State.retireCrossing_keep (s : State) (u : Nat) : (State.retireCrossing s u).pending = s.pending ∧ (State.retireCrossing s u).variant = s.variant ∧ (State.retireCrossing s u).nv = s.nv ∧ (State.retireCrossing s u).hbm = s.hbm := by
  unfold State.retireCrossing
  try dsimp only
  (repeat' split) <;> first | simp (disch := first | ((try intros); (try dsimp only); (repeat' split) <;> simp [*]; done) | fail) [*, foldl_pending, foldl_variant, foldl_nv, foldl_hbm] | exact ⟨rfl, rfl, rfl, rfl⟩
@[simp] theorem State.setSensor_keep (s : State) (n : Nat) (x : Sensor) : (State.setSensor s n x).pending = s.pending ∧ (State.setSensor s n x).variant = s.variant ∧ (State.setSensor s n x).nv = s.nv ∧ (State.setSensor s n x).hbm = s.hbm := by
  unfold State.setSensor
  try dsimp only
  (repeat' split) <;> first | simp (disch := first | ((try intros); (try dsimp only); (repeat' split) <;> simp [*]; done) | fail) [*, foldl_pending, foldl_variant, foldl_nv, foldl_hbm] | exact ⟨rfl, rfl, rfl, rfl⟩
@[simp] theorem State.thermFollow_keep (s : State) : (State.thermFollow s).pending = s.pending ∧ (State.thermFollow s).variant = s.variant ∧ (State.thermFollow s).nv = s.nv ∧ (State.thermFollow s).hbm = s.hbm := by
  unfold State.thermFollow
  try dsimp only
  (repeat' split) <;> first | simp (disch := first | ((try intros); (try dsimp only); (repeat' split) <;> simp [*]; done) | fail) [*, foldl_pending, foldl_variant, foldl_nv, foldl_hbm] | exact ⟨rfl, rfl, rfl, rfl⟩
@[simp] theorem State.linkOut_keep (s : State) (l : Nat) : (State.linkOut s l).pending = s.pending ∧ (State.linkOut s l).variant = s.variant ∧ (State.linkOut s l).nv = s.nv ∧ (State.linkOut s l).hbm = s.hbm := by
  unfold State.linkOut
  try dsimp only
  (repeat' split) <;> first | simp (disch := first | ((try intros); (try dsimp only); (repeat' split) <;> simp [*]; done) | fail) [*, foldl_pending, foldl_variant, foldl_nv, foldl_hbm] | exact ⟨rfl, rfl, rfl, rfl⟩
@[simp] theorem State.act_keep (s : State) (kind cls unit detail : Nat) : (State.act s kind cls unit detail).pending = s.pending ∧ (State.act s kind cls unit detail).variant = s.variant ∧ (State.act s kind cls unit detail).nv = s.nv := by
  unfold State.act
  try dsimp only
  (repeat' split) <;> first | simp (disch := first | ((try intros); (try dsimp only); (repeat' split) <;> simp [*]; done) | fail) [*, foldl_pending, foldl_variant, foldl_nv, foldl_hbm] | exact ⟨rfl, rfl, rfl⟩
@[simp] theorem State.lightStop_keep (s : State) : (State.lightStop s).pending = s.pending ∧ (State.lightStop s).variant = s.variant ∧ (State.lightStop s).nv = s.nv ∧ (State.lightStop s).hbm = s.hbm := by
  unfold State.lightStop
  try dsimp only
  (repeat' split) <;> first | simp (disch := first | ((try intros); (try dsimp only); (repeat' split) <;> simp [*]; done) | fail) [*, foldl_pending, foldl_variant, foldl_nv, foldl_hbm] | exact ⟨rfl, rfl, rfl, rfl⟩
theorem upd_fatal (s : State) (g a b c) : ({ s with gleaner := g, clusterUp := a, dieDown := b, dieCause := c } : State).pending = s.pending ∧ ({ s with gleaner := g, clusterUp := a, dieDown := b, dieCause := c } : State).variant = s.variant ∧ ({ s with gleaner := g, clusterUp := a, dieDown := b, dieCause := c } : State).nv = s.nv ∧ ({ s with gleaner := g, clusterUp := a, dieDown := b, dieCause := c } : State).hbm = s.hbm := ⟨rfl, rfl, rfl, rfl⟩
@[simp] theorem State.latchFatal_keep (s : State)  : (State.latchFatal s).pending = s.pending ∧ (State.latchFatal s).variant = s.variant ∧ (State.latchFatal s).nv = s.nv ∧ (State.latchFatal s).hbm = s.hbm := by
  unfold State.latchFatal
  dsimp only
  split
  · exact ⟨rfl, rfl, rfl, rfl⟩
  · have g : (State.lightStop (resetClusters .off s (List.range 256))).pending = s.pending ∧ (State.lightStop (resetClusters .off s (List.range 256))).variant = s.variant ∧ (State.lightStop (resetClusters .off s (List.range 256))).nv = s.nv ∧ (State.lightStop (resetClusters .off s (List.range 256))).hbm = s.hbm := by simp
    exact ⟨(upd_fatal _ _ _ _ _).1.trans g.1, (upd_fatal _ _ _ _ _).2.1.trans g.2.1, (upd_fatal _ _ _ _ _).2.2.1.trans g.2.2.1, (upd_fatal _ _ _ _ _).2.2.2.trans g.2.2.2⟩
@[simp] theorem State.record_keep (s : State) (kind ut unit detail at_ : Nat) (rule : Option Nat) (injected : Bool)  : (State.record s kind ut unit detail at_ rule injected).variant = s.variant ∧ (State.record s kind ut unit detail at_ rule injected).nv = s.nv := by
  simp only [State.record]
  split <;> split <;> simp
@[simp] theorem State.ackClasses_keep (s : State) (mask : Nat) : (State.ackClasses s mask).pending = s.pending ∧ (State.ackClasses s mask).variant = s.variant ∧ (State.ackClasses s mask).nv = s.nv ∧ (State.ackClasses s mask).hbm = s.hbm := by
  unfold State.ackClasses
  try dsimp only
  (repeat' split) <;> first | simp (disch := first | ((try intros); (try dsimp only); (repeat' split) <;> simp [*]; done) | fail) [*, foldl_pending, foldl_variant, foldl_nv, foldl_hbm] | exact ⟨rfl, rfl, rfl, rfl⟩
@[simp] theorem State.faultNotice_keep (s : State) (r : FaultRec) : (State.faultNotice s r).pending = s.pending ∧ (State.faultNotice s r).variant = s.variant ∧ (State.faultNotice s r).nv = s.nv ∧ (State.faultNotice s r).hbm = s.hbm := by
  unfold State.faultNotice
  try dsimp only
  (repeat' split) <;> first | simp (disch := first | ((try intros); (try dsimp only); (repeat' split) <;> simp [*]; done) | fail) [*, foldl_pending, foldl_variant, foldl_nv, foldl_hbm] | exact ⟨rfl, rfl, rfl, rfl⟩
@[simp] theorem State.judgeFlags_keep (s : State) (n : Nat) (t : Int) : (State.judgeFlags s n t).pending = s.pending ∧ (State.judgeFlags s n t).variant = s.variant ∧ (State.judgeFlags s n t).nv = s.nv ∧ (State.judgeFlags s n t).hbm = s.hbm := by
  unfold State.judgeFlags
  try dsimp only
  (repeat' split) <;> first | simp (disch := first | ((try intros); (try dsimp only); (repeat' split) <;> simp [*]; done) | fail) [*, foldl_pending, foldl_variant, foldl_nv, foldl_hbm] | exact ⟨rfl, rfl, rfl, rfl⟩
@[simp] theorem State.zoneBand_keep (s : State) (z : Nat) (t : Int) : (State.zoneBand s z t).pending = s.pending ∧ (State.zoneBand s z t).variant = s.variant ∧ (State.zoneBand s z t).nv = s.nv ∧ (State.zoneBand s z t).hbm = s.hbm := by
  unfold State.zoneBand
  try dsimp only
  (repeat' split) <;> first | simp (disch := first | ((try intros); (try dsimp only); (repeat' split) <;> simp [*]; done) | fail) [*, foldl_pending, foldl_variant, foldl_nv, foldl_hbm] | exact ⟨rfl, rfl, rfl, rfl⟩
@[simp] theorem State.validSample_keep (s : State) (n : Nat) (t : Int) : (State.validSample s n t).pending = s.pending ∧ (State.validSample s n t).variant = s.variant ∧ (State.validSample s n t).nv = s.nv ∧ (State.validSample s n t).hbm = s.hbm := by
  unfold State.validSample
  try dsimp only
  (repeat' split) <;> first | simp (disch := first | ((try intros); (try dsimp only); (repeat' split) <;> simp [*]; done) | fail) [*, foldl_pending, foldl_variant, foldl_nv, foldl_hbm] | exact ⟨rfl, rfl, rfl, rfl⟩
@[simp] theorem State.retireSensor_keep (s : State) (n : Nat) : (State.retireSensor s n).pending = s.pending ∧ (State.retireSensor s n).variant = s.variant ∧ (State.retireSensor s n).nv = s.nv ∧ (State.retireSensor s n).hbm = s.hbm := by
  unfold State.retireSensor
  try dsimp only
  (repeat' split) <;> first | simp (disch := first | ((try intros); (try dsimp only); (repeat' split) <;> simp [*]; done) | fail) [*, foldl_pending, foldl_variant, foldl_nv, foldl_hbm] | exact ⟨rfl, rfl, rfl, rfl⟩
@[simp] theorem State.judgeLane_keep (s : State) (n k bit : Nat) (warn act : Bool)  : (State.judgeLane s n k bit warn act).pending = s.pending ∧ (State.judgeLane s n k bit warn act).variant = s.variant ∧ (State.judgeLane s n k bit warn act).nv = s.nv := by
  unfold State.judgeLane
  try dsimp only
  (repeat' split) <;> first | simp (disch := first | ((try intros); (try dsimp only); (repeat' split) <;> simp [*]; done) | fail) [*, foldl_pending, foldl_variant, foldl_nv, foldl_hbm] | exact ⟨rfl, rfl, rfl⟩
@[simp] theorem State.laneFigure_keep (s : State) (n k bit : Nat) (warn act : Bool) (f : Lane → Lane)  : (State.laneFigure s n k bit warn act f).pending = s.pending ∧ (State.laneFigure s n k bit warn act f).variant = s.variant ∧ (State.laneFigure s n k bit warn act f).nv = s.nv := by
  unfold State.laneFigure
  try dsimp only
  (repeat' split) <;> first | simp (disch := first | ((try intros); (try dsimp only); (repeat' split) <;> simp [*]; done) | fail) [*, foldl_pending, foldl_variant, foldl_nv, foldl_hbm] | exact ⟨rfl, rfl, rfl⟩
@[simp] theorem State.ringRelock_keep (s : State) (r : Nat)  : (State.ringRelock s r).pending = s.pending ∧ (State.ringRelock s r).variant = s.variant ∧ (State.ringRelock s r).nv = s.nv := by
  unfold State.ringRelock
  try dsimp only
  (repeat' split) <;> first | simp (disch := first | ((try intros); (try dsimp only); (repeat' split) <;> simp [*]; done) | fail) [*, foldl_pending, foldl_variant, foldl_nv, foldl_hbm] | exact ⟨rfl, rfl, rfl⟩
@[simp] theorem State.judgeRing_keep (s : State) (r res : Nat)  : (State.judgeRing s r res).pending = s.pending ∧ (State.judgeRing s r res).variant = s.variant ∧ (State.judgeRing s r res).nv = s.nv := by
  unfold State.judgeRing
  try dsimp only
  (repeat' split) <;> first | simp (disch := first | ((try intros); (try dsimp only); (repeat' split) <;> simp [*]; done) | fail) [*, foldl_pending, foldl_variant, foldl_nv, foldl_hbm] | exact ⟨rfl, rfl, rfl⟩
@[simp] theorem State.putOffset_keep (s : State) (r : Nat) (v : Int) : (State.putOffset s r v).pending = s.pending ∧ (State.putOffset s r v).variant = s.variant ∧ (State.putOffset s r v).nv = s.nv ∧ (State.putOffset s r v).hbm = s.hbm := by
  unfold State.putOffset
  try dsimp only
  (repeat' split) <;> first | simp (disch := first | ((try intros); (try dsimp only); (repeat' split) <;> simp [*]; done) | fail) [*, foldl_pending, foldl_variant, foldl_nv, foldl_hbm] | exact ⟨rfl, rfl, rfl, rfl⟩
@[simp] theorem State.retrimAnalogue_keep (s : State) (currentSense offsets : List Byte) : (State.retrimAnalogue s currentSense offsets).pending = s.pending ∧ (State.retrimAnalogue s currentSense offsets).variant = s.variant ∧ (State.retrimAnalogue s currentSense offsets).nv = s.nv ∧ (State.retrimAnalogue s currentSense offsets).hbm = s.hbm := by
  unfold State.retrimAnalogue
  try dsimp only
  (repeat' split) <;> first | simp (disch := first | ((try intros); (try dsimp only); (repeat' split) <;> simp [*]; done) | fail) [*, foldl_pending, foldl_variant, foldl_nv, foldl_hbm] | exact ⟨rfl, rfl, rfl, rfl⟩
@[simp] theorem State.portProposal_keep (s : State) (p mask : Nat) : (State.portProposal s p mask).pending = s.pending ∧ (State.portProposal s p mask).variant = s.variant ∧ (State.portProposal s p mask).nv = s.nv ∧ (State.portProposal s p mask).hbm = s.hbm := by
  unfold State.portProposal
  dsimp only
  (repeat' split) <;> first
    | exact ⟨(foldl_pending _ _ _ fun t k => (State.report_keep t _ _ _).1).trans (State.portWidth_keep s p _).1, (foldl_variant _ _ _ fun t k => (State.report_keep t _ _ _).2.1).trans (State.portWidth_keep s p _).2.1,
        (foldl_nv _ _ _ fun t k => (State.report_keep t _ _ _).2.2.1).trans (State.portWidth_keep s p _).2.2.1, (foldl_hbm _ _ _ fun t k => (State.report_keep t _ _ _).2.2.2).trans (State.portWidth_keep s p _).2.2.2⟩
    | simp
    | exact ⟨rfl, rfl, rfl, rfl⟩
@[simp] theorem State.timeNote_keep (s : State) : (State.timeNote s).pending = s.pending ∧ (State.timeNote s).variant = s.variant ∧ (State.timeNote s).nv = s.nv ∧ (State.timeNote s).hbm = s.hbm := by
  unfold State.timeNote
  try dsimp only
  (repeat' split) <;> first | simp (disch := first | ((try intros); (try dsimp only); (repeat' split) <;> simp [*]; done) | fail) [*, foldl_pending, foldl_variant, foldl_nv, foldl_hbm] | exact ⟨rfl, rfl, rfl, rfl⟩
@[simp] theorem State.timeMissing_keep (s : State) : (State.timeMissing s).pending = s.pending ∧ (State.timeMissing s).variant = s.variant ∧ (State.timeMissing s).nv = s.nv ∧ (State.timeMissing s).hbm = s.hbm := by
  unfold State.timeMissing
  try dsimp only
  (repeat' split) <;> first | simp (disch := first | ((try intros); (try dsimp only); (repeat' split) <;> simp [*]; done) | fail) [*, foldl_pending, foldl_variant, foldl_nv, foldl_hbm] | exact ⟨rfl, rfl, rfl, rfl⟩
@[simp] theorem State.timeCorrect_keep (s : State) (θ : Int) : (State.timeCorrect s θ).pending = s.pending ∧ (State.timeCorrect s θ).variant = s.variant ∧ (State.timeCorrect s θ).nv = s.nv ∧ (State.timeCorrect s θ).hbm = s.hbm := by
  unfold State.timeCorrect
  try dsimp only
  (repeat' split) <;> first | simp (disch := first | ((try intros); (try dsimp only); (repeat' split) <;> simp [*]; done) | fail) [*, foldl_pending, foldl_variant, foldl_nv, foldl_hbm] | exact ⟨rfl, rfl, rfl, rfl⟩
@[simp] theorem State.timeMeasure_keep (s : State) (θ : Int) : (State.timeMeasure s θ).pending = s.pending ∧ (State.timeMeasure s θ).variant = s.variant ∧ (State.timeMeasure s θ).nv = s.nv ∧ (State.timeMeasure s θ).hbm = s.hbm := by
  unfold State.timeMeasure
  try dsimp only
  (repeat' split) <;> first | simp (disch := first | ((try intros); (try dsimp only); (repeat' split) <;> simp [*]; done) | fail) [*, foldl_pending, foldl_variant, foldl_nv, foldl_hbm] | exact ⟨rfl, rfl, rfl, rfl⟩
@[simp] theorem State.timeApply_keep (s : State) : (State.timeApply s).pending = s.pending ∧ (State.timeApply s).variant = s.variant ∧ (State.timeApply s).nv = s.nv ∧ (State.timeApply s).hbm = s.hbm := by
  unfold State.timeApply
  try dsimp only
  (repeat' split) <;> first | simp (disch := first | ((try intros); (try dsimp only); (repeat' split) <;> simp [*]; done) | fail) [*, foldl_pending, foldl_variant, foldl_nv, foldl_hbm] | exact ⟨rfl, rfl, rfl, rfl⟩
@[simp] theorem State.timeSend_keep (s : State) (port : Nat) (body : List Byte) : (State.timeSend s port body).pending = s.pending ∧ (State.timeSend s port body).variant = s.variant ∧ (State.timeSend s port body).nv = s.nv ∧ (State.timeSend s port body).hbm = s.hbm := by
  unfold State.timeSend
  try dsimp only
  (repeat' split) <;> first | simp (disch := first | ((try intros); (try dsimp only); (repeat' split) <;> simp [*]; done) | fail) [*, foldl_pending, foldl_variant, foldl_nv, foldl_hbm] | exact ⟨rfl, rfl, rfl, rfl⟩
@[simp] theorem State.meterPut_keep (s : State) (b : Nat) (bytes : Nat → List Byte) : (State.meterPut s b bytes).pending = s.pending ∧ (State.meterPut s b bytes).variant = s.variant ∧ (State.meterPut s b bytes).nv = s.nv ∧ (State.meterPut s b bytes).hbm = s.hbm := by
  unfold State.meterPut
  try dsimp only
  (repeat' split) <;> first | simp (disch := first | ((try intros); (try dsimp only); (repeat' split) <;> simp [*]; done) | fail) [*, foldl_pending, foldl_variant, foldl_nv, foldl_hbm] | exact ⟨rfl, rfl, rfl, rfl⟩
@[simp] theorem State.meterOpenAt_keep (s : State) (b start : Nat) : (State.meterOpenAt s b start).pending = s.pending ∧ (State.meterOpenAt s b start).variant = s.variant ∧ (State.meterOpenAt s b start).nv = s.nv ∧ (State.meterOpenAt s b start).hbm = s.hbm := by
  unfold State.meterOpenAt
  try dsimp only
  (repeat' split) <;> first | simp (disch := first | ((try intros); (try dsimp only); (repeat' split) <;> simp [*]; done) | fail) [*, foldl_pending, foldl_variant, foldl_nv, foldl_hbm] | exact ⟨rfl, rfl, rfl, rfl⟩
@[simp] theorem State.meterClose_keep (s : State) (b ring end_ kind : Nat) (forward : Bool) : (State.meterClose s b ring end_ kind forward).pending = s.pending ∧ (State.meterClose s b ring end_ kind forward).variant = s.variant ∧ (State.meterClose s b ring end_ kind forward).nv = s.nv ∧ (State.meterClose s b ring end_ kind forward).hbm = s.hbm := by
  unfold State.meterClose
  try dsimp only
  (repeat' split) <;> first | simp (disch := first | ((try intros); (try dsimp only); (repeat' split) <;> simp [*]; done) | fail) [*, foldl_pending, foldl_variant, foldl_nv, foldl_hbm] | exact ⟨rfl, rfl, rfl, rfl⟩
@[simp] theorem State.almLoad_keep (s : State) (t : Nat) : (State.almLoad s t).pending = s.pending ∧ (State.almLoad s t).variant = s.variant ∧ (State.almLoad s t).nv = s.nv ∧ (State.almLoad s t).hbm = s.hbm := by
  unfold State.almLoad
  try dsimp only
  (repeat' split) <;> first | simp (disch := first | ((try intros); (try dsimp only); (repeat' split) <;> simp [*]; done) | fail) [*, foldl_pending, foldl_variant, foldl_nv, foldl_hbm] | exact ⟨rfl, rfl, rfl, rfl⟩
@[simp] theorem State.almCtl_keep (s : State) (v : Nat) : (State.almCtl s v).pending = s.pending ∧ (State.almCtl s v).variant = s.variant ∧ (State.almCtl s v).nv = s.nv ∧ (State.almCtl s v).hbm = s.hbm := by
  unfold State.almCtl
  try dsimp only
  (repeat' split) <;> first | simp (disch := first | ((try intros); (try dsimp only); (repeat' split) <;> simp [*]; done) | fail) [*, foldl_pending, foldl_variant, foldl_nv, foldl_hbm] | exact ⟨rfl, rfl, rfl, rfl⟩
@[simp] theorem State.almPps_keep (s : State) : (State.almPps s).pending = s.pending ∧ (State.almPps s).variant = s.variant ∧ (State.almPps s).nv = s.nv ∧ (State.almPps s).hbm = s.hbm := by
  unfold State.almPps
  try dsimp only
  (repeat' split) <;> first | simp (disch := first | ((try intros); (try dsimp only); (repeat' split) <;> simp [*]; done) | fail) [*, foldl_pending, foldl_variant, foldl_nv, foldl_hbm] | exact ⟨rfl, rfl, rfl, rfl⟩
@[simp] theorem State.dieTick_keep (s : State) (d : Nat) : (State.dieTick s d).pending = s.pending ∧ (State.dieTick s d).variant = s.variant ∧ (State.dieTick s d).nv = s.nv ∧ (State.dieTick s d).hbm = s.hbm := by
  unfold State.dieTick
  try dsimp only
  (repeat' split) <;> first | simp (disch := first | ((try intros); (try dsimp only); (repeat' split) <;> simp [*]; done) | fail) [*, foldl_pending, foldl_variant, foldl_nv, foldl_hbm] | exact ⟨rfl, rfl, rfl, rfl⟩
@[simp] theorem State.meterTick_keep (s : State) (inc : Nat) : (State.meterTick s inc).pending = s.pending ∧ (State.meterTick s inc).variant = s.variant ∧ (State.meterTick s inc).nv = s.nv ∧ (State.meterTick s inc).hbm = s.hbm := by
  unfold State.meterTick
  try dsimp only
  (repeat' split) <;> first | simp (disch := first | ((try intros); (try dsimp only); (repeat' split) <;> simp [*]; done) | fail) [*, foldl_pending, foldl_variant, foldl_nv, foldl_hbm] | exact ⟨rfl, rfl, rfl, rfl⟩
@[simp] theorem State.tick_keep (s : State) : (State.tick s).pending = s.pending ∧ (State.tick s).variant = s.variant ∧ (State.tick s).nv = s.nv ∧ (State.tick s).hbm = s.hbm := by
  unfold State.tick
  try dsimp only
  (repeat' split) <;> first | simp (disch := first | ((try intros); (try dsimp only); (repeat' split) <;> simp [*]; done) | fail) [*, foldl_pending, foldl_variant, foldl_nv, foldl_hbm] | exact ⟨rfl, rfl, rfl, rfl⟩
@[simp] theorem State.bufOut_keep (s : State) (c : Cmd) (bs : List Byte)  : (State.bufOut s c bs).pending = s.pending ∧ (State.bufOut s c bs).variant = s.variant ∧ (State.bufOut s c bs).nv = s.nv := by
  unfold State.bufOut
  try dsimp only
  (repeat' split) <;> first | simp (disch := first | ((try intros); (try dsimp only); (repeat' split) <;> simp [*]; done) | fail) [*, foldl_pending, foldl_variant, foldl_nv, foldl_hbm] | exact ⟨rfl, rfl, rfl⟩
@[simp] theorem State.setRep_keep (s : State) (b k : Nat) (rep : List Byte) : (State.setRep s b k rep).pending = s.pending ∧ (State.setRep s b k rep).variant = s.variant ∧ (State.setRep s b k rep).nv = s.nv ∧ (State.setRep s b k rep).hbm = s.hbm := by
  unfold State.setRep
  try dsimp only
  (repeat' split) <;> first | simp (disch := first | ((try intros); (try dsimp only); (repeat' split) <;> simp [*]; done) | fail) [*, foldl_pending, foldl_variant, foldl_nv, foldl_hbm] | exact ⟨rfl, rfl, rfl, rfl⟩
theorem State.newOp_keep {s : State} {c : Cmd} {total : Nat} {w : List Nat} {n : Nat} {t : State} (h : s.newOp c total w = .inr (n, t)) :
    t.pending = s.pending ∧ t.variant = s.variant ∧ t.nv = s.nv ∧ t.hbm = s.hbm := by
  unfold State.newOp at h
  dsimp only at h
  (repeat' split at h) <;> simp only [reduceCtorEq, Sum.inr.injEq, Prod.mk.injEq] at h <;> rw [← h.2] <;> exact ⟨rfl, rfl, rfl, rfl⟩
@[simp] theorem State.runOp_keep_pending (s : State) (c : Cmd) (total : Nat) (work : List Nat) (f : Nat → State → State)  (hf_pending : ∀ n u, (f n u).pending = u.pending) : (State.runOp s c total work f).2.pending = s.pending := by
  unfold State.runOp
  try dsimp only
  (repeat' split) <;> (try have h := State.newOp_keep (by assumption)) <;> simp [*]
@[simp] theorem State.runOp_keep_variant (s : State) (c : Cmd) (total : Nat) (work : List Nat) (f : Nat → State → State)  (hf_variant : ∀ n u, (f n u).variant = u.variant) : (State.runOp s c total work f).2.variant = s.variant := by
  unfold State.runOp
  try dsimp only
  (repeat' split) <;> (try have h := State.newOp_keep (by assumption)) <;> simp [*]
@[simp] theorem State.runOp_keep_nv (s : State) (c : Cmd) (total : Nat) (work : List Nat) (f : Nat → State → State)  (hf_nv : ∀ n u, (f n u).nv = u.nv) : (State.runOp s c total work f).2.nv = s.nv := by
  unfold State.runOp
  try dsimp only
  (repeat' split) <;> (try have h := State.newOp_keep (by assumption)) <;> simp [*]
@[simp] theorem State.quickOp_keep_pending (s : State) (c : Cmd) (f : Nat → State → State)  (hf_pending : ∀ n u, (f n u).pending = u.pending) : (State.quickOp s c f).2.pending = s.pending := by
  unfold State.quickOp
  try dsimp only
  (repeat' split) <;> first | simp (disch := first | ((try intros); (try dsimp only); (repeat' split) <;> simp [*]; done) | fail) [*, foldl_pending, foldl_variant, foldl_nv, foldl_hbm] | exact ⟨⟩
@[simp] theorem State.quickOp_keep_variant (s : State) (c : Cmd) (f : Nat → State → State)  (hf_variant : ∀ n u, (f n u).variant = u.variant) : (State.quickOp s c f).2.variant = s.variant := by
  unfold State.quickOp
  try dsimp only
  (repeat' split) <;> first | simp (disch := first | ((try intros); (try dsimp only); (repeat' split) <;> simp [*]; done) | fail) [*, foldl_pending, foldl_variant, foldl_nv, foldl_hbm] | exact ⟨⟩
@[simp] theorem State.quickOp_keep_nv (s : State) (c : Cmd) (f : Nat → State → State)  (hf_nv : ∀ n u, (f n u).nv = u.nv) : (State.quickOp s c f).2.nv = s.nv := by
  unfold State.quickOp
  try dsimp only
  (repeat' split) <;> first | simp (disch := first | ((try intros); (try dsimp only); (repeat' split) <;> simp [*]; done) | fail) [*, foldl_pending, foldl_variant, foldl_nv, foldl_hbm] | exact ⟨⟩
@[simp] theorem State.repostNotice_keep (s : State) (b : Nat) (bytes : List Byte) : (State.repostNotice s b bytes).pending = s.pending ∧ (State.repostNotice s b bytes).variant = s.variant ∧ (State.repostNotice s b bytes).nv = s.nv ∧ (State.repostNotice s b bytes).hbm = s.hbm := by
  unfold State.repostNotice
  try dsimp only
  (repeat' split) <;> first | simp (disch := first | ((try intros); (try dsimp only); (repeat' split) <;> simp [*]; done) | fail) [*, foldl_pending, foldl_variant, foldl_nv, foldl_hbm] | exact ⟨rfl, rfl, rfl, rfl⟩
@[simp] theorem State.repostReply_keep (s : State) (b k : Nat) (bytes : List Byte) : (State.repostReply s b k bytes).pending = s.pending ∧ (State.repostReply s b k bytes).variant = s.variant ∧ (State.repostReply s b k bytes).nv = s.nv ∧ (State.repostReply s b k bytes).hbm = s.hbm := by
  unfold State.repostReply
  try dsimp only
  (repeat' split) <;> first | simp (disch := first | ((try intros); (try dsimp only); (repeat' split) <;> simp [*]; done) | fail) [*, foldl_pending, foldl_variant, foldl_nv, foldl_hbm] | exact ⟨rfl, rfl, rfl, rfl⟩
@[simp] theorem State.repostAll_keep (s : State) : (State.repostAll s).pending = s.pending ∧ (State.repostAll s).variant = s.variant ∧ (State.repostAll s).nv = s.nv ∧ (State.repostAll s).hbm = s.hbm := by
  unfold State.repostAll
  try dsimp only
  (repeat' split) <;> first | simp (disch := first | ((try intros); (try dsimp only); (repeat' split) <;> simp [*]; done) | fail) [*, foldl_pending, foldl_variant, foldl_nv, foldl_hbm] | exact ⟨rfl, rfl, rfl, rfl⟩
@[simp] theorem State.helmNotice_keep (s : State) : (State.helmNotice s).pending = s.pending ∧ (State.helmNotice s).variant = s.variant ∧ (State.helmNotice s).nv = s.nv ∧ (State.helmNotice s).hbm = s.hbm := by
  unfold State.helmNotice
  try dsimp only
  (repeat' split) <;> first | simp (disch := first | ((try intros); (try dsimp only); (repeat' split) <;> simp [*]; done) | fail) [*, foldl_pending, foldl_variant, foldl_nv, foldl_hbm] | exact ⟨rfl, rfl, rfl, rfl⟩
@[simp] theorem State.halfOut_keep (s : State) (half : Nat) : (State.halfOut s half).pending = s.pending ∧ (State.halfOut s half).variant = s.variant ∧ (State.halfOut s half).nv = s.nv ∧ (State.halfOut s half).hbm = s.hbm := by
  unfold State.halfOut
  try dsimp only
  (repeat' split) <;> first | simp (disch := first | ((try intros); (try dsimp only); (repeat' split) <;> simp [*]; done) | fail) [*, foldl_pending, foldl_variant, foldl_nv, foldl_hbm] | exact ⟨rfl, rfl, rfl, rfl⟩
@[simp] theorem State.retireHalf_keep (s : State) (half : Nat) : (State.retireHalf s half).pending = s.pending ∧ (State.retireHalf s half).variant = s.variant ∧ (State.retireHalf s half).nv = s.nv ∧ (State.retireHalf s half).hbm = s.hbm := by
  unfold State.retireHalf
  try dsimp only
  (repeat' split) <;> first | simp (disch := first | ((try intros); (try dsimp only); (repeat' split) <;> simp [*]; done) | fail) [*, foldl_pending, foldl_variant, foldl_nv, foldl_hbm] | exact ⟨rfl, rfl, rfl, rfl⟩
@[simp] theorem State.helmStop_keep (s : State) : (State.helmStop s).pending = s.pending ∧ (State.helmStop s).variant = s.variant ∧ (State.helmStop s).nv = s.nv ∧ (State.helmStop s).hbm = s.hbm := by
  unfold State.helmStop
  try dsimp only
  (repeat' split) <;> first | simp (disch := first | ((try intros); (try dsimp only); (repeat' split) <;> simp [*]; done) | fail) [*, foldl_pending, foldl_variant, foldl_nv, foldl_hbm] | exact ⟨rfl, rfl, rfl, rfl⟩
@[simp] theorem State.updateFail_keep (s : State) (result : Nat) : (State.updateFail s result).pending = s.pending ∧ (State.updateFail s result).variant = s.variant ∧ (State.updateFail s result).nv = s.nv ∧ (State.updateFail s result).hbm = s.hbm := by
  unfold State.updateFail
  try dsimp only
  (repeat' split) <;> first | simp (disch := first | ((try intros); (try dsimp only); (repeat' split) <;> simp [*]; done) | fail) [*, foldl_pending, foldl_variant, foldl_nv, foldl_hbm] | exact ⟨rfl, rfl, rfl, rfl⟩
@[simp] theorem State.updateReject_keep (s : State) (result : Nat) : (State.updateReject s result).pending = s.pending ∧ (State.updateReject s result).variant = s.variant ∧ (State.updateReject s result).nv = s.nv ∧ (State.updateReject s result).hbm = s.hbm := by
  unfold State.updateReject
  try dsimp only
  (repeat' split) <;> first | simp (disch := first | ((try intros); (try dsimp only); (repeat' split) <;> simp [*]; done) | fail) [*, foldl_pending, foldl_variant, foldl_nv, foldl_hbm] | exact ⟨rfl, rfl, rfl, rfl⟩
@[simp] theorem State.helmAnswer_keep (s : State) (p : Pkt) (bop : Nat) (data : List Byte) : (State.helmAnswer s p bop data).pending = s.pending ∧ (State.helmAnswer s p bop data).variant = s.variant ∧ (State.helmAnswer s p bop data).nv = s.nv ∧ (State.helmAnswer s p bop data).hbm = s.hbm := by
  unfold State.helmAnswer
  try dsimp only
  (repeat' split) <;> first | simp (disch := first | ((try intros); (try dsimp only); (repeat' split) <;> simp [*]; done) | fail) [*, foldl_pending, foldl_variant, foldl_nv, foldl_hbm] | exact ⟨rfl, rfl, rfl, rfl⟩
@[simp] theorem State.helmTake_keep (s : State) (p : Pkt) : (State.helmTake s p).pending = s.pending ∧ (State.helmTake s p).variant = s.variant ∧ (State.helmTake s p).nv = s.nv ∧ (State.helmTake s p).hbm = s.hbm := by
  unfold State.helmTake
  try dsimp only
  (repeat' split) <;> first | simp (disch := first | ((try intros); (try dsimp only); (repeat' split) <;> simp [*]; done) | fail) [*, foldl_pending, foldl_variant, foldl_nv, foldl_hbm] | exact ⟨rfl, rfl, rfl, rfl⟩
@[simp] theorem State.ctrlDeliver_keep (s : State) (p : Pkt) : (State.ctrlDeliver s p).pending = s.pending ∧ (State.ctrlDeliver s p).variant = s.variant ∧ (State.ctrlDeliver s p).nv = s.nv ∧ (State.ctrlDeliver s p).hbm = s.hbm := by
  unfold State.ctrlDeliver
  try dsimp only
  (repeat' split) <;> first | simp (disch := first | ((try intros); (try dsimp only); (repeat' split) <;> simp [*]; done) | fail) [*, foldl_pending, foldl_variant, foldl_nv, foldl_hbm] | exact ⟨rfl, rfl, rfl, rfl⟩
@[simp] theorem State.dropPair_keep (s : State) (n : Nat) : (State.dropPair s n).pending = s.pending ∧ (State.dropPair s n).variant = s.variant ∧ (State.dropPair s n).nv = s.nv ∧ (State.dropPair s n).hbm = s.hbm := by
  unfold State.dropPair
  try dsimp only
  (repeat' split) <;> first | simp (disch := first | ((try intros); (try dsimp only); (repeat' split) <;> simp [*]; done) | fail) [*, foldl_pending, foldl_variant, foldl_nv, foldl_hbm] | exact ⟨rfl, rfl, rfl, rfl⟩
@[simp] theorem State.faultyOut_keep (s : State) (dies : List Nat) (f : FaultyUnits) : (State.faultyOut s dies f).pending = s.pending ∧ (State.faultyOut s dies f).variant = s.variant ∧ (State.faultyOut s dies f).nv = s.nv ∧ (State.faultyOut s dies f).hbm = s.hbm := by
  unfold State.faultyOut
  try dsimp only
  (repeat' split) <;> first | simp (disch := first | ((try intros); (try dsimp only); (repeat' split) <;> simp [*]; done) | fail) [*, foldl_pending, foldl_variant, foldl_nv, foldl_hbm] | exact ⟨rfl, rfl, rfl, rfl⟩
@[simp] theorem State.cancelOp_keep (s : State) (o : Op) : (State.cancelOp s o).pending = s.pending ∧ (State.cancelOp s o).variant = s.variant ∧ (State.cancelOp s o).nv = s.nv ∧ (State.cancelOp s o).hbm = s.hbm := by
  unfold State.cancelOp
  try dsimp only
  (repeat' split) <;> first | simp (disch := first | ((try intros); (try dsimp only); (repeat' split) <;> simp [*]; done) | fail) [*, foldl_pending, foldl_variant, foldl_nv, foldl_hbm] | exact ⟨rfl, rfl, rfl, rfl⟩
@[simp] theorem State.moveClusters_keep (s : State) (ks : List Nat) (owner : Nat) : (State.moveClusters s ks owner).pending = s.pending ∧ (State.moveClusters s ks owner).variant = s.variant ∧ (State.moveClusters s ks owner).nv = s.nv ∧ (State.moveClusters s ks owner).hbm = s.hbm := by
  unfold State.moveClusters
  try dsimp only
  (repeat' split) <;> first | simp (disch := first | ((try intros); (try dsimp only); (repeat' split) <;> simp [*]; done) | fail) [*, foldl_pending, foldl_variant, foldl_nv, foldl_hbm] | exact ⟨rfl, rfl, rfl, rfl⟩
@[simp] theorem State.freeGranules_keep (s : State) (gs : List Nat) : (State.freeGranules s gs).pending = s.pending ∧ (State.freeGranules s gs).variant = s.variant ∧ (State.freeGranules s gs).nv = s.nv ∧ (State.freeGranules s gs).hbm = s.hbm := by
  unfold State.freeGranules
  try dsimp only
  (repeat' split) <;> first | simp (disch := first | ((try intros); (try dsimp only); (repeat' split) <;> simp [*]; done) | fail) [*, foldl_pending, foldl_variant, foldl_nv, foldl_hbm] | exact ⟨rfl, rfl, rfl, rfl⟩
@[simp] theorem State.giveQueues_keep (s : State) (qs : List Nat) (b : Nat) : (State.giveQueues s qs b).pending = s.pending ∧ (State.giveQueues s qs b).variant = s.variant ∧ (State.giveQueues s qs b).nv = s.nv ∧ (State.giveQueues s qs b).hbm = s.hbm := by
  unfold State.giveQueues
  try dsimp only
  (repeat' split) <;> first | simp (disch := first | ((try intros); (try dsimp only); (repeat' split) <;> simp [*]; done) | fail) [*, foldl_pending, foldl_variant, foldl_nv, foldl_hbm] | exact ⟨rfl, rfl, rfl, rfl⟩
@[simp] theorem State.cancelBarnOps_keep (s : State) (b : Nat) : (State.cancelBarnOps s b).pending = s.pending ∧ (State.cancelBarnOps s b).variant = s.variant ∧ (State.cancelBarnOps s b).nv = s.nv ∧ (State.cancelBarnOps s b).hbm = s.hbm := by
  unfold State.cancelBarnOps
  try dsimp only
  (repeat' split) <;> first | simp (disch := first | ((try intros); (try dsimp only); (repeat' split) <;> simp [*]; done) | fail) [*, foldl_pending, foldl_variant, foldl_nv, foldl_hbm] | exact ⟨rfl, rfl, rfl, rfl⟩
@[simp] theorem State.barnOp_keep_pending (s : State) (c : Cmd) (b : Nat) (units : List Nat) (f : Nat → State → State)  (hf_pending : ∀ n u, (f n u).pending = u.pending) : (State.barnOp s c b units f).2.pending = s.pending := by
  unfold State.barnOp
  try dsimp only
  (repeat' split) <;> first | simp (disch := first | ((try intros); (try dsimp only); (repeat' split) <;> simp [*]; done) | fail) [*, foldl_pending, foldl_variant, foldl_nv, foldl_hbm] | exact ⟨⟩
@[simp] theorem State.barnOp_keep_variant (s : State) (c : Cmd) (b : Nat) (units : List Nat) (f : Nat → State → State)  (hf_variant : ∀ n u, (f n u).variant = u.variant) : (State.barnOp s c b units f).2.variant = s.variant := by
  unfold State.barnOp
  try dsimp only
  (repeat' split) <;> first | simp (disch := first | ((try intros); (try dsimp only); (repeat' split) <;> simp [*]; done) | fail) [*, foldl_pending, foldl_variant, foldl_nv, foldl_hbm] | exact ⟨⟩
@[simp] theorem State.barnOp_keep_nv (s : State) (c : Cmd) (b : Nat) (units : List Nat) (f : Nat → State → State)  (hf_nv : ∀ n u, (f n u).nv = u.nv) : (State.barnOp s c b units f).2.nv = s.nv := by
  unfold State.barnOp
  try dsimp only
  (repeat' split) <;> first | simp (disch := first | ((try intros); (try dsimp only); (repeat' split) <;> simp [*]; done) | fail) [*, foldl_pending, foldl_variant, foldl_nv, foldl_hbm] | exact ⟨⟩
@[simp] theorem State.createBarn_keep (s : State) (b weight q1 q3 : Nat) : (State.createBarn s b weight q1 q3).pending = s.pending ∧ (State.createBarn s b weight q1 q3).variant = s.variant ∧ (State.createBarn s b weight q1 q3).nv = s.nv ∧ (State.createBarn s b weight q1 q3).hbm = s.hbm := by
  unfold State.createBarn
  try dsimp only
  (repeat' split) <;> first | simp (disch := first | ((try intros); (try dsimp only); (repeat' split) <;> simp [*]; done) | fail) [*, foldl_pending, foldl_variant, foldl_nv, foldl_hbm] | exact ⟨rfl, rfl, rfl, rfl⟩
@[simp] theorem State.destroyBarn_keep (s : State) (b : Nat) : (State.destroyBarn s b).pending = s.pending ∧ (State.destroyBarn s b).variant = s.variant ∧ (State.destroyBarn s b).nv = s.nv ∧ (State.destroyBarn s b).hbm = s.hbm := by
  unfold State.destroyBarn
  try dsimp only
  (repeat' split) <;> first | simp (disch := first | ((try intros); (try dsimp only); (repeat' split) <;> simp [*]; done) | fail) [*, foldl_pending, foldl_variant, foldl_nv, foldl_hbm] | exact ⟨rfl, rfl, rfl, rfl⟩
@[simp] theorem State.resetBarn_keep (s : State) (b : Nat) : (State.resetBarn s b).pending = s.pending ∧ (State.resetBarn s b).variant = s.variant ∧ (State.resetBarn s b).nv = s.nv ∧ (State.resetBarn s b).hbm = s.hbm := by
  unfold State.resetBarn
  try dsimp only
  (repeat' split) <;> first | simp (disch := first | ((try intros); (try dsimp only); (repeat' split) <;> simp [*]; done) | fail) [*, foldl_pending, foldl_variant, foldl_nv, foldl_hbm] | exact ⟨rfl, rfl, rfl, rfl⟩
@[simp] theorem State.spanPost_keep (s : State) (c t pc a : Nat) (bytes : List Byte) : (State.spanPost s c t pc a bytes).pending = s.pending ∧ (State.spanPost s c t pc a bytes).variant = s.variant ∧ (State.spanPost s c t pc a bytes).nv = s.nv ∧ (State.spanPost s c t pc a bytes).hbm = s.hbm := by
  unfold State.spanPost
  split <;> (rename_i h; have g := pair_snd h; subst g; simp)
@[simp] theorem State.spanPostDead_keep (s : State) (c t pc a : Nat) (bytes : List Byte) : (State.spanPostDead s c t pc a bytes).pending = s.pending ∧ (State.spanPostDead s c t pc a bytes).variant = s.variant ∧ (State.spanPostDead s c t pc a bytes).nv = s.nv ∧ (State.spanPostDead s c t pc a bytes).hbm = s.hbm := by
  unfold State.spanPostDead
  split <;> (rename_i h; have g := pair_snd h; subst g; simp)
@[simp] theorem State.bankFinish_keep (s : State) (c t : Nat) (o : BankOp) : (State.bankFinish s c t o).pending = s.pending ∧ (State.bankFinish s c t o).variant = s.variant ∧ (State.bankFinish s c t o).nv = s.nv ∧ (State.bankFinish s c t o).hbm = s.hbm := by
  unfold State.bankFinish
  try dsimp only
  (repeat' split) <;> first | simp (disch := first | ((try intros); (try dsimp only); (repeat' split) <;> simp [*]; done) | fail) [*, foldl_pending, foldl_variant, foldl_nv, foldl_hbm] | exact ⟨rfl, rfl, rfl, rfl⟩
@[simp] theorem State.deadFinish_keep (s : State) (c t : Nat) (o : BankOp) : (State.deadFinish s c t o).pending = s.pending ∧ (State.deadFinish s c t o).variant = s.variant ∧ (State.deadFinish s c t o).nv = s.nv ∧ (State.deadFinish s c t o).hbm = s.hbm := by
  unfold State.deadFinish
  try dsimp only
  (repeat' split) <;> first | simp (disch := first | ((try intros); (try dsimp only); (repeat' split) <;> simp [*]; done) | fail) [*, foldl_pending, foldl_variant, foldl_nv, foldl_hbm] | exact ⟨rfl, rfl, rfl, rfl⟩
@[simp] theorem State.opFinish_keep (s : State) (c t : Nat) (o : BankOp) : (State.opFinish s c t o).pending = s.pending ∧ (State.opFinish s c t o).variant = s.variant ∧ (State.opFinish s c t o).nv = s.nv ∧ (State.opFinish s c t o).hbm = s.hbm := by
  unfold State.opFinish
  try dsimp only
  (repeat' split) <;> first | simp (disch := first | ((try intros); (try dsimp only); (repeat' split) <;> simp [*]; done) | fail) [*, foldl_pending, foldl_variant, foldl_nv, foldl_hbm] | exact ⟨rfl, rfl, rfl, rfl⟩
@[simp] theorem State.bankRow_keep (s : State) (c t : Nat) (e : Ecc) : (State.bankRow s c t e).pending = s.pending ∧ (State.bankRow s c t e).variant = s.variant ∧ (State.bankRow s c t e).nv = s.nv ∧ (State.bankRow s c t e).hbm = s.hbm := by
  unfold State.bankRow
  try dsimp only
  (repeat' split) <;> first | simp (disch := first | ((try intros); (try dsimp only); (repeat' split) <;> simp [*]; done) | fail) [*, foldl_pending, foldl_variant, foldl_nv, foldl_hbm] | exact ⟨rfl, rfl, rfl, rfl⟩
@[simp] theorem bankDrain_keep (y0 : Nat) (y1 : State) (y2 : Nat) (y3 : Nat) : (bankDrain y0 y1 y2 y3).pending = y1.pending ∧ (bankDrain y0 y1 y2 y3).variant = y1.variant ∧ (bankDrain y0 y1 y2 y3).nv = y1.nv ∧ (bankDrain y0 y1 y2 y3).hbm = y1.hbm := by
  induction y0 generalizing y1 y2 y3 <;> rw [bankDrain.eq_def] <;> (try dsimp only) <;> (repeat' split) <;> first | simp (disch := first | ((try intros); (try dsimp only); (repeat' split) <;> simp [*]; done) | fail) [*, foldl_pending, foldl_variant, foldl_nv, foldl_hbm] | exact ⟨rfl, rfl, rfl, rfl⟩
@[simp] theorem State.bankStart_keep (s : State) (c t : Nat) (o : BankOp) (acc : BankAcc) : (State.bankStart s c t o acc).pending = s.pending ∧ (State.bankStart s c t o acc).variant = s.variant ∧ (State.bankStart s c t o acc).nv = s.nv ∧ (State.bankStart s c t o acc).hbm = s.hbm := by
  unfold State.bankStart
  try dsimp only
  (repeat' split) <;> first | simp (disch := first | ((try intros); (try dsimp only); (repeat' split) <;> simp [*]; done) | fail) [*, foldl_pending, foldl_variant, foldl_nv, foldl_hbm] | exact ⟨rfl, rfl, rfl, rfl⟩
@[simp] theorem State.launch_keep (s : State) (c t entry gd : Nat) : (State.launch s c t entry gd).pending = s.pending ∧ (State.launch s c t entry gd).variant = s.variant ∧ (State.launch s c t entry gd).nv = s.nv ∧ (State.launch s c t entry gd).hbm = s.hbm := by
  unfold State.launch
  try dsimp only
  (repeat' split) <;> first | simp (disch := first | ((try intros); (try dsimp only); (repeat' split) <;> simp [*]; done) | fail) [*, foldl_pending, foldl_variant, foldl_nv, foldl_hbm] | exact ⟨rfl, rfl, rfl, rfl⟩
@[simp] theorem State.wake_keep (s : State) (c t gd : Nat) (v : BitVec 64) : (State.wake s c t gd v).pending = s.pending ∧ (State.wake s c t gd v).variant = s.variant ∧ (State.wake s c t gd v).nv = s.nv ∧ (State.wake s c t gd v).hbm = s.hbm := by
  unfold State.wake
  try dsimp only
  (repeat' split) <;> first | simp (disch := first | ((try intros); (try dsimp only); (repeat' split) <;> simp [*]; done) | fail) [*, foldl_pending, foldl_variant, foldl_nv, foldl_hbm] | exact ⟨rfl, rfl, rfl, rfl⟩
@[simp] theorem wakeReduction_keep (s : State) (c h : Nat) (v : BitVec 64) (y0 : List Nat) : (wakeReduction s c h v y0).pending = s.pending ∧ (wakeReduction s c h v y0).variant = s.variant ∧ (wakeReduction s c h v y0).nv = s.nv ∧ (wakeReduction s c h v y0).hbm = s.hbm := by
  induction y0 generalizing s c h v <;> rw [wakeReduction.eq_def] <;> (try dsimp only) <;> (repeat' split) <;> first | simp (disch := first | ((try intros); (try dsimp only); (repeat' split) <;> simp [*]; done) | fail) [*, foldl_pending, foldl_variant, foldl_nv, foldl_hbm] | exact ⟨rfl, rfl, rfl, rfl⟩
@[simp] theorem State.reductionEnd_keep (s : State) (c h : Nat) (ab : Bool) : (State.reductionEnd s c h ab).pending = s.pending ∧ (State.reductionEnd s c h ab).variant = s.variant ∧ (State.reductionEnd s c h ab).nv = s.nv ∧ (State.reductionEnd s c h ab).hbm = s.hbm := by
  unfold State.reductionEnd
  try dsimp only
  (repeat' split) <;> first | simp (disch := first | ((try intros); (try dsimp only); (repeat' split) <;> simp [*]; done) | fail) [*, foldl_pending, foldl_variant, foldl_nv, foldl_hbm] | exact ⟨rfl, rfl, rfl, rfl⟩
@[simp] theorem State.stopThread_keep (s : State) (c t : Nat) : (State.stopThread s c t).pending = s.pending ∧ (State.stopThread s c t).variant = s.variant ∧ (State.stopThread s c t).nv = s.nv ∧ (State.stopThread s c t).hbm = s.hbm := by
  unfold State.stopThread
  try dsimp only
  (repeat' split) <;> first | simp (disch := first | ((try intros); (try dsimp only); (repeat' split) <;> simp [*]; done) | fail) [*, foldl_pending, foldl_variant, foldl_nv, foldl_hbm] | exact ⟨rfl, rfl, rfl, rfl⟩
@[simp] theorem State.releaseCore_keep (s : State) (pc c : Nat) : (State.releaseCore s pc c).pending = s.pending ∧ (State.releaseCore s pc c).variant = s.variant ∧ (State.releaseCore s pc c).nv = s.nv ∧ (State.releaseCore s pc c).hbm = s.hbm := by
  unfold State.releaseCore
  try dsimp only
  (repeat' split) <;> first | simp (disch := first | ((try intros); (try dsimp only); (repeat' split) <;> simp [*]; done) | fail) [*, foldl_pending, foldl_variant, foldl_nv, foldl_hbm] | exact ⟨rfl, rfl, rfl, rfl⟩
@[simp] theorem State.leaveLines_keep (s : State) (c : Nat) : (State.leaveLines s c).pending = s.pending ∧ (State.leaveLines s c).variant = s.variant ∧ (State.leaveLines s c).nv = s.nv ∧ (State.leaveLines s c).hbm = s.hbm := by
  unfold State.leaveLines
  try dsimp only
  (repeat' split) <;> first | simp (disch := first | ((try intros); (try dsimp only); (repeat' split) <;> simp [*]; done) | fail) [*, foldl_pending, foldl_variant, foldl_nv, foldl_hbm] | exact ⟨rfl, rfl, rfl, rfl⟩
@[simp] theorem State.phaseWrite_keep (s : State) (l : Nat) (secs : List Section) : (State.phaseWrite s l secs).2.pending = s.pending ∧ (State.phaseWrite s l secs).2.variant = s.variant ∧ (State.phaseWrite s l secs).2.nv = s.nv ∧ (State.phaseWrite s l secs).2.hbm = s.hbm := by
  unfold State.phaseWrite
  try dsimp only
  (repeat' split) <;> first | simp (disch := first | ((try intros); (try dsimp only); (repeat' split) <;> simp [*]; done) | fail) [*, foldl_pending, foldl_variant, foldl_nv, foldl_hbm] | exact ⟨rfl, rfl, rfl, rfl⟩
@[simp] theorem State.joinLine_keep (s : State) (b c line : Nat) : (State.joinLine s b c line).pending = s.pending ∧ (State.joinLine s b c line).variant = s.variant ∧ (State.joinLine s b c line).nv = s.nv ∧ (State.joinLine s b c line).hbm = s.hbm := by
  unfold State.joinLine
  try dsimp only
  (repeat' split) <;> first | simp (disch := first | ((try intros); (try dsimp only); (repeat' split) <;> simp [*]; done) | fail) [*, foldl_pending, foldl_variant, foldl_nv, foldl_hbm] | exact ⟨rfl, rfl, rfl, rfl⟩
@[simp] theorem State.phaseDone_keep (s : State) (b x code : Nat) : (State.phaseDone s b x code).pending = s.pending ∧ (State.phaseDone s b x code).variant = s.variant ∧ (State.phaseDone s b x code).nv = s.nv ∧ (State.phaseDone s b x code).hbm = s.hbm := by
  unfold State.phaseDone
  try dsimp only
  (repeat' split) <;> first | simp (disch := first | ((try intros); (try dsimp only); (repeat' split) <;> simp [*]; done) | fail) [*, foldl_pending, foldl_variant, foldl_nv, foldl_hbm] | exact ⟨rfl, rfl, rfl, rfl⟩
theorem upd_courses (s : State) (x) : ({ s with courses := x } : State).pending = s.pending ∧ ({ s with courses := x } : State).variant = s.variant ∧ ({ s with courses := x } : State).nv = s.nv ∧ ({ s with courses := x } : State).hbm = s.hbm := ⟨rfl, rfl, rfl, rfl⟩
@[simp] theorem State.courseRecord_keep (s : State) (bs : List Byte)  : (State.courseRecord s bs).2.pending = s.pending ∧ (State.courseRecord s bs).2.variant = s.variant ∧ (State.courseRecord s bs).2.nv = s.nv ∧ (State.courseRecord s bs).2.hbm = s.hbm := by
  unfold State.courseRecord
  dsimp only
  split
  · exact ⟨rfl, rfl, rfl, rfl⟩
  · exact upd_courses _ _
@[simp] theorem courseRecords_keep (s : State) (y0 : List (List Byte)) : (courseRecords s y0).2.pending = s.pending ∧ (courseRecords s y0).2.variant = s.variant ∧ (courseRecords s y0).2.nv = s.nv ∧ (courseRecords s y0).2.hbm = s.hbm := by
  induction y0 generalizing s <;> rw [courseRecords.eq_def] <;> (try dsimp only) <;> (repeat' split) <;> first | simp (disch := first | ((try intros); (try dsimp only); (repeat' split) <;> simp [*]; done) | fail) [*, foldl_pending, foldl_variant, foldl_nv, foldl_hbm] | exact ⟨rfl, rfl, rfl, rfl⟩
@[simp] theorem State.resight_keep (s : State) (q : Nat) : (State.resight s q).pending = s.pending ∧ (State.resight s q).variant = s.variant ∧ (State.resight s q).nv = s.nv ∧ (State.resight s q).hbm = s.hbm := by
  unfold State.resight
  try dsimp only
  (repeat' split) <;> first | simp (disch := first | ((try intros); (try dsimp only); (repeat' split) <;> simp [*]; done) | fail) [*, foldl_pending, foldl_variant, foldl_nv, foldl_hbm] | exact ⟨rfl, rfl, rfl, rfl⟩
@[simp] theorem State.applyPlan_keep (s : State) (p : Plan) : (State.applyPlan s p).pending = s.pending ∧ (State.applyPlan s p).variant = s.variant ∧ (State.applyPlan s p).nv = s.nv ∧ (State.applyPlan s p).hbm = s.hbm := by
  unfold State.applyPlan
  try dsimp only
  (repeat' split) <;> first | simp (disch := first | ((try intros); (try dsimp only); (repeat' split) <;> simp [*]; done) | fail) [*, foldl_pending, foldl_variant, foldl_nv, foldl_hbm] | exact ⟨rfl, rfl, rfl, rfl⟩
@[simp] theorem State.formPair_keep (s : State) (n : Nat) : (State.formPair s n).pending = s.pending ∧ (State.formPair s n).variant = s.variant ∧ (State.formPair s n).nv = s.nv ∧ (State.formPair s n).hbm = s.hbm := by
  unfold State.formPair
  try dsimp only
  (repeat' split) <;> first | simp (disch := first | ((try intros); (try dsimp only); (repeat' split) <;> simp [*]; done) | fail) [*, foldl_pending, foldl_variant, foldl_nv, foldl_hbm] | exact ⟨rfl, rfl, rfl, rfl⟩
@[simp] theorem State.loadPairs_keep (s : State) (raw : List Nat) : (State.loadPairs s raw).pending = s.pending ∧ (State.loadPairs s raw).variant = s.variant ∧ (State.loadPairs s raw).nv = s.nv ∧ (State.loadPairs s raw).hbm = s.hbm := by
  unfold State.loadPairs
  try dsimp only
  (repeat' split) <;> first | simp (disch := first | ((try intros); (try dsimp only); (repeat' split) <;> simp [*]; done) | fail) [*, foldl_pending, foldl_variant, foldl_nv, foldl_hbm] | exact ⟨rfl, rfl, rfl, rfl⟩
@[simp] theorem State.buSet_keep (s : State) (st : BuSt) (result : Nat) : (State.buSet s st result).pending = s.pending ∧ (State.buSet s st result).variant = s.variant ∧ (State.buSet s st result).nv = s.nv ∧ (State.buSet s st result).hbm = s.hbm := by
  unfold State.buSet
  try dsimp only
  (repeat' split) <;> first | simp (disch := first | ((try intros); (try dsimp only); (repeat' split) <;> simp [*]; done) | fail) [*, foldl_pending, foldl_variant, foldl_nv, foldl_hbm] | exact ⟨rfl, rfl, rfl, rfl⟩
@[simp] theorem State.syncSensors_keep (s : State) (l : List Nat) : (State.syncSensors s l).pending = s.pending ∧ (State.syncSensors s l).variant = s.variant ∧ (State.syncSensors s l).nv = s.nv ∧ (State.syncSensors s l).hbm = s.hbm := by
  unfold State.syncSensors
  try dsimp only
  (repeat' split) <;> first | simp (disch := first | ((try intros); (try dsimp only); (repeat' split) <;> simp [*]; done) | fail) [*, foldl_pending, foldl_variant, foldl_nv, foldl_hbm] | exact ⟨rfl, rfl, rfl, rfl⟩
@[simp] theorem State.resync_keep (s : State) (old : List Byte) : (State.resync s old).pending = s.pending ∧ (State.resync s old).variant = s.variant ∧ (State.resync s old).nv = s.nv ∧ (State.resync s old).hbm = s.hbm := by
  unfold State.resync
  try dsimp only
  (repeat' split) <;> first | simp (disch := first | ((try intros); (try dsimp only); (repeat' split) <;> simp [*]; done) | fail) [*, foldl_pending, foldl_variant, foldl_nv, foldl_hbm] | exact ⟨rfl, rfl, rfl, rfl⟩
@[simp] theorem State.portsProbe_keep (s : State) : (State.portsProbe s).pending = s.pending ∧ (State.portsProbe s).variant = s.variant ∧ (State.portsProbe s).nv = s.nv ∧ (State.portsProbe s).hbm = s.hbm := by
  unfold State.portsProbe
  try dsimp only
  (repeat' split) <;> first | simp (disch := first | ((try intros); (try dsimp only); (repeat' split) <;> simp [*]; done) | fail) [*, foldl_pending, foldl_variant, foldl_nv, foldl_hbm] | exact ⟨rfl, rfl, rfl, rfl⟩
@[simp] theorem State.markUnits_keep (s : State) (again : Bool) : (State.markUnits s again).pending = s.pending ∧ (State.markUnits s again).variant = s.variant ∧ (State.markUnits s again).nv = s.nv ∧ (State.markUnits s again).hbm = s.hbm := by
  unfold State.markUnits
  try dsimp only
  (repeat' split) <;> first | simp (disch := first | ((try intros); (try dsimp only); (repeat' split) <;> simp [*]; done) | fail) [*, foldl_pending, foldl_variant, foldl_nv, foldl_hbm] | exact ⟨rfl, rfl, rfl, rfl⟩
@[simp] theorem State.stageEnter_keep (s : State) (n : Nat) : (State.stageEnter s n).pending = s.pending ∧ (State.stageEnter s n).variant = s.variant ∧ (State.stageEnter s n).nv = s.nv ∧ (State.stageEnter s n).hbm = s.hbm := by
  unfold State.stageEnter
  try dsimp only
  (repeat' split) <;> first | simp (disch := first | ((try intros); (try dsimp only); (repeat' split) <;> simp [*]; done) | fail) [*, foldl_pending, foldl_variant, foldl_nv, foldl_hbm] | exact ⟨rfl, rfl, rfl, rfl⟩
@[simp] theorem State.stageStart_keep (s : State) (n : Nat) : (State.stageStart s n).pending = s.pending ∧ (State.stageStart s n).variant = s.variant ∧ (State.stageStart s n).nv = s.nv ∧ (State.stageStart s n).hbm = s.hbm := by
  unfold State.stageStart
  try dsimp only
  (repeat' split) <;> first | simp (disch := first | ((try intros); (try dsimp only); (repeat' split) <;> simp [*]; done) | fail) [*, foldl_pending, foldl_variant, foldl_nv, foldl_hbm] | exact ⟨rfl, rfl, rfl, rfl⟩
@[simp] theorem State.stagePass_keep (s : State) (result : Nat) : (State.stagePass s result).pending = s.pending ∧ (State.stagePass s result).variant = s.variant ∧ (State.stagePass s result).nv = s.nv ∧ (State.stagePass s result).hbm = s.hbm := by
  unfold State.stagePass
  try dsimp only
  (repeat' split) <;> first | simp (disch := first | ((try intros); (try dsimp only); (repeat' split) <;> simp [*]; done) | fail) [*, foldl_pending, foldl_variant, foldl_nv, foldl_hbm] | exact ⟨rfl, rfl, rfl, rfl⟩
@[simp] theorem State.stageReport_keep (s : State) (bs : List Byte) : (State.stageReport s bs).2.pending = s.pending ∧ (State.stageReport s bs).2.variant = s.variant ∧ (State.stageReport s bs).2.nv = s.nv ∧ (State.stageReport s bs).2.hbm = s.hbm := by
  unfold State.stageReport
  try dsimp only
  (repeat' split) <;> first | simp (disch := first | ((try intros); (try dsimp only); (repeat' split) <;> simp [*]; done) | fail) [*, foldl_pending, foldl_variant, foldl_nv, foldl_hbm] | exact ⟨rfl, rfl, rfl, rfl⟩
@[simp] theorem State.acceptReport_keep (s : State) : (State.acceptReport s).pending = s.pending ∧ (State.acceptReport s).variant = s.variant ∧ (State.acceptReport s).nv = s.nv ∧ (State.acceptReport s).hbm = s.hbm := by
  unfold State.acceptReport
  try dsimp only
  (repeat' split) <;> first | simp (disch := first | ((try intros); (try dsimp only); (repeat' split) <;> simp [*]; done) | fail) [*, foldl_pending, foldl_variant, foldl_nv, foldl_hbm] | exact ⟨rfl, rfl, rfl, rfl⟩
@[simp] theorem State.buRefuse_keep (s : State) (why : Nat) : (State.buRefuse s why).pending = s.pending ∧ (State.buRefuse s why).variant = s.variant ∧ (State.buRefuse s why).nv = s.nv ∧ (State.buRefuse s why).hbm = s.hbm := by
  unfold State.buRefuse
  try dsimp only
  (repeat' split) <;> first | simp (disch := first | ((try intros); (try dsimp only); (repeat' split) <;> simp [*]; done) | fail) [*, foldl_pending, foldl_variant, foldl_nv, foldl_hbm] | exact ⟨rfl, rfl, rfl, rfl⟩
@[simp] theorem State.buGo_keep (s : State) : (State.buGo s).pending = s.pending ∧ (State.buGo s).variant = s.variant ∧ (State.buGo s).nv = s.nv ∧ (State.buGo s).hbm = s.hbm := by
  unfold State.buGo
  try dsimp only
  (repeat' split) <;> first | simp (disch := first | ((try intros); (try dsimp only); (repeat' split) <;> simp [*]; done) | fail) [*, foldl_pending, foldl_variant, foldl_nv, foldl_hbm] | exact ⟨rfl, rfl, rfl, rfl⟩
@[simp] theorem State.buCtl_keep (s : State) (v : Nat) : (State.buCtl s v).pending = s.pending ∧ (State.buCtl s v).variant = s.variant ∧ (State.buCtl s v).nv = s.nv ∧ (State.buCtl s v).hbm = s.hbm := by
  unfold State.buCtl
  try dsimp only
  (repeat' split) <;> first | simp (disch := first | ((try intros); (try dsimp only); (repeat' split) <;> simp [*]; done) | fail) [*, foldl_pending, foldl_variant, foldl_nv, foldl_hbm] | exact ⟨rfl, rfl, rfl, rfl⟩
@[simp] theorem State.clusterFails_keep (s : State) (cause : Nat) (ks : List Nat) : (State.clusterFails s cause ks).pending = s.pending ∧ (State.clusterFails s cause ks).variant = s.variant ∧ (State.clusterFails s cause ks).nv = s.nv ∧ (State.clusterFails s cause ks).hbm = s.hbm := by
  unfold State.clusterFails
  try dsimp only
  (repeat' split) <;> first | simp (disch := first | ((try intros); (try dsimp only); (repeat' split) <;> simp [*]; done) | fail) [*, foldl_pending, foldl_variant, foldl_nv, foldl_hbm] | exact ⟨rfl, rfl, rfl, rfl⟩
@[simp] theorem State.alignDie_keep (s : State) (d : Nat) : (State.alignDie s d).pending = s.pending ∧ (State.alignDie s d).variant = s.variant ∧ (State.alignDie s d).nv = s.nv ∧ (State.alignDie s d).hbm = s.hbm := by
  unfold State.alignDie
  try dsimp only
  (repeat' split) <;> first | simp (disch := first | ((try intros); (try dsimp only); (repeat' split) <;> simp [*]; done) | fail) [*, foldl_pending, foldl_variant, foldl_nv, foldl_hbm] | exact ⟨rfl, rfl, rfl, rfl⟩
@[simp] theorem State.admitFitted_keep (s : State) (fit : List (Fin 12 × Nat)) : (State.admitFitted s fit).pending = s.pending ∧ (State.admitFitted s fit).variant = s.variant ∧ (State.admitFitted s fit).nv = s.nv ∧ (State.admitFitted s fit).hbm = s.hbm := by
  unfold State.admitFitted
  try dsimp only
  (repeat' split) <;> first | simp (disch := first | ((try intros); (try dsimp only); (repeat' split) <;> simp [*]; done) | fail) [*, foldl_pending, foldl_variant, foldl_nv, foldl_hbm] | exact ⟨rfl, rfl, rfl, rfl⟩
@[simp] theorem State.centreBands_keep (s : State) : (State.centreBands s).pending = s.pending ∧ (State.centreBands s).variant = s.variant ∧ (State.centreBands s).nv = s.nv ∧ (State.centreBands s).hbm = s.hbm := by
  unfold State.centreBands
  try dsimp only
  (repeat' split) <;> first | simp (disch := first | ((try intros); (try dsimp only); (repeat' split) <;> simp [*]; done) | fail) [*, foldl_pending, foldl_variant, foldl_nv, foldl_hbm] | exact ⟨rfl, rfl, rfl, rfl⟩
@[simp] theorem State.trainLink_keep (s : State) (trained : List (LinkId × BitVec 16 × BitVec 16)) (l : Nat) : (State.trainLink s trained l).pending = s.pending ∧ (State.trainLink s trained l).variant = s.variant ∧ (State.trainLink s trained l).nv = s.nv ∧ (State.trainLink s trained l).hbm = s.hbm := by
  unfold State.trainLink
  try dsimp only
  (repeat' split) <;> first | simp (disch := first | ((try intros); (try dsimp only); (repeat' split) <;> simp [*]; done) | fail) [*, foldl_pending, foldl_variant, foldl_nv, foldl_hbm] | exact ⟨rfl, rfl, rfl, rfl⟩
@[simp] theorem State.giveAll_keep (s : State) (dest : Nat) : (State.giveAll s dest).pending = s.pending ∧ (State.giveAll s dest).variant = s.variant ∧ (State.giveAll s dest).nv = s.nv ∧ (State.giveAll s dest).hbm = s.hbm := by
  unfold State.giveAll
  try dsimp only
  (repeat' split) <;> first | simp (disch := first | ((try intros); (try dsimp only); (repeat' split) <;> simp [*]; done) | fail) [*, foldl_pending, foldl_variant, foldl_nv, foldl_hbm] | exact ⟨rfl, rfl, rfl, rfl⟩
@[simp] theorem State.survivors_keep (s : State)  : (State.survivors s).pending = s.pending ∧ (State.survivors s).variant = s.variant ∧ (State.survivors s).nv = s.nv := by unfold State.survivors; exact ⟨rfl, rfl, rfl⟩
@[simp] theorem State.packageReset_keep (s : State)  : (State.packageReset s).pending = s.pending ∧ (State.packageReset s).variant = s.variant ∧ (State.packageReset s).nv = s.nv := by
  unfold State.packageReset
  try dsimp only
  (repeat' split) <;> first | simp (disch := first | ((try intros); (try dsimp only); (repeat' split) <;> simp [*]; done) | fail) [*, foldl_pending, foldl_variant, foldl_nv, foldl_hbm] | exact ⟨rfl, rfl, rfl⟩
@[simp] theorem State.endOps_keep (s : State) : (State.endOps s).pending = s.pending ∧ (State.endOps s).variant = s.variant ∧ (State.endOps s).nv = s.nv ∧ (State.endOps s).hbm = s.hbm := by
  unfold State.endOps
  try dsimp only
  (repeat' split) <;> first | simp (disch := first | ((try intros); (try dsimp only); (repeat' split) <;> simp [*]; done) | fail) [*, foldl_pending, foldl_variant, foldl_nv, foldl_hbm] | exact ⟨rfl, rfl, rfl, rfl⟩
@[simp] theorem State.vinReset_keep (s0 : State)  : (State.vinReset s0).pending = s0.pending ∧ (State.vinReset s0).variant = s0.variant ∧ (State.vinReset s0).nv = s0.nv := by
  unfold State.vinReset
  try dsimp only
  (repeat' split) <;> first | simp (disch := first | ((try intros); (try dsimp only); (repeat' split) <;> simp [*]; done) | fail) [*, foldl_pending, foldl_variant, foldl_nv, foldl_hbm] | exact ⟨rfl, rfl, rfl⟩
@[simp] theorem State.portCut_keep (s : State) (p : Nat) : (State.portCut s p).pending = s.pending ∧ (State.portCut s p).variant = s.variant ∧ (State.portCut s p).nv = s.nv ∧ (State.portCut s p).hbm = s.hbm := by
  unfold State.portCut
  try dsimp only
  (repeat' split) <;> first | simp (disch := first | ((try intros); (try dsimp only); (repeat' split) <;> simp [*]; done) | fail) [*, foldl_pending, foldl_variant, foldl_nv, foldl_hbm] | exact ⟨rfl, rfl, rfl, rfl⟩
@[simp] theorem State.onInd_keep (s : State) (f : Indirect → Indirect) : (State.onInd s f).pending = s.pending ∧ (State.onInd s f).variant = s.variant ∧ (State.onInd s f).nv = s.nv ∧ (State.onInd s f).hbm = s.hbm := by
  unfold State.onInd
  try dsimp only
  (repeat' split) <;> first | simp (disch := first | ((try intros); (try dsimp only); (repeat' split) <;> simp [*]; done) | fail) [*, foldl_pending, foldl_variant, foldl_nv, foldl_hbm] | exact ⟨rfl, rfl, rfl, rfl⟩
@[simp] theorem State.indAdvance_keep (s : State) (n : Nat) : (State.indAdvance s n).pending = s.pending ∧ (State.indAdvance s n).variant = s.variant ∧ (State.indAdvance s n).nv = s.nv ∧ (State.indAdvance s n).hbm = s.hbm := by
  unfold State.indAdvance
  try dsimp only
  (repeat' split) <;> first | simp (disch := first | ((try intros); (try dsimp only); (repeat' split) <;> simp [*]; done) | fail) [*, foldl_pending, foldl_variant, foldl_nv, foldl_hbm] | exact ⟨rfl, rfl, rfl, rfl⟩
@[simp] theorem State.indError_keep (s : State) : (State.indError s).pending = s.pending ∧ (State.indError s).variant = s.variant ∧ (State.indError s).nv = s.nv ∧ (State.indError s).hbm = s.hbm := by
  unfold State.indError
  try dsimp only
  (repeat' split) <;> first | simp (disch := first | ((try intros); (try dsimp only); (repeat' split) <;> simp [*]; done) | fail) [*, foldl_pending, foldl_variant, foldl_nv, foldl_hbm] | exact ⟨rfl, rfl, rfl, rfl⟩
@[simp] theorem State.indRead_keep (s : State) (eight : Bool) : (State.indRead s eight).2.pending = s.pending ∧ (State.indRead s eight).2.variant = s.variant ∧ (State.indRead s eight).2.nv = s.nv ∧ (State.indRead s eight).2.hbm = s.hbm := by
  unfold State.indRead
  try dsimp only
  (repeat' split) <;> first | simp (disch := first | ((try intros); (try dsimp only); (repeat' split) <;> simp [*]; done) | fail) [*, foldl_pending, foldl_variant, foldl_nv, foldl_hbm] | exact ⟨rfl, rfl, rfl, rfl⟩
@[simp] theorem State.indWrite_keep (s : State) (v : Nat) (eight : Bool) : (State.indWrite s v eight).pending = s.pending ∧ (State.indWrite s v eight).variant = s.variant ∧ (State.indWrite s v eight).nv = s.nv ∧ (State.indWrite s v eight).hbm = s.hbm := by
  unfold State.indWrite
  try dsimp only
  (repeat' split) <;> first | simp (disch := first | ((try intros); (try dsimp only); (repeat' split) <;> simp [*]; done) | fail) [*, foldl_pending, foldl_variant, foldl_nv, foldl_hbm] | exact ⟨rfl, rfl, rfl, rfl⟩
theorem State.wideReg_keep {s : State} {f : Nat} {p : BarPlace} {old : Nat} {put : Nat → State} (h : s.wideReg f p = some (old, put)) (v : Nat) :
    (put v).pending = s.pending ∧ (put v).variant = s.variant ∧ (put v).nv = s.nv ∧ (put v).hbm = s.hbm := by
  unfold State.wideReg at h
  (repeat' split at h) <;> simp only [reduceCtorEq, Option.some.injEq, Prod.mk.injEq] at h <;> rw [← h.2] <;> simp
@[simp] theorem State.msixWrite_keep (s : State) (f o v : Nat) : (State.msixWrite s f o v).pending = s.pending ∧ (State.msixWrite s f o v).variant = s.variant ∧ (State.msixWrite s f o v).nv = s.nv ∧ (State.msixWrite s f o v).hbm = s.hbm := by
  unfold State.msixWrite
  try dsimp only
  (repeat' split) <;> first | simp (disch := first | ((try intros); (try dsimp only); (repeat' split) <;> simp [*]; done) | fail) [*, foldl_pending, foldl_variant, foldl_nv, foldl_hbm] | exact ⟨rfl, rfl, rfl, rfl⟩
@[simp] theorem State.berthPageWrite_keep (s : State) (f b o v : Nat) : (State.berthPageWrite s f b o v).pending = s.pending ∧ (State.berthPageWrite s f b o v).variant = s.variant ∧ (State.berthPageWrite s f b o v).nv = s.nv ∧ (State.berthPageWrite s f b o v).hbm = s.hbm := by
  unfold State.berthPageWrite
  try dsimp only
  (repeat' split) <;> first | simp (disch := first | ((try intros); (try dsimp only); (repeat' split) <;> simp [*]; done) | fail) [*, foldl_pending, foldl_variant, foldl_nv, foldl_hbm] | exact ⟨rfl, rfl, rfl, rfl⟩
@[simp] theorem State.write32_keep (s : State) (f : Nat) (p : BarPlace) (v : Nat) : (State.write32 s f p v).pending = s.pending ∧ (State.write32 s f p v).variant = s.variant ∧ (State.write32 s f p v).nv = s.nv ∧ (State.write32 s f p v).hbm = s.hbm := by
  unfold State.write32
  try dsimp only
  (repeat' split) <;> first | simp (disch := first | ((try intros); (try dsimp only); (repeat' split) <;> simp [*]; done) | fail) [*, foldl_pending, foldl_variant, foldl_nv, foldl_hbm] | exact ⟨rfl, rfl, rfl, rfl⟩
@[simp] theorem State.onFn_keep (s : State) (f : Nat) (g : Fn → Fn) : (State.onFn s f g).pending = s.pending ∧ (State.onFn s f g).variant = s.variant ∧ (State.onFn s f g).nv = s.nv ∧ (State.onFn s f g).hbm = s.hbm := by
  unfold State.onFn
  try dsimp only
  (repeat' split) <;> first | simp (disch := first | ((try intros); (try dsimp only); (repeat' split) <;> simp [*]; done) | fail) [*, foldl_pending, foldl_variant, foldl_nv, foldl_hbm] | exact ⟨rfl, rfl, rfl, rfl⟩
@[simp] theorem State.writeHalf_keep (s : State) (f off v : Nat)  : (State.writeHalf s f off v).variant = s.variant ∧ (State.writeHalf s f off v).nv = s.nv ∧ (State.writeHalf s f off v).hbm = s.hbm := by
  unfold State.writeHalf
  dsimp only
  split
  · simp
  · split
    · next h => split at h <;> first | (have g := State.wideReg_keep h; simp [g]) | simp at h
    · simp
@[simp] theorem State.writeWide_keep (s : State) (f off v : Nat)  : (State.writeWide s f off v).variant = s.variant ∧ (State.writeWide s f off v).nv = s.nv ∧ (State.writeWide s f off v).hbm = s.hbm := by
  unfold State.writeWide
  split
  · next h => have g := State.wideReg_keep h; simp [g]
  · split <;> simp
@[simp] theorem State.read32_keep (s : State) (f off : Nat) : (State.read32 s f off).2.pending = s.pending ∧ (State.read32 s f off).2.variant = s.variant ∧ (State.read32 s f off).2.nv = s.nv ∧ (State.read32 s f off).2.hbm = s.hbm := by
  unfold State.read32
  try dsimp only
  (repeat' split) <;> first | simp (disch := first | ((try intros); (try dsimp only); (repeat' split) <;> simp [*]; done) | fail) [*, foldl_pending, foldl_variant, foldl_nv, foldl_hbm] | exact ⟨rfl, rfl, rfl, rfl⟩
@[simp] theorem State.aptRefused_keep (s : State) (f a n st : Nat) (read : Option (Nat × Nat)) : (State.aptRefused s f a n st read).pending = s.pending ∧ (State.aptRefused s f a n st read).variant = s.variant ∧ (State.aptRefused s f a n st read).nv = s.nv ∧ (State.aptRefused s f a n st read).hbm = s.hbm := by
  unfold State.aptRefused
  try dsimp only
  (repeat' split) <;> first | simp (disch := first | ((try intros); (try dsimp only); (repeat' split) <;> simp [*]; done) | fail) [*, foldl_pending, foldl_variant, foldl_nv, foldl_hbm] | exact ⟨rfl, rfl, rfl, rfl⟩
@[simp] theorem State.aptSend_keep (s : State) (f a n : Nat) (read : Option (Nat × Nat)) (bs : List Byte)  : (State.aptSend s f a n read bs).pending = s.pending ∧ (State.aptSend s f a n read bs).variant = s.variant ∧ (State.aptSend s f a n read bs).nv = s.nv ∧ (State.aptSend s f a n read bs).hbm = s.hbm := by
  unfold State.aptSend
  try dsimp only
  (repeat' split) <;> (try have h := State.submit_keep (by assumption)) <;> simp [*]
@[simp] theorem aptReadAll_keep (f a n : Nat) (s : State) : (aptReadAll f a n s).pending = s.pending ∧ (aptReadAll f a n s).variant = s.variant ∧ (aptReadAll f a n s).nv = s.nv ∧ (aptReadAll f a n s).hbm = s.hbm := by
  unfold aptReadAll
  try dsimp only
  (repeat' split) <;> first | simp (disch := first | ((try intros); (try dsimp only); (repeat' split) <;> simp [*]; done) | fail) [*, foldl_pending, foldl_variant, foldl_nv, foldl_hbm] | exact ⟨rfl, rfl, rfl, rfl⟩
@[simp] theorem State.moduleNotice_keep (s : State) (m event : Nat) : (State.moduleNotice s m event).pending = s.pending ∧ (State.moduleNotice s m event).variant = s.variant ∧ (State.moduleNotice s m event).nv = s.nv ∧ (State.moduleNotice s m event).hbm = s.hbm := by
  unfold State.moduleNotice
  try dsimp only
  (repeat' split) <;> first | simp (disch := first | ((try intros); (try dsimp only); (repeat' split) <;> simp [*]; done) | fail) [*, foldl_pending, foldl_variant, foldl_nv, foldl_hbm] | exact ⟨rfl, rfl, rfl, rfl⟩
@[simp] theorem State.releaseModule_keep (s : State) (m : Nat) (trims : List (BitVec 32 × Byte)) : (State.releaseModule s m trims).pending = s.pending ∧ (State.releaseModule s m trims).variant = s.variant ∧ (State.releaseModule s m trims).nv = s.nv ∧ (State.releaseModule s m trims).hbm = s.hbm := by
  unfold State.releaseModule
  try dsimp only
  (repeat' split) <;> first | simp (disch := first | ((try intros); (try dsimp only); (repeat' split) <;> simp [*]; done) | fail) [*, foldl_pending, foldl_variant, foldl_nv, foldl_hbm] | exact ⟨rfl, rfl, rfl, rfl⟩
@[simp] theorem State.admitModule_keep (s : State) (m serial : Nat) (trims : List (BitVec 32 × Byte)) : (State.admitModule s m serial trims).pending = s.pending ∧ (State.admitModule s m serial trims).variant = s.variant ∧ (State.admitModule s m serial trims).nv = s.nv ∧ (State.admitModule s m serial trims).hbm = s.hbm := by
  unfold State.admitModule
  try dsimp only
  (repeat' split) <;> first | simp (disch := first | ((try intros); (try dsimp only); (repeat' split) <;> simp [*]; done) | fail) [*, foldl_pending, foldl_variant, foldl_nv, foldl_hbm] | exact ⟨rfl, rfl, rfl, rfl⟩
@[simp] theorem State.startBist_keep (s : State) (cs : List Nat) : (State.startBist s cs).pending = s.pending ∧ (State.startBist s cs).variant = s.variant ∧ (State.startBist s cs).nv = s.nv ∧ (State.startBist s cs).hbm = s.hbm := by
  unfold State.startBist
  try dsimp only
  (repeat' split) <;> first | simp (disch := first | ((try intros); (try dsimp only); (repeat' split) <;> simp [*]; done) | fail) [*, foldl_pending, foldl_variant, foldl_nv, foldl_hbm] | exact ⟨rfl, rfl, rfl, rfl⟩
@[simp] theorem State.calProcedure_keep (s : State) (c : Cmd) (cores : List Nat) (n : Nat)  : (State.calProcedure s c cores n).pending = s.pending ∧ (State.calProcedure s c cores n).variant = s.variant ∧ (State.calProcedure s c cores n).nv = s.nv := by
  unfold State.calProcedure
  try dsimp only
  (repeat' split) <;> first | simp (disch := first | ((try intros); (try dsimp only); (repeat' split) <;> simp [*]; done) | fail) [*, foldl_pending, foldl_variant, foldl_nv, foldl_hbm] | exact ⟨rfl, rfl, rfl⟩
@[simp] theorem State.releaseWaiting_keep (s : State) (c : Nat) : (State.releaseWaiting s c).pending = s.pending ∧ (State.releaseWaiting s c).variant = s.variant ∧ (State.releaseWaiting s c).nv = s.nv ∧ (State.releaseWaiting s c).hbm = s.hbm := by
  unfold State.releaseWaiting
  try dsimp only
  (repeat' split) <;> first | simp (disch := first | ((try intros); (try dsimp only); (repeat' split) <;> simp [*]; done) | fail) [*, foldl_pending, foldl_variant, foldl_nv, foldl_hbm] | exact ⟨rfl, rfl, rfl, rfl⟩
@[simp] theorem IssueV.finish_keep (i : IssueV) (s : State) (x : Nat) (fl : FFlags) : (IssueV.finish i s x fl).pending = s.pending ∧ (IssueV.finish i s x fl).variant = s.variant ∧ (IssueV.finish i s x fl).nv = s.nv ∧ (IssueV.finish i s x fl).hbm = s.hbm := by
  unfold IssueV.finish
  try dsimp only
  (repeat' split) <;> first | simp (disch := first | ((try intros); (try dsimp only); (repeat' split) <;> simp [*]; done) | fail) [*, foldl_pending, foldl_variant, foldl_nv, foldl_hbm] | exact ⟨rfl, rfl, rfl, rfl⟩
end Sys2Proof.Machine
end

