-- ==== Sys2Proof/Laws/Memory.lean ====
section
/-! SUPPORT. Memory operations keep the canonical form, and what HBM reads after each of them (spec/10_memory.md R246, R262, R266). -/
namespace Sys2Proof.Machine

theorem memWf_hbmStore (s : State) (l : Nat) (bs : List Byte) (h : memWf s.hbm = true) : memWf (s.hbmStore l bs).hbm = true :=
  memWf_memWrite bs s.hbm l h
theorem memWf_hbmError (s : State) (l : Nat) (e : HbmErr) (h : memWf s.hbm = true) : memWf (s.hbmError l e).2.hbm = true := by
  unfold State.hbmError
  dsimp only
  split
  · exact h
  · dsimp only [State.report]; split <;> exact h
  · dsimp only [State.report]; exact memWf_memClear _ _ _ (by split <;> exact h)
theorem memWf_hbmErrors (s : State) (es : List HbmErr) (l : List Nat) (h : memWf s.hbm = true) : memWf (hbmErrors s es l).2.hbm = true := by
  induction l generalizing s es with
  | nil => exact h
  | cons w l ih => exact ih _ _ (memWf_hbmError s _ _ h)
theorem hbm_sramCheck (s : State) (c row : Nat) (e : Ecc) : (s.sramCheck c row e).2.hbm = s.hbm := by
  unfold State.sramCheck
  split
  · rfl
  · dsimp only; split <;> rfl
  · rfl
theorem hbm_sramChecks (s : State) (c row : Nat) (es : List Ecc) : (sramChecks s c row es).2.hbm = s.hbm := by
  induction es generalizing s row with
  | nil => rfl
  | cons e l ih =>
    unfold sramChecks
    dsimp only
    split
    · exact (ih _ _).trans (hbm_sramCheck s c row e)
    · exact hbm_sramCheck s c row e
theorem memWf_readCheck (s : State) (l n : Nat) (e : ReadErr) (h : memWf s.hbm = true) : memWf (s.readCheck l n e).2.hbm = true := by
  unfold State.readCheck
  split
  · exact memWf_hbmErrors s _ _ h
  · split
    · rw [hbm_sramChecks]; exact h
    · exact h
  · exact h
theorem memWf_granuleScrubComplete (s t : State) (g : GranuleId) (h : memWf s.hbm = true)
    (ht : execGranuleScrubComplete g s = .next t) : memWf t.hbm = true := by
  unfold execGranuleScrubComplete at ht
  dsimp only at ht
  split at ht
  · split at ht <;> cases ht
    · exact h
    · exact memWf_memClear _ _ _ h
  · cases ht; exact h

/-- A store to HBM changes the bytes it covers and no other. -/
theorem memGet_hbmStore (s : State) (l : Nat) (bs : List Byte) (a : Nat) :
    memGet (s.hbmStore l bs).hbm a = memGet (memWrite s.hbm l bs) a := rfl
theorem memGet_hbmStore_out (s : State) (l : Nat) (bs : List Byte) (a : Nat) (h : a < l ∨ l + bs.length ≤ a) :
    memGet (s.hbmStore l bs).hbm a = memGet s.hbm a := by
  rw [memGet_hbmStore, memGet_memWrite]
  have : ¬ (l ≤ a ∧ a < l + bs.length) := by omega
  simp [this]

end Sys2Proof.Machine
end

