-- ==== Sys2Proof/Tests/Slice0.lean ====
section
/-! SUPPORT. Tests: ill-formed commands, instruction words and results worked out from the spec's tables, and for every obligation with hypotheses
the states and operands that meet them. -/
namespace Sys2Proof.Machine.Tests
set_option maxRecDepth 100000

/-! Small states and operands. -/

/-- Barn 0, which owns every cluster, after ready. -/
def barn0 : Barn := ⟨16, 65536, 65536, true, [], 0, 1, 0⟩
def base : State := { State.reset with ready := true, selfValid := true, selfNum := 64, barns := [(0, some barn0)], clusterUp := [0, 1, 17, 255], bu := { BringUp.init with stage := 9, st := .ready }, helm := { Helm.init with st := .paired } }
/-- Core 5 runs, with thread 3 as given. -/
def th (h : Thread) : State := { base with cores := [(5, { Core.init with power := .running, threads := [(3, h)] })] }
def run (g : Map (BitVec 64)) : Thread := { Thread.init with st := .running, g := g, pc := 16 }
def ia (d a b : Nat) : IssueA := ⟨5, 3, false, 0, BitVec.ofNat 5 d, BitVec.ofNat 5 a, BitVec.ofNat 5 b⟩
def ii (d a imm : Nat) : IssueI := ⟨5, 3, false, 0, BitVec.ofNat 5 d, BitVec.ofNat 5 a, BitVec.ofNat 12 imm⟩
def im (d a sz off : Nat) : IssueM := ⟨5, 3, false, 0, BitVec.ofNat 5 d, BitVec.ofNat 5 a, BitVec.ofNat 3 sz, BitVec.ofNat 9 off⟩
def ik (d imm : Nat) : IssueK := ⟨5, 3, false, 0, BitVec.ofNat 5 d, 0, BitVec.ofNat 32 imm⟩
/-- The instruction of site `x` stands at offset 16 of its core's instruction store. -/
def w (x : Site) (s : State) : State :=
  s.onCore x.c fun k => { k with istore := memWrite k.istore 16 (leBytes 4 x.word0 ++ if x.words = 2 then leBytes 4 x.word1 else []) }
/-- Core 5 as given. -/
def pk (k : Core) : State := { base with cores := [(5, k)] }
def co (h : Thread) : Core := { Core.init with power := .running, threads := [(3, h)] }
def c0 (h : Thread) : State := { base with cores := [(5, { Core.init with power := .running, threads := [(0, h)] })] }
def iv (vd va vb gs ety imm : Nat) : IssueV := ⟨5, 3, false, 0, BitVec.ofNat 6 vd, BitVec.ofNat 6 va, BitVec.ofNat 6 vb, 0, BitVec.ofNat 5 gs, 0, false, BitVec.ofNat 5 ety, BitVec.ofNat 12 imm⟩
def ij (off : Nat) : IssueJ := ⟨5, 3, false, 0, BitVec.ofNat 22 off⟩
def vrun (g : Map (BitVec 64)) : Thread := { run g with vmap := [7, 8, 9] }
def vk : Core := { co (vrun [(4, 64)]) with vregs := [(7, 0x3C00_0000), (8, 0x1234567890)] }
def i0 (d a b : Nat) : IssueA := ⟨5, 0, false, 0, BitVec.ofNat 5 d, BitVec.ofNat 5 a, BitVec.ofNat 5 b⟩
def la : Launch := ⟨7, 3, 0, 0, 0, false⟩
def lk : Core := { co (run [(2, 7)]) with launchSeq := 8, queue := [la] }
def pkt (op dst src addr : Nat) (pl : List Byte) : Pkt := (mkPkt op 2 dst src 0 7 addr pl).seal
def hb : State := { base with granules := [(0, ⟨.owned 0, false, 0⟩)], hbm := [(64, 9)] }
def bt : Beat := ⟨64, 5, true, false, some (pkt 0x02 (coordOf 64 5) (coordOf 64 6) 0x20000500040 [1])⟩
def bq : Beat := ⟨64, 5, false, false, none⟩
/-- A context at core 5, tag 9. -/
def sx (st : ShStage) (desc : Nat) : ShCtx := ⟨5, 9, desc, 5, 15, 0, st, [], [], [], false⟩
def ss (x : ShCtx) : State := { pk { co (run []) with handles := [(15, .pending)] } with sheaf := [x] }
def sw (op : Nat) (pl : List Byte) : Pkt := (mkPkt op 3 (coordOf 64 5) (coordOf 64 6) 0 7 9 pl).seal
def rq : Req := ⟨7, .load 3 1 4 true, 0x40, 20, false, false, true, 0, true, 0, false, [⟨7, memEp 64 0, 0⟩], 0, []⟩
def sd : ShSent := ⟨7, false, [], 1, [], sw 0x02 []⟩
def cdx : Nat := 64 * 2 ^ 64 + 999 * 2 ^ 192 + 2 ^ 42 + 2 ^ 51 + 0x100 * 2 ^ 320
def tr : Tracker := ⟨cdx, 5, 0, [], 0, 0, false, [], 0, 0⟩
def tq : Tracker := ⟨cdx + 2 ^ 31 + 2 ^ 30, 5, 0, [], 0, 0, true, [], 77, 5⟩
def qs : State := { base with queues := [(0, ⟨1, 0x10000, 0xFFFFFFFF, 0x0E⟩)] }
def hs : State := { hb with gateways := [(0, { Gateway.init with trackers := [(0, some tr)] })] }
def sub : Pkt × List Pkt × State :=
  match hs.submit (hs.segPkt 0 0 0 0 cdx 64 0 1000 (hs.localRead 64 1000)) true with
  | .inr (q :: ps, u) => (q, ps, u)
  | _ => (pkt 0 0 0 0 [], [], hs)
def pt (e : EdgePort) : State := { base with ports := [(71, e)] }
def up : EdgePort := { EdgePort.init with st := .up, peer := 70, peerPort := 3, peerValid := true, keyed := true, digest := 9 }
def wp (addr : Nat) (l : List Nat) : Pkt := (mkPkt 0x30 6 (memEp 64 0) (memEp 70 0) 0 0 addr (l.flatMap (leBytes 4))).seal
def eq : QPkt := ⟨pkt 0x02 (memEp 70 0) (coordOf 64 5) 64 [1], none⟩
def es : State := { pt { up with queue := [eq], credit := [(3, 1), (4, 1), (5, 1)] } with plan := [(632, 2)] }
def esArb : ArbState := match es.txPick 71 with
  | some r => r.2
  | none => ⟨[], [], [], [], []⟩
def ef (kind seq : Nat) : EdgeFrame := ⟨kind, seq, 0, 0, false, false, 15, 0, 0, []⟩
def lc (kind pkg port : Nat) : LinkControl := ⟨kind, false, false, pkg, port, 0, 0, 0, 0, 9, 0, false, 0, 9⟩
def sp (x : Steer) : State := { base with steers := [(0, x)] }
def pe (dark : Bool) : PathEntry := ⟨3, 35, dark⟩
def lk0 : Link := { Link.init with st := .live, mask := 0xFFFF, rx := some 35 }
def cs (x : Link) (ph : EntryPh) (dark : Bool) : State :=
  { sp { Steer.init with cur := some (⟨1, false, none⟩, [⟨pe dark, ph⟩]) } with links := [(3, x)] }
def opx (num opcode st : Nat) (args : List Byte) : Op := ⟨num, opcode, 256, 0, st, 0, 0, 0, 0, 0, 0, false, 0, 0, 0, 0, args, [], none⟩
def mo : Module := { Module.init with fitted := true, admitted := true }
def r0 : PhaseRun := ⟨la, 0, 0, 0, [], 0, 0, [], 0, 0, [], []⟩
def bad4 : HbmErr := [(0, 1), (1, 1), (2, 1), (3, 1)]
theorem sum7 : ∀ cr n, (State.core base 5).ctr cr n + sumTo [(true, 3, 7)] cr n ≤ 65535 := by
  intro cr n; cases cr <;> by_cases h : 3 = n <;> simp [sumTo, h, Core.ctr, State.core, base, State.reset, Core.init, tget]
def ra1 : ReadAhead := ⟨0, 255, 0, true, 1, 0, []⟩
def q12 : QPkt := ⟨{ pkt 0x02 (memEp 70 0) (coordOf 64 5) 64 [1] with tc := 3, lvl := 3 }, none⟩
def lks (l : List (Nat × Link)) : State := { base with links := l }
def sen (n : Nat) (x : Sensor) : State := { base with sensors := [(n, x)] }
def sl (x : Slot) : State := { base with berths := [(256, { Berth.init with slots := [(6, x)] })] }
def reqBytes (op len akind bufLen statusAddr buf : Nat) (pl : List Byte) : List Byte :=
  leBytes 32 (packFields [(16, op), (9, len), (7, 0), (32, 0x11223344), (2, akind), (1, 0), (29, 0), (32, bufLen), (64, statusAddr), (64, buf)]) ++ pl
/-- A host's request at slot 6 of berth `b`, and the state in which it is served. -/
def cm (b who op akind : Nat) (pl : List Byte) : Cmd := parseCmd b who (reqBytes op pl.length akind 65536 0 0x40 pl)
def sv (s : State) (b who op akind : Nat) (pl : List Byte) : State :=
  s.setBerth b { Berth.init with slots := [(6, ⟨.serving, who, false, reqBytes op pl.length akind 65536 0 0x40 pl, none⟩)] }
def tid : Nat := idThread 0 (coordOf 64 5) 0
def cb (b who op akind buf : Nat) (pl : List Byte) : Cmd := parseCmd b who (reqBytes op pl.length akind 0 0 buf pl)
def sb (s : State) (b who op akind buf : Nat) (pl : List Byte) : State :=
  s.setBerth b { Berth.init with slots := [(6, ⟨.serving, who, false, reqBytes op pl.length akind 0 0 buf pl, none⟩)] }
def pf : Nat := idFn 0
def imgBody : List Byte := List.replicate 48 0 ++ leBytes 16 (5 * 2 ^ 9 + 2 ^ 14 + 1023 * 2 ^ 16 + 2 ^ 26 + 80 * 2 ^ 64) ++ List.replicate 16 7
def img : List Byte := leBytes 4 0x48544850 ++ leBytes 2 1 ++ leBytes 2 1 ++ leBytes 4 96 ++ leBytes 4 (crc32c imgBody).toNat ++ imgBody
def hi : State := { hb with hbm := memWrite [] 0 img, cores := [(5, co (run []))] }
def cl (n : Nat) : List Byte := (List.range 32).map fun i => if i = n / 8 then BitVec.ofNat 8 (2 ^ (n % 8)) else 0
def gr (n : Nat) : List Byte := (List.range 128).map fun i => if i = n / 8 then BitVec.ofNat 8 (2 ^ (n % 8)) else 0
def b5 : State := { base with barns := [(0, some barn0), (5, some barn0)] }
def t0 (st : TState) : State := pk { Core.init with power := .running, threads := [(0, { run [] with st := st })] }
def pl0 : List Byte := leBytes 4 0x4E4C5049 ++ leBytes 2 1 ++ leBytes 2 0 ++ leBytes 2 1 ++ [64, 0]
def mods : State := { base with modules := (List.range 12).map fun m => (m, mo) }
def fw : FwImage := ⟨0, 0, 0, 0, 0, 1, true⟩
def hm (h : Helm) : State := { base with helm := h }
def upd (typ : Nat) (ov : Bool) : FwUpdate := ⟨7, { fw with typ := typ }, ov⟩
def split : Helm := { Helm.init with st := .split, update := some (upd 1 true) }
def single : Helm := { Helm.init with st := .single, retired := some 0, retireA := 2 }
def hp (n : Nat) : Pkt := (mkPkt 0x38 6 (helmEp 64) (helmEp 70) 0 0 0 (leBytes 1 n ++ leBytes 1 0 ++ leBytes 2 257 ++ List.replicate 28 0)).seal
def hd (n : Nat) : Pkt := (mkPkt 0x3B 6 (helmEp 64) (helmEp 70) 0 0 0 (List.replicate n 0)).seal
def bs (stage : Nat) (st : BuSt) : State := { base with bu := { BringUp.init with stage := stage, st := st, goal := stage } }
def clk (c : Clock) : State := { base with clock := c }
def gl (g : Gleaner) : State := { base with gleaner := g }
def te (n seq : Nat) : Pkt := (mkPkt 0x38 6 (helmEp 64) (helmEp 70) 0 0 0 (leBytes 1 n ++ leBytes 1 0 ++ leBytes 2 seq ++ List.replicate 28 0)).seal
def trained : List (LinkId × BitVec 16 × BitVec 16) := (List.finRange 512).map fun l => (l, 0xFFFF, 9)
def x12 : Nat := 323
def op12 : Op := { opx 7 0x0303 1 [] with work := [x12] }
def sec1 : List Section := [⟨5, 1, 1023, 1, 80⟩]
def nop (s : State) (c : Cmd) (n : Nat) (l : List Nat) : State := match s.newOp c n l with
  | .inr (_, u) => u
  | _ => s
def wideOf : Nat → State := fun v => { base with bu := { base.bu with bufAddr := v } }
def a16 : Nat := 0x01000008
def at16 (a : Nat) : State := { base with ind := { Indirect.init with addr := a } }
def sv0 : Nat := ((at16 0x04100000).svcRead 0x04100000 8).getD 0
def sv16 : Nat := ((at16 a16).svcRead a16 4).getD 0
def sr16 : Nat := ((at16 a16).svcReg a16).getD 0
def sv17 : Nat := ((at16 (a16 + 4)).svcRead (a16 + 4) 4).getD 0
def full : List Counter := (List.range 8192).map fun i => ⟨1, i, 0, 0, false, [1]⟩
def pc15 : State := { base with pairRecs := [(15, { PairRec.init with checking := true })] }
def fr1 : FaultRec := ⟨1, 0, 0, false, false, false, false, false, 1, 5, 0, none, 0, 0⟩
def b10 : State := { bs 10 .running with clusterUp := List.range 256 }
def a18 : State := (List.range 16).foldl (fun s d => s.alignDie d) (bs 4 .running)
def u18 : State := { a18 with
    cross := (List.range 16).flatMap fun d => (List.range 192).map fun i => (256 * d + i, if a18.crossDown d i then 0xFFFF else 0x0303) }
theorem coreUp (c : Nat) (h : c < 16384) : b10.coreUsable c = true := by
  have e : coreCluster c < 256 := by simp only [coreCluster, coreDie, coreX, coreY]; omega
  simp [State.coreUsable, State.coreOut, State.clusterOut, b10, bs, base, State.reset, NonVol.init, e]
theorem coresAll : ∀ d, d < 16 → coreMinimum b10.variant ≤ b10.usableOn d := by
  intro d h
  have e : (List.range 1024).filter (fun i => b10.coreUsable (1024 * d + i)) = List.range 1024 :=
    List.filter_eq_self.2 fun i hi => coreUp _ (by have := List.mem_range.1 hi; omega)
  rw [State.usableOn, e, List.length_range, show b10.variant = 1 from rfl, coreMinimum]
  decide
theorem trainedAll : ∀ l : LinkId, ∃ x, trained.find? (fun x => decide (x.1.val = l.val) && decide (8 ≤ maskWidth x.2.1.toNat)) = some x := by
  intro l
  rw [← Option.isSome_iff_exists, List.find?_isSome]
  exact ⟨(l, 0xFFFF, 9), List.mem_map.2 ⟨l, List.mem_finRange l, rfl⟩, by simp; decide⟩
theorem idleAll (s : State) (h : s.cores = []) : ∀ g, g < 256 → s.clusterIdle g = true := by
  intro g _; simp [State.clusterIdle, State.core, h, tget, Core.init, Core.activeThreads]

/-! Ill-formed commands, one for each check of `wellFormed`. -/

def badPkt : Pkt := { mkPkt 0x02 2 0 0 0 0 0 [] with op := 64 }
theorem test_wf_pkt : wellFormed (.load badPkt []) = false ∧ wellFormed (.sheafWord badPkt) = false ∧ wellFormed (.helmMsg badPkt) = false := by decide
theorem test_wf_pkt_fields : Pkt.wf { mkPkt 2 2 0 0 0 0 0 [] with ver := 16 } = false ∧ Pkt.wf { mkPkt 2 2 0 0 0 0 0 [] with tc := 4 } = false
    ∧ Pkt.wf { mkPkt 2 2 0 0 0 0 0 [] with hops := 8 } = false ∧ Pkt.wf { mkPkt 2 2 0 0 0 0 0 [] with dst := 2 ^ 30 } = false
    ∧ Pkt.wf { mkPkt 2 2 0 0 0 0 0 [] with rtag := 4096 } = false ∧ Pkt.wf { mkPkt 2 2 0 0 0 0 0 [] with addr := 2 ^ 48 } = false := by decide
theorem test_wf_linkFrame : wellFormed (.linkFrameRx 0 ⟨List.replicate 257 (0, 1)⟩) = false := by decide
theorem test_wf_trainFrame : wellFormed (.trainingFrameRx 0 ⟨256, false, false, 0, 0, 0⟩) = false := by decide
theorem test_wf_edgeFrame : wellFormed (.edgeFrameRx 0 ⟨0, 4096, 0, 0, false, false, 0, 0, 0, []⟩ [] 0) = false := by decide
theorem test_wf_linkControl : wellFormed (.linkControlFrameRx 0 0 ⟨256, false, false, 0, 0, 0, 0, 0, 0, 0, 0, false, 0, 0⟩ true) = false := by decide
theorem test_wf_fwImage : wellFormed (.firmwareAuthentication (some ⟨0, 0, 2 ^ 32, 0, 0, 0, true⟩)) = false := by decide
theorem test_wf_calImage : wellFormed (.calRestore 0 0 (List.replicate (2 ^ 32) 0)) = false := by
  rw [wellFormed, List.length_replicate]; decide
theorem test_wf_repeats : wellFormed (.coreBistComplete 0 [3, 3]) = false ∧ wellFormed (.zoneRetrimComplete 0 [(1, 2), (1, 3)]) = false
    ∧ wellFormed (.dieBringup [1, 1] [] [] []) = false ∧ wellFormed (.phaseStep 0 [(1, .ok), (1, .ok)] []) = false := by decide
theorem test_wf_numbers : wellFormed (.operationEnd (2 ^ 32)) = false ∧ wellFormed (.sheafTimeout 16712 ⟨0, 0⟩) = false
    ∧ wellFormed (.patrolRead (2 ^ 34) []) = false ∧ wellFormed (.orphanTagTimeout 0 16640 0) = false
    ∧ wellFormed (.countWindowEnd 0 (2 ^ 32)) = false := by decide
theorem test_wf_lengths : wellFormed (.registerWrite 0 0 [1, 2]) = false ∧ wellFormed (.apertureWrite 0 0 []) = false
    ∧ wellFormed (.berthSlotClaim 0 .i3c 4095 [1, 2]) = false ∧ wellFormed (.analogueRecheck 0 [] []) = false := by decide
theorem test_wf_good : wellFormed (.registerWrite 0 0 [1, 2, 3, 4]) = true ∧ wellFormed (.load (mkPkt 0x01 2 0 0 0 0 0 []) []) = true
    ∧ wellFormed (.operationEnd (2 ^ 32 - 1)) = true := by decide

/-! Instruction words, bit by bit from Table 4-6 and the OP and FN columns of Tables 4-8, 4-10 and 4-11. -/

/-- ADD g1, g2, g3 under p0: OP 0x01 at bit 22, D at 17, A at 12, B at 7, FN 0. -/
theorem test_word_add : (ia 1 2 3).word 0x01 0 = 0b0_000_000001_00001_00010_00011_0000000 := by decide
/-- ADDI g31, g2, -1: OP 0x02, IMM12 at bit 0. -/
theorem test_word_addi : (ii 31 2 0xFFF).word 0x02 = 0b0_000_000010_11111_00010_111111111111 := by decide
/-- LDL g1 ← [g2 + 4] of 4 bytes: OP 0x18 of format M, SZ at bit 9. -/
theorem test_word_ldl : (im 1 2 2 4).word 0x18 = 0b0_000_011000_00001_00010_010_000000100 := by decide
/-- MOVI g1: OP 0x07 of format K, FN at bit 0. -/
theorem test_word_movi : (ik 1 9).word 0x07 0 = 0b0_000_000111_00001_00000_000000000000 := by decide
/-- BR to itself: OP 0x10, OFF22 of zero, guarded by not p1. -/
theorem test_word_br : ({ ij 0 with gn := true, gp := 1 } : IssueJ).word 0x10 = 0b1_001_010000_0000000000000000000000 := by decide

/-! Check codes: the published check values of the two polynomials over the nine characters 1 to 9. -/

theorem test_crc32c : crc32c [0x31, 0x32, 0x33, 0x34, 0x35, 0x36, 0x37, 0x38, 0x39] = 0xE3069283#32 := by decide
theorem test_crc16 : crc16 [0x31, 0x32, 0x33, 0x34, 0x35, 0x36, 0x37, 0x38, 0x39] = 0x29B1#16 := by decide

/-! Thread instructions: one g register after one instruction of thread 3 of core 5, from the definitions of Table 4-8. -/

/-- The state after a command; the state before it where the command stops. -/
def next (c : Instr) (s : State) : State := match exec c s with
  | .next t => t
  | _ => s
/-- The state after a thread instruction whose words stand at offset 16 of the instruction store. -/
def does (c : Instr) (s : State) : State := match siteOf c with
  | some x => next c (w x s)
  | none => s
/-- g1 after an instruction of format A on g2 and g3. -/
def res (c : IssueA → Instr) (a b : BitVec 64) : BitVec 64 := ((does (c (ia 1 2 3)) (th (run [(2, a), (3, b)]))).th 5 3).gr 1

theorem test_add_wraps : res .add 0xFFFFFFFFFFFFFFFF 2 = 1 := by decide
theorem test_sub_wraps : res .sub 0 1 = 0xFFFFFFFFFFFFFFFF := by decide
theorem test_shl_modulo : res .shl 1 65 = 2 := by decide
theorem test_sra_sign : res .sra 0x8000000000000000 4 = 0xF800000000000000 := by decide
theorem test_mulhs_negative : res .mulhs 0xFFFFFFFFFFFFFFFF 3 = 0xFFFFFFFFFFFFFFFF := by decide
theorem test_mulhu_unsigned : res .mulhu 0xFFFFFFFFFFFFFFFF 3 = 2 := by decide
/-- −7 divided by 2: truncation toward zero. -/
theorem test_div_truncates : res .div 0xFFFFFFFFFFFFFFF9 2 = 0xFFFFFFFFFFFFFFFD := by decide
theorem test_div_zero : res .div 5 0 = 0xFFFFFFFFFFFFFFFF := by decide
/-- The most negative number divided by −1 is itself (R98). -/
theorem test_div_overflow : res .div 0x8000000000000000 0xFFFFFFFFFFFFFFFF = 0x8000000000000000 := by decide
theorem test_rem_sign : res .rem 0xFFFFFFFFFFFFFFF9 2 = 0xFFFFFFFFFFFFFFFF := by decide
theorem test_min_signed : res .min 0xFFFFFFFFFFFFFFFF 1 = 0xFFFFFFFFFFFFFFFF := by decide
theorem test_maxu_unsigned : res .maxu 0xFFFFFFFFFFFFFFFF 1 = 0xFFFFFFFFFFFFFFFF := by decide
theorem test_source_is_destination : ((does (.sub (ia 2 2 2)) (th (run [(2, 7)]))).th 5 3).gr 2 = 0 := by decide
theorem test_g0_stays_zero : ((does (.add (ia 0 2 2)) (th (run [(2, 7)]))).th 5 3).gr 0 = 0 := by decide
theorem test_guard_false : ((does (.add { ia 1 2 2 with gp := 1 }) (th (run [(2, 7)]))).th 5 3).pc = 20 := by decide
theorem test_brl_link : ((does (.brl (ij 2)) (th (run []))).th 5 3).gr 31 = 20 := by decide
theorem test_illegal_use : ((does (.clz (ia 1 2 3)) (th (run []))).th 5 3).fcause = 1 := by decide
theorem test_clz_zero : ((does (.clz (ia 1 2 0)) (th (run []))).th 5 3).gr 1 = 64 := by decide

/-! Accumulation and formats (spec/02_arithmetic.md). -/

/-- 1 + 2 in FP32. -/
theorem test_fadd32 : fadd32 0x3F800000 0x40000000 = 0x40400000 := by decide
/-- 1 + 2^−24 in FP32: a tie, to the even result. -/
theorem test_fadd32_tie : fadd32 0x3F800000 0x33800000 = 0x3F800000 := by decide
/-- (1 + 2^−23) + 2^−24: a tie, to the even result above. -/
theorem test_fadd32_tie_up : fadd32 0x3F800001 0x33800000 = 0x3F800002 := by decide
theorem test_fadd32_infinities : fadd32 0x7F800000 0x3F800000 = 0x7F800000 := by decide

/-! Counters, queues and registers. -/

theorem test_tkadd : ((does (.tkadd (ia 0 2 3)) (th (run [(2, 4), (3, 9)]))).core 5).ctr false 4 = 9 := by decide
theorem test_tkadd_saturates : ((does (.tkadd (ia 0 2 3)) (pk { co (run [(2, 4), (3, 9)]) with tk := [(4, 65530)] })).core 5).ctr false 4 = 65535 := by decide
theorem test_step_front : (match step { base with pending := [.add (ia 1 2 3), .sub (ia 1 2 3)] } with
  | .next t => t.pending.length
  | _ => 9) = 1 := by decide
theorem test_step_idle : (match step base with
  | .next t => t.pending.length
  | _ => 9) = 0 := by decide
theorem test_decode_none : decodeTableWord 32 0 = none := by decide
theorem test_reset_queue : State.reset.pending = [] ∧ memWf State.reset.hbm = true := by decide

/-! Worked examples of the spec. -/

/-- Example 0-1: core 137:22:5:17,9. -/
theorem test_example_0_1 : coordOf (64 * 137 + 22) (1024 * 5 + 32 * 17 + 9) = 0x08959629 ∧ coreCluster (1024 * 5 + 32 * 17 + 9) % 16 = 6 := by decide
/-- Example 1-1: edge port 41 of the package at slot 22 of span 137 is 137:22:9:2,2 on plane 1, and FN72-E fits it. -/
theorem test_example_1_1 : portEp (64 * 137 + 22) 41 = plane1 (64 * 137 + 22) 9 2 2 ∧ portFitted 3 41 = true ∧ portFitted 3 46 = false := by decide
/-- The long accumulator of Example 2-1, W = −18. -/
def acc21 : LongAcc := [(0x38, 0x3C), (0x01, 0x01), (0xC8, 0x34), (0x7E, 0x7E)].foldl
  (fun r (a, b) => r.enter (fmulX (fdecode fmtE4M3 a) (fdecode fmtE4M3 b)).1 43 1) (LongAcc.new (-18))
theorem test_example_2_1 : acc21.a.toNat = 0xC3FFA0001 ∧ acc21.terms = 4 ∧ (fround fmtFP32 .rne false 0 acc21.result).1 = 0x4843FFA0 := by decide
/-- Example 2-2: FP32 to BF16 with the two rounding words. -/
theorem test_example_2_2 : (fround fmtBF16 .sr false 0x60000000 (fdecode fmtFP32 0x3F804000)).1 = 0x3F80
    ∧ (fround fmtBF16 .sr false 0xC3100000 (fdecode fmtFP32 0x3F804000)).1 = 0x3F81 := by decide
/-- Example 2-3: two contributions to an invariant reduction. -/
def vals23 (x0 x1 : Nat) : List FVal := [fdecode fmtFP32 x0, fdecode fmtFP32 x1] ++ List.replicate 30 (fdecode fmtFP32 0)
def sum23 : RedWord := (redSumWord 2 129 0x00A5 1 (vals23 0x40400000 0xBE800000)).combine (redSumWord 2 129 0x00A5 1 (vals23 0x40B00000 0x2B800000))
theorem test_example_2_3 : sum23.hdr.bits / 2 ^ 64 = 0x00A500000002D081 ∧ sum23.els.take 2 = [0x000088000000, 0xFFFFFC000000] := by decide
theorem test_example_2_3_results : (redFinish fmtFP32 2 sum23).take 2 = [0x41080000, 0xBE800000]
    ∧ (sum23.bytes.drop 16).take 6 = [0, 0, 0, 0x88, 0, 0] := by decide
/-- Example 4-2: p3: ADDI g5, g3, −12, and TKTAKE TK[g4], g6. -/
theorem test_example_4_2 : ({ ii 5 3 0xFF4 with gp := 3 } : IssueI).word 0x02 = 0x308A3FF4 ∧ (ia 0 4 6).word 0x2C 6 = 0x0B004306 := by decide
/-- Example 10-1: the core window and the entry gateways of the three elements. -/
theorem test_example_10_1 : localRegion 0x20162920000 = .core 0x1629 0x20000 ∧ (entryGateway (addrLocal 0xA04000000E00) = 16 * 4 + 14
    ∧ entryGateway (addrLocal 0xA04000000400) = 16 * 4 + 4 ∧ entryGateway (addrLocal 0xA04000070800) = 16 * 4 + 8)
    ∧ pktUnits 528 = 9 := by decide
/-- Example 11-1: the two plan entries. -/
theorem test_example_11_1 : peRole 0x31124D = 1 ∧ peRole 0x112595E = 2 ∧ pePeer 0x31124D = 8777 ∧ pePeer 0x112595E = 19243 ∧ pePort 0x31124D = 12
    ∧ pePort 0x112595E = 68 := by decide
/-- Example 11-1: the entries of the default plan that it gives. -/
theorem test_example_11_1_default : defaultEntry 1 64 512 137 22 50 = 0x31124D ∧ defaultEntry 1 64 512 137 20 66 = 0x112595E := by decide
/-- Example 19-1: port 41 and the feed fibre of module 7 at its fibre 3. -/
theorem test_example_19_1 : portFibre 41 = (0, 10) ∧ feedFibre 7 3 = (3, 11) := by decide
/-! For every obligation with hypotheses, states and operands that meet the hypotheses of each of its clauses. -/

theorem witness_integerResults :
    (∃ r ∈ aluRows, ∃ (i : IssueA) (s : State), (i.site 0x01 r.2.1 .g .g .g true).goes s = true)
    ∧ (∃ (i : IssueA) (s : State), (i.site 0x01 19 .g .g .none true).goes s = true)
    ∧ (∃ (i : IssueA) (s : State), (i.site 0x01 20 .g .g .none true).goes s = true)
    ∧ (∃ r ∈ immRows, ∃ (i : IssueI) (s : State), (i.site r.2.1 true true).goes s = true)
    ∧ (∃ (i : IssueI) (s : State), (i.site 0x06 true (decide (i.imm.toNat < 192))).goes s = true)
    ∧ (∃ (i : IssueK) (s : State), (i.site 0x07 0).goes s = true)
    ∧ (∃ (i : IssueK) (s : State), (i.site 0x07 1).goes s = true) :=
  ⟨⟨_, .tail _ (.head _), ia 1 2 3, w ((ia 1 2 3).site 0x01 (((aluRows)[1]'(by decide))).2.1 .g .g .g true) (th (run [(1, 9), (2, 5), (3, 7)])), by decide⟩,
   ⟨ia 1 2 0, w ((ia 1 2 0).site 0x01 19 .g .g .none true) (th (run [(2, 5)])), by decide⟩,
   ⟨ia 1 2 0, w ((ia 1 2 0).site 0x01 20 .g .g .none true) (th (run [(2, 0xFFFFFFFFFFFFFFFF)])), by decide⟩,
   ⟨_, .head _, ii 31 2 0xFFF, w ((ii 31 2 0xFFF).site (((immRows)[0]'(by decide))).2.1 true true) (th (run [(2, 5)])), by decide⟩,
   ⟨ii 1 2 191, w ((ii 1 2 191).site 0x06 true (decide ((ii 1 2 191).imm.toNat < 192))) (th (run [(2, 0x8000000000000005)])), by decide⟩,
   ⟨ik 1 0x80000000, w ((ik 1 0x80000000).site 0x07 0) (th (run [])), by decide⟩,
   ⟨ik 1 0x80000000, w ((ik 1 0x80000000).site 0x07 1) (th (run [(1, 0xFFFFFFFFFFFFFFFF)])), by decide⟩⟩
theorem witness_predicateResults :
    (∃ r ∈ cmpRows, ∃ (i : IssueA) (s : State), (i.site 0x08 r.1 .p .g .g true).goes s = true)
    ∧ (∃ r ∈ cmpRows, r.1 < 4 ∧ ∃ (i : IssueI) (s : State), i.d.toNat / 8 = r.1 ∧ (i.site 0x09 false true).goes s = true)
    ∧ (∃ r ∈ predRows, ∃ (i : IssueA) (s : State), (i.site 0x0A r.2.1 .p .p .p true).goes s = true)
    ∧ (∃ (i : IssueA) (s : State), (i.site 0x0A 4 .g .none .none true).goes s = true)
    ∧ (∃ (i : IssueA) (s : State), (i.site 0x0A 5 .none .g .none true).goes s = true) :=
  ⟨⟨_, .head _, ia 7 2 3, w ((ia 7 2 3).site 0x08 (((cmpRows)[0]'(by decide))).1 .p .g .g true) (th (run [(2, 5), (3, 5)])), by decide⟩,
   ⟨_, .tail _ (.tail _ (.tail _ (.head _))), by decide, ii 31 2 0xFFF, w ((ii 31 2 0xFFF).site 0x09 false true) (th (run [(2, 5)])), by decide, by decide⟩,
   ⟨_, .tail _ (.tail _ (.tail _ (.head _))), ia 1 2 3, w ((ia 1 2 3).site 0x0A (((predRows)[3]'(by decide))).2.1 .p .p .p true) (th { run [] with p := 5 }), by decide⟩,
   ⟨ia 1 0 0, w ((ia 1 0 0).site 0x0A 4 .g .none .none true) (th { run [] with p := 0x81 }), by decide⟩,
   ⟨ia 0 1 0, w ((ia 0 1 0).site 0x0A 5 .none .g .none true) (th (run [(1, 0xFFFFFFFFFFFFFF02)])), by decide⟩⟩
theorem witness_branchTargets :
    (∃ (i : IssueJ) (s : State), (i.site 0x10 []).goes s = true)
    ∧ (∃ (i : IssueJ) (s : State), (i.site 0x11 [31]).goes s = true)
    ∧ (∃ (i : IssueA) (s : State), (i.site 0x12 0 .g .g .none true).goes s = true ∧ (i.th s).gNat i.a.toNat % 4 = 0)
    ∧ (∃ (i : IssueA) (s : State), (i.site 0x12 0 .g .g .none true).goes s = true ∧ (i.th s).gNat i.a.toNat % 4 ≠ 0) :=
  ⟨⟨ij 0x3FFFFB, w ((ij 0x3FFFFB).site 0x10 []) (th (run [])), by decide⟩,
   ⟨ij 2, w ((ij 2).site 0x11 [31]) (th (run [])), by decide⟩,
   ⟨ia 1 1 0, w ((ia 1 1 0).site 0x12 0 .g .g .none true) (th (run [(1, 0x40)])), by decide, by decide⟩,
   ⟨ia 1 1 0, w ((ia 1 1 0).site 0x12 0 .g .g .none true) (th (run [(1, 0x42)])), by decide, by decide⟩⟩
theorem witness_localAccessesBegin :
    (∃ (i : IssueM) (acc : BankAcc) (s : State), (i.site 0x18).goes s = true ∧ localCheck .load (i.addr s) (szBytes i.sz) (szBytes i.sz) = none)
    ∧ (∃ (i : IssueM) (acc : BankAcc) (s : State), (i.site 0x19).goes s = true ∧ localCheck .store (i.addr s) (szBytes i.sz) (szBytes i.sz) = none)
    ∧ (∃ (i : IssueA) (fn : BitVec 7) (acc : BankAcc) (s : State), (i.site 0x20 fn.toNat .g .g .g (decide (fn.toNat ≤ 9))).goes s = true ∧ localCheck .atomic ((i.th s).gNat i.a.toNat) 8 8 = none)
    ∧ (∃ (i : IssueV) (acc : BankAcc) (s : State), (i.site 0x16 0 vmem true true).goes s = true ∧ i.vd.toNat < (i.th s).vmap.length ∧ localCheck .load (i.addr s) 256 64 = none)
    ∧ (∃ (i : IssueV) (acc : BankAcc) (s : State), (i.site 0x16 1 vmem true true).goes s = true ∧ i.vd.toNat < (i.th s).vmap.length ∧ localCheck .store (i.addr s) 256 64 = none)
    ∧ (∃ (i : IssueA) (acc : BankAcc) (s : State), (i.site 0x1C 0 .g .g .g true).goes s = true ∧ 1 ≤ (i.th s).gNat i.d.toNat ∧ (i.th s).gNat i.d.toNat ≤ 256 ∧ (i.th s).gNat i.a.toNat % 64 = 0 ∧ (i.th s).gNat i.a.toNat < 2 ^ 48 ∧ localCheck .load ((i.th s).gNat i.b.toNat) ((i.th s).gNat i.d.toNat) 64 = none ∧ (s.core i.core.val).spanRoom i.thread.val true = true)
    ∧ (∃ (i : IssueA) (acc : BankAcc) (s : State), (i.site 0x24 0 .g .g .none true).goes s = true ∧ localAllowed .load ((i.th s).gNat i.a.toNat) 64 = true)
    ∧ (∃ (i : IssueA) (acc : BankAcc) (s : State), (i.site 0x34 0 .g .g .none true).goes s = true ∧ localAllowed .load ((i.th s).gNat i.a.toNat) 64 = true)
    ∧ (∃ (i : IssueA) (acc : BankAcc) (s : State), (i.site 0x30 0 .g .g .g true).goes s = true ∧ 1 ≤ (i.th s).gNat i.b.toNat ∧ (i.th s).gNat i.d.toNat + (i.th s).gNat i.b.toNat ≤ 4096 ∧ localAllowed .load ((i.th s).gNat i.a.toNat) ((i.th s).gNat i.b.toNat) = true)
    ∧ (∃ (i : IssueA) (acc : BankAcc) (s : State) (b : Nat), (i.site 0x30 1 .g .g .g true).goes s = true ∧ s.coreBarn i.core.val = some b ∧ 1 ≤ (i.th s).gNat i.b.toNat ∧ (i.th s).gNat i.d.toNat + (i.th s).gNat i.b.toNat ≤ 4096 ∧ localAllowed .store ((i.th s).gNat i.a.toNat) ((i.th s).gNat i.b.toNat) = true ∧ s.admits b (s.threadId i.core.val i.thread.val) = true)
    ∧ (∃ (i : IssueM) (acc : BankAcc) (s : State) (code x : Nat), (i.site 0x18).goes s = true ∧ localCheck .load (i.addr s) (szBytes i.sz) (szBytes i.sz) = some (code, x))
    ∧ (∃ (i : IssueM) (acc : BankAcc) (s : State) (code x : Nat), (i.site 0x19).goes s = true ∧ localCheck .store (i.addr s) (szBytes i.sz) (szBytes i.sz) = some (code, x)) :=
  ⟨⟨im 1 2 4 8, .free .ok, w ((im 1 2 4 8).site 0x18) (th (run [(2, 0x5FFF0)])), by decide, by decide⟩,
   ⟨im 1 2 3 1, .free .ok, w ((im 1 2 3 1).site 0x19) (th (run [(2, 0x5FFF0), (1, 0x1122334455667788)])), by decide, by decide⟩,
   ⟨ia 1 2 3, 9, .free .ok, w ((ia 1 2 3).site 0x20 ((9 : BitVec 7)).toNat .g .g .g (decide (((9 : BitVec 7)).toNat ≤ 9))) (th (run [(2, 0x100)])), by decide, by decide⟩,
   ⟨iv 0 0 0 4 0 0, .free .ok, w ((iv 0 0 0 4 0 0).site 0x16 0 vmem true true) (pk vk), by decide, by decide, by decide⟩,
   ⟨iv 0 0 0 4 0 0, .free .ok, w ((iv 0 0 0 4 0 0).site 0x16 1 vmem true true) (pk vk), by decide, by decide, by decide⟩,
   ⟨ia 1 2 3, .free .ok, w ((ia 1 2 3).site 0x1C 0 .g .g .g true) (th (run [(1, 256), (2, 0x40), (3, 0)])), by decide, by decide, by decide, by decide, by decide, by decide, by decide⟩,
   ⟨ia 1 2 0, .free .ok, w ((ia 1 2 0).site 0x24 0 .g .g .none true) (th (run [(2, 0x40)])), by decide, by decide⟩,
   ⟨ia 1 2 0, .delayed, w ((ia 1 2 0).site 0x34 0 .g .g .none true) (th (run [(2, 0x40)])), by decide, by decide⟩,
   ⟨ia 1 2 3, .free .ok, w ((ia 1 2 3).site 0x30 0 .g .g .g true) (th (run [(1, 4095), (3, 1)])), by decide, by decide, by decide, by decide⟩,
   ⟨ia 1 2 3, .free .ok, w ((ia 1 2 3).site 0x30 1 .g .g .g true) (th (run [(1, 0), (3, 4)])), 0, by decide, by decide, by decide, by decide, by decide, by decide⟩,
   ⟨im 1 2 3 0, .free .ok, w ((im 1 2 3 0).site 0x18) (th (run [(2, 0x5FFF4)])), 5, 0x5FFF4, by decide, by decide⟩,
   ⟨im 1 2 2 0, .free .ok, w ((im 1 2 2 0).site 0x19) (th (run [(2, 0x60000)])), 6, 0x60000, by decide, by decide⟩⟩
theorem witness_bankAccessRow :
    (∃ (c : CoreId) (k : ThreadId) (s : State) (gd n pc a : Nat) (sg : Bool), (s.core c.val).power = .running ∧ (s.core c.val).inboundAt a = false ∧ (s.th c.val k.val).bankOps = [⟨.load gd n sg, pc, a, n, [], false⟩] ∧ n ∈ [1, 2, 4, 8] ∧ a % n = 0 ∧ a + n ≤ 0x60000)
    ∧ (∃ (c : CoreId) (k : ThreadId) (s : State) (bs : List Byte) (pc a : Nat), (s.core c.val).power = .running ∧ (s.core c.val).inboundAt a = false ∧ (s.th c.val k.val).bankOps = [⟨.store bs, pc, a, bs.length, [], false⟩] ∧ 1 ≤ bs.length ∧ a % 64 + bs.length ≤ 64 ∧ a + bs.length ≤ 0x60000)
    ∧ (∃ (c : CoreId) (k : ThreadId) (s : State) (e : Ecc) (o : BankOp) (l : List BankOp), (s.th c.val k.val).bankOps = o :: l ∧ ((s.core c.val).power ≠ .running ∨ (s.core c.val).inboundAt o.addr = true)) :=
  ⟨⟨5, 3, pk { co { run [(1, 3)] with bankOps := [⟨.load 1 8 true, 16, 0x5FFF8, 8, [], false⟩] } with sram := [(0x5FFFF, 0x80)] }, 1, 8, 16, 0x5FFF8, true, by decide, by decide, by decide, by decide, by decide, by decide⟩,
   ⟨5, 3, pk (co { run [] with bankOps := [⟨.store [1, 0, 3], 16, 61, 3, [], false⟩] }), [1, 0, 3], 16, 61, by decide, by decide, by decide, by decide, by decide, by decide⟩,
   ⟨5, 3, pk { co { run [] with bankOps := [⟨.store [1, 0, 3], 16, 0x44, 3, [], false⟩] } with inbound := [bt] }, .ok, ⟨.store [1, 0, 3], 16, 0x44, 3, [], false⟩, [], by decide, .inr (by decide)⟩⟩
theorem witness_spanAccessesSent :
    (∃ (i : IssueM) (s u : State), (i.site 0x1A).goes s = true ∧ i.addr s % szBytes i.sz = 0 ∧ i.addr s < 2 ^ 48 ∧ (s.core i.core.val).spanRoom i.thread.val false = true ∧ s.sendReq i.core.val (.load i.thread.val i.d.toNat (szBytes i.sz) (szSigned i.sz)) 0 (i.th s).pc 0x01 (i.addr s) (leBytes 4 (szBytes i.sz)) = (none, u))
    ∧ (∃ (i : IssueM) (s u : State), (i.site 0x1B).goes s = true ∧ i.addr s % szBytes i.sz = 0 ∧ i.addr s < 2 ^ 48 ∧ (s.core i.core.val).spanRoom i.thread.val true = true ∧ (i.th s).bankOps.any BankOp.isSpan = false ∧ s.sendReq i.core.val (.store i.thread.val) 0 (i.th s).pc 0x02 (i.addr s) (leBytes (szBytes i.sz) ((i.th s).gNat i.d.toNat)) = (none, u))
    ∧ (∃ (i : IssueA) (fn : BitVec 7) (s u : State), (i.site 0x21 fn.toNat .g .g .g (decide (fn.toNat ≤ 9))).goes s = true ∧ (i.th s).gNat i.a.toNat % 8 = 0 ∧ (i.th s).gNat i.a.toNat < 2 ^ 48 ∧ (s.core i.core.val).spanRoom i.thread.val false = true ∧ s.sendReq i.core.val (.atomic i.thread.val i.d.toNat) 0 (i.th s).pc (0x20 + fn.toNat) ((i.th s).gNat i.a.toNat) (leBytes 8 ((i.th s).gNat i.b.toNat) ++ leBytes 8 ((i.th s).gNat i.d.toNat)) = (none, u))
    ∧ (∃ (i : IssueV) (s u : State), (i.site 0x16 2 vmem true true).goes s = true ∧ i.vd.toNat < (i.th s).vmap.length ∧ i.addr s % 64 = 0 ∧ i.addr s < 2 ^ 48 ∧ (s.core i.core.val).spanRoom i.thread.val false = true ∧ s.sendReq i.core.val (.vload i.thread.val ((i.th s).vmap.getD i.vd.toNat 0) i.vd.toNat) 0 (i.th s).pc 0x01 (i.addr s) (leBytes 4 256) = (none, u))
    ∧ (∃ (i : IssueV) (s u : State), (i.site 0x16 3 vmem true true).goes s = true ∧ i.vd.toNat < (i.th s).vmap.length ∧ i.addr s % 64 = 0 ∧ i.addr s < 2 ^ 48 ∧ (s.core i.core.val).spanRoom i.thread.val true = true ∧ (i.th s).bankOps.any BankOp.isSpan = false ∧ s.sendReq i.core.val (.store i.thread.val) 0 (i.th s).pc 0x02 (i.addr s) (leBytes 256 ((s.core i.core.val).vget i.thread.val i.vd.toNat)) = (none, u))
    ∧ (∃ (i : IssueM) (s : State), (i.site 0x1B).goes s = true ∧ i.addr s % szBytes i.sz = 0 ∧ i.addr s < 2 ^ 48 ∧ (s.core i.core.val).spanRoom i.thread.val true = true ∧ (i.th s).bankOps.any BankOp.isSpan = true)
    ∧ (∃ (i : IssueM) (s u : State) (st : Nat), (i.site 0x1A).goes s = true ∧ i.addr s % szBytes i.sz = 0 ∧ i.addr s < 2 ^ 48 ∧ (s.core i.core.val).spanRoom i.thread.val false = true ∧ s.sendReq i.core.val (.load i.thread.val i.d.toNat (szBytes i.sz) (szSigned i.sz)) 0 (i.th s).pc 0x01 (i.addr s) (leBytes 4 (szBytes i.sz)) = (some st, u))
    ∧ (∃ (s : State) (c : Nat) (who : Waiter) (skind pc op addr : Nat) (payload : List Byte) (u : State), s.sendReq c who skind pc op addr payload = (none, u)) :=
  ⟨⟨im 1 2 3 0, w ((im 1 2 3 0).site 0x1A) (th (run [(2, 0x40000)])), ((w ((im 1 2 3 0).site 0x1A) (th (run [(2, 0x40000)]))).sendReq (im 1 2 3 0).core.val (.load (im 1 2 3 0).thread.val (im 1 2 3 0).d.toNat (szBytes (im 1 2 3 0).sz) (szSigned (im 1 2 3 0).sz)) 0 ((im 1 2 3 0).th (w ((im 1 2 3 0).site 0x1A) (th (run [(2, 0x40000)])))).pc 0x01 ((im 1 2 3 0).addr (w ((im 1 2 3 0).site 0x1A) (th (run [(2, 0x40000)])))) (leBytes 4 (szBytes (im 1 2 3 0).sz))).2, by decide, by decide, by decide, by decide, rfl⟩,
   ⟨im 1 2 3 0, w ((im 1 2 3 0).site 0x1B) (th (run [(2, 0x40000)])), ((w ((im 1 2 3 0).site 0x1B) (th (run [(2, 0x40000)]))).sendReq (im 1 2 3 0).core.val (.store (im 1 2 3 0).thread.val) 0 ((im 1 2 3 0).th (w ((im 1 2 3 0).site 0x1B) (th (run [(2, 0x40000)])))).pc 0x02 ((im 1 2 3 0).addr (w ((im 1 2 3 0).site 0x1B) (th (run [(2, 0x40000)])))) (leBytes (szBytes (im 1 2 3 0).sz) (((im 1 2 3 0).th (w ((im 1 2 3 0).site 0x1B) (th (run [(2, 0x40000)])))).gNat (im 1 2 3 0).d.toNat))).2, by decide, by decide, by decide, by decide, by decide, rfl⟩,
   ⟨ia 1 2 3, 0, w ((ia 1 2 3).site 0x21 ((0 : BitVec 7)).toNat .g .g .g (decide (((0 : BitVec 7)).toNat ≤ 9))) (th (run [(2, 0x40000)])), ((w ((ia 1 2 3).site 0x21 ((0 : BitVec 7)).toNat .g .g .g (decide (((0 : BitVec 7)).toNat ≤ 9))) (th (run [(2, 0x40000)]))).sendReq (ia 1 2 3).core.val (.atomic (ia 1 2 3).thread.val (ia 1 2 3).d.toNat) 0 ((ia 1 2 3).th (w ((ia 1 2 3).site 0x21 ((0 : BitVec 7)).toNat .g .g .g (decide (((0 : BitVec 7)).toNat ≤ 9))) (th (run [(2, 0x40000)])))).pc (0x20 + ((0 : BitVec 7)).toNat) (((ia 1 2 3).th (w ((ia 1 2 3).site 0x21 ((0 : BitVec 7)).toNat .g .g .g (decide (((0 : BitVec 7)).toNat ≤ 9))) (th (run [(2, 0x40000)])))).gNat (ia 1 2 3).a.toNat) (leBytes 8 (((ia 1 2 3).th (w ((ia 1 2 3).site 0x21 ((0 : BitVec 7)).toNat .g .g .g (decide (((0 : BitVec 7)).toNat ≤ 9))) (th (run [(2, 0x40000)])))).gNat (ia 1 2 3).b.toNat) ++ leBytes 8 (((ia 1 2 3).th (w ((ia 1 2 3).site 0x21 ((0 : BitVec 7)).toNat .g .g .g (decide (((0 : BitVec 7)).toNat ≤ 9))) (th (run [(2, 0x40000)])))).gNat (ia 1 2 3).d.toNat))).2, by decide, by decide, by decide, by decide, rfl⟩,
   ⟨iv 0 0 0 4 0 0, w ((iv 0 0 0 4 0 0).site 0x16 2 vmem true true) (pk { co (vrun [(4, 0x40000)]) with vregs := [] }), ((w ((iv 0 0 0 4 0 0).site 0x16 2 vmem true true) (pk { co (vrun [(4, 0x40000)]) with vregs := [] })).sendReq (iv 0 0 0 4 0 0).core.val (.vload (iv 0 0 0 4 0 0).thread.val (((iv 0 0 0 4 0 0).th (w ((iv 0 0 0 4 0 0).site 0x16 2 vmem true true) (pk { co (vrun [(4, 0x40000)]) with vregs := [] }))).vmap.getD (iv 0 0 0 4 0 0).vd.toNat 0) (iv 0 0 0 4 0 0).vd.toNat) 0 ((iv 0 0 0 4 0 0).th (w ((iv 0 0 0 4 0 0).site 0x16 2 vmem true true) (pk { co (vrun [(4, 0x40000)]) with vregs := [] }))).pc 0x01 ((iv 0 0 0 4 0 0).addr (w ((iv 0 0 0 4 0 0).site 0x16 2 vmem true true) (pk { co (vrun [(4, 0x40000)]) with vregs := [] }))) (leBytes 4 256)).2, by decide, by decide, by decide, by decide, by decide, rfl⟩,
   ⟨iv 0 0 0 4 0 0, w ((iv 0 0 0 4 0 0).site 0x16 3 vmem true true) (pk { co (vrun [(4, 0x40000)]) with vregs := [] }), ((w ((iv 0 0 0 4 0 0).site 0x16 3 vmem true true) (pk { co (vrun [(4, 0x40000)]) with vregs := [] })).sendReq (iv 0 0 0 4 0 0).core.val (.store (iv 0 0 0 4 0 0).thread.val) 0 ((iv 0 0 0 4 0 0).th (w ((iv 0 0 0 4 0 0).site 0x16 3 vmem true true) (pk { co (vrun [(4, 0x40000)]) with vregs := [] }))).pc 0x02 ((iv 0 0 0 4 0 0).addr (w ((iv 0 0 0 4 0 0).site 0x16 3 vmem true true) (pk { co (vrun [(4, 0x40000)]) with vregs := [] }))) (leBytes 256 (((w ((iv 0 0 0 4 0 0).site 0x16 3 vmem true true) (pk { co (vrun [(4, 0x40000)]) with vregs := [] })).core (iv 0 0 0 4 0 0).core.val).vget (iv 0 0 0 4 0 0).thread.val (iv 0 0 0 4 0 0).vd.toNat))).2, by decide, by decide, by decide, by decide, by decide, by decide, rfl⟩,
   ⟨im 1 2 3 0, w ((im 1 2 3 0).site 0x1B) (th { run [(2, 0x40000)] with bankOps := [⟨.stsb 0x40000, 16, 0x40, 4, [], false⟩] }), by decide, by decide, by decide, by decide, by decide⟩,
   ⟨im 1 2 3 0, w ((im 1 2 3 0).site 0x1A) (th (run [(2, 0x200000C0100)])), ((w ((im 1 2 3 0).site 0x1A) (th (run [(2, 0x200000C0100)]))).sendReq (im 1 2 3 0).core.val (.load (im 1 2 3 0).thread.val (im 1 2 3 0).d.toNat (szBytes (im 1 2 3 0).sz) (szSigned (im 1 2 3 0).sz)) 0 ((im 1 2 3 0).th (w ((im 1 2 3 0).site 0x1A) (th (run [(2, 0x200000C0100)])))).pc 0x01 ((im 1 2 3 0).addr (w ((im 1 2 3 0).site 0x1A) (th (run [(2, 0x200000C0100)])))) (leBytes 4 (szBytes (im 1 2 3 0).sz))).2, 0x06, by decide, by decide, by decide, by decide, rfl⟩,
   ⟨th (run []), 5, .load 3 1 8 false, 0, 16, 0x01, 0x40000, leBytes 4 8, ((th (run [])).sendReq (5) ((.load 3 1 8 false : Waiter)) (0) (16) (0x01) (0x40000) (leBytes 4 8)).2, rfl⟩⟩
theorem witness_fencesAndTallies :
    (∃ (i : IssueA) (s : State), (i.site 0x1D 0 .none .none .none true).goes s = true ∧ (s.core i.core.val).spanPending i.thread.val false = false)
    ∧ (∃ (i : IssueA) (s : State), (i.site 0x1D 1 .none .none .none true).goes s = true ∧ (s.core i.core.val).spanPending i.thread.val true = false)
    ∧ (∃ (i : IssueA) (s : State), (i.site 0x1D 1 .none .none .none true).goes s = true ∧ (s.core i.core.val).spanPending i.thread.val true = true)
    ∧ (∃ (i : IssueA) (s : State), (i.site 0x1D 0 .none .none .none true).goes s = true ∧ (s.core i.core.val).spanPending i.thread.val false = true)
    ∧ (∃ (i : IssueA) (s : State), (i.site 0x1E 0 .none .none .none true).goes s = true ∧ (s.core i.core.val).istoreBusy = false)
    ∧ (∃ (i : IssueA) (s : State), (i.site 0x1E 0 .none .none .none true).goes s = true ∧ (s.core i.core.val).istoreBusy = true)
    ∧ (∃ (i : IssueA) (s : State), (i.site 0x24 1 .none .g .g true).goes s = true ∧ (i.th s).gNat i.a.toNat ≤ 1023 ∧ tallyMet (s.tally (coreCluster i.core.val) ((i.th s).gNat i.a.toNat)) ((i.th s).gNat i.b.toNat % 2 ^ 32) = true)
    ∧ (∃ (i : IssueA) (s : State), (i.site 0x24 1 .none .g .g true).goes s = true ∧ (i.th s).gNat i.a.toNat ≤ 1023 ∧ tallyMet (s.tally (coreCluster i.core.val) ((i.th s).gNat i.a.toNat)) ((i.th s).gNat i.b.toNat % 2 ^ 32) = false)
    ∧ (∃ (i : IssueA) (s : State), (i.site 0x24 2 .g .g .none true).goes s = true ∧ (i.th s).gNat i.a.toNat ≤ 1023)
    ∧ (∃ (i : IssueA) (s : State), (i.site 0x24 3 .none .g .g true).goes s = true ∧ (i.th s).gNat i.a.toNat ≤ 1023) :=
  ⟨⟨ia 0 0 0, w ((ia 0 0 0).site 0x1D 0 .none .none .none true) (th (run [])), by decide, by decide⟩,
   ⟨ia 0 0 0, w ((ia 0 0 0).site 0x1D 1 .none .none .none true) (th (run [])), by decide, by decide⟩,
   ⟨ia 0 0 0, w ((ia 0 0 0).site 0x1D 1 .none .none .none true) (pk { co (run []) with reqs := [{ rq with who := .load 3 1 8 false }] }), by decide, by decide⟩,
   ⟨ia 0 0 0, w ((ia 0 0 0).site 0x1D 0 .none .none .none true) (pk { co (run []) with reqs := [{ rq with who := .store 3, isStore := true }] }), by decide, by decide⟩,
   ⟨ia 0 0 0, w ((ia 0 0 0).site 0x1E 0 .none .none .none true) (th (run [])), by decide, by decide⟩,
   ⟨ia 0 0 0, w ((ia 0 0 0).site 0x1E 0 .none .none .none true) (pk { co (run []) with inbound := [{ bt with pkt := some (pkt 0x11 (coordOf 64 5) (coordOf 64 6) 0x20000580000 (List.replicate 17 0)) }] }), by decide, by decide⟩,
   ⟨ia 0 1 2, w ((ia 0 1 2).site 0x24 1 .none .g .g true) (th (run [(1, 1023), (2, 0)])), by decide, by decide, by decide⟩,
   ⟨ia 0 1 2, w ((ia 0 1 2).site 0x24 1 .none .g .g true) (th (run [(1, 1023), (2, 1)])), by decide, by decide, by decide⟩,
   ⟨ia 1 1 0, w ((ia 1 1 0).site 0x24 2 .g .g .none true) (th (run [(1, 1023)])), by decide, by decide⟩,
   ⟨ia 0 1 2, w ((ia 0 1 2).site 0x24 3 .none .g .g true) (th (run [(1, 1023), (2, 0x1FFFFFFFF)])), by decide, by decide⟩⟩
theorem witness_vectorArithmetic :
    (∃ r ∈ arithRows, ∃ (i : IssueV) (s : State) (x : Site), x = i.site 0x14 r.fn (arithUse i r.use r.round) true (arithOk i r.typeOk r.round) ∧ x.goes s = true ∧ ((∀ v ∈ (arithUse i r.use r.round).regs true i, v < (i.th s).vmap.length)))
    ∧ (∃ r ∈ bitRows, ∃ (i : IssueV) (s : State) (x : Site), x = i.site 0x14 r.2.1 { vabd with ety := true } true (intType i.ety.toNat) ∧ x.goes s = true ∧ ((∀ v ∈ [i.vd.toNat, i.va.toNat, i.vb.toNat], v < (i.th s).vmap.length)))
    ∧ (∃ r ∈ arithRows, ∃ (i : IssueV) (s : State) (x : Site) (v : Nat), x = i.site 0x14 r.fn (arithUse i r.use r.round) true (arithOk i r.typeOk r.round) ∧ x.goes s = true ∧ (arithUse i r.use r.round).missing true i s = [v]) :=
  ⟨⟨_, .head _, iv 0 1 2 0 1 0, w ((iv 0 1 2 0 1 0).site 0x14 (((arithRows)[0]'(by decide))).fn (arithUse (iv 0 1 2 0 1 0) (((arithRows)[0]'(by decide))).use (((arithRows)[0]'(by decide))).round) true (arithOk (iv 0 1 2 0 1 0) (((arithRows)[0]'(by decide))).typeOk (((arithRows)[0]'(by decide))).round)) (pk vk), (iv 0 1 2 0 1 0).site 0x14 (((arithRows)[0]'(by decide))).fn (arithUse (iv 0 1 2 0 1 0) (((arithRows)[0]'(by decide))).use (((arithRows)[0]'(by decide))).round) true (arithOk (iv 0 1 2 0 1 0) (((arithRows)[0]'(by decide))).typeOk (((arithRows)[0]'(by decide))).round), rfl, by decide, by decide⟩,
   ⟨_, .tail _ (.tail _ (.tail _ (.head _))), iv 0 1 2 0 9 0, w ((iv 0 1 2 0 9 0).site 0x14 (((bitRows)[3]'(by decide))).2.1 { vabd with ety := true } true (intType (iv 0 1 2 0 9 0).ety.toNat)) (pk vk), (iv 0 1 2 0 9 0).site 0x14 (((bitRows)[3]'(by decide))).2.1 { vabd with ety := true } true (intType (iv 0 1 2 0 9 0).ety.toNat), rfl, by decide, by decide⟩,
   ⟨_, .head _, iv 0 1 3 0 1 0, w ((iv 0 1 3 0 1 0).site 0x14 (((arithRows)[0]'(by decide))).fn (arithUse (iv 0 1 3 0 1 0) (((arithRows)[0]'(by decide))).use (((arithRows)[0]'(by decide))).round) true (arithOk (iv 0 1 3 0 1 0) (((arithRows)[0]'(by decide))).typeOk (((arithRows)[0]'(by decide))).round)) (pk vk), (iv 0 1 3 0 1 0).site 0x14 (((arithRows)[0]'(by decide))).fn (arithUse (iv 0 1 3 0 1 0) (((arithRows)[0]'(by decide))).use (((arithRows)[0]'(by decide))).round) true (arithOk (iv 0 1 3 0 1 0) (((arithRows)[0]'(by decide))).typeOk (((arithRows)[0]'(by decide))).round), 3, rfl, by decide, by decide⟩⟩
theorem witness_vectorConversions :
    (∃ (i : IssueV) (s : State) (x : Site) (td ts : EType) (m : RMode), x = i.site 0x15 0 (vcvtUse i) false (vcvtOk i) ∧ x.goes s = true ∧ etypeOf i.ety.toNat = some td ∧ i.vb.toNat < 32 ∧ etypeOf i.vb.toNat = some ts ∧ rmOf i.rm = some m ∧ i.vd.toNat < (i.th s).vmap.length ∧ i.va.toNat < (i.th s).vmap.length ∧ i.imm.toNat < ts.count / min td.count ts.count)
    ∧ (∃ (i : IssueV) (s : State) (x : Site) (td ts : EType), x = i.site 0x15 0 (vcvtUse i) false (vcvtOk i) ∧ x.goes s = true ∧ etypeOf i.ety.toNat = some td ∧ i.vb.toNat < 32 ∧ etypeOf i.vb.toNat = some ts ∧ i.vd.toNat < (i.th s).vmap.length ∧ i.va.toNat < (i.th s).vmap.length ∧ ts.count / min td.count ts.count ≤ i.imm.toNat)
    ∧ (∃ (i : IssueV) (s : State) (x : Site) (td : EType) (m : RMode), x = i.site 0x16 4 (vbcastUse i) true (vbcastOk i) ∧ x.goes s = true ∧ etypeOf i.ety.toNat = some td ∧ rmOf i.rm = some m ∧ i.vd.toNat < (i.th s).vmap.length)
    ∧ (∃ (i : IssueV) (s : State) (x : Site) (td : EType), x = i.site 0x16 5 vextUse true (etypeOf i.ety.toNat).isSome ∧ x.goes s = true ∧ etypeOf i.ety.toNat = some td ∧ i.va.toNat < (i.th s).vmap.length ∧ i.imm.toNat < td.count)
    ∧ (∃ (i : IssueV) (s : State) (x : Site) (td : EType), x = i.site 0x16 5 vextUse true (etypeOf i.ety.toNat).isSome ∧ x.goes s = true ∧ etypeOf i.ety.toNat = some td ∧ i.va.toNat < (i.th s).vmap.length ∧ td.count ≤ i.imm.toNat)
    ∧ (∃ (i : IssueV) (s : State) (x : Site) (f : FFmt) (m : RMode), x = i.site 0x15 1 vmxpackUse true (vmxpackOk i) ∧ x.goes s = true ∧ mxOf i.ety.toNat = some f ∧ rmOf i.rm = some m ∧ i.vd.toNat < (i.th s).vmap.length ∧ i.va.toNat < (i.th s).vmap.length)
    ∧ (∃ (i : IssueV) (s : State) (x : Site) (f : FFmt), x = i.site 0x15 2 vmxunpackUse true (mxOf i.ety.toNat).isSome ∧ x.goes s = true ∧ mxOf i.ety.toNat = some f ∧ i.vd.toNat < (i.th s).vmap.length ∧ i.va.toNat < (i.th s).vmap.length) :=
  ⟨⟨iv 0 1 1 0 3 0, w ((iv 0 1 1 0 3 0).site 0x15 0 (vcvtUse (iv 0 1 1 0 3 0)) false (vcvtOk (iv 0 1 1 0 3 0))) (pk vk), (iv 0 1 1 0 3 0).site 0x15 0 (vcvtUse (iv 0 1 1 0 3 0)) false (vcvtOk (iv 0 1 1 0 3 0)), .flt fmtFP16, .flt fmtFP32, .rne, rfl, by decide, by decide, by decide, by decide, by decide, by decide, by decide, by decide⟩,
   ⟨iv 0 1 1 0 3 1, w ((iv 0 1 1 0 3 1).site 0x15 0 (vcvtUse (iv 0 1 1 0 3 1)) false (vcvtOk (iv 0 1 1 0 3 1))) (pk vk), (iv 0 1 1 0 3 1).site 0x15 0 (vcvtUse (iv 0 1 1 0 3 1)) false (vcvtOk (iv 0 1 1 0 3 1)), .flt fmtFP16, .flt fmtFP32, rfl, by decide, by decide, by decide, by decide, by decide, by decide, by decide⟩,
   ⟨iv 0 0 0 4 1 0, w ((iv 0 0 0 4 1 0).site 0x16 4 (vbcastUse (iv 0 0 0 4 1 0)) true (vbcastOk (iv 0 0 0 4 1 0))) (pk vk), (iv 0 0 0 4 1 0).site 0x16 4 (vbcastUse (iv 0 0 0 4 1 0)) true (vbcastOk (iv 0 0 0 4 1 0)), .flt fmtFP32, .rne, rfl, by decide, by decide, by decide, by decide⟩,
   ⟨iv 0 1 0 4 1 63, w ((iv 0 1 0 4 1 63).site 0x16 5 vextUse true (etypeOf (iv 0 1 0 4 1 63).ety.toNat).isSome) (pk vk), (iv 0 1 0 4 1 63).site 0x16 5 vextUse true (etypeOf (iv 0 1 0 4 1 63).ety.toNat).isSome, .flt fmtFP32, rfl, by decide, by decide, by decide, by decide⟩,
   ⟨iv 0 1 0 4 1 64, w ((iv 0 1 0 4 1 64).site 0x16 5 vextUse true (etypeOf (iv 0 1 0 4 1 64).ety.toNat).isSome) (pk vk), (iv 0 1 0 4 1 64).site 0x16 5 vextUse true (etypeOf (iv 0 1 0 4 1 64).ety.toNat).isSome, .flt fmtFP32, rfl, by decide, by decide, by decide, by decide⟩,
   ⟨iv 0 1 0 4 4 0, w ((iv 0 1 0 4 4 0).site 0x15 1 vmxpackUse true (vmxpackOk (iv 0 1 0 4 4 0))) (pk vk), (iv 0 1 0 4 4 0).site 0x15 1 vmxpackUse true (vmxpackOk (iv 0 1 0 4 4 0)), fmtE4M3, .rne, rfl, by decide, by decide, by decide, by decide, by decide⟩,
   ⟨iv 0 1 0 4 4 0, w ((iv 0 1 0 4 4 0).site 0x15 2 vmxunpackUse true (mxOf (iv 0 1 0 4 4 0).ety.toNat).isSome) (pk vk), (iv 0 1 0 4 4 0).site 0x15 2 vmxunpackUse true (mxOf (iv 0 1 0 4 4 0).ety.toNat).isSome, fmtE4M3, rfl, by decide, by decide, by decide, by decide⟩⟩
theorem witness_phaseInstructions :
    (∃ (i : IssueA) (s : State), (i.site 0x28 0 .g .g .none true).goes s = true ∧ (i.th s).gNat i.a.toNat ≤ 63 ∧ (s.core i.core.val).valid.contains ((i.th s).gNat i.a.toNat) = true ∧ (s.core i.core.val).locked.contains ((i.th s).gNat i.a.toNat) = false ∧ (s.core i.core.val).queued < 8)
    ∧ (∃ (i : IssueA) (s : State), (i.site 0x28 0 .g .g .none true).goes s = true ∧ (i.th s).gNat i.a.toNat ≤ 63 ∧ (s.core i.core.val).valid.contains ((i.th s).gNat i.a.toNat) = true ∧ (s.core i.core.val).locked.contains ((i.th s).gNat i.a.toNat) = false ∧ 8 ≤ (s.core i.core.val).queued)
    ∧ (∃ (i : IssueA) (s : State), (i.site 0x28 0 .g .g .none true).goes s = true ∧ (63 < (i.th s).gNat i.a.toNat ∨ (s.core i.core.val).valid.contains ((i.th s).gNat i.a.toNat) = false ∨ (s.core i.core.val).locked.contains ((i.th s).gNat i.a.toNat) = true))
    ∧ (∃ (i : IssueA) (s : State) (v : Nat), (i.site 0x28 1 .g .g .none true).goes s = true ∧ (s.core i.core.val).launchView ((i.th s).gNat i.a.toNat) = .ended v)
    ∧ (∃ (i : IssueA) (s : State), (i.site 0x28 1 .g .g .none true).goes s = true ∧ (s.core i.core.val).launchView ((i.th s).gNat i.a.toNat) = .live)
    ∧ (∃ (i : IssueA) (s : State) (v : Nat), (i.site 0x28 4 .g .g .none true).goes s = true ∧ (s.core i.core.val).launchView ((i.th s).gNat i.a.toNat) = .ended v)
    ∧ (∃ (i : IssueA) (s : State), (i.site 0x28 4 .g .g .none true).goes s = true ∧ (s.core i.core.val).launchView ((i.th s).gNat i.a.toNat) = .live)
    ∧ (∃ (i : IssueA) (s : State) (l : Launch), (i.site 0x28 2 .g .g .none true).goes s = true ∧ (s.core i.core.val).launchView ((i.th s).gNat i.a.toNat) = .live ∧ l.armed = false ∧ (s.core i.core.val).queue.find? (fun l => decide (l.seq = (i.th s).gNat i.a.toNat % 2 ^ 32)) = some l)
    ∧ (∃ (i : IssueA) (s : State), (i.site 0x28 3 .none .none .none true).goes s = true) :=
  ⟨⟨ia 1 2 0, w ((ia 1 2 0).site 0x28 0 .g .g .none true) (pk { co (run [(2, 63)]) with valid := [63], launchSeq := 0xFFFFFFFF }), by decide, by decide, by decide, by decide, by decide⟩,
   ⟨ia 1 2 0, w ((ia 1 2 0).site 0x28 0 .g .g .none true) (pk { co (run [(2, 63)]) with valid := [63], launchSeq := 8, queue := List.replicate 8 la }), by decide, by decide, by decide, by decide, by decide⟩,
   ⟨ia 1 2 0, w ((ia 1 2 0).site 0x28 0 .g .g .none true) (pk { co (run [(2, 63)]) with valid := [63], locked := [63] }), by decide, .inr (.inr (by decide))⟩,
   ⟨ia 1 2 0, w ((ia 1 2 0).site 0x28 1 .g .g .none true) (pk { co (run [(2, 7)]) with launchSeq := 8, outcomes := [⟨7, 1, 0⟩] }), 1, by decide, rfl⟩,
   ⟨ia 1 2 0, w ((ia 1 2 0).site 0x28 1 .g .g .none true) (pk lk), by decide, rfl⟩,
   ⟨ia 1 2 0, w ((ia 1 2 0).site 0x28 4 .g .g .none true) (pk { co (run [(2, 7)]) with launchSeq := 8, outcomes := [⟨7, 1, 0⟩] }), 1, by decide, rfl⟩,
   ⟨ia 1 2 0, w ((ia 1 2 0).site 0x28 4 .g .g .none true) (pk lk), by decide, rfl⟩,
   ⟨ia 1 2 0, w ((ia 1 2 0).site 0x28 2 .g .g .none true) (pk lk), la, by decide, rfl, by decide, by decide⟩,
   ⟨ia 0 0 0, w ((ia 0 0 0).site 0x28 3 .none .none .none true) (pk { co (run []) with held := some 3 }), by decide⟩⟩
theorem witness_counterInstructions :
    (∃ r ∈ ctrRows, ∃ (i : IssueA) (s : State), (i.site 0x2C r.fnAdd .none .g .g true).goes s = true ∧ (i.th s).gNat i.a.toNat ≤ 31 ∧ (s.core i.core.val).ctr r.credit ((i.th s).gNat i.a.toNat) + (i.th s).gNat i.b.toNat % 65536 ≤ 65535)
    ∧ (∃ r ∈ ctrRows, ∃ (i : IssueA) (s : State), (i.site 0x2C r.fnRead .g .g .none true).goes s = true ∧ (i.th s).gNat i.a.toNat ≤ 31)
    ∧ (∃ r ∈ ctrRows, ∃ (i : IssueA) (s : State), (i.site 0x2C r.fnWait .none .g .g true).goes s = true ∧ (i.th s).gNat i.a.toNat ≤ 31 ∧ (s.core i.core.val).headTakes r.credit ((i.th s).gNat i.a.toNat) = false ∧ (s.core i.core.val).takeBefore r.credit ((i.th s).gNat i.a.toNat) 64 = false ∧ (i.th s).gNat i.b.toNat % 65536 ≤ (s.core i.core.val).ctr r.credit ((i.th s).gNat i.a.toNat))
    ∧ (∃ r ∈ ctrRows, ∃ (i : IssueA) (s : State), (i.site 0x2C r.fnTake .none .g .g true).goes s = true ∧ (i.th s).gNat i.a.toNat ≤ 31 ∧ (s.core i.core.val).headTakes r.credit ((i.th s).gNat i.a.toNat) = false ∧ (s.core i.core.val).takeBefore r.credit ((i.th s).gNat i.a.toNat) 64 = false ∧ (i.th s).gNat i.b.toNat % 65536 ≤ (s.core i.core.val).ctr r.credit ((i.th s).gNat i.a.toNat))
    ∧ (∃ r ∈ ctrRows, ∃ (i : IssueA) (s : State) (take : Bool), (i.site 0x2C (if take then r.fnTake else r.fnWait) .none .g .g true).goes s = true ∧ (i.th s).gNat i.a.toNat ≤ 31 ∧ (s.core i.core.val).headTakes r.credit ((i.th s).gNat i.a.toNat) = false ∧ (s.core i.core.val).takeBefore r.credit ((i.th s).gNat i.a.toNat) 64 = false ∧ (s.core i.core.val).ctr r.credit ((i.th s).gNat i.a.toNat) < (i.th s).gNat i.b.toNat % 65536) :=
  ⟨⟨_, .tail _ (.head _), ia 0 1 2, w ((ia 0 1 2).site 0x2C (((ctrRows)[1]'(by decide))).fnAdd .none .g .g true) (pk { co (run [(1, 31), (2, 0x1FFFF)]) with cc := [] }), by decide, by decide, by decide⟩,
   ⟨_, .head _, ia 1 1 0, w ((ia 1 1 0).site 0x2C (((ctrRows)[0]'(by decide))).fnRead .g .g .none true) (pk { co (run [(1, 31)]) with tk := [(31, 9)] }), by decide, by decide⟩,
   ⟨_, .head _, ia 0 1 2, w ((ia 0 1 2).site 0x2C (((ctrRows)[0]'(by decide))).fnWait .none .g .g true) (pk { co (run [(1, 31), (2, 9)]) with tk := [(31, 9)] }), by decide, by decide, by decide, by decide, by decide⟩,
   ⟨_, .head _, ia 0 1 2, w ((ia 0 1 2).site 0x2C (((ctrRows)[0]'(by decide))).fnTake .none .g .g true) (pk { co (run [(1, 31), (2, 9)]) with tk := [(31, 9)] }), by decide, by decide, by decide, by decide, by decide⟩,
   ⟨_, .head _, ia 0 1 2, w ((ia 0 1 2).site 0x2C (if (true) then (((ctrRows)[0]'(by decide))).fnTake else (((ctrRows)[0]'(by decide))).fnWait) .none .g .g true) (pk { co (run [(1, 31), (2, 10)]) with tk := [(31, 9)] }), true, by decide, by decide, by decide, by decide, by decide⟩⟩
theorem witness_reductionAndMailboxInstructions :
    (∃ (i : IssueA) (s : State) (ab : Bool), (i.site 0x34 1 .g .g .none true).goes s = true ∧ (i.th s).gNat i.a.toNat ≤ 15 ∧ (s.core i.core.val).handle ((i.th s).gNat i.a.toNat) = .ended ab)
    ∧ (∃ (i : IssueA) (s : State), (i.site 0x34 1 .g .g .none true).goes s = true ∧ (i.th s).gNat i.a.toNat ≤ 15 ∧ (s.core i.core.val).handle ((i.th s).gNat i.a.toNat) = .pending)
    ∧ (∃ (i : IssueA) (s : State), (i.site 0x34 1 .g .g .none true).goes s = true ∧ (15 < (i.th s).gNat i.a.toNat ∨ (s.core i.core.val).handle ((i.th s).gNat i.a.toNat) = .free))
    ∧ (∃ (i : IssueA) (s : State) (ab : Bool), (i.site 0x34 2 .none .g .none true).goes s = true ∧ (i.th s).gNat i.a.toNat ≤ 15 ∧ (s.core i.core.val).handle ((i.th s).gNat i.a.toNat) = .ended ab)
    ∧ (∃ (i : IssueA) (s : State) (x : ShCtx), (i.site 0x34 2 .none .g .none true).goes s = true ∧ (i.th s).gNat i.a.toNat ≤ 15 ∧ (s.core i.core.val).handle ((i.th s).gNat i.a.toNat) = .pending ∧ s.sheaf.find? (fun x => decide (x.owner = i.core.val) && decide (x.handle = (i.th s).gNat i.a.toNat)) = some x)
    ∧ (∃ (i : IssueA) (s : State) (ab : Bool), (i.site 0x34 3 .g .g .none true).goes s = true ∧ (i.th s).gNat i.a.toNat ≤ 15 ∧ (s.core i.core.val).handle ((i.th s).gNat i.a.toNat) = .ended ab)
    ∧ (∃ (i : IssueA) (s : State), (i.site 0x34 3 .g .g .none true).goes s = true ∧ (i.th s).gNat i.a.toNat ≤ 15 ∧ (s.core i.core.val).handle ((i.th s).gNat i.a.toNat) = .pending)
    ∧ (∃ (i : IssueA) (s : State), (i.site 0x30 2 .none .g .none true).goes s = true ∧ (i.th s).bankOps = [])
    ∧ (∃ r ∈ mailRows, ∃ (i : IssueA) (s : State) (b : Nat), (i.site 0x30 r.2 .g .g .none true).goes s = true ∧ s.coreBarn i.core.val = some b ∧ (s.berth b).bin &&& BitVec.ofNat 32 ((i.th s).gNat i.a.toNat % 2 ^ 32) ≠ 0)
    ∧ (∃ (i : IssueA) (s : State) (b : Nat), (i.site 0x30 4 .g .g .none true).goes s = true ∧ s.coreBarn i.core.val = some b ∧ (s.berth b).bin &&& BitVec.ofNat 32 ((i.th s).gNat i.a.toNat % 2 ^ 32) = 0)
    ∧ (∃ (i : IssueA) (s : State) (b : Nat), (i.site 0x30 3 .g .g .none true).goes s = true ∧ s.coreBarn i.core.val = some b ∧ (s.berth b).bin &&& BitVec.ofNat 32 ((i.th s).gNat i.a.toNat % 2 ^ 32) = 0) :=
  ⟨⟨ia 1 1 0, w ((ia 1 1 0).site 0x34 1 .g .g .none true) (pk { co (run [(1, 15)]) with handles := [(15, .ended true)] }), true, by decide, by decide, by decide⟩,
   ⟨ia 1 1 0, w ((ia 1 1 0).site 0x34 1 .g .g .none true) (pk { co (run [(1, 15)]) with handles := [(15, .pending)] }), by decide, by decide, by decide⟩,
   ⟨ia 1 1 0, w ((ia 1 1 0).site 0x34 1 .g .g .none true) (th (run [(1, 16)])), by decide, .inl (by decide)⟩,
   ⟨ia 0 1 0, w ((ia 0 1 0).site 0x34 2 .none .g .none true) (pk { co (run [(1, 15)]) with handles := [(15, .ended true)] }), true, by decide, by decide, by decide⟩,
   ⟨ia 0 1 0, w ((ia 0 1 0).site 0x34 2 .none .g .none true) (({ pk { co (run [(1, 15)]) with handles := [(15, .pending)] } with sheaf := [⟨5, 1, 0, 5, 15, 0, .exp, [], [], [], false⟩] } : State)), ⟨5, 1, 0, 5, 15, 0, .exp, [], [], [], false⟩, by decide, by decide, by decide, by decide⟩,
   ⟨ia 1 1 0, w ((ia 1 1 0).site 0x34 3 .g .g .none true) (pk { co (run [(1, 15)]) with handles := [(15, .ended true)] }), true, by decide, by decide, by decide⟩,
   ⟨ia 1 1 0, w ((ia 1 1 0).site 0x34 3 .g .g .none true) (pk { co (run [(1, 15)]) with handles := [(15, .pending)] }), by decide, by decide, by decide⟩,
   ⟨ia 0 1 0, w ((ia 0 1 0).site 0x30 2 .none .g .none true) (th (run [(1, 6)])), by decide, by decide⟩,
   ⟨_, .tail _ (.head _), ia 1 1 0, w ((ia 1 1 0).site 0x30 (((mailRows)[1]'(by decide))).2 .g .g .none true) (({ th (run [(1, 6)]) with berths := [(0, { Berth.init with bin := 3 })] } : State)), 0, by decide, by decide, by decide⟩,
   ⟨ia 1 1 0, w ((ia 1 1 0).site 0x30 4 .g .g .none true) (({ th (run [(1, 6)]) with berths := [(0, { Berth.init with bin := 1 })] } : State)), 0, by decide, by decide, by decide⟩,
   ⟨ia 1 1 0, w ((ia 1 1 0).site 0x30 3 .g .g .none true) (({ th (run [(1, 6)]) with berths := [(0, { Berth.init with bin := 1 })] } : State)), 0, by decide, by decide, by decide⟩⟩
theorem witness_barriersTimeAndThreads :
    (∃ (i : IssueA) (s : State), (i.site 0x38 0 .none .g .g true).goes s = true ∧ (i.th s).gNat i.a.toNat ≤ 7 ∧ 1 ≤ (i.th s).gNat i.b.toNat ∧ (i.th s).gNat i.b.toNat ≤ 64 ∧ (s.core i.core.val).barWaiters ((i.th s).gNat i.a.toNat) = [])
    ∧ (∃ (i : IssueA) (s : State), (i.site 0x38 1 .none .g .none true).goes s = true ∧ (i.th s).gNat i.a.toNat ≤ 7 ∧ tget 0 (s.core i.core.val).bars ((i.th s).gNat i.a.toNat) ≠ 0 ∧ tget 0 (s.core i.core.val).bars ((i.th s).gNat i.a.toNat) ≤ ((s.core i.core.val).barWaiters ((i.th s).gNat i.a.toNat)).length + 1)
    ∧ (∃ (i : IssueA) (s : State), (i.site 0x38 1 .none .g .none true).goes s = true ∧ (i.th s).gNat i.a.toNat ≤ 7 ∧ ((s.core i.core.val).barWaiters ((i.th s).gNat i.a.toNat)).length + 1 < tget 0 (s.core i.core.val).bars ((i.th s).gNat i.a.toNat))
    ∧ (∃ (i : IssueA) (s : State), (i.site 0x39 0 .g .none .none true).goes s = true)
    ∧ (∃ (i : IssueA) (s : State), (i.site 0x39 1 .none .g .none true).goes s = true ∧ (i.th s).gNat i.a.toNat ≤ s.reckon)
    ∧ (∃ (i : IssueA) (s : State), (i.site 0x39 1 .none .g .none true).goes s = true ∧ s.reckon < (i.th s).gNat i.a.toNat)
    ∧ (∃ (i : IssueA) (s : State), (i.site 0x39 2 .none .g .none true).goes s = true ∧ (i.th s).gNat i.a.toNat ≤ 15)
    ∧ (∃ (i : IssueA) (s : State) (m : Mark), (i.site 0x39 3 .g .g .none true).goes s = true ∧ (i.th s).gNat i.a.toNat ≤ 15 ∧ tget none (i.th s).markers ((i.th s).gNat i.a.toNat) = some m ∧ m.at_ ≤ s.reckon ∧ s.reckon < m.at_ + 2 ^ 62)
    ∧ (∃ (i : IssueA) (s : State), (i.site 0x39 3 .g .g .none true).goes s = true ∧ (i.th s).gNat i.a.toNat ≤ 15 ∧ tget none (i.th s).markers ((i.th s).gNat i.a.toNat) = none)
    ∧ (∃ (i : IssueA) (s : State), (i.site 0x3C 0 .p .g .g true).goes s = true ∧ (i.th s).gNat i.a.toNat ≤ 63 ∧ (s.th i.core.val ((i.th s).gNat i.a.toNat)).st = .stopped)
    ∧ (∃ (i : IssueA) (s : State), (i.site 0x3C 0 .p .g .g true).goes s = true ∧ (i.th s).gNat i.a.toNat ≤ 63 ∧ (s.th i.core.val ((i.th s).gNat i.a.toNat)).st ≠ .stopped)
    ∧ (∃ (i : IssueA) (s : State), (i.site 0x3C 1 .none .none .none true).goes s = true)
    ∧ (∃ (i : IssueA) (s : State), i.thread.val = 0 ∧ (i.site 0x3C 2 .none .g .none true).goes s = true ∧ 1 ≤ (i.th s).gNat i.a.toNat ∧ (i.th s).gNat i.a.toNat ≤ 63)
    ∧ (∃ (i : IssueA) (s : State), i.thread.val = 0 ∧ (i.site 0x3C 2 .none .g .none true).goes s = true ∧ (i.th s).gNat i.a.toNat = 0)
    ∧ (∃ (i : IssueA) (s : State), i.thread.val = 0 ∧ (i.site 0x3C 3 .p .g .g true).goes s = true ∧ (i.th s).gNat i.a.toNat ≤ 63 ∧ (s.th i.core.val ((i.th s).gNat i.a.toNat)).st = .faulted)
    ∧ (∃ (i : IssueA) (s : State), i.thread.val = 0 ∧ (i.site 0x3C 3 .p .g .g true).goes s = true ∧ (i.th s).gNat i.a.toNat ≤ 63 ∧ (s.th i.core.val ((i.th s).gNat i.a.toNat)).st ≠ .faulted)
    ∧ (∃ (i : IssueA) (s : State), i.thread.val = 0 ∧ (i.site 0x3C 4 .g .g .none true).goes s = true ∧ (s.core i.core.val).faultedMask &&& (i.th s).gNat i.a.toNat ≠ 0)
    ∧ (∃ (i : IssueA) (s : State), i.thread.val = 0 ∧ (i.site 0x3C 4 .g .g .none true).goes s = true ∧ (s.core i.core.val).faultedMask &&& (i.th s).gNat i.a.toNat = 0)
    ∧ (∃ (i : IssueA) (s : State), (i.site 0x3C 5 .p .g .none true).goes s = true ∧ 1 ≤ (i.th s).gNat i.a.toNat ∧ (i.th s).gNat i.a.toNat ≤ 64 ∧ (i.th s).vmap = [] ∧ (i.th s).gNat i.a.toNat ≤ (s.core i.core.val).vFree.length)
    ∧ (∃ (i : IssueA) (s : State), (i.site 0x3C 5 .p .g .none true).goes s = true ∧ 1 ≤ (i.th s).gNat i.a.toNat ∧ (i.th s).gNat i.a.toNat ≤ 64 ∧ ((i.th s).vmap ≠ [] ∨ (s.core i.core.val).vFree.length < (i.th s).gNat i.a.toNat))
    ∧ (∃ (i : IssueA) (s : State), (i.site 0x3C 6 .none .none .none true).goes s = true ∧ (s.core i.core.val).busyV i.thread.val = [])
    ∧ (∃ (i : IssueA) (s : State), (i.site 0x3C 7 .none .none .none true).goes s = true)
    ∧ (∃ (i : IssueA) (s : State), i.thread.val ≠ 0 ∧ (i.site 0x3C 2 .none .g .none true).goes s = true)
    ∧ (∃ (i : IssueA) (s : State), i.thread.val ≠ 0 ∧ (i.site 0x3C 3 .p .g .g true).goes s = true)
    ∧ (∃ (i : IssueA) (s : State), i.thread.val ≠ 0 ∧ (i.site 0x3C 4 .g .g .none true).goes s = true) :=
  ⟨⟨ia 0 1 2, w ((ia 0 1 2).site 0x38 0 .none .g .g true) (th (run [(1, 7), (2, 64)])), by decide, by decide, by decide, by decide, by decide⟩,
   ⟨ia 0 1 0, w ((ia 0 1 0).site 0x38 1 .none .g .none true) (pk { co (run [(1, 7)]) with bars := [(7, 1)] }), by decide, by decide, by decide, by decide⟩,
   ⟨ia 0 1 0, w ((ia 0 1 0).site 0x38 1 .none .g .none true) (pk { co (run [(1, 7)]) with bars := [(7, 2)] }), by decide, by decide, by decide⟩,
   ⟨ia 1 0 0, w ((ia 1 0 0).site 0x39 0 .g .none .none true) (({ th (run []) with reckon := 77 } : State)), by decide⟩,
   ⟨ia 0 1 0, w ((ia 0 1 0).site 0x39 1 .none .g .none true) (({ th (run [(1, 77)]) with reckon := 77 } : State)), by decide, by decide⟩,
   ⟨ia 0 1 0, w ((ia 0 1 0).site 0x39 1 .none .g .none true) (({ th (run [(1, 78)]) with reckon := 77 } : State)), by decide, by decide⟩,
   ⟨ia 0 1 0, w ((ia 0 1 0).site 0x39 2 .none .g .none true) (({ th (run [(1, 15)]) with reckon := 77 } : State)), by decide, by decide⟩,
   ⟨ia 1 1 0, w ((ia 1 1 0).site 0x39 3 .g .g .none true) (({ th { run [(1, 15)] with markers := [(15, some ⟨70, 0⟩)] } with reckon := 77, dieCycle := [(0, 2)] } : State)), ⟨70, 0⟩, by decide, by decide, by decide, by decide, by decide⟩,
   ⟨ia 1 1 0, w ((ia 1 1 0).site 0x39 3 .g .g .none true) (th (run [(1, 15)])), by decide, by decide, by decide⟩,
   ⟨ia 1 1 2, w ((ia 1 1 2).site 0x3C 0 .p .g .g true) (th (run [(1, 63), (2, 0x40)])), by decide, by decide, by decide⟩,
   ⟨ia 1 1 2, w ((ia 1 1 2).site 0x3C 0 .p .g .g true) (th (run [(1, 3), (2, 0x40)])), by decide, by decide, by decide⟩,
   ⟨ia 0 0 0, w ((ia 0 0 0).site 0x3C 1 .none .none .none true) (th { run [] with vmap := [1] }), by decide⟩,
   ⟨i0 0 1 0, w ((i0 0 1 0).site 0x3C 2 .none .g .none true) (pk { Core.init with power := .running, threads := [(0, run [(1, 63)]), (63, vrun [])] }), by decide, by decide, by decide, by decide⟩,
   ⟨i0 0 1 0, w ((i0 0 1 0).site 0x3C 2 .none .g .none true) (c0 (run [])), by decide, by decide, by decide⟩,
   ⟨i0 1 1 2, w ((i0 1 1 2).site 0x3C 3 .p .g .g true) (pk { Core.init with power := .running, threads := [(0, run [(1, 63), (2, 0x40)]), (63, { vrun [] with st := .faulted })] }), by decide, by decide, by decide, by decide⟩,
   ⟨i0 1 1 2, w ((i0 1 1 2).site 0x3C 3 .p .g .g true) (c0 (run [(1, 63)])), by decide, by decide, by decide, by decide⟩,
   ⟨i0 1 1 0, w ((i0 1 1 0).site 0x3C 4 .g .g .none true) (pk { Core.init with power := .running, threads := [(0, run [(1, 0x8000000000000000)]), (63, { vrun [] with st := .faulted })] }), by decide, by decide, by decide⟩,
   ⟨i0 1 1 0, w ((i0 1 1 0).site 0x3C 4 .g .g .none true) (c0 (run [(1, 0x8000000000000000)])), by decide, by decide, by decide⟩,
   ⟨ia 1 1 0, w ((ia 1 1 0).site 0x3C 5 .p .g .none true) (th (run [(1, 64)])), by decide, by decide, by decide, by decide, by decide⟩,
   ⟨ia 1 1 0, w ((ia 1 1 0).site 0x3C 5 .p .g .none true) (th (vrun [(1, 64)])), by decide, by decide, by decide, .inl (by decide)⟩,
   ⟨ia 0 0 0, w ((ia 0 0 0).site 0x3C 6 .none .none .none true) (th (vrun [])), by decide, by decide⟩,
   ⟨ia 0 0 0, w ((ia 0 0 0).site 0x3C 7 .none .none .none true) (th (run [])), by decide⟩,
   ⟨ia 0 1 0, w ((ia 0 1 0).site 0x3C 2 .none .g .none true) (th (run [])), by decide, by decide⟩,
   ⟨ia 1 1 2, w ((ia 1 1 2).site 0x3C 3 .p .g .g true) (th (run [])), by decide, by decide⟩,
   ⟨ia 1 1 0, w ((ia 1 1 0).site 0x3C 4 .g .g .none true) (th (run [])), by decide, by decide⟩⟩
theorem witness_specialRegisters :
    (∃ (i : IssueA) (fn : BitVec 7) (s : State) (v : BitVec 64), (i.site 0x3D fn.toNat .g .none .none (decide (fn.toNat ≤ 0x0D))).goes s = true ∧ s.sreg i.core.val i.thread.val fn.toNat = some v)
    ∧ (∃ (i : IssueA) (fn : BitVec 7) (s : State) (v : BitVec 64), i.thread.val = 0 ∧ (i.site 0x3F fn.toNat .g .g .none (decide (fn.toNat ≤ 0x0D))).goes s = true ∧ (i.th s).gNat i.a.toNat ≤ 63 ∧ s.sreg i.core.val ((i.th s).gNat i.a.toNat) fn.toNat = some v)
    ∧ (∃ (i : IssueA) (fn : BitVec 7) (s : State), i.thread.val ≠ 0 ∧ (i.site 0x3F fn.toNat .g .g .none (decide (fn.toNat ≤ 0x0D))).goes s = true)
    ∧ (∃ (i : IssueA) (fn : BitVec 7) (s : State), (i.site 0x3E fn.toNat .none .g .none (decide (fn.toNat ≤ 0x0D))).goes s = true) :=
  ⟨⟨ia 1 0 0, 3, w ((ia 1 0 0).site 0x3D ((3 : BitVec 7)).toNat .g .none .none (decide (((3 : BitVec 7)).toNat ≤ 0x0D))) (th { run [] with fpflags := 5 }), 5, by decide, by decide⟩,
   ⟨i0 1 1 0, 8, w ((i0 1 1 0).site 0x3F ((8 : BitVec 7)).toNat .g .g .none (decide (((8 : BitVec 7)).toNat ≤ 0x0D))) (pk { Core.init with power := .running, threads := [(0, run [(1, 63)]), (63, { run [] with fcause := 0x10203 })] }), 0x10203, by decide, by decide, by decide, by decide⟩,
   ⟨ia 1 1 0, 8, w ((ia 1 1 0).site 0x3F ((8 : BitVec 7)).toNat .g .g .none (decide (((8 : BitVec 7)).toNat ≤ 0x0D))) (th (run [])), by decide, by decide⟩,
   ⟨ia 0 1 0, 3, w ((ia 0 1 0).site 0x3E ((3 : BitVec 7)).toNat .none .g .none (decide (((3 : BitVec 7)).toNat ≤ 0x0D))) (th { run [(1, 1)] with fpflags := 5 }), by decide⟩⟩
theorem witness_instructionsThatDoNotExecute :
    ∃ (i : Instr) (x : Site) (s : State), siteOf i = some x ∧ x.goes s = false :=
  ⟨.brk (ia 0 0 0), (ia 0 0 0).site 0x3C 7 .none .none .none true, th { run [] with pc := 18 }, rfl, by decide⟩
theorem witness_exceptionEntry :
    ∃ (s : State) (c t code status extra pc addr : Nat), (s.th c t).st ≠ .faulted ∧ (s.th c t).st ≠ .stopped :=
  ⟨th (run []), 5, 3, 9, 2, 300, 0x8004, 0x40, by decide, by decide⟩
theorem witness_waitsEnd :
    (∃ (c : CoreId) (k : ThreadId) (s : State) (n thr : Nat), (s.th c.val k.val).st = .waiting (.tally n thr) ∧ s.coreSteps c.val = true ∧ tallyMet (s.tally (coreCluster c.val) n) thr = true)
    ∧ (∃ (c : CoreId) (k : ThreadId) (s : State) (cr take : Bool) (n thr : Nat), (s.th c.val k.val).st = .waiting (.counter cr n thr take) ∧ s.coreSteps c.val = true ∧ (s.core c.val).headTakes cr n = false ∧ (s.core c.val).takeBefore cr n (if take then k.val else 64) = false ∧ thr ≤ (s.core c.val).ctr cr n)
    ∧ (∃ (c : CoreId) (k : ThreadId) (s : State) (seq gd v : Nat), (s.th c.val k.val).st = .waiting (.phase seq gd) ∧ s.coreSteps c.val = true ∧ (s.core c.val).launchView seq = .ended v)
    ∧ (∃ (c : CoreId) (k : ThreadId) (s : State) (e gd : Nat), (s.th c.val k.val).st = .waiting (.launch e gd) ∧ s.coreSteps c.val = true ∧ (s.core c.val).queued < 8 ∧ (s.core c.val).valid.contains e = true ∧ (s.core c.val).locked.contains e = false)
    ∧ (∃ (c : CoreId) (h : Fin 16) (k : ThreadId) (s : State) (ab : Bool) (gd : Nat), (s.core c.val).handle h.val = .ended ab ∧ s.coreSteps c.val = true ∧ (s.core c.val).threads = [(k.val, s.th c.val k.val)] ∧ (s.th c.val k.val).st = .waiting (.reduction h.val gd))
    ∧ (∃ (c : CoreId) (k : ThreadId) (s : State) (mask gd b : Nat), (s.th c.val k.val).st = .waiting (.mailbox mask gd) ∧ s.coreSteps c.val = true ∧ s.coreBarn c.val = some b ∧ (s.berth b).bin &&& BitVec.ofNat 32 mask ≠ 0 ∧ s.mailBefore c.val k.val mask = false)
    ∧ (∃ (c : CoreId) (k : ThreadId) (s : State) (tgt : Nat), (s.th c.val k.val).st = .waiting (.time tgt) ∧ s.coreSteps c.val = true ∧ tgt ≤ s.reckon)
    ∧ (∃ (c : CoreId) (k : ThreadId) (s : State) (mask gd : Nat), (s.th c.val k.val).st = .waiting (.fault mask gd) ∧ s.coreSteps c.val = true ∧ (s.core c.val).faultedMask &&& mask ≠ 0)
    ∧ (∃ (c : CoreId) (k : ThreadId) (s : State) (all : Bool), (s.th c.val k.val).st = .waiting (.fence all) ∧ s.coreSteps c.val = true ∧ (s.core c.val).spanPending k.val all = false ∧ (s.th c.val k.val).storeErr = none)
    ∧ (∃ (c : CoreId) (k : ThreadId) (s : State) (all : Bool) (addr status : Nat), (s.th c.val k.val).st = .waiting (.fence all) ∧ s.coreSteps c.val = true ∧ (s.core c.val).spanPending k.val all = false ∧ (s.th c.val k.val).storeErr = some (addr, status)) :=
  ⟨⟨5, 3, th { run [] with st := .waiting (.tally 1023 0) }, 1023, 0, by decide, by decide, by decide⟩,
   ⟨5, 3, pk { co { run [] with st := .waiting (.counter true 31 4 true) } with cc := [(31, 9)] }, true, true, 31, 4, by decide, by decide, by decide, by decide, by decide⟩,
   ⟨5, 3, pk { co { run [] with st := .waiting (.phase 7 1) } with launchSeq := 8, outcomes := [⟨7, 1, 0⟩] }, 7, 1, 1, by decide, by decide, rfl⟩,
   ⟨5, 3, pk { co { run [] with st := .waiting (.launch 63 1) } with valid := [63] }, 63, 1, by decide, by decide, by decide, by decide, by decide⟩,
   ⟨5, 15, 3, pk { co { run [] with st := .waiting (.reduction 15 1) } with handles := [(15, .ended true)] }, true, 1, by decide, by decide, by decide, by decide⟩,
   ⟨5, 3, { th { run [] with st := .waiting (.mailbox 6 1) } with berths := [(0, { Berth.init with bin := 3 })] }, 6, 1, 0, by decide, by decide, by decide, by decide, by decide⟩,
   ⟨5, 3, { th { run [] with st := .waiting (.time 77) } with reckon := 77 }, 77, by decide, by decide, by decide⟩,
   ⟨5, 3, pk { Core.init with power := .running, threads := [(3, { run [] with st := .waiting (.fault 0x8000000000000008 1) }), (63, { vrun [] with st := .faulted })] }, 0x8000000000000008, 1, by decide, by decide, by decide⟩,
   ⟨5, 3, th { run [] with st := .waiting (.fence true) }, true, by decide, by decide, by decide, by decide⟩,
   ⟨5, 3, th { run [] with st := .waiting (.fence true), storeErr := some (9, 5) }, true, 9, 5, by decide, by decide, by decide, by decide⟩⟩
theorem witness_phaseSequencing :
    (∃ (c : CoreId) (s : State) (l : Launch) (q : List Launch), (s.core c.val).queue = l :: q ∧ s.coreSteps c.val = true ∧ (s.core c.val).run = none ∧ (s.core c.val).held = none ∧ l.armed = false ∧ (s.core c.val).condsHold l.entry = true ∧ (s.core c.val).gangOf l.entry = 0)
    ∧ (∃ (c : CoreId) (s : State) (l : Launch) (q : List Launch), (s.core c.val).queue = l :: q ∧ s.coreSteps c.val = true ∧ (s.core c.val).run = none ∧ (s.core c.val).held = none ∧ l.armed = false ∧ (s.core c.val).condsHold l.entry = true ∧ (s.core c.val).gangOf l.entry ≠ 0)
    ∧ (∃ (d : DieId) (line : Fin 32) (s : State), (s.gang (32 * d.val + line.val)).members ≠ [] ∧ (s.gang (32 * d.val + line.val)).lost = false ∧ ((∀ c ∈ (s.gang (32 * d.val + line.val)).members, s.coreSteps c = true ∧ ((s.core c).armedFor (line.val + 1)).isSome = true)))
    ∧ (∃ (d : DieId) (line : Fin 32) (s : State), (s.gang (32 * d.val + line.val)).lost = true)
    ∧ (∃ (c : CoreId) (s : State) (l : Launch), (s.core c.val).ending = some l ∧ (s.core c.val).spanCount + ((pdPosts (tget 0 (s.core c.val).phaseTab l.entry)).filter fun p => p.en && p.remote).length ≤ 256 ∧ ((∀ p ∈ pdPosts (tget 0 (s.core c.val).phaseTab l.entry), p.en = false)))
    ∧ (∃ (c : CoreId) (s : State) (l : Launch) (ps : List Post), (s.core c.val).ending = some l ∧ ps = (pdPosts (tget 0 (s.core c.val).phaseTab l.entry)).filter (·.en) ∧ (s.core c.val).spanCount + (ps.filter (·.remote)).length ≤ 256)
    ∧ (∃ (s : State) (c : Nat) (l : List (Bool × Nat × Nat)), ((∀ cr n, (s.core c).ctr cr n + sumTo l cr n ≤ 65535)))
    ∧ (∃ (d : DieId) (s : State) (n : Nat), tget 0 s.holdNotice d.val = n + 1 ∧ tget 0 s.dieCycle d.val % 64 = 0)
    ∧ (∃ (d : DieId) (s : State), tget 0 s.dieCycle d.val % 64 ≠ 0)
    ∧ (∃ (c : CoreId) (s : State) (r : PhaseRun), (s.core c.val).run = some r ∧ s.coreSteps c.val = true ∧ (s.core c.val).ending = none ∧ (s.core c.val).stepped < s.freeCycles (coreDie c.val) ∧ pdSchedCount (tget 0 (s.core c.val).phaseTab r.launch.entry) = 0 ∧ ((s.core c.val).stepAt r.word).mac = false ∧ ((s.core c.val).stepAt r.word).drain = false ∧ ((s.core c.val).stepAt r.word).init = false)
    ∧ (∃ (k : Core) (r : PhaseRun) (d : Nat) (w : StepWord) (a b sa sb : List Byte) (m n kk : Nat) (win : Bool), macShape w.fmtA w.fmtB = some (m, n, kk, win) ∧ w.blk = 0 ∧ w.accBase + m * n ≤ 1024)
    ∧ (∃ (k : Core) (r : PhaseRun) (d : Nat) (w : StepWord), drainBase w r.rep + 32 ≤ 1024)
    ∧ (∃ (s : State) (c code : Nat) (r : PhaseRun), (s.core c).run = some r)
    ∧ (∃ (s : State) (c code : Nat) (l : Launch) (q : List Launch), (s.core c).run = none ∧ (s.core c).queue = l :: q) :=
  ⟨⟨5, pk { lk with launchSeq := 8 }, la, [], by decide, by decide, by decide, by decide, by decide, by decide, by decide⟩,
   ⟨5, pk { lk with phaseTab := [(3, 32 * 2 ^ 54)] }, la, [], by decide, by decide, by decide, by decide, by decide, by decide, by decide⟩,
   ⟨0, 31, { pk { lk with phaseTab := [(3, 32 * 2 ^ 54)], queue := [{ la with armed := true }] } with gangs := [(31, ⟨0, [5], false⟩)] }, by decide, by decide, by decide⟩,
   ⟨0, 31, { pk { lk with phaseTab := [(3, 32 * 2 ^ 54)], queue := [{ la with armed := true }] } with gangs := [(31, ⟨0, [5], true⟩)] }, by decide⟩,
   ⟨5, pk { lk with queue := [], ending := some la }, la, by decide, by decide, by decide⟩,
   ⟨5, pk { lk with queue := [], ending := some la }, la, (pdPosts (tget 0 ((pk { lk with queue := [], ending := some la }).core ((5 : CoreId)).val).phaseTab (la).entry)).filter (·.en), by decide, rfl, by decide⟩,
   ⟨base, 5, [(true, 3, 7)], sum7⟩,
   ⟨15, { base with holdNotice := [(15, 1)] }, 0, by decide, by decide⟩,
   ⟨15, { base with dieCycle := [(15, 2)] }, by decide⟩,
   ⟨5, pk { lk with queue := [], run := some r0 }, r0, by decide, by decide, by decide, by decide, by decide, by decide, by decide, by decide⟩,
   ⟨co (run []), r0, 0, stepWord 0, [], [], [], [], 32, 32, 1, false, by decide, by decide, by decide⟩,
   ⟨co (run []), r0, 0, stepWord 0, by decide⟩,
   ⟨pk { lk with queue := [], run := some r0 }, 5, 0x06, r0, by decide⟩,
   ⟨pk lk, 5, 0x06, la, [], by decide, by decide⟩⟩
theorem witness_coreAndMeshEvents :
    (∃ (w : WriteBack) (s : State) (a : Nat), (s.core w.core.val).writeBacks[w.slot.val]? = some a ∧ (s.core w.core.val).inboundAt a = false)
    ∧ (∃ (c : CoreId) (r : Fin 256) (s : State), (s.core c.val).vzero.contains r.val = true)
    ∧ (∃ (c : CoreId) (s : State) (rows : List (Fin 6144)), (s.core c.val).power = .zeroing ∧ s.releaseWait = [])
    ∧ (∃ (c : CoreId) (es : List Ecc) (s : State) (b : Beat) (l : List Beat), (s.core c.val).inbound = b :: l ∧ b.last = false)
    ∧ (∃ (c : CoreId) (es : List Ecc) (s : State) (b : Beat) (p : Pkt) (l : List Beat), (s.core c.val).inbound = b :: l ∧ b.last = true ∧ b.poison = false ∧ (s.core c.val).inBad = false ∧ b.pkt = some p)
    ∧ (∃ (c : CoreId) (es : List Ecc) (s : State) (b : Beat) (p : Pkt) (l : List Beat), (s.core c.val).inbound = b :: l ∧ b.last = true ∧ (b.poison = true ∨ (s.core c.val).inBad = true) ∧ b.pkt = some p ∧ isCplOp p.op = false ∧ p.tc ≠ 0)
    ∧ (∃ (c : CoreId) (src : Fin 6) (e : Ecc) (s : State) (b : Beat) (l : List Beat) (j : Nat), (s.core c.val).buf src.val = b :: l ∧ s.linkSlot c.val 4 src.val = some j ∧ dynRoute c.val (decide (b.ident = 64)) b.dest = 4 ∧ (s.core c.val).inbound.length < 8)
    ∧ (∃ (c : CoreId) (src : Fin 6) (e : Ecc) (s : State) (b : Beat) (l : List Beat) (j : Nat), (s.core c.val).buf src.val = b :: l ∧ s.linkSlot c.val 5 src.val = some j ∧ dynRoute c.val (decide (b.ident = 64)) b.dest = 5)
    ∧ (∃ (c : CoreId) (link : Fin 6) (src : Fin 6) (s : State) (n : Nat) (b : Beat) (l : List Beat) (j : Nat), link.val < 4 ∧ (s.core c.val).buf src.val = b :: l ∧ s.linkSlot c.val link.val src.val = some j ∧ dynRoute c.val (decide (b.ident = 64)) b.dest = link.val ∧ neighbour c.val link.val = some n ∧ n ≠ c.val ∧ ((s.core n).buf (opposite link.val)).length < 4)
    ∧ (∃ (c : CoreId) (link : Fin 6) (src : Fin 6) (s : State) (n : Nat) (b : Beat) (l : List Beat) (j : Nat), link.val < 4 ∧ (s.core c.val).buf src.val = b :: l ∧ s.linkSlot c.val link.val src.val = some j ∧ dynRoute c.val (decide (b.ident = 64)) b.dest = link.val ∧ neighbour c.val link.val = some n ∧ n ≠ c.val ∧ ((s.core n).buf (opposite link.val)).length < 4) :=
  ⟨⟨⟨5, 3⟩, pk { co (run []) with writeBacks := [0, 64, 128, 192] }, 192, by decide, by decide⟩,
   ⟨5, 255, pk { Core.init with vzero := [255], vregs := [(255, 3)] }, by decide⟩,
   ⟨5, pk { Core.init with power := .zeroing }, [0x17FF, 0], by decide, by decide⟩,
   ⟨5, [], pk { Core.init with inbound := [bq, bt] }, bq, [bt], by decide, by decide⟩,
   ⟨5, [], pk { co (run []) with inbound := [bt] }, bt, pkt 0x02 (coordOf 64 5) (coordOf 64 6) 0x20000500040 [1], [], by decide, by decide, by decide, by decide, by decide⟩,
   ⟨5, [], pk { co (run []) with inbound := [{ bt with poison := true }] }, { bt with poison := true }, pkt 0x02 (coordOf 64 5) (coordOf 64 6) 0x20000500040 [1], [], by decide, by decide, by decide, by decide, by decide, by decide⟩,
   ⟨5, 0, .ok, pk { co (run []) with bufN := [bt] }, bt, [], 0, by decide, by decide, by decide, by decide⟩,
   ⟨99, 3, .ok, { base with cores := [(99, { co (run []) with bufW := [{ bt with ident := 5, dest := 64 }] })] }, { bt with ident := 5, dest := 64 }, [], 0, by decide, by decide, by decide⟩,
   ⟨5, 2, 0, pk { co (run []) with bufN := [{ bt with dest := 6 }] }, 6, { bt with dest := 6 }, [], 0, by decide, by decide, by decide, by decide, by decide, by decide, by decide⟩,
   ⟨5, 2, 0, pk { co (run []) with bufN := [{ bt with dest := 6 }] }, 6, { bt with dest := 6 }, [], 0, by decide, by decide, by decide, by decide, by decide, by decide, by decide⟩⟩
theorem witness_coreServesRequests :
    (∃ (s : State) (c : Nat) (p : Pkt), p.op = 0x01)
    ∧ (∃ (s : State) (c : Nat) (p : Pkt) (es : List Ecc), (p.op = 0x02 ∨ p.op = 0x03))
    ∧ (∃ (s : State) (c : Nat) (p : Pkt) (es : List Ecc), p.op = 0x11)
    ∧ (∃ (s : State) (c : Nat) (p : Pkt) (v : BitVec 64), 0x20 ≤ p.op ∧ p.op ≤ 0x29 ∧ atomicNew (p.op - 0x20) (BitVec.ofNat 64 (leVal (s.windowRead c (p.addr % 2 ^ 20) 8))) (BitVec.ofNat 64 (leVal (p.payload.take 8))) (BitVec.ofNat 64 (leVal (p.payload.drop 8))) = some v)
    ∧ (∃ (s : State) (c : Nat) (p : Pkt), p.op = 0x01 ∧ p.addr % 2 ^ 20 < 0x60000 ∧ 1 ≤ loadLen p)
    ∧ (∃ (s : State) (c a : Nat) (bs : List Byte), a + bs.length ≤ 0x60000) :=
  ⟨⟨th (run []), 5, pkt 0x01 (coordOf 64 5) (coordOf 64 6) 0x2000055FFFC (leBytes 4 4), by decide⟩,
   ⟨th (run []), 5, pkt 0x02 (coordOf 64 5) (coordOf 64 6) 0x2000055FFFC [1, 2], [], by decide⟩,
   ⟨th (run []), 5, pkt 0x11 (coordOf 64 5) (memEp 64 0) 0x20000500040 (List.replicate 16 0 ++ [3]), [], by decide⟩,
   ⟨th (run []), 5, pkt 0x20 (coordOf 64 5) (coordOf 64 6) 0x20000500040 (List.replicate 16 1), 0x0101010101010101, by decide, by decide, by decide⟩,
   ⟨th (run []), 5, pkt 0x01 (coordOf 64 5) (coordOf 64 6) 0x2000055FFFC (leBytes 4 4), by decide, by decide, by decide⟩,
   ⟨th (run []), 5, 0x5FFFE, [1, 2], by decide⟩⟩
theorem witness_reductionEvents :
    (∃ (p : Pkt) (s : State) (n : Nat) (x : ShCtx), p.plain = true ∧ s.behind p = false ∧ nodeOfEp s.variant p.dst = some n ∧ (landed s p).nodeOut n = false ∧ (landed s p).nodeInReset n = false ∧ (16384 ≤ n ∨ s.net.contains p = false) ∧ (landed s p).wordCtx n p.barn (p.addr % 2 ^ 32) = some x)
    ∧ (∃ (p : Pkt) (s : State) (n : Nat), p.plain = true ∧ s.behind p = false ∧ nodeOfEp s.variant p.dst = some n ∧ (landed s p).nodeOut n = false ∧ (landed s p).nodeInReset n = false ∧ (16384 ≤ n ∨ s.net.contains p = false) ∧ (landed s p).wordCtx n p.barn (p.addr % 2 ^ 32) = none)
    ∧ (∃ (node : Nat) (r : CtxRef) (s : State) (x : ShCtx), s.ctx node r = some x ∧ shKind x.desc = 0 ∧ shLocal x.desc = 0 ∧ shRoot x.desc = false ∧ x.stage = .sum ∧ x.inputsReady = true)
    ∧ (∃ (node : Nat) (r : CtxRef) (s : State) (x : ShCtx), s.ctx node r = some x ∧ x.stage = .writing ∧ x.sent.any (·.write) = false)
    ∧ (∃ (node : Nat) (r : CtxRef) (s : State) (x : ShCtx), s.ctx node r = some x ∧ shTimeout x.desc ≠ 0)
    ∧ (∃ (p : Pkt) (s : State), s.net.contains p = false ∧ s.inbox.contains p = false ∧ p.taken = true)
    ∧ (∃ (p : Pkt) (s : State) (n : Nat), s.net.contains p = true ∧ p.taken = true ∧ (epPkg p.src = s.selfNum ∨ s.helmServes = true) ∧ nodeOfEp s.variant p.dst = some n)
    ∧ (∃ (s : State) (p : Pkt) (n : Nat) (x : ShCtx), nodeOfEp s.variant p.dst = some n ∧ s.wordCtx n p.barn (p.addr % 2 ^ 32) = some x ∧ x.stage = .notice ∧ leVal ((p.payload.drop 16).take 1) = 1)
    ∧ (∃ (s : State) (p : Pkt) (n : Nat) (x : ShCtx), nodeOfEp s.variant p.dst = some n ∧ s.wordCtx n p.barn (p.addr % 2 ^ 32) = some x ∧ leVal ((p.payload.drop 16).take 1) = 0)
    ∧ (∃ (node : Nat) (r : CtxRef) (s : State) (x : ShCtx) (y : ShSent), s.ctx node r = some x ∧ x.sent.find? (fun z => !z.busy.isEmpty) = some y)
    ∧ (∃ (c : CoreId) (h : Fin 16) (s : State) (x : ShCtx), s.handleCtx c.val h.val 2 = some x ∧ shExp x.desc ≠ 0)
    ∧ (∃ (c : CoreId) (h : Fin 16) (s : State) (x : ShCtx), s.handleCtx c.val h.val 2 = some x ∧ shExp x.desc = 0)
    ∧ (∃ (c : CoreId) (h : Fin 16) (s : State) (x : ShCtx), s.handleCtx c.val h.val 3 = some x ∧ x.stage = .sum)
    ∧ (∃ (c : CoreId) (h : Fin 16) (s : State) (x : ShCtx), s.handleCtx c.val h.val 3 = some x ∧ x.stage = .sum ∧ 1 ≤ shSrcRows x.desc)
    ∧ (∃ (s : State) (x : ShCtx) (ab : Bool), (s.core x.owner).handle x.handle = .pending) :=
  ⟨⟨sw 0x02 [1], ss (sx .sum 0), 5, sx .sum 0, by decide, by decide, by decide, by decide, by decide, by decide, by decide⟩,
   ⟨sw 0x02 [1], { th (run []) with sheafEarly := List.replicate 32 (5, sw 0x02 []) }, 5, by decide, by decide, by decide, by decide, by decide, by decide, by decide⟩,
   ⟨5, ⟨5, 15⟩, ss { sx .sum 0x10000 with children := [⟨0, 1, [], List.replicate 128 0⟩] }, { sx .sum 0x10000 with children := [⟨0, 1, [], List.replicate 128 0⟩] }, by decide, by decide, by decide, by decide, by decide, by decide⟩,
   ⟨5, ⟨5, 15⟩, ss (sx .writing 0), sx .writing 0, by decide, by decide, by decide⟩,
   ⟨5, ⟨5, 15⟩, ss (sx .sum (2 ^ 288)), sx .sum (2 ^ 288), by decide, by decide⟩,
   ⟨sw 0x3E (List.replicate 16 0 ++ [1]), ss (sx .notice 0), by decide, by decide, by decide⟩,
   ⟨sw 0x3E (List.replicate 16 0 ++ [1]), { ss (sx .notice 0) with net := [sw 0x3E (List.replicate 16 0 ++ [1])] }, 5, by decide, by decide, by decide, by decide⟩,
   ⟨ss (sx .notice 0), sw 0x3E (List.replicate 16 0 ++ [1]), 5, sx .notice 0, by decide, by decide, by decide, by decide⟩,
   ⟨ss (sx .sum 0), sw 0x3E (List.replicate 16 0 ++ [0]), 5, sx .sum 0, by decide, by decide, by decide⟩,
   ⟨5, ⟨5, 15⟩, ss { sx .sum 0 with sent := [{ sd with busy := [9] }] }, { sx .sum 0 with sent := [{ sd with busy := [9] }] }, { sd with busy := [9] }, by decide, by decide⟩,
   ⟨5, 15, ss (sx .sum (2 ^ 320 + 2)), sx .sum (2 ^ 320 + 2), by decide, by decide⟩,
   ⟨5, 15, ss (sx .sum 2), sx .sum 2, by decide, by decide⟩,
   ⟨5, 15, ss (sx .sum 3), sx .sum 3, by decide, by decide⟩,
   ⟨5, 15, ss (sx .sum 0x100003), sx .sum 0x100003, by decide, by decide, by decide⟩,
   ⟨ss (sx .sum 0), sx .sum 0, true, by decide⟩⟩
theorem witness_hbmRequests :
    (∃ (p : Pkt) (s : State) (d o : Nat), p.plain = true ∧ s.behind p = false ∧ localRegion (addrLocal p.addr) = .hbm d o ∧ 1 ≤ loadLen p ∧ loadLen p ≤ 256 ∧ (landed s p).targetCheck (epPkg p.src) p.barn .load (addrLocal p.addr) (loadLen p) = (0, landed s p))
    ∧ (∃ (p : Pkt) (s u : State) (e : List HbmErr) (d o : Nat), p.plain = true ∧ s.behind p = false ∧ localRegion (addrLocal p.addr) = .hbm d o ∧ 1 ≤ loadLen p ∧ loadLen p ≤ 256 ∧ (landed s p).targetCheck (epPkg p.src) p.barn .load (addrLocal p.addr) (loadLen p) = (0, landed s p) ∧ hbmErrors (landed s p) e (linesOf (addrLocal p.addr) (loadLen p)) = (false, u))
    ∧ (∃ (p : Pkt) (s : State) (d o : Nat), p.plain = true ∧ s.behind p = false ∧ localRegion (addrLocal p.addr) = .hbm d o ∧ (landed s p).targetCheck (epPkg p.src) p.barn .store (addrLocal p.addr) p.payload.length = (0, landed s p))
    ∧ (∃ (p : Pkt) (s : State) (d o : Nat) (v : BitVec 64), p.plain = true ∧ s.behind p = false ∧ localRegion (addrLocal p.addr) = .hbm d o ∧ (landed s p).targetCheck (epPkg p.src) p.barn .atomic (addrLocal p.addr) 8 = (0, landed s p) ∧ atomicNew (p.op - 0x20) (BitVec.ofNat 64 (leVal (memRead s.hbm (addrLocal p.addr) 8))) (BitVec.ofNat 64 (leVal (p.payload.take 8))) (BitVec.ofNat 64 (leVal (p.payload.drop 8))) = some v)
    ∧ (∃ (p : Pkt) (s : State) (o v : Nat) (e : List HbmErr), p.plain = true ∧ s.behind p = false ∧ localRegion (addrLocal p.addr) = .reg o ∧ loadLen p = 8 ∧ (landed s p).targetCheck (epPkg p.src) p.barn .load (addrLocal p.addr) 8 = (0, landed s p) ∧ (landed s p).regLoad p.barn o = some v)
    ∧ (∃ (p : Pkt) (s : State) (c o : Nat) (e : List HbmErr), p.plain = true ∧ s.behind p = false ∧ localRegion (addrLocal p.addr) = .core c o)
    ∧ (∃ (p : Pkt) (s u : State) (st : Nat) (e : List HbmErr), p.plain = true ∧ s.behind p = false ∧ st ≠ 0 ∧ (landed s p).targetCheck (epPkg p.src) p.barn .store (addrLocal p.addr) p.payload.length = (st, u))
    ∧ (∃ (p : Pkt) (s : State) (e : List HbmErr), s.hbmWaits (addrLocal p.addr) (accessLen p) = true)
    ∧ (∃ (p : Pkt) (s : State) (e : List HbmErr), s.behind p = true) :=
  ⟨⟨pkt 0x01 (memEp 64 0) (coordOf 64 5) 64 (leBytes 4 256), hb, 0, 64, by decide, by decide, by decide, by decide, by decide, by decide⟩,
   ⟨pkt 0x01 (memEp 64 0) (coordOf 64 5) 64 (leBytes 4 256), hb, (hbmErrors (landed (hb) (pkt 0x01 (memEp 64 0) (coordOf 64 5) 64 (leBytes 4 256))) (([bad4] : List HbmErr)) (linesOf (addrLocal (pkt 0x01 (memEp 64 0) (coordOf 64 5) 64 (leBytes 4 256)).addr) (loadLen (pkt 0x01 (memEp 64 0) (coordOf 64 5) 64 (leBytes 4 256))))).2, [bad4], 0, 64, by decide, by decide, by decide, by decide, by decide, by decide, rfl⟩,
   ⟨pkt 0x02 (memEp 64 0) (coordOf 64 5) 66 [1, 0], hb, 0, 66, by decide, by decide, by decide, by decide⟩,
   ⟨pkt 0x20 (memEp 64 0) (coordOf 64 5) 64 (List.replicate 16 1), hb, 0, 64, 0x010101010101010A, by decide, by decide, by decide, by decide, by decide⟩,
   ⟨pkt 0x01 (memEp 64 0) (coordOf 64 5) 0x30000000000 (leBytes 4 8), hb, 0, 0, [], by decide, by decide, by decide, by decide, by decide, by decide⟩,
   ⟨pkt 0x02 (coordOf 64 5) (coordOf 64 6) 0x20000500040 [1], th (run []), 5, 64, [], by decide, by decide, by decide⟩,
   ⟨pkt 0x02 (memEp 64 0) (coordOf 64 5) 0x40000000 [1, 0], hb, (hb.targetCheck 64 0 .store 0x40000000 2).2, 0x0F, [], by decide, by decide, by decide, by decide⟩,
   ⟨pkt 0x01 (memEp 64 0) (coordOf 64 5) 64 (leBytes 4 256), { hb with channels := [(1, ⟨true, false, false⟩)] }, [], by decide⟩,
   ⟨pkt 0x02 (memEp 64 0) (coordOf 64 5) 66 [1, 0], { hb with net := [pkt 0x02 (memEp 64 0) (coordOf 64 5) 128 [1, 0], pkt 0x02 (memEp 64 0) (coordOf 64 5) 66 [1, 0]] }, [], by decide⟩⟩
theorem witness_targetChecks :
    (∃ (s u : State) (pkg barn : Nat) (kind : TKind) (l n : Nat), s.targetCheck pkg barn kind l n = (0, u))
    ∧ (∃ (s : State) (pkg barn : Nat) (kind : TKind) (l n : Nat), localRegion l ≠ .none ∧ ((∀ d o, localRegion l = .hbm d o → s.dieDown.contains d = true)) ∧ ((∀ o, localRegion l = .reg o → s.dieDown.contains (localStation l) = true)) ∧ ((∀ c o, localRegion l = .core c o → s.coreOut c = true ∨ s.dieDown.contains (coreDie c) = true)))
    ∧ (∃ (s : State) (pkg barn : Nat) (kind : TKind) (l n c o : Nat), localRegion l = .core c o ∧ s.coreOut c = false ∧ s.dieDown.contains (coreDie c) = false ∧ (s.core c).power ≠ .running)
    ∧ (∃ (s : State) (pkg barn : Nat) (kind : TKind) (l n d o : Nat), localRegion l = .hbm d o ∧ s.dieDown.contains d = false ∧ s.opAllowed (decide (pkg = s.selfNum)) true kind l n = false)
    ∧ (∃ (s : State) (pkg barn : Nat) (kind : TKind) (l n d o b : Nat), localRegion l = .hbm d o ∧ s.dieDown.contains d = false ∧ s.opAllowed (decide (pkg = s.selfNum)) true kind l n = true ∧ s.granuleBarn (granuleOf l) = some b ∧ b ≠ barn) :=
  ⟨⟨hb, hb, 64, 0, .load, 64, 256, by decide⟩,
   ⟨{ hb with dieDown := [0] }, 64, 0, .load, 64, 256, by decide, (by intro d o h; cases h; decide), (by intro o h; cases h), (by intro c o h; cases h)⟩,
   ⟨{ th (run []) with cores := [] }, 64, 0, .load, 0x20000500040, 8, 5, 64, by decide, by decide, by decide, by decide⟩,
   ⟨hb, 64, 0, .counter, 64, 8, 0, 64, by decide, by decide, by decide⟩,
   ⟨{ hb with barns := [(0, some barn0), (5, some barn0)] }, 64, 5, .load, 64, 256, 0, 64, 0, by decide, by decide, by decide, by decide, by decide⟩⟩
theorem witness_copyMessageAndCounterRequests :
    (∃ (p : Pkt) (s : State) (c o : Nat), p.plain = true ∧ s.behind p = false ∧ localRegion (addrLocal p.addr) = .core c o ∧ (landed s p).targetCheck (epPkg p.src) p.barn .counter (addrLocal p.addr) 4 = (0, landed s p))
    ∧ (∃ (p : Pkt) (s : State), p.plain = true ∧ s.behind p = false ∧ s.dieDown.contains (p.addr % 65536 / 4096) = false ∧ (s.queue (p.addr % 65536)).en = true ∧ s.queueBarn (p.addr % 65536) = some p.barn ∧ s.peerAdmitted p.barn (epPkg p.src) = true ∧ (2 ^ 32 + (s.queue (p.addr % 65536)).tail - (s.queue (p.addr % 65536)).head) % 2 ^ 32 ≠ (s.queue (p.addr % 65536)).entries ∧ p.payload.length + 16 ≤ (s.queue (p.addr % 65536)).entryBytes)
    ∧ (∃ (p : Pkt) (s : State), p.plain = true ∧ s.behind p = false ∧ s.dieDown.contains (p.addr % 65536 / 4096) = false)
    ∧ (∃ (p : Pkt) (s : State) (d o : Nat), p.plain = true ∧ s.behind p = false ∧ localRegion (addrLocal p.addr) = .hbm d o ∧ (landed s p).rangeCheck (epPkg p.src) p.barn .store (addrLocal p.addr) (p.payload.drop 16).length = (0, landed s p))
    ∧ (∃ (p : Pkt) (s : State) (c o : Nat) (e : List HbmErr), p.plain = true ∧ s.behind p = false ∧ localRegion (addrLocal p.addr) = .core c o ∧ (landed s p).rangeCheck (epPkg p.src) p.barn .store (addrLocal p.addr) (p.payload.drop 16).length = (0, landed s p))
    ∧ (∃ (p : Pkt) (s : State) (d o : Nat), p.plain = true ∧ s.behind p = false ∧ localRegion (addrLocal p.addr) = .hbm d o ∧ (landed s p).rangeCheck (epPkg p.src) p.barn .load (addrLocal p.addr) (pullLen p) = (0, landed s p) ∧ rangeAssigned (addrLocal (leVal ((p.payload.drop 16).take 6))) (pullLen p) = true ∧ (landed s p).pullRefusal p = none) :=
  ⟨⟨pkt 0x03 (coordOf 64 5) (coordOf 64 6) 0x200005C00FC (leBytes 4 1), th (run []), 5, 0xC00FC, by decide, by decide, by decide, by decide⟩,
   ⟨pkt 0x10 (memEp 64 0) (gatewayEp 64 0) 0 (List.replicate 48 3), qs, by decide, by decide, by decide, by decide, by decide, by decide, by decide, by decide⟩,
   ⟨pkt 0x10 (memEp 64 0) (gatewayEp 64 0) 0 (List.replicate 48 3), qs, by decide, by decide, by decide⟩,
   ⟨pkt 0x11 (memEp 64 0) (gatewayEp 64 0) 64 (List.replicate 16 0 ++ [3]), hb, 0, 64, by decide, by decide, by decide, by decide⟩,
   ⟨pkt 0x11 (coordOf 64 5) (gatewayEp 64 0) 0x20000500040 (List.replicate 16 0 ++ [3]), th (run []), 5, 64, [], by decide, by decide, by decide, by decide⟩,
   ⟨pkt 0x12 (memEp 64 0) (gatewayEp 64 0) 64 (List.replicate 32 0), hb, 0, 64, by decide, by decide, by decide, by decide, by decide, by decide⟩⟩
theorem witness_completionsReachRequesters :
    (∃ mk ∈ [Instr.loadCpl, Instr.storeCpl, Instr.atomicCpl], ∃ (p : Pkt) (s : State), p.plain = true)
    ∧ (∃ (p : Pkt) (s : State) (st : Nat) (data : List Byte), p.skind ≠ 3 ∧ epPlane p.dst = false)
    ∧ (∃ (p : Pkt) (s : State) (st : Nat) (data : List Byte), p.skind ≠ 3 ∧ epPlane p.dst = true ∧ epX p.dst = 1)
    ∧ (∃ (s : State) (c src tag t gd n : Nat) (sg : Bool) (data : List Byte) (r : Req), (s.core c).reqs.find? (fun r => r.has src tag) = some r ∧ dropAwait src tag r.want = [] ∧ r.dead = false ∧ r.st = 0 ∧ r.who = .load t gd n sg ∧ data ≠ [])
    ∧ (∃ (s : State) (c src tag t gd : Nat) (data : List Byte) (r : Req), (s.core c).reqs.find? (fun r => r.has src tag) = some r ∧ dropAwait src tag r.want = [] ∧ r.dead = false ∧ r.st = 0 ∧ r.who = .atomic t gd ∧ data ≠ [])
    ∧ (∃ (s : State) (c src tag t pool v : Nat) (data : List Byte) (r : Req), (s.core c).reqs.find? (fun r => r.has src tag) = some r ∧ dropAwait src tag r.want = [] ∧ r.dead = false ∧ r.st = 0 ∧ r.who = .vload t pool v ∧ data ≠ [])
    ∧ (∃ (s : State) (c src tag t gd n st : Nat) (sg : Bool) (r : Req), (s.core c).reqs.find? (fun r => r.has src tag) = some r ∧ dropAwait src tag r.want = [] ∧ r.dead = false ∧ r.st = 0 ∧ r.who = .load t gd n sg ∧ st ≠ 0 ∧ st < 256 ∧ (s.th c t).st ≠ .faulted ∧ (s.th c t).st ≠ .stopped)
    ∧ (∃ (s : State) (c src tag t st : Nat) (r : Req), (s.core c).reqs.find? (fun r => r.has src tag) = some r ∧ dropAwait src tag r.want = [] ∧ r.dead = false ∧ r.st = 0 ∧ r.who = .store t ∧ (s.th c t).st ≠ .faulted ∧ (s.th c t).storeErr = none) :=
  ⟨⟨_, .head _, pkt 0x08 (coordOf 64 5) (memEp 64 0) 0 [1], hb, by decide⟩,
   ⟨pkt 0x08 (coordOf 64 5) (memEp 64 0) 0 [1], hb, 0, [1], by decide, by decide⟩,
   ⟨pkt 0x09 (gatewayEp 64 0) (memEp 64 0) 0 [], hs, 0, [], by decide, by decide, by decide⟩,
   ⟨pk { co (run []) with reqs := [rq] }, 5, memEp 64 0, 7, 3, 1, 4, true, [0xFF, 0xFF, 0xFF, 0x80], rq, by decide, by decide, by decide, by decide, by decide, by decide⟩,
   ⟨pk { co (run []) with reqs := [{ rq with who := .atomic 3 1 }] }, 5, memEp 64 0, 7, 3, 1, [0xFF], { rq with who := .atomic 3 1 }, by decide, by decide, by decide, by decide, by decide, by decide⟩,
   ⟨pk { co (run []) with reqs := [{ rq with who := .vload 3 255 0 }] }, 5, memEp 64 0, 7, 3, 255, 0, [0xFF], { rq with who := .vload 3 255 0 }, by decide, by decide, by decide, by decide, by decide, by decide⟩,
   ⟨pk { co (run []) with reqs := [rq] }, 5, memEp 64 0, 7, 3, 1, 4, 255, true, rq, by decide, by decide, by decide, by decide, by decide, by decide, by decide, by decide, by decide⟩,
   ⟨pk { co (run []) with reqs := [{ rq with who := .store 3 }] }, 5, memEp 64 0, 7, 3, 5, { rq with who := .store 3 }, by decide, by decide, by decide, by decide, by decide, by decide, by decide⟩⟩
theorem witness_gatewayEvents :
    (∃ (g : ClusterId) (c : CoreId) (tag : BitVec 12) (s : State) (o : OrdStore), (s.gw g.val).ordered.find? (fun o => decide (o.core = c.val) && decide (o.tag = tag.toNat)) = some o ∧ (s.core c.val).orderHeld o.pkt.dst o.tag = false)
    ∧ (∃ (g : ClusterId) (k : Fin 256) (e : ReadErr) (s s2 s3 : State) (t t' : Tracker) (src dst len slot : Nat) (ps : List Pkt), tget none (s.gw g.val).trackers k.val = some t ∧ t.next (s.copyP t.desc) = some (src, dst, len, t') ∧ (List.range 15).find? (fun n => s.segTagFree g.val t (16 * k.val + n)) = some slot ∧ cdSrcPkg t.desc = s.selfNum ∧ rangeAssigned src len = true ∧ ((cdKind t.desc = 3 ∨ rangeAssigned dst len = true)) ∧ s.hbmWaits src len = false ∧ s.rangeCheck s.selfNum t.barn .load src len = (0, s) ∧ s.readCheck src len e = (true, s2) ∧ s2.submit (s2.segPkt g.val k.val (16 * k.val + slot) t.barn t.desc src dst len (s2.sourceBytes t.barn src len)) true = .inr (ps, s3))
    ∧ (∃ (g : ClusterId) (k : Fin 256) (e : ReadErr) (s : State) (t t' : Tracker) (src dst len slot st : Nat), tget none (s.gw g.val).trackers k.val = some t ∧ t.next (s.copyP t.desc) = some (src, dst, len, t') ∧ (List.range 15).find? (fun n => s.segTagFree g.val t (16 * k.val + n)) = some slot ∧ cdSrcPkg t.desc = s.selfNum ∧ rangeAssigned src len = true ∧ ((cdKind t.desc = 3 ∨ rangeAssigned dst len = true)) ∧ st ≠ 0 ∧ s.hbmWaits src len = false ∧ s.rangeCheck s.selfNum t.barn .load src len = (st, s))
    ∧ (∃ (g : Fin 1073741824) (k : Fin 256) (s : State) (r : ReadAhead), s.aheadOf g.val k.val = some r ∧ r.linear = true ∧ ((∀ last, s.homeCopy g.val k.val = some last → 64 * (r.next + r.lines.length) ≤ last)) ∧ r.lines.length < 64 ∧ r.bytes < 16384 ∧ r.next + r.lines.length < 2 ^ 34 ∧ s.granuleBarn (granuleOf (64 * (r.next + r.lines.length))) = some r.barn ∧ s.poison.contains (r.next + r.lines.length) = false ∧ 64 * (r.next + r.lines.length) % 2 ^ 36 < hbmLimit s.variant ∧ s.hbmWaits (64 * (r.next + r.lines.length)) 64 = false)
    ∧ (∃ (g : Fin 1073741824) (k : Fin 256) (e : HbmErr) (s : State) (r : ReadAhead), s.aheadOf g.val k.val = some r ∧ r.linear = true ∧ ((∀ last, s.homeCopy g.val k.val = some last → 64 * (r.next + r.lines.length) ≤ last)) ∧ r.lines.length < 64 ∧ r.bytes < 16384 ∧ s.poison.contains (r.next + r.lines.length) = true)
    ∧ (∃ (s : State) (g k : Nat) (t : Tracker), tget none (s.gw g).trackers k = some t ∧ t.cut = true ∧ t.segs = [] ∧ cdCtrEn t.desc = false ∧ (s.core t.core).power = .running)
    ∧ (∃ (s : State) (g b src tag st n : Nat) (t : Tracker) (x : Seg), (s.gw g).trackers = [(n, some t)] ∧ t.segs.find? (fun x => x.want.any fun a => a.is src tag) = some x ∧ dropAwait src tag x.want = []) :=
  ⟨⟨0, 5, 7, { base with gateways := [(0, { Gateway.init with ordered := [⟨5, 7, pkt 0x02 0 0 0 []⟩] })] }, ⟨5, 7, pkt 0x02 0 0 0 []⟩, by decide, by decide⟩,
   ⟨0, 0, ⟨[], []⟩, hs, hs, sub.2.2, tr, { tr with off := 1000, cut := true }, 64, 0, 1000, 0, sub.1 :: sub.2.1, by decide, by decide, by decide, by decide, by decide, by decide, by decide, by decide, by decide, rfl⟩,
   ⟨0, 255, ⟨[], []⟩, { base with gateways := [(0, { Gateway.init with trackers := [(255, some tr)] })] }, tr, { tr with off := 1000, cut := true }, 64, 0, 1000, 0, 0x0F, by decide, by decide, by decide, by decide, by decide, by decide, by decide, by decide, by decide⟩,
   ⟨0, 255, { hb with readAhead := [ra1], gateways := [(0, { Gateway.init with trackers := [(255, some tr)] })] }, ra1, by decide, by decide, by decide, by decide, by decide, by decide, by decide, by decide, by decide, by decide⟩,
   ⟨0, 255, [], { hb with poison := [1], readAhead := [ra1], gateways := [(0, { Gateway.init with trackers := [(255, some tr)] })] }, ra1, by decide, by decide, by decide, by decide, by decide, by decide⟩,
   ⟨{ hb with gateways := [(0, { Gateway.init with trackers := [(255, some tq)] })], cores := [(5, co (run []))] }, 0, 255, tq, by decide, by decide, by decide, by decide, by decide⟩,
   ⟨{ hb with gateways := [(0, { Gateway.init with trackers := [(255, some { tq with segs := [⟨9, 64, 1, 1, [⟨9, 7, 7⟩], 0⟩] })] })], cores := [(5, co (run []))] }, 0, 0, 7, 9, 5, 255, { tq with segs := [⟨9, 64, 1, 1, [⟨9, 7, 7⟩], 0⟩] }, ⟨9, 64, 1, 1, [⟨9, 7, 7⟩], 0⟩, by decide, by decide, by decide⟩⟩
theorem witness_hbmUpkeep :
    (∃ (q : QueueId) (b : BarnId) (v : BitVec 64) (s : State), s.queueBarn q.val = some b.val ∧ (s.queue q.val).en = false ∧ bitAt v.toNat 0 = false)
    ∧ (∃ (q : QueueId) (b : BarnId) (v : BitVec 64) (s : State), s.queueBarn q.val = some b.val ∧ (s.queue q.val).en = false ∧ bitAt v.toNat 0 = true ∧ bitsAt (v.toNat % 2 ^ 23) 1 3 ≠ 7 ∧ bitsAt (v.toNat % 2 ^ 23) 4 4 ≠ 15)
    ∧ (∃ (q : QueueId) (b : BarnId) (v : BitVec 64) (s : State), s.queueBarn q.val = some b.val)
    ∧ (∃ (q : QueueId) (b : BarnId) (v : BitVec 64) (s : State), s.queueBarn q.val ≠ some b.val)
    ∧ (∃ (g : GranuleId) (s : State) (b : Nat), (s.granule g.val).st = .scrubbing b ∧ s.hbmWaits (g.val / 64 * 2 ^ 36 + g.val % 64 * 2 ^ 30) (2 ^ 30) = false)
    ∧ (∃ (line : Nat) (e : HbmErr) (s : State) (b : Nat), line < 2 ^ 34 ∧ s.granuleBarn (granuleOf (64 * line)) = some b ∧ s.poison.contains line = false ∧ s.hbmWaits (64 * line) 64 = false)
    ∧ (∃ (s : State) (l b : Nat) (e : HbmErr) (w : Fin 8), s.granuleBarn (granuleOf l) = some b ∧ hbmOutcome e = .corrected w)
    ∧ (∃ (s : State) (l b : Nat) (e : HbmErr), s.granuleBarn (granuleOf l) = some b ∧ hbmOutcome e = .uncorrectable)
    ∧ (∃ (g : GranuleId) (d : BitVec 32) (s : State), s.rowWait.contains (g.val, d.toNat) = true ∧ (tget HbmChan.init s.channels (32 * (g.val / 64) + d.toNat % 32)).training = false)
    ∧ (∃ (s : State) (g : Nat), (s.granule g).retired = false)
    ∧ (∃ (d : DieId) (c : Fin 32) (s : State), (s.channel d.val c.val).outOfService = false ∧ ((∀ k, k < 32 → (s.channel d.val k).training = false)))
    ∧ (∃ (d : DieId) (c : Fin 32) (s : State), (s.channel d.val c.val).training = true) :=
  ⟨⟨65535, 0, 0xFFFFFFFFFFFFFFFE, base, by decide, by decide, by decide⟩,
   ⟨65535, 0, 1, base, by decide, by decide, by decide, by decide, by decide⟩,
   ⟨65535, 0, 0xFFFFFFFFFFFFFFFE, base, by decide⟩,
   ⟨65535, 5, 0xFFFFFFFFFFFFFFFE, base, by decide⟩,
   ⟨1023, { base with granules := [(1023, ⟨.scrubbing 0, false, 0⟩)] }, 0, by decide, by decide⟩,
   ⟨1, [], hb, 0, by decide, by decide, by decide, by decide⟩,
   ⟨hb, 64, 0, [(12, 0x40)], 0, by decide, by decide⟩,
   ⟨hb, 64, 0, bad4, by decide, by decide⟩,
   ⟨1023, 31, { base with rowWait := [(1023, 31)] }, by decide, by decide⟩,
   ⟨hb, 1023, by decide⟩,
   ⟨15, 31, base, by decide, by decide⟩,
   ⟨15, 31, { base with channels := [(511, ⟨true, true, false⟩)] }, by decide⟩⟩
theorem witness_windowEvents :
    (∃ (dest : Fin 32768) (cls : Bool) (s : State) (x : WaitPkt) (l : List WaitPkt), (s.swin (winKey dest.val (clsTc cls))).waiting = x :: l ∧ (s.swin (winKey dest.val (clsTc cls))).inUse + x.pkt.units ≤ s.grant (winKey dest.val (clsTc cls)))
    ∧ (∃ (p : Pkt) (s : State), p.taken = true)
    ∧ (∃ (p : Pkt) (s : State), p.taken = true ∧ (s.grantQ.any fun r => decide (r.src = epPkg p.src) && decide (r.cls = bodyTc p)) = false)
    ∧ (∃ (s : State) (r : WinReq) (l : List WinReq), s.grantQ = r :: l ∧ r.units ≤ (if r.cls = 1 then s.pool1 else s.pool3))
    ∧ (∃ (src : Fin 32768) (cls : Bool) (s : State), ((s.dwin (winKey src.val (clsTc cls))).freed ≠ 0 ∨ (s.dwin (winKey src.val (clsTc cls))).granted ≠ 0))
    ∧ (∃ (dest : Fin 32768) (cls : Bool) (s : State), (s.swin (winKey dest.val (clsTc cls))).inUse = 0 ∧ (s.swin (winKey dest.val (clsTc cls))).waiting = [] ∧ (s.swin (winKey dest.val (clsTc cls))).extra ≠ 0)
    ∧ (∃ (src : Fin 32768) (cls : Bool) (s : State) (d : Nat) (p : Pkt), (s.dwin (winKey src.val (clsTc cls))).held = [(d, p)] ∧ (65536 + p.wseq - (s.dwin (winKey src.val (clsTc cls))).expect) % 65536 ≠ 0)
    ∧ (∃ (p : Pkt) (s : State), p.taken = true ∧ bodyAt p 1 ≠ 2 ^ 32 - 1)
    ∧ (∃ (p : Pkt) (s : State), p.taken = true ∧ bodyAt p 1 = 2 ^ 32 - 1)
    ∧ (∃ (p : Pkt) (s : State), p.taken = false) :=
  ⟨⟨6, false, { base with srcWin := [(12, { SrcWin.init with inUse := 7, waiting := [⟨pkt 0x02 (memEp 6 0) (coordOf 64 5) 64 [1], 0⟩] })] }, ⟨pkt 0x02 (memEp 6 0) (coordOf 64 5) 64 [1], 0⟩, [], by decide, by decide⟩,
   ⟨wp 0 [3, 1, 2, 0], base, by decide⟩,
   ⟨wp 0 [1, 5], base, by decide, by decide⟩,
   ⟨{ base with grantQ := [⟨70, 1, 524288⟩] }, ⟨70, 1, 524288⟩, [], by decide, by decide⟩,
   ⟨70, true, { base with dstWin := [(141, { DstWin.init with freed := 3 }), (140, { DstWin.init with freed := 3 })] }, by decide⟩,
   ⟨70, true, { base with srcWin := [(141, { SrcWin.init with extra := 3 }), (140, { SrcWin.init with extra := 3 })] }, by decide, by decide, by decide⟩,
   ⟨70, false, { base with dstWin := [(140, { DstWin.init with held := [(15, { wp 0 [] with wseq := 2 })] })] }, 15, { wp 0 [] with wseq := 2 }, by decide, by decide⟩,
   ⟨wp 0 [1, 4294967294], base, by decide, by decide⟩,
   ⟨wp 0 [1, 4294967295], base, by decide, by decide⟩,
   ⟨{ wp 0 [1, 0] with poison := true }, base, by decide⟩⟩
theorem witness_adviceAndCongestion :
    (∃ (p : Pkt) (s : State), p.taken = true)
    ∧ (∃ (s : State) (p : Nat), (s.port p).queue = [] ∧ (s.port p).cong.occ = List.replicate 8 0)
    ∧ (∃ (p : Pkt) (s : State), p.taken = true) :=
  ⟨⟨wp 5 [0, 0], { base with courses := [(20, 2 ^ 45 + 1)] }, by decide⟩,
   ⟨base, 71, by decide, by decide⟩,
   ⟨wp 0 [], base, by decide⟩⟩
theorem witness_edgeTransmission :
    (∃ (p : PortId) (s : State) (q : QPkt) (arb : ArbState), (s.port p.val).st = .up ∧ (s.port p.val).drain = false ∧ (s.port p.val).maint = none ∧ ((∀ r ∈ (s.port p.val).queue, s.vcOnPort p.val r.pkt < 12)) ∧ (s.port p.val).replay.length + q.pieces.length ≤ 2048 ∧ (s.port p.val).keys.sigmaTx < 2 ^ 36 ∧ s.txPick p.val = some (q, arb) ∧ s.hopOk q.pkt p.val = true ∧ q.pkt.op ≠ 0x38)
    ∧ (∃ (p : PortId) (s : State) (q : QPkt) (arb : ArbState), s.txPick p.val = some (q, arb))
    ∧ (∃ (s : State) (p kind seq start : Nat) (payload : List Byte), (s.port p).keyed = false)
    ∧ (∃ (p : PortId) (s : State) (q : QPkt) (l : List QPkt), (s.port p.val).st = .up ∧ (s.port p.val).drain = false ∧ (s.port p.val).maint = none ∧ (s.port p.val).keys.sigmaTx < 2 ^ 36 ∧ (s.port p.val).queue = q :: l ∧ 12 ≤ s.vcOnPort p.val q.pkt)
    ∧ (∃ (p : PortId) (s : State) (q : QPkt) (l : List QPkt), (s.port p.val).st ∈ [.dark, .probe, .lock, .deskew, .eye, .ident, .keying, .disagree] ∧ (s.port p.val).queue = q :: l)
    ∧ (∃ (p : PortId) (s : State) (q : QPkt) (l : List QPkt), (s.port p.val).st = .probe ∧ (s.port p.val).queue = q :: l ∧ q.pkt.tc = 0 ∧ s.reAlt q.pkt = none)
    ∧ (∃ (p : PortId) (s : State), (s.port p.val).st = .up ∧ (s.port p.val).replay ≠ [] ∧ (s.port p.val).replayFails + boolNat (s.port p.val).resent < 8)
    ∧ (∃ (p : PortId) (s : State), (s.port p.val).st = .up ∧ (s.port p.val).replay ≠ [] ∧ (s.port p.val).resent = true ∧ (s.port p.val).replayFails = 7) :=
  ⟨⟨71, es, eq, esArb, by decide, by decide, by decide, by decide, by decide, by decide, rfl, by decide, by decide⟩,
   ⟨71, es, eq, esArb, rfl⟩,
   ⟨pt { up with keyed := false }, 71, 1, 4095, 3, [1], by decide⟩,
   ⟨71, pt { up with queue := [q12] }, q12, [], by decide, by decide, by decide, by decide, by decide, by decide⟩,
   ⟨71, pt { up with st := .probe, queue := [⟨wp 0 [], none⟩] }, ⟨wp 0 [], none⟩, [], by decide, by decide⟩,
   ⟨71, pt { up with st := .probe, queue := [⟨wp 0 [], none⟩] }, ⟨wp 0 [], none⟩, [], by decide, by decide, by decide, by decide⟩,
   ⟨71, pt { up with replay := [⟨5, 1, 0, [], []⟩], replayFails := 6, resent := true }, by decide, by decide, by decide⟩,
   ⟨71, pt { up with replay := [⟨5, 1, 0, [], []⟩], replayFails := 7, resent := true }, by decide, by decide, by decide, by decide⟩⟩
theorem witness_portLossAndSalvage :
    (∃ (p : PortId) (s : State), (s.port p.val).st = .up ∧ (s.port p.val).early = none)
    ∧ (∃ (p : PortId) (s : State), (s.port p.val).st ≠ .up)
    ∧ (∃ (p : Pkt) (s : State) (q : Nat), p.taken = true ∧ (s.port q).st = .lost ∧ (s.port q).held = true ∧ (List.range 72).find? (fun q => (s.port q).peerValid && decide ((s.port q).peer = epPkg p.src) && decide ((s.port q).peerPort = p.addr % 128)) = some q)
    ∧ (∃ (p : Pkt) (s : State) (q : Nat), p.taken = true ∧ (s.port q).st = .lost ∧ (s.port q).held = true ∧ (List.range 72).find? (fun q => (s.port q).peerValid && decide ((s.port q).peer = epPkg p.src) && decide ((s.port q).peerPort = p.addr % 128)) = some q ∧ releaseTo (leVal p.payload) (s.port q).replay = [] ∧ (s.port q).queue = [] ∧ (s.port q).shut = false)
    ∧ (∃ (p : Pkt) (s : State) (q : Nat), p.taken = true ∧ (s.port q).st = .up ∧ (List.range 72).find? (fun q => (s.port q).peerValid && decide ((s.port q).peer = epPkg p.src) && decide ((s.port q).peerPort = p.addr % 128)) = some q)
    ∧ (∃ (p : PortId) (s : State), (s.port p.val).st = .lost ∧ (s.port p.val).held = true ∧ (s.port p.val).queue = []) :=
  ⟨⟨71, pt up, by decide, by decide⟩,
   ⟨71, base, by decide⟩,
   ⟨wp 3 [5], pt { up with st := .lost, held := true, replay := [⟨5, 1, 0, [], []⟩] }, 71, by decide, by decide, by decide, by decide⟩,
   ⟨wp 3 [5], pt { up with st := .lost, held := true, replay := [⟨5, 1, 0, [], []⟩] }, 71, by decide, by decide, by decide, by decide, by decide, by decide, by decide⟩,
   ⟨wp 3 [5], pt up, 71, by decide, by decide, by decide⟩,
   ⟨71, pt { up with st := .lost, held := true, replay := [⟨5, 1, 0, [], []⟩] }, by decide, by decide, by decide⟩⟩
theorem witness_framesReceived :
    (∃ (p : PortId) (f : EdgeFrame) (errs : List (Fin 256 × BitVec 8)) (tag : Fin 3) (s : State), (s.port p.val).st = .up ∧ f.kind ≠ 2 ∧ tag.val = 1 ∧ (s.port p.val).tagFails < 8 ∧ edgeOutcome errs = none)
    ∧ (∃ (p : PortId) (f : EdgeFrame) (tag : Fin 3) (s : State), (s.port p.val).st = .up ∧ tag.val = 1 ∧ (s.port p.val).tagFails < 8 ∧ f.kind = 1 ∧ f.cvc = 15 ∧ f.avalid = false ∧ (s.port p.val).replayFails < 8 ∧ f.seq = (s.port p.val).rxNext ∧ ((∀ q ∈ f.pkts, q.headerOk s.mtu = true)))
    ∧ (∃ (p : PortId) (f : EdgeFrame) (tag : Fin 3) (s : State), (s.port p.val).st = .up ∧ tag.val = 1 ∧ (s.port p.val).tagFails < 8 ∧ f.kind = 0 ∧ f.cvc < 12 ∧ f.avalid = true ∧ f.nak = false ∧ (s.port p.val).replayFails < 8 ∧ (s.port p.val).ctlQ = [] ∧ (s.port p.val).maint = none ∧ f.pkts = [])
    ∧ (∃ (p : PortId) (f : EdgeFrame) (tag : Fin 3) (s : State), (s.port p.val).st = .up ∧ tag.val = 1 ∧ (s.port p.val).tagFails < 8 ∧ f.kind = 1 ∧ f.cvc = 15 ∧ f.avalid = false ∧ (s.port p.val).replayFails < 8 ∧ f.seq ≠ (s.port p.val).rxNext ∧ (s.port p.val).discarding = false ∧ f.pkts = [])
    ∧ (∃ (x : EdgePort) (vc units : Nat), vc < 12 ∧ tget 0 x.credSeen vc ≤ units ∧ units < 512)
    ∧ (∃ (x : EdgePort) (vc units : Nat), vc < 12 ∧ units < tget 0 x.credSeen vc ∧ tget 0 x.credSeen vc < 512)
    ∧ (∃ (p : PortId) (f : EdgeFrame) (errs : List (Fin 256 × BitVec 8)) (tag : Fin 3) (s : State), (s.port p.val).st = .up ∧ f.kind ≠ 2 ∧ tag.val = 0 ∧ (s.port p.val).keyed = true ∧ (s.port p.val).keys.rxPos = 0 ∧ (s.port p.val).tagFails = 7 ∧ (s.port p.val).early = none)
    ∧ (∃ (p : PortId) (f : EdgeFrame) (errs : List (Fin 256 × BitVec 8)) (tag : Fin 3) (s : State), ((s.port p.val).st ≠ .up ∨ f.kind = 2)) :=
  ⟨⟨71, ef 1 0, [(0, 1), (2, 1), (4, 1), (6, 1)], 1, pt { up with tagFails := 7 }, by decide, by decide, by decide, by decide, by decide⟩,
   ⟨71, ef 1 4095, 1, pt { up with tagFails := 7, replayFails := 7, rxNext := 4095 }, by decide, by decide, by decide, by decide, by decide, by decide, by decide, by decide, by decide⟩,
   ⟨71, { ef 0 0 with cvc := 11, avalid := true }, 1, pt up, by decide, by decide, by decide, by decide, by decide, by decide, by decide, by decide, by decide, by decide, by decide⟩,
   ⟨71, ef 1 9, 1, pt up, by decide, by decide, by decide, by decide, by decide, by decide, by decide, by decide, by decide, by decide⟩,
   ⟨up, 11, 511, by decide, by decide, by decide⟩,
   ⟨{ up with credSeen := [(11, 511)] }, 11, 0, by decide, by decide, by decide⟩,
   ⟨71, ef 1 0, [], 0, pt { up with tagFails := 7 }, by decide, by decide, by decide, by decide, by decide, by decide, by decide⟩,
   ⟨71, ef 1 0, [], 1, base, by decide⟩⟩
theorem witness_portTraining :
    (∃ (p : PortId) (s : State), (s.port p.val).st = .probe)
    ∧ (∃ (p : PortId) (w : BitVec 16) (s : State), (s.port p.val).st = .probe)
    ∧ (∃ (p : PortId) (w : BitVec 16) (s : State), (s.port p.val).st ≠ .probe)
    ∧ (∃ (p : PortId) (m : BitVec 16) (s : State), (s.port p.val).st = .lock ∧ 8 ≤ (bitsSet 16 m.toNat).length)
    ∧ (∃ (p : PortId) (m : BitVec 16) (s : State), (s.port p.val).st = .lock ∧ (bitsSet 16 m.toNat).length < 8)
    ∧ (∃ (p : PortId) (n : BitVec 16) (s : State), (s.port p.val).st = .deskew)
    ∧ (∃ (p : PortId) (s : State), (s.port p.val).st = .eye)
    ∧ (∃ (p : PortId) (s : State), (s.port p.val).st = .keying ∧ (s.port p.val).keyed = true)
    ∧ (∃ (p : PortId) (m : BitVec 16) (s : State), (s.port p.val).st = .width ∧ 8 ≤ (bitsSet 16 ((s.port p.val).propose &&& m.toNat)).length)
    ∧ (∃ (p : PortId) (m : BitVec 16) (s : State), (s.port p.val).st = .width ∧ (bitsSet 16 ((s.port p.val).propose &&& m.toNat)).length < 8 ∧ (s.port p.val).early = none)
    ∧ (∃ (p : PortId) (w : BitVec 16) (s : State), -2000 ≤ signedOf 16 w.toNat)
    ∧ (∃ (p : PortId) (w : BitVec 16) (s : State), signedOf 16 w.toNat < -2000 ∧ (s.port p.val).st ≠ .up)
    ∧ (∃ (p : PortId) (w : BitVec 16) (s : State), signedOf 16 w.toNat < -2000 ∧ (s.port p.val).st = .up ∧ (s.port p.val).early = none)
    ∧ (∃ (p : PortId) (s : State), (s.port p.val).light = false)
    ∧ (∃ (p : PortId) (s : State), (s.port p.val).light = false ∧ (s.port p.val).st ∈ [.lock, .deskew, .eye, .ident, .keying])
    ∧ (∃ (p : PortId) (s : State), (s.port p.val).light = false ∧ (s.port p.val).st = .up ∧ (s.port p.val).early = none)
    ∧ (∃ (p : PortId) (d : MaintDone) (s : State) (r : Bool) (m : Nat), (s.port p.val).st = .maint ∧ (s.port p.val).maint = some ⟨r, []⟩ ∧ s.maskLeft (512 + p.val) d.mask.toNat = m ∧ 8 ≤ maskWidth m) :=
  ⟨⟨71, pt { up with st := .probe }, by decide⟩,
   ⟨71, 9, pt { up with st := .probe }, by decide⟩,
   ⟨71, 9, base, by decide⟩,
   ⟨71, 0xFF, pt { up with st := .lock }, by decide, by decide⟩,
   ⟨71, 0x7F, pt { up with st := .lock }, by decide, by decide⟩,
   ⟨71, 9, pt { up with st := .deskew }, by decide⟩,
   ⟨71, pt { up with st := .eye }, by decide⟩,
   ⟨71, pt { up with st := .keying }, by decide, by decide⟩,
   ⟨71, 0xFF, pt { up with st := .width, propose := 0x1FF }, by decide, by decide⟩,
   ⟨71, 0x7F, pt { up with st := .width, propose := 0x1FF }, by decide, by decide, by decide⟩,
   ⟨71, 0xF830, base, by decide⟩,
   ⟨71, 0xF82F, base, by decide, by decide⟩,
   ⟨71, 0xF82F, pt up, by decide, by decide, by decide⟩,
   ⟨71, base, by decide⟩,
   ⟨71, pt { up with st := .keying, light := false }, by decide, by decide⟩,
   ⟨71, pt { up with light := false }, by decide, by decide, by decide⟩,
   ⟨71, ⟨0xFF, 9, []⟩, pt { up with st := .maint, maint := some ⟨true, []⟩ }, true, 0xFF, by decide, by decide, by decide, by decide⟩⟩
theorem witness_linkControlAndKeys :
    (∃ (p : PortId) (seq : BitVec 12) (lc : LinkControl) (v : Bool) (s : State), (s.port p.val).st = .ident ∧ seq.toNat = (s.port p.val).rxNext ∧ lc.lckind = 1)
    ∧ (∃ (p : PortId) (seq : BitVec 12) (lc : LinkControl) (v : Bool) (s : State), (s.port p.val).st = .keying ∧ seq.toNat = (s.port p.val).rxNext ∧ lc.lckind = 2 ∧ (lc.mtype = 1 ∨ lc.mtype = 3) ∧ s.offerOk p.val lc v = true)
    ∧ (∃ (p : PortId) (seq : BitVec 12) (lc : LinkControl) (v : Bool) (s : State), (s.port p.val).st = .keying ∧ seq.toNat = (s.port p.val).rxNext ∧ lc.lckind = 2 ∧ (lc.mtype = 1 ∨ lc.mtype = 3) ∧ s.offerOk p.val lc v = false)
    ∧ (∃ (p : PortId) (seq : BitVec 12) (lc : LinkControl) (v : Bool) (s : State), (s.port p.val).st = .keying ∧ seq.toNat = (s.port p.val).rxNext ∧ lc.lckind = 2 ∧ lc.mtype = 2)
    ∧ (∃ (p : PortId) (seq : BitVec 12) (lc : LinkControl) (s : State), (s.port p.val).st = .keying ∧ seq.toNat = (s.port p.val).rxNext ∧ lc.lckind = 3)
    ∧ (∃ (p : PortId) (seq : BitVec 12) (lc : LinkControl) (s : State), (s.port p.val).st = .keying ∧ seq.toNat = (s.port p.val).rxNext ∧ lc.lckind = 3)
    ∧ (∃ (p : PortId) (seq : BitVec 12) (lc : LinkControl) (v : Bool) (s : State), (s.port p.val).st = .up ∧ seq.toNat = (s.port p.val).rxNext ∧ 1 ≤ lc.lckind ∧ lc.lckind ≤ 5 ∧ (lc.package ≠ (s.port p.val).peer ∨ lc.port ≠ (s.port p.val).peerPort) ∧ (s.port p.val).early = none)
    ∧ (∃ (p : PortId) (seq : BitVec 12) (lc : LinkControl) (v : Bool) (s : State), (s.port p.val).st = .up ∧ seq.toNat = (s.port p.val).rxNext ∧ lc.lckind = 4 ∧ lc.package = (s.port p.val).peer ∧ lc.port = (s.port p.val).peerPort ∧ (s.port p.val).maint = none ∧ (s.port p.val).queue = [])
    ∧ (∃ (p : PortId) (seq : BitVec 12) (lc : LinkControl) (v : Bool) (s : State), (s.port p.val).st = .maint ∧ seq.toNat = (s.port p.val).rxNext ∧ lc.lckind = 5 ∧ (s.port p.val).maint = some ⟨false, []⟩)
    ∧ (∃ (p : PortId) (s : State), (s.port p.val).st = .up ∧ (s.port p.val).keys.updating = false ∧ (s.port p.val).keys.confirmAcked = false ∧ s.rngStopped = false ∧ (s.port p.val).replay.length < 2048)
    ∧ (∃ (p : PortId) (s : State), (s.port p.val).st = .up ∧ (s.port p.val).keys.updating = true ∧ s.rngStopped = false)
    ∧ (∃ (s : State) (p : Nat) (lc : LinkControl) (v : Bool), s.offerOk p lc v = true) :=
  ⟨⟨71, 4095, lc 1 70 3, true, pt { up with st := .ident, rxNext := 4095 }, by decide, by decide, by decide⟩,
   ⟨71, 0, { lc 2 70 3 with mtype := 3 }, true, pt { up with st := .keying }, by decide, by decide, by decide, by decide, by decide⟩,
   ⟨71, 0, { lc 2 70 3 with mtype := 1 }, false, pt { up with st := .keying }, by decide, by decide, by decide, by decide, by decide⟩,
   ⟨71, 0, { lc 2 70 3 with mtype := 2 }, true, pt { up with st := .keying }, by decide, by decide, by decide, by decide⟩,
   ⟨71, 0, lc 3 70 3, pt { up with st := .keying }, by decide, by decide, by decide⟩,
   ⟨71, 0, lc 3 70 3, pt { up with st := .keying }, by decide, by decide, by decide⟩,
   ⟨71, 0, lc 5 71 3, true, pt up, by decide, by decide, by decide, by decide, by decide, by decide⟩,
   ⟨71, 0, lc 4 70 3, true, pt up, by decide, by decide, by decide, by decide, by decide, by decide, by decide⟩,
   ⟨71, 0, lc 5 70 3, true, pt { up with st := .maint, maint := some ⟨false, []⟩ }, by decide, by decide, by decide, by decide⟩,
   ⟨71, pt up, by decide, by decide, by decide, by decide, by decide⟩,
   ⟨71, pt { up with keys := { PortKeys.init with updating := true } }, by decide, by decide, by decide⟩,
   ⟨pt up, 71, lc 2 70 3, true, by decide⟩⟩
theorem witness_steering :
    (∃ (i : Instr) (stage : Bool) (c : CoreId) (set : Fin 256) (n : BitVec 16) (en : Bool) (s : State) (b : Nat), (((i = .steerStage c set n en ∧ stage = true) ∨ (i = .steerCommit c set n en ∧ stage = false))) ∧ s.coreBarn c.val = some b ∧ n.toNat < 1024 ∧ (s.steer b).queued < 8)
    ∧ (∃ (i : Instr) (stage : Bool) (c : CoreId) (set : Fin 256) (n : BitVec 16) (s : State) (b : Nat), (((i = .steerStage c set n true ∧ stage = true) ∨ (i = .steerCommit c set n true ∧ stage = false))) ∧ s.coreBarn c.val = some b ∧ n.toNat < 1024 ∧ 8 ≤ (s.steer b).queued)
    ∧ (∃ (b : BarnId) (s : State) (q : SteerReq) (l : List SteerReq) (r : Nat), (s.steer b.val).cur = none ∧ (s.steer b.val).queue = q :: l ∧ q.tally = none ∧ (((tget none s.pathSets q.set = none ∧ r = 2) ∨ ∃ set, tget none s.pathSets q.set = some set ∧ set.barn ≠ b.val ∧ r = 3)))
    ∧ (∃ (b : BarnId) (s s1 : State) (q : SteerReq) (l : List SteerReq) (set : PathSet), (s.steer b.val).cur = none ∧ (s.steer b.val).queue = q :: l ∧ tget none s.pathSets q.set = some set ∧ set.barn = b.val ∧ q.stage = true ∧ s1 = set.entries.foldl (fun s e => stageEntry s b.val e) (s.setSteer b.val { s.steer b.val with queue := l }))
    ∧ (∃ (s : State) (b : Nat) (e : PathEntry), s.entrySkips b e = false ∧ e.dark = false ∧ (s.link e.tx).st = .dark ∧ s.rxHeld e.tx e.rx = false)
    ∧ (∃ (s : State) (b : Nat) (e : PathEntry), ((s.entrySkips b e = true ∨ e.dark = true ∨ (s.link e.tx).st ≠ .dark ∨ s.rxHeld e.tx e.rx = true)))
    ∧ (∃ (b : BarnId) (s s1 s2 : State) (q : SteerReq) (l : List SteerReq) (set : PathSet) (es : List SteerEntry), (s.steer b.val).cur = none ∧ (s.steer b.val).queue = q :: l ∧ tget none s.pathSets q.set = some set ∧ set.barn = b.val ∧ q.stage = false ∧ s1 = (s.setSteer b.val { s.steer b.val with queue := l }).cancelStaged (set.entries.filter fun e => !(s.setSteer b.val { s.steer b.val with queue := l }).entrySkips b.val e) ∧ (es, s2) = commitAll s1 b.val (s1.clears b.val set.entries ++ set.entries))
    ∧ (∃ (s : State) (b : Nat) (es : List PathEntry) (d : PathEntry), d ∈ s.clears b es)
    ∧ (∃ (b : BarnId) (s : State) (q : SteerReq) (es : List SteerEntry) (set : PathSet), (s.steer b.val).cur = some (q, es) ∧ q.stage = true ∧ q.tally = none ∧ tget none s.pathSets q.set = some set)
    ∧ (∃ (b : BarnId) (s : State) (q : SteerReq) (es : List SteerEntry), (s.steer b.val).cur = some (q, es) ∧ q.stage = false ∧ q.tally = none ∧ ((∀ e ∈ es, e.ph = .done ∨ e.ph = .skipped)))
    ∧ (∃ (l : LinkId) (s : State) (b : Nat) (e : SteerEntry), s.entryOf l.val = some (b, e) ∧ e.ph = .drain ∧ s.linkBusy l.val = false ∧ s.entrySkips b e.e = false ∧ (s.link l.val).idle = true ∧ ((∀ c ∈ s.cands, c.1 / 16 = l.val / 32 → l.val ∉ c.2)) ∧ e.e.dark = true)
    ∧ (∃ (l : LinkId) (s : State) (b : Nat) (e : SteerEntry), s.entryOf l.val = some (b, e) ∧ e.ph = .drain ∧ s.linkBusy l.val = false ∧ s.entrySkips b e.e = false ∧ (s.link l.val).idle = true ∧ ((∀ c ∈ s.cands, c.1 / 16 = l.val / 32 → l.val ∉ c.2)) ∧ e.e.dark = false)
    ∧ (∃ (l : LinkId) (s : State) (b : Nat) (e : SteerEntry), s.entryOf l.val = some (b, e) ∧ e.ph = .drain ∧ s.linkBusy l.val = false ∧ s.entrySkips b e.e = false ∧ (s.link l.val).idle = false)
    ∧ (∃ (l : LinkId) (s : State) (b : Nat) (e : SteerEntry), s.entryOf l.val = some (b, e) ∧ ((e.ph = .switching ∨ e.ph = .relock)) ∧ s.linkBusy l.val = false ∧ s.entrySkips b e.e = false)
    ∧ (∃ (l : LinkId) (s s1 : State) (b : Nat) (e e' : SteerEntry), s.entryOf l.val = some (b, e) ∧ e.ph = .waiting ∧ s.linkBusy l.val = false ∧ s.entrySkips b e.e = false ∧ (e', s1) = s.commitEntry b e.e)
    ∧ (∃ (s : State) (l r : Nat), l < 512 ∧ 8 ≤ maskWidth (s.rxMask r))
    ∧ (∃ (s : State) (r k : Nat), k < 16) :=
  ⟨⟨.steerStage 5 255 1023 true, true, 5, 255, 1023, true, sp { Steer.init with queue := List.replicate 7 ⟨1, false, none⟩ }, 0, by decide, by decide, by decide, by decide⟩,
   ⟨.steerCommit 5 255 1023 true, false, 5, 255, 1023, sp { Steer.init with queue := List.replicate 8 ⟨1, false, none⟩ }, 0, by decide, by decide, by decide, by decide⟩,
   ⟨0, sp { Steer.init with queue := [⟨1, false, none⟩] }, ⟨1, false, none⟩, [], 2, by decide, by decide, by decide, .inl (by decide)⟩,
   ⟨0, { sp { Steer.init with queue := [⟨1, true, none⟩] } with pathSets := [(1, some ⟨0, [pe false]⟩)] }, [pe false].foldl (fun u e => stageEntry u 0 e) ({ sp { Steer.init with queue := [⟨1, true, none⟩] } with pathSets := [(1, some ⟨0, [pe false]⟩)] }.setSteer 0 Steer.init), ⟨1, true, none⟩, [], ⟨0, [pe false]⟩, by decide, by decide, by decide, by decide, by decide, rfl⟩,
   ⟨sp Steer.init, 0, pe false, by decide, by decide, by decide, by decide⟩,
   ⟨sp Steer.init, 0, pe true, by decide⟩,
   ⟨0, { sp { Steer.init with queue := [⟨1, false, none⟩] } with pathSets := [(1, some ⟨0, [pe false]⟩)] }, ((({ sp { Steer.init with queue := [⟨1, false, none⟩] } with pathSets := [(1, some ⟨0, [pe false]⟩)] } : State)).setSteer ((0 : BarnId)).val { (({ sp { Steer.init with queue := [⟨1, false, none⟩] } with pathSets := [(1, some ⟨0, [pe false]⟩)] } : State)).steer ((0 : BarnId)).val with queue := (([] : List SteerReq)) }).cancelStaged (((⟨0, [pe false]⟩ : PathSet)).entries.filter fun e => !((({ sp { Steer.init with queue := [⟨1, false, none⟩] } with pathSets := [(1, some ⟨0, [pe false]⟩)] } : State)).setSteer ((0 : BarnId)).val { (({ sp { Steer.init with queue := [⟨1, false, none⟩] } with pathSets := [(1, some ⟨0, [pe false]⟩)] } : State)).steer ((0 : BarnId)).val with queue := (([] : List SteerReq)) }).entrySkips ((0 : BarnId)).val e), (commitAll (((({ sp { Steer.init with queue := [⟨1, false, none⟩] } with pathSets := [(1, some ⟨0, [pe false]⟩)] } : State)).setSteer ((0 : BarnId)).val { (({ sp { Steer.init with queue := [⟨1, false, none⟩] } with pathSets := [(1, some ⟨0, [pe false]⟩)] } : State)).steer ((0 : BarnId)).val with queue := (([] : List SteerReq)) }).cancelStaged (((⟨0, [pe false]⟩ : PathSet)).entries.filter fun e => !((({ sp { Steer.init with queue := [⟨1, false, none⟩] } with pathSets := [(1, some ⟨0, [pe false]⟩)] } : State)).setSteer ((0 : BarnId)).val { (({ sp { Steer.init with queue := [⟨1, false, none⟩] } with pathSets := [(1, some ⟨0, [pe false]⟩)] } : State)).steer ((0 : BarnId)).val with queue := (([] : List SteerReq)) }).entrySkips ((0 : BarnId)).val e)) ((0 : BarnId)).val ((((({ sp { Steer.init with queue := [⟨1, false, none⟩] } with pathSets := [(1, some ⟨0, [pe false]⟩)] } : State)).setSteer ((0 : BarnId)).val { (({ sp { Steer.init with queue := [⟨1, false, none⟩] } with pathSets := [(1, some ⟨0, [pe false]⟩)] } : State)).steer ((0 : BarnId)).val with queue := (([] : List SteerReq)) }).cancelStaged (((⟨0, [pe false]⟩ : PathSet)).entries.filter fun e => !((({ sp { Steer.init with queue := [⟨1, false, none⟩] } with pathSets := [(1, some ⟨0, [pe false]⟩)] } : State)).setSteer ((0 : BarnId)).val { (({ sp { Steer.init with queue := [⟨1, false, none⟩] } with pathSets := [(1, some ⟨0, [pe false]⟩)] } : State)).steer ((0 : BarnId)).val with queue := (([] : List SteerReq)) }).entrySkips ((0 : BarnId)).val e)).clears ((0 : BarnId)).val ((⟨0, [pe false]⟩ : PathSet)).entries ++ ((⟨0, [pe false]⟩ : PathSet)).entries)).2, ⟨1, false, none⟩, [], ⟨0, [pe false]⟩, (commitAll (((({ sp { Steer.init with queue := [⟨1, false, none⟩] } with pathSets := [(1, some ⟨0, [pe false]⟩)] } : State)).setSteer ((0 : BarnId)).val { (({ sp { Steer.init with queue := [⟨1, false, none⟩] } with pathSets := [(1, some ⟨0, [pe false]⟩)] } : State)).steer ((0 : BarnId)).val with queue := (([] : List SteerReq)) }).cancelStaged (((⟨0, [pe false]⟩ : PathSet)).entries.filter fun e => !((({ sp { Steer.init with queue := [⟨1, false, none⟩] } with pathSets := [(1, some ⟨0, [pe false]⟩)] } : State)).setSteer ((0 : BarnId)).val { (({ sp { Steer.init with queue := [⟨1, false, none⟩] } with pathSets := [(1, some ⟨0, [pe false]⟩)] } : State)).steer ((0 : BarnId)).val with queue := (([] : List SteerReq)) }).entrySkips ((0 : BarnId)).val e)) ((0 : BarnId)).val ((((({ sp { Steer.init with queue := [⟨1, false, none⟩] } with pathSets := [(1, some ⟨0, [pe false]⟩)] } : State)).setSteer ((0 : BarnId)).val { (({ sp { Steer.init with queue := [⟨1, false, none⟩] } with pathSets := [(1, some ⟨0, [pe false]⟩)] } : State)).steer ((0 : BarnId)).val with queue := (([] : List SteerReq)) }).cancelStaged (((⟨0, [pe false]⟩ : PathSet)).entries.filter fun e => !((({ sp { Steer.init with queue := [⟨1, false, none⟩] } with pathSets := [(1, some ⟨0, [pe false]⟩)] } : State)).setSteer ((0 : BarnId)).val { (({ sp { Steer.init with queue := [⟨1, false, none⟩] } with pathSets := [(1, some ⟨0, [pe false]⟩)] } : State)).steer ((0 : BarnId)).val with queue := (([] : List SteerReq)) }).entrySkips ((0 : BarnId)).val e)).clears ((0 : BarnId)).val ((⟨0, [pe false]⟩ : PathSet)).entries ++ ((⟨0, [pe false]⟩ : PathSet)).entries)).1, by decide, by decide, by decide, by decide, by decide, rfl, rfl⟩,
   ⟨lks [(3, lk0)], 0, [⟨5, 35, false⟩], ⟨3, 35, true⟩, by decide⟩,
   ⟨0, { sp { Steer.init with cur := some (⟨1, true, none⟩, []) } with pathSets := [(1, some ⟨0, [pe false]⟩)] }, ⟨1, true, none⟩, [], ⟨0, [pe false]⟩, by decide, by decide, by decide, by decide⟩,
   ⟨0, sp { Steer.init with cur := some (⟨1, false, none⟩, [⟨pe false, .skipped⟩]) }, ⟨1, false, none⟩, [⟨pe false, .skipped⟩], by decide, by decide, by decide, by decide⟩,
   ⟨3, cs lk0 .drain true, 0, ⟨pe true, .drain⟩, by decide, by decide, by decide, by decide, by decide, by decide, by decide⟩,
   ⟨3, cs lk0 .drain false, 0, ⟨pe false, .drain⟩, by decide, by decide, by decide, by decide, by decide, by decide, by decide⟩,
   ⟨3, cs { lk0 with replay := [⟨5, 0, [], []⟩] } .drain true, 0, ⟨pe true, .drain⟩, by decide, by decide, by decide, by decide, by decide⟩,
   ⟨3, cs { lk0 with st := .changing } .relock false, 0, ⟨pe false, .relock⟩, by decide, by decide, by decide, by decide⟩,
   ⟨3, cs lk0 .waiting false, ((cs lk0 .waiting false).commitEntry (0) ((⟨pe false, .waiting⟩ : SteerEntry)).e).2, 0, ⟨pe false, .waiting⟩, ((cs lk0 .waiting false).commitEntry (0) ((⟨pe false, .waiting⟩ : SteerEntry)).e).1, by decide, by decide, by decide, by decide, rfl⟩,
   ⟨base, 3, 35, by decide, by decide⟩,
   ⟨base, 35, 15, by decide⟩⟩
theorem witness_lanesAndSweeps :
    (∃ (l : LinkId) (f : LinkFrame) (s : State), (((s.link l.val).rx = none ∨ (s.link l.val).framed = false ∨ isFabric l.val = false)))
    ∧ (∃ (l : LinkId) (f : LinkFrame) (s : State) (r : Nat) (fr : Option LFrame) (x1 : Link) (places : List Nat), (s.link l.val).rx = some r ∧ (s.link l.val).framed = true ∧ isFabric l.val = true ∧ (fr, x1) = (s.link l.val).nextFrame ∧ s.nextRecord (l.val / 32) (r / 32) = none ∧ frameDecode (hitBytes (frameBytes fr none) f.errs) = some (frameBytes fr none, places))
    ∧ (∃ (l : LinkId) (f : LinkFrame) (s : State) (r m : Nat) (fr : Option LFrame) (x1 : Link) (places : List Nat), (s.link l.val).rx = some r ∧ (s.link l.val).framed = true ∧ isFabric l.val = true ∧ (fr, x1) = (s.link l.val).nextFrame ∧ s.nextRecord (l.val / 32) (r / 32) = some m ∧ frameDecode (hitBytes (frameBytes fr (some (s.recordOf m))) f.errs) = some (frameBytes fr (some (s.recordOf m)), places))
    ∧ (∃ (l : LinkId) (f : LinkFrame) (s : State) (r : Nat) (fr : Option LFrame) (x1 : Link), (s.link l.val).rx = some r ∧ (s.link l.val).framed = true ∧ isFabric l.val = true ∧ (fr, x1) = (s.link l.val).nextFrame ∧ frameDecode (hitBytes (frameBytes fr ((s.nextRecord (l.val / 32) (r / 32)).map s.recordOf)) f.errs) = none)
    ∧ (∃ (s : State) (l b : Nat) (f : LFrame), f.seq = (s.link l).rxNext)
    ∧ (∃ (s : State) (l b : Nat) (f : LFrame), f.seq ≠ (s.link l).rxNext)
    ∧ (∃ (x : Link) (a b : List LFrame) (f : LFrame) (nak : Bool), x.replay = a ++ f :: b ∧ ((∀ g ∈ a, g.seq ≠ f.seq)) ∧ ((nak = false ∨ b = [])))
    ∧ (∃ (x : Link) (seq : Nat), x.replay ≠ [] ∧ ((∀ g ∈ x.replay, g.seq ≠ seq)))
    ∧ (∃ (d e : DieId) (s : State), ((d = e ∨ (tget [] s.cands (16 * d.val + e.val) ≠ s.wantCands d.val e.val ∧ s.candBusy d.val e.val (s.wantCands d.val e.val) = true))))
    ∧ (∃ (d e : DieId) (s : State), d ≠ e ∧ tget [] s.cands (16 * d.val + e.val) = s.wantCands d.val e.val ∧ tget [] s.dieWait (16 * d.val + e.val) = [])
    ∧ (∃ (d e : DieId) (s s1 : State) (back : List LinkPkt), d ≠ e ∧ tget [] s.cands (16 * d.val + e.val) ≠ s.wantCands d.val e.val ∧ s.candBusy d.val e.val (s.wantCands d.val e.val) = false ∧ (back, s1) = takeBack s e.val (tget [] s.cands (16 * d.val + e.val)))
    ∧ (∃ (m : ModuleId) (trims : List (BitVec 32 × Byte)) (s : State), (s.module m.val).fitted = true ∧ (s.module m.val).failed = false ∧ (s.module m.val).admitted = true ∧ (s.module m.val).released = false)
    ∧ (∃ (l : Fin 584) (k : Fin 16) (s : State) (r : Nat), l.val < 512 ∧ (s.link l.val).st = .live ∧ (s.link l.val).work = .none ∧ (s.link l.val).rx = some r ∧ bitAt (s.link l.val).mask k.val = true)
    ∧ (∃ (l : Fin 584) (k : Fin 16) (s : State), 512 ≤ l.val ∧ (s.port (l.val - 512)).st = .up ∧ (s.port (l.val - 512)).maint = none ∧ bitAt (s.port (l.val - 512)).laneMask k.val = true)
    ∧ (∃ (l : Fin 584) (s : State) (m : Nat), l.val < 512 ∧ (s.link l.val).work = .width m ∧ 8 ≤ maskWidth m)
    ∧ (∃ (l : Fin 584) (s : State) (m : Nat), l.val < 512 ∧ (s.link l.val).st = .live ∧ (s.link l.val).work = .width m ∧ maskWidth m < 8 ∧ attachPort l.val = none)
    ∧ (∃ (l : Fin 584) (s : State), 512 ≤ l.val ∧ (s.port (l.val - 512)).st = .width ∧ 8 ≤ maskWidth (s.port (l.val - 512)).propose)
    ∧ (∃ (l : Fin 584) (k : Fin 16) (s : State) (r : Nat), l.val < 512 ∧ (s.link l.val).st = .live ∧ (s.link l.val).work = .none ∧ (s.link l.val).rx = some r ∧ (s.lane (16 * r + k.val)).excluded = true ∧ (s.lane (16 * r + k.val)).retired = false ∧ bitAt (s.link l.val).mask k.val = false)
    ∧ (∃ (l : LinkId) (s : State), (s.link l.val).st = .lost ∧ isPool l.val = true ∧ (s.link l.val).subst = false)
    ∧ (∃ (l : LinkId) (s s2 : State) (i r t q : Nat), (s.link l.val).st = .lost ∧ linkRole l.val = .standing i ∧ (s.link l.val).subst = false ∧ (s.link l.val).rx = some r ∧ s.spareTx (l.val / 32) = some t ∧ s.spareRx (r / 32) = some q ∧ s2 = State.takeRx (State.takeTx (s.setLink l.val { (s.link l.val).emptied with rx := none, subst := false, mask := 0, drain := false }) t) q ∧ 8 ≤ maskWidth (s2.rxMask q))
    ∧ (∃ (l : Fin 584) (s : State) (c : CalReq), l.val < 512 ∧ s.calQueue.find? (fun c => decide (c.link = l.val)) = some c ∧ (s.link l.val).st = .live ∧ (s.link l.val).work = .none ∧ s.otherCand l.val = true)
    ∧ (∃ (l : Fin 584) (s : State) (c : CalReq), l.val < 512 ∧ s.calQueue.find? (fun c => decide (c.link = l.val)) = some c ∧ (s.link l.val).st = .live ∧ (s.link l.val).work = .none ∧ c.force = false ∧ s.hasSubstitute l.val = false)
    ∧ (∃ (l : Fin 584) (s : State) (c : CalReq), l.val < 512 ∧ s.calQueue.find? (fun c => decide (c.link = l.val)) = some c ∧ (s.link l.val).st ∈ [.lost, .withdrawn, .dark])
    ∧ (∃ (i : Instr) (retrain : Bool) (l : LinkId) (m n : BitVec 16) (tr : List (BitVec 32 × Byte)) (s : State) (r : Nat), (((i = .linkSweepComplete l m n tr ∧ retrain = false) ∨ (i = .linkRetrainComplete l m n tr ∧ retrain = true))) ∧ (s.link l.val).work = .calib retrain [] none ∧ 8 ≤ maskWidth m.toNat ∧ (s.link l.val).rx = some r)
    ∧ (∃ (i : Instr) (retrain : Bool) (l : LinkId) (m n : BitVec 16) (tr : List (BitVec 32 × Byte)) (s : State) (ops : List Nat) (sub : Option Nat), (((i = .linkSweepComplete l m n tr ∧ retrain = false) ∨ (i = .linkRetrainComplete l m n tr ∧ retrain = true))) ∧ (s.link l.val).work = .calib retrain ops sub)
    ∧ (∃ (i : Instr) (retrain : Bool) (l : LinkId) (m n : BitVec 16) (tr : List (BitVec 32 × Byte)) (s : State), (((i = .linkSweepComplete l m n tr ∧ retrain = false) ∨ (i = .linkRetrainComplete l m n tr ∧ retrain = true))) ∧ ((∀ ops sub, (s.link l.val).work ≠ .calib retrain ops sub)))
    ∧ (∃ (l : Fin 584) (f : TrainFrame) (s : State) (m : Nat), l.val < 512 ∧ (s.link l.val).work = .width m ∧ f.tkind = 5)
    ∧ (∃ (l : Fin 584) (f : TrainFrame) (s : State), l.val < 512 ∧ (s.link l.val).work = .none ∧ (s.link l.val).st = .live ∧ f.tkind = 5 ∧ (s.link l.val).mask &&& f.laneMask ≠ (s.link l.val).mask)
    ∧ (∃ (l : Fin 584) (f : TrainFrame) (s : State), f.tkind = 4 ∧ f.ack = true ∧ (s.link l.val).work = .relock)
    ∧ (∃ (l : Fin 584) (f : TrainFrame) (s : State), 512 ≤ l.val ∧ (s.port (l.val - 512)).st = .width ∧ f.tkind = 5)
    ∧ (∃ (op : Nat) (s : State) (o : Op), s.op op = some o ∧ o.opcode = 0x0503 ∧ o.args.headD 0 = 4 ∧ o.fin = none ∧ o.st = 1)
    ∧ (∃ (op : Nat) (s : State), s.capture = some (op, true))
    ∧ (∃ (op : Nat) (s : State), s.capture = some (op, false)) :=
  ⟨⟨3, ⟨[]⟩, base, by decide⟩,
   ⟨0, ⟨[(3, 1)]⟩, lks [(0, { lk0 with rx := some 32 })], 32, (((lks [(0, { lk0 with rx := some 32 })]).link ((0 : LinkId)).val).nextFrame).1, (((lks [(0, { lk0 with rx := some 32 })]).link ((0 : LinkId)).val).nextFrame).2, [3], by decide, by decide, by decide, rfl, by decide, (by decide +kernel)⟩,
   ⟨0, ⟨[]⟩, lks [(0, { lk0 with rx := some 32 }), (32, { lk0 with rx := some 0, ackDue := true })], 32, 32, (((lks [(0, { lk0 with rx := some 32 }), (32, { lk0 with rx := some 0, ackDue := true })]).link ((0 : LinkId)).val).nextFrame).1, (((lks [(0, { lk0 with rx := some 32 }), (32, { lk0 with rx := some 0, ackDue := true })]).link ((0 : LinkId)).val).nextFrame).2, [], by decide, by decide, by decide, rfl, by decide, (by decide +kernel)⟩,
   ⟨0, ⟨[(0, 1), (2, 1), (4, 1), (6, 1)]⟩, lks [(0, { lk0 with rx := some 32 })], 32, (((lks [(0, { lk0 with rx := some 32 })]).link ((0 : LinkId)).val).nextFrame).1, (((lks [(0, { lk0 with rx := some 32 })]).link ((0 : LinkId)).val).nextFrame).2, by decide, by decide, by decide, rfl, (by decide +kernel)⟩,
   ⟨lks [(0, { lk0 with rx := some 32, rxNext := 255 })], 0, 1, ⟨255, 0, [], []⟩, by decide⟩,
   ⟨lks [(0, { lk0 with rx := some 32, rxNext := 255 })], 0, 1, ⟨0, 0, [], []⟩, by decide⟩,
   ⟨{ lk0 with replay := [⟨4, 0, [], []⟩, ⟨5, 0, [], []⟩] }, [⟨4, 0, [], []⟩], [], ⟨5, 0, [], []⟩, true, by decide, by decide, by decide⟩,
   ⟨{ lk0 with replay := [⟨4, 0, [], []⟩] }, 9, by decide, by decide⟩,
   ⟨3, 3, base, by decide⟩,
   ⟨0, 15, base, by decide, by decide, by decide⟩,
   ⟨0, 1, lks [(0, { lk0 with rx := some 32 })], (takeBack (lks [(0, { lk0 with rx := some 32 })]) ((1 : DieId)).val (tget [] (lks [(0, { lk0 with rx := some 32 })]).cands (16 * ((0 : DieId)).val + ((1 : DieId)).val))).2, (takeBack (lks [(0, { lk0 with rx := some 32 })]) ((1 : DieId)).val (tget [] (lks [(0, { lk0 with rx := some 32 })]).cands (16 * ((0 : DieId)).val + ((1 : DieId)).val))).1, by decide, by decide, by decide, rfl⟩,
   ⟨11, [], { base with modules := [(11, mo)] }, by decide, by decide, by decide, by decide⟩,
   ⟨3, 15, lks [(3, lk0)], 35, by decide, by decide, by decide, by decide, by decide⟩,
   ⟨583, 15, pt { up with laneMask := 0xFFFF }, by decide, by decide, by decide, by decide⟩,
   ⟨3, lks [(3, { lk0 with work := .width 0xFF })], 0xFF, by decide, by decide, by decide⟩,
   ⟨3, lks [(3, { lk0 with work := .width 0x7F })], 0x7F, by decide, by decide, by decide, by decide, by decide⟩,
   ⟨583, pt { up with st := .width, propose := 0xFF }, by decide, by decide, by decide⟩,
   ⟨3, 15, { lks [(3, { lk0 with mask := 0x7FFF })] with lanes := [(575, { Lane.init with excluded := true })] }, 35, by decide, by decide, by decide, by decide, by decide, by decide, by decide⟩,
   ⟨3, lks [(3, { lk0 with st := .lost })], by decide, by decide, by decide⟩,
   ⟨256, { mods with links := [(256, { lk0 with st := .lost, rx := some 288 })] }, State.takeRx (State.takeTx ((({ mods with links := [(256, { lk0 with st := .lost, rx := some 288 })] } : State)).setLink ((256 : LinkId)).val { ((({ mods with links := [(256, { lk0 with st := .lost, rx := some 288 })] } : State)).link ((256 : LinkId)).val).emptied with rx := none, subst := false, mask := 0, drain := false }) (281)) (313), 0, 288, 281, 313, by decide, by decide, by decide, by decide, by decide, by decide, rfl, by decide⟩,
   ⟨0, { lks [(0, { lk0 with rx := some 32 }), (2, { lk0 with rx := some 34 })] with calQueue := [⟨0, false, [], false⟩] }, ⟨0, false, [], false⟩, by decide, by decide, by decide, by decide, by decide⟩,
   ⟨3, { lks [(3, lk0)] with calQueue := [⟨3, false, [], false⟩] }, ⟨3, false, [], false⟩, by decide, by decide, by decide, by decide, by decide, by decide⟩,
   ⟨3, { base with calQueue := [⟨3, false, [], false⟩] }, ⟨3, false, [], false⟩, by decide, by decide, by decide⟩,
   ⟨.linkSweepComplete 3 0xFF 9 [], false, 3, 0xFF, 9, [], lks [(3, { lk0 with work := .calib false [] none })], 35, by decide, by decide, by decide, by decide⟩,
   ⟨.linkRetrainComplete 3 0x7F 9 [], true, 3, 0x7F, 9, [], lks [(3, { lk0 with work := .calib true [] none })], [], none, by decide, by decide⟩,
   ⟨.linkRetrainComplete 3 0x7F 9 [], true, 3, 0x7F, 9, [], lks [(3, lk0)], by decide, (fun _ _ h => by cases h)⟩,
   ⟨3, ⟨5, false, false, 0, 0xFF, 0⟩, lks [(3, { lk0 with work := .width 0x1FF })], 0x1FF, by decide, by decide, by decide⟩,
   ⟨3, ⟨5, false, false, 0, 0xFF, 0⟩, lks [(3, lk0)], by decide, by decide, by decide, by decide, by decide⟩,
   ⟨3, ⟨4, false, true, 0, 0, 0⟩, lks [(3, { lk0 with work := .relock })], by decide, by decide, by decide⟩,
   ⟨583, ⟨5, false, false, 0, 0xFF, 0⟩, pt { up with st := .width, propose := 0xFF }, by decide, by decide, by decide⟩,
   ⟨7, { base with ops := [opx 7 0x0503 1 [4]] }, opx 7 0x0503 1 [4], by decide, by decide, by decide, by decide, by decide⟩,
   ⟨7, { base with capture := some (7, true) }, by decide⟩,
   ⟨7, { base with capture := some (7, false) }, by decide⟩⟩
theorem witness_sensorsAndFigures :
    (∃ (n : SensorId) (w : BitVec 16) (s : State), s.sensorOn n.val = true ∧ (s.sensor n.val).retired = false ∧ ((n.val < 576 → (s.sensor n.val).invalid = 0)) ∧ (((s.sensor n.val).fast = true ∨ (s.sensor n.val).phase = 0)))
    ∧ (∃ (n : SensorId) (w : BitVec 16) (s : State) (k : Nat), s.sensorOn n.val = true ∧ n.val < 576 ∧ (s.sensor n.val).retired = false ∧ (s.sensor n.val).invalid = k + 1)
    ∧ (∃ (n : SensorId) (w : BitVec 16) (s : State), s.sensorOn n.val = true ∧ (s.sensor n.val).retired = false ∧ ((n.val < 576 → (s.sensor n.val).invalid = 0)) ∧ (s.sensor n.val).fast = false ∧ (s.sensor n.val).phase ≠ 0)
    ∧ (∃ (n : Fin 576) (w : BitVec 16) (s : State), s.sensorOn n.val = true ∧ (s.sensor n.val).retired = false ∧ (s.sensor n.val).last ≠ none ∧ (signedOf 16 w.toNat).natAbs ≤ 15)
    ∧ (∃ (n : Fin 576) (w : BitVec 16) (s : State), s.sensorOn n.val = true ∧ (s.sensor n.val).retired = false ∧ (s.sensor n.val).last ≠ none ∧ 15 < (signedOf 16 w.toNat).natAbs ∧ (signedOf 16 w.toNat).natAbs ≤ 30 ∧ (s.sensor n.val).residWarn = false)
    ∧ (∃ (n : Fin 576) (w : BitVec 16) (s : State), s.sensorOn n.val = true ∧ (s.sensor n.val).retired = false ∧ (s.sensor n.val).last ≠ none ∧ 30 < (signedOf 16 w.toNat).natAbs ∧ (s.sensor n.val).residWarn = true)
    ∧ (∃ (s : State) (n : Nat), (s.sensor n).retired = false)
    ∧ (∃ (n : Fin 584) (k : Fin 16) (w : Fin 65) (s : State), s.linkParked n.val = false ∧ s.rxFramed n.val = true ∧ 26 ≤ w.val)
    ∧ (∃ (n : Fin 584) (k : Fin 16) (w : Fin 65) (s : State), s.linkParked n.val = false ∧ s.rxFramed n.val = true ∧ 20 ≤ w.val ∧ w.val < 26 ∧ bitAt (s.lane (16 * n.val + k.val)).warn 0 = false)
    ∧ (∃ (n : Fin 584) (k : Fin 16) (w : Fin 65) (s : State) (l : Nat), s.linkParked n.val = false ∧ s.rxFramed n.val = true ∧ w.val < 20 ∧ bitAt (s.lane (16 * n.val + k.val)).warn 0 = true ∧ bitAt (s.lane (16 * n.val + k.val)).action 0 = false ∧ s.txLink n.val = some l)
    ∧ (∃ (n : Fin 584) (k : Fin 16) (w : Fin 65) (s : State), s.linkParked n.val = false ∧ s.rxFramed n.val = false ∧ s.rxSwept n.val = false)
    ∧ (∃ (n : Fin 584) (k : Fin 16) (h : BitVec 8) (s : State), s.linkParked n.val = false ∧ s.rxFramed n.val = true ∧ 60 ≤ h.toNat)
    ∧ (∃ (n : Fin 584) (k : Fin 16) (e : BitVec 8) (s : State), s.linkParked n.val = false ∧ s.rxFramed n.val = true ∧ 90 ≤ e.toNat)
    ∧ (∃ (n : Fin 584) (s : State), s.linkParked n.val = false ∧ s.rxFramed n.val = true ∧ ((∀ k, k < 16 → (s.lane (16 * n.val + k)).corr = 0)))
    ∧ (∃ (n : Fin 584) (k : Fin 16) (c l : Nat) (s : State), s.linkParked n.val = false ∧ s.rxFramed n.val = true ∧ 4096 ≤ c ∧ ((∀ j, j < 16 → (s.lane (16 * n.val + j)).corr = 0)) ∧ s.txLink n.val = some l)
    ∧ (∃ (r : Fin 212888) (w : BitVec 16) (m : Fin 3) (s : State), s.ringLive r.val = true ∧ 17536 ≤ r.val ∧ (signedOf 16 w.toNat).natAbs ≤ 60 ∧ s.ringHeld r.val = false)
    ∧ (∃ (r : Fin 212888) (w : BitVec 16) (m : Fin 3) (s : State), s.ringLive r.val = true ∧ r.val < 17536 ∧ s.capture = none)
    ∧ (∃ (s : State) (r res : Nat), 60 < res ∧ res ≤ 120 ∧ s.ringHeld r = false ∧ s.ringWarn.contains r = false)
    ∧ (∃ (s : State) (r res : Nat), 120 < res ∧ s.ringWarn.contains r = true ∧ s.ringAct.contains r = false)
    ∧ (∃ (s : State) (r l : Nat), s.ringLink r = some l)
    ∧ (∃ (r : Fin 17536) (o : BitVec 12) (s : State) (l : Nat), s.relocks.contains r.val = true ∧ s.capture = none ∧ s.ringLink r.val = some l)
    ∧ (∃ (z : Fin 64) (s : State) (x : Int), (tget Zone.init s.zones z.val).retrim = true ∧ (tget Zone.init s.zones z.val).ops = [] ∧ s.capture = none ∧ s.zoneTemp z.val = some x)
    ∧ (∃ (v : BitVec 32) (a b : List Byte) (s : State), s.ready = true ∧ ((v.toNat < 1960000 ∨ 2040000 < v.toNat)))
    ∧ (∃ (v : BitVec 32) (a b : List Byte) (s : State), s.ready = true ∧ 1960000 ≤ v.toNat ∧ v.toNat ≤ 2040000 ∧ 200 * (v.toNat - s.rcalBoot) ≤ s.rcalBoot ∧ 200 * (s.rcalBoot - v.toNat) ≤ s.rcalBoot)
    ∧ (∃ (v : BitVec 32) (a b : List Byte) (s : State), s.ready = true ∧ 1960000 ≤ v.toNat ∧ v.toNat ≤ 2040000 ∧ ((s.rcalBoot < 200 * (v.toNat - s.rcalBoot) ∨ s.rcalBoot < 200 * (s.rcalBoot - v.toNat)))) :=
  ⟨⟨511, 0x190, sen 511 { Sensor.init with invalid := 0, fast := true }, by decide, by decide, by decide, by decide⟩,
   ⟨575, 0, sen 575 Sensor.init, 2, by decide, by decide, by decide, by decide⟩,
   ⟨511, 0x190, sen 511 { Sensor.init with invalid := 0, phase := 3 }, by decide, by decide, by decide, by decide, by decide⟩,
   ⟨575, 15, sen 575 { Sensor.init with last := some 5 }, by decide, by decide, by decide, by decide⟩,
   ⟨575, 0xFFE2, sen 575 { Sensor.init with last := some 5 }, by decide, by decide, by decide, by decide, by decide, by decide⟩,
   ⟨575, 31, sen 575 { Sensor.init with last := some 5, residWarn := true }, by decide, by decide, by decide, by decide, by decide⟩,
   ⟨base, 5, by decide⟩,
   ⟨35, 15, 26, lks [(3, lk0)], by decide, by decide, by decide⟩,
   ⟨35, 15, 25, lks [(3, lk0)], by decide, by decide, by decide, by decide, by decide⟩,
   ⟨35, 15, 19, { lks [(3, lk0)] with lanes := [(575, { Lane.init with warn := 1 })] }, 3, by decide, by decide, by decide, by decide, by decide, by decide⟩,
   ⟨35, 15, 19, base, by decide, by decide, by decide⟩,
   ⟨35, 15, 60, lks [(3, lk0)], by decide, by decide, by decide⟩,
   ⟨35, 15, 90, lks [(3, lk0)], by decide, by decide, by decide⟩,
   ⟨35, lks [(3, lk0)], by decide, by decide, by decide⟩,
   ⟨35, 15, 4096, 3, lks [(3, lk0)], by decide, by decide, by decide, by decide, by decide⟩,
   ⟨211136, 60, 2, lks [(0, lk0)], by decide, by decide, by decide, by decide⟩,
   ⟨15, 9, 2, lks [(0, lk0)], by decide, by decide, by decide⟩,
   ⟨base, 212887, 120, by decide, by decide, by decide, by decide⟩,
   ⟨{ base with ringWarn := [7] }, 7, 121, by decide, by decide, by decide⟩,
   ⟨base, 15, 0, by decide⟩,
   ⟨15, 9, { lks [(0, lk0)] with relocks := [15] }, 0, by decide, by decide, by decide⟩,
   ⟨63, { base with zones := [(63, ⟨true, []⟩)], sensors := [(575, { Sensor.init with last := some 400 })] }, 400, by decide, by decide, by decide, by decide⟩,
   ⟨1959999, [], [], base, by decide, by decide⟩,
   ⟨2000000, [], [], { base with rcalBoot := 2000000 }, by decide, by decide, by decide, by decide, by decide⟩,
   ⟨2000000, [], [], { base with rcalBoot := 2040000 }, by decide, by decide, by decide, by decide⟩⟩
theorem witness_sensorFlags :
    (∃ (n : Nat), n < 512)
    ∧ (∃ (n : Nat), 512 ≤ n ∧ n < 576)
    ∧ (∃ (n : Nat), 576 ≤ n)
    ∧ (∃ (n : SensorId) (w : BitVec 16) (s : State), s.sensorOn n.val = true ∧ (s.sensor n.val).retired = false ∧ ((n.val < 576 → (s.sensor n.val).invalid = 0)) ∧ (((s.sensor n.val).fast = true ∨ (s.sensor n.val).phase = 0))) :=
  ⟨⟨511, by decide⟩,
   ⟨575, by decide, by decide⟩,
   ⟨576, by decide⟩,
   ⟨511, 0x190, sen 511 { Sensor.init with invalid := 0, fast := true }, by decide, by decide, by decide, by decide⟩⟩
theorem witness_berthSlots :
    (∃ (b : BerthId) (path : BerthPath) (off : Fin 4096) (bytes : List Byte) (s : State) (who k : Nat), s.pathId path = some who ∧ s.admits b.val who = true ∧ k < 7 ∧ 0x200 * k ≤ off.val ∧ off.val + bytes.length ≤ 0x200 * (k + 1) ∧ bytes ≠ [] ∧ ((s.berth b.val).slot k).st = .free)
    ∧ (∃ (b : BerthId) (path : BerthPath) (off : Fin 4096) (bytes : List Byte) (s : State) (who k : Nat), s.pathId path = some who ∧ s.admits b.val who = true ∧ k < 7 ∧ 0x200 * k ≤ off.val ∧ off.val + bytes.length ≤ 0x200 * (k + 1) ∧ bytes ≠ [] ∧ ((s.berth b.val).slot k).st = .claimed ∧ ((s.berth b.val).slot k).who = who)
    ∧ (∃ (b : BerthId) (path : BerthPath) (off : Fin 4096) (bytes : List Byte) (s : State) (who k : Nat), s.pathId path = some who ∧ s.admits b.val who = true ∧ k < 7 ∧ 0x200 * k ≤ off.val ∧ off.val + bytes.length ≤ 0x200 * (k + 1) ∧ bytes ≠ [] ∧ ((s.berth b.val).slot k).st = .claimed ∧ ((s.berth b.val).slot k).who ≠ who)
    ∧ (∃ (b : BerthId) (path : BerthPath) (off : Fin 4096) (bytes : List Byte) (s : State) (who k : Nat), s.pathId path = some who ∧ s.admits b.val who = true ∧ k < 7 ∧ 0x200 * k ≤ off.val ∧ off.val + bytes.length ≤ 0x200 * (k + 1) ∧ bytes ≠ [] ∧ ((s.berth b.val).slot k).st ∈ [.serving, .served])
    ∧ (∃ (b : BerthId) (path : BerthPath) (off : Fin 4096) (bytes : List Byte) (s : State) (who : Nat), s.pathId path = some who ∧ s.admits b.val who = false)
    ∧ (∃ (b : BerthId) (path : BerthPath) (v : BitVec 32) (s : State) (who : Nat), s.pathId path = some who ∧ s.admits b.val who = false)
    ∧ (∃ (b : BerthId) (path : BerthPath) (off : Fin 4096) (bytes : List Byte) (v : BitVec 32) (s : State), s.pathId path = none)
    ∧ (∃ (b : BerthId) (path : BerthPath) (v : BitVec 32) (s : State) (who k : Nat), s.pathId path = some who ∧ s.admits b.val who = true ∧ k < 7 ∧ v.toNat = 65537 * 2 ^ k ∧ (k, who) ∉ (s.berth b.val).rings)
    ∧ (∃ (b : BerthId) (path : BerthPath) (v : BitVec 32) (s : State) (who k : Nat), s.pathId path = some who ∧ s.admits b.val who = true ∧ k < 7 ∧ v.toNat = 65536 * 2 ^ k)
    ∧ (∃ (b : BerthId) (s : State) (k who : Nat) (l : List (Nat × Nat)), s.helmServesBerth b.val = true ∧ ((∀ x ∈ (s.berth b.val).slots, x.2.st ≠ .serving)) ∧ (s.berth b.val).rings = (k, who) :: l ∧ ((s.berth b.val).slot k).st = .claimed ∧ ((s.berth b.val).slot k).who = who)
    ∧ (∃ (b : BerthId) (s : State) (k who : Nat) (l : List (Nat × Nat)), s.helmServesBerth b.val = true ∧ ((∀ x ∈ (s.berth b.val).slots, x.2.st ≠ .serving)) ∧ (s.berth b.val).rings = (k, who) :: l ∧ ((s.berth b.val).slot k).st ≠ .claimed)
    ∧ (∃ (b : BerthId) (s : State), ((s.helmServesBerth b.val = false ∨ ∃ x ∈ (s.berth b.val).slots, x.2.st = .serving)))
    ∧ (∃ (b : BerthId) (k : Fin 7) (s : State) (rep bytes : List Byte), ((s.berth b.val).slot k.val).st = .serving ∧ ((s.berth b.val).slot k.val).rep = some rep ∧ ((s.berth b.val).slot k.val).dropped = false ∧ bytes = padTo 256 (rep.take 12 ++ leBytes 4 ((s.berth b.val).rseq + 1) ++ rep.drop 16))
    ∧ (∃ (b : BerthId) (k : Fin 7) (s : State) (rep : List Byte), ((s.berth b.val).slot k.val).st = .serving ∧ ((s.berth b.val).slot k.val).rep = some rep ∧ ((s.berth b.val).slot k.val).dropped = true)
    ∧ (∃ (b : BerthId) (path : BerthPath) (v : BitVec 32) (s : State) (who : Nat), s.pathId path = some who ∧ s.admits b.val who = true)
    ∧ (∃ (s : State), s.ready = true ∧ s.helmServes = true ∧ ((∀ b ∈ tkeys s.barns, b < 256)) ∧ (tkeys s.barns).Nodup) :=
  ⟨⟨256, .pcie 0, 0xDFF, [1], base, pf, 6, by decide, by decide, by decide, by decide, by decide, by decide, by decide⟩,
   ⟨256, .pcie 0, 0xDFF, [1], sl ⟨.claimed, pf, false, [], none⟩, pf, 6, by decide, by decide, by decide, by decide, by decide, by decide, by decide, by decide⟩,
   ⟨256, .pcie 0, 0xDFF, [1], sl ⟨.claimed, 2, false, [], none⟩, pf, 6, by decide, by decide, by decide, by decide, by decide, by decide, by decide, by decide⟩,
   ⟨256, .pcie 0, 0xDFF, [1], sl ⟨.served, pf, false, [], none⟩, pf, 6, by decide, by decide, by decide, by decide, by decide, by decide, by decide⟩,
   ⟨256, .i3c, 0, [1], base, idI3c, by decide, by decide⟩,
   ⟨256, .i3c, 0, base, idI3c, by decide, by decide⟩,
   ⟨256, .pcie 9, 0, [1], 0, base, by decide⟩,
   ⟨256, .pcie 0, 0x400040, base, pf, 6, by decide, by decide, by decide, by decide, by decide⟩,
   ⟨256, .pcie 0, 0x400000, base, pf, 6, by decide, by decide, by decide, by decide⟩,
   ⟨256, { base with berths := [(256, { Berth.init with rings := [(6, 1)], slots := [(6, ⟨.claimed, 1, false, [], none⟩)] })] }, 6, 1, [], by decide, by decide, by decide, by decide, by decide⟩,
   ⟨256, { base with berths := [(256, { Berth.init with rings := [(6, 1)] })] }, 6, 1, [], by decide, by decide, by decide, by decide⟩,
   ⟨256, { base with berths := [(256, { Berth.init with rings := [(6, 1)], slots := [(6, ⟨.serving, 1, false, [], none⟩)] })] }, .inr ⟨_, .head _, rfl⟩⟩,
   ⟨256, 6, sl ⟨.serving, 1, false, [], some (List.replicate 256 1)⟩, List.replicate 256 1, padTo 256 ((List.replicate 256 1).take 12 ++ leBytes 4 (((sl ⟨.serving, 1, false, [], some (List.replicate 256 1)⟩).berth ((256 : BerthId)).val).rseq + 1) ++ (List.replicate 256 1).drop 16), by decide, by decide, by decide, rfl⟩,
   ⟨256, 6, sl ⟨.serving, 1, true, [], some [1]⟩, [1], by decide, by decide, by decide⟩,
   ⟨256, .pcie 0, 0x40, sl ⟨.served, pf, false, [], none⟩, pf, by decide, by decide⟩,
   ⟨base, by decide, by decide, by decide, by decide⟩⟩
theorem witness_longOperations :
    (∃ (s : State) (c : Cmd) (total : Nat) (work : List Nat), s.ops.length < 256 ∧ s.statusOk c = true)
    ∧ (∃ (s : State) (c : Cmd) (total : Nat) (work : List Nat), 256 ≤ s.ops.length)
    ∧ (∃ (s : State) (c : Cmd) (total : Nat) (work : List Nat), s.ops.length < 256 ∧ s.statusOk c = false)
    ∧ (∃ (s : State) (c : Cmd) (total : Nat) (work : List Nat), s.ops.length < 256 ∧ s.statusOk c = true ∧ c.statusAddr = 0 ∧ s.op s.opNext = none)
    ∧ (∃ (n : Nat) (s : State) (o : Op), s.op n = some o ∧ o.statusAddr ≠ 0 ∧ o.akind = 1 ∧ idKind o.who = 1 ∧ o.sdb = false)
    ∧ (∃ (n : Nat) (s : State) (o : Op), s.op n = some o ∧ o.statusAddr ≠ 0 ∧ s.addrOk o.akind o.who o.barn o.statusAddr 32 = false)
    ∧ (∃ (n : Nat) (s : State) (o : Op), s.op n = some o ∧ o.statusAddr = 0)
    ∧ (∃ (n : Nat) (s : State) (o : Op) (st r : Nat), s.op n = some o ∧ s.opOver o = some (st, r) ∧ o.statusAddr = 0 ∧ o.opcode ≠ 0x0403 ∧ o.opcode ≠ 0x0204)
    ∧ (∃ (n : Nat) (s : State) (o : Op) (r b g : Nat) (gs : List Nat), s.op n = some o ∧ o.opcode = 0x0204 ∧ o.work = b :: g :: gs ∧ s.opOver o = some (2, r) ∧ o.statusAddr = 0)
    ∧ (∃ (n : Nat) (s : State) (o : Op), s.op n = some o ∧ s.opOver o = none)
    ∧ (∃ (s : State) (o : Op) (x : Nat × Nat), o.fin = some x)
    ∧ (∃ (s : State) (o : Op) (b : Nat) (gs : List Nat), o.fin = none ∧ o.opcode = 0x0204 ∧ o.work = b :: gs) :=
  ⟨⟨{ base with ops := List.replicate 255 (opx 7 0 1 []) }, cm 256 pf 0x0504 0 [], 5, [1], by decide, by decide⟩,
   ⟨{ base with ops := List.replicate 256 (opx 7 0 1 []) }, cm 256 pf 0x0504 0 [], 5, [1], by decide⟩,
   ⟨base, { cm 256 pf 0x0504 0 [] with akind := 1, statusAddr := 12 }, 5, [1], by decide, by decide⟩,
   ⟨base, cm 256 pf 0x0504 0 [], 5, [1], by decide, by decide, by decide, by decide⟩,
   ⟨7, { base with ops := [{ opx 7 0 1 [] with statusAddr := 8, akind := 1, who := pf }] }, { opx 7 0 1 [] with statusAddr := 8, akind := 1, who := pf }, by decide, by decide, by decide, by decide, by decide⟩,
   ⟨7, { base with ops := [{ opx 7 0 1 [] with statusAddr := 8, akind := 2 }] }, { opx 7 0 1 [] with statusAddr := 8, akind := 2 }, by decide, by decide, by decide⟩,
   ⟨7, { base with ops := [opx 7 0 1 []] }, opx 7 0 1 [], by decide, by decide⟩,
   ⟨7, { base with ops := [{ opx 7 0 1 [] with fin := some (2, 0) }] }, { opx 7 0 1 [] with fin := some (2, 0) }, 2, 0, by decide, by decide, by decide, by decide, by decide⟩,
   ⟨7, { base with ops := [{ opx 7 0x0204 1 [] with work := [0, 9] }] }, { opx 7 0x0204 1 [] with work := [0, 9] }, 0, 0, 9, [], by decide, by decide, by decide, by decide, by decide⟩,
   ⟨7, { base with ops := [opx 7 0x0503 1 []] }, opx 7 0x0503 1 [], by decide, by decide⟩,
   ⟨base, { opx 7 0 1 [] with fin := some (2, 0) }, (2, 0), by decide⟩,
   ⟨base, { opx 7 0x0204 1 [] with work := [0, 9] }, 0, [9], by decide, by decide, by decide⟩⟩
theorem witness_helmCommands :
    (∃ (b : BerthId) (k : Fin 7) (s : State) (c : Cmd), s.asked b.val k.val 0x0000 0 c)
    ∧ (∃ (b : BerthId) (k : Fin 7) (s : State) (c : Cmd) (o : Op), s.asked b.val k.val 0x0001 4 c ∧ s.opOrEnded (c.at 0 4) = some o)
    ∧ (∃ (b : BerthId) (k : Fin 7) (s : State) (c : Cmd), s.asked b.val k.val 0x0001 4 c ∧ s.opOrEnded (c.at 0 4) = none)
    ∧ (∃ (b : BerthId) (k : Fin 7) (s : State) (c : Cmd) (o : Op), s.asked b.val k.val 0x0002 4 c ∧ s.op (c.at 0 4) = some o ∧ c.mayControl o = true ∧ ((o.opcode = 0x0503 ∨ o.opcode = 0x0601)) ∧ o.fin = none)
    ∧ (∃ (s : State) (o : Op), s.op o.num = some o ∧ o.fin = none)
    ∧ (∃ (b : BerthId) (k : Fin 7) (s : State) (c : Cmd) (o : Op), s.asked b.val k.val 0x0002 4 c ∧ s.op (c.at 0 4) = some o ∧ c.mayControl o = false)
    ∧ (∃ (b : BerthId) (k : Fin 7) (s : State) (c : Cmd), s.asked b.val k.val 0x0002 4 c ∧ ((s.op (c.at 0 4) = none ∨ ∃ o, s.op (c.at 0 4) = some o ∧ c.mayControl o = true ∧ ((o.opcode ≠ 0x0503 ∧ o.opcode ≠ 0x0601) ∨ o.fin ≠ none))))
    ∧ (∃ (b : BerthId) (k : Fin 7) (s : State) (c : Cmd) (o : Op) (r : CalReq), s.asked b.val k.val 0x0003 4 c ∧ at256Barn b.val = true ∧ s.op (c.at 0 4) = some o ∧ c.mayControl o = true ∧ s.calQueue.find? (fun r => r.ops.contains o.num) = some r)
    ∧ (∃ (b : BerthId) (k : Fin 7) (s : State) (c : Cmd) (o : Op), s.asked b.val k.val 0x0003 4 c ∧ at256Barn b.val = true ∧ s.op (c.at 0 4) = some o ∧ c.mayControl o = true ∧ ((∀ r ∈ s.calQueue, o.num ∉ r.ops)))
    ∧ (∃ (b : BerthId) (k : Fin 7) (s : State) (c : Cmd) (n : Nat), b.val = 256 ∧ s.asked b.val k.val 0x0004 2 c ∧ n = c.at 0 2 ∧ n < 272)
    ∧ (∃ (b : BerthId) (k : Fin 7) (s : State) (c : Cmd), (b.val = 256 ∨ b.val = 257 ∨ b.val = 258) ∧ s.asked b.val k.val 0x0101 0 c)
    ∧ (∃ (b : BerthId) (k : Fin 7) (i : FwImage) (s s1 : State) (c : Cmd), b.val = 256 ∧ s.askedLong b.val k.val 0x0102 0 c ∧ s.helm.st = .paired ∧ s.helm.update = none ∧ s.bufOk c 7552 = true ∧ s1 = s.started c 0 [])
    ∧ (∃ (b : BerthId) (k : Fin 7) (i : FwImage) (s : State) (c : Cmd), b.val = 256 ∧ s.asked b.val k.val 0x0102 0 c ∧ ((s.helm.st ≠ .paired ∨ s.helm.update ≠ none)))
    ∧ (∃ (b : BerthId) (k : Fin 7) (s : State) (c : Cmd) (l : List Nat), b.val = 256 ∧ s.asked b.val k.val 0x0103 4 c ∧ c.at 0 2 ≤ 0x8000 ∧ c.at 2 2 ≤ 0x8000 ∧ l = [c.at 0 2, c.at 2 2].filter (fun x => decide (x < 0x8000)))
    ∧ (∃ (b : BerthId) (k : Fin 7) (s : State) (c : Cmd) (body : List Byte), at256Barn b.val = true ∧ s.askedLong b.val k.val 0x0110 40 c ∧ c.ownBarn (c.at 0 2) = true ∧ ((c.at 0 2 = 0xFFFF ∨ s.barnExists (c.at 0 2) = true)) ∧ s.bufOk c 5056 = true ∧ body = s.reportBody ((c.payload.drop 8).take 32) (if c.at 0 2 = 0xFFFF then none else some (c.at 0 2)))
    ∧ (∃ (b : BerthId) (k : Fin 7) (s : State) (c : Cmd), at256Barn b.val = true ∧ s.asked b.val k.val 0x0110 40 c ∧ c.ownBarn (c.at 0 2) = false)
    ∧ (∃ (b : BerthId) (k : Fin 7) (s : State) (c : Cmd) (i : FwImage), at256Barn b.val = true ∧ s.askedLong b.val k.val 0x0111 0 c ∧ s.bufOk c 15104 = true ∧ s.helm.image = some i)
    ∧ (∃ (b : BerthId) (k : Fin 7) (s : State) (c : Cmd), b.val < 256 ∧ s.askedLong b.val k.val 0x0112 48 c)
    ∧ (∃ (b : BerthId) (k : Fin 7) (s : State) (c : Cmd), b.val < 256 ∧ s.askedLong b.val k.val 0x0113 0 c ∧ c.akind = 2 ∧ s.bufOk c 4096 = true)
    ∧ (∃ (b : BerthId) (k : Fin 7) (s : State) (c : Cmd) (x : Barn), b.val < 256 ∧ s.askedLong b.val k.val 0x0114 0 c ∧ c.akind = 2 ∧ s.bufOk c 1568 = true ∧ s.addrOk 2 c.who c.barn (2048 + c.bufAddr) 32 = true ∧ s.barn c.berth = some x)
    ∧ (∃ (b : BerthId) (k : Fin 7) (s : State) (c : Cmd) (i : FwImage), b.val = 256 ∧ s.askedLong b.val k.val 0x0115 0 c ∧ s.helm.image = some i ∧ s.helm.st = .paired ∧ s.helm.fwA = i.version ∧ s.helm.fwB = i.version)
    ∧ (∃ (b : BerthId) (k : Fin 7) (s : State) (c : Cmd) (i : FwImage), b.val = 256 ∧ s.asked b.val k.val 0x0115 0 c ∧ s.helm.image = some i ∧ ((s.helm.st ≠ .paired ∨ s.helm.fwA ≠ i.version ∨ s.helm.fwB ≠ i.version)))
    ∧ (∃ (b : BerthId) (k : Fin 7) (s : State) (c : Cmd), b.val = 256 ∧ s.askedLong b.val k.val 0x0116 4 c ∧ c.at 0 4 ≤ 64 ∧ s.peerMinSvn ≤ c.at 0 4)
    ∧ (∃ (b : BerthId) (k : Fin 7) (s : State) (c : Cmd), b.val = 256 ∧ s.asked b.val k.val 0x0116 4 c ∧ ((64 < c.at 0 4 ∨ c.at 0 4 < s.peerMinSvn))) :=
  ⟨⟨256, 6, sv base 256 pf 0 0 [], cm 256 pf 0 0 [], ⟨by decide, by decide, by decide⟩⟩,
   ⟨256, 6, sv { base with ops := [opx 7 0x0503 1 []] } 256 pf 1 0 (leBytes 4 7), cm 256 pf 1 0 (leBytes 4 7), opx 7 0x0503 1 [], ⟨by decide, by decide, by decide⟩, by decide⟩,
   ⟨256, 6, sv base 256 pf 1 0 (leBytes 4 7), cm 256 pf 1 0 (leBytes 4 7), ⟨by decide, by decide, by decide⟩, by decide⟩,
   ⟨256, 6, sv { base with ops := [opx 7 0x0503 1 []] } 256 pf 2 0 (leBytes 4 7), cm 256 pf 2 0 (leBytes 4 7), opx 7 0x0503 1 [], ⟨by decide, by decide, by decide⟩, by decide, by decide, by decide, by decide⟩,
   ⟨{ base with ops := [opx 7 0x0503 1 []] }, opx 7 0x0503 1 [], by decide, by decide⟩,
   ⟨5, 6, sv { b5 with ops := [opx 7 0x0503 1 []] } 5 pf 2 0 (leBytes 4 7), cm 5 pf 2 0 (leBytes 4 7), opx 7 0x0503 1 [], ⟨by decide, by decide, by decide⟩, by decide, by decide⟩,
   ⟨256, 6, sv base 256 pf 2 0 (leBytes 4 7), cm 256 pf 2 0 (leBytes 4 7), ⟨by decide, by decide, by decide⟩, .inl rfl⟩,
   ⟨256, 6, sv { base with ops := [opx 7 0x0503 1 []], calQueue := [⟨3, true, [7], false⟩] } 256 pf 3 0 (leBytes 4 7), cm 256 pf 3 0 (leBytes 4 7), opx 7 0x0503 1 [], ⟨3, true, [7], false⟩, ⟨by decide, by decide, by decide⟩, by decide, by decide, by decide, by decide⟩,
   ⟨256, 6, sv { base with ops := [opx 7 0x0503 1 []] } 256 pf 3 0 (leBytes 4 7), cm 256 pf 3 0 (leBytes 4 7), opx 7 0x0503 1 [], ⟨by decide, by decide, by decide⟩, by decide, by decide, by decide, by decide⟩,
   ⟨256, 6, sv base 256 pf 4 0 [15, 1], cm 256 pf 4 0 [15, 1], (cm 256 pf 4 0 [15, 1]).at 0 2, by decide, ⟨by decide, by decide, by decide⟩, rfl, by decide⟩,
   ⟨258, 6, sv base 258 idI3c 0x0101 0 [], cm 258 idI3c 0x0101 0 [], by decide, ⟨by decide, by decide, by decide⟩⟩,
   ⟨256, 6, fw, sv base 256 pf 0x0102 1 [], (sv base 256 pf 0x0102 1 []).started (cm 256 pf 0x0102 1 []) 0 [], cm 256 pf 0x0102 1 [], by decide, ⟨⟨by decide, by decide, by decide⟩, by decide, by decide⟩, by decide, by decide, by decide, rfl⟩,
   ⟨256, 6, fw, sv (hm single) 256 pf 0x0102 1 [], cm 256 pf 0x0102 1 [], by decide, ⟨by decide, by decide, by decide⟩, by decide⟩,
   ⟨256, 6, sv base 256 pf 0x0103 0 [0, 0x80, 0, 0x80], cm 256 pf 0x0103 0 [0, 0x80, 0, 0x80], [(cm 256 pf 0x0103 0 [0, 0x80, 0, 0x80]).at 0 2, (cm 256 pf 0x0103 0 [0, 0x80, 0, 0x80]).at 2 2].filter (fun x => decide (x < 0x8000)), by decide, ⟨by decide, by decide, by decide⟩, by decide, by decide, rfl⟩,
   ⟨256, 6, sv base 256 pf 0x0110 1 (List.replicate 40 0xFF), cm 256 pf 0x0110 1 (List.replicate 40 0xFF), (sv base 256 pf 0x0110 1 (List.replicate 40 0xFF)).reportBody (((cm 256 pf 0x0110 1 (List.replicate 40 0xFF)).payload.drop 8).take 32) (if (cm 256 pf 0x0110 1 (List.replicate 40 0xFF)).at 0 2 = 0xFFFF then none else some ((cm 256 pf 0x0110 1 (List.replicate 40 0xFF)).at 0 2)), by decide, ⟨⟨by decide, by decide, by decide⟩, by decide, by decide⟩, by decide, by decide, by decide, rfl⟩,
   ⟨5, 6, sv b5 5 pf 0x0110 1 ([0, 0] ++ List.replicate 38 0), cm 5 pf 0x0110 1 ([0, 0] ++ List.replicate 38 0), by decide, ⟨by decide, by decide, by decide⟩, by decide⟩,
   ⟨0, 6, sv (hm { base.helm with image := some fw }) 0 pf 0x0111 1 [], cm 0 pf 0x0111 1 [], fw, by decide, ⟨⟨by decide, by decide, by decide⟩, by decide, by decide⟩, by decide, by decide⟩,
   ⟨0, 6, sv base 0 pf 0x0112 0 (List.replicate 48 1), cm 0 pf 0x0112 0 (List.replicate 48 1), by decide, ⟨⟨by decide, by decide, by decide⟩, by decide, by decide⟩⟩,
   ⟨0, 6, sv hb 0 tid 0x0113 2 [], cm 0 tid 0x0113 2 [], by decide, ⟨⟨by decide, by decide, by decide⟩, by decide, by decide⟩, by decide, by decide⟩,
   ⟨0, 6, sv hb 0 tid 0x0114 2 [], cm 0 tid 0x0114 2 [], barn0, by decide, ⟨⟨by decide, by decide, by decide⟩, by decide, by decide⟩, by decide, by decide, by decide, by decide⟩,
   ⟨256, 6, sv { base with helm := { Helm.init with st := .paired, image := some fw } } 256 pf 0x0115 0 [], cm 256 pf 0x0115 0 [], fw, by decide, ⟨⟨by decide, by decide, by decide⟩, by decide, by decide⟩, by decide, by decide, by decide, by decide⟩,
   ⟨256, 6, sv { base with helm := { Helm.init with st := .single, image := some fw } } 256 pf 0x0115 0 [], cm 256 pf 0x0115 0 [], fw, by decide, ⟨by decide, by decide, by decide⟩, by decide, by decide⟩,
   ⟨256, 6, sv base 256 pf 0x0116 0 [64, 0, 0, 0], cm 256 pf 0x0116 0 [64, 0, 0, 0], by decide, ⟨⟨by decide, by decide, by decide⟩, by decide, by decide⟩, by decide, by decide⟩,
   ⟨256, 6, sv base 256 pf 0x0116 0 [65, 0, 0, 0], cm 256 pf 0x0116 0 [65, 0, 0, 0], by decide, ⟨by decide, by decide, by decide⟩, by decide⟩⟩
theorem witness_barnCommands :
    (∃ (b : BerthId) (k : Fin 7) (s : State) (c : Cmd) (n : Nat) (ks : List Nat), b.val = 256 ∧ s.askedLong b.val k.val 0x0201 48 c ∧ n = c.at 0 2 ∧ ks = c.clusters 16 ∧ c.at 12 4 = 0 ∧ c.at 3 1 ≤ 1 ∧ 1 ≤ n ∧ n ≤ 255 ∧ s.barnBusy n [] = false ∧ s.unitsHeld clusterOps ks = false ∧ s.barnExists n = false ∧ 1 ≤ c.at 2 1 ∧ c.at 4 4 ≤ 2 ^ 31 ∧ c.at 8 4 ≤ 2 ^ 31 ∧ s.clusterDetail 0 ks (bitAt (c.at 3 1) 0) = none ∧ s.rngStopped = false)
    ∧ (∃ (b : BerthId) (k : Fin 7) (s : State) (c : Cmd), b.val = 256 ∧ s.asked b.val k.val 0x0201 48 c ∧ c.at 12 4 = 0 ∧ c.at 3 1 ≤ 1 ∧ ((c.at 0 2 = 0 ∨ 255 < c.at 0 2)))
    ∧ (∃ (b : BerthId) (k : Fin 7) (s : State) (c : Cmd) (n : Nat), b.val = 256 ∧ s.askedLong b.val k.val 0x0202 2 c ∧ n = c.at 0 2 ∧ 1 ≤ n ∧ n ≤ 255 ∧ s.barnBusy n [0x0204] = false ∧ s.barnExists n = true)
    ∧ (∃ (b : BerthId) (k : Fin 7) (s : State) (c : Cmd) (n act : Nat) (ks : List Nat), b.val = 256 ∧ s.askedLong b.val k.val 0x0203 48 c ∧ n = c.at 0 2 ∧ act = c.at 2 1 ∧ ks = c.clusters 16 ∧ c.at 3 1 ≤ 1 ∧ 1 ≤ n ∧ n ≤ 255 ∧ s.barnBusy n [] = false ∧ s.unitsHeld clusterOps ks = false ∧ s.barnExists n = true ∧ ((act = 1 ∨ act = 2)) ∧ s.clusterDetail (if act = 1 then 0 else n) ks (bitAt (c.at 3 1) 0) = none)
    ∧ (∃ (b : BerthId) (k : Fin 7) (s s1 : State) (c : Cmd) (n : Nat) (gs : List Nat), b.val = 256 ∧ s.askedLong b.val k.val 0x0204 132 c ∧ n = c.at 0 2 ∧ gs = c.granules 4 ∧ n ≤ 255 ∧ s.barnBusy n [] = false ∧ s.unitsHeld granuleOps gs = false ∧ s.barnExists n = true ∧ s.stageDone 7 = true ∧ ((∀ g ∈ gs, (s.granule g).st = .free ∧ (s.granule g).retired = false ∧ s.granuleFitted g = true)) ∧ s.rngStopped = false ∧ s1 = s.started c 0 (n :: gs))
    ∧ (∃ (b : BerthId) (k : Fin 7) (s : State) (c : Cmd) (n : Nat), b.val = 256 ∧ s.asked b.val k.val 0x0204 132 c ∧ n = c.at 0 2 ∧ n ≤ 255 ∧ s.barnBusy n [] = false ∧ s.unitsHeld granuleOps (c.granules 4) = false ∧ s.barnExists n = true ∧ ((∃ g ∈ c.granules 4, (s.granule g).st ≠ .free)))
    ∧ (∃ (b : BerthId) (k : Fin 7) (s s1 : State) (c : Cmd) (n : Nat) (gs : List Nat), b.val = 256 ∧ s.askedLong b.val k.val 0x0205 132 c ∧ n = c.at 0 2 ∧ gs = c.granules 4 ∧ gs ≠ [] ∧ n ≤ 255 ∧ s.barnBusy n [] = false ∧ s.unitsHeld granuleOps gs = false ∧ s.barnExists n = true ∧ ((∀ g ∈ gs, s.granuleBarn g = some n)) ∧ s1 = s.started c 0 (n :: gs))
    ∧ (∃ (b : BerthId) (k : Fin 7) (s s1 : State) (c : Cmd) (n first m : Nat) (qs : List Nat), b.val = 256 ∧ s.askedLong b.val k.val 0x0206 9 c ∧ n = c.at 0 2 ∧ first = c.at 2 2 ∧ m = c.at 4 4 ∧ n ≤ 255 ∧ n ≠ 0 ∧ s.barnBusy n [] = false ∧ s.barnExists n = true ∧ 1 ≤ m ∧ first + m ≤ 65536 ∧ ((c.at 8 1 = 1 ∨ (c.at 8 1 = 0 ∧ ∀ x ∈ s.queues, first ≤ x.1 → x.1 < first + m → x.2.en = false))) ∧ ((∀ x ∈ s.queueOwner, first ≤ x.1 → x.1 < first + m → x.2 = 0)) ∧ qs = (((List.range m).map fun i => first + i).filter fun q => decide (tget 0 s.queueOwner q ≠ n)) ∧ qs ≠ [] ∧ s1 = s.started c 0 [n])
    ∧ (∃ (b : BerthId) (k : Fin 7) (s s1 : State) (c : Cmd) (first m : Nat) (qs owners : List Nat), b.val = 256 ∧ s.askedLong b.val k.val 0x0206 9 c ∧ c.at 0 2 = 0 ∧ first = c.at 2 2 ∧ m = c.at 4 4 ∧ s.barnBusy 0 [] = false ∧ s.barnExists 0 = true ∧ 1 ≤ m ∧ first + m ≤ 65536 ∧ c.at 8 1 = 1 ∧ qs = (((List.range m).map fun i => first + i).filter fun q => decide (tget 0 s.queueOwner q ≠ 0)) ∧ qs ≠ [] ∧ s1 = s.started c 0 [0] ∧ owners = ((s.queueOwner.filter fun x => decide (first ≤ x.1) && decide (x.1 < first + m) && decide (x.2 ≠ 0)).map (·.2)).eraseDups)
    ∧ (∃ (b : BerthId) (k : Fin 7) (s s1 : State) (c : Cmd) (n : Nat) (x y : Barn), b.val = 256 ∧ s.askedLong b.val k.val 0x0207 12 c ∧ n = c.at 0 2 ∧ n ≤ 255 ∧ s.barnBusy n [] = false ∧ s.barn n = some x ∧ c.at 4 4 ≤ 2 ^ 31 ∧ c.at 8 4 ≤ 2 ^ 31 ∧ s1 = s.started c 0 [n] ∧ y = { x with weight := if c.at 2 1 = 0 then x.weight else c.at 2 1, quota1 := if c.at 4 4 = 0 then x.quota1 else c.at 4 4, quota3 := if c.at 8 4 = 0 then x.quota3 else c.at 8 4 } ∧ y ≠ x)
    ∧ (∃ (b : BerthId) (k : Fin 7) (s : State) (c : Cmd) (n : Nat), b.val = 256 ∧ s.askedLong b.val k.val 0x0208 2 c ∧ n = c.at 0 2 ∧ n ≤ 255 ∧ s.barnBusy n [] = false ∧ s.barnExists n = true)
    ∧ (∃ (b : BerthId) (k : Fin 7) (s : State) (c : Cmd) (x : Barn), b.val = 256 ∧ s.askedLong b.val k.val 0x0209 2 c ∧ s.barnBusy (c.at 0 2) [] = false ∧ s.barn (c.at 0 2) = some x ∧ s.bufOk c (leBytes 4 x.configSeq ++ s.configRecord (c.at 0 2)).length = true)
    ∧ (∃ (b : BerthId) (k : Fin 7) (s : State) (c : Cmd) (bs : List Byte), b.val = 256 ∧ s.askedLong b.val k.val 0x020A 1 c ∧ c.at 0 1 ≤ 16 ∧ bs = (if c.at 0 1 = 0 then (List.range 64).flatMap (fun i => s.tagBlock 0 i) else s.tagBlock (c.at 0 1) 0) ∧ s.bufOk c bs.length = true)
    ∧ (∃ (b : BerthId) (k : Fin 7) (s : State) (c : Cmd) (key n : Nat), b.val = 256 ∧ s.askedLong b.val k.val 0x020B 68 c ∧ c.at 0 1 ≤ 16 ∧ c.at 1 1 < 64 ∧ ((c.at 0 1 ≠ 0 → c.at 1 1 = 0)) ∧ key = tagWriteKey (c.at 0 1) (c.at 1 1) ∧ n = tget 0 s.nv.tagWrites key ∧ n < 10000) :=
  ⟨⟨256, 6, sv base 256 pf 0x0201 0 ([255, 0, 1, 1] ++ leBytes 4 (2 ^ 31) ++ leBytes 4 (2 ^ 31) ++ leBytes 4 0 ++ cl 255), cm 256 pf 0x0201 0 ([255, 0, 1, 1] ++ leBytes 4 (2 ^ 31) ++ leBytes 4 (2 ^ 31) ++ leBytes 4 0 ++ cl 255), (cm 256 pf 0x0201 0 ([255, 0, 1, 1] ++ leBytes 4 (2 ^ 31) ++ leBytes 4 (2 ^ 31) ++ leBytes 4 0 ++ cl 255)).at 0 2, (cm 256 pf 0x0201 0 ([255, 0, 1, 1] ++ leBytes 4 (2 ^ 31) ++ leBytes 4 (2 ^ 31) ++ leBytes 4 0 ++ cl 255)).clusters 16, by decide, ⟨⟨by decide, by decide, by decide⟩, by decide, by decide⟩, rfl, rfl, by decide, by decide, by decide, by decide, by decide, by decide, by decide, by decide, by decide, by decide, by decide, by decide⟩,
   ⟨256, 6, sv base 256 pf 0x0201 0 (List.replicate 48 0), cm 256 pf 0x0201 0 (List.replicate 48 0), by decide, ⟨by decide, by decide, by decide⟩, by decide, by decide, by decide⟩,
   ⟨256, 6, sv b5 256 pf 0x0202 0 [5, 0], cm 256 pf 0x0202 0 [5, 0], (cm 256 pf 0x0202 0 [5, 0]).at 0 2, by decide, ⟨⟨by decide, by decide, by decide⟩, by decide, by decide⟩, rfl, by decide, by decide, by decide, by decide⟩,
   ⟨256, 6, sv b5 256 pf 0x0203 0 ([5, 0, 1, 0] ++ List.replicate 12 0 ++ cl 255), cm 256 pf 0x0203 0 ([5, 0, 1, 0] ++ List.replicate 12 0 ++ cl 255), (cm 256 pf 0x0203 0 ([5, 0, 1, 0] ++ List.replicate 12 0 ++ cl 255)).at 0 2, (cm 256 pf 0x0203 0 ([5, 0, 1, 0] ++ List.replicate 12 0 ++ cl 255)).at 2 1, (cm 256 pf 0x0203 0 ([5, 0, 1, 0] ++ List.replicate 12 0 ++ cl 255)).clusters 16, by decide, ⟨⟨by decide, by decide, by decide⟩, by decide, by decide⟩, rfl, rfl, rfl, by decide, by decide, by decide, by decide, by decide, by decide, by decide, by decide⟩,
   ⟨256, 6, sv base 256 pf 0x0204 0 ([0, 0, 0, 0] ++ gr 1023), (sv base 256 pf 0x0204 0 ([0, 0, 0, 0] ++ gr 1023)).started (cm 256 pf 0x0204 0 ([0, 0, 0, 0] ++ gr 1023)) 0 (((cm 256 pf 0x0204 0 ([0, 0, 0, 0] ++ gr 1023)).at 0 2) :: ((cm 256 pf 0x0204 0 ([0, 0, 0, 0] ++ gr 1023)).granules 4)), cm 256 pf 0x0204 0 ([0, 0, 0, 0] ++ gr 1023), (cm 256 pf 0x0204 0 ([0, 0, 0, 0] ++ gr 1023)).at 0 2, (cm 256 pf 0x0204 0 ([0, 0, 0, 0] ++ gr 1023)).granules 4, by decide, ⟨⟨by decide, by decide, by decide⟩, by decide, by decide⟩, rfl, rfl, by decide, by decide, by decide, by decide, by decide, by decide, by decide, rfl⟩,
   ⟨256, 6, sv hb 256 pf 0x0204 0 ([0, 0, 0, 0] ++ gr 0), cm 256 pf 0x0204 0 ([0, 0, 0, 0] ++ gr 0), (cm 256 pf 0x0204 0 ([0, 0, 0, 0] ++ gr 0)).at 0 2, by decide, ⟨by decide, by decide, by decide⟩, rfl, by decide, by decide, by decide, by decide, ⟨0, by decide, by decide⟩⟩,
   ⟨256, 6, sv hb 256 pf 0x0205 0 ([0, 0, 0, 0] ++ gr 0), (sv hb 256 pf 0x0205 0 ([0, 0, 0, 0] ++ gr 0)).started (cm 256 pf 0x0205 0 ([0, 0, 0, 0] ++ gr 0)) 0 (((cm 256 pf 0x0205 0 ([0, 0, 0, 0] ++ gr 0)).at 0 2) :: ((cm 256 pf 0x0205 0 ([0, 0, 0, 0] ++ gr 0)).granules 4)), cm 256 pf 0x0205 0 ([0, 0, 0, 0] ++ gr 0), (cm 256 pf 0x0205 0 ([0, 0, 0, 0] ++ gr 0)).at 0 2, (cm 256 pf 0x0205 0 ([0, 0, 0, 0] ++ gr 0)).granules 4, by decide, ⟨⟨by decide, by decide, by decide⟩, by decide, by decide⟩, rfl, rfl, by decide, by decide, by decide, by decide, by decide, by decide, rfl⟩,
   ⟨256, 6, sv b5 256 pf 0x0206 0 [5, 0, 255, 255, 1, 0, 0, 0, 1], (sv b5 256 pf 0x0206 0 [5, 0, 255, 255, 1, 0, 0, 0, 1]).started (cm 256 pf 0x0206 0 [5, 0, 255, 255, 1, 0, 0, 0, 1]) 0 [((cm 256 pf 0x0206 0 [5, 0, 255, 255, 1, 0, 0, 0, 1]).at 0 2)], cm 256 pf 0x0206 0 [5, 0, 255, 255, 1, 0, 0, 0, 1], (cm 256 pf 0x0206 0 [5, 0, 255, 255, 1, 0, 0, 0, 1]).at 0 2, (cm 256 pf 0x0206 0 [5, 0, 255, 255, 1, 0, 0, 0, 1]).at 2 2, (cm 256 pf 0x0206 0 [5, 0, 255, 255, 1, 0, 0, 0, 1]).at 4 4, (((List.range ((cm 256 pf 0x0206 0 [5, 0, 255, 255, 1, 0, 0, 0, 1]).at 4 4)).map fun i => ((cm 256 pf 0x0206 0 [5, 0, 255, 255, 1, 0, 0, 0, 1]).at 2 2) + i).filter fun q => decide (tget 0 (sv b5 256 pf 0x0206 0 [5, 0, 255, 255, 1, 0, 0, 0, 1]).queueOwner q ≠ ((cm 256 pf 0x0206 0 [5, 0, 255, 255, 1, 0, 0, 0, 1]).at 0 2))), by decide, ⟨⟨by decide, by decide, by decide⟩, by decide, by decide⟩, rfl, rfl, rfl, by decide, by decide, by decide, by decide, by decide, by decide, by decide, by decide, rfl, by decide, rfl⟩,
   ⟨256, 6, sv { b5 with queueOwner := [(65535, 5)] } 256 pf 0x0206 0 [0, 0, 255, 255, 1, 0, 0, 0, 1], (sv { b5 with queueOwner := [(65535, 5)] } 256 pf 0x0206 0 [0, 0, 255, 255, 1, 0, 0, 0, 1]).started (cm 256 pf 0x0206 0 [0, 0, 255, 255, 1, 0, 0, 0, 1]) 0 [0], cm 256 pf 0x0206 0 [0, 0, 255, 255, 1, 0, 0, 0, 1], (cm 256 pf 0x0206 0 [0, 0, 255, 255, 1, 0, 0, 0, 1]).at 2 2, (cm 256 pf 0x0206 0 [0, 0, 255, 255, 1, 0, 0, 0, 1]).at 4 4, (((List.range ((cm 256 pf 0x0206 0 [0, 0, 255, 255, 1, 0, 0, 0, 1]).at 4 4)).map fun i => ((cm 256 pf 0x0206 0 [0, 0, 255, 255, 1, 0, 0, 0, 1]).at 2 2) + i).filter fun q => decide (tget 0 (sv { b5 with queueOwner := [(65535, 5)] } 256 pf 0x0206 0 [0, 0, 255, 255, 1, 0, 0, 0, 1]).queueOwner q ≠ 0)), (((sv { b5 with queueOwner := [(65535, 5)] } 256 pf 0x0206 0 [0, 0, 255, 255, 1, 0, 0, 0, 1]).queueOwner.filter fun x => decide (((cm 256 pf 0x0206 0 [0, 0, 255, 255, 1, 0, 0, 0, 1]).at 2 2) ≤ x.1) && decide (x.1 < ((cm 256 pf 0x0206 0 [0, 0, 255, 255, 1, 0, 0, 0, 1]).at 2 2) + ((cm 256 pf 0x0206 0 [0, 0, 255, 255, 1, 0, 0, 0, 1]).at 4 4)) && decide (x.2 ≠ 0)).map (·.2)).eraseDups, by decide, ⟨⟨by decide, by decide, by decide⟩, by decide, by decide⟩, by decide, rfl, rfl, by decide, by decide, by decide, by decide, by decide, rfl, by decide, rfl, rfl⟩,
   ⟨256, 6, sv base 256 pf 0x0207 0 ([0, 0, 0, 0] ++ leBytes 4 (2 ^ 31) ++ leBytes 4 0), (sv base 256 pf 0x0207 0 ([0, 0, 0, 0] ++ leBytes 4 (2 ^ 31) ++ leBytes 4 0)).started (cm 256 pf 0x0207 0 ([0, 0, 0, 0] ++ leBytes 4 (2 ^ 31) ++ leBytes 4 0)) 0 [((cm 256 pf 0x0207 0 ([0, 0, 0, 0] ++ leBytes 4 (2 ^ 31) ++ leBytes 4 0)).at 0 2)], cm 256 pf 0x0207 0 ([0, 0, 0, 0] ++ leBytes 4 (2 ^ 31) ++ leBytes 4 0), (cm 256 pf 0x0207 0 ([0, 0, 0, 0] ++ leBytes 4 (2 ^ 31) ++ leBytes 4 0)).at 0 2, barn0, { barn0 with quota1 := 2 ^ 31 }, by decide, ⟨⟨by decide, by decide, by decide⟩, by decide, by decide⟩, rfl, by decide, by decide, by decide, by decide, by decide, rfl, by decide, by decide⟩,
   ⟨256, 6, sv base 256 pf 0x0208 0 [0, 0], cm 256 pf 0x0208 0 [0, 0], (cm 256 pf 0x0208 0 [0, 0]).at 0 2, by decide, ⟨⟨by decide, by decide, by decide⟩, by decide, by decide⟩, rfl, by decide, by decide, by decide⟩,
   ⟨256, 6, sv base 256 pf 0x0209 1 [0, 0], cm 256 pf 0x0209 1 [0, 0], barn0, by decide, ⟨⟨by decide, by decide, by decide⟩, by decide, by decide⟩, by decide, by decide, by decide⟩,
   ⟨256, 6, sv base 256 pf 0x020A 1 [16], cm 256 pf 0x020A 1 [16], (if (cm 256 pf 0x020A 1 [16]).at 0 1 = 0 then (List.range 64).flatMap (fun i => (sv base 256 pf 0x020A 1 [16]).tagBlock 0 i) else (sv base 256 pf 0x020A 1 [16]).tagBlock ((cm 256 pf 0x020A 1 [16]).at 0 1) 0), by decide, ⟨⟨by decide, by decide, by decide⟩, by decide, by decide⟩, by decide, rfl, by decide⟩,
   ⟨256, 6, sv base 256 pf 0x020B 0 ([0, 63] ++ List.replicate 66 1), cm 256 pf 0x020B 0 ([0, 63] ++ List.replicate 66 1), tagWriteKey ((cm 256 pf 0x020B 0 ([0, 63] ++ List.replicate 66 1)).at 0 1) ((cm 256 pf 0x020B 0 ([0, 63] ++ List.replicate 66 1)).at 1 1), tget 0 (sv base 256 pf 0x020B 0 ([0, 63] ++ List.replicate 66 1)).nv.tagWrites (tagWriteKey ((cm 256 pf 0x020B 0 ([0, 63] ++ List.replicate 66 1)).at 0 1) ((cm 256 pf 0x020B 0 ([0, 63] ++ List.replicate 66 1)).at 1 1)), by decide, ⟨⟨by decide, by decide, by decide⟩, by decide, by decide⟩, by decide, by decide, by decide, rfl, rfl, by decide⟩⟩
theorem witness_programCommands :
    (∃ (b : BerthId) (k : Fin 7) (s : State) (c : Cmd), b.val < 256 ∧ s.asked b.val k.val 0x0301 36 c ∧ ((∀ g ∈ c.clusters 4, s.ownsCluster c.berth g = true)))
    ∧ (∃ (s : State) (pc c : Nat), s.coreUsable c = true ∧ (s.core c).power = .running ∧ (s.th c 0).st = .stopped)
    ∧ (∃ (s : State) (pc c : Nat), s.coreUsable c = true ∧ (s.core c).power ≠ .running)
    ∧ (∃ (b : BerthId) (k : Fin 7) (s : State) (c : Cmd) (g : Nat), b.val < 256 ∧ s.asked b.val k.val 0x0301 36 c ∧ g ∈ c.clusters 4 ∧ s.ownsCluster c.berth g = false)
    ∧ (∃ (b : BerthId) (k : Fin 7) (s : State) (c : Cmd) (n : Nat), b.val < 256 ∧ s.asked b.val k.val 0x0302 8 c ∧ n = c.at 0 4 % 16384 ∧ c.at 4 1 = 1 ∧ c.at 0 4 = coordOf s.selfNum n ∧ s.coreUsable n = true ∧ s.coreBarn n = some c.berth ∧ (s.th n 0).st = .faulted)
    ∧ (∃ (b : BerthId) (k : Fin 7) (s : State) (c : Cmd) (n : Nat), b.val < 256 ∧ s.asked b.val k.val 0x0302 8 c ∧ n = c.at 0 4 % 16384 ∧ c.at 4 1 = 2 ∧ c.at 0 4 = coordOf s.selfNum n ∧ s.coreUsable n = true ∧ s.coreBarn n = some c.berth ∧ (s.th n 0).st ≠ .stopped)
    ∧ (∃ (b : BerthId) (k : Fin 7) (s : State) (c : Cmd) (n : Nat), b.val < 256 ∧ s.asked b.val k.val 0x0302 8 c ∧ n = c.at 0 4 % 16384 ∧ ((c.at 4 1 = 1 ∨ c.at 4 1 = 2)) ∧ ((c.at 0 4 ≠ coordOf s.selfNum n ∨ s.coreUsable n = false ∨ s.coreBarn n ≠ some c.berth)))
    ∧ (∃ (b : BerthId) (k : Fin 7) (s : State) (c : Cmd), b.val < 256 ∧ s.askedLong b.val k.val 0x0303 12 c ∧ c.at 0 8 < 2 ^ 40 ∧ s.ownsLocal c.berth (c.at 0 8) (max 1 (min (c.at 8 4) (2 ^ 30))) = true ∧ c.bufLen = 0 ∧ s.parseImage (c.at 0 8) (c.at 8 4) = none)
    ∧ (∃ (b : BerthId) (k : Fin 7) (s s1 s2 : State) (c : Cmd) (secs : List Section) (recs : List Nat) (n : Nat), b.val < 256 ∧ s.asked b.val k.val 0x0303 12 c ∧ c.at 0 8 < 2 ^ 40 ∧ s.ownsLocal c.berth (c.at 0 8) (max 1 (min (c.at 8 4) (2 ^ 30))) = true ∧ c.bufLen = 0 ∧ s.parseImage (c.at 0 8) (c.at 8 4) = some secs ∧ ((∀ q ∈ secs, s.coreBarn q.core = some c.berth)) ∧ (recs, s1) = s.phaseWrite (c.at 0 8) secs ∧ s.newOp c recs.length recs = .inr (n, s2))
    ∧ (∃ (s : State) (l : Nat) (q : Section), q.store = 1 ∧ (s.core q.core).rangeBusy q = false)
    ∧ (∃ (op : Nat) (s : State) (o : Op), s.op op = some o ∧ o.opcode = 0x0303 ∧ o.fin = none ∧ o.work = [] ∧ o.statusAddr = 0 ∧ o.bufLen = 0)
    ∧ (∃ (op : Nat) (s : State) (o : Op) (x : Nat), s.op op = some o ∧ o.opcode = 0x0303 ∧ o.fin = none ∧ o.work = [x] ∧ o.statusAddr = 0 ∧ (s.recResult x).1 ≠ 0)
    ∧ (∃ (op : Nat) (s : State) (o : Op) (x : Nat), s.op op = some o ∧ o.opcode = 0x0303 ∧ o.fin = none ∧ o.work = [x] ∧ o.statusAddr = 0 ∧ (s.recResult x).1 = 0 ∧ s.helmCheck o.barn [x] x = 0)
    ∧ (∃ (b : BerthId) (k : Fin 7) (s : State) (c : Cmd) (raw : List Nat), b.val < 256 ∧ s.asked b.val k.val 0x0304 16 c ∧ 1 ≤ c.at 2 2 ∧ c.at 2 2 ≤ 192 ∧ s.ownsLocal c.berth (c.at 8 8) (4 * c.at 2 2) = true ∧ raw = wordsOf (s.localRead (c.at 8 8) (4 * c.at 2 2)) ∧ s.pathRefusal c.berth (c.at 0 1) raw = none)
    ∧ (∃ (b : BerthId) (k : Fin 7) (s : State) (c : Cmd) (d : Nat), b.val < 256 ∧ s.asked b.val k.val 0x0304 16 c ∧ 1 ≤ c.at 2 2 ∧ c.at 2 2 ≤ 192 ∧ s.ownsLocal c.berth (c.at 8 8) (4 * c.at 2 2) = true ∧ s.pathRefusal c.berth (c.at 0 1) (wordsOf (s.localRead (c.at 8 8) (4 * c.at 2 2))) = some d)
    ∧ (∃ (b : BerthId) (k : Fin 7) (s : State) (c : Cmd) (p : PathSet), b.val < 256 ∧ s.asked b.val k.val 0x0305 1 c ∧ tget none s.pathSets (c.at 0 1) = some p ∧ p.barn = c.berth ∧ (s.steer c.berth).holds (c.at 0 1) = false)
    ∧ (∃ (b : BerthId) (k : Fin 7) (s : State) (c : Cmd) (p : PathSet), b.val < 256 ∧ s.asked b.val k.val 0x0305 1 c ∧ tget none s.pathSets (c.at 0 1) = some p ∧ ((p.barn ≠ c.berth ∨ (s.steer c.berth).holds (c.at 0 1) = true))) :=
  ⟨⟨0, 6, sv (th (run [])) 0 pf 0x0301 0 ([0x40, 0, 0, 0] ++ cl 0), cm 0 pf 0x0301 0 ([0x40, 0, 0, 0] ++ cl 0), by decide, ⟨by decide, by decide, by decide⟩, by decide⟩,
   ⟨t0 .stopped, 0x40, 5, by decide, by decide, by decide⟩,
   ⟨{ base with cores := [(5, { Core.init with power := .zeroing })] }, 0x40, 5, by decide, by decide⟩,
   ⟨0, 6, sv { b5 with clusterOwner := [(255, 5)] } 0 pf 0x0301 0 ([0x40, 0, 0, 0] ++ cl 255), cm 0 pf 0x0301 0 ([0x40, 0, 0, 0] ++ cl 255), 255, by decide, ⟨by decide, by decide, by decide⟩, by decide, by decide⟩,
   ⟨0, 6, sv (t0 .faulted) 0 pf 0x0302 0 (leBytes 4 (coordOf 64 5) ++ [1, 0, 0x40, 0]), cm 0 pf 0x0302 0 (leBytes 4 (coordOf 64 5) ++ [1, 0, 0x40, 0]), (cm 0 pf 0x0302 0 (leBytes 4 (coordOf 64 5) ++ [1, 0, 0x40, 0])).at 0 4 % 16384, by decide, ⟨by decide, by decide, by decide⟩, rfl, by decide, by decide, by decide, by decide, by decide⟩,
   ⟨0, 6, sv (t0 .faulted) 0 pf 0x0302 0 (leBytes 4 (coordOf 64 5) ++ [2, 0, 0x40, 0]), cm 0 pf 0x0302 0 (leBytes 4 (coordOf 64 5) ++ [2, 0, 0x40, 0]), (cm 0 pf 0x0302 0 (leBytes 4 (coordOf 64 5) ++ [2, 0, 0x40, 0])).at 0 4 % 16384, by decide, ⟨by decide, by decide, by decide⟩, rfl, by decide, by decide, by decide, by decide, by decide⟩,
   ⟨0, 6, sv (t0 .faulted) 0 pf 0x0302 0 (leBytes 4 (coordOf 70 5) ++ [2, 0, 0x40, 0]), cm 0 pf 0x0302 0 (leBytes 4 (coordOf 70 5) ++ [2, 0, 0x40, 0]), (cm 0 pf 0x0302 0 (leBytes 4 (coordOf 70 5) ++ [2, 0, 0x40, 0])).at 0 4 % 16384, by decide, ⟨by decide, by decide, by decide⟩, rfl, by decide, by decide⟩,
   ⟨0, 6, sb hb 0 pf 0x0303 0 0 (leBytes 8 0 ++ leBytes 4 64), cb 0 pf 0x0303 0 0 (leBytes 8 0 ++ leBytes 4 64), by decide, ⟨⟨by decide, by decide, by decide⟩, by decide, by decide⟩, by decide, by decide, by decide, by decide⟩,
   ⟨0, 6, sb hi 0 pf 0x0303 0 0 (leBytes 8 0 ++ leBytes 4 96), ((sb hi 0 pf 0x0303 0 0 (leBytes 8 0 ++ leBytes 4 96)).phaseWrite ((cb 0 pf 0x0303 0 0 (leBytes 8 0 ++ leBytes 4 96)).at 0 8) (sec1)).2, nop (sb hi 0 pf 0x0303 0 0 (leBytes 8 0 ++ leBytes 4 96)) (cb 0 pf 0x0303 0 0 (leBytes 8 0 ++ leBytes 4 96)) (State.phaseWrite (sb hi 0 pf 0x0303 0 0 (leBytes 8 0 ++ leBytes 4 96)) 0 sec1).1.length (State.phaseWrite (sb hi 0 pf 0x0303 0 0 (leBytes 8 0 ++ leBytes 4 96)) 0 sec1).1, cb 0 pf 0x0303 0 0 (leBytes 8 0 ++ leBytes 4 96), sec1, ((sb hi 0 pf 0x0303 0 0 (leBytes 8 0 ++ leBytes 4 96)).phaseWrite ((cb 0 pf 0x0303 0 0 (leBytes 8 0 ++ leBytes 4 96)).at 0 8) (sec1)).1, 1, by decide, ⟨by decide, by decide, by decide⟩, by decide, by decide, by decide, by decide, by decide, rfl, by decide⟩,
   ⟨base, 96, ⟨5, 1, 1023, 1, 80⟩, by decide, by decide⟩,
   ⟨7, { base with ops := [opx 7 0x0303 1 []] }, opx 7 0x0303 1 [], by decide, by decide, by decide, by decide, by decide, by decide⟩,
   ⟨7, { base with ops := [{ opx 7 0x0303 1 [] with work := [0x10 * 2 ^ 20] }] }, { opx 7 0x0303 1 [] with work := [0x10 * 2 ^ 20] }, 0x10 * 2 ^ 20, by decide, by decide, by decide, by decide, by decide, by decide⟩,
   ⟨7, { pk { co (run []) with locked := [3] } with ops := [op12] }, op12, x12, by decide, by decide, by decide, by decide, by decide, by decide, by decide⟩,
   ⟨0, 6, sv { hb with hbm := memWrite [] 0x80 (leBytes 4 (3 + 35 * 512)) } 0 pf 0x0304 0 ([255, 0, 1, 0, 0, 0, 0, 0] ++ leBytes 8 0x80), cm 0 pf 0x0304 0 ([255, 0, 1, 0, 0, 0, 0, 0] ++ leBytes 8 0x80), wordsOf ((sv { hb with hbm := memWrite [] 0x80 (leBytes 4 (3 + 35 * 512)) } 0 pf 0x0304 0 ([255, 0, 1, 0, 0, 0, 0, 0] ++ leBytes 8 0x80)).localRead ((cm 0 pf 0x0304 0 ([255, 0, 1, 0, 0, 0, 0, 0] ++ leBytes 8 0x80)).at 8 8) (4 * (cm 0 pf 0x0304 0 ([255, 0, 1, 0, 0, 0, 0, 0] ++ leBytes 8 0x80)).at 2 2)), by decide, ⟨by decide, by decide, by decide⟩, by decide, by decide, by decide, rfl, by decide⟩,
   ⟨0, 6, sv hb 0 pf 0x0304 0 ([255, 0, 1, 0, 0, 0, 0, 0] ++ leBytes 8 0x80), cm 0 pf 0x0304 0 ([255, 0, 1, 0, 0, 0, 0, 0] ++ leBytes 8 0x80), 1, by decide, ⟨by decide, by decide, by decide⟩, by decide, by decide, by decide, by decide⟩,
   ⟨0, 6, sv { base with pathSets := [(255, some ⟨0, []⟩)] } 0 pf 0x0305 0 [255], cm 0 pf 0x0305 0 [255], ⟨0, []⟩, by decide, ⟨by decide, by decide, by decide⟩, by decide, by decide, by decide⟩,
   ⟨0, 6, sv { base with pathSets := [(255, some ⟨5, []⟩)] } 0 pf 0x0305 0 [255], cm 0 pf 0x0305 0 [255], ⟨5, []⟩, by decide, ⟨by decide, by decide, by decide⟩, by decide, by decide⟩⟩
theorem witness_fabricCommands :
    (∃ (b : BerthId) (k : Fin 7) (s : State) (c : Cmd) (rs : List (List Byte)), b.val = 257 ∧ s.asked b.val k.val 0x0401 40 c ∧ c.length % 40 = 0 ∧ rs = ((List.range (c.length / 40)).map fun i => (c.payload.drop (40 * i)).take 40) ∧ ((∀ r ∈ rs, leVal (r.take 2) < 32768)))
    ∧ (∃ (s : State) (r : List Byte), ((∀ i, i < 4 → s.courseBad (leVal ((r.drop (8 + 8 * i)).take 8)) = false)))
    ∧ (∃ (s : State) (r : List Byte) (i : Nat), i < 4 ∧ s.courseBad (leVal ((r.drop (8 + 8 * i)).take 8)) = true)
    ∧ (∃ (b : BerthId) (k : Fin 7) (host : List Byte) (s : State) (c : Cmd), (b.val = 256 ∨ b.val = 257) ∧ s.asked b.val k.val 0x0402 0 c ∧ s.bufOk c 640 = true ∧ (Plan.mk (s.bufIn c 640 host)).refusal s.variant = none ∧ s.planLate (Plan.mk (s.bufIn c 640 host)) = none)
    ∧ (∃ (s : State) (p : Plan), p.bytes.length = 640)
    ∧ (∃ (b : BerthId) (k : Fin 7) (host : List Byte) (s : State) (c : Cmd) (d : Nat), (b.val = 256 ∨ b.val = 257) ∧ s.asked b.val k.val 0x0402 0 c ∧ s.bufOk c 640 = true ∧ (Plan.mk (s.bufIn c 640 host)).refusal s.variant = some d)
    ∧ (∃ (b : BerthId) (k : Fin 7) (host : List Byte) (s : State) (c : Cmd) (r : Rep), (b.val = 256 ∨ b.val = 257) ∧ s.asked b.val k.val 0x0402 0 c ∧ s.bufOk c 640 = true ∧ (Plan.mk (s.bufIn c 640 host)).refusal s.variant = none ∧ s.planLate (Plan.mk (s.bufIn c 640 host)) = some r)
    ∧ (∃ (b : BerthId) (k : Fin 7) (s s1 : State) (c : Cmd), (b.val = 256 ∨ b.val = 257) ∧ s.askedLong b.val k.val 0x0403 1 c ∧ portFitted s.variant (c.at 0 1) = true ∧ (s.port (c.at 0 1)).st = .up ∧ s1 = s.started c 0 [c.at 0 1])
    ∧ (∃ (b : BerthId) (k : Fin 7) (s : State) (c : Cmd), (b.val = 256 ∨ b.val = 257) ∧ s.askedLong b.val k.val 0x0403 1 c ∧ portFitted s.variant (c.at 0 1) = true ∧ (s.port (c.at 0 1)).st ∈ [.dark, .probe])
    ∧ (∃ (b : BerthId) (k : Fin 7) (s : State) (c : Cmd), (b.val = 256 ∨ b.val = 257) ∧ s.askedLong b.val k.val 0x0403 1 c ∧ portFitted s.variant (c.at 0 1) = true ∧ (s.port (c.at 0 1)).st ∈ [.lock, .deskew, .eye, .ident, .keying, .disagree])
    ∧ (∃ (b : BerthId) (k : Fin 7) (s : State) (c : Cmd), (b.val = 256 ∨ b.val = 257) ∧ s.asked b.val k.val 0x0403 1 c ∧ portFitted s.variant (c.at 0 1) = true ∧ (s.port (c.at 0 1)).st ∈ [.width, .maint, .lost])
    ∧ (∃ (b : BerthId) (k : Fin 7) (s : State) (c : Cmd), (b.val = 256 ∨ b.val = 257) ∧ s.askedLong b.val k.val 0x0404 0 c ∧ s.bufOk c 1184 = true)
    ∧ (∃ (b : BerthId) (k : Fin 7) (s : State) (c : Cmd), b.val = 257 ∧ s.askedLong b.val k.val 0x0405 2 c ∧ c.at 0 2 < 32768 ∧ s.bufOk c 4672 = true)
    ∧ (∃ (b : BerthId) (k : Fin 7) (s : State) (c : Cmd) (raw : List Nat), b.val = 257 ∧ s.asked b.val k.val 0x0406 128 c ∧ raw = ((List.range 16).map fun n => c.at (8 * n) 8) ∧ ((∀ x ∈ raw, bitsAt x 40 24 = 0)) ∧ s.pairRefusal raw = none ∧ ((∀ n, n < 16 → (pairDesc (raw.getD n 0)).valid = true → raw.getD n 0 ≠ tget 0 s.pairTable n → ∀ g ∈ s.pairClusters (pairDesc (raw.getD n 0)), s.clusterIdle g = true)))
    ∧ (∃ (s : State) (raw : List Nat) (n : Nat), n < 16)
    ∧ (∃ (b : BerthId) (k : Fin 7) (s : State) (c : Cmd) (raw : List Nat) (d : Nat), b.val = 257 ∧ s.asked b.val k.val 0x0406 128 c ∧ raw = ((List.range 16).map fun n => c.at (8 * n) 8) ∧ ((∀ x ∈ raw, bitsAt x 40 24 = 0)) ∧ s.pairRefusal raw = some d)
    ∧ (∃ (b : BerthId) (k : Fin 7) (s : State) (c : Cmd), at257Barn b.val = true ∧ s.asked b.val k.val 0x0407 1 c ∧ c.at 0 1 ≤ 15 ∧ ((c.berth = 257 ∨ (pairDesc (tget 0 s.pairTable (c.at 0 1))).barn = c.berth)))
    ∧ (∃ (b : BerthId) (k : Fin 7) (s : State) (c : Cmd), at257Barn b.val = true ∧ s.asked b.val k.val 0x0407 1 c ∧ c.at 0 1 ≤ 15 ∧ c.berth ≠ 257 ∧ (pairDesc (tget 0 s.pairTable (c.at 0 1))).barn ≠ c.berth)
    ∧ (∃ (b : BerthId) (k : Fin 7) (s : State) (c : Cmd), b.val = 257 ∧ s.asked b.val k.val 0x0408 1 c ∧ c.at 0 1 ≠ s.selfSlot ∧ c.at 0 1 < s.planSlots)
    ∧ (∃ (b : BerthId) (k : Fin 7) (s : State) (c : Cmd), b.val = 257 ∧ s.asked b.val k.val 0x0408 1 c ∧ ((c.at 0 1 = s.selfSlot ∨ s.planSlots ≤ c.at 0 1)))
    ∧ (∃ (b : BerthId) (k : Fin 7) (s : State) (c : Cmd), b.val = 256 ∧ s.asked b.val k.val 0x0409 32 c ∧ ((∀ i, i < 12 → s.leastSlice i ≤ c.at (2 * i) 2)) ∧ ((List.range 12).map fun i => c.at (2 * i) 2).foldl (· + ·) 0 ≤ 8192 ∧ c.at 24 4 ≤ 16384 ∧ c.at 28 4 ≤ 16384)
    ∧ (∃ (b : BerthId) (k : Fin 7) (s : State) (c : Cmd) (i : Nat), b.val = 256 ∧ s.asked b.val k.val 0x0409 32 c ∧ i < 12 ∧ c.at (2 * i) 2 < s.leastSlice i) :=
  ⟨⟨257, 6, sv { base with plan := [(632, 2)] } 257 pf 0x0401 0 ([0xFF, 0x7F, 0, 0, 0, 0, 0, 0] ++ (List.replicate 4 (leBytes 8 (2 ^ 45 + 71 * 8 + 1))).flatten), cm 257 pf 0x0401 0 ([0xFF, 0x7F, 0, 0, 0, 0, 0, 0] ++ (List.replicate 4 (leBytes 8 (2 ^ 45 + 71 * 8 + 1))).flatten), ((List.range ((cm 257 pf 0x0401 0 ([0xFF, 0x7F, 0, 0, 0, 0, 0, 0] ++ (List.replicate 4 (leBytes 8 (2 ^ 45 + 71 * 8 + 1))).flatten)).length / 40)).map fun i => ((cm 257 pf 0x0401 0 ([0xFF, 0x7F, 0, 0, 0, 0, 0, 0] ++ (List.replicate 4 (leBytes 8 (2 ^ 45 + 71 * 8 + 1))).flatten)).payload.drop (40 * i)).take 40), by decide, ⟨by decide, by decide, by decide⟩, by decide, rfl, by decide⟩,
   ⟨{ base with plan := [(632, 2)] }, ([0xFF, 0x7F, 0, 0, 0, 0, 0, 0] ++ (List.replicate 4 (leBytes 8 (2 ^ 45 + 71 * 8 + 1))).flatten), by decide⟩,
   ⟨base, List.replicate 40 0, 3, by decide, by decide⟩,
   ⟨257, 6, pl0, sv { base with ready := false } 257 pf 0x0402 1 [], cm 257 pf 0x0402 1 [], by decide, ⟨by decide, by decide, by decide⟩, by decide, by decide, by decide⟩,
   ⟨base, ⟨List.replicate 640 0⟩, by decide⟩,
   ⟨257, 6, [], sv base 257 pf 0x0402 1 [], cm 257 pf 0x0402 1 [], 1, by decide, ⟨by decide, by decide, by decide⟩, by decide, by decide⟩,
   ⟨257, 6, pl0, sv base 257 pf 0x0402 1 [], cm 257 pf 0x0402 1 [], Rep.reason 0x0402 9, by decide, ⟨by decide, by decide, by decide⟩, by decide, by decide, rfl⟩,
   ⟨257, 6, sv (pt up) 257 pf 0x0403 0 [71], (sv (pt up) 257 pf 0x0403 0 [71]).started (cm 257 pf 0x0403 0 [71]) 0 [(cm 257 pf 0x0403 0 [71]).at 0 1], cm 257 pf 0x0403 0 [71], by decide, ⟨⟨by decide, by decide, by decide⟩, by decide, by decide⟩, by decide, by decide, rfl⟩,
   ⟨257, 6, sv base 257 pf 0x0403 0 [71], cm 257 pf 0x0403 0 [71], by decide, ⟨⟨by decide, by decide, by decide⟩, by decide, by decide⟩, by decide, by decide⟩,
   ⟨257, 6, sv (pt { up with st := .disagree }) 257 pf 0x0403 0 [71], cm 257 pf 0x0403 0 [71], by decide, ⟨⟨by decide, by decide, by decide⟩, by decide, by decide⟩, by decide, by decide⟩,
   ⟨257, 6, sv (pt { up with st := .lost }) 257 pf 0x0403 0 [71], cm 257 pf 0x0403 0 [71], by decide, ⟨by decide, by decide, by decide⟩, by decide, by decide⟩,
   ⟨257, 6, sv base 257 pf 0x0404 1 [], cm 257 pf 0x0404 1 [], by decide, ⟨⟨by decide, by decide, by decide⟩, by decide, by decide⟩, by decide⟩,
   ⟨257, 6, sv base 257 pf 0x0405 1 [0xFF, 0x7F], cm 257 pf 0x0405 1 [0xFF, 0x7F], by decide, ⟨⟨by decide, by decide, by decide⟩, by decide, by decide⟩, by decide, by decide⟩,
   ⟨257, 6, sv base 257 pf 0x0406 0 (List.replicate 128 0), cm 257 pf 0x0406 0 (List.replicate 128 0), ((List.range 16).map fun n => (cm 257 pf 0x0406 0 (List.replicate 128 0)).at (8 * n) 8), by decide, ⟨by decide, by decide, by decide⟩, rfl, by decide, by decide, by decide⟩,
   ⟨base, [], 15, by decide⟩,
   ⟨257, 6, sv base 257 pf 0x0406 0 ([1] ++ List.replicate 127 0), cm 257 pf 0x0406 0 ([1] ++ List.replicate 127 0), ((List.range 16).map fun n => (cm 257 pf 0x0406 0 ([1] ++ List.replicate 127 0)).at (8 * n) 8), 1, by decide, ⟨by decide, by decide, by decide⟩, rfl, by decide, by decide⟩,
   ⟨257, 6, sv base 257 pf 0x0407 0 [15], cm 257 pf 0x0407 0 [15], by decide, ⟨by decide, by decide, by decide⟩, by decide, by decide⟩,
   ⟨5, 6, sv b5 5 pf 0x0407 0 [15], cm 5 pf 0x0407 0 [15], by decide, ⟨by decide, by decide, by decide⟩, by decide, by decide, by decide⟩,
   ⟨257, 6, sv { base with plan := [(10, 64)] } 257 pf 0x0408 0 [63], cm 257 pf 0x0408 0 [63], by decide, ⟨by decide, by decide, by decide⟩, by decide, by decide⟩,
   ⟨257, 6, sv { base with plan := [(10, 64)] } 257 pf 0x0408 0 [0], cm 257 pf 0x0408 0 [0], by decide, ⟨by decide, by decide, by decide⟩, by decide⟩,
   ⟨256, 6, sv base 256 pf 0x0409 0 ((List.replicate 3 [2, 0]).flatten ++ (List.replicate 9 [5, 0]).flatten ++ leBytes 4 16384 ++ leBytes 4 0), cm 256 pf 0x0409 0 ((List.replicate 3 [2, 0]).flatten ++ (List.replicate 9 [5, 0]).flatten ++ leBytes 4 16384 ++ leBytes 4 0), by decide, ⟨by decide, by decide, by decide⟩, by decide, by decide, by decide, by decide⟩,
   ⟨256, 6, sv base 256 pf 0x0409 0 (List.replicate 32 0), cm 256 pf 0x0409 0 (List.replicate 32 0), 11, by decide, ⟨by decide, by decide, by decide⟩, by decide, by decide⟩⟩
theorem witness_plantCommands :
    (∃ (b : BerthId) (k : Fin 7) (trims : List (BitVec 32 × Byte)) (s : State) (c : Cmd) (m : Nat), b.val = 256 ∧ s.askedLong b.val k.val 0x0501 1 c ∧ m = c.at 0 1 ∧ m < 12 ∧ s.stageDone 5 = true ∧ (s.module m).available = true ∧ ((List.range 12).filter fun n => decide (n ≠ m) && !(s.module n).available).length < 2)
    ∧ (∃ (b : BerthId) (k : Fin 7) (trims : List (BitVec 32 × Byte)) (s : State) (c : Cmd) (m : Nat), b.val = 256 ∧ s.asked b.val k.val 0x0501 1 c ∧ m = c.at 0 1 ∧ m < 12 ∧ s.stageDone 5 = true ∧ (s.module m).available = true ∧ 2 ≤ ((List.range 12).filter fun n => decide (n ≠ m) && !(s.module n).available).length)
    ∧ (∃ (b : BerthId) (k : Fin 7) (v : BitVec 128) (trims : List (BitVec 32 × Byte)) (s : State) (c : Cmd) (m : Nat), b.val = 256 ∧ s.askedLong b.val k.val 0x0502 1 c ∧ m = c.at 0 1 ∧ m < 12 ∧ s.stageDone 5 = true ∧ (s.module m).retired ≠ some v.toNat)
    ∧ (∃ (b : BerthId) (k : Fin 7) (v : Option (BitVec 128)) (closed : Bool) (trims : List (BitVec 32 × Byte)) (s : State) (c : Cmd) (r : Nat), b.val = 256 ∧ s.asked b.val k.val 0x0502 1 c ∧ c.at 0 1 < 12 ∧ s.stageDone 5 = true ∧ (((v = none ∧ r = 1) ∨ (∃ w, v = some w ∧ (s.module (c.at 0 1)).retired = some w.toNat ∧ r = 2) ∨ (∃ w, v = some w ∧ (s.module (c.at 0 1)).retired ≠ some w.toNat ∧ closed = false ∧ r = 3))))
    ∧ (∃ (b : BerthId) (k : Fin 7) (s s1 : State) (c : Cmd) (n z : Nat), b.val = 256 ∧ s.asked b.val k.val 0x0503 4 c ∧ c.at 0 1 = 1 ∧ c.at 1 1 ≤ 1 ∧ z = c.at 2 2 ∧ z < 64 ∧ s.stageDone 5 = true ∧ s.newOp c 0 [] = .inr (n, s1))
    ∧ (∃ (b : BerthId) (k : Fin 7) (s s1 : State) (c : Cmd) (n l : Nat), b.val = 256 ∧ s.asked b.val k.val 0x0503 4 c ∧ ((c.at 0 1 = 2 ∨ c.at 0 1 = 3)) ∧ c.at 1 1 ≤ 1 ∧ l = c.at 2 2 ∧ l < 584 ∧ s.stageDone (if l < 512 then 8 else 9) = true ∧ s.newOp c 0 [] = .inr (n, s1))
    ∧ (∃ (b : BerthId) (k : Fin 7) (s s1 : State) (c : Cmd) (n d : Nat) (cores : List Nat), b.val = 256 ∧ s.asked b.val k.val 0x0503 4 c ∧ c.at 0 1 = 4 ∧ c.at 1 1 ≤ 1 ∧ d = c.at 2 2 ∧ d < 16 ∧ 132 ≤ c.length ∧ s.stageDone 6 = true ∧ cores = (((bitsSet 1024 (c.at 4 128)).map fun i => 1024 * d + i).filter s.coreUsable) ∧ s.newOp c cores.length cores = .inr (n, s1))
    ∧ (∃ (b : BerthId) (k : Fin 7) (s s1 : State) (c : Cmd), b.val = 256 ∧ s.askedLong b.val k.val 0x0504 1 c ∧ c.at 0 1 ≤ 1 ∧ s.stageDone 5 = true ∧ s.capture = none ∧ ((c.at 0 1 = 0 → s.bufOk c 470880 = true)) ∧ s1 = s.started c 0 [])
    ∧ (∃ (b : BerthId) (k : Fin 7) (image : List Byte) (s s1 : State) (c : Cmd) (i : CalImage), b.val = 256 ∧ s.askedLong b.val k.val 0x0505 1 c ∧ c.at 0 1 ≤ 1 ∧ (((s.bu.stage = 4 ∧ s.bu.st = .done) ∨ (s.bu.stage = 5 ∧ s.bu.st = .running ∧ s.calWaits = true))) ∧ ((c.at 0 1 = 0 → s.bufOk c 240 = true)) ∧ s1 = s.started c 0 [] ∧ i = (if c.at 0 1 = 0 then s.calParse (s.bufIn c c.bufLen image) else s.nv.calPick.getD ⟨0, [], [], 1⟩))
    ∧ (∃ (b : BerthId) (k : Fin 7) (s s1 : State) (c : Cmd) (cores : List Nat), (b.val = 256 ∨ b.val = 257) ∧ s.askedLong b.val k.val 0x0601 0 c ∧ s.ready = true ∧ s.standby = none ∧ ((∀ n ∈ tkeys s.barns, n = 0)) ∧ ((∀ x ∈ s.cores, x.2.activeThreads = 0)) ∧ cores = (List.range 16384).filter s.coreUsable ∧ s1 = s.started c 0 cores)
    ∧ (∃ (op : Nat) (s : State), s.standby = some op)
    ∧ (∃ (b : BerthId) (k : Fin 7) (s : State) (c : Cmd), (b.val = 256 ∨ b.val = 257 ∨ b.val < 256) ∧ s.asked b.val k.val 0x0602 0 c ∧ s.stageDone 6 = true ∧ s.bufOk c 6208 = true)
    ∧ (∃ (b : BerthId) (k : Fin 7) (s : State) (c : Cmd) (l : List (Nat × List Byte)), (b.val = 256 ∨ b.val = 258) ∧ s.asked b.val k.val 0x0610 8 c ∧ c.at 0 1 ≤ 1 ∧ c.akind = 0 ∧ l = ((if c.at 0 1 = 0 then s.gleaner.ring else s.gleaner.latched).map fun r => (r.seq, r.bytes)))
    ∧ (∃ (b : BerthId) (k : Fin 7) (s : State) (c : Cmd) (l : List (Nat × List Byte)), (b.val = 256 ∨ b.val = 258) ∧ s.asked b.val k.val 0x0610 8 c ∧ c.at 0 1 ≤ 1 ∧ c.akind ≠ 0 ∧ s.bufOk c 32 = true ∧ l = ((if c.at 0 1 = 0 then s.gleaner.ring else s.gleaner.latched).map fun r => (r.seq, r.bytes)))
    ∧ (∃ (b : BerthId) (k : Fin 7) (s : State) (c : Cmd), (b.val = 256 ∨ b.val = 258) ∧ s.asked b.val k.val 0x0611 1 c)
    ∧ (∃ (b : BerthId) (k : Fin 7) (s : State) (c : Cmd), b.val = 256 ∧ s.asked b.val k.val 0x0612 8 c ∧ (kindRow (c.at 0 2)).isSome = true ∧ c.at 4 4 ≠ 0)
    ∧ (∃ (b : BerthId) (k : Fin 7) (s : State) (c : Cmd) (r : Nat), b.val = 256 ∧ s.asked b.val k.val 0x0612 8 c ∧ (((kindRow (c.at 0 2) = none ∧ r = 1) ∨ (kindRow (c.at 0 2) ≠ none ∧ c.at 4 4 = 0 ∧ r = 2))))
    ∧ (∃ (b : BerthId) (k : Fin 7) (s : State) (c : Cmd) (x : KindCfg), (b.val = 256 ∨ b.val = 258) ∧ s.asked b.val k.val 0x0613 2 c ∧ (kindRow (c.at 0 2)).isSome = true ∧ x = s.gleaner.cfg (c.at 0 2))
    ∧ (∃ (b : BerthId) (k : Fin 7) (s : State) (c : Cmd), (b.val = 256 ∨ b.val = 258) ∧ s.asked b.val k.val 0x0614 1 c ∧ c.at 0 1 = 0)
    ∧ (∃ (b : BerthId) (k : Fin 7) (s : State) (c : Cmd), (b.val = 256 ∨ b.val = 258) ∧ s.asked b.val k.val 0x0614 1 c ∧ c.at 0 1 = 1)
    ∧ (∃ (b : BerthId) (k : Fin 7) (s : State) (c : Cmd), b.val = 271 ∧ s.asked b.val k.val 0x7F10 16 c ∧ s.factoryMode = true ∧ (kindRow (c.at 0 2)).isSome = true)
    ∧ (∃ (b : BerthId) (k : Fin 7) (s : State) (c : Cmd), b.val = 271 ∧ s.asked b.val k.val 0x7F10 16 c ∧ s.factoryMode = false)
    ∧ (∃ (b : BerthId) (k : Fin 7) (s : State) (c : Cmd), b.val = 256 ∧ s.asked b.val k.val 0x0701 4 c ∧ c.at 0 1 ≤ 2 ∧ 1 ≤ c.at 2 2 ∧ c.at 2 2 ≤ 100 ∧ ((c.at 0 1 = 1 → s.clock.ppsEn = true)) ∧ ((c.at 0 1 = 2 → c.at 1 1 < 72 ∧ (s.planRole (c.at 1 1) = 1 ∨ s.planRole (c.at 1 1) = 2))))
    ∧ (∃ (b : BerthId) (k : Fin 7) (s : State) (c : Cmd), b.val = 256 ∧ s.asked b.val k.val 0x0701 4 c ∧ c.at 0 1 ≤ 1 ∧ ((c.at 2 2 = 0 ∨ 100 < c.at 2 2)))
    ∧ (∃ (b : BerthId) (k : Fin 7) (s : State) (c : Cmd), b.val = 256 ∧ s.asked b.val k.val 0x0702 4 c ∧ 60 ≤ c.at 0 4 ∧ 86400 % c.at 0 4 = 0)
    ∧ (∃ (b : BerthId) (k : Fin 7) (s : State) (c : Cmd), b.val = 256 ∧ s.asked b.val k.val 0x0702 4 c ∧ ((c.at 0 4 < 60 ∨ 86400 % c.at 0 4 ≠ 0)))
    ∧ (∃ (b : BerthId) (k : Fin 7) (s : State) (c : Cmd) (l : List (Nat × List Byte)), at256Barn b.val = true ∧ s.asked b.val k.val 0x0703 8 c ∧ c.at 0 2 ≤ 256 ∧ ((c.berth = 256 ∨ c.at 0 2 = c.berth)) ∧ s.bufOk c 96 = true ∧ l = ((s.meter (c.at 0 2)).ring.map fun r => (leVal ((r.drop 4).take 4), r))) :=
  ⟨⟨256, 6, [], sv mods 256 pf 0x0501 0 [11], cm 256 pf 0x0501 0 [11], (cm 256 pf 0x0501 0 [11]).at 0 1, by decide, ⟨⟨by decide, by decide, by decide⟩, by decide, by decide⟩, rfl, by decide, by decide, by decide, by decide⟩,
   ⟨256, 6, [], sv { base with modules := [(11, mo)] } 256 pf 0x0501 0 [11], cm 256 pf 0x0501 0 [11], (cm 256 pf 0x0501 0 [11]).at 0 1, by decide, ⟨by decide, by decide, by decide⟩, rfl, by decide, by decide, by decide, by decide⟩,
   ⟨256, 6, 9, [], sv base 256 pf 0x0502 0 [11], cm 256 pf 0x0502 0 [11], (cm 256 pf 0x0502 0 [11]).at 0 1, by decide, ⟨⟨by decide, by decide, by decide⟩, by decide, by decide⟩, rfl, by decide, by decide, by decide⟩,
   ⟨256, 6, none, true, [], sv base 256 pf 0x0502 0 [11], cm 256 pf 0x0502 0 [11], 1, by decide, ⟨by decide, by decide, by decide⟩, by decide, by decide, .inl ⟨rfl, rfl⟩⟩,
   ⟨256, 6, sv base 256 pf 0x0503 0 [1, 1, 63, 0], nop (sv base 256 pf 0x0503 0 [1, 1, 63, 0]) (cm 256 pf 0x0503 0 [1, 1, 63, 0]) 0 [], cm 256 pf 0x0503 0 [1, 1, 63, 0], 1, (cm 256 pf 0x0503 0 [1, 1, 63, 0]).at 2 2, by decide, ⟨by decide, by decide, by decide⟩, by decide, by decide, rfl, by decide, by decide, rfl⟩,
   ⟨256, 6, sv base 256 pf 0x0503 0 [2, 1, 3, 0], nop (sv base 256 pf 0x0503 0 [2, 1, 3, 0]) (cm 256 pf 0x0503 0 [2, 1, 3, 0]) 0 [], cm 256 pf 0x0503 0 [2, 1, 3, 0], 1, (cm 256 pf 0x0503 0 [2, 1, 3, 0]).at 2 2, by decide, ⟨by decide, by decide, by decide⟩, by decide, by decide, rfl, by decide, rfl, by decide⟩,
   ⟨256, 6, sv base 256 pf 0x0503 0 ([4, 1, 0, 0] ++ List.replicate 128 0), nop (sv base 256 pf 0x0503 0 ([4, 1, 0, 0] ++ List.replicate 128 0)) (cm 256 pf 0x0503 0 ([4, 1, 0, 0] ++ List.replicate 128 0)) 0 [], cm 256 pf 0x0503 0 ([4, 1, 0, 0] ++ List.replicate 128 0), 1, (cm 256 pf 0x0503 0 ([4, 1, 0, 0] ++ List.replicate 128 0)).at 2 2, (((bitsSet 1024 ((cm 256 pf 0x0503 0 ([4, 1, 0, 0] ++ List.replicate 128 0)).at 4 128)).map fun i => 1024 * ((cm 256 pf 0x0503 0 ([4, 1, 0, 0] ++ List.replicate 128 0)).at 2 2) + i).filter (sv base 256 pf 0x0503 0 ([4, 1, 0, 0] ++ List.replicate 128 0)).coreUsable), by decide, ⟨by decide, by decide, by decide⟩, by decide, by decide, rfl, by decide, by decide, by decide, rfl, by decide⟩,
   ⟨256, 6, sv base 256 pf 0x0504 0 [1], (sv base 256 pf 0x0504 0 [1]).started (cm 256 pf 0x0504 0 [1]) 0 [], cm 256 pf 0x0504 0 [1], by decide, ⟨⟨by decide, by decide, by decide⟩, by decide, by decide⟩, by decide, by decide, by decide, by decide, rfl⟩,
   ⟨256, 6, [], sv { base with bu := { BringUp.init with stage := 4, st := .done } } 256 pf 0x0505 1 [0], (sv { base with bu := { BringUp.init with stage := 4, st := .done } } 256 pf 0x0505 1 [0]).started (cm 256 pf 0x0505 1 [0]) 0 [], cm 256 pf 0x0505 1 [0], (if (cm 256 pf 0x0505 1 [0]).at 0 1 = 0 then (sv { base with bu := { BringUp.init with stage := 4, st := .done } } 256 pf 0x0505 1 [0]).calParse ((sv { base with bu := { BringUp.init with stage := 4, st := .done } } 256 pf 0x0505 1 [0]).bufIn (cm 256 pf 0x0505 1 [0]) (cm 256 pf 0x0505 1 [0]).bufLen (([] : List Byte))) else (sv { base with bu := { BringUp.init with stage := 4, st := .done } } 256 pf 0x0505 1 [0]).nv.calPick.getD ⟨0, [], [], 1⟩), by decide, ⟨⟨by decide, by decide, by decide⟩, by decide, by decide⟩, by decide, by decide, by decide, rfl, rfl⟩,
   ⟨257, 6, sv base 257 pf 0x0601 0 [], (sv base 257 pf 0x0601 0 []).started (cm 257 pf 0x0601 0 []) 0 ((List.range 16384).filter (sv base 257 pf 0x0601 0 []).coreUsable), cm 257 pf 0x0601 0 [], (List.range 16384).filter (sv base 257 pf 0x0601 0 []).coreUsable, by decide, ⟨⟨by decide, by decide, by decide⟩, by decide, by decide⟩, by decide, by decide, by decide, by decide, rfl, rfl⟩,
   ⟨7, { base with standby := some 7, ops := [opx 7 0x0601 1 []] }, by decide⟩,
   ⟨0, 6, sv base 0 pf 0x0602 1 [], cm 0 pf 0x0602 1 [], by decide, ⟨by decide, by decide, by decide⟩, by decide, by decide⟩,
   ⟨258, 6, sv base 258 idI3c 0x0610 0 (List.replicate 8 0), cm 258 idI3c 0x0610 0 (List.replicate 8 0), ((if (cm 258 idI3c 0x0610 0 (List.replicate 8 0)).at 0 1 = 0 then (sv base 258 idI3c 0x0610 0 (List.replicate 8 0)).gleaner.ring else (sv base 258 idI3c 0x0610 0 (List.replicate 8 0)).gleaner.latched).map fun r => (r.seq, r.bytes)), by decide, ⟨by decide, by decide, by decide⟩, by decide, by decide, rfl⟩,
   ⟨256, 6, sv base 256 pf 0x0610 1 (List.replicate 8 0), cm 256 pf 0x0610 1 (List.replicate 8 0), ((if (cm 256 pf 0x0610 1 (List.replicate 8 0)).at 0 1 = 0 then (sv base 256 pf 0x0610 1 (List.replicate 8 0)).gleaner.ring else (sv base 256 pf 0x0610 1 (List.replicate 8 0)).gleaner.latched).map fun r => (r.seq, r.bytes)), by decide, ⟨by decide, by decide, by decide⟩, by decide, by decide, by decide, rfl⟩,
   ⟨258, 6, sv base 258 idI3c 0x0611 0 [15], cm 258 idI3c 0x0611 0 [15], by decide, ⟨by decide, by decide, by decide⟩⟩,
   ⟨256, 6, sv base 256 pf 0x0612 0 [1, 0, 0, 0, 1, 0, 0, 0], cm 256 pf 0x0612 0 [1, 0, 0, 0, 1, 0, 0, 0], by decide, ⟨by decide, by decide, by decide⟩, by decide, by decide⟩,
   ⟨256, 6, sv base 256 pf 0x0612 0 [1, 0, 0, 0, 0, 0, 0, 0], cm 256 pf 0x0612 0 [1, 0, 0, 0, 0, 0, 0, 0], 2, by decide, ⟨by decide, by decide, by decide⟩, by decide⟩,
   ⟨258, 6, sv base 258 idI3c 0x0613 0 [1, 0], cm 258 idI3c 0x0613 0 [1, 0], (sv base 258 idI3c 0x0613 0 [1, 0]).gleaner.cfg ((cm 258 idI3c 0x0613 0 [1, 0]).at 0 2), by decide, ⟨by decide, by decide, by decide⟩, by decide, rfl⟩,
   ⟨258, 6, sv base 258 idI3c 0x0614 0 [0], cm 258 idI3c 0x0614 0 [0], by decide, ⟨by decide, by decide, by decide⟩, by decide⟩,
   ⟨258, 6, sv base 258 idI3c 0x0614 0 [1], cm 258 idI3c 0x0614 0 [1], by decide, ⟨by decide, by decide, by decide⟩, by decide⟩,
   ⟨271, 6, sv { base with factoryMode := true } 271 idJtag 0x7F10 0 ([1, 0, 2, 0] ++ List.replicate 12 0), cm 271 idJtag 0x7F10 0 ([1, 0, 2, 0] ++ List.replicate 12 0), by decide, ⟨by decide, by decide, by decide⟩, by decide, by decide⟩,
   ⟨271, 6, sv base 271 idJtag 0x7F10 0 ([1, 0, 2, 0] ++ List.replicate 12 0), cm 271 idJtag 0x7F10 0 ([1, 0, 2, 0] ++ List.replicate 12 0), by decide, ⟨by decide, by decide, by decide⟩, by decide⟩,
   ⟨256, 6, sv base 256 pf 0x0701 0 [0, 0, 100, 0], cm 256 pf 0x0701 0 [0, 0, 100, 0], by decide, ⟨by decide, by decide, by decide⟩, by decide, by decide, by decide, by decide, by decide⟩,
   ⟨256, 6, sv base 256 pf 0x0701 0 [0, 0, 101, 0], cm 256 pf 0x0701 0 [0, 0, 101, 0], by decide, ⟨by decide, by decide, by decide⟩, by decide, by decide⟩,
   ⟨256, 6, sv base 256 pf 0x0702 0 (leBytes 4 86400), cm 256 pf 0x0702 0 (leBytes 4 86400), by decide, ⟨by decide, by decide, by decide⟩, by decide, by decide⟩,
   ⟨256, 6, sv base 256 pf 0x0702 0 (leBytes 4 59), cm 256 pf 0x0702 0 (leBytes 4 59), by decide, ⟨by decide, by decide, by decide⟩, by decide⟩,
   ⟨256, 6, sv base 256 pf 0x0703 1 ([0, 1] ++ List.replicate 6 0), cm 256 pf 0x0703 1 ([0, 1] ++ List.replicate 6 0), (((sv base 256 pf 0x0703 1 ([0, 1] ++ List.replicate 6 0)).meter ((cm 256 pf 0x0703 1 ([0, 1] ++ List.replicate 6 0)).at 0 2)).ring.map fun r => (leVal ((r.drop 4).take 4), r)), by decide, ⟨by decide, by decide, by decide⟩, by decide, by decide, by decide, rfl⟩⟩
theorem witness_helmPair :
    (∃ (a b : Bool) (s : State), s.helm.st = .paired ∧ s.helm.stopped = false)
    ∧ (∃ (a b : Bool) (s : State) (half : Nat), s.helm.st = .single ∧ s.helm.stopped = false ∧ s.helm.retired = some half ∧ half < 2)
    ∧ (∃ (a b : Bool) (s : State), s.helm.st = .split ∧ s.helm.stopped = false)
    ∧ (∃ (a b : Bool) (s : State), (s.helm.st = .rom ∨ s.helm.stopped = true))
    ∧ (∃ (half : Nat) (s : State), half < 2)
    ∧ (∃ (p : Bool) (s : State) (half : Nat), s.helm.stopped = false ∧ s.helm.st = .single ∧ s.helm.retired = some half ∧ s.helm.final = false)
    ∧ (∃ (p : Bool) (s : State), s.helm.st = .single ∧ s.helm.final = true)
    ∧ (∃ (p : Bool) (s : State) (u : FwUpdate), s.helm.st = .split ∧ s.helm.update = some u ∧ u.takenOver = true ∧ s.helm.stopped = false)
    ∧ (∃ (s : State), (s.helm.update = none ∨ s.helm.st ≠ .paired ∨ s.helm.stopped = true))
    ∧ (∃ (s : State) (u : FwUpdate), s.helm.update = some u ∧ s.helm.st = .paired ∧ s.helm.stopped = false)
    ∧ (∃ (v : Bool) (s : State) (u : FwUpdate), s.helm.st = .split ∧ s.helm.update = some u) :=
  ⟨⟨true, false, hm { base.helm with hold := true }, by decide, by decide⟩,
   ⟨true, false, hm single, 0, by decide, by decide, by decide, by decide⟩,
   ⟨true, false, hm split, by decide, by decide⟩,
   ⟨true, false, hm Helm.init, by decide⟩,
   ⟨1, base, by decide⟩,
   ⟨true, hm single, 0, by decide, by decide, by decide, by decide⟩,
   ⟨true, hm { single with final := true }, by decide, by decide⟩,
   ⟨true, hm { split with update := some (upd 1 true) }, upd 1 true, by decide, by decide, by decide, by decide⟩,
   ⟨base, by decide⟩,
   ⟨hm { base.helm with update := some (upd 1 false) }, upd 1 false, by decide, by decide, by decide⟩,
   ⟨true, hm { split with update := some (upd 1 false) }, upd 1 false, by decide, by decide⟩⟩
theorem witness_helmMessages :
    (∃ (p : Pkt) (s : State), p ∉ s.net ∧ (p ∉ s.inbox ∨ p.op ≠ 0x3C))
    ∧ (∃ (p : Pkt) (s : State), p ∈ s.net)
    ∧ (∃ (p : Pkt) (s : State), p ∉ s.net ∧ p ∈ s.inbox ∧ p.op = 0x3C)
    ∧ (∃ (p : Pkt) (s : State) (bop : Nat), leVal (p.payload.take 1) = bop ∧ (bop = 1 ∨ bop = 2 ∨ bop = 3) ∧ (leVal ((p.payload.drop 2).take 2) ≠ 257 ∨ epPkg p.src ∉ s.fmPeers))
    ∧ (∃ (p : Pkt) (s : State) (n : Nat) (d : List Byte), leVal ((p.payload.drop 2).take 2) = 257 ∧ epPkg p.src ∈ s.fmPeers ∧ n = min 48 (leVal ((p.payload.drop 6).take 1)) ∧ d = (p.payload.drop 16).take n)
    ∧ (∃ (p : Pkt) (s : State), leVal (p.payload.take 1) = 0x11 ∧ leVal ((p.payload.drop 1).take 1) < 16)
    ∧ (∃ (p : Pkt) (s : State) (bop : Nat), leVal (p.payload.take 1) = bop ∧ bop ≠ 1 ∧ bop ≠ 2 ∧ bop ≠ 3 ∧ (bop ≠ 0x11 ∨ 16 ≤ leVal ((p.payload.drop 1).take 1)))
    ∧ (∃ (p : Pkt) (s : State), p ∉ s.net)
    ∧ (∃ (p : Pkt) (s : State), p ∈ s.net ∧ p.taken = false)
    ∧ (∃ (p : Pkt) (s u : State), p ∈ s.net ∧ p.taken = true ∧ u = (s.consume p).freed p ∧ u.ops.find? (fun o => decide (o.opcode = 0x0405) && o.fin.isNone && decide (o.work.headD 0 = epPkg p.src)) = none)
    ∧ (∃ (p : Pkt) (s u w : State) (o : Op), p ∈ s.net ∧ p.taken = true ∧ u = (s.consume p).freed p ∧ u.ops.find? (fun o => decide (o.opcode = 0x0405) && o.fin.isNone && decide (o.work.headD 0 = epPkg p.src)) = some o ∧ w = (u.putAt o.akind o.who o.barn (o.bufAddr + p.addr % 2 ^ 32) (p.payload.take (o.bufLen - p.addr % 2 ^ 32))).setOp { o with work := [epPkg p.src, o.work.getD 1 0 + p.payload.length], partialBytes := if p.addr % 2 ^ 32 = o.partialBytes then p.addr % 2 ^ 32 + (p.payload.take (o.bufLen - p.addr % 2 ^ 32)).length else o.partialBytes })
    ∧ (∃ (n : Fin 16) (a b : Bool) (f : FaultyUnits) (s : State), (s.pairRec n.val).checking = false)
    ∧ (∃ (n : Fin 16) (f : FaultyUnits) (s u : State) (d : PairDesc), (s.pairRec n.val).checking = true ∧ d = pairDesc (tget 0 s.pairTable n.val) ∧ s.memberBad n.val false = false ∧ s.memberBad n.val true = false ∧ u = s.onPairRec n.val (fun x => { x with outcome := 3, checking := false }))
    ∧ (∃ (n : Fin 16) (a b : Bool) (f : FaultyUnits) (s u : State) (d : PairDesc), (s.pairRec n.val).checking = true ∧ d = pairDesc (tget 0 s.pairTable n.val) ∧ ((a = true ∨ s.memberBad n.val false = true)) ∧ ((b = true ∨ s.memberBad n.val true = true)) ∧ u = State.faultyOut (s.onPairRec n.val fun x => { x with outcome := 4, checking := false }) (s.memberDies d false ++ s.memberDies d true) f)
    ∧ (∃ (n : Fin 16) (a b : Bool) (f : FaultyUnits) (s u w : State) (d : PairDesc) (code : Nat), (s.pairRec n.val).checking = true ∧ d = pairDesc (tget 0 s.pairTable n.val) ∧ (b || s.memberBad n.val true) = !(a || s.memberBad n.val false) ∧ code = (if (if (a || s.memberBad n.val false) = true then (s.pairRec n.val).fromA else (s.pairRec n.val).fromB) = true then 2 else 1) ∧ u = State.faultyOut (s.onPairRec n.val fun x => { x with outcome := code, checking := false }) (s.memberDies d !(a || s.memberBad n.val false)) f ∧ w = (if code = 2 then u.dropPair n.val else { u.dropPair n.val with frozen := u.frozen.filter fun x => !(s.memberDies d (a || s.memberBad n.val false)).contains x }))
    ∧ (∃ (g : ClusterId) (n m : Fin 16) (q : BitVec 14) (s : State) (k : Nat) (e : ChaffEntry), k = chaffKey g.val n.val m.val ∧ e = (s.chaffWin k).at q.toNat) :=
  ⟨⟨hp 1, base, by decide, by decide⟩,
   ⟨hp 1, { base with net := [hp 1] }, by decide⟩,
   ⟨{ hp 1 with op := 0x3C }, { base with inbox := [{ hp 1 with op := 0x3C }] }, by decide, by decide, by decide⟩,
   ⟨hp 2, base, 2, by decide, by decide, .inr (by decide)⟩,
   ⟨hp 2, { base with fmPeers := [70] }, min 48 (leVal (((hp 2).payload.drop 6).take 1)), ((hp 2).payload.drop 16).take (min 48 (leVal (((hp 2).payload.drop 6).take 1))), by decide, by decide, rfl, rfl⟩,
   ⟨hp 0x11, base, by decide, by decide⟩,
   ⟨hp 0x20, base, 0x20, by decide, by decide, by decide, by decide, by decide⟩,
   ⟨hd 8, base, by decide⟩,
   ⟨{ hd 8 with poison := true }, { base with net := [{ hd 8 with poison := true }] }, by decide, by decide⟩,
   ⟨hd 8, { base with net := [hd 8] }, ((({ base with net := [hd 8] } : State)).consume (hd 8)).freed (hd 8), by decide, by decide, rfl, by decide⟩,
   ⟨hd 8, { base with net := [hd 8], ops := [{ opx 7 0x0405 1 [] with work := [70, 4664] }] }, ((({ base with net := [hd 8], ops := [{ opx 7 0x0405 1 [] with work := [70, 4664] }] } : State)).consume (hd 8)).freed (hd 8), ((((({ base with net := [hd 8], ops := [{ opx 7 0x0405 1 [] with work := [70, 4664] }] } : State)).consume (hd 8)).freed (hd 8)).putAt (({ opx 7 0x0405 1 [] with work := [70, 4664] } : Op)).akind (({ opx 7 0x0405 1 [] with work := [70, 4664] } : Op)).who (({ opx 7 0x0405 1 [] with work := [70, 4664] } : Op)).barn ((({ opx 7 0x0405 1 [] with work := [70, 4664] } : Op)).bufAddr + (hd 8).addr % 2 ^ 32) ((hd 8).payload.take ((({ opx 7 0x0405 1 [] with work := [70, 4664] } : Op)).bufLen - (hd 8).addr % 2 ^ 32))).setOp { (({ opx 7 0x0405 1 [] with work := [70, 4664] } : Op)) with work := [epPkg (hd 8).src, (({ opx 7 0x0405 1 [] with work := [70, 4664] } : Op)).work.getD 1 0 + (hd 8).payload.length], partialBytes := if (hd 8).addr % 2 ^ 32 = (({ opx 7 0x0405 1 [] with work := [70, 4664] } : Op)).partialBytes then (hd 8).addr % 2 ^ 32 + ((hd 8).payload.take ((({ opx 7 0x0405 1 [] with work := [70, 4664] } : Op)).bufLen - (hd 8).addr % 2 ^ 32)).length else (({ opx 7 0x0405 1 [] with work := [70, 4664] } : Op)).partialBytes }, { opx 7 0x0405 1 [] with work := [70, 4664] }, by decide, by decide, rfl, by decide, rfl⟩,
   ⟨15, true, false, ⟨[], [], []⟩, base, by decide⟩,
   ⟨15, ⟨[5], [], []⟩, pc15, (pc15).onPairRec ((15 : Fin 16)).val (fun x => { x with outcome := 3, checking := false }), pairDesc (tget 0 (pc15).pairTable ((15 : Fin 16)).val), by decide, rfl, by decide, by decide, rfl⟩,
   ⟨15, true, true, ⟨[5], [], []⟩, pc15, State.faultyOut ((pc15).onPairRec ((15 : Fin 16)).val fun x => { x with outcome := 4, checking := false }) ((pc15).memberDies (pairDesc (tget 0 (pc15).pairTable ((15 : Fin 16)).val)) false ++ (pc15).memberDies (pairDesc (tget 0 (pc15).pairTable ((15 : Fin 16)).val)) true) ((⟨[5], [], []⟩ : FaultyUnits)), pairDesc (tget 0 (pc15).pairTable ((15 : Fin 16)).val), by decide, rfl, by decide, by decide, rfl⟩,
   ⟨15, true, false, ⟨[5], [], []⟩, pc15, State.faultyOut ((pc15).onPairRec ((15 : Fin 16)).val fun x => { x with outcome := ((if (if ((true) || (pc15).memberBad ((15 : Fin 16)).val false) = true then ((pc15).pairRec ((15 : Fin 16)).val).fromA else ((pc15).pairRec ((15 : Fin 16)).val).fromB) = true then 2 else 1)), checking := false }) ((pc15).memberDies (pairDesc (tget 0 (pc15).pairTable ((15 : Fin 16)).val)) !((true) || (pc15).memberBad ((15 : Fin 16)).val false)) ((⟨[5], [], []⟩ : FaultyUnits)), (if ((if (if ((true) || (pc15).memberBad ((15 : Fin 16)).val false) = true then ((pc15).pairRec ((15 : Fin 16)).val).fromA else ((pc15).pairRec ((15 : Fin 16)).val).fromB) = true then 2 else 1)) = 2 then (State.faultyOut ((pc15).onPairRec ((15 : Fin 16)).val fun x => { x with outcome := ((if (if ((true) || (pc15).memberBad ((15 : Fin 16)).val false) = true then ((pc15).pairRec ((15 : Fin 16)).val).fromA else ((pc15).pairRec ((15 : Fin 16)).val).fromB) = true then 2 else 1)), checking := false }) ((pc15).memberDies (pairDesc (tget 0 (pc15).pairTable ((15 : Fin 16)).val)) !((true) || (pc15).memberBad ((15 : Fin 16)).val false)) ((⟨[5], [], []⟩ : FaultyUnits))).dropPair ((15 : Fin 16)).val else { (State.faultyOut ((pc15).onPairRec ((15 : Fin 16)).val fun x => { x with outcome := ((if (if ((true) || (pc15).memberBad ((15 : Fin 16)).val false) = true then ((pc15).pairRec ((15 : Fin 16)).val).fromA else ((pc15).pairRec ((15 : Fin 16)).val).fromB) = true then 2 else 1)), checking := false }) ((pc15).memberDies (pairDesc (tget 0 (pc15).pairTable ((15 : Fin 16)).val)) !((true) || (pc15).memberBad ((15 : Fin 16)).val false)) ((⟨[5], [], []⟩ : FaultyUnits))).dropPair ((15 : Fin 16)).val with frozen := (State.faultyOut ((pc15).onPairRec ((15 : Fin 16)).val fun x => { x with outcome := ((if (if ((true) || (pc15).memberBad ((15 : Fin 16)).val false) = true then ((pc15).pairRec ((15 : Fin 16)).val).fromA else ((pc15).pairRec ((15 : Fin 16)).val).fromB) = true then 2 else 1)), checking := false }) ((pc15).memberDies (pairDesc (tget 0 (pc15).pairTable ((15 : Fin 16)).val)) !((true) || (pc15).memberBad ((15 : Fin 16)).val false)) ((⟨[5], [], []⟩ : FaultyUnits))).frozen.filter fun x => !((pc15).memberDies (pairDesc (tget 0 (pc15).pairTable ((15 : Fin 16)).val)) ((true) || (pc15).memberBad ((15 : Fin 16)).val false)).contains x }), pairDesc (tget 0 (pc15).pairTable ((15 : Fin 16)).val), (if (if ((true) || (pc15).memberBad ((15 : Fin 16)).val false) = true then ((pc15).pairRec ((15 : Fin 16)).val).fromA else ((pc15).pairRec ((15 : Fin 16)).val).fromB) = true then 2 else 1), by decide, rfl, by decide, rfl, rfl, rfl⟩,
   ⟨255, 15, 15, 3, { base with chaff := [(chaffKey 255 15 15, ⟨3, [(3, { ChaffEntry.resolved with state := 2 })]⟩)] }, chaffKey ((255 : ClusterId)).val ((15 : Fin 16)).val ((15 : Fin 16)).val, ((({ base with chaff := [(chaffKey 255 15 15, ⟨3, [(3, { ChaffEntry.resolved with state := 2 })]⟩)] } : State)).chaffWin (chaffKey ((255 : ClusterId)).val ((15 : Fin 16)).val ((15 : Fin 16)).val)).at ((3 : BitVec 14)).toNat, rfl, rfl⟩⟩
theorem witness_registerAccess :
    (∃ (f : FnId) (off : Fin 1048576) (v : List Byte) (s : State) (old : Nat) (put : Nat → State), s.fnUp f.val = true ∧ v.length = 8 ∧ off.val % 8 = 0 ∧ s.wideReg f.val (barPlace f.val off.val) = some (old, put))
    ∧ (∃ (lo hi : List Byte) (s t : State), s.pins.pcie = true ∧ lo.length = 4 ∧ hi.length = 4 ∧ t = s.onFn 0 (fun x => { x with lowLatch := tset 0 x.lowLatch 0x1018 (leVal lo + 1) }))
    ∧ (∃ (v : List Byte) (s : State) (n : Nat), s.pins.pcie = true ∧ v.length = 4 ∧ leVal v = n)
    ∧ (∃ (f : FnId) (off : Fin 1048576) (v : List Byte) (s : State), s.fnUp f.val = true ∧ v.length = 4 ∧ off.val % 4 = 0)
    ∧ (∃ (f n v : Nat) (s : State), n < vectors f)
    ∧ (∃ (f : FnId) (off : Fin 1048576) (v : Nat) (s : State), s.fnUp f.val = true ∧ off.val % 4 = 0 ∧ ((∃ o, barPlace f.val off.val = .ident o ∨ barPlace f.val off.val = .bringUp o ∨ barPlace f.val off.val = .fault o ∨ barPlace f.val off.val = .thermal o ∨ barPlace f.val off.val = .time o ∨ barPlace f.val off.val = .aperture o ∨ (barPlace f.val off.val = .indirect o ∧ o ≠ 8))))
    ∧ (∃ (s : State), s.pins.pcie = true)
    ∧ (∃ (s : State), s.pins.pcie = true)
    ∧ (∃ (v : BitVec 64) (e : Bool) (s : State), s.pins.pcie = false)
    ∧ (∃ (v : BitVec 64) (e : Bool) (n : Nat) (s : State), s.pins.pcie = true ∧ n = (if e = true then 8 else 4))
    ∧ (∃ (s : State) (sec off : Nat), s.stageDone 5 = false)
    ∧ (∃ (s : State) (sec off l : Nat), s.stageDone 5 = true ∧ s.calOwner sec off = some l)
    ∧ (∃ (e : Bool) (n : Nat) (s : State), s.pins.pcie = true ∧ n = (if e = true then 8 else 4) ∧ s.svcRead s.ind.addr n = none)
    ∧ (∃ (e : Bool) (n v : Nat) (s : State), s.pins.pcie = true ∧ n = (if e = true then 8 else 4) ∧ s.svcRead s.ind.addr n = some v ∧ (e = true ∨ (calPlace s.ind.addr).isSome = true ∨ crossWord s.ind.addr = true))
    ∧ (∃ (r v : Nat) (s : State), s.pins.pcie = true ∧ s.svcRead s.ind.addr 4 = some v ∧ calPlace s.ind.addr = none ∧ crossWord s.ind.addr = false ∧ s.ind.addr % 8 = 0 ∧ s.svcReg s.ind.addr = some r)
    ∧ (∃ (h v : Nat) (s : State), s.pins.pcie = true ∧ s.svcRead s.ind.addr 4 = some v ∧ calPlace s.ind.addr = none ∧ crossWord s.ind.addr = false ∧ s.ind.addr % 8 ≠ 0 ∧ s.ind.cap = some (s.ind.addr, h))
    ∧ (∃ (v : Nat) (s : State), s.pins.pcie = true ∧ s.svcRead s.ind.addr 4 = some v ∧ calPlace s.ind.addr = none ∧ crossWord s.ind.addr = false ∧ s.ind.addr % 8 ≠ 0 ∧ ((∀ h, s.ind.cap ≠ some (s.ind.addr, h))))
    ∧ (∃ (f : FnId) (off : Fin 268435456) (n : Fin 4097) (a : Nat) (s : State), s.fnUp f.val = true ∧ 1 ≤ n.val ∧ n.val ≤ 8 ∧ s.barnExists f.val = false ∧ a = (s.fn f.val).aptBase + off.val ∧ a % 8 = 0 ∧ ((∀ r ∈ s.aptReads, r.id ≠ s.aptNext)))
    ∧ (∃ (f : FnId) (off : Fin 268435456) (bs : List Byte) (a : Nat) (s : State), s.fnUp f.val = true ∧ 1 ≤ bs.length ∧ bs.length ≤ 8 ∧ s.barnExists f.val = false ∧ a = (s.fn f.val).aptBase + off.val ∧ a % 8 = 0)
    ∧ (∃ (en : Bool) (n : Fin 256) (s : State), s.pins.pcie = false)
    ∧ (∃ (en : Bool) (n : Fin 256) (s u : State), s.pins.pcie = true ∧ u = { s with vfEnable := en, numVfs := n.val }) :=
  ⟨⟨0, 0x1018, List.replicate 8 1, base, 0, wideOf, by decide, by decide, by decide, rfl⟩,
   ⟨List.replicate 4 1, List.replicate 4 2, base, (base).onFn 0 (fun x => { x with lowLatch := tset 0 x.lowLatch 0x1018 (leVal (List.replicate 4 1) + 1) }), by decide, by decide, by decide, rfl⟩,
   ⟨[1, 0, 0, 0], base, 1, by decide, by decide, by decide⟩,
   ⟨255, 0x1018, [1, 2, 0, 0], { base with vfEnable := true, numVfs := 255 }, by decide, by decide, by decide⟩,
   ⟨0, 0, 1, base, by decide⟩,
   ⟨0, 0, 0, base, by decide, by decide, ⟨0, .inl (by decide)⟩⟩,
   ⟨base, by decide⟩,
   ⟨base, by decide⟩,
   ⟨5, true, { base with pins := { base.pins with pcie := false } }, by decide⟩,
   ⟨5, true, (if (true) = true then 8 else 4), base, by decide, rfl⟩,
   ⟨bs 4 .running, 1, 0, by decide⟩,
   ⟨lks [(0, lk0)], 1, 0, 0, by decide, by decide⟩,
   ⟨true, (if (true) = true then 8 else 4), { base with ind := { Indirect.init with addr := 0xFFFFFFF8 } }, by decide, rfl, by decide⟩,
   ⟨true, (if (true) = true then 8 else 4), sv0, { base with ind := { Indirect.init with addr := 0x04100000 } }, by decide, rfl, by decide, by decide⟩,
   ⟨sr16, sv16, { base with ind := { Indirect.init with addr := a16 } }, by decide, by decide, by decide, by decide, by decide, by decide⟩,
   ⟨9, sv17, { base with ind := { Indirect.init with addr := a16 + 4, cap := some (a16 + 4, 9) } }, by decide, by decide, by decide, by decide, by decide, by decide⟩,
   ⟨sv17, { base with ind := { Indirect.init with addr := a16 + 4 } }, by decide, by decide, by decide, by decide, by decide, (by intro h e; cases e)⟩,
   ⟨5, 0xFFFFFF8, 8, ((({ base with vfEnable := true, numVfs := 255 } : State)).fn ((5 : FnId)).val).aptBase + ((0xFFFFFF8 : Fin 268435456)).val, { base with vfEnable := true, numVfs := 255 }, by decide, by decide, by decide, by decide, rfl, by decide, by decide⟩,
   ⟨5, 0xFFFFFF8, List.replicate 8 1, ((({ base with vfEnable := true, numVfs := 255 } : State)).fn ((5 : FnId)).val).aptBase + ((0xFFFFFF8 : Fin 268435456)).val, { base with vfEnable := true, numVfs := 255 }, by decide, by decide, by decide, by decide, rfl, by decide⟩,
   ⟨true, 255, { base with pins := { base.pins with pcie := false } }, by decide⟩,
   ⟨true, 255, base, { (base) with vfEnable := (true), numVfs := ((255 : Fin 256)).val }, by decide, rfl⟩⟩
theorem witness_bringUpStages :
    (∃ (s : State) (v : Nat), bitsAt (v / 65536) 10 6 ≠ 0)
    ∧ (∃ (s : State) (t : Nat), t < 16)
    ∧ (∃ (s : State), s.gleaner.fatal = false)
    ∧ (∃ (s u : State), u = { s with bu := { s.bu with target := s.bu.target &&& 15, calSource := s.bu.calSource &&& 3, fwSource := s.bu.fwSource &&& 1 } })
    ∧ (∃ (s u : State) (n : Nat), u = State.buSet { s with bu := { s.bu with stage := n, start := s.reckon, done := 0, total := 0, repBytes := 0, took := [s.bu.bufAddr, s.bu.bufLen, s.bu.repAddr, s.bu.repLen, s.bu.fwSource, s.bu.calSource] } } .running 0)
    ∧ (∃ (s : State), s.selfValid = false)
    ∧ (∃ (rail ref a b : Bool) (v : BitVec 32) (s u : State), s.inStage 1 ∧ u = { s with rcalBoot := v.toNat, rcalHeld := false })
    ∧ (∃ (host : Option FwImage) (s : State) (imgs : List (Nat × FwImage)), s.inStage 2 ∧ (imgs = (if s.bu.took.getD 4 0 = 0 then s.nv.fwOrder else if s.bu.took.getD 1 0 = 0 ∨ s.bu.took.getD 0 0 % 64 ≠ 0 then [] else host.toList.map fun i => (2, i))))
    ∧ (∃ (ok bad : Bool) (ks : List ClusterId) (s u : State), s.pins.discharging = false ∧ s.inStage 3 ∧ u = { s with pins := { s.pins with vin48 := ok } })
    ∧ (∃ (ks : List ClusterId) (xs : List (DieId × Fin 192)) (s : State), s.inStage 4)
    ∧ (∃ (ks : List ClusterId) (xs : List (DieId × Fin 192)) (s a u w : State), s.inStage 4 ∧ a = (List.range 16).foldl (fun s d => s.alignDie d) s ∧ u = { a with cross := (List.range 16).flatMap fun d => (List.range 192).map fun i => (256 * d + i, if a.crossDown d i then 0xFFFF else 0x0303) } ∧ w = xs.foldl (fun s x => (s.retireCrossing (256 * x.1.val + x.2.val)).report 0x08 (256 * x.1.val + x.2.val) 0) u)
    ∧ (∃ (s : State), s.inStage 4 ∧ s.bu.goal = 4)
    ∧ (∃ (fit : List (ModuleId × BitVec 128)) (a u : Bool) (tr : List (BitVec 32 × Byte)) (s : State), s.inStage 5 ∧ s.bu.goal = 5 ∧ s.calWaits = false ∧ ((∀ m : ModuleId, ∃ v, (m, v) ∈ fit)) ∧ ((∀ m, m < 12 → (s.module m).retired = none)))
    ∧ (∃ (fit : List (ModuleId × BitVec 128)) (k : Fin 4) (a u : Bool) (tr : List (BitVec 32 × Byte)) (s : State), s.inStage 5 ∧ s.calWaits = false)
    ∧ (∃ (fit : List (ModuleId × BitVec 128)) (op : List (Fin 4)) (a u : Bool) (tr : List (BitVec 32 × Byte)) (s : State), s.calWaits = true ∧ s.gleaner.fatal = false)
    ∧ (∃ (s : State), s.inStage 6 ∧ s.bu.goal = 6 ∧ s.bu.took.getD 2 0 = 0 ∧ s.coreDown = [] ∧ s.clusterDown = [] ∧ s.dieDown = [] ∧ s.nv.fusedCores = [])
    ∧ (∃ (c : CoreId) (cs : List CoreId) (ks : List ClusterId) (ls : List (Fin 32768)) (ds : List DieId) (s : State), s.inStage 6 ∧ c ∈ cs ∧ c.val ∉ s.nv.fusedCores)
    ∧ (∃ (d : DieId) (cs : List CoreId) (ks : List ClusterId) (ls : List (Fin 32768)) (s : State), s.inStage 6 ∧ d.val ∈ s.dieDown)
    ∧ (∃ (d : DieId) (cs : List CoreId) (ks : List ClusterId) (ls : List (Fin 32768)) (ds : List DieId) (s : State), s.inStage 6)
    ∧ (∃ (stack repair : Bool) (r : List GranuleId) (s : State), s.inStage 7 ∧ (stack = true ∨ repair = true))
    ∧ (∃ (r : List GranuleId) (s : State), s.inStage 7 ∧ s.bu.goal = 7)
    ∧ (∃ (s : State) (trained : List (LinkId × BitVec 16 × BitVec 16)), s.inStage 8 ∧ s.bu.goal = 8 ∧ ((∀ l : LinkId, ∃ x, trained.find? (fun x => decide (x.1.val = l.val) && decide (8 ≤ maskWidth x.2.1.toNat)) = some x)))
    ∧ (∃ (s u : State) (trained : List (LinkId × BitVec 16 × BitVec 16)) (stand : List Nat), s.inStage 8 ∧ stand = (List.range 512).filter (fun l => decide ((linkRole l).code = 0)) ∧ u = stand.foldl (fun s l => s.substitute l) ((List.range 512).foldl (fun s l => s.trainLink trained l) s))
    ∧ (∃ (s : State), s.inStage 9)
    ∧ (∃ (s : State), s.inStage 10 ∧ 3 ∉ s.gleaner.pending ∧ ((∀ d, d < 16 → coreMinimum s.variant ≤ s.usableOn d)))
    ∧ (∃ (s : State), s.inStage 10 ∧ (3 ∈ s.gleaner.pending ∨ (∃ d, d < 16 ∧ s.usableOn d < coreMinimum s.variant))) :=
  ⟨⟨base, 0x04000000, by decide⟩,
   ⟨bs 0 .idle, 15, by decide⟩,
   ⟨bs 9 .disagree, by decide⟩,
   ⟨bs 4 .running, { (bs 4 .running) with bu := { (bs 4 .running).bu with target := (bs 4 .running).bu.target &&& 15, calSource := (bs 4 .running).bu.calSource &&& 3, fwSource := (bs 4 .running).bu.fwSource &&& 1 } }, rfl⟩,
   ⟨bs 4 .running, State.buSet { (bs 4 .running) with bu := { (bs 4 .running).bu with stage := (5), start := (bs 4 .running).reckon, done := 0, total := 0, repBytes := 0, took := [(bs 4 .running).bu.bufAddr, (bs 4 .running).bu.bufLen, (bs 4 .running).bu.repAddr, (bs 4 .running).bu.repLen, (bs 4 .running).bu.fwSource, (bs 4 .running).bu.calSource] } } .running 0, 5, rfl⟩,
   ⟨{ base with selfValid := false }, by decide⟩,
   ⟨true, false, true, false, 1960000, bs 1 .running, { (bs 1 .running) with rcalBoot := ((1960000 : BitVec 32)).toNat, rcalHeld := false }, ⟨rfl, rfl, rfl⟩, rfl⟩,
   ⟨some { fw with typ := 1 }, { bs 2 .running with bu := { (bs 2 .running).bu with took := [64, 1, 0, 0, 1, 0] } }, (if (({ bs 2 .running with bu := { (bs 2 .running).bu with took := [64, 1, 0, 0, 1, 0] } } : State)).bu.took.getD 4 0 = 0 then (({ bs 2 .running with bu := { (bs 2 .running).bu with took := [64, 1, 0, 0, 1, 0] } } : State)).nv.fwOrder else if (({ bs 2 .running with bu := { (bs 2 .running).bu with took := [64, 1, 0, 0, 1, 0] } } : State)).bu.took.getD 1 0 = 0 ∨ (({ bs 2 .running with bu := { (bs 2 .running).bu with took := [64, 1, 0, 0, 1, 0] } } : State)).bu.took.getD 0 0 % 64 ≠ 0 then [] else (some { fw with typ := 1 }).toList.map fun i => (2, i)), ⟨rfl, rfl, rfl⟩, rfl⟩,
   ⟨true, false, [], bs 3 .running, { (bs 3 .running) with pins := { (bs 3 .running).pins with vin48 := (true) } }, by decide, ⟨rfl, rfl, rfl⟩, rfl⟩,
   ⟨[], [], bs 4 .running, ⟨rfl, rfl, rfl⟩⟩,
   ⟨[], [], bs 4 .running, a18, u18, u18, ⟨rfl, rfl, rfl⟩, rfl, rfl, rfl⟩,
   ⟨bs 4 .running, ⟨rfl, rfl, rfl⟩, by decide⟩,
   ⟨(List.finRange 12).map fun m => (m, 9), true, false, [], bs 5 .running, ⟨rfl, rfl, rfl⟩, by decide, by decide, (fun m => ⟨9, by revert m; decide⟩), by decide⟩,
   ⟨[], 3, true, false, [], bs 5 .running, ⟨rfl, rfl, rfl⟩, by decide⟩,
   ⟨[], [], true, false, [], { bs 5 .running with bu := { (bs 5 .running).bu with took := [0, 0, 0, 0, 0, 2] } }, by decide, by decide⟩,
   ⟨bs 6 .running, ⟨rfl, rfl, rfl⟩, by decide, by decide, by decide, by decide, by decide, by decide⟩,
   ⟨5, [5], [], [], [], bs 6 .running, ⟨rfl, rfl, rfl⟩, by decide, by decide⟩,
   ⟨3, [], [], [], { bs 6 .running with dieDown := [3] }, ⟨rfl, rfl, rfl⟩, by decide⟩,
   ⟨3, [], [], [], [], bs 6 .running, ⟨rfl, rfl, rfl⟩⟩,
   ⟨true, false, [], bs 7 .running, ⟨rfl, rfl, rfl⟩, by decide⟩,
   ⟨[1023], bs 7 .running, ⟨rfl, rfl, rfl⟩, by decide⟩,
   ⟨bs 8 .running, trained, ⟨rfl, rfl, rfl⟩, by decide, trainedAll⟩,
   ⟨bs 8 .running, ((List.range 512).filter (fun l => decide ((linkRole l).code = 0))).foldl (fun s_ l => s_.substitute l) ((List.range 512).foldl (fun s_ l => s_.trainLink (trained) l) (bs 8 .running)), trained, (List.range 512).filter (fun l => decide ((linkRole l).code = 0)), ⟨rfl, rfl, rfl⟩, rfl, rfl⟩,
   ⟨bs 9 .running, ⟨rfl, rfl, rfl⟩⟩,
   ⟨b10, ⟨rfl, rfl, rfl⟩, by decide, coresAll⟩,
   ⟨{ bs 10 .running with gleaner := { Gleaner.init with pending := [3] } }, ⟨rfl, rfl, rfl⟩, .inl (by decide)⟩⟩
theorem witness_resetsAndSupplies :
    (∃ (c : CoreId) (s : State), (s.core c.val).power ≠ .off)
    ∧ (∃ (c : CoreId) (s : State), (s.core c.val).power ≠ .off ∧ (s.core c.val).inbound = [] ∧ (s.core c.val).outQ = [] ∧ (s.core c.val).outWait = [] ∧ ((∀ n ∈ clusterCores (coreCluster c.val), beatsFor c.val (s.core n) = [])))
    ∧ (∃ (st c : Nat) (b : Beat) (l : List Beat) (p : Pkt) (s : State), b.pkt = some p ∧ isCplOp p.op = false)
    ∧ (∃ (g : ClusterId) (who : Nat) (tag : BitVec 12) (s : State) (x : Option Orphan), (s.gw g.val).orphans.find? (fun o => decide (o.who = who) && decide (o.tag = tag.toNat)) = x)
    ∧ (∃ (s u : State), u = { s with pins := { s.pins with perst := false, pcie := false } })
    ∧ (∃ (s : State), s.pins.vaux = false)
    ∧ (∃ (s : State), s.pins.vaux = true)
    ∧ (∃ (s u : State), u = { s with pins := { s.pins with vin48 := false, vinOpen := true, discharging := true } })
    ∧ (∃ (s : State) (o : Op), s.op o.num = some o ∧ o.fin = none ∧ o.opcode ≠ 0x0102 ∧ ((∀ x ∈ s.ops, x.num = o.num → x = o)))
    ∧ (∃ (b : Fin 4) (trims : List (BitVec 32 × Byte)) (s : State), bitAt s.pins.intlk b.val = false)
    ∧ (∃ (b : Fin 4) (trims : List (BitVec 32 × Byte)) (s : State), bitAt s.pins.intlk b.val = true) :=
  ⟨⟨5, th (run []), by decide⟩,
   ⟨5, th (run []), by decide, by decide, by decide, by decide, by decide⟩,
   ⟨4, 5, bt, [], pkt 0x02 (coordOf 64 5) (coordOf 64 6) 0x20000500040 [1], base, by decide, by decide⟩,
   ⟨255, 5, 7, { base with gateways := [(255, { Gateway.init with orphans := [⟨5, 7, 1, 1, 0, []⟩] })] }, ((({ base with gateways := [(255, { Gateway.init with orphans := [⟨5, 7, 1, 1, 0, []⟩] })] } : State)).gw ((255 : ClusterId)).val).orphans.find? (fun o => decide (o.who = (5)) && decide (o.tag = ((7 : BitVec 12)).toNat)), rfl⟩,
   ⟨base, { (base) with pins := { (base).pins with perst := false, pcie := false } }, rfl⟩,
   ⟨{ base with pins := { base.pins with vaux := false } }, by decide⟩,
   ⟨base, by decide⟩,
   ⟨base, { (base) with pins := { (base).pins with vin48 := false, vinOpen := true, discharging := true } }, rfl⟩,
   ⟨{ base with ops := [opx 7 0x0503 1 []] }, opx 7 0x0503 1 [], by decide, by decide, by decide, by decide⟩,
   ⟨3, [], { base with pins := { base.pins with intlk := 0 } }, by decide⟩,
   ⟨3, [], base, by decide⟩⟩
theorem witness_timeAndMeters :
    (∃ (s : State), s.pending = [])
    ∧ (∃ (sub : Fin 20) (s : State), s.clock.next = none ∧ s.clock.ppsEn = false)
    ∧ (∃ (sub : Fin 20) (s u v : State) (cap : Nat), s.clock.next = none ∧ s.clock.ppsEn = true ∧ cap = (s.reckon + sub.val) % 2 ^ 64 ∧ u = { s with clock := { s.clock with ppsCapture := cap, ppsSeen := true, ppsLast := some cap } } ∧ (v = (if s.clock.source ≠ 1 ∨ s.clock.ppsAlign = false then u else if s.clock.ppsLast.any (fun t => decide (cap < 8000000000 + t) || decide (24000000000 + t < cap)) = true then u.timeMissing else u.timeMeasure (if cap % 16000000000 ≤ 8000000000 then ((cap % 16000000000 : Nat) : Int) else ((cap % 16000000000 : Nat) : Int) - 16000000000))))
    ∧ (∃ (s : State) (θ : Int), (s.timeMeasure θ).clock.locked = false ∧ θ < -16000000)
    ∧ (∃ (s : State) (θ : Int), ((s.timeMeasure θ).clock.locked = true ∨ -16000000 ≤ θ))
    ∧ (∃ (s : State), s.clock.next = none ∧ s.clock.source ≠ 2)
    ∧ (∃ (s u : State) (q : Nat), s.clock.next = none ∧ s.clock.source = 2 ∧ u = (if s.clock.exch = none then s else State.timeMissing { s with clock := { s.clock with exch := none } }) ∧ q = (s.clock.exchSeq + 1) % 65536)
    ∧ (∃ (p : Pkt) (v : BitVec 64) (r : Bool) (s : State), p.taken = false)
    ∧ (∃ (p : Pkt) (v : BitVec 64) (r : Bool) (s : State) (x : Option Nat), p.taken = true ∧ leVal (p.payload.take 1) = 1 ∧ (List.range 72).find? (fun q => (s.port q).peerValid && decide ((s.port q).peer = epPkg p.src) && decide ((s.port q).peerPort = coursePort p.course 0)) = x)
    ∧ (∃ (p : Pkt) (v : BitVec 64) (r : Bool) (s : State), p.taken = true ∧ leVal (p.payload.take 1) ≠ 1 ∧ (leVal (p.payload.take 1) ≠ 2 ∨ s.clock.source ≠ 2 ∨ s.clock.exch = none))
    ∧ (∃ (p : Pkt) (v : BitVec 64) (r : Bool) (s u : State) (seq t1 : Nat), p.taken = true ∧ leVal (p.payload.take 1) = 2 ∧ s.clock.source = 2 ∧ s.clock.exch = some (seq, t1) ∧ u = { s.consume p with clock := { s.clock with exch := if leVal ((p.payload.drop 2).take 2) = seq then none else s.clock.exch } })
    ∧ (∃ (s : State), s.alm.discipline < 4)
    ∧ (∃ (s : State) (e : Nat), e < 4)
    ∧ (∃ (a : Almanac), a.left = 0)
    ∧ (∃ (s : State), (s.alm.valid = false ∨ s.alm.time / 2 ^ 24 / s.alm.interval * s.alm.interval ≤ s.alm.lastBoundary.getD 0))
    ∧ (∃ (s : State) (b : Nat), s.alm.valid = true ∧ b = s.alm.time / 2 ^ 24 / s.alm.interval * s.alm.interval ∧ s.alm.lastBoundary.getD 0 < b)
    ∧ (∃ (h j : Nat), h ≤ 64) :=
  ⟨⟨base, by decide⟩,
   ⟨19, base, by decide, by decide⟩,
   ⟨19, clk { Clock.init with ppsEn := true }, { (clk { Clock.init with ppsEn := true }) with clock := { (clk { Clock.init with ppsEn := true }).clock with ppsCapture := (((clk { Clock.init with ppsEn := true }).reckon + ((19 : Fin 20)).val) % 2 ^ 64), ppsSeen := true, ppsLast := some (((clk { Clock.init with ppsEn := true }).reckon + ((19 : Fin 20)).val) % 2 ^ 64) } }, (if (clk { Clock.init with ppsEn := true }).clock.source ≠ 1 ∨ (clk { Clock.init with ppsEn := true }).clock.ppsAlign = false then ({ (clk { Clock.init with ppsEn := true }) with clock := { (clk { Clock.init with ppsEn := true }).clock with ppsCapture := (((clk { Clock.init with ppsEn := true }).reckon + ((19 : Fin 20)).val) % 2 ^ 64), ppsSeen := true, ppsLast := some (((clk { Clock.init with ppsEn := true }).reckon + ((19 : Fin 20)).val) % 2 ^ 64) } }) else if (clk { Clock.init with ppsEn := true }).clock.ppsLast.any (fun t => decide ((((clk { Clock.init with ppsEn := true }).reckon + ((19 : Fin 20)).val) % 2 ^ 64) < 8000000000 + t) || decide (24000000000 + t < (((clk { Clock.init with ppsEn := true }).reckon + ((19 : Fin 20)).val) % 2 ^ 64))) = true then ({ (clk { Clock.init with ppsEn := true }) with clock := { (clk { Clock.init with ppsEn := true }).clock with ppsCapture := (((clk { Clock.init with ppsEn := true }).reckon + ((19 : Fin 20)).val) % 2 ^ 64), ppsSeen := true, ppsLast := some (((clk { Clock.init with ppsEn := true }).reckon + ((19 : Fin 20)).val) % 2 ^ 64) } }).timeMissing else ({ (clk { Clock.init with ppsEn := true }) with clock := { (clk { Clock.init with ppsEn := true }).clock with ppsCapture := (((clk { Clock.init with ppsEn := true }).reckon + ((19 : Fin 20)).val) % 2 ^ 64), ppsSeen := true, ppsLast := some (((clk { Clock.init with ppsEn := true }).reckon + ((19 : Fin 20)).val) % 2 ^ 64) } }).timeMeasure (if (((clk { Clock.init with ppsEn := true }).reckon + ((19 : Fin 20)).val) % 2 ^ 64) % 16000000000 ≤ 8000000000 then (((((clk { Clock.init with ppsEn := true }).reckon + ((19 : Fin 20)).val) % 2 ^ 64) % 16000000000 : Nat) : Int) else (((((clk { Clock.init with ppsEn := true }).reckon + ((19 : Fin 20)).val) % 2 ^ 64) % 16000000000 : Nat) : Int) - 16000000000)), ((clk { Clock.init with ppsEn := true }).reckon + ((19 : Fin 20)).val) % 2 ^ 64, by decide, by decide, rfl, rfl, rfl⟩,
   ⟨base, -16000001, by decide, by decide⟩,
   ⟨base, -16000000, .inr (by decide)⟩,
   ⟨base, by decide, by decide⟩,
   ⟨{ pt up with clock := { Clock.init with source := 2, port := 71 } }, (if (({ pt up with clock := { Clock.init with source := 2, port := 71 } } : State)).clock.exch = none then (({ pt up with clock := { Clock.init with source := 2, port := 71 } } : State)) else State.timeMissing { (({ pt up with clock := { Clock.init with source := 2, port := 71 } } : State)) with clock := { (({ pt up with clock := { Clock.init with source := 2, port := 71 } } : State)).clock with exch := none } }), ((({ pt up with clock := { Clock.init with source := 2, port := 71 } } : State)).clock.exchSeq + 1) % 65536, by decide, by decide, rfl, rfl⟩,
   ⟨{ te 1 3 with poison := true }, 9, true, base, by decide⟩,
   ⟨te 1 3, 9, true, pt { up with peerPort := 0 }, (List.range 72).find? (fun q => ((pt { up with peerPort := 0 }).port q).peerValid && decide (((pt { up with peerPort := 0 }).port q).peer = epPkg (te 1 3).src) && decide (((pt { up with peerPort := 0 }).port q).peerPort = coursePort (te 1 3).course 0)), by decide, by decide, rfl⟩,
   ⟨te 3 3, 9, true, base, by decide, by decide, by decide⟩,
   ⟨te 2 3, 9, true, clk { Clock.init with source := 2, exch := some (4, 9) }, { (clk { Clock.init with source := 2, exch := some (4, 9) }).consume (te 2 3) with clock := { (clk { Clock.init with source := 2, exch := some (4, 9) }).clock with exch := if leVal (((te 2 3).payload.drop 2).take 2) = (4) then none else (clk { Clock.init with source := 2, exch := some (4, 9) }).clock.exch } }, 4, 9, by decide, by decide, by decide, by decide, rfl⟩,
   ⟨base, by decide⟩,
   ⟨base, 2, by decide⟩,
   ⟨Almanac.init, by decide⟩,
   ⟨base, by decide⟩,
   ⟨{ base with alm := { Almanac.init with valid := true, time := 3600 * 2 ^ 24 } }, (({ base with alm := { Almanac.init with valid := true, time := 3600 * 2 ^ 24 } } : State)).alm.time / 2 ^ 24 / (({ base with alm := { Almanac.init with valid := true, time := 3600 * 2 ^ 24 } } : State)).alm.interval * (({ base with alm := { Almanac.init with valid := true, time := 3600 * 2 ^ 24 } } : State)).alm.interval, by decide, rfl, by decide⟩,
   ⟨64, 63, by decide⟩⟩
theorem witness_faultHandling :
    (∃ (s : State), s.reports = [])
    ∧ (∃ (s : State) (r : Report), s.reports = [r])
    ∧ (∃ (s : State) (a b : Report), s.reports = [a, b] ∧ a.at_ = b.at_)
    ∧ (∃ (g : Gleaner) (c : Counter) (base now : Nat), base < 4 ∧ (g.cfg c.kind).n ≠ 0 ∧ c.windowOpen now (g.cfg c.kind).window = true ∧ c.count + 1 = (g.cfg c.kind).n ∧ c.count < 65535 ∧ c.marks = [])
    ∧ (∃ (g : Gleaner) (c : Counter) (base now : Nat), 1 ≤ base ∧ base ≤ 3 ∧ (g.cfg c.kind).n = 0 ∧ c.windowOpen now (g.cfg c.kind).window = false ∧ base ∈ c.marks)
    ∧ (∃ (g : Gleaner) (c : Counter) (base now : Nat), base ≤ 4 ∧ (g.cfg c.kind).n = 0 ∧ c.windowOpen now (g.cfg c.kind).window = false ∧ base ∉ c.marks)
    ∧ (∃ (g : Gleaner) (kind key base now : Nat), g.counter kind key = none ∧ 8192 ≤ (g.live now).length ∧ (g.cfg kind).overflow < 65534 ∧ base ≤ 4)
    ∧ (∃ (s : State), (s.gleaner.notices = [] ∨ s.helmServes = false))
    ∧ (∃ (s : State) (r : FaultRec) (l : List FaultRec), s.gleaner.notices = r :: l ∧ s.helmServes = true)
    ∧ (∃ (s : State) (r : FaultRec), r.cls < 3)
    ∧ (∃ (k : BitVec 16) (u : Nat) (s : State), s.gleaner.counter k.toNat u = none)
    ∧ (∃ (k : BitVec 16) (u : Nat) (s : State) (c : Counter), s.gleaner.counter k.toNat u = some c)
    ∧ (∃ (d : DieId) (s : State) (h n : Nat) (hot : Bool), h = (match tget 0 s.holdNotice d.val with | 0 => s.holdOf d.val | n + 1 => n) ∧ hot = (governorInputs d.val).any (fun n => (s.sensor n).throttle && (s.sensor n).last.any fun t => decide (throttleSet n ≤ t)) ∧ n = (if hot = true then min 48 (h + 8) else if (governorInputs d.val).any (fun n => (s.sensor n).throttle) = true then h else h - 4)) :=
  ⟨⟨base, by decide⟩,
   ⟨{ base with reports := [⟨0x01, 5, 0, 0, none⟩] }, ⟨0x01, 5, 0, 0, none⟩, by decide⟩,
   ⟨{ base with reports := [⟨0x01, 5, 0, 0, none⟩, ⟨0x02, 5, 0, 0, none⟩] }, ⟨0x01, 5, 0, 0, none⟩, ⟨0x02, 5, 0, 0, none⟩, by decide, by decide⟩,
   ⟨{ Gleaner.init with kinds := [(1, some ⟨2, 1000, 0⟩)] }, ⟨1, 5, 1, 7, false, []⟩, 0, 8, by decide, by decide, by decide, by decide, by decide, by decide⟩,
   ⟨{ Gleaner.init with kinds := [(1, some ⟨0, 1000, 0⟩)] }, ⟨1, 5, 0, 0, false, [1]⟩, 1, 8, by decide, by decide, by decide, by decide, by decide⟩,
   ⟨{ Gleaner.init with kinds := [(1, some ⟨0, 1000, 0⟩)] }, ⟨1, 5, 0, 0, false, []⟩, 4, 8, by decide, by decide, by decide, by decide⟩,
   ⟨{ Gleaner.init with counters := full }, 1, 9000, 1, 8, (by decide +kernel), (by decide +kernel), by decide, by decide⟩,
   ⟨base, by decide⟩,
   ⟨gl { Gleaner.init with notices := [fr1] }, fr1, [], by decide, by decide⟩,
   ⟨base, fr1, by decide⟩,
   ⟨1, 5, base, by decide⟩,
   ⟨1, 5, gl { Gleaner.init with kinds := [(1, some ⟨2, 0, 0⟩)], counters := [⟨1, 5, 1, 0, false, []⟩] }, ⟨1, 5, 1, 0, false, []⟩, by decide⟩,
   ⟨15, { sen 511 { Sensor.init with throttle := true, last := some 2000 } with hold := [(15, 47)] }, 47, 48, true, by decide, by decide, by decide⟩⟩
theorem witness_reckoningCounter :
    (∃ (s : State), s.pins.vaux = true)
    ∧ (∃ (s : State), s.pins.vaux = true)
    ∧ (∃ (s : State), s.pins.vaux = true ∧ s.clock.owed ≠ 0 ∧ 127 ≤ s.clock.sinceSlew)
    ∧ (∃ (s : State) (θ : Int), s.clock.locked = false ∧ θ < -16000000)
    ∧ (∃ (s : State) (θ : Int), (s.clock.locked = true ∨ -16000000 ≤ θ)) :=
  ⟨⟨base, by decide⟩,
   ⟨base, by decide⟩,
   ⟨clk { Clock.init with owed := -1, sinceSlew := 127 }, by decide, by decide, by decide⟩,
   ⟨base, -16000001, by decide, by decide⟩,
   ⟨base, -16000000, .inr (by decide)⟩⟩
theorem witness_variantIsFused :
    (∃ (s t : State), step s = .next t)
    ∧ (∃ (s : State), s.variant < 16 ∧ s.nv.stepping < 256)
    ∧ (∃ (s : State), s.variant < 256)
    ∧ (∃ (p : Plan), (1 < p.at 8 2 ∨ 32 < p.at 10 1))
    ∧ (∃ (p : Plan) (v : Nat), 512 < p.at 8 2) :=
  ⟨⟨base, base.tick, by rfl⟩,
   ⟨base, by decide, by decide⟩,
   ⟨base, by decide⟩,
   ⟨⟨pl0.take 10 ++ [33]⟩, .inr (by decide)⟩,
   ⟨⟨pl0.take 8 ++ [1, 2]⟩, 1, by decide⟩⟩
theorem witness_rollbackCounter :
    (∃ (c : Instr) (s t : State), exec c s = .next t)
    ∧ (∃ (s t : State), s.nv.rollback ≤ 64 ∧ step s = .next t)
    ∧ (∃ (nv : NonVol) (i : FwImage), i.typ = 1 ∧ i.signed = true ∧ bitAt nv.revoked i.keySlot.val = false ∧ i.svn < nv.rollback)
    ∧ (∃ (s : State) (u : FwUpdate) (e : Nat), s.helm.update = some u ∧ s.helm.st = .paired ∧ s.helm.stopped = false ∧ u.image.typ ≠ 2 ∧ s.nv.fwRefusal u.image = some e)
    ∧ (∃ (i : FwImage) (e : Nat) (s : State), s.bu.stage = 2 ∧ s.bu.st = .running ∧ s.gleaner.fatal = false ∧ s.bu.took.getD 4 0 = 1 ∧ s.bu.took.getD 1 0 ≠ 0 ∧ s.bu.took.getD 0 0 % 64 = 0 ∧ s.nv.fwRefusal i = some e) :=
  ⟨⟨.refclkFault, clk { Clock.init with pllHeld := true }, clk { Clock.init with pllHeld := true }, rfl⟩,
   ⟨base, base.tick, by decide, by rfl⟩,
   ⟨{ base.nv with rollback := 1 }, { fw with typ := 1 }, by decide, by decide, by decide, by decide⟩,
   ⟨hm { base.helm with update := some (upd 0 false) }, upd 0 false, 0x01, by decide, by decide, by decide, by decide, by decide⟩,
   ⟨fw, 0x01, { bs 2 .running with bu := { (bs 2 .running).bu with took := [64, 1, 0, 0, 1, 0] } }, by decide, by decide, by decide, by decide, by decide, by decide, by decide⟩⟩
theorem witness_hbmStaysCanonical :
    ∃ (s t : State), memWf s.hbm = true ∧ step s = .next t :=
  ⟨base, base.tick, by decide, by rfl⟩
end Sys2Proof.Machine.Tests
end

section
/-! PROOFS. Accesses of the host: registers, the indirect pair, apertures and functions (spec/14 R343 to R353, R363, R364; spec/08 R208). -/
namespace Sys2Proof.Machine

/-! What reaches the machine: a function that exists, through PCIe. -/

theorem State.fnUp_zero {s : State} (h : s.pins.pcie = true) : s.fnUp 0 = true := by simp [State.fnUp, State.fnExists, h]

/-! Register writes (R343 to R346). -/

/-- R343: how a write is taken depends on its function, its length and its alignment alone. -/
theorem exec_registerWrite (f : FnId) (off : Fin 1048576) (v : List Byte) (s : State) :
    exec (.registerWrite f off v) s = .next (
      if s.fnUp f.val = false then s
      else if v.length = 4 ∧ off.val % 4 = 0 then s.writeHalf f.val off.val (leVal v)
      else if v.length = 8 ∧ off.val % 8 = 0 then s.writeWide f.val off.val (leVal v)
      else s.setFn f.val { s.fn f.val with advisory := true }) := by
  change execRegisterWrite f off v s = _
  unfold execRegisterWrite
  cases s.fnUp f.val with
  | false => rfl
  | true =>
    by_cases h4 : v.length = 4 ∧ off.val % 4 = 0
    · simp [h4]
    · by_cases h8 : v.length = 8 ∧ off.val % 8 = 0
      · simp [h8]
      · simp [h4, h8, State.onFn]

theorem exec_registerWrite_four {f : FnId} {off : Fin 1048576} {v : List Byte} {s : State} (hup : s.fnUp f.val = true)
    (hv : v.length = 4) (ho : off.val % 4 = 0) :
    exec (.registerWrite f off v) s = .next (s.writeHalf f.val off.val (leVal v)) := by
  rw [exec_registerWrite, if_neg (by simp [hup]), if_pos ⟨hv, ho⟩]

theorem exec_registerWrite_eight {f : FnId} {off : Fin 1048576} {v : List Byte} {s : State} (hup : s.fnUp f.val = true)
    (hv : v.length = 8) (ho : off.val % 8 = 0) :
    exec (.registerWrite f off v) s = .next (s.writeWide f.val off.val (leVal v)) := by
  rw [exec_registerWrite, if_neg (by simp [hup]), if_neg (by omega), if_pos ⟨hv, ho⟩]

theorem State.writeWide_of_wideReg {s : State} {f off : Nat} {old : Nat} {put : Nat → State}
    (h : s.wideReg f (barPlace f off) = some (old, put)) (v : Nat) :
    s.writeWide f off v = (put v).onFn f fun x => { x with lowLatch := tdel x.lowLatch off } := by
  unfold State.writeWide; rw [h]

/-- The low half of a 64-bit register is latched. -/
theorem State.writeHalf_of_wideReg {s : State} {f off : Nat} {old : Nat} {put : Nat → State}
    (h : s.wideReg f (barPlace f off) = some (old, put)) (v : Nat) :
    s.writeHalf f off v = s.onFn f fun x => { x with lowLatch := tset 0 x.lowLatch off (v + 1) } := by
  unfold State.writeHalf; rw [h]

/-- The high half of a 64-bit register whose low half `low` is latched writes both. -/
theorem State.writeHalf_of_latched {s : State} {f off : Nat} {old : Nat} {put : Nat → State} {low : Nat}
    (hhigh : s.wideReg f (barPlace f (off + 4)) = none) (ho : (off + 4) % 8 = 4)
    (hlow : s.wideReg f (barPlace f off) = some (old, put)) (hl : tget 0 (s.fn f).lowLatch off = low + 1) (v : Nat) :
    s.writeHalf f (off + 4) v = (put (low + 2 ^ 32 * v)).onFn f fun x => { x with lowLatch := tdel x.lowLatch off } := by
  unfold State.writeHalf
  rw [hhigh, if_pos ho, Nat.add_sub_cancel, hlow]
  simp only [hl]

/-- What neither starts nor ends a 64-bit register is written as a 32-bit register. -/
theorem State.writeHalf_of_narrow {s : State} {f off : Nat} (h : s.wideReg f (barPlace f off) = none)
    (hlow : off % 8 = 4 → s.wideReg f (barPlace f (off - 4)) = none) (v : Nat) :
    s.writeHalf f off v = s.write32 f (barPlace f off) v := by
  unfold State.writeHalf
  rw [h]
  by_cases ho : off % 8 = 4
  · rw [if_pos ho, hlow ho]
  · rw [if_neg ho]

/-- A high half lies in the page of its low half, and the 64-bit registers that take writes lie in these three pages. The cases are the pages of
Table 14-2 in the order of `barPlace`. -/
theorem barPlace_of_low_wideReg {s : State} {f off : Nat} (ho : off % 8 = 4) (h : s.wideReg f (barPlace f (off - 4)) ≠ none) :
    ∃ o, barPlace f off = .bringUp o ∨ barPlace f off = .time o ∨ barPlace f off = .aperture o := by
  have hpage : (off - 4) / 0x1000 = off / 0x1000 := by omega
  unfold barPlace at h ⊢
  rw [hpage] at h
  by_cases hf : f = 0
  · simp only [if_pos hf] at h ⊢
    split at h
    case h_2 => exact ⟨_, .inl rfl⟩
    case h_5 => exact ⟨_, .inr (.inl rfl)⟩
    case h_7 => exact ⟨_, .inr (.inr rfl)⟩
    case h_10 => (repeat' split at h) <;> exact absurd rfl h
    all_goals exact absurd rfl h
  · simp only [if_neg hf] at h ⊢
    split at h
    case h_2 => exact ⟨_, .inr (.inl rfl)⟩
    case h_3 => exact ⟨_, .inr (.inr rfl)⟩
    case h_6 => (repeat' split at h) <;> exact absurd rfl h
    all_goals exact absurd rfl h

/-- A write of 4 bytes to a page without 64-bit registers is a 32-bit write at its own offset. -/
theorem State.writeHalf_of_page {s : State} {f off : Nat}
    (h : ∀ o, barPlace f off ≠ .bringUp o ∧ barPlace f off ≠ .time o ∧ barPlace f off ≠ .aperture o) (v : Nat) :
    s.writeHalf f off v = s.write32 f (barPlace f off) v := by
  refine State.writeHalf_of_narrow ?_ (fun ho => ?_) v
  · unfold State.wideReg
    split
    case h_5 => rfl
    all_goals next e => simp [e] at h
  · refine Classical.byContradiction fun hw => ?_
    obtain ⟨o, e | e | e⟩ := barPlace_of_low_wideReg ho hw
    all_goals simp [e] at h

theorem exec_registerWrite_page {s : State} {f : FnId} {off : Fin 1048576} {v : List Byte} {p : BarPlace} (hup : s.fnUp f.val = true)
    (hv : v.length = 4) (ho : off.val % 4 = 0) (h : barPlace f.val off.val = p) (hp : ∀ o, p ≠ .bringUp o ∧ p ≠ .time o ∧ p ≠ .aperture o) :
    exec (.registerWrite f off v) s = .next (s.write32 f.val p (leVal v)) := by
  subst h
  exact (exec_registerWrite_four hup hv ho).trans (congrArg _ (State.writeHalf_of_page hp _))

/-- A 32-bit register of the physical function is written by the kind of its place. -/
theorem exec_registerWrite_narrow {s : State} {v : List Byte} (hp : s.pins.pcie = true) (hv : v.length = 4) {off : Fin 1048576}
    (ho : off.val % 4 = 0) (h : s.wideReg 0 (barPlace 0 off.val) = none)
    (hlow : off.val % 8 = 4 → s.wideReg 0 (barPlace 0 (off.val - 4)) = none) :
    exec (.registerWrite 0 off v) s = .next (s.write32 0 (barPlace 0 off.val) (leVal v)) :=
  (exec_registerWrite_four (State.fnUp_zero hp) hv ho).trans (congrArg _ (State.writeHalf_of_narrow h hlow _))

/-- R345: the two halves of a 64-bit register, one after the other, write it whole. -/
theorem exec_registerWrite_bufAddr_halves {lo hi : List Byte} {s t : State} (hp : s.pins.pcie = true) (hlo : lo.length = 4) (hhi : hi.length = 4)
    (ht : t = s.onFn 0 fun x => { x with lowLatch := tset 0 x.lowLatch 0x1018 (leVal lo + 1) }) :
    exec (.registerWrite 0 0x1018 lo) s = .next t
    ∧ exec (.registerWrite 0 0x101C hi) t = .next (State.onFn
      { t with bu := { s.bu with bufAddr := leVal lo + 2 ^ 32 * leVal hi } } 0 fun x => { x with lowLatch := tdel x.lowLatch 0x1018 }) := by
  have hpt : t.pins.pcie = true := by rw [ht]; exact hp
  have hl : tget 0 (t.fn 0).lowLatch 0x1018 = leVal lo + 1 := by simp [ht, State.onFn]
  have hbu : t.bu = s.bu := by rw [ht]; rfl
  constructor
  · rw [exec_registerWrite_four (State.fnUp_zero hp) hlo rfl, ht]
    exact congrArg _ (State.writeHalf_of_wideReg rfl _)
  · have hlow : t.wideReg 0 (barPlace 0 0x1018) = some (t.bu.bufAddr, fun v => { t with bu := { t.bu with bufAddr := v } }) := rfl
    rw [exec_registerWrite_four (State.fnUp_zero hpt) hhi rfl, ← hbu]
    exact congrArg _ (State.writeHalf_of_latched rfl rfl hlow hl _)

/-- R14: a selected bit takes the written value, another stays. -/
theorem wmField_bit (v : Nat) (old : Bool) :
    decide (wmField v 0 1 (boolNat old) = 1) = if bitAt v 16 = true then bitAt v 0 else old := by
  have hbit (i : Nat) : bitsAt v i 1 = boolNat (bitAt v i) := by
    simp only [bitsAt, bitAt, boolNat, Nat.testBit_eq_decide_div_mod_eq, Nat.shiftRight_eq_div_pow, Nat.pow_one, decide_eq_true_eq]
    split <;> omega
  unfold wmField
  rw [hbit, hbit]
  cases bitAt v (16 + 0) <;> cases bitAt v 0 <;> cases old <;> rfl

/-- R351: a write of the control word of a vector the function has. -/
theorem State.msixWrite_control {f n : Nat} (hn : n < vectors f) (v : Nat) (s : State) :
    s.msixWrite f (16 * n + 12) v = (
      if bitAt v 0 = true then s.setFn f { s.fn f with unmasked := (s.fn f).unmasked - (if bitAt (s.fn f).unmasked n = true then 2 ^ n else 0) }
      else if bitAt (s.fn f).pend n = true then State.setFn { s with out := s.out ++ [.msix f n] } f
        { s.fn f with unmasked := (s.fn f).unmasked ||| 2 ^ n, pend := (s.fn f).pend - 2 ^ n }
      else s.setFn f { s.fn f with unmasked := (s.fn f).unmasked ||| 2 ^ n }) := by
  have hdiv : (16 * n + 12) / 16 = n := by omega
  unfold State.msixWrite
  rw [hdiv, if_neg (by omega), if_neg (by omega)]

/-! Register reads (R344, R345). -/

theorem exec_registerLowHalfRead (f : FnId) (off : Fin 1048576) (s : State) :
    exec (.registerLowHalfRead f off) s = .next (
      if s.fnUp f.val = false then s
      else if off.val % 4 = 0 then { (s.read32 f.val off.val).2 with out := (s.read32 f.val off.val).2.out ++ [.regRead (s.read32 f.val off.val).1] }
      else State.setFn { s with out := s.out ++ [.unsupported f.val] } f.val { s.fn f.val with advisory := true }) := by
  change execRegisterLowHalfRead f off s = _
  unfold execRegisterLowHalfRead
  cases s.fnUp f.val with
  | false => rfl
  | true =>
    by_cases ho : off.val % 4 = 0
    · simp [ho]
    · simp only [ho, if_false]; rfl

theorem exec_registerLowHalfRead_eq {f : FnId} {off : Fin 1048576} {s t : State} {v : Nat} (hup : s.fnUp f.val = true) (ho : off.val % 4 = 0)
    (h : s.read32 f.val off.val = (v, t)) : exec (.registerLowHalfRead f off) s = .next { t with out := t.out ++ [.regRead v] } := by
  rw [exec_registerLowHalfRead, if_neg (by simp [hup]), if_pos ho, h]

/-- A place whose reads `State.blockReg` decides alone: a register block, and of the indirect pair's all but its data. These are the places that
the last arm of `State.read32` serves. -/
def BarPlace.IsBlock (p : BarPlace) : Prop :=
  ∃ o, p = .ident o ∨ p = .bringUp o ∨ p = .fault o ∨ p = .thermal o ∨ p = .time o ∨ p = .aperture o ∨ (p = .indirect o ∧ o ≠ 8)

section
variable {s : State} {f off : Nat} (hp : (barPlace f off).IsBlock)
include hp

theorem State.read32_four {v : Nat} (h : s.blockReg f (barPlace f off) = some (4, v)) : s.read32 f off = (v, s) := by
  unfold State.read32
  split
  case h_5 => rw [h]; rfl
  all_goals next e => simp [BarPlace.IsBlock, e] at hp

theorem State.read32_eight {v : Nat} (h : s.blockReg f (barPlace f off) = some (8, v)) :
    s.read32 f off = (v % 2 ^ 32, s.onFn f fun x => { x with highCap := tset 0 x.highCap off (v / 2 ^ 32 + 1) }) := by
  unfold State.read32
  split
  case h_5 => rw [h]; rfl
  all_goals next e => simp [BarPlace.IsBlock, e] at hp

theorem State.read32_unassigned (h : s.blockReg f (barPlace f off) = none) (ho : off % 8 = 0) : s.read32 f off = (0, s) := by
  unfold State.read32
  split
  case h_5 => rw [h, if_neg (by omega)]
  all_goals next e => simp [BarPlace.IsBlock, e] at hp

/-- The high half that the read of the low half captured. -/
theorem State.read32_captured {v w : Nat} (h : s.blockReg f (barPlace f off) = none) (ho : off % 8 = 4)
    (hlow : s.blockReg f (barPlace f (off - 4)) = some (8, v)) (hc : tget 0 (s.fn f).highCap (off - 4) = w + 1) :
    s.read32 f off = (w, s.onFn f fun x => { x with highCap := tdel x.highCap (off - 4) }) := by
  unfold State.read32
  split
  case h_5 => rw [h, if_pos ho, hlow]; simp only [hc]
  all_goals next e => simp [BarPlace.IsBlock, e] at hp
end

/-- The low half of RECKON captures the high one. -/
theorem exec_registerLowHalfRead_reckonLow {s : State} (hp : s.pins.pcie = true) :
    ∃ t : State, exec (.registerLowHalfRead 0 0x4000) s = .next t ∧ t.out = s.out ++ [.regRead (s.reckon % 2 ^ 32)]
      ∧ t.pins.pcie = true ∧ tget 0 (t.fn 0).highCap 0x4000 = s.reckon / 2 ^ 32 + 1 := by
  have hcap : tget 0 ((s.onFn 0 fun x => { x with highCap := tset 0 x.highCap 0x4000 (s.reckon / 2 ^ 32 + 1) }).fn 0).highCap 0x4000
      = s.reckon / 2 ^ 32 + 1 := by simp [State.onFn]
  exact ⟨_, exec_registerLowHalfRead_eq (State.fnUp_zero hp) rfl (State.read32_eight (off := 0x4000) ⟨0, by decide⟩ rfl), rfl, hp, hcap⟩

theorem exec_registerLowHalfRead_reckonHigh {s : State} {w : Nat} (hp : s.pins.pcie = true) (hc : tget 0 (s.fn 0).highCap 0x4000 = w + 1) :
    exec (.registerLowHalfRead 0 0x4004) s = .next { (s.onFn 0 fun x => { x with highCap := tdel x.highCap 0x4000 }) with
      out := s.out ++ [.regRead w] } :=
  exec_registerLowHalfRead_eq (State.fnUp_zero hp) rfl (State.read32_captured (off := 0x4004) ⟨4, by decide⟩ rfl rfl rfl hc)

/-- R345: the two halves of RECKON read one value, however far the counter has run on between them. -/
theorem exec_registerLowHalfRead_reckon {s : State} (hp : s.pins.pcie = true) :
    ∃ t u : State, exec (.registerLowHalfRead 0 0x4000) s = .next t ∧ t.out = s.out ++ [.regRead (s.reckon % 2 ^ 32)]
      ∧ ∀ (r : Nat), exec (.registerLowHalfRead 0 0x4004) { t with reckon := r } = .next u → u.out = t.out ++ [.regRead (s.reckon / 2 ^ 32)] := by
  obtain ⟨t, hlow, hout, hpt, hcap⟩ := exec_registerLowHalfRead_reckonLow hp
  refine ⟨t, s, hlow, hout, fun r h => ?_⟩
  have hhigh := exec_registerLowHalfRead_reckonHigh (s := { t with reckon := r }) hpt hcap
  exact congrArg State.out (Host.Outcome.next.inj (h.symm.trans hhigh))

/-! The indirect pair (R363, R364, R208). -/

theorem State.indAdvance_eq (s : State) (n : Nat) :
    s.indAdvance n = if s.ind.inc = true then { s with ind := { s.ind with addr := (s.ind.addr + n) % 2 ^ 32 } } else s := by
  cases hi : s.ind.inc <;> simp [State.indAdvance, State.onInd, hi]

theorem exec_indDataWrite_down {s : State} (hp : s.pins.pcie = false) (v : BitVec 64) (e : Bool) : exec (.indDataWrite v e) s = .next s := by
  change execIndDataWrite v e s = _
  simp [execIndDataWrite, State.pfUp, hp]

theorem exec_indDataRead_down {s : State} (hp : s.pins.pcie = false) (e : Bool) : exec (.indDataRead e) s = .next s := by
  change execIndDataRead e s = _
  simp [execIndDataRead, State.pfUp, hp]

theorem exec_indDataWrite {s : State} (hp : s.pins.pcie = true) (v : BitVec 64) (e : Bool) :
    exec (.indDataWrite v e) s = .next (s.indWrite (if e = true then v.toNat else v.toNat % 2 ^ 32) e) := by
  change execIndDataWrite v e s = _
  simp [execIndDataWrite, State.pfUp, hp]

/-- Bytes of a number cut to their width. -/
theorem leBytes_mod (n x : Nat) : leBytes n (x % 2 ^ (8 * n)) = leBytes n x := by
  induction n generalizing x with
  | zero => rfl
  | succ n ih =>
    have hpow : 2 ^ (8 * (n + 1)) = 256 * 2 ^ (8 * n) := by rw [Nat.mul_succ, Nat.pow_add]; omega
    have hdiv : x % 2 ^ (8 * (n + 1)) / 256 = x / 256 % 2 ^ (8 * n) := by rw [hpow, Nat.mod_mul_right_div_self]
    have hmod : x % 2 ^ (8 * (n + 1)) % 2 ^ 8 = x % 2 ^ 8 := by rw [hpow]; exact Nat.mod_mul_right_mod ..
    simp only [leBytes]
    rw [hdiv, ih]
    exact congrArg (· :: _) (BitVec.eq_of_toNat_eq (by simpa using hmod))

/-- A write of IND_DATA carries the bytes of its width. -/
theorem leBytes_indData {n : Nat} {e : Bool} (hn : n = if e = true then 8 else 4) (v : BitVec 64) :
    leBytes n (if e = true then v.toNat else v.toNat % 2 ^ 32) = leBytes n v.toNat := by
  subst hn
  cases e with
  | true => rfl
  | false => exact leBytes_mod 4 v.toNat

section
variable {s : State} {n : Nat} {e : Bool} (hn : n = if e = true then 8 else 4)
include hn

theorem State.indWrite_unassigned (h : s.svcRead s.ind.addr n = none) (v : Nat) : s.indWrite v e = s.indError.indAdvance n := by
  subst hn
  unfold State.indWrite
  simp only [h]; rfl

theorem State.indWrite_cal (h : s.svcRead s.ind.addr n ≠ none) {sec off : Nat} (hc : calPlace s.ind.addr = some (sec, off))
    (hw : ∀ i, i < n → s.calWritable sec (off + i) = true) (v : Nat) :
    s.indWrite v e = State.indAdvance (if sec = 6 then
      (s.calWrite sec off (leBytes n v)).resync (memRead s.cal (calBase 6) 1152) else s.calWrite sec off (leBytes n v)) n := by
  subst hn
  unfold State.indWrite
  have hall : ((List.range (if e = true then 8 else 4)).all fun i => s.calWritable sec (off + i)) = true := by simpa using hw
  simp only [h, hc, hall, Option.isNone_iff_eq_none, if_false, if_true]

/-- R208: one byte that may not be written rejects the whole write. -/
theorem State.indWrite_rejected (h : s.svcRead s.ind.addr n ≠ none) {sec off i : Nat} (hc : calPlace s.ind.addr = some (sec, off))
    (hi : i < n) (hw : s.calWritable sec (off + i) = false) (v : Nat) :
    s.indWrite v e = State.indAdvance { s with ind := { s.ind with rejected := true, errAddr := s.ind.addr } } n := by
  subst hn
  unfold State.indWrite
  have hall : ¬ ((List.range (if e = true then 8 else 4)).all fun i => s.calWritable sec (off + i)) = true := by
    simpa using ⟨i, hi, hw⟩
  simp only [h, hc, hall, Option.isNone_iff_eq_none, if_false]; rfl

theorem State.indWrite_register (h : s.svcRead s.ind.addr n ≠ none) (hc : calPlace s.ind.addr = none) (v : Nat) :
    s.indWrite v e = State.indAdvance (
      if 0x02000000 ≤ s.ind.addr ∧ s.ind.addr < 0x04000000 ∧ s.ind.addr % 0x200 < 8 ∧ bitAt (v * 2 ^ (8 * (s.ind.addr % 8))) 53 = true then
        s.setPort ((s.ind.addr - 0x02000000) / 0x200) { s.port ((s.ind.addr - 0x02000000) / 0x200) with lossSeen := false } else s) n := by
  subst hn
  unfold State.indWrite
  simp only [h, hc, Option.isNone_iff_eq_none, if_false]
end

theorem State.calWritable_untrained {s : State} (h : s.stageDone 5 = false) (sec off : Nat) : s.calWritable sec off = true := by
  simp [State.calWritable, h]

theorem State.calWritable_owned {s : State} {sec off l : Nat} (h : s.stageDone 5 = true) (ho : s.calOwner sec off = some l) :
    s.calWritable sec off = if l < 512 then decide ((s.link l).st = .dark ∨ (s.link l).st = .withdrawn) else decide ((s.port (l - 512)).st = .dark) := by
  simp [State.calWritable, State.calFree, h, ho, Bool.decide_or]

theorem exec_indDataRead_eq {s t : State} {e : Bool} {v : Nat} (hp : s.pins.pcie = true) (h : s.indRead e = (v, t)) :
    exec (.indDataRead e) s = .next { t with out := t.out ++ [.regRead v] } := by
  change execIndDataRead e s = _
  simp [execIndDataRead, State.pfUp, hp, h]

section
variable {s : State} {n : Nat} {e : Bool} (hn : n = if e = true then 8 else 4)
include hn

theorem State.indRead_unassigned (h : s.svcRead s.ind.addr n = none) : s.indRead e = (0, s.indError.indAdvance n) := by
  subst hn
  unfold State.indRead
  simp only [h]

/-- A read of 8 bytes, of the calibration state or of a crossing word captures nothing. -/
theorem State.indRead_whole {v : Nat} (h : s.svcRead s.ind.addr n = some v)
    (hw : e = true ∨ (calPlace s.ind.addr).isSome = true ∨ crossWord s.ind.addr = true) : s.indRead e = (v, s.indAdvance n) := by
  subst hn
  unfold State.indRead
  simp only [h, hw, if_true]
end

section
variable {s : State} {v : Nat} (h : s.svcRead s.ind.addr 4 = some v) (hc : calPlace s.ind.addr = none) (hx : crossWord s.ind.addr = false)
include h hc hx

/-- R364: the read of a low half captures the high one. -/
theorem State.indRead_low {r : Nat} (ha : s.ind.addr % 8 = 0) (hr : s.svcReg s.ind.addr = some r) :
    s.indRead false = (v, State.indAdvance { s with ind := { s.ind with cap := some (s.ind.addr + 4, r / 2 ^ 32) } } 4) := by
  unfold State.indRead
  simp [h, hc, hx, ha, hr, State.onInd]

theorem State.indRead_captured {w : Nat} (ha : s.ind.addr % 8 ≠ 0) (hw : s.ind.cap = some (s.ind.addr, w)) :
    s.indRead false = (w, State.indAdvance { s with ind := { s.ind with cap := none } } 4) := by
  unfold State.indRead
  simp [h, hc, hx, ha, hw, State.onInd]

theorem State.indRead_uncaptured (ha : s.ind.addr % 8 ≠ 0) (hw : ∀ w, s.ind.cap ≠ some (s.ind.addr, w)) :
    s.indRead false = (v, s.indAdvance 4) := by
  unfold State.indRead
  rcases hcap : s.ind.cap with _ | ⟨b, w⟩
  · simp [h, hc, hx, ha]
  · have hb : b ≠ s.ind.addr := fun e => hw w (by rw [hcap, e])
    simp [h, hc, hx, ha, hb]
end

/-! Apertures (R352, R353). -/

/-- An access within one aligned group of 8 bytes is one piece. -/
theorem aptPieces_aligned {a n : Nat} (h1 : 1 ≤ n) (h8 : n ≤ 8) (ha : a % 8 = 0) : aptPieces a n = [(a, n)] := by
  have hlen : pieceLen a n = n := by
    unfold pieceLen
    dsimp only
    rw [if_neg (by omega), if_neg (by omega)]
    omega
  obtain ⟨m, rfl⟩ : ∃ m, n = m + 1 := ⟨n - 1, by omega⟩
  unfold aptPieces
  rw [if_neg (by omega), piecesOf, if_neg (by omega), hlen, Nat.sub_self]
  cases m <;> rfl

theorem State.aptSend_without_barn {s : State} {f : Nat} (h : s.barnExists f = false) (a n : Nat) (read : Option (Nat × Nat)) (bs : List Byte) :
    s.aptSend f a n read bs = s.aptRefused f a n 0x0F read := by
  unfold State.aptSend
  simp [h]

/-! What a packet does on its way out of the host bridge leaves the registers of every function as they are. -/

theorem State.ite_fns {c : Prop} [Decidable c] {s t u : State} (ht : t.fns = s.fns) (hu : u.fns = s.fns) :
    (if c then t else u).fns = s.fns := by
  split
  · exact ht
  · exact hu

@[simp] theorem State.toPort_fns (s : State) (port : Nat) (p : Pkt) (arr : Option (Nat × Nat)) : (s.toPort port p arr).fns = s.fns := rfl
@[simp] theorem State.setSwin_fns (s : State) (k : Nat) (w : SrcWin) : (s.setSwin k w).fns = s.fns := rfl

theorem State.linkSend_fns {s t : State} {d : Nat} {q : LinkPkt} (h : s.linkSend d q = some t) : t.fns = s.fns := by
  unfold State.linkSend at h
  dsimp only at h
  split at h
  · cases h; rfl
  · split at h
    · cases h; rfl
    · cases h

theorem State.linkSend_getD_fns {s e : State} (d : Nat) (q : LinkPkt) (he : e.fns = s.fns) : ((s.linkSend d q).getD e).fns = s.fns := by
  cases h : s.linkSend d q with
  | none => exact he
  | some t => exact State.linkSend_fns h

@[simp] theorem State.unreachedAt_fns (s : State) (d : Nat) (p : Pkt) : (s.unreachedAt d p).fns = s.fns := by
  unfold State.unreachedAt
  dsimp only
  split
  · rfl
  · split
    · rfl
    · split <;> rfl

@[simp] theorem State.inside_fns (s : State) (d : Nat) (p : Pkt) : (s.inside d p).fns = s.fns := by
  unfold State.inside
  split
  · rfl
  · exact State.linkSend_getD_fns _ _ (s.unreachedAt_fns d p)

@[simp] theorem State.towardPort_fns (s : State) (d port : Nat) (p : Pkt) (arr : Option (Nat × Nat)) : (s.towardPort d port p arr).fns = s.fns := by
  unfold State.towardPort
  split
  · rfl
  · exact State.linkSend_getD_fns _ _ (s.unreachedAt_fns d p)

@[simp] theorem State.meterTx_fns (s : State) (p : Pkt) : (s.meterTx p).fns = s.fns := by
  unfold State.meterTx
  exact State.ite_fns rfl rfl

@[simp] theorem State.dispatch_fns (s : State) (p : Pkt) : (s.dispatch p).fns = s.fns := by
  unfold State.dispatch
  split
  · dsimp only
    split <;> simp
  · split <;> rfl

@[simp] theorem State.askWindow_fns (s : State) (dest tc : Nat) : (s.askWindow dest tc).fns = s.fns := by
  unfold State.askWindow
  exact State.ite_fns rfl (State.dispatch_fns _ _)

@[simp] theorem State.serve_fns (s : State) (k : Nat) (p : Pkt) : (s.serve k p).fns = s.fns := by
  unfold State.serve
  simp

@[simp] theorem State.atWindow_fns (s : State) (p : Pkt) : (s.atWindow p).fns = s.fns := by
  unfold State.atWindow
  dsimp only
  split <;> simp

@[simp] theorem State.egress_fns (s : State) (p : Pkt) : (s.egress p).fns = s.fns := by
  unfold State.egress
  split
  · simp
  · split <;> simp

@[simp] theorem egressAll_fns (s : State) (ps : List Pkt) : (egressAll s ps).fns = s.fns := by
  induction ps generalizing s with
  | nil => rfl
  | cons p ps ih => rw [egressAll, ih, State.egress_fns]

@[simp] theorem aptPump_fns (kept : List (Nat × Pkt)) (s : State) (l : List (Nat × Pkt)) : (aptPump kept s l).fns = s.fns := by
  induction l generalizing kept s with
  | nil => rfl
  | cons x l ih =>
    unfold aptPump
    split
    · exact ih _ _
    · rw [ih, State.egress_fns]

theorem State.stampPair_fns (s : State) (p : Pkt) : (s.stampPair p).2.fns = s.fns := by
  unfold State.stampPair
  split
  · rfl
  · dsimp only
    split <;> rfl

theorem stampAll_fns (s : State) (ps : List Pkt) : (stampAll s ps).2.fns = s.fns := by
  induction ps generalizing s with
  | nil => rfl
  | cons p ps ih => exact (ih _).trans (s.stampPair_fns p)

theorem State.submit_fns {s t : State} {p : Pkt} {engine : Bool} {ps : List Pkt} (h : s.submit p engine = .inr (ps, t)) : t.fns = s.fns := by
  unfold State.submit at h
  split at h
  · cases h
  · split at h
    · cases h
    · cases h
      exact stampAll_fns s _

@[simp] theorem State.aptReadDone_fns (s : State) (id : Nat) : (s.aptReadDone id).fns = s.fns := by
  unfold State.aptReadDone
  split
  · rfl
  · split <;> rfl

@[simp] theorem State.aptPiece_fns (s : State) (id off : Nat) (bs : Option (List Byte)) : (s.aptPiece id off bs).fns = s.fns :=
  State.aptReadDone_fns _ id

theorem State.fn_of_fns {s t : State} (h : t.fns = s.fns) (j : Nat) : t.fn j = s.fn j := congrArg (tget Fn.init · j) h

/-- A refused piece writes the error registers of its function and leaves where each aperture lies. -/
theorem State.aptRefused_aptBase (s : State) (f a n st : Nat) (read : Option (Nat × Nat)) (j : Nat) :
    ((s.aptRefused f a n st read).fn j).aptBase = (s.fn j).aptBase := by
  have herr : ((s.aptError f a st).fn j).aptBase = (s.fn j).aptBase := by
    unfold State.aptError
    rw [State.fn_setFn]
    split
    · next e => rw [e]
    · rfl
  have hfns : (s.aptRefused f a n st read).fns = (s.aptError f a st).fns := by
    unfold State.aptRefused
    cases read with
    | none => rfl
    | some r => exact State.aptPiece_fns _ _ _ _
  rw [State.fn_of_fns hfns, herr]

theorem State.aptSend_aptBase (s : State) (f a n : Nat) (read : Option (Nat × Nat)) (bs : List Byte) (j : Nat) :
    ((s.aptSend f a n read bs).fn j).aptBase = (s.fn j).aptBase := by
  unfold State.aptSend
  split
  · exact s.aptRefused_aptBase ..
  · split
    · exact s.aptRefused_aptBase ..
    · dsimp only
      split
      · exact s.aptRefused_aptBase ..
      · next h =>
        have hfns := State.submit_fns h
        refine congrArg Fn.aptBase (State.fn_of_fns (State.ite_fns ?_ ?_) j)
        · exact (egressAll_fns _ _).trans hfns
        · exact (aptPump_fns _ _ _).trans hfns

/-! The two accesses. -/

theorem exec_apertureRead (f : FnId) (off : Fin 268435456) (n : Fin 4097) (s : State) : exec (.apertureRead f off n) s = .next (
    if s.fnUp f.val = true then aptReadAll f.val ((s.fn f.val).aptBase + off.val) n.val s else s) := by
  change execApertureRead f off n s = _
  rfl

/-- One piece of a write through the aperture of function `f` at offset `off`, where the aperture lies now. -/
def State.aptWritePiece (f off : Nat) (bs : List Byte) (s : State) (x : Nat × Nat) : State :=
  s.aptSend f x.1 x.2 none ((bs.drop (x.1 - ((s.fn f).aptBase + off))).take x.2)

/-- The pieces of one write all find the aperture where the first one did. -/
theorem foldl_aptWritePiece (f off base : Nat) (bs : List Byte) (ps : List (Nat × Nat)) (s : State) (h : (s.fn f).aptBase = base) :
    ps.foldl (fun s x => s.aptSend f x.1 x.2 none ((bs.drop (x.1 - (base + off))).take x.2)) s = ps.foldl (State.aptWritePiece f off bs) s := by
  induction ps generalizing s with
  | nil => rfl
  | cons x ps ih =>
    rw [List.foldl_cons, List.foldl_cons, ih _ ((s.aptSend_aptBase ..).trans h)]
    unfold State.aptWritePiece
    rw [h]

theorem exec_apertureWrite (f : FnId) (off : Fin 268435456) (bs : List Byte) (s : State) : exec (.apertureWrite f off bs) s = .next (
    if s.fnUp f.val = true then
      (aptPieces ((s.fn f.val).aptBase + off.val) bs.length).foldl (State.aptWritePiece f.val off.val bs) s else s) := by
  change execApertureWrite f off bs s = _
  unfold execApertureWrite
  rw [← foldl_aptWritePiece f.val off.val _ bs _ s rfl]

/-! A piece through the aperture of a function without a barn. -/

theorem State.aptReadDone_of_fresh {s : State} {id : Nat} (h : ∀ r ∈ s.aptReads, r.id ≠ id) : s.aptReadDone id = s := by
  have hfind : (s.aptReads.find? fun r => decide (r.id = id)) = none := List.find?_eq_none.mpr (by simpa using h)
  unfold State.aptReadDone
  rw [hfind]

/-- The last host read is answered with ones once nothing is awaited and a piece has failed. -/
theorem State.aptReadDone_failed {s : State} {l : List AptRead} {r : AptRead} (hs : s.aptReads = l ++ [r]) (hl : ∀ x ∈ l, x.id ≠ r.id)
    (hleft : r.left = 0) (hbad : r.bad = true) :
    s.aptReadDone r.id = { s with aptReads := l, out := s.out ++ [.hostRead r.fn r.addr (List.replicate r.len 0xFF#8)] } := by
  have hfind : (s.aptReads.find? fun x => decide (x.id = r.id)) = some r := by
    have hnone : (l.find? fun x => decide (x.id = r.id)) = none := List.find?_eq_none.mpr (by simpa using hl)
    simp [hs, hnone]
  have hfilter : (s.aptReads.filter fun x => decide (x.id ≠ r.id)) = l := by
    have hkeep : (l.filter fun x => decide (x.id ≠ r.id)) = l := List.filter_eq_self.mpr (by simpa using hl)
    rw [hs, List.filter_append, hkeep]
    simp
  unfold State.aptReadDone
  rw [hfind]
  simp only [hleft, hbad, hfilter, if_true]

/-- The failure of the one piece that the last host read awaits. -/
theorem State.aptPiece_failed {s : State} {l : List AptRead} {r : AptRead} (hs : s.aptReads = l ++ [r]) (hl : ∀ x ∈ l, x.id ≠ r.id)
    (hleft : r.left = 1) (off : Nat) :
    s.aptPiece r.id off none = { s with aptReads := l, out := s.out ++ [.hostRead r.fn r.addr (List.replicate r.len 0xFF#8)] } := by
  have hmap : (s.aptReads.map fun x => if x.id ≠ r.id then x else { x with left := x.left - 1, bad := true })
      = l ++ [{ r with left := 0, bad := true }] := by
    have hkeep : (l.map fun x => if x.id ≠ r.id then x else { x with left := x.left - 1, bad := true }) = l :=
      (List.map_congr_left fun x hx => if_pos (hl x hx)).trans (List.map_id l)
    rw [hs, List.map_append, hkeep]
    simp [hleft]
  calc s.aptPiece r.id off none
      = State.aptReadDone { s with aptReads := l ++ [{ r with left := 0, bad := true }] } r.id :=
        congrArg (fun m => State.aptReadDone { s with aptReads := m } r.id) hmap
    _ = _ := State.aptReadDone_failed (r := { r with left := 0, bad := true }) rfl hl rfl rfl

/-- R353: a host read of one piece before the barn exists ends with 0x0F and returns ones. -/
theorem aptReadAll_without_barn {f a n : Nat} {s : State} (h1 : 1 ≤ n) (h8 : n ≤ 8) (ha : a % 8 = 0) (hb : s.barnExists f = false)
    (hid : ∀ r ∈ s.aptReads, r.id ≠ s.aptNext) :
    aptReadAll f a n s = { (s.aptError f a 0x0F).onFctr f (fun c => c.refuse 0x0F) with
      aptNext := s.aptNext + 1, out := s.out ++ [.hostRead f a (List.replicate n 0xFF#8)] } := by
  have hread : State.aptRefused { s with aptNext := s.aptNext + 1, aptReads := s.aptReads ++ [⟨s.aptNext, f, a, n, 1, false, []⟩] }
      f a n 0x0F (some (s.aptNext, a)) = { (s.aptError f a 0x0F).onFctr f (fun c => c.refuse 0x0F) with
      aptNext := s.aptNext + 1, out := s.out ++ [.hostRead f a (List.replicate n 0xFF#8)] } :=
    State.aptPiece_failed (r := ⟨s.aptNext, f, a, n, 1, false, []⟩) rfl hid rfl (a - a)
  unfold aptReadAll
  rw [aptPieces_aligned h1 h8 ha]
  simp only [List.foldl_cons, List.foldl_nil, List.length_singleton]
  rw [State.aptSend_without_barn (by exact hb), hread]
  exact State.aptReadDone_of_fresh hid

/-- R353: a host write of one piece before the barn exists. -/
theorem foldl_aptWritePiece_without_barn {f off : Nat} {bs : List Byte} {a : Nat} {s : State} (h1 : 1 ≤ bs.length) (h8 : bs.length ≤ 8)
    (ha : a % 8 = 0) (hb : s.barnExists f = false) :
    (aptPieces a bs.length).foldl (State.aptWritePiece f off bs) s = (s.aptError f a 0x0F).onFctr f fun c => c.refuse 0x0F := by
  rw [aptPieces_aligned h1 h8 ha, List.foldl_cons, List.foldl_nil]
  exact State.aptSend_without_barn hb ..

/-! Functions (R348). -/

theorem exec_functionLevelReset (f : FnId) (s : State) : exec (.functionLevelReset f) s = .next (if s.fnUp f.val = true then
    (s.releaseClaims fun who => decide (who = idFn f.val)).onFn f.val fun x =>
      { x with table := [], unmasked := 0, pend := 0, aptBase := 0, aptLast := 0, aptErr := false } else s) := by
  change execFunctionLevelReset f s = _
  unfold execFunctionLevelReset
  cases s.fnUp f.val <;> rfl

theorem exec_vfEnableChange (en : Bool) (n : Fin 256) (s : State) : exec (.vfEnableChange en n) s = .next (if s.pins.pcie = true then
    ((List.range 256).filter fun f => s.fnExists f && !State.fnExists { s with vfEnable := en, numVfs := n.val } f).foldl
      (fun s f => (s.releaseClaims fun who => decide (who = idVf f)).setFn f Fn.init) { s with vfEnable := en, numVfs := n.val } else s) := by
  change execVfEnableChange en n s = _
  rfl

/-- Settles O50: each clause is the lemma above about its command. The one that takes more than its own command's branches is the aperture write,
whose pieces are sent one after the other: none of them moves the aperture for the next (`State.aptSend_aptBase`). -/
theorem registerAccess : Obligations.RegisterAccess := by
  unfold Obligations.RegisterAccess
  refine ⟨exec_registerWrite, ?wide, fun lo hi s t hp hlo hhi ht => exec_registerWrite_bufAddr_halves hp hlo hhi ht, ?narrow, ?pages,
    fun f n v s hn => State.msixWrite_control hn v s, exec_registerLowHalfRead, ?block, ?ident,
    fun s hp => exec_registerLowHalfRead_reckon hp, fun v e s hp => ⟨exec_indDataWrite_down hp v e, exec_indDataRead_down hp e⟩, ?indWrite,
    fun s sec off h => State.calWritable_untrained h sec off, fun s sec off l h ho => State.calWritable_owned h ho,
    ?indUnassigned, ?indWhole, ?indLow, ?indCaptured, ?indUncaptured, State.indAdvance_eq,
    fun f off n bs s => ⟨exec_apertureRead f off n s, exec_apertureWrite f off bs s⟩, ?aptRead, ?aptWrite, fun f s a st => rfl,
    exec_functionLevelReset, ?vfDown, ?vfUp⟩
  case wide =>
    intro f off v s old put hup hv ho hw
    exact (exec_registerWrite_eight hup hv ho).trans (congrArg _ (State.writeWide_of_wideReg hw _))
  case narrow =>
    intro v s n hp hv hn
    subst hn
    have narrow {off : Fin 1048576} := exec_registerWrite_narrow (off := off) hp hv
    refine ⟨narrow rfl rfl fun _ => rfl, narrow rfl rfl fun _ => rfl, narrow rfl rfl fun _ => rfl, narrow rfl rfl fun _ => rfl,
      narrow rfl rfl fun _ => rfl, narrow rfl rfl fun _ => rfl, ?ppsSeen, narrow rfl rfl fun _ => rfl, ?setback,
      narrow rfl rfl fun _ => rfl, ?inc, narrow rfl rfl fun _ => rfl, narrow rfl rfl fun _ => rfl, narrow rfl rfl fun _ => rfl⟩
    case ppsSeen =>
      refine (narrow rfl rfl fun _ => rfl).trans (congrArg _ ?_)
      exact ite_congr (propext (and_iff_right rfl)) (fun _ => rfl) fun _ => rfl
    case setback =>
      refine (narrow rfl rfl fun _ => rfl).trans (congrArg _ ?_)
      exact ite_congr (propext (and_iff_right rfl)) (fun _ => rfl) fun _ => rfl
    case inc =>
      rw [← wmField_bit]
      exact narrow rfl rfl fun _ => rfl
  case pages =>
    intro f off v s hup hv ho
    refine ⟨fun o h => exec_registerWrite_page hup hv ho h (by simp), fun b o h => exec_registerWrite_page hup hv ho h (by simp), fun o h => ?_⟩
    rcases h with h | h | h | h <;> exact exec_registerWrite_page hup hv ho h (by simp)
  case block =>
    intro f off v s hup ho hp
    exact ⟨fun h => exec_registerLowHalfRead_eq hup ho (State.read32_four hp h),
      fun h => exec_registerLowHalfRead_eq hup ho (State.read32_eight hp h),
      fun h h8 => exec_registerLowHalfRead_eq hup ho (State.read32_unassigned hp h h8)⟩
  case ident =>
    intro s hp
    exact exec_registerLowHalfRead_eq (State.fnUp_zero hp) rfl (State.read32_four (off := 0) ⟨0, by decide⟩ rfl)
  case indWrite =>
    intro v e n s hp hn
    rw [exec_indDataWrite hp]
    refine ⟨fun h => congrArg _ (State.indWrite_unassigned hn h _), fun h => ⟨fun sec off hc hw => ?_,
      fun sec off i hc hi hw => congrArg _ (State.indWrite_rejected hn h hc hi hw _), fun hc => congrArg _ (State.indWrite_register hn h hc _)⟩⟩
    rw [State.indWrite_cal hn h hc hw, leBytes_indData hn]
  case indUnassigned => exact fun e n s hp hn h => exec_indDataRead_eq hp (State.indRead_unassigned hn h)
  case indWhole => exact fun e n v s hp hn h hw => exec_indDataRead_eq hp (State.indRead_whole hn h hw)
  case indLow => exact fun r v s hp h hc hx ha hr => exec_indDataRead_eq hp (State.indRead_low h hc hx ha hr)
  case indCaptured => exact fun w v s hp h hc hx ha hw => exec_indDataRead_eq hp (State.indRead_captured h hc hx ha hw)
  case indUncaptured => exact fun v s hp h hc hx ha hw => exec_indDataRead_eq hp (State.indRead_uncaptured h hc hx ha hw)
  case aptRead =>
    intro f off n a s hup h1 h8 hb he ha hid
    subst he
    rw [exec_apertureRead, if_pos hup, aptReadAll_without_barn h1 h8 ha hb hid]
  case aptWrite =>
    intro f off bs a s hup h1 h8 hb he ha
    subst he
    rw [exec_apertureWrite, if_pos hup, foldl_aptWritePiece_without_barn h1 h8 ha hb]
  case vfDown =>
    intro en n s hp
    rw [exec_vfEnableChange, if_neg (by simp [hp])]
  case vfUp =>
    intro en n s u hp hu
    subst hu
    rw [exec_vfEnableChange, if_pos hp]

end Sys2Proof.Machine
end

section
/-! PROOFS. Vector arithmetic and bitwise instructions (spec/02 R57; spec/04 R92, R105, R106). -/
namespace Sys2Proof.Machine

/-! Vector registers of a core (R92, R105). -/

/-- Writing a vector register changes the core's pool alone. -/
theorem Core.vset_eq (k : Core) (t d x : Nat) : k.vset t d x = { k with vregs := (k.vset t d x).vregs } := by unfold Core.vset; split <;> rfl

theorem Core.tget_vset (k : Core) (t d x r : Nat) :
    tget 0 (k.vset t d x).vregs r = if (k.th t).vmap[d]? = some r then x % 2 ^ 2048 else tget 0 k.vregs r := by
  unfold Core.vset
  cases h : (k.th t).vmap[d]? with
  | none => simp
  | some p => simp only [tget_tset, Option.some.injEq, eq_comm]

/-! The site of a vector instruction, and its issue (R105). -/

@[simp] theorem IssueV.site_c (i : IssueV) (op fn : Nat) (u : VUse) (vbReg ok : Bool) : (i.site op fn u vbReg ok).c = i.core.val := rfl
@[simp] theorem IssueV.site_t (i : IssueV) (op fn : Nat) (u : VUse) (vbReg ok : Bool) : (i.site op fn u vbReg ok).t = i.thread.val := rfl
@[simp] theorem IssueV.site_words (i : IssueV) (op fn : Nat) (u : VUse) (vbReg ok : Bool) : (i.site op fn u vbReg ok).words = 2 := rfl

theorem VUse.missing_eq_nil {u : VUse} {vbReg : Bool} {i : IssueV} {s : State} (h : ∀ v ∈ u.regs vbReg i, v < (i.th s).vmap.length) :
    u.missing vbReg i s = [] := by
  have hf : ((u.regs vbReg i).filter fun v => decide ((i.th s).vmap.length ≤ v)) = [] := by simpa using h
  rw [VUse.missing, hf, List.eraseDups_nil]

section
variable {i : IssueV} {op fn : Nat} {u : VUse} {vbReg ok : Bool} {body : State → Body} {s : State} (hg : (i.site op fn u vbReg ok).goes s = true)
include hg

/-- With every register it names held, a vector instruction that may execute has its body's effect. -/
theorem issueV_of_held (h : ∀ v ∈ u.regs vbReg i, v < (i.th s).vmap.length) {t : State} (hb : body s = .done t) :
    issueV i op fn u vbReg ok body s = .next ((i.site op fn u vbReg ok).after s t) := by
  rw [issueV, issue_of_goes _ _ _ (by simp) hg, VUse.missing_eq_nil h, hb]

/-- With one register it does not hold, it raises "vector register not allocated". -/
theorem issueV_of_missing {v : Nat} (h : u.missing vbReg i s = [v]) :
    issueV i op fn u vbReg ok body s = .next ((i.site op fn u vbReg ok).trap s 0x04 v) := by
  rw [issueV, issue_of_goes _ _ _ (by simp) hg, h]
end

/-! The effect of a vector result (R92). -/

/-- The core once thread `t` has written vd and joined the flags to its FPFLAGS. -/
def Core.finished (k : Core) (t d v : Nat) (fl : FFlags) : Core :=
  { k.setTh t { k.th t with fpflags := (k.th t).fpflags ||| BitVec.ofNat 5 fl.bits } with vregs := (k.vset t d v).vregs }

theorem Core.th_finished (k : Core) (t d v : Nat) (fl : FFlags) (j : Nat) :
    (k.finished t d v fl).th j = if j = t then { k.th t with fpflags := (k.th t).fpflags ||| BitVec.ofNat 5 fl.bits } else k.th j :=
  Core.th_setTh k t _ j

theorem IssueV.finish_eq (i : IssueV) (s : State) (v : Nat) (fl : FFlags) :
    i.finish s v fl = s.setCore i.core.val ((s.core i.core.val).finished i.thread.val i.vd.toNat v fl) := by
  simp only [IssueV.finish, State.onCore]
  rw [Core.vset_eq]
  rfl

/-- Once its thread moves on, an instruction whose effect lies in its core has changed the cores alone. -/
theorem Site.after_setCore_rest (x : Site) (s : State) (k : Core) : { x.after s (s.setCore x.c k) with cores := s.cores } = s := by
  obtain ⟨m, hm⟩ : ∃ m, x.after s (s.setCore x.c k) = { s with cores := m } := by
    unfold Site.after State.setPc State.setTh State.issued State.onCore State.setCore
    exact ⟨_, rfl⟩
  rw [hm]

theorem Site.core_after_setCore (x : Site) (s : State) (k : Core) (d : Nat) :
    (x.after s (s.setCore x.c k)).core d
      = if d = x.c then (k.issued x.t).setTh x.t { k.th x.t with pc := (s.th x.c x.t).pc + 4 * x.words } else s.core d := by
  by_cases hd : d = x.c
  · subst hd; simp [Site.after, State.setPc, State.th]
  · simp [Site.after, State.setPc, hd]

/-- Writing one vector register with its flags and moving on is all that `wroteV` says. -/
theorem wroteV_after_finish {i : IssueV} {x : Site} (hc : x.c = i.core.val) (ht : x.t = i.thread.val) (s : State) (v : Nat) (fl : FFlags) :
    wroteV x i.vd.toNat v fl id s (x.after s (i.finish s v fl)) := by
  rw [IssueV.finish_eq, ← hc, ← ht]
  have hrest := Site.after_setCore_rest x s ((s.core x.c).finished x.t i.vd.toNat v fl)
  have hcore := Site.core_after_setCore x s ((s.core x.c).finished x.t i.vd.toNat v fl)
  generalize x.after s _ = t at hrest hcore ⊢
  have hown := (hcore x.c).trans (if_pos rfl)
  have hother {d : Nat} (hd : d ≠ x.c) : t.core d = s.core d := (hcore d).trans (if_neg hd)
  refine ⟨fun r => ?vregs, ?thread, fun j hj => ?others, hrest, fun d hd => hother hd, ?core, ?memory⟩
  case vregs => rw [hown]; exact Core.tget_vset _ _ _ _ _
  case thread => rw [State.th, hown, Core.th_setTh, if_pos rfl, Core.th_finished, if_pos rfl]; rfl
  case others => rw [State.th, hown, Core.th_setTh, if_neg hj, Core.th_issued, Core.th_finished, if_neg hj]; rfl
  case core => rw [hown]; rfl
  case memory =>
    have hhbm : t.hbm = s.hbm := (congrArg State.hbm hrest :)
    have hmem (c : Nat) : (t.core c).sram = (s.core c).sram ∧ (t.core c).istore = (s.core c).istore := by
      by_cases h : c = x.c
      · rw [h, hown]; exact ⟨rfl, rfl⟩
      · rw [hother h]; exact ⟨rfl, rfl⟩
    exact ⟨fun _ => by rw [hhbm], fun c _ => by rw [(hmem c).1], fun c _ => by rw [(hmem c).2]⟩

/-! Arithmetic instructions (R57, R106, Table 4-10). -/

/-- Lanes that raise no flag leave none. -/
theorem foldl_or_none {α : Type} (l : List α) : l.foldl (fun a _ => FFlags.or a {}) {} = {} := by
  induction l with
  | nil => rfl
  | cons _ _ ih => exact ih

/-- An integer type raises no flag. -/
theorem flagsOf_laneResults_int {i : IssueV} (h : floatType i.ety.toNat = false) (s : State) (r : ArithRow) : flagsOf (laneResults i s r) = {} := by
  simp only [flagsOf, laneResults, h, Bool.false_eq_true, if_false, List.map_map, List.foldl_map]
  exact foldl_or_none _

/-- A float type and an integer type have the one body: it writes the lanes' results and joins their flags. -/
theorem arith_eq_issueV (r : ArithRow) (i : IssueV) (s : State) :
    arith i r.fn r.use r.typeOk r.round r.ff (fun _ => r.fi) s
      = issueV i 0x14 r.fn (arithUse i r.use r.round) true (arithOk i r.typeOk r.round)
        (fun s => .done (i.finish s (elements (widthOf i.ety.toNat) (laneResults i s r)) (flagsOf (laneResults i s r)))) s := by
  unfold arith
  dsimp only
  congr 1
  funext s
  cases h : floatType i.ety.toNat with
  | true => simp only [if_true, collect, elements, flagsOf, laneResults, h]
  | false =>
    rw [flagsOf_laneResults_int h]
    simp only [Bool.false_eq_true, if_false, elements, laneResults, h, List.map_map]
    rfl

/-- A row of Table 4-10 written out from the spec is what the model executes: its fields, types, rounding, float result and integer result. -/
theorem exec_arithRow {r : ArithRow} (hr : r ∈ arithRows) (i : IssueV) (s : State) :
    exec (r.make i) s = arith i r.fn r.use r.typeOk r.round r.ff (fun _ => r.fi) s := by
  simp only [arithRows, List.mem_cons, List.not_mem_nil, or_false] at hr
  obtain rfl | rfl | rfl | rfl | rfl | rfl | rfl | rfl := hr <;> rfl

/-- The same for a logical operation or shift. -/
theorem exec_bitRow {r : (IssueV → Instr) × Nat × (Nat → Nat → Nat → Nat)} (hr : r ∈ bitRows) (i : IssueV) (s : State) :
    exec (r.1 i) s = bitwise i r.2.1 r.2.2 s := by
  simp only [bitRows, List.mem_cons, List.not_mem_nil, or_false] at hr
  obtain rfl | rfl | rfl | rfl | rfl := hr <;> rfl

/-- Settles O9: every row of the table issues one body, which writes vd with the elements' flags (`wroteV_after_finish`) where the
thread holds every register it names (`issueV_of_held`), and raises where it lacks one (`issueV_of_missing`). -/
theorem vectorArithmetic : Obligations.VectorArithmetic := by
  unfold Obligations.VectorArithmetic
  refine ⟨?arith, ?bitwise, ?missing⟩
  case arith =>
    rintro r hr i s x rfl hg hv
    rw [exec_arithRow hr, arith_eq_issueV]
    exact ⟨_, issueV_of_held hg hv rfl, wroteV_after_finish rfl rfl s _ _⟩
  case bitwise =>
    rintro r hr i s x rfl hg hv
    rw [exec_bitRow hr]
    exact ⟨_, issueV_of_held hg hv rfl, wroteV_after_finish rfl rfl s _ _⟩
  case missing =>
    rintro r hr i s x v rfl hg hm
    rw [exec_arithRow hr, arith_eq_issueV]
    exact issueV_of_missing hg hm

end Sys2Proof.Machine
end

section
/-! PROOFS. Reductions: words at their nodes, folds, decisions, notices and the end of a context (spec/06 R158 to R164). -/
namespace Sys2Proof.Machine

/-! The arrival of a plain packet (R213, R235, R306). -/

/-- A trailer is not its own complement. -/
theorem Pkt.stomped_of_trailerOk {p : Pkt} (h : p.trailerOk = true) : p.stomped = false := by
  have hp : p.trailer = p.goodTrailer := of_decide_eq_true h
  refine decide_eq_false fun hs => ?_
  have hbit := congrArg (BitVec.getLsbD · 0) (hp.symm.trans hs)
  simp at hbit

theorem arrive_of_plain {s : State} {p : Pkt} (hp : p.plain = true) (hb : s.behind p = false) (f : State → State) :
    s.arrive p f = f (landed s p) := by
  obtain ⟨⟨hok, hpoison⟩, hpair⟩ : (p.trailerOk = true ∧ p.poison = false) ∧ p.pair = false := by simpa [Pkt.plain] using hp
  simp only [State.arrive, hb, Pkt.stomped_of_trailerOk hok, hpair, hok, hpoison, Bool.not_true, Bool.or_self, Bool.false_eq_true, if_false]
  rfl

/-- Landing changes the in-package network and the meters alone. -/
theorem landed_rest (s : State) (p : Pkt) : { landed s p with net := s.net, meters := s.meters } = s := by
  simp only [landed, State.meterRx]
  split <;> rfl

theorem nodeOut_landed (s : State) (p : Pkt) (n : NodeId) : (landed s p).nodeOut n = s.nodeOut n :=
  (congrArg (State.nodeOut · n) (landed_rest s p) :)

theorem nodeInReset_landed (s : State) (p : Pkt) (n : NodeId) : (landed s p).nodeInReset n = s.nodeInReset n :=
  (congrArg (State.nodeInReset · n) (landed_rest s p) :)

/-! A word at its node (R159, R162). -/

/-- A plain word that needs no way over the mesh is taken at a node in service. -/
theorem exec_sheafWord_at_node {p : Pkt} {s : State} {n : Nat} (hp : p.plain = true) (hb : s.behind p = false)
    (hn : nodeOfEp s.variant p.dst = some n) (hout : (landed s p).nodeOut n = false) (hreset : (landed s p).nodeInReset n = false)
    (hat : 16384 ≤ n ∨ s.net.contains p = false) :
    exec (.sheafWord p) s = .next ((landed s p).sheafTake n p) := by
  rw [nodeOut_landed] at hout
  rw [nodeInReset_landed] at hreset
  have hmesh : ¬(n < 16384 ∧ s.net.contains p = true) := by
    rintro ⟨hcore, hnet⟩
    rcases hat with hfar | hgone
    · omega
    · exact absurd (hgone.symm.trans hnet) Bool.false_ne_true
  change execSheafWord p s = _
  rw [execSheafWord, arrive_of_plain hp hb]
  simp only [hn, hout, hreset, if_neg hmesh, Bool.false_eq_true, if_false]

theorem State.sheafTake_of_wordCtx {s : State} {n : NodeId} {p : Pkt} {x : ShCtx} (hx : s.wordCtx n p.barn (p.addr % 2 ^ 32) = some x) :
    s.sheafTake n p = (s.nodeReply n p 0).shAccept x p := by
  rw [State.sheafTake, hx]

theorem State.sheafTake_of_no_wordCtx {s : State} {n : NodeId} {p : Pkt} (hx : s.wordCtx n p.barn (p.addr % 2 ^ 32) = none) :
    s.sheafTake n p =
      if nodeEarly n ≤ (s.sheafEarly.filter fun y => decide (y.1 = n)).length then s.nodeReply n p 0x0E
      else { s.nodeReply n p 0 with sheafEarly := s.sheafEarly ++ [(n, p)] } := by
  rw [State.sheafTake, hx]

/-! Rows of a context: the fast fold, the root's decision, the timeout and the resend (R160, R162 to R164). -/

/-- The sum of a node without local contributions: its children's blocks, folded in the order of their indices. -/
def ShCtx.fastSum (x : ShCtx) : List Nat :=
  (List.range (shBlocks x.desc)).flatMap fun b => fastFold ((sortChildren x.children).map fun y => fp32Block y.sum b)

/-- A fast node below the root, once every child has sent, passes the sum to its parent and awaits the notice. -/
theorem exec_sheafNodeFold_fast {node : Nat} {r : CtxRef} {s : State} {x : ShCtx} (hx : s.ctx node r = some x) (hkind : shKind x.desc = 0)
    (hlocal : shLocal x.desc = 0) (hroot : shRoot x.desc = false) (hstage : x.stage = .sum) (hready : x.inputsReady = true) :
    exec (.sheafNodeFold node r []) s = .next (
      let q := s.shWords { x with stage := .notice } (shParent x.desc) false 128 (x.fastSum.flatMap fun v => leBytes 4 v)
      q.2.putCtx q.1) := by
  have hgo : ¬(2 ≤ shKind x.desc ∨ (!x.inputsReady) = true ∨ (!decide (x.stage = .exp ∨ x.stage = .sum)) = true) := by
    simp [hkind, hready, hstage]
  change execSheafNodeFold node r [] s = _
  simp only [execSheafNodeFold, hx]
  rw [if_neg hgo]
  simp only [hkind, hlocal, hroot, Bool.false_eq_true, if_false, if_true, ne_eq, not_true_eq_false, and_false, Bool.not_true, List.append_nil,
    Nat.zero_ne_one]
  rfl

theorem exec_rootWritesComplete {node : Nat} {r : CtxRef} {s : State} {x : ShCtx} (hx : s.ctx node r = some x) :
    exec (.rootWritesComplete node r) s = .next (if x.stage = .writing ∧ x.sent.any (·.write) = false
      then (ctrlAll s x (if x.failed then 2 else 1) x.childEps).endCtx x x.failed else s) := by
  change execRootWritesComplete node r s = _
  simp only [execRootWritesComplete, hx, Bool.not_eq_true']
  split <;> rfl

theorem exec_sheafTimeout {node : Nat} {r : CtxRef} {s : State} {x : ShCtx} (hx : s.ctx node r = some x) :
    exec (.sheafTimeout node r) s = .next (if shTimeout x.desc = 0 then s
      else if x.stage = .notice then s.endCtx x true else s.shAbort x) := by
  change execSheafTimeout node r s = _
  simp only [execSheafTimeout, hx]
  (repeat' split) <;> rfl

theorem exec_sheafBusyResend {node : Nat} {r : CtxRef} {s : State} {x : ShCtx} {y : ShSent} (hx : s.ctx node r = some x)
    (hy : x.sent.find? (fun z => !z.busy.isEmpty) = some y) :
    exec (.sheafBusyResend node r) s = .next (
      let q := stampAll s (y.busy.map fun e => { y.pkt with dst := e })
      (q.2.putCtx { x with sent := x.sent.map fun z =>
        if z.rtag = y.rtag then { y with busy := [], want := y.want ++ awaits q.1 } else z }).nodeSend node q.1) := by
  change execSheafBusyResend node r s = _
  simp only [execSheafBusyResend, hx, hy]

/-! Control packets (R163, R164). -/

theorem exec_sheafCtrl_at_node {p : Pkt} {s : State} (hnet : s.net.contains p = false) (hbox : s.inbox.contains p = false)
    (hp : p.taken = true) : exec (.sheafCtrl p) s = .next (s.ctrlTake p) := by
  change execSheafCtrl p s = _
  simp only [execSheafCtrl, hnet, hbox, hp, Bool.false_eq_true, if_false, if_true]

theorem exec_sheafCtrl_from_net {p : Pkt} {s : State} (hnet : s.net.contains p = true) (hp : p.taken = true)
    (hsrc : epPkg p.src = s.selfNum ∨ s.helmServes = true) : exec (.sheafCtrl p) s = .next ((s.consume p).ctrlDeliver p) := by
  change execSheafCtrl p s = _
  simp only [execSheafCtrl, hnet, hp, if_pos hsrc, Bool.not_true, Bool.false_eq_true, if_false, if_true]

theorem State.ctrlDeliver_of_node {s : State} {p : Pkt} {n : Nat} (hn : nodeOfEp s.variant p.dst = some n) :
    s.ctrlDeliver p = if n < 16384 then s.inject n p else s.ctrlTake p := by
  rw [State.ctrlDeliver, hn]

theorem State.ctrlTake_of_wordCtx {s : State} {p : Pkt} {n : Nat} {x : ShCtx} {what : Nat} (hn : nodeOfEp s.variant p.dst = some n)
    (hx : s.wordCtx n p.barn (p.addr % 2 ^ 32) = some x) (hw : leVal ((p.payload.drop 16).take 1) = what) :
    s.ctrlTake p = if what = 0 then s.shAbort x
      else if x.stage = .notice then (ctrlAll s x what x.childEps).endCtx x (decide (what = 2))
      else if what = 2 then s.shAbort x else s := by
  subst hw
  simp only [State.ctrlTake, hn, hx]

/-! Form and finish descriptors (R158). -/

theorem sramChecks_nil (s : State) (c row : Nat) : sramChecks s c row [] = (true, s) := rfl

theorem sramChecks_uncorrectable (s : State) (c row : Nat) (es : List Ecc) :
    sramChecks s c row (.uncorrectable :: es) = (false, (s.setCore c { s.core c with ue := true }).report 0x02 c row) := rfl

/-- What a form descriptor writes at MAPSRC: the exponent headers where EXP is 0, the words at EXP otherwise. -/
def Core.formBytes (k : Core) (x : ShCtx) : List Byte :=
  if shExp x.desc = 0 then
    padTo (shMapBytes x.desc) ((List.range (shBlocks x.desc)).flatMap fun b => leBytes 16
      (RedHdr.bits { k.shExpHdr x.desc b with abort := (k.shExpHdr x.desc b).abort || x.failed }))
  else (List.range (shBlocks x.desc)).flatMap fun b => (k.shSumWord x.desc b (shExp x.desc) x.failed).mesh

theorem exec_sheafFormComplete {c : CoreId} {h : Fin 16} {s : State} {x : ShCtx} (hx : s.handleCtx c.val h.val 2 = some x) :
    exec (.sheafFormComplete c h []) s
      = .next (State.endCtx (s.setCore c.val ((s.core c.val).sramWrite (shMapSrc x.desc) ((s.core c.val).formBytes x))) x false) := by
  change execSheafFormComplete c h [] s = _
  simp only [execSheafFormComplete, hx, List.take_nil, sramChecks_nil, Bool.not_true, Bool.false_eq_true, if_false]
  rfl

/-- The header and the word of a block that a finish descriptor reads at MAPSRC and at SRC. -/
def Core.finishHdr (k : Core) (x : ShCtx) (b : Nat) : RedHdr := RedHdr.ofBits (leVal (memRead k.sram (shMapSrc x.desc + 16 * b) 16))
def Core.finishWord (k : Core) (x : ShCtx) (b : Nat) : RedWord := RedWord.ofMesh (memRead k.sram (shSrc x.desc + 256 * b) 256)

/-- A header of the pass `pass` with the tag, the guard width and the exponent that the descriptor declares. -/
def ShCtx.fits (x : ShCtx) (h : RedHdr) (pass : Bool) : Bool :=
  decide (h.tag = BitVec.ofNat 16 (shTag x.desc)) && decide (h.pass = pass) && decide (h.g = redG (shN x.desc)) && decide (h.exp = shExp x.desc)

/-- The root checks of Table 2-11 pass for a block. -/
def Core.finishGood (k : Core) (x : ShCtx) (b : Nat) : Bool :=
  x.fits (k.finishHdr x b) false && x.fits (k.finishWord x b).hdr true && redExpOk (shN x.desc) (k.finishHdr x b)
    && redSumOk (shN x.desc) (k.finishHdr x b) (k.finishWord x b)

/-- With every row readable, a finish descriptor decides where every block passes and aborts where one fails. -/
theorem exec_sheafFinishComplete {c : CoreId} {h : Fin 16} {s : State} {x : ShCtx} (hx : s.handleCtx c.val h.val 3 = some x)
    (hstage : x.stage = .sum) :
    exec (.sheafFinishComplete c h []) s = .next (
      if (List.range (shBlocks x.desc)).all ((s.core c.val).finishGood x)
      then s.shDecide x ((List.range (shBlocks x.desc)).flatMap fun b => redFinish (shFmt (shOfmt x.desc)) (shN x.desc) ((s.core c.val).finishWord x b))
      else s.endCtx x true) := by
  change execSheafFinishComplete c h [] s = _
  simp only [execSheafFinishComplete, hx, hstage, ne_eq, not_true_eq_false, List.take_nil, List.drop_nil, sramChecks_nil, Bool.not_true,
    Bool.false_eq_true, if_false, if_true]
  exact (apply_ite Host.Outcome.next _ _ _).symm

/-- R163: an uncorrectable first row of SRC is reported and aborts a finish descriptor. -/
theorem exec_sheafFinishComplete_uncorrectable {c : CoreId} {h : Fin 16} {s : State} {x : ShCtx} (hx : s.handleCtx c.val h.val 3 = some x)
    (hstage : x.stage = .sum) (hrows : 1 ≤ shSrcRows x.desc) :
    exec (.sheafFinishComplete c h [.uncorrectable]) s = .next
      (State.endCtx ((s.setCore c.val { s.core c.val with ue := true }).report 0x02 c.val (shSrc x.desc / 64 * 64)) x true) := by
  change execSheafFinishComplete c h [.uncorrectable] s = _
  simp only [execSheafFinishComplete, hx, hstage, ne_eq, not_true_eq_false, List.take_of_length_le (l := [Ecc.uncorrectable]) hrows,
    sramChecks_uncorrectable, Bool.not_false, Bool.false_eq_true, if_false, if_true]

/-! The end of a context (R107, R164). -/

/-- Giving up what a context has sent touches no core and no context. -/
theorem shLeave_cores_sheaf (n : NodeId) (barn : Nat) (l : List ShSent) (s : State) :
    (shLeave s n barn l).cores = s.cores ∧ (shLeave s n barn l).sheaf = s.sheaf := by
  induction l generalizing s with
  | nil => exact ⟨rfl, rfl⟩
  | cons y l ih =>
    rw [shLeave, (ih _).1, (ih _).2]
    split <;> exact ⟨rfl, rfl⟩

theorem foldl_shLeave_cores_sheaf (l : List ShCtx) (s : State) :
    (l.foldl (fun s x => shLeave s x.node x.barn x.sent) s).cores = s.cores
    ∧ (l.foldl (fun s x => shLeave s x.node x.barn x.sent) s).sheaf = s.sheaf := by
  induction l generalizing s with
  | nil => exact ⟨rfl, rfl⟩
  | cons x l ih =>
    obtain ⟨hcores, hsheaf⟩ := shLeave_cores_sheaf x.node x.barn x.sent s
    exact ⟨(ih _).1.trans hcores, (ih _).2.trans hsheaf⟩

@[simp] theorem State.dropCtxs_core (s : State) (hit : ShCtx → Bool) (c : Nat) : (s.dropCtxs hit).core c = s.core c := by
  rw [State.core, State.dropCtxs, (foldl_shLeave_cores_sheaf _ _).1]
  rfl

@[simp] theorem State.dropCtxs_sheaf (s : State) (hit : ShCtx → Bool) : (s.dropCtxs hit).sheaf = s.sheaf.filter fun x => !hit x :=
  (foldl_shLeave_cores_sheaf _ _).2

theorem State.endCtx_sheaf (s : State) (x : ShCtx) (ab : Bool) : (s.endCtx x ab).sheaf = s.sheaf.filter fun y => !x.is y :=
  State.dropCtxs_sheaf s x.is

theorem State.endCtx_handle {s : State} {x : ShCtx} (h : (s.core x.owner).handle x.handle = .pending) (ab : Bool) :
    ((s.endCtx x ab).core x.owner).handle x.handle = .ended ab := by
  have hp : tget Handle.free (s.core x.owner).handles x.handle = .pending := h
  simp [State.endCtx, State.onCore, Core.handle, hp]

/-- Settles O22: each clause is the lemma above about its row, with the branch that the clause's hypotheses take. An arrival turns on a plain
packet's being performed where it lands (`arrive_of_plain`), an ended context on what its node gives up leaving every core's handles and the
other contexts alone (`foldl_shLeave_cores_sheaf`). -/
theorem reductionEvents : Obligations.ReductionEvents := by
  unfold Obligations.ReductionEvents
  refine ⟨?accept, ?early, fun _ _ _ _ hx hk hl hr hst hin => exec_sheafNodeFold_fast hx hk hl hr hst hin, ?writes, ?timeout,
    fun _ _ hnet hbox hp => exec_sheafCtrl_at_node hnet hbox hp, ?fromNet, ?completed, ?aborted,
    fun _ _ _ _ _ hx hy => exec_sheafBusyResend hx hy, ?words, ?headers, fun _ _ _ _ hx hst => exec_sheafFinishComplete hx hst,
    fun _ _ _ _ hx hst hrows => exec_sheafFinishComplete_uncorrectable hx hst hrows, ?ended⟩
  case accept =>
    intro p s n x hp hb hn hout hreset hat hx
    rw [exec_sheafWord_at_node hp hb hn hout hreset hat, State.sheafTake_of_wordCtx hx]
  case early =>
    intro p s n hp hb hn hout hreset hat hx
    rw [exec_sheafWord_at_node hp hb hn hout hreset hat, State.sheafTake_of_no_wordCtx hx]
  case writes =>
    intro node r s x hx hstage hsent
    rw [exec_rootWritesComplete hx, if_pos ⟨hstage, hsent⟩]
  case timeout =>
    intro node r s x hx ht
    rw [exec_sheafTimeout hx, if_neg ht]
  case fromNet =>
    intro p s n hnet hp hsrc hn
    exact (exec_sheafCtrl_from_net hnet hp hsrc).trans (congrArg _ (State.ctrlDeliver_of_node hn))
  case completed =>
    intro s p n x hn hx hstage hw
    rw [State.ctrlTake_of_wordCtx hn hx hw, if_neg Nat.one_ne_zero, if_pos hstage]
    rfl
  case aborted =>
    intro s p n x hn hx hw
    rw [State.ctrlTake_of_wordCtx hn hx hw, if_pos rfl]
  case words =>
    intro c h s x hx hexp
    rw [exec_sheafFormComplete hx, Core.formBytes, if_neg hexp]
  case headers =>
    intro c h s x hx hexp
    rw [exec_sheafFormComplete hx, Core.formBytes, if_pos hexp]
  case ended =>
    intro s x ab h
    refine ⟨State.endCtx_handle h ab, fun y hy => ?_⟩
    rw [State.endCtx_sheaf] at hy
    simpa using (List.mem_filter.mp hy).2

end Sys2Proof.Machine
end

section
/-! PROOFS. Steering: stores, requests, entries and live paths (spec/07 R178 to R183, R191). -/
namespace Sys2Proof.Machine

/-! A link, and a barn's view of the steering controller, after an update (Tables 7-7 and 14-14). -/

@[simp] theorem State.link_setLink (s : State) (l : Nat) (x : Link) (j : Nat) : (s.setLink l x).link j = if j = l then x else s.link j := by
  simp [State.link, State.setLink]
@[simp] theorem State.steer_setSteer (s : State) (b : Nat) (x : Steer) (j : Nat) :
    (s.setSteer b x).steer j = if j = b then x else s.steer j := by
  simp [State.steer, State.setSteer]

/-! The word of a store (Table 7-6). -/

/-- What STEER_STAGE and STEER_COMMIT store. -/
def steerWord (set : Fin 256) (stage : Bool) (n : BitVec 16) (en : Bool) : Nat :=
  packFields [(8, set.val), (1, boolNat stage), (7, 0), (16, n.toNat), (1, boolNat en)]

section
variable (set : Fin 256) (stage : Bool) (n : BitVec 16) (en : Bool)

theorem steerWord_eq : steerWord set stage n en = set.val + 256 * boolNat stage + 2 ^ 16 * n.toNat + 2 ^ 32 * boolNat en := by
  cases stage <;> cases en <;> simp only [steerWord, packFields, boolNat, Bool.false_eq_true, if_true, if_false] <;> omega

theorem steerWord_set : bitsAt (steerWord set stage n en) 0 8 = set.val := by
  rw [steerWord_eq, bitsAt, Nat.shiftRight_zero]; omega

theorem steerWord_stage : bitAt (steerWord set stage n en) 8 = stage := by
  rw [steerWord_eq, bitAt, Nat.testBit_eq_decide_div_mod_eq]
  cases stage <;> simp only [boolNat, Bool.false_eq_true, if_true, if_false, decide_eq_true_eq, decide_eq_false_iff_not] <;> omega

theorem steerWord_tally : bitsAt (steerWord set stage n en) 16 16 = n.toNat := by
  rw [steerWord_eq, bitsAt, Nat.shiftRight_eq_div_pow]
  cases stage <;> simp only [boolNat, Bool.false_eq_true, if_true, if_false] <;> omega

theorem steerWord_enable : bitAt (steerWord set stage n en) 32 = en := by
  rw [steerWord_eq, bitAt, Nat.testBit_eq_decide_div_mod_eq]
  cases stage <;> cases en <;> simp only [boolNat, Bool.false_eq_true, if_true, if_false, decide_eq_true_eq, decide_eq_false_iff_not] <;> omega

theorem steerWord_low : steerWord set stage n en % 512 = set.val + 256 * boolNat stage := by
  rw [steerWord_eq]
  cases stage <;> simp only [boolNat, Bool.false_eq_true, if_true, if_false] <;> omega
end

/-! The end of a request (R179). -/

theorem State.steerEnd_of_tally_none {q : SteerReq} (h : q.tally = none) (s : State) (b r : Nat) :
    s.steerEnd b q r = s.setSteer b { s.steer b with lastSet := q.set, result := r, ended := ((s.steer b).ended + 1) % 2 ^ 32 } := by
  rw [State.steerEnd, h]

/-- A request with a tally ends as one without, and then counts there. -/
theorem State.steerEnd_of_tally {q : SteerReq} {g n : Nat} (h : q.tally = some (g, n)) (s : State) (b r : Nat) :
    s.steerEnd b q r = (s.steerEnd b { q with tally := none } r).addTally g n 1 := by
  rw [State.steerEnd, h]
  rfl

@[simp] theorem State.steer_addTally (s : State) (g n v b : Nat) : (s.addTally g n v).steer b = s.steer b := rfl

theorem State.tally_addTally (s : State) (g n v : Nat) : (s.addTally g n v).tally g n = (s.tally g n + v) % 2 ^ 32 := by
  simp [State.addTally, State.setTally, State.tally]

/-- `t` differs from `s` in barn `b`'s view of the controller alone, which is `x`. -/
def steersTo (b : Nat) (x : Steer) (s t : State) : Prop :=
  t.steer b = x ∧ (∀ k, k ≠ b → t.steer k = s.steer k) ∧ { t with steers := s.steers } = s

/-- Of two updates of the view, one after the other, the second stands. -/
theorem steersTo_setSteer_setSteer (s : State) (b : Nat) (x y : Steer) : steersTo b y s ((s.setSteer b x).setSteer b y) :=
  ⟨by simp, fun k hk => by simp [hk], by simp only [State.setSteer]⟩

/-- A request that ends once it has left its queue, or its place as the current one. -/
theorem steersTo_steerEnd {q : SteerReq} (h : q.tally = none) (s : State) (b r : Nat) (x : Steer) :
    steersTo b { x with lastSet := q.set, result := r, ended := (x.ended + 1) % 2 ^ 32 } s ((s.setSteer b x).steerEnd b q r) := by
  rw [State.steerEnd_of_tally_none h, State.steer_setSteer, if_pos rfl]
  exact steersTo_setSteer_setSteer s b x _

/-! Stores (R178, R179). -/

theorem exec_steerStore {i : Instr} {stage : Bool} {c : CoreId} {set : Fin 256} {n : BitVec 16} {en : Bool} {s : State} {b : Nat}
    (hi : (i = .steerStage c set n en ∧ stage = true) ∨ (i = .steerCommit c set n en ∧ stage = false)) (hb : s.coreBarn c.val = some b) :
    exec i s = .next (s.steerStore b (coreCluster c.val) (steerWord set stage n en)).2 := by
  have hrow : steerRow c set stage n en s = .next (s.steerStore b (coreCluster c.val) (steerWord set stage n en)).2 := by
    simp only [steerRow, hb]; rfl
  obtain ⟨rfl, rfl⟩ | ⟨rfl, rfl⟩ := hi <;> exact hrow

section
variable {set : Fin 256} {stage : Bool} {n : BitVec 16} {en : Bool} {s : State} {b g : Nat} (hn : n.toNat < 1024)
include hn

/-- With room behind the current request, the store joins the queue. -/
theorem State.steerStore_of_room (hq : (s.steer b).queued < 8) :
    steersTo b { s.steer b with
        commit := set.val + 256 * boolNat stage + 2 ^ 16 * n.toNat + 2 ^ 32 * boolNat en
        queue := (s.steer b).queue ++ [⟨set.val, stage, if en = true then some (g, n.toNat) else none⟩] }
      s (s.steerStore b g (steerWord set stage n en)).2 := by
  have hrange : ¬ 1023 < n.toNat := by omega
  have hfull := Nat.not_le.mpr hq
  unfold Steer.queued at hfull
  simp only [State.steerStore, Steer.queued, steerWord_set, steerWord_stage, steerWord_tally, steerWord_enable, steerWord_low,
    Nat.mul_comm n.toNat, if_neg hrange, if_neg hfull]
  exact steersTo_setSteer_setSteer s b _ _

/-- Behind eight requests it ends at once with result 4. -/
theorem State.steerStore_of_full (hq : 8 ≤ (s.steer b).queued) :
    ∃ u, (s.steerStore b g (steerWord set stage n true)).2 = u.addTally g n.toNat 1
      ∧ steersTo b { s.steer b with
        commit := set.val + 256 * boolNat stage + 2 ^ 16 * n.toNat + 2 ^ 32
        lastSet := set.val, result := 4, ended := ((s.steer b).ended + 1) % 2 ^ 32 } s u := by
  have hrange : ¬ 1023 < n.toNat := by omega
  unfold Steer.queued at hq
  simp only [State.steerStore, Steer.queued, steerWord_set, steerWord_stage, steerWord_tally, steerWord_enable, steerWord_low,
    Nat.mul_comm n.toNat, if_neg hrange, if_pos hq]
  exact ⟨_, State.steerEnd_of_tally rfl _ _ _, steersTo_steerEnd rfl s b 4 _⟩
end

/-! Requests that start (R179, Table 7-9). -/

/-- Barn `b`'s next request has left the queue, of which `l` remains. -/
def State.dequeued (s : State) (b : Nat) (l : List SteerReq) : State := s.setSteer b { s.steer b with queue := l }
/-- A request is the current one, with its entries as far as they have come. -/
def State.underway (s : State) (b : Nat) (q : SteerReq) (es : List SteerEntry) : State := s.setSteer b { s.steer b with cur := some (q, es) }

section
variable {b : BarnId} {s : State} {q : SteerReq} {l : List SteerReq} (hcur : (s.steer b.val).cur = none) (hq : (s.steer b.val).queue = q :: l)
include hcur hq

theorem exec_steerRequestStart_unloaded (hset : tget none s.pathSets q.set = none) :
    exec (.steerRequestStart b) s = .next ((s.dequeued b.val l).steerEnd b.val q 2) := by
  change execSteerRequestStart b s = _
  simp only [execSteerRequestStart, State.dequeued, hcur, hq, hset]

variable {set : PathSet} (hset : tget none s.pathSets q.set = some set)
include hset

theorem exec_steerRequestStart_foreign (hbarn : set.barn ≠ b.val) :
    exec (.steerRequestStart b) s = .next ((s.dequeued b.val l).steerEnd b.val q 3) := by
  change execSteerRequestStart b s = _
  simp only [execSteerRequestStart, State.dequeued, hcur, hq, hset]
  rw [if_pos hbarn]

theorem exec_steerRequestStart_stage (hbarn : set.barn = b.val) (hstage : q.stage = true) :
    exec (.steerRequestStart b) s
      = .next ((set.entries.foldl (fun s e => stageEntry s b.val e) (s.dequeued b.val l)).underway b.val q []) := by
  change execSteerRequestStart b s = _
  simp only [execSteerRequestStart, State.dequeued, State.underway, hcur, hq, hset]
  rw [if_neg (not_not_intro hbarn), if_pos hstage]

theorem exec_steerRequestStart_commit (hbarn : set.barn = b.val) (hstage : q.stage = false) {s1 : State}
    (hs1 : s1 = (s.dequeued b.val l).cancelStaged (set.entries.filter fun e => !(s.dequeued b.val l).entrySkips b.val e)) :
    exec (.steerRequestStart b) s = .next (
      let r := commitAll s1 b.val (s1.clears b.val set.entries ++ set.entries)
      r.2.underway b.val q r.1) := by
  subst hs1
  change execSteerRequestStart b s = _
  simp only [execSteerRequestStart, State.dequeued, State.underway, hcur, hq, hset]
  rw [if_neg (not_not_intro hbarn), if_neg (by simp [hstage])]
end

/-! Entries as a request starts (R179, R183, Table 7-8). -/

theorem stageEntry_eq (s : State) (b : Nat) (e : PathEntry) :
    stageEntry s b e = if s.entrySkips b e = true ∨ e.dark = true ∨ (s.link e.tx).st ≠ .dark ∨ s.rxHeld e.tx e.rx = true then s
      else s.setLink e.tx { s.link e.tx with st := .staged, rx := some e.rx } := rfl

theorem State.linkBusy_iff (s : State) (l : Nat) : s.linkBusy l = true ↔ (s.link l).work ≠ .none ∨ (s.link l).st = .lost := by
  simp [State.linkBusy]

/-- The state of an entry at the start of its time, as one chain of conditions in the order in which they are judged. -/
theorem State.commitEntry_eq (s : State) (b : Nat) (e : PathEntry) : s.commitEntry b e =
    if s.entrySkips b e = true then (⟨e, .skipped⟩, s)
    else if (s.link e.tx).work ≠ .none ∨ (s.link e.tx).st = .lost then (⟨e, .waiting⟩, s)
    else if (s.link e.tx).st = .live ∧ e.dark = false ∧ (s.link e.tx).rx = some e.rx then (⟨e, .done⟩, s)
    else if (s.link e.tx).st = .live then (⟨e, .drain⟩, s.setLink e.tx { s.link e.tx with st := .changing, drain := true })
    else if e.dark = true then (⟨e, .done⟩, s.setLink e.tx { s.link e.tx with st := .dark, rx := none, mask := 0, drain := false })
    else if (s.link e.tx).st = .staged ∧ (s.link e.tx).rx = some e.rx then
      (⟨e, .relock⟩, (s.setLink e.tx { s.link e.tx with st := .changing }).train e.tx 4 (s.rxMask e.rx) false)
    else if s.rxHeld e.tx e.rx = true then (⟨e, .waiting⟩, s)
    else (⟨e, .switching⟩, s.setLink e.tx { s.link e.tx with st := .changing, rx := some e.rx, drain := false }) := by
  simp only [State.commitEntry, State.linkBusy_iff, State.offPath, Bool.not_eq_true']
  by_cases hlive : (s.link e.tx).st = .live
  · simp only [hlive, true_and, if_true]
  · simp only [hlive, false_and, if_false]

theorem State.commitEntry_e (s : State) (b : Nat) (e : PathEntry) : (s.commitEntry b e).1.e = e := by
  rw [State.commitEntry_eq]
  (repeat' split) <;> rfl

/-- A commit gives every entry a state, in the order of the set. -/
theorem commitAll_map_e (b : Nat) (es : List PathEntry) (s : State) : (commitAll s b es).1.map (·.e) = es := by
  induction es generalizing s with
  | nil => rfl
  | cons e es ih =>
    change (s.commitEntry b e).1.e :: (commitAll (s.commitEntry b e).2 b es).1.map (·.e) = e :: es
    rw [State.commitEntry_e, ih]

/-- What a commit clears is a live pool path that the set does not name, ending at a receive link which an entry of the set assigns. -/
theorem State.of_mem_clears {s : State} {b : Nat} {es : List PathEntry} {d : PathEntry} (h : d ∈ s.clears b es) :
    d.dark = true ∧ isPool d.tx = true ∧ (∃ x, (d.tx, x) ∈ s.links ∧ x.st = .live ∧ x.rx = some d.rx ∧ x.subst = false)
      ∧ (∃ e ∈ es, e.dark = false ∧ e.rx = d.rx) ∧ ∀ e ∈ es, e.tx ≠ d.tx := by
  obtain ⟨e, he, hd⟩ := List.mem_flatMap.mp h
  split at hd
  · exact absurd hd List.not_mem_nil
  · next hgo =>
    obtain ⟨⟨l, x⟩, hl, rfl⟩ := List.mem_map.mp hd
    obtain ⟨hmem, hx⟩ := List.mem_filter.mp hl
    simp only [Bool.and_eq_true, decide_eq_true_eq, Bool.not_eq_true', List.any_eq_false] at hx
    obtain ⟨⟨⟨⟨hrx, hlive⟩, hpool⟩, hsubst⟩, hnamed⟩ := hx
    exact ⟨rfl, hpool, ⟨x, hmem, hlive, hrx, hsubst⟩, ⟨e, he, by simpa using fun hdark => hgo (.inl hdark), rfl⟩, hnamed⟩

/-! Requests that end (R179, R182). -/

theorem exec_steerStageEnd {b : BarnId} {s : State} {q : SteerReq} {es : List SteerEntry} {set : PathSet}
    (hcur : (s.steer b.val).cur = some (q, es)) (hstage : q.stage = true) (hset : tget none s.pathSets q.set = some set) :
    exec (.steerStageEnd b) s = .next ((s.setSteer b.val { s.steer b.val with cur := none }).steerEnd b.val q
      (if set.entries.any s.entryWithdrawn = true then 1 else 0)) := by
  change execSteerStageEnd b s = _
  simp only [execSteerStageEnd, State.setReduced, hcur, hset]
  rw [if_pos hstage]
  rfl

theorem exec_steerCommitEnd {b : BarnId} {s : State} {q : SteerReq} {es : List SteerEntry} (hcur : (s.steer b.val).cur = some (q, es))
    (hstage : q.stage = false) (hes : ∀ e ∈ es, e.ph = .done ∨ e.ph = .skipped) :
    exec (.steerCommitEnd b) s = .next ((s.setSteer b.val { s.steer b.val with cur := none }).steerEnd b.val q
      (if es.any (fun e => decide (e.ph = .skipped) && s.entryWithdrawn e.e) = true then 1 else 0)) := by
  have hover : ¬(q.stage = true ∨ es.any (fun e => decide (e.ph ≠ .done) && decide (e.ph ≠ .skipped)) = true) := by
    rintro (hst | hany)
    · exact absurd (hstage.symm.trans hst) Bool.false_ne_true
    · obtain ⟨e, hmem, hph⟩ := List.any_eq_true.mp hany
      simp only [Bool.and_eq_true, decide_eq_true_eq] at hph
      exact (hes e hmem).elim hph.1 hph.2
  change execSteerCommitEnd b s = _
  simp only [execSteerCommitEnd, hcur]
  rw [if_neg hover]
  rfl

/-! Entries whose link changes (R180, R191). -/

section
variable {l : LinkId} {s : State} {b : Nat} {e : SteerEntry} (he : s.entryOf l.val = some (b, e)) (hbusy : s.linkBusy l.val = false)
  (hskip : s.entrySkips b e.e = false)
include he hbusy hskip

theorem exec_linkDrainComplete (hph : e.ph = .drain) :
    exec (.linkDrainComplete l) s = .next (
      if (s.link l.val).idle = false ∨ ∃ c ∈ s.cands, c.1 / 16 = l.val / 32 ∧ l.val ∈ c.2 then s
      else if e.e.dark = true then State.setEntry
        (s.setLink l.val { s.link l.val with st := .dark, rx := none, mask := 0, drain := false }) b l.val .done
      else if s.rxHeld l.val e.e.rx = true then State.setEntry
        (s.setLink l.val { s.link l.val with st := .changing, rx := none, mask := 0, drain := false }) b l.val .waiting
      else State.setEntry (s.setLink l.val { s.link l.val with rx := some e.e.rx, drain := false }) b l.val .switching) := by
  change execLinkDrainComplete l s = _
  simp only [execLinkDrainComplete, he, hph, hbusy, hskip, ne_eq, not_true_eq_false, Bool.false_eq_true, or_self, if_false, Bool.not_eq_true',
    List.any_eq_true, Bool.and_eq_true, decide_eq_true_eq, List.contains_iff_mem]
  (repeat' split) <;> rfl

theorem exec_steerEntryLive_trained (hph : e.ph = .switching ∨ e.ph = .relock) :
    exec (.steerEntryLive l) s = .next ((s.pathLive l.val e.e.rx).setEntry b l.val .done) := by
  change execSteerEntryLive l s = _
  obtain hph | hph := hph <;>
    simp only [execSteerEntryLive, he, hph, hbusy, hskip, reduceCtorEq, Bool.false_eq_true, or_self, if_false]

theorem exec_steerEntryLive_waiting (hph : e.ph = .waiting) :
    exec (.steerEntryLive l) s = .next ((s.commitEntry b e.e).2.setEntry b l.val (s.commitEntry b e.e).1.ph) := by
  change execSteerEntryLive l s = _
  simp only [execSteerEntryLive, he, hph, hbusy, hskip, reduceCtorEq, Bool.false_eq_true, or_self, if_false]
end

/-! A path that becomes live (R170, R180, R181). -/

section
variable {s : State} {l : Nat} (hl : l < 512)
include hl

theorem State.link_newLatency (j : Nat) :
    (s.newLatency l).link j = if j = l then { s.link l with latency := Config.freeValue s.freeCtr % 2 ^ 16 } else s.link j := by
  simp only [State.newLatency, State.free, State.setLatency, if_neg (Nat.not_le.mpr hl), State.link_setLink]
  rfl

theorem State.newLatency_rest : { s.newLatency l with links := s.links, freeCtr := s.freeCtr, cal := s.cal } = s := by
  simp only [State.newLatency, State.free, State.setLatency, if_neg (Nat.not_le.mpr hl), State.setLink, State.calWrite]

theorem State.link_pathLive {r : Nat} (hw : 8 ≤ maskWidth (s.rxMask r)) (j : Nat) :
    (s.pathLive l r).link j = if j = l then { s.link l with
      st := .live, mask := s.rxMask r, discarding := false, drain := false, sendAt := 0, pos := 0
      latency := Config.freeValue s.freeCtr % 2 ^ 16 } else s.link j := by
  simp only [State.pathLive, if_neg (Nat.not_lt.mpr hw), State.link_newLatency hl, State.link_setLink, if_true]
  split <;> rfl

theorem State.pathLive_rest {r : Nat} (hw : 8 ≤ maskWidth (s.rxMask r)) :
    { s.pathLive l r with links := s.links, freeCtr := s.freeCtr, cal := s.cal } = s := by
  simp only [State.pathLive, if_neg (Nat.not_lt.mpr hw), State.newLatency, State.free, State.setLatency, if_neg (Nat.not_le.mpr hl),
    State.setLink, State.calWrite]
end

/-- A mask built bit by bit from below holds the bits that the fold did not pass over. -/
theorem foldl_mask_lt_and_testBit (out : Nat → Bool) (n : Nat) :
    (List.range n).foldl (fun m k => if out k = true then m else m + 2 ^ k) 0 < 2 ^ n
    ∧ ∀ k, k < n → ((List.range n).foldl (fun m k => if out k = true then m else m + 2 ^ k) 0).testBit k = !out k := by
  induction n with
  | zero => exact ⟨Nat.one_pos, fun _ hk => absurd hk (Nat.not_lt_zero _)⟩
  | succ n ih =>
    obtain ⟨hlt, hbit⟩ := ih
    rw [List.range_succ, List.foldl_append, List.foldl_cons, List.foldl_nil]
    generalize (List.range n).foldl (fun m k => if out k = true then m else m + 2 ^ k) 0 = m at hlt hbit ⊢
    cases hout : out n with
    | true =>
      refine ⟨by rw [if_pos rfl]; omega, fun k hk => ?_⟩
      obtain hk | rfl := Nat.lt_succ_iff_lt_or_eq.mp hk
      · exact hbit k hk
      · rw [hout, if_pos rfl, Nat.testBit_lt_two_pow hlt]; rfl
    | false =>
      simp only [Bool.false_eq_true, if_false]
      refine ⟨by omega, fun k hk => ?_⟩
      rw [Nat.add_comm]
      obtain hk | rfl := Nat.lt_succ_iff_lt_or_eq.mp hk
      · rw [Nat.testBit_two_pow_add_gt hk]; exact hbit k hk
      · rw [Nat.testBit_two_pow_add_eq, Nat.testBit_lt_two_pow hlt, hout]

theorem State.bitAt_rxMask (s : State) (r : Nat) {k : Nat} (hk : k < 16) : bitAt (s.rxMask r) k = !(s.lane (16 * r + k)).excluded :=
  (foldl_mask_lt_and_testBit (fun k => (s.lane (16 * r + k)).excluded) 16).2 k hk

/-- Settles O36: each clause is the lemma above about its store, request, entry or path, with the branch that the clause's hypotheses take. -/
theorem steering : Obligations.Steering := by
  unfold Obligations.Steering
  refine ⟨?joins, ?full, ?refused, ?stage, ?staged, ?unstaged, ?commit, fun s b e => State.commitEntry_eq s b e,
    fun s b es d h => State.of_mem_clears h, ?stageEnd, ?commitEnd, ?drainDark, ?drainSwitch, ?drainBusy,
    fun l s b e he hph hbusy hskip => exec_steerEntryLive_trained he hbusy hskip hph, ?waited, ?live, fun s r k hk => s.bitAt_rxMask r hk⟩
  case joins =>
    intro i stage c set n en s b hi hb hn hq
    exact ⟨_, exec_steerStore hi hb, State.steerStore_of_room hn hq⟩
  case full =>
    intro i stage c set n s b hi hb hn hq
    obtain ⟨u, hstore, hown, hothers, hrest⟩ := State.steerStore_of_full (set := set) (stage := stage) (g := coreCluster c.val) hn hq
    have htally : u.tally (coreCluster c.val) n.toNat = s.tally (coreCluster c.val) n.toNat :=
      (congrArg (State.tally · (coreCluster c.val) n.toNat) hrest :)
    refine ⟨_, (exec_steerStore hi hb).trans (congrArg _ hstore), hown, by rw [State.tally_addTally, htally], hothers, ?_⟩
    exact (congrArg (fun t : State => { t with gateways := s.gateways }) hrest :)
  case refused =>
    rintro b s q l r hcur hq htally (⟨hset, rfl⟩ | ⟨set, hset, hbarn, rfl⟩)
    · exact ⟨_, exec_steerRequestStart_unloaded hcur hq hset, steersTo_steerEnd htally s b.val 2 _⟩
    · exact ⟨_, exec_steerRequestStart_foreign hcur hq hset hbarn, steersTo_steerEnd htally s b.val 3 _⟩
  case stage =>
    rintro b s s1 q l set hcur hq hset hbarn hstage rfl
    exact exec_steerRequestStart_stage hcur hq hset hbarn hstage
  case staged =>
    intro s b e hskip hdark hst hheld
    rw [stageEntry_eq, if_neg (by simp [hskip, hdark, hst, hheld])]
  case unstaged =>
    intro s b e h
    rw [stageEntry_eq, if_pos h]
  case commit =>
    intro b s s1 s2 q l set es hcur hq hset hbarn hstage hs1 hes
    refine ⟨?_, (exec_steerRequestStart_commit hcur hq hset hbarn hstage hs1).trans ?_⟩
    · exact (congrArg (fun r => r.1.map (·.e)) hes).trans (commitAll_map_e _ _ _)
    · rw [← hes]; rfl
  case stageEnd =>
    intro b s q es set hcur hstage htally hset
    exact ⟨_, exec_steerStageEnd hcur hstage hset, steersTo_steerEnd htally s b.val _ _⟩
  case commitEnd =>
    intro b s q es hcur hstage htally hes
    exact ⟨_, exec_steerCommitEnd hcur hstage hes, steersTo_steerEnd htally s b.val _ _⟩
  case drainDark =>
    intro l s b e he hph hbusy hskip hidle hcands hdark
    rw [exec_linkDrainComplete he hbusy hskip hph, if_neg (by simpa [hidle] using hcands), if_pos hdark]
  case drainSwitch =>
    intro l s b e he hph hbusy hskip hidle hcands hdark
    rw [exec_linkDrainComplete he hbusy hskip hph, if_neg (by simpa [hidle] using hcands), if_neg (by simp [hdark])]
  case drainBusy =>
    intro l s b e he hph hbusy hskip hidle
    rw [exec_linkDrainComplete he hbusy hskip hph, if_pos (.inl hidle)]
  case waited =>
    intro l s s1 b e e' he hph hbusy hskip hcommit
    rw [exec_steerEntryLive_waiting he hbusy hskip hph, ← hcommit]
  case live =>
    intro s l r hl hw
    exact ⟨by rw [State.link_pathLive hl hw, if_pos rfl], fun n hn => by rw [State.link_pathLive hl hw, if_neg hn], State.pathLive_rest hl hw⟩

end Sys2Proof.Machine
end

section
/-! PROOFS. A sweep of a link with a retired lane (spec/08 R204; spec/18 Table 18-4, kind 0x10). -/
namespace Sys2Proof.Machine

/-- Link 0 is swept on its standing path (R172), and lane 0 of its receive link 60 is retired: excluded until the next bring-up and not
retrained. -/
def sweptWithRetiredLane : State := { State.reset with
  links := [(0, { Link.init with st := .live, mask := 0xFFFE, rx := some 60, work := .calib false [] none })]
  lanes := [(16 * 60, { Lane.init with excluded := true, retired := true })] }

/-- All sixteen lanes trained, but the link comes back without the retired one. -/
theorem sweptWithRetiredLane_mask : ((sweptWithRetiredLane.calDone 0 false 0xFFFF 0 []).link 0).mask = 0xFFFE := by decide

/-- Refutes O37: a sweep that trains all sixteen lanes does not leave the mask 0xFFFF that the clause on the end of a sweep names. On
`sweptWithRetiredLane` the model keeps the retired lane out, as Table 18-4 has it (kind 0x10 at class 2), and the mask is 0xFFFE. -/
theorem not_lanesAndSweeps : ¬ Obligations.LanesAndSweeps := by
  unfold Obligations.LanesAndSweeps
  rintro ⟨-, -, -, -, -, -, -, -, -, -, -, -, -, -, -, -, -, -, -, -, -, -, -, -, hsweep, -⟩
  obtain ⟨t, hexec, hlink, -⟩ := hsweep (.linkSweepComplete 0 0xFFFF 0 []) false 0 0xFFFF 0 [] sweptWithRetiredLane 60 (.inl ⟨rfl, rfl⟩)
    (by decide) (by decide) (by decide)
  have ht : sweptWithRetiredLane.calDone 0 false 0xFFFF 0 [] = t := Host.Outcome.next.inj hexec
  have hmask : (t.link 0).mask = 0xFFFF := congrArg Link.mask hlink
  rw [← ht, sweptWithRetiredLane_mask] at hmask
  exact absurd hmask (by decide)

end Sys2Proof.Machine
end

section
/-! PROOFS. An injected fault of a helm half (spec/12 R320; spec/13 R330 to R334; spec/18 R451, Table 18-4, kind 0x30). -/
namespace Sys2Proof.Machine

/-! A command that is served (Table 13-9). -/

/-- A command whose framing is right, at a berth that may send it, is answered with what its own work makes of it. -/
theorem serve_of_asked {s : State} {b k opcode need : Nat} {c : Cmd} (h : s.asked b k opcode need c) {berths : Nat → Bool}
    (hb : berths b = true) (f : Cmd → State → Rep × State) :
    serve b k opcode berths need f s = .next ((f c s).2.answered b k c (f c s).1) := by
  obtain ⟨hreq, hfatal, hform⟩ := h
  have hopen : ¬(s.gleaner.fatal = true ∧ (!fatalServes b opcode) = true) := fun ⟨hf, hs⟩ => by simp [hfatal hf] at hs
  simp only [serve, hreq, if_neg hopen, hb, hform, Bool.not_true, Bool.false_eq_true, if_false]
  rfl

/-! What a retired half does to the pair (R320, R327, R335, R337). -/

@[simp] theorem State.msix_helm (s : State) (f vec : Nat) : (s.msix f vec).helm = s.helm := by
  unfold State.msix
  (repeat' split) <;> rfl

@[simp] theorem State.berthRaise_helm (s : State) (b n : Nat) : (s.berthRaise b n).helm = s.helm := by
  unfold State.berthRaise State.berthNotify
  (repeat' split) <;> simp

@[simp] theorem State.postNotice_helm (s : State) (b nkind : Nat) (body : List Byte) : (s.postNotice b nkind body).helm = s.helm := by
  unfold State.postNotice
  dsimp only
  (repeat' split) <;> simp

@[simp] theorem State.repostNotice_helm (s : State) (b : Nat) (bytes : List Byte) : (s.repostNotice b bytes).helm = s.helm := by
  unfold State.repostNotice
  dsimp only
  split <;> simp

@[simp] theorem State.repostReply_helm (s : State) (b k : Nat) (bytes : List Byte) : (s.repostReply b k bytes).helm = s.helm := by
  unfold State.repostReply
  dsimp only
  split <;> simp

@[simp] theorem State.repostAll_helm (s : State) : s.repostAll.helm = s.helm :=
  List.foldlRecOn s.posted _ (motive := fun t : State => t.helm = s.helm) rfl fun t ht p _ => by
    rw [← ht]
    (repeat' split) <;> simp

/-- The half goes out, and nothing of what is posted touches the pair again. -/
theorem State.halfOut_helm (s : State) (half : Nat) : (s.halfOut half).helm = s.helm.oneHalf half := by
  simp [State.halfOut, State.helmNotice]

/-- From PAIRED, the pair tells whether a half went out. -/
theorem State.answered_ne_answered_halfOut {s : State} (h : s.helm.st = .paired) (b k : Nat) (c : Cmd) (r : Rep) (half : Nat) :
    s.answered b k c r ≠ (s.halfOut half).answered b k c r := fun heq => by
  have hhelm : s.helm = s.helm.oneHalf half := (congrArg State.helm heq).trans (s.halfOut_helm half)
  have hst := h.symm.trans (congrArg Helm.st hhelm)
  cases hst

/-! FAULT_INJECT (R451). -/

theorem exec_faultInject {b : BerthId} {k : Fin 7} {s : State} {c : Cmd} (hb : b.val = 271) (h : s.asked b.val k.val 0x7F10 16 c)
    (hfactory : s.factoryMode = true) (hkind : (kindRow (c.at 0 2)).isSome = true) {s1 : State}
    (hs1 : s1 = s.record (c.at 0 2) (c.at 2 1) (c.at 4 4) (c.at 8 8) s.reckon none true) :
    exec (.faultInject b k) s = .next (State.answered
      (if c.at 0 2 = 0x30 ∧ s1.gleaner.lastClass = 1 ∧ s1.helm.st = .paired ∧ s1.helm.stopped = false then s1.halfOut (c.at 4 4 % 2) else s1)
      b.val k.val c (Rep.ok [])) := by
  change execFaultInject b k s = _
  rw [execFaultInject, serve_of_asked h (by simp [hb])]
  have hrow : (kindRow (c.at 0 2)).isNone = false := by rw [← Option.not_isSome, hkind]; rfl
  simp only [hfactory, hrow, Bool.not_true, Bool.false_eq_true, if_false, Bool.not_eq_true', ← hs1]

/-- FAULT_INJECT of kind 0x30 at helm half 0: a header with the opcode and LENGTH 16, then the kind and unit type 15 (Table 13-7, R451). -/
def halfFaultBytes : List Byte := leBytes 32 (0x7F10 + 16 * 2 ^ 16) ++ leBytes 16 (0x30 + 15 * 2 ^ 16)
/-- The same as berth 271 takes it from JTAG. -/
def halfFaultCmd : Cmd := parseCmd 271 idJtag halfFaultBytes
/-- Factory test mode with the helm pair in step, where slot 0 of berth 271 serves `halfFaultCmd`. -/
def injectsHalfFault : State := { State.reset with
  factoryMode := true
  helm := { Helm.init with st := .paired }
  berths := [(271, { Berth.init with slots := [(0, ⟨.serving, idJtag, false, halfFaultBytes, none⟩)] })] }

theorem injectsHalfFault_asked : injectsHalfFault.asked 271 0 0x7F10 16 halfFaultCmd := ⟨by decide, by decide, by decide⟩

/-- The injected report is of class 1, and its record leaves the pair in step. -/
theorem injectsHalfFault_record {t : State} (ht : t = injectsHalfFault.record (halfFaultCmd.at 0 2) (halfFaultCmd.at 2 1) (halfFaultCmd.at 4 4)
    (halfFaultCmd.at 8 8) injectsHalfFault.reckon none true) :
    halfFaultCmd.at 0 2 = 0x30 ∧ t.gleaner.lastClass = 1 ∧ t.helm.st = .paired ∧ t.helm.stopped = false := by
  subst ht
  decide

/-- Refutes O47: an injected fault of kind 0x30 at helm half 0 does more than the record that the clause on FAULT_INJECT names. On
`injectsHalfFault` the model carries out the action of Table 18-4 as well (R451), so that the half goes out and the pair is in SINGLE. -/
theorem not_plantCommands : ¬ Obligations.PlantCommands := by
  unfold Obligations.PlantCommands
  rintro ⟨-, -, -, -, -, -, -, -, -, -, -, -, -, -, -, -, -, -, -, -, -, hinject, -⟩
  have hclaim := hinject 271 0 injectsHalfFault halfFaultCmd rfl injectsHalfFault_asked rfl (by decide)
  have hexec := exec_faultInject (b := 271) (k := 0) rfl injectsHalfFault_asked rfl (by decide) rfl
  obtain ⟨hkind, hclass, hpaired, hgoing⟩ := injectsHalfFault_record rfl
  rw [hclaim, if_pos ⟨hkind, hclass, hpaired, hgoing⟩] at hexec
  exact State.answered_ne_answered_halfOut hpaired _ _ _ _ _ (Host.Outcome.next.inj hexec)

end Sys2Proof.Machine
end

section
/-! PROOFS. Temperature sensors, quality figures, ring residuals, retrims and rechecks (spec/08 R192 to R203; spec/18 R452 to R459). -/
namespace Sys2Proof.Machine

/-! What a table of sensors or lanes reads after its update. -/

@[simp] theorem State.sensor_setSensor (s : State) (n : Nat) (x : Sensor) (k : Nat) :
    (s.setSensor n x).sensor k = if k = n then x else s.sensor k := by
  simp [State.sensor, State.setSensor]
@[simp] theorem State.lane_setLane (s : State) (n : Nat) (x : Lane) (k : Nat) :
    (s.setLane n x).lane k = if k = n then x else s.lane k := by
  simp [State.lane, State.setLane]

/-! What the steps of a sample touch (R351, R448, R455): the sensor, the reports, its zone, the pins, the outputs and the functions. -/

/-- `t` with all that a sample may touch as it is in `s`. -/
def State.unsampled (t s : State) : State :=
  { t with sensors := s.sensors, reports := s.reports, zones := s.zones, pins := s.pins, out := s.out, fns := s.fns }

section
variable (s r : State)

@[simp] theorem State.unsampled_self : s.unsampled s = s := rfl
@[simp] theorem State.unsampled_setSensor (n : Nat) (x : Sensor) : (s.setSensor n x).unsampled r = s.unsampled r := rfl
@[simp] theorem State.unsampled_report (k u d : Nat) : (s.report k u d).unsampled r = s.unsampled r := rfl
@[simp] theorem State.unsampled_msix (f vec : Nat) : (s.msix f vec).unsampled r = s.unsampled r := by
  unfold State.msix
  (repeat' split) <;> rfl
@[simp] theorem State.unsampled_thermFollow : s.thermFollow.unsampled r = s.unsampled r := by
  unfold State.thermFollow
  split <;> rfl
@[simp] theorem State.unsampled_zoneBand (z : Nat) (x : Int) : (s.zoneBand z x).unsampled r = s.unsampled r := by
  unfold State.zoneBand
  dsimp only
  split <;> rfl

@[simp] theorem State.sensor_report (k u d n : Nat) : (s.report k u d).sensor n = s.sensor n := rfl
@[simp] theorem State.sensor_msix (f vec n : Nat) : (s.msix f vec).sensor n = s.sensor n := by
  unfold State.msix
  (repeat' split) <;> rfl
@[simp] theorem State.sensor_thermFollow (n : Nat) : s.thermFollow.sensor n = s.sensor n := by
  unfold State.thermFollow
  split <;> rfl
@[simp] theorem State.sensor_zoneBand (z : Nat) (x : Int) (n : Nat) : (s.zoneBand z x).sensor n = s.sensor n := by
  unfold State.zoneBand
  dsimp only
  split <;> rfl

@[simp] theorem State.report_reports (k u d : Nat) : (s.report k u d).reports = s.reports ++ [⟨k, u, d, s.reckon, none⟩] := rfl
@[simp] theorem State.setSensor_reports (n : Nat) (x : Sensor) : (s.setSensor n x).reports = s.reports := rfl
@[simp] theorem State.setSensor_reckon (n : Nat) (x : Sensor) : (s.setSensor n x).reckon = s.reckon := rfl
@[simp] theorem State.msix_reports (f vec : Nat) : (s.msix f vec).reports = s.reports := by
  unfold State.msix
  (repeat' split) <;> rfl
@[simp] theorem State.thermFollow_reports : s.thermFollow.reports = s.reports := by
  unfold State.thermFollow
  split <;> rfl
end

/-! Flags (R455). -/

section
variable (s : State) (n : Nat) (x : Int)

theorem State.judgeFlags_unsampled (r : State) : (s.judgeFlags n x).unsampled r = s.unsampled r := by
  simp [State.judgeFlags, apply_ite (State.unsampled · r)]

theorem State.judgeFlags_sensor (k : Nat) : (s.judgeFlags n x).sensor k = if k = n then { s.sensor n with
    last := some x
    warn := flagAt (s.sensor n).warn (thresholds n).warnSet (thresholds n).warnClear x
    throttle := flagAt (s.sensor n).throttle (thresholds n).throttleSet (thresholds n).throttleClear x } else s.sensor k := by
  simp [State.judgeFlags, apply_ite (State.sensor · k)]

/-- Every report of a sample's flags comes after those that wait. -/
theorem State.judgeFlags_reports : ∃ l, (s.judgeFlags n x).reports = s.reports ++ l := by
  simp only [State.judgeFlags, State.thermFollow_reports, apply_ite State.reports, State.msix_reports, ite_self, State.report_reports,
    State.setSensor_reports]
  split <;> split <;> simp
end

/-! Samples (R452 to R456). -/

theorem State.validSample_unsampled (s : State) (n : Nat) (x : Int) (r : State) : (s.validSample n x).unsampled r = s.unsampled r := by
  simp [State.validSample, apply_ite (State.unsampled · r), State.judgeFlags_unsampled]

theorem State.validSample_sensor {s : State} {n : Nat} (h : (s.sensor n).retired = false) (x : Int) (k : Nat) :
    (s.validSample n x).sensor k = if k = n then { s.sensor n with
      last := some x
      warn := flagAt (s.sensor n).warn (thresholds n).warnSet (thresholds n).warnClear x
      throttle := flagAt (s.sensor n).throttle (thresholds n).throttleSet (thresholds n).throttleClear x
      run := if (thresholds n).shutdown ≤ x then min 2 ((s.sensor n).run + 1) else 0
      fast := flagAt (s.sensor n).fast (thresholds n).fast (thresholds n).slow x } else s.sensor k := by
  by_cases hk : k = n
  · subst hk
    simp [State.validSample, apply_ite (State.sensor · k), State.judgeFlags_sensor, h, flagAt]
  · simp [State.validSample, apply_ite (State.sensor · k), State.judgeFlags_sensor, hk]

section
variable {n : SensorId} {s : State} (w : BitVec 16) (hon : s.sensorOn n.val = true) (hin : (s.sensor n.val).retired = false)
include hon hin

/-- An output of a sensor in service that is past its three invalid ones is a sample, unless slow mode leaves it out. -/
theorem exec_sensorSample_valid (hv : n.val < 576 → (s.sensor n.val).invalid = 0) :
    exec (.sensorSample n w) s = .next (if (s.sensor n.val).fast = false ∧ (s.sensor n.val).phase ≠ 0 then
        s.setSensor n.val { s.sensor n.val with phase := ((s.sensor n.val).phase + 1) % 20 }
      else (s.setSensor n.val { s.sensor n.val with phase := ((s.sensor n.val).phase + 1) % 20 }).validSample n.val (signedOf 16 w.toNat)) := by
  change execSensorSample n w s = _
  have hpast : ¬(n.val < 576 ∧ (s.sensor n.val).invalid ≠ 0) := fun ⟨hn, h⟩ => h (hv hn)
  by_cases hslow : (s.sensor n.val).fast = false ∧ (s.sensor n.val).phase ≠ 0 <;>
    simp [execSensorSample, hon, hin, hpast, hslow]

theorem exec_sensorSample_invalid (hn : n.val < 576) {k : Nat} (hk : (s.sensor n.val).invalid = k + 1) :
    exec (.sensorSample n w) s = .next (s.setSensor n.val { s.sensor n.val with invalid := k }) := by
  change execSensorSample n w s = _
  simp [execSensorSample, hon, hin, hn, hk]
end

/-! Residuals of sensors (R197), and their retirement (R459). -/

theorem exec_sensorResidualCheck {n : Fin 576} {s : State} (w : BitVec 16) (hon : s.sensorOn n.val = true)
    (hin : (s.sensor n.val).retired = false) (hlast : (s.sensor n.val).last ≠ none) {s1 s2 : State}
    (h1 : s1 = s.setSensor n.val { s.sensor n.val with
      residWarn := decide (15 < (signedOf 16 w.toNat).natAbs), resid := signedOf 16 w.toNat })
    (h2 : s2 = if 15 < (signedOf 16 w.toNat).natAbs ∧ (s.sensor n.val).residWarn = false then
      s1.report 0x15 (13 * 2 ^ 24 + n.val) (signedOf 16 w.toNat).natAbs else s1) :
    exec (.sensorResidualCheck n w) s = .next (if 30 < (signedOf 16 w.toNat).natAbs then s2.retireSensor n.val else s2) := by
  change execSensorResidualCheck n w s = _
  subst h1 h2
  simp [execSensorResidualCheck, hon, hin, hlast]

section
variable (s : State) (n : Nat)

/-- The flags that the mean of its neighbours sets for sensor `n`. -/
def State.meanFlags : State := match s.sensorMean n with
  | some x => s.judgeFlags n x
  | none => s

theorem State.meanFlags_eq : s.meanFlags n = s ∨ ∃ x, s.meanFlags n = s.judgeFlags n x := by
  unfold State.meanFlags
  split
  · exact .inr ⟨_, rfl⟩
  · exact .inl rfl

theorem State.meanFlags_sensor_of_ne {k : Nat} (hk : k ≠ n) : (s.meanFlags n).sensor k = s.sensor k := by
  obtain h | ⟨x, h⟩ := s.meanFlags_eq n
  · rw [h]
  · rw [h, State.judgeFlags_sensor, if_neg hk]

theorem State.meanFlags_retired : ((s.meanFlags n).sensor n).retired = (s.sensor n).retired := by
  obtain h | ⟨x, h⟩ := s.meanFlags_eq n
  · rw [h]
  · rw [h, State.judgeFlags_sensor, if_pos rfl]

theorem State.meanFlags_reports : ∃ l, (s.meanFlags n).reports = s.reports ++ l := by
  obtain h | ⟨x, h⟩ := s.meanFlags_eq n
  · exact ⟨[], by rw [h, List.append_nil]⟩
  · rw [h]
    exact s.judgeFlags_reports n x

/-- R459: a sensor of a die that retires has no sample of its own left, and without both its sensors a cluster is unwatched. -/
theorem State.retireSensor_of_in_service (h : (s.sensor n).retired = false) {s1 s2 s3 : State}
    (h1 : s1 = (s.setSensor n { s.sensor n with retired := true, residWarn := false, run := 0 }).report 0x43 n 0) (h2 : s2 = s1.meanFlags n)
    (h3 : s3 = if n < 512 then s2.setSensor n { s2.sensor n with last := none } else s2) :
    s.retireSensor n = if n < 512 ∧ (s3.sensor (if n % 2 = 0 then n + 1 else n - 1)).retired = true then s3.report 0x44 (n / 2) 0 else s3 := by
  subst h1 h2 h3
  simp only [State.retireSensor, h, Bool.false_eq_true, if_false]
  rfl

theorem State.retireSensor_retires (h : (s.sensor n).retired = false) : ((s.retireSensor n).sensor n).retired = true
    ∧ (∀ k, k ≠ n → (s.retireSensor n).sensor k = s.sensor k)
    ∧ ∃ l, (s.retireSensor n).reports = s.reports ++ ⟨0x43, n, 0, s.reckon, none⟩ :: l := by
  rw [State.retireSensor_of_in_service s n h rfl rfl rfl]
  generalize hs1 : (s.setSensor n _).report _ _ _ = s1
  generalize hs3 : (if n < 512 then (s1.meanFlags n).setSensor n _ else s1.meanFlags n) = s3
  have hretired : (s3.sensor n).retired = true := by
    subst hs1 hs3
    split <;> simp [State.meanFlags_retired]
  have hother : ∀ k, k ≠ n → s3.sensor k = s.sensor k := fun k hk => by
    subst hs1 hs3
    split <;> simp [State.meanFlags_sensor_of_ne, hk]
  have hreports : ∃ l, s3.reports = s.reports ++ ⟨0x43, n, 0, s.reckon, none⟩ :: l := by
    obtain ⟨l, hl⟩ := s1.meanFlags_reports n
    refine ⟨l, ?_⟩
    subst hs1 hs3
    split <;> simp [hl]
  obtain ⟨l, hl⟩ := hreports
  generalize (if n % 2 = 0 then n + 1 else n - 1) = mate
  split
  · exact ⟨hretired, hother, l ++ [⟨0x44, n / 2, 0, s3.reckon, none⟩], by simp [hl]⟩
  · exact ⟨hretired, hother, l, hl⟩
end

/-! Quality figures of a lane (R197 to R199). -/

/-- `s` with the lanes `l`. -/
def State.withLanes (s : State) (l : Map Lane) : State := { s with lanes := l }

@[simp] theorem State.withLanes_setLane (s : State) (i : Nat) (x : Lane) (l : Map Lane) : (s.setLane i x).withLanes l = s.withLanes l := rfl

/-- States alike but for their lanes agree in whatever looks at no lane. -/
theorem State.eq_of_withLanes {α : Type} {s t : State} {l m : Map Lane} (f : State → α) (hf : ∀ u k, f (u.withLanes k) = f u)
    (h : t.withLanes l = s.withLanes m) : f t = f s := by
  rw [← hf t l, h, hf]

/-- From `s` to `t` only lane `i` changes, to `x`. -/
def State.laneTo (s t : State) (i : Nat) (x : Lane) : Prop :=
  t.lane i = x ∧ (∀ j, j ≠ i → t.lane j = s.lane j) ∧ t.withLanes s.lanes = s

theorem State.laneTo_setLane_setLane (s : State) (i : Nat) (x y : Lane) : s.laneTo ((s.setLane i x).setLane i y) i y := by
  refine ⟨by simp, fun j hj => by simp [hj], ?_⟩
  rw [State.withLanes_setLane, State.withLanes_setLane]
  rfl

@[simp] theorem State.txLink_setLane (s : State) (i : Nat) (x : Lane) (n : Nat) : (s.setLane i x).txLink n = s.txLink n := rfl

section
variable (s : State) (n k bit : Nat)

/-- Inside the warning limit both conditions of the figure clear. -/
theorem State.judgeLane_inside (act : Bool) : s.judgeLane n k bit false act = s.setLane (16 * n + k) { s.lane (16 * n + k) with
    warn := (s.lane (16 * n + k)).warn &&& (7 - 2 ^ bit), action := (s.lane (16 * n + k)).action &&& (7 - 2 ^ bit) } := rfl

/-- Between the warning and the action limit a new condition is a note (kind 0x15). -/
theorem State.judgeLane_note (hnew : bitAt (s.lane (16 * n + k)).warn bit = false) :
    s.judgeLane n k bit true false = (s.setLane (16 * n + k) { s.lane (16 * n + k) with
      warn := (s.lane (16 * n + k)).warn ||| 2 ^ bit }).report 0x15 (7 * 2 ^ 24 + (16 * n + k)) bit := by
  simp [State.judgeLane, hnew]

/-- Beyond the action limit, with the warning already told, a new condition asks a sweep of the link. -/
theorem State.judgeLane_sweep (htold : bitAt (s.lane (16 * n + k)).warn bit = true) (hnew : bitAt (s.lane (16 * n + k)).action bit = false)
    {l : Nat} (hl : s.txLink n = some l) :
    s.judgeLane n k bit true true = (s.setLane (16 * n + k) { s.lane (16 * n + k) with
      warn := (s.lane (16 * n + k)).warn ||| 2 ^ bit, action := (s.lane (16 * n + k)).action ||| 2 ^ bit }).calAsk l false 0 false := by
  simp [State.judgeLane, htold, hnew, hl]
end

section
variable {s : State} {n : Nat} (hfit : s.linkParked n = false) (hlight : s.rxFramed n = true) (k bit : Nat) (f : Lane → Lane) {x : Lane}
  (hx : x = f (s.lane (16 * n + k)))
include hfit hlight

theorem State.laneFigure_framed (warn act : Bool) : s.laneFigure n k bit warn act f =
    (s.setLane (16 * n + k) { f (s.lane (16 * n + k)) with updated := some s.reckon }).judgeLane n k bit warn act := by
  simp [State.laneFigure, hfit, hlight]

include hx

theorem State.laneFigure_inside {warn : Bool} (hwarn : warn = false) (act : Bool) : s.laneTo (s.laneFigure n k bit warn act f) (16 * n + k)
    { x with updated := some s.reckon, warn := x.warn &&& (7 - 2 ^ bit), action := x.action &&& (7 - 2 ^ bit) } := by
  subst hx hwarn
  rw [State.laneFigure_framed hfit hlight, State.judgeLane_inside]
  simp only [State.lane_setLane, if_true]
  exact State.laneTo_setLane_setLane s _ _ _

theorem State.laneFigure_note {warn act : Bool} (hwarn : warn = true) (hact : act = false) (hnew : bitAt x.warn bit = false) :
    ∃ u, s.laneFigure n k bit warn act f = u.report 0x15 (7 * 2 ^ 24 + (16 * n + k)) bit
      ∧ s.laneTo u (16 * n + k) { x with updated := some s.reckon, warn := x.warn ||| 2 ^ bit } := by
  subst hx hwarn hact
  rw [State.laneFigure_framed hfit hlight, State.judgeLane_note _ _ _ _ (by simpa using hnew)]
  simp only [State.lane_setLane, if_true]
  exact ⟨_, rfl, State.laneTo_setLane_setLane s _ _ _⟩

theorem State.laneFigure_sweep {warn act : Bool} (hwarn : warn = true) (hact : act = true) (htold : bitAt x.warn bit = true)
    (hnew : bitAt x.action bit = false) {l : Nat} (hl : s.txLink n = some l) :
    ∃ u, s.laneFigure n k bit warn act f = u.calAsk l false 0 false
      ∧ s.laneTo u (16 * n + k) { x with updated := some s.reckon, warn := x.warn ||| 2 ^ bit, action := x.action ||| 2 ^ bit } := by
  subst hx hwarn hact
  rw [State.laneFigure_framed hfit hlight,
    State.judgeLane_sweep _ _ _ _ (by simpa using htold) (by simpa using hnew) ((s.txLink_setLane _ _ n).trans hl)]
  simp only [State.lane_setLane, if_true]
  exact ⟨_, rfl, State.laneTo_setLane_setLane s _ _ _⟩
end

theorem State.laneFigure_unlit {s : State} {n : Nat} (hlight : s.rxFramed n = false) (hsweep : s.rxSwept n = false) (k bit : Nat)
    (warn act : Bool) (f : Lane → Lane) : s.laneFigure n k bit warn act f = s := by
  simp [State.laneFigure, hlight, hsweep]

/-! The exclusion window (R198). -/

/-- The corrected symbols of lane `k` in the window that ends. -/
def State.windowCount (s : State) (n : Nat) (corrected : List (Fin 16 × Nat)) (k : Nat) : Nat :=
  ((corrected.find? fun x => decide (x.1.val = k)).map (·.2)).getD 0 + (s.lane (16 * n + k)).corr
/-- A lane once its share of all `total` corrected symbols is taken. -/
def Lane.shared (x : Lane) (count total now : Nat) : Lane :=
  { x with share := if total = 0 then 0 else min 255 (256 * count / total), updated := some now, corr := 0 }

theorem Lane.shared_of_single {x : Lane} {p : Prop} [Decidable p] {c now : Nat} (hc : 0 < c) : x.shared (if p then c else 0) c now =
    { x with share := if p then 255 else 0, updated := some now, corr := 0 } := by
  by_cases hp : p <;> simp [Lane.shared, hp, Nat.ne_of_gt hc, Nat.mul_div_cancel _ hc]

/-- The first `m` lanes of receiver `n` as a window ends. -/
def State.windowEnd (s : State) (n : Nat) (count : Nat → Nat) (total m : Nat) : State :=
  (List.range m).foldl (fun t k => t.setLane (16 * n + k) ((t.lane (16 * n + k)).shared (count k) total t.reckon)) s
/-- The lane with more than half of the corrected symbols, and at least 4,096. -/
def worstLane (count : Nat → Nat) (total : Nat) : Option Nat :=
  (List.range 16).find? fun k => decide (total < 2 * count k) && decide (4096 ≤ count k)

/-- The worst lane, if there is one, leaves the width of the receiver's link. -/
def State.excludeWorst (t : State) (n : Nat) (worst : Option Nat) : State := match worst, t.txLink n with
  | some k, some l => t.excludeLane l k true
  | _, _ => t

section
variable (s : State) (n : Nat) (count : Nat → Nat) (total m : Nat)

theorem State.windowEnd_succ : s.windowEnd n count total (m + 1) = (s.windowEnd n count total m).setLane (16 * n + m)
    (((s.windowEnd n count total m).lane (16 * n + m)).shared (count m) total (s.windowEnd n count total m).reckon) := by
  simp only [State.windowEnd, List.range_succ, List.foldl_append, List.foldl_cons, List.foldl_nil]

theorem State.withLanes_windowEnd (l : Map Lane) : (s.windowEnd n count total m).withLanes l = s.withLanes l := by
  induction m with
  | zero => rfl
  | succ m ih => rw [State.windowEnd_succ, State.withLanes_setLane, ih]

theorem State.reckon_windowEnd : (s.windowEnd n count total m).reckon = s.reckon :=
  State.eq_of_withLanes State.reckon (fun _ _ => rfl) (s.withLanes_windowEnd n count total m [])

theorem State.txLink_windowEnd (k : Nat) : (s.windowEnd n count total m).txLink k = s.txLink k :=
  State.eq_of_withLanes (State.txLink · k) (fun _ _ => rfl) (s.withLanes_windowEnd n count total m [])

theorem State.lane_windowEnd (j : Nat) : (s.windowEnd n count total m).lane j =
    if 16 * n ≤ j ∧ j < 16 * n + m then (s.lane j).shared (count (j - 16 * n)) total s.reckon else s.lane j := by
  induction m with
  | zero => rw [if_neg (by omega)]; rfl
  | succ m ih =>
    rw [State.windowEnd_succ, State.lane_setLane, State.reckon_windowEnd]
    by_cases hj : j = 16 * n + m
    · subst hj
      rw [if_pos rfl, ih, if_neg (by omega), if_pos (by omega), Nat.add_sub_cancel_left]
    · rw [if_neg hj, ih]
      by_cases hin : 16 * n ≤ j ∧ j < 16 * n + m
      · rw [if_pos hin, if_pos (by omega)]
      · rw [if_neg hin, if_neg (by omega)]

theorem State.lane_windowEnd_of_lt {k : Nat} (hk : k < m) :
    (s.windowEnd n count total m).lane (16 * n + k) = (s.lane (16 * n + k)).shared (count k) total s.reckon := by
  rw [State.lane_windowEnd, if_pos (by omega), Nat.add_sub_cancel_left]

theorem State.lane_windowEnd_of_other {j : Nat} (hj : j / 16 ≠ n) : (s.windowEnd n count total 16).lane j = s.lane j := by
  rw [State.lane_windowEnd, if_neg (by omega)]
end

/-- Where one place alone counts, the total of the places before `m` is its count. -/
theorem foldl_add_single {count : Nat → Nat} {k c : Nat} (m : Nat) (h : ∀ j, j < m → count j = if j = k then c else 0) :
    (List.range m).foldl (fun a j => a + count j) 0 = if k < m then c else 0 := by
  induction m with
  | zero => rfl
  | succ m ih =>
    rw [List.range_succ, List.foldl_append, ih fun j hj => h j (by omega), List.foldl_cons, List.foldl_nil, h m (by omega)]
    rcases Nat.lt_trichotomy k m with hk | hk | hk
    · rw [if_pos hk, if_neg (by omega), if_pos (by omega), Nat.add_zero]
    · rw [if_neg (by omega), if_pos hk.symm, if_pos (by omega), Nat.zero_add]
    · rw [if_neg (by omega), if_neg (by omega), if_neg (by omega)]

theorem exec_exclusionWindowEnd {s : State} {n : Fin 584} {corrected : List (Fin 16 × Nat)} {count : Nat → Nat} {total : Nat}
    (hfit : s.linkParked n.val = false) (hlight : s.rxFramed n.val = true) (hcount : s.windowCount n.val corrected = count)
    (htotal : (List.range 16).foldl (fun a k => a + count k) 0 = total) :
    exec (.exclusionWindowEnd n corrected) s = .next ((s.windowEnd n.val count total 16).excludeWorst n.val (worstLane count total)) := by
  have hnext : ∀ (t : State) (o : Option Nat), (match o, t.txLink n.val with
      | some k, some l => (.next (t.excludeLane l k true) : Out)
      | _, _ => .next t) = .next (t.excludeWorst n.val o) := fun t o => by
    unfold State.excludeWorst
    cases o <;> cases t.txLink n.val <;> rfl
  subst hcount htotal
  change execExclusionWindowEnd n corrected s = _
  simp only [execExclusionWindowEnd, hfit, hlight, Bool.not_true, Bool.false_eq_true, or_self, if_false]
  exact hnext _ _

/-- A window with the corrected symbols of lane `k` alone. -/
theorem State.windowCount_single {s : State} {n j : Nat} (k : Fin 16) (c : Nat) (hcorr : (s.lane (16 * n + j)).corr = 0) :
    s.windowCount n [(k, c)] j = if j = k.val then c else 0 := by
  by_cases hj : j = k.val
  · subst hj
    simp [State.windowCount, hcorr]
  · simp [State.windowCount, hcorr, hj, Ne.symm hj]

theorem State.excludeWorst_some {t : State} {n k l : Nat} (hl : t.txLink n = some l) : t.excludeWorst n (some k) = t.excludeLane l k true := by
  simp only [State.excludeWorst, hl]

theorem worstLane_eq_none {count : Nat → Nat} (h : ∀ k, k < 16 → count k < 4096) (total : Nat) : worstLane count total = none := by
  rw [worstLane, List.find?_eq_none]
  intro k hk
  have hk := h k (List.mem_range.1 hk)
  simp [Nat.not_le.2 hk]

/-- All corrected symbols of the window on one lane. -/
theorem worstLane_single {count : Nat → Nat} {k c : Nat} (hcount : ∀ j, j < 16 → count j = if j = k then c else 0) (hk : k < 16)
    (hc : 4096 ≤ c) : worstLane count c = some k := by
  rw [worstLane, List.find?_range_eq_some]
  refine ⟨?_, List.mem_range.2 hk, fun j hj => ?_⟩
  · have hhalf : c < 2 * c := by omega
    simp [hcount k hk, hc, hhalf]
  · simp [hcount j (by omega), Nat.ne_of_lt hj]

/-! The calibration state as it reads after a write (R203, Table 8-2). -/

theorem signedOf_twelve (x : Nat) :
    signedOf 12 x = if 2048 ≤ x % 4096 then ((x % 4096 : Nat) : Int) - 4096 else ((x % 4096 : Nat) : Int) := rfl

theorem wrapTo_twelve (v : Int) : wrapTo 12 v = (v % 4096).toNat := rfl

theorem signedOf_wrapTo_twelve {v : Int} (h1 : -2048 ≤ v) (h2 : v ≤ 2047) : signedOf 12 (wrapTo 12 v) = v := by
  rw [signedOf_twelve, wrapTo_twelve]
  split <;> omega

theorem signedOf_twelve_bounds (x : Nat) : -2048 ≤ signedOf 12 x ∧ signedOf 12 x ≤ 2047 := by
  rw [signedOf_twelve]
  split <;> omega

theorem wrapTo_lt (w : Nat) (v : Int) : wrapTo w v < 2 ^ w := by
  have h : 0 < ((2 ^ w : Nat) : Int) := Int.natCast_pos.2 (Nat.two_pow_pos w)
  have h0 := Int.emod_nonneg v (Int.ne_of_gt h)
  have h1 := Int.emod_lt_of_pos v h
  unfold wrapTo
  omega

theorem memRead_memWrite (m : Mem) (a : Nat) (bs : List Byte) : memRead (memWrite m a bs) a bs.length = bs := by
  refine List.ext_getElem (memRead_length _ _ _) fun i _ hi => ?_
  simp [memRead, memGet_memWrite, hi]

theorem memRead_memWrite_of_disjoint (m : Mem) {a x n : Nat} {bs : List Byte} (h : a + bs.length ≤ x ∨ x + n ≤ a) :
    memRead (memWrite m a bs) x n = memRead m x n := by
  refine List.map_congr_left fun i hi => ?_
  have hi := List.mem_range.1 hi
  rw [memGet_memWrite, if_neg (by omega)]

theorem calFit_length (sec : Nat) (bs : List Byte) : ∀ off, (calFit sec off bs).length = bs.length := by
  induction bs with
  | nil => exact fun _ => rfl
  | cons b bs ih => exact fun off => congrArg (· + 1) (ih (off + 1))

section
variable (s : State) (sec off : Nat) (bs : List Byte)

theorem State.calRead_calWrite : (s.calWrite sec off bs).calRead sec off bs.length = leVal (calFit sec off bs) := by
  rw [State.calRead, State.calWrite, ← calFit_length sec bs off, memRead_memWrite]

theorem State.calRead_calWrite_of_disjoint {x n : Nat} (h : off + bs.length ≤ x ∨ x + n ≤ off) :
    (s.calWrite sec off bs).calRead sec x n = s.calRead sec x n := by
  rw [State.calRead, State.calWrite, memRead_memWrite_of_disjoint _ (by rw [calFit_length]; omega), State.calRead]
end

theorem leVal_calFit_offset {v : Nat} (hv : v < 2 ^ 12) (r : Nat) : leVal (calFit 1 (2 * r) (leBytes 2 v)) = v := by
  have hodd : (2 * r + 1) % 2 = 1 := by omega
  have hlow : v % 256 &&& 255 = v % 256 := (Nat.and_two_pow_sub_one_eq_mod _ 8).trans (by omega)
  have hhigh : v / 256 % 256 &&& 15 = v / 256 := (Nat.and_two_pow_sub_one_eq_mod _ 4).trans (by omega)
  simp [leBytes, calFit, calMask, leVal, hodd, hlow, hhigh, Nat.mod_add_div]

theorem leVal_calFit_band {v : Nat} (hv : v < 2 ^ 16) (off : Nat) : leVal (calFit 2 off (leBytes 2 v)) = v := by
  have hlow : v % 256 &&& 255 = v % 256 := (Nat.and_two_pow_sub_one_eq_mod _ 8).trans (by omega)
  have hhigh : v / 256 % 256 &&& 255 = v / 256 := (Nat.and_two_pow_sub_one_eq_mod _ 8).trans (by omega)
  simp [leBytes, calFit, calMask, leVal, hlow, hhigh, Nat.mod_add_div]

theorem State.calRead_calWrite_band (s : State) (off : Nat) {v : Nat} (hv : v < 2 ^ 16) :
    (s.calWrite 2 off (leBytes 2 v)).calRead 2 off 2 = v :=
  (congrArg _ (leBytes_length 2 v)).symm.trans ((s.calRead_calWrite 2 off (leBytes 2 v)).trans (leVal_calFit_band hv off))

/-! Ring offsets and residuals (R194, R197, R203). -/

theorem State.calPut_of_no_capture {s : State} (h : s.capture = none) (sec off : Nat) (bs : List Byte) :
    s.calPut sec off bs = s.calWrite sec off bs := by
  simp [State.calPut, h]

section
variable {s : State} (h : s.capture = none) (r : Nat) (v : Int)
include h

theorem State.putOffset_eq : s.putOffset r v = s.calWrite 1 (2 * r) (leBytes 2 (wrapTo 12 (max (-2048) (min 2047 v)))) :=
  State.calPut_of_no_capture h _ _ _

theorem State.ringOffset_putOffset : (s.putOffset r v).ringOffset r = max (-2048) (min 2047 v) := by
  rw [State.putOffset_eq h, State.ringOffset]
  have hread := s.calRead_calWrite 1 (2 * r) (leBytes 2 (wrapTo 12 (max (-2048) (min 2047 v))))
  rw [leBytes_length, leVal_calFit_offset (wrapTo_lt 12 _)] at hread
  rw [hread, signedOf_wrapTo_twelve (by omega) (by omega)]

theorem State.ringOffset_putOffset_of_ne {q : Nat} (hq : q ≠ r) : (s.putOffset r v).ringOffset q = s.ringOffset q := by
  rw [State.putOffset_eq h, State.ringOffset, State.calRead_calWrite_of_disjoint _ _ _ _ (by rw [leBytes_length]; omega), State.ringOffset]
end

section
variable {r : Fin 212888} {s : State} (w : BitVec 16) (m : Fin 3) (hlive : s.ringLive r.val = true)
include hlive

/-- A cell or selector has no loop: only its residual is kept and judged. -/
theorem exec_lockLoopUpdate_cell (hr : 17536 ≤ r.val) : exec (.lockLoopUpdate r w m) s = .next (State.judgeRing
    { s with ringRes := tset 0 s.ringRes r.val (signedOf 16 w.toNat) } r.val (signedOf 16 w.toNat).natAbs) := by
  change execLockLoopUpdate r w m s = _
  simp [execLockLoopUpdate, hlive, Nat.not_lt.2 hr]

theorem exec_lockLoopUpdate_loop (hr : r.val < 17536) (hcap : s.capture = none) {s1 : State}
    (h1 : s1 = s.putOffset r.val (s.ringOffset r.val + (m.val : Int) - 1)) : exec (.lockLoopUpdate r w m) s = .next (State.judgeRing
    { s1 with ringRes := tset 0 s1.ringRes r.val (signedOf 16 w.toNat) } r.val (signedOf 16 w.toNat).natAbs) := by
  change execLockLoopUpdate r w m s = _
  subst h1
  simp [execLockLoopUpdate, hlive, hr, hcap]
end

section
variable {s : State} {r res : Nat}

theorem State.judgeRing_inside (hres : res ≤ 60) (hheld : s.ringHeld r = false) : s.judgeRing r res = { s with
    ringWarn := s.ringWarn.filter (fun x => decide (x ≠ r)), ringAct := s.ringAct.filter fun x => decide (x ≠ r) } := by
  have hin : ¬120 < res := by omega
  simp [State.judgeRing, hres, hin, hheld]

theorem State.judgeRing_note (hlo : 60 < res) (hhi : res ≤ 120) (hheld : s.ringHeld r = false) (hnew : s.ringWarn.contains r = false) :
    s.judgeRing r res = State.report { s with ringWarn := insertSorted r s.ringWarn } 0x15 (8 * 2 ^ 24 + r) res := by
  have hin : decide (120 < res) = false := decide_eq_false (by omega)
  simp only [State.judgeRing, Nat.not_le.2 hlo, hin, hheld, hnew, Bool.or_self, Bool.not_false, Bool.false_and, Bool.false_eq_true, false_and,
    if_true, if_false]

theorem State.judgeRing_relock (hres : 120 < res) (htold : s.ringWarn.contains r = true) (hnew : s.ringAct.contains r = false) :
    s.judgeRing r res = State.ringRelock { s with ringWarn := insertSorted r s.ringWarn, ringAct := insertSorted r s.ringAct } r := by
  have hout : ¬res ≤ 60 := by omega
  simp only [State.judgeRing, hout, decide_eq_true hres, htold, hnew, Bool.true_or, Bool.not_false, Bool.not_true, Bool.and_self, Bool.false_eq_true,
    false_and, if_true, if_false]

theorem State.ringRelock_of_link {l : Nat} (hl : s.ringLink r = some l) : s.ringRelock r = if r < 17536 then
    State.excludeLane (State.report { s with relocks := insertSorted r s.relocks } 0x14 r 0) l (ringLane r) false else s.calAsk l false 0 false := by
  simp only [State.ringRelock, hl]
end

theorem exec_ringRelockComplete {r : Fin 17536} {s : State} {l : Nat} (o : BitVec 12) (hr : s.relocks.contains r.val = true)
    (hl : s.ringLink r.val = some l) {s1 u : State} (h1 : s1 = { s with relocks := s.relocks.filter fun x => decide (x ≠ r.val) })
    (hu : u = s1.putOffset r.val (signedOf 12 o.toNat)) (hcap : s.capture = none) :
    exec (.ringRelockComplete r o) s = .next (u.restoreLane l (ringLane r.val)) := by
  have hul : u.ringLink r.val = some l := by
    rw [hu, State.putOffset_eq (by rw [h1]; exact hcap), h1]
    exact hl
  change execRingRelockComplete r o s = _
  subst h1 hu
  simp only [execRingRelockComplete, hr, Bool.not_true, Bool.false_eq_true, if_false]
  rw [hul]

/-! The end of a zone's retrim (R194). -/

theorem exec_zoneRetrimComplete_alone {z : Fin 64} {s : State} {x : Int} (hz : (tget Zone.init s.zones z.val).retrim = true)
    (hops : (tget Zone.init s.zones z.val).ops = []) (hcap : s.capture = none) (hx : s.zoneTemp z.val = some x) {s1 : State}
    (h1 : s1 = s.calWrite 2 (2 * z.val) (leBytes 2 (wrapTo 16 (tenths x)))) :
    exec (.zoneRetrimComplete z []) s = .next { s1 with zones := tset Zone.init s.zones z.val Zone.init } := by
  have hzones : s1.zones = s.zones := by rw [h1]; rfl
  change execZoneRetrimComplete z [] s = _
  simp [execZoneRetrimComplete, hz, hops, State.calApply, hx, State.calPut_of_no_capture hcap, ← h1, hzones, opFinAll]

/-! Analogue recheck (R201). -/

section
variable {v : BitVec 32} {s : State} (a b : List Byte) (hready : s.ready = true)
include hready

theorem exec_analogueRecheck_held (hv : v.toNat < 1960000 ∨ 2040000 < v.toNat) :
    exec (.analogueRecheck v a b) s = .next (State.report { s with rcalHeld := true } 0x35 0 v.toNat) := by
  change execAnalogueRecheck v a b s = _
  simp [execAnalogueRecheck, hready, hv]

variable (hlo : 1960000 ≤ v.toNat) (hhi : v.toNat ≤ 2040000)
include hlo hhi

theorem exec_analogueRecheck_near (h1 : 200 * (v.toNat - s.rcalBoot) ≤ s.rcalBoot) (h2 : 200 * (s.rcalBoot - v.toNat) ≤ s.rcalBoot) :
    exec (.analogueRecheck v a b) s = .next { s with rcalHeld := false } := by
  have hd : ¬s.rcalBoot < 200 * (if v.toNat ≤ s.rcalBoot then s.rcalBoot - v.toNat else v.toNat - s.rcalBoot) := by split <;> omega
  have hin : ¬(v.toNat < 1960000 ∨ 2040000 < v.toNat) := by omega
  change execAnalogueRecheck v a b s = _
  simp only [execAnalogueRecheck, hready, Bool.not_true, Bool.false_eq_true, if_false, if_neg hin, if_neg hd]

theorem exec_analogueRecheck_moved (h : s.rcalBoot < 200 * (v.toNat - s.rcalBoot) ∨ s.rcalBoot < 200 * (s.rcalBoot - v.toNat)) :
    exec (.analogueRecheck v a b) s = .next (State.retrimAnalogue (State.report { s with rcalHeld := false } 0x34 0 v.toNat) a b) := by
  have hd : s.rcalBoot < 200 * (if v.toNat ≤ s.rcalBoot then s.rcalBoot - v.toNat else v.toNat - s.rcalBoot) := by split <;> omega
  have hin : ¬(v.toNat < 1960000 ∨ 2040000 < v.toNat) := by omega
  change execAnalogueRecheck v a b s = _
  simp only [execAnalogueRecheck, hready, Bool.not_true, Bool.false_eq_true, if_false, if_neg hin, if_pos hd]
end

/-- Settles O38: an event of a sensor, a lane, a ring, a zone or the analogue recheck is one reading against its limits, and each clause is the side
of the limits on which the reading falls. Log 27 (DEDUCED) has the output that slow mode takes, the reports of kinds 0x34 and 0x35 at each reading, and
the codes that a recheck leaves as they are. -/
theorem sensorsAndFigures : Obligations.SensorsAndFigures := by
  unfold Obligations.SensorsAndFigures
  refine ⟨?sample, ?invalidOutput, ?slowOutput, ?residualInside, ?residualNote, ?residualRetires, ?retirement, ?eyeWidthInside,
    ?eyeWidthNote, ?eyeWidthSweep, ?unlitFigure, ?eyeHeightInside, ?errorRateInside, ?windowEven, ?windowWorst, ?cellResidual, ?loopMove, ?ringNote,
    ?ringAction, ?relockStart, ?relockEnd, ?retrimEnd, ?recheckHeld, ?recheckNear, ?recheckMoved⟩
  case sample =>
    intro n w s hon hin hv htaken
    have hslow : ¬((s.sensor n.val).fast = false ∧ (s.sensor n.val).phase ≠ 0) := by
      rintro ⟨hf, hp⟩
      simp [hf, hp] at htaken
    refine ⟨_, (exec_sensorSample_valid w hon hin hv).trans (by rw [if_neg hslow]), ?_, fun k hk => ?_, ?_⟩
    · rw [State.validSample_sensor (by simpa using hin)]
      simp
    · rw [State.validSample_sensor (by simpa using hin)]
      simp [hk]
    · exact State.validSample_unsampled _ _ _ s
  case invalidOutput => exact fun n w s k hon hn hin hk => exec_sensorSample_invalid w hon hin hn hk
  case slowOutput =>
    intro n w s hon hin hv hfast hphase
    rw [exec_sensorSample_valid w hon hin hv, if_pos ⟨hfast, hphase⟩]
  case residualInside =>
    intro n w s hon hin hlast hres
    have h15 : ¬15 < (signedOf 16 w.toNat).natAbs := by omega
    have h30 : ¬30 < (signedOf 16 w.toNat).natAbs := by omega
    simp [exec_sensorResidualCheck w hon hin hlast rfl rfl, h15, h30]
  case residualNote =>
    intro n w s hon hin hlast hlo hhi hnew
    simp [exec_sensorResidualCheck w hon hin hlast rfl rfl, hlo, Nat.not_lt.2 hhi, hnew]
  case residualRetires =>
    intro n w s hon hin hlast hres htold
    have h15 : 15 < (signedOf 16 w.toNat).natAbs := by omega
    simp [exec_sensorResidualCheck w hon hin hlast rfl rfl, h15, hres, htold]
  case retirement => exact fun s n h => s.retireSensor_retires n h
  case eyeWidthInside =>
    exact fun n k w s hfit hlight hw => ⟨_, rfl, State.laneFigure_inside hfit hlight k.val 0 _ rfl (decide_eq_false (by omega)) _⟩
  case eyeWidthNote =>
    intro n k w s hfit hlight hlo hhi hnew
    obtain ⟨u, hu, hlane, hother, hrest⟩ := State.laneFigure_note hfit hlight k.val 0 (fun x => { x with eyeW := w.val }) rfl
      (decide_eq_true hhi) (decide_eq_false (Nat.not_lt.2 hlo)) hnew
    have hreports : u.reports = s.reports := State.eq_of_withLanes State.reports (fun _ _ => rfl) hrest
    have hreckon : u.reckon = s.reckon := State.eq_of_withLanes State.reckon (fun _ _ => rfl) hrest
    refine ⟨_, congrArg Host.Outcome.next hu, hlane, ?_, hother, ?_⟩
    · rw [State.report_reports, hreports, hreckon]
    · exact congrArg (fun x : State => { x with reports := s.reports }) hrest
  case eyeWidthSweep =>
    intro n k w s l hfit hlight hw htold hnew hl
    obtain ⟨u, hu, hlane⟩ := State.laneFigure_sweep hfit hlight k.val 0 (fun x => { x with eyeW := w.val }) rfl
      (decide_eq_true (show w.val < 26 by omega)) (decide_eq_true hw) htold hnew hl
    exact ⟨u, congrArg Host.Outcome.next hu, hlane⟩
  case unlitFigure => exact fun n k w s _ hlight hsweep => congrArg Host.Outcome.next (State.laneFigure_unlit hlight hsweep _ _ _ _ _)
  case eyeHeightInside =>
    exact fun n k h s hfit hlight hh => ⟨_, rfl, State.laneFigure_inside hfit hlight k.val 1 _ rfl (decide_eq_false (by omega)) _⟩
  case errorRateInside =>
    exact fun n k e s hfit hlight he => ⟨_, rfl, State.laneFigure_inside hfit hlight k.val 2 _ rfl (decide_eq_false (by omega)) _⟩
  case windowEven =>
    intro n s hfit hlight hcorr
    have hcount : ∀ k, k < 16 → s.windowCount n.val [] k = 0 := fun k hk => by simp [State.windowCount, hcorr k hk]
    have htotal := foldl_add_single 16 fun k hk => (hcount k hk).trans (ite_self (c := k = 0) 0).symm
    have hexec := exec_exclusionWindowEnd hfit hlight rfl (htotal.trans (ite_self 0))
    rw [worstLane_eq_none (fun k hk => by rw [hcount k hk]; decide)] at hexec
    refine ⟨_, hexec, fun k hk => ?_, fun j hj => ?_, ?_⟩
    · exact State.lane_windowEnd_of_lt _ _ _ _ _ hk
    · exact State.lane_windowEnd_of_other _ _ _ _ hj
    · exact State.withLanes_windowEnd _ _ _ _ _ _
  case windowWorst =>
    intro n k c l s hfit hlight hc hcorr hl
    have hcount : ∀ j, j < 16 → s.windowCount n.val [(k, c)] j = if j = k.val then c else 0 := fun j hj =>
      State.windowCount_single k c (hcorr j hj)
    have hexec := exec_exclusionWindowEnd hfit hlight rfl ((foldl_add_single 16 hcount).trans (if_pos k.isLt))
    rw [worstLane_single hcount k.isLt hc, State.excludeWorst_some ((s.txLink_windowEnd _ _ _ _ _).trans hl)] at hexec
    refine ⟨_, hexec, fun j hj => ?_, fun j hj => ?_, ?_⟩
    · rw [State.lane_windowEnd_of_lt _ _ _ _ _ hj, hcount j hj, Lane.shared_of_single (by omega)]
    · exact State.lane_windowEnd_of_other _ _ _ _ hj
    · exact State.withLanes_windowEnd _ _ _ _ _ _
  case cellResidual =>
    intro r w m s hlive hr hres hheld
    rw [exec_lockLoopUpdate_cell w m hlive hr]
    exact congrArg Host.Outcome.next (State.judgeRing_inside hres hheld)
  case loopMove =>
    intro r w m s hlive hr hcap
    refine ⟨_, exec_lockLoopUpdate_loop w m hlive hr hcap rfl, ?_, fun q hq => ?_, ?_, ?_⟩
    · refine (State.ringOffset_putOffset hcap r.val _).trans ?_
      rfl
    · exact State.ringOffset_putOffset_of_ne hcap r.val _ hq
    · rw [State.putOffset_eq hcap]
      rfl
    · rw [State.putOffset_eq hcap]
      rfl
  case ringNote => exact fun s r res hlo hhi hheld hnew => State.judgeRing_note hlo hhi hheld hnew
  case ringAction => exact fun s r res hres htold hnew => State.judgeRing_relock hres htold hnew
  case relockStart => exact fun s r l hl => State.ringRelock_of_link hl
  case relockEnd =>
    intro r o s l hr hcap hl
    have hcap' : ({ s with relocks := s.relocks.filter fun x => decide (x ≠ r.val) } : State).capture = none := hcap
    have hrest := State.putOffset_eq hcap' r.val (signedOf 12 o.toNat)
    refine ⟨_, exec_ringRelockComplete o hr hl rfl rfl hcap, ?_, ?_, fun q hq => ?_, ?_⟩
    · rw [hrest]
      rfl
    · obtain ⟨hmin, hmax⟩ := signedOf_twelve_bounds o.toNat
      rw [State.ringOffset_putOffset hcap']
      omega
    · exact State.ringOffset_putOffset_of_ne hcap' r.val _ hq
    · rw [hrest]
      rfl
  case retrimEnd =>
    intro z s x hz hops hcap hx
    refine ⟨_, exec_zoneRetrimComplete_alone hz hops hcap hx rfl, ?_, ?_, fun k hk => ?_, rfl⟩
    · simp
    · exact State.calRead_calWrite_band _ _ (wrapTo_lt 16 _)
    · simp [hk]
  case recheckHeld => exact fun v a b s hready hv => exec_analogueRecheck_held a b hready hv
  case recheckNear => exact fun v a b s hready hlo hhi h1 h2 => exec_analogueRecheck_near a b hready hlo hhi h1 h2
  case recheckMoved => exact fun v a b s hready hlo hhi h => exec_analogueRecheck_moved a b hready hlo hhi h

end Sys2Proof.Machine
end

section
/-! PROOFS. What a packet on its way out can touch (spec/09 R216 to R230; spec/07 R175, R176). -/
namespace Sys2Proof.Machine

/-- A port but for its queue and its congestion record. -/
def EdgePort.unloaded (x : EdgePort) : EdgePort := { x with queue := [], cong := .init }

/-- `t` with what sending can touch beside the source windows taken from `s`. -/
def State.unsent (t s : State) : State := { t with
  net := s.net, links := s.links, dieWait := s.dieWait, unreached := s.unreached, meters := s.meters, fabCtr := s.fabCtr, ports := s.ports }

/-- From `s` to `t` packets were sent or ended: they stand in the package, between its dies, or at its ports, and are counted. -/
structure State.sends (s t : State) : Prop where
  rest : t.unsent s = s
  ports : ∀ r, (t.port r).unloaded = (s.port r).unloaded

namespace State.sends
variable {s t u : State}

theorem refl (s : State) : s.sends s := ⟨rfl, fun _ => rfl⟩

theorem trans (h : s.sends t) (h' : t.sends u) : s.sends u where
  rest := (congrArg (State.unsent · s) h'.rest).trans h.rest
  ports r := (h'.ports r).trans (h.ports r)

theorem ite {c : Prop} [Decidable c] (ht : s.sends t) (hu : s.sends u) : s.sends (if c then t else u) := by
  split <;> assumption

/-- A field of the state that sending leaves unchanged. -/
theorem field {α : Type} (f : State → α) (hf : ∀ a b, f (State.unsent a b) = f a) (h : s.sends t) : f t = f s :=
  (hf t s).symm.trans (congrArg f h.rest)

/-- A field of a port that sending leaves unchanged. -/
theorem port_field {α : Type} (f : EdgePort → α) (hf : ∀ x, f (EdgePort.unloaded x) = f x) (h : s.sends t) (r : Nat) : f (t.port r) = f (s.port r) :=
  (hf _).symm.trans ((congrArg f (h.ports r)).trans (hf _))

theorem withSrcWin (h : s.sends t) (m : Map SrcWin) : State.sends { s with srcWin := m } { t with srcWin := m } where
  rest := congrArg (fun x : State => { x with srcWin := m }) h.rest
  ports := h.ports

end State.sends

variable (s : State)

theorem State.sends_onFctr (b : Nat) (f : FabCtr → FabCtr) : s.sends (s.onFctr b f) := ⟨rfl, fun _ => rfl⟩

theorem State.sends_setPort {p : Nat} {x : EdgePort} (hx : x.unloaded = (s.port p).unloaded) : s.sends (s.setPort p x) where
  rest := rfl
  ports r := by
    rw [State.port_setPort]
    split
    next h => rw [h, hx]
    next => rfl

theorem State.sends_toPort (port : Nat) (p : Pkt) (arr : Option (Nat × Nat)) : s.sends (s.toPort port p arr) := s.sends_setPort rfl

theorem State.sends_meterTx (p : Pkt) : s.sends (s.meterTx p) := State.sends.ite ⟨rfl, fun _ => rfl⟩ (.refl s)

theorem State.sends_linkSend {d : Nat} {q : LinkPkt} {t : State} (h : s.linkSend d q = some t) : s.sends t := by
  unfold State.linkSend at h
  dsimp only at h
  split at h
  · cases h
    exact ⟨rfl, fun _ => rfl⟩
  · split at h
    · cases h
      exact ⟨rfl, fun _ => rfl⟩
    · cases h

theorem State.sends_linkSend_getD {d : Nat} {q : LinkPkt} {e : State} (he : s.sends e) : s.sends ((s.linkSend d q).getD e) := by
  cases h : s.linkSend d q with
  | none => exact he
  | some t => exact s.sends_linkSend h

theorem State.sends_unreachedAt (d : Nat) (p : Pkt) : s.sends (s.unreachedAt d p) := by
  have hcount : s.sends { s with unreached := tset 0 s.unreached d (tget 0 s.unreached d + 1) } := ⟨rfl, fun _ => rfl⟩
  unfold State.unreachedAt
  dsimp only
  refine .ite hcount (.ite (hcount.trans ⟨rfl, fun _ => rfl⟩) ?_)
  split
  · exact hcount.trans (State.sends_toPort _ _ _ _)
  · exact hcount

theorem State.sends_inside (d : Nat) (p : Pkt) : s.sends (s.inside d p) :=
  .ite ⟨rfl, fun _ => rfl⟩ (s.sends_linkSend_getD (s.sends_unreachedAt d p))

theorem State.sends_towardPort (d port : Nat) (p : Pkt) (arr : Option (Nat × Nat)) : s.sends (s.towardPort d port p arr) :=
  .ite (s.sends_toPort port p arr) (s.sends_linkSend_getD (s.sends_unreachedAt d p))

theorem State.sends_dispatch (p : Pkt) : s.sends (s.dispatch p) := by
  unfold State.dispatch
  split
  · dsimp only
    split
    · exact (s.sends_meterTx p).trans (State.sends_towardPort _ _ _ _ _)
    · exact (s.sends_meterTx p).trans (State.sends_toPort _ _ _ _)
  · exact .ite ⟨rfl, fun _ => rfl⟩ (.refl s)

theorem State.sends_dispatchAround (p : Pkt) (bad : Nat) : s.sends (s.dispatchAround p bad) := by
  unfold State.dispatchAround
  dsimp only
  split
  · exact s.sends_towardPort _ _ _ _
  · exact s.sends_dispatch p

/-! With the windows of the source (R226, R227). -/

/-- The window's settings change first, then its packets and requests are sent. -/
def State.sendsByWindow (s t : State) : Prop := ∃ m, State.sends { s with srcWin := m } t

variable {s} in
theorem State.sends.byWindow {t : State} (h : s.sends t) : s.sendsByWindow t := ⟨s.srcWin, h⟩

variable {s} in
theorem State.sendsByWindow.trans {t u : State} (h : s.sendsByWindow t) (h' : t.sendsByWindow u) : s.sendsByWindow u := by
  obtain ⟨m, h⟩ := h
  obtain ⟨n, h'⟩ := h'
  exact ⟨n, (h.withSrcWin n).trans h'⟩

variable {s} in
theorem State.sendsByWindow.field {α : Type} {t : State} (f : State → α) (hf : ∀ a b, f (State.unsent a b) = f a)
    (hw : ∀ (a : State) (m : Map SrcWin), f { a with srcWin := m } = f a) (h : s.sendsByWindow t) : f t = f s := by
  obtain ⟨m, h⟩ := h
  exact (h.field f hf).trans (hw s m)

variable {s} in
theorem State.sendsByWindow.port_field {α : Type} {t : State} (f : EdgePort → α) (hf : ∀ x, f (EdgePort.unloaded x) = f x) (h : s.sendsByWindow t)
    (r : Nat) : f (t.port r) = f (s.port r) := by
  obtain ⟨m, h⟩ := h
  exact h.port_field f hf r

variable {s} in
theorem State.sendsByWindow_foldl {α : Type} {f : State → α → State} (hf : ∀ t a, State.sendsByWindow t (f t a)) (l : List α) :
    s.sendsByWindow (l.foldl f s) :=
  List.foldlRecOn l f (State.sends.refl s).byWindow fun t ht a _ => ht.trans (hf t a)

theorem State.sendsByWindow_setSwin (k : Nat) (w : SrcWin) : s.sendsByWindow (s.setSwin k w) := ⟨_, .refl _⟩

theorem State.askWindow_eq (dest tc : Nat) : s.askWindow dest tc = s ∨ ∃ p, s.askWindow dest tc =
    State.dispatch (s.setSwin (winKey dest tc) { s.swin (winKey dest tc) with asked := true }) p :=
  (Decidable.em _).imp (fun h => if_pos h) fun h => ⟨_, if_neg h⟩

theorem State.sendsByWindow_askWindow (dest tc : Nat) : s.sendsByWindow (s.askWindow dest tc) := by
  obtain h | ⟨p, h⟩ := s.askWindow_eq dest tc
  · rw [h]
    exact (State.sends.refl s).byWindow
  · rw [h]
    exact (s.sendsByWindow_setSwin _ _).trans (State.sends_dispatch _ p).byWindow

theorem State.sendsByWindow_serve (k : Nat) (p : Pkt) : s.sendsByWindow (s.serve k p) :=
  (s.sendsByWindow_setSwin _ _).trans ((State.sends_onFctr _ _ _).trans (State.sends_dispatch _ _)).byWindow

theorem State.sendsByWindow_atWindow (p : Pkt) : s.sendsByWindow (s.atWindow p) := by
  unfold State.atWindow
  dsimp only
  split
  · exact s.sendsByWindow_serve _ p
  · exact (s.sendsByWindow_setSwin _ _).trans ((State.sends_onFctr _ _ _).byWindow.trans (State.sendsByWindow_askWindow _ _ _))

theorem State.sendsByWindow_egress (p : Pkt) : s.sendsByWindow (s.egress p) := by
  unfold State.egress
  split
  · exact (s.sends_inside _ p).byWindow
  · split
    · exact s.sendsByWindow_atWindow p
    · exact (s.sends_dispatch p).byWindow

theorem State.sendsByWindow_endPkt (p : Pkt) (cause : Nat) : s.sendsByWindow (s.endPkt p cause) := by
  unfold State.endPkt
  dsimp only
  have hcount := (s.sends_onFctr p.barn fun x => { x with ended := (x.ended + 1) % 2 ^ 64 }).byWindow
  split
  · exact hcount.trans (State.sendsByWindow_egress _ _)
  · split
    · exact hcount
    · exact hcount.trans (State.sendsByWindow_egress _ _)

theorem State.sends_onCong (p : Nat) (f : CongRec → CongRec) : s.sends (s.onCong p f) := s.sends_setPort rfl

end Sys2Proof.Machine
end

section
/-! PROOFS. Windows at their source and destination (spec/09 R226 to R228; spec/15 R385). -/
namespace Sys2Proof.Machine

@[simp] theorem State.swin_setSwin (s : State) (k : Nat) (w : SrcWin) (j : Nat) : (s.setSwin k w).swin j = if j = k then w else s.swin j := by
  simp [State.swin, State.setSwin]

@[simp] theorem State.dwin_setDwin (s : State) (k : Nat) (w : DstWin) (j : Nat) : (s.setDwin k w).dwin j = if j = k then w else s.dwin j := by
  simp [State.dwin, State.setDwin]

/-- Asking for units changes nothing of a source window but that it has asked. -/
theorem State.swin_askWindow (s : State) (dest tc j : Nat) :
    ∃ b, (s.askWindow dest tc).swin j = { s.swin j with asked := b } := by
  obtain h | ⟨p, h⟩ := s.askWindow_eq dest tc
  · exact ⟨_, congrArg (State.swin · j) h⟩
  · rw [h, (State.sends_dispatch _ p).field (State.swin · j) (fun _ _ => rfl), State.swin_setSwin]
    split
    next hj => exact ⟨_, by rw [hj]⟩
    next => exact ⟨_, rfl⟩

section
variable (s : State) (dest tc : Nat)

@[simp] theorem State.askWindow_pool1 : (s.askWindow dest tc).pool1 = s.pool1 :=
  (s.sendsByWindow_askWindow dest tc).field State.pool1 (fun _ _ => rfl) fun _ _ => rfl

@[simp] theorem State.askWindow_pool3 : (s.askWindow dest tc).pool3 = s.pool3 :=
  (s.sendsByWindow_askWindow dest tc).field State.pool3 (fun _ _ => rfl) fun _ _ => rfl

@[simp] theorem State.dwin_askWindow (k : Nat) : (s.askWindow dest tc).dwin k = s.dwin k :=
  (s.sendsByWindow_askWindow dest tc).field (State.dwin · k) (fun _ _ => rfl) fun _ _ => rfl

@[simp] theorem State.setSwin_pool1 (k : Nat) (w : SrcWin) : (s.setSwin k w).pool1 = s.pool1 := rfl
@[simp] theorem State.setSwin_pool3 (k : Nat) (w : SrcWin) : (s.setSwin k w).pool3 = s.pool3 := rfl
@[simp] theorem State.dwin_setSwin (k : Nat) (w : SrcWin) (j : Nat) : (s.setSwin k w).dwin j = s.dwin j := rfl
@[simp] theorem State.setDwin_pool1 (k : Nat) (w : DstWin) : (s.setDwin k w).pool1 = s.pool1 := rfl
@[simp] theorem State.setDwin_pool3 (k : Nat) (w : DstWin) : (s.setDwin k w).pool3 = s.pool3 := rfl
@[simp] theorem State.consume_pool1 (p : Pkt) : (s.consume p).pool1 = s.pool1 := rfl
@[simp] theorem State.consume_pool3 (p : Pkt) : (s.consume p).pool3 = s.pool3 := rfl
@[simp] theorem State.dwin_consume (p : Pkt) (k : Nat) : (s.consume p).dwin k = s.dwin k := rfl
end

/-! Requests and updates that are taken, and control packets that fail their check (R226, R235). -/

section
variable {p : Pkt} {s : State}

theorem exec_wreq (p : Pkt) (s : State) : exec (.wreq p) s = .next (
    if p.taken = false then (s.consume p).endTc0 p
    else if (s.grantQ.any fun r => decide (r.src = epPkg p.src) && decide (r.cls = bodyTc p)) = true then s.consume p
    else { s.consume p with grantQ := s.grantQ ++ [⟨epPkg p.src, bodyTc p, bodyAt p 1⟩] }) := by
  change execWreq p s = _
  unfold execWreq
  cases p.taken with
  | false => rfl
  | true =>
    exact (apply_ite Host.Outcome.next _ _ _).symm

theorem exec_wupdate_taken (h : p.taken = true) : exec (.wupdate p) s = .next (State.askWindow ((s.consume p).setSwin (winKey (epPkg p.src) (bodyTc p))
    { s.swin (winKey (epPkg p.src) (bodyTc p)) with
      inUse := (s.swin (winKey (epPkg p.src) (bodyTc p))).inUse - bodyAt p 1
      extra := (s.swin (winKey (epPkg p.src) (bodyTc p))).extra + bodyAt p 2
      asked := (s.swin (winKey (epPkg p.src) (bodyTc p))).asked && decide (bodyAt p 2 = 0) }) (epPkg p.src) (bodyTc p)) := by
  change execWupdate p s = _
  unfold execWupdate
  rw [h]
  rfl

theorem exec_wupdate_failed (h : p.taken = false) : exec (.wupdate p) s = .next ((s.consume p).endTc0 p) := by
  change execWupdate p s = _
  unfold execWupdate
  rw [h]
  rfl

theorem exec_wgive_failed (h : p.taken = false) : exec (.wgive p) s = .next ((s.consume p).endTc0 p) := by
  change execWgive p s = _
  unfold execWgive
  rw [h]
  rfl

theorem exec_advice_failed (h : p.taken = false) : exec (.advice p) s = .next ((s.consume p).endTc0 p) := by
  change execAdvice p s = _
  unfold execAdvice
  rw [h]
  rfl

theorem exec_harvestReq_failed (h : p.taken = false) : exec (.harvestReq p) s = .next ((s.consume p).endTc0 p) := by
  change execHarvestReq p s = _
  unfold execHarvestReq
  rw [h]
  rfl
end

/-! The pools (R226, R385). -/

/-- A change of the pool of class `tc`. -/
def State.onPool (s : State) (tc : Nat) (f : Nat → Nat) : State :=
  if tc = 1 then { s with pool1 := f s.pool1 } else { s with pool3 := f s.pool3 }

section
variable (s : State) (tc : Nat) (f : Nat → Nat)

theorem State.onPool_pool1 : (s.onPool tc f).pool1 = if tc = 1 then f s.pool1 else s.pool1 := by
  unfold State.onPool
  split <;> rfl

theorem State.onPool_pool3 : (s.onPool tc f).pool3 = if tc = 1 then s.pool3 else f s.pool3 := by
  unfold State.onPool
  split <;> rfl

/-- A field that is no pool. -/
theorem State.onPool_field {α : Type} (g : State → α) (hg : ∀ (t : State) (a b : Nat), g { t with pool1 := a, pool3 := b } = g t) :
    g (s.onPool tc f) = g s := by
  unfold State.onPool
  split
  · exact hg s _ s.pool3
  · exact hg s s.pool1 _

theorem State.onPool_rest : { s.onPool tc f with pool1 := s.pool1, pool3 := s.pool3 } = s :=
  s.onPool_field tc f (fun t : State => { t with pool1 := s.pool1, pool3 := s.pool3 }) fun _ _ _ => rfl

@[simp] theorem State.dwin_onPool (k : Nat) : (s.onPool tc f).dwin k = s.dwin k := s.onPool_field tc f (State.dwin · k) fun _ _ _ => rfl
end

theorem State.onPool_sub {s : State} {tc n : Nat} (h : n ≤ if tc = 1 then s.pool1 else s.pool3) :
    if tc = 1 then (s.onPool tc (· - n)).pool1 + n = s.pool1 ∧ (s.onPool tc (· - n)).pool3 = s.pool3
    else (s.onPool tc (· - n)).pool3 + n = s.pool3 ∧ (s.onPool tc (· - n)).pool1 = s.pool1 := by
  by_cases hc : tc = 1
  · simp only [State.onPool_pool1, State.onPool_pool3, if_pos hc] at h ⊢
    exact ⟨Nat.sub_add_cancel h, trivial⟩
  · simp only [State.onPool_pool1, State.onPool_pool3, if_neg hc] at h ⊢
    exact ⟨Nat.sub_add_cancel h, trivial⟩

/-- What the oldest request is granted leaves the pool (R226). -/
theorem exec_windowGrant {s : State} {r : WinReq} {l : List WinReq} (hq : s.grantQ = r :: l)
    (hpool : r.units ≤ if r.cls = 1 then s.pool1 else s.pool3) : exec .windowGrant s = .next
      (State.onPool { s.setDwin (winKey r.src r.cls) { s.dwin (winKey r.src r.cls) with
        granted := (s.dwin (winKey r.src r.cls)).granted + r.units
        total := (s.dwin (winKey r.src r.cls)).total + r.units } with grantQ := l } r.cls (· - r.units)) := by
  change execWindowGrant s = _
  unfold execWindowGrant State.onPool
  simp only [hq, if_neg (Nat.not_lt.2 hpool)]
  by_cases hc : r.cls = 1 <;> simp only [hc, if_true, if_false] <;> rfl

section
variable {p : Pkt} {s : State} (h : p.taken = true)
include h

theorem exec_wgive_some (hn : bodyAt p 1 ≠ 2 ^ 32 - 1) {k : Nat} (hk : k = winKey (epPkg p.src) (bodyTc p)) :
    exec (.wgive p) s = .next (((s.consume p).onPool (bodyTc p) (· + bodyAt p 1)).setDwin k
      { s.dwin k with total := (s.dwin k).total - bodyAt p 1 }) := by
  change execWgive p s = _
  unfold execWgive
  subst hk
  simp only [h, decide_eq_false hn, Bool.not_true, Bool.not_false, Bool.false_eq_true, if_false, if_true]
  rfl

/-- The windows toward a sender that gives everything stand as at reset, but for the gaps counted and the packets that wait. -/
theorem exec_wgive_all (hn : bodyAt p 1 = 2 ^ 32 - 1) {k : Nat} (hk : k = winKey (epPkg p.src) (bodyTc p)) {s1 : State}
    (h1 : s1 = (s.consume p).onPool (bodyTc p) (· + (s.dwin k).total)) :
    exec (.wgive p) s = .next (State.askWindow ((s1.setDwin k { DstWin.init with gaps := (s.dwin k).gaps }).setSwin k
      { SrcWin.init with waiting := (s1.swin k).waiting }) (epPkg p.src) (bodyTc p)) := by
  change execWgive p s = _
  unfold execWgive
  subst hk h1
  simp only [h, decide_eq_true hn, Bool.not_true, Bool.false_eq_true, if_false, if_true]
  rfl
end

/-! Waiting packets, WUPDATE, units given back and gaps (R226 to R228). -/

theorem exec_windowAdmit {dest : Fin 32768} {cls : Bool} {s : State} {x : WaitPkt} {l : List WaitPkt} {k : Nat}
    (hk : k = winKey dest.val (clsTc cls)) (hw : (s.swin k).waiting = x :: l) (hfits : (s.swin k).inUse + x.pkt.units ≤ s.grant k) :
    exec (.windowAdmit dest cls) s = .next (State.askWindow (State.serve ((s.setSwin k { s.swin k with waiting := l }).onFctr x.pkt.barn fun f =>
      { f with delayTime := (f.delayTime + (s.reckon - x.since)) % 2 ^ 64 }) k x.pkt) dest.val (clsTc cls)) := by
  change execWindowAdmit dest cls s = _
  subst hk
  simp only [execWindowAdmit, hw, if_neg (Nat.not_lt.2 hfits)]

theorem exec_wupdateSend {src : Fin 32768} {cls : Bool} {s : State} {k : Nat} (hk : k = winKey src.val (clsTc cls))
    (h : (s.dwin k).freed ≠ 0 ∨ (s.dwin k).granted ≠ 0) :
    exec (.wupdateSend src cls) s = .next (State.dispatch (s.setDwin k { s.dwin k with freed := 0, granted := 0 })
      (mkPkt 0x31 4 (memEp src.val 0) (memEp s.selfNum 0) 0 0 0 (winBody (clsTc cls) [(s.dwin k).freed, (s.dwin k).granted, 0])).seal) := by
  have hnot : ¬((s.dwin k).freed = 0 ∧ (s.dwin k).granted = 0) := by omega
  change execWupdateSend src cls s = _
  subst hk
  simp only [execWupdateSend, if_neg hnot]

theorem exec_windowIdleGiveback {dest : Fin 32768} {cls : Bool} {s : State} {k : Nat} (hk : k = winKey dest.val (clsTc cls))
    (huse : (s.swin k).inUse = 0) (hw : (s.swin k).waiting = []) (hx : (s.swin k).extra ≠ 0) :
    exec (.windowIdleGiveback dest cls) s = .next (State.dispatch (s.setSwin k { s.swin k with extra := 0 })
      (mkPkt 0x32 4 (memEp dest.val 0) (memEp s.selfNum 0) 0 0 0 (winBody (clsTc cls) [(s.swin k).extra])).seal) := by
  have hidle : (s.swin k).inUse = 0 ∧ (s.swin k).waiting.isEmpty = true ∧ (s.swin k).extra ≠ 0 := ⟨huse, by rw [hw]; rfl, hx⟩
  change execWindowIdleGiveback dest cls s = _
  subst hk
  simp only [execWindowIdleGiveback, if_pos hidle]

theorem exec_wseqGapSkip_single {src : Fin 32768} {cls : Bool} {s : State} {k d n : Nat} {p : Pkt} (hk : k = winKey src.val (clsTc cls))
    (hheld : (s.dwin k).held = [(d, p)]) (hn : n = (65536 + p.wseq - (s.dwin k).expect) % 65536) (hgap : n ≠ 0) :
    exec (.wseqGapSkip src cls) s = .next (State.pump ((s.setDwin k { s.dwin k with
      expect := ((s.dwin k).expect + n) % 65536
      skipped := (s.dwin k).skipped ++ (List.range n).map fun i => ((s.dwin k).expect + i) % 65536
      gaps := (s.dwin k).gaps + 1 }).report 0x19 s.selfNum src.val) k) := by
  change execWseqGapSkip src cls s = _
  subst hk hn
  simp only [execWseqGapSkip, hheld, List.foldl_nil, if_neg hgap]

/-- Settles O29: each clause is the lemma above about its row, with the branch that the clause's hypotheses take. The layouts of WREQ, WUPDATE and
WGIVE are log 18's (DESIGN CHOICE) and their source kind is log 11's. -/
theorem windowEvents : Obligations.WindowEvents := by
  unfold Obligations.WindowEvents
  refine ⟨?waiting, ?update, ?request, ?grant, ?updateSend, ?giveback, ?gap, ?give, ?giveAll, ?failed⟩
  case waiting => exact fun dest cls s x l hw hfits => exec_windowAdmit rfl hw hfits
  case update => exact fun p s h => exec_wupdate_taken h
  case request =>
    intro p s h hnone
    rw [exec_wreq, if_neg (by simp [h]), if_neg (by simp [hnone])]
  case grant =>
    intro s r l hq hpool
    refine ⟨_, exec_windowGrant hq hpool, ?_, State.onPool_sub hpool, ?_, ?_, fun k hk => ?_⟩
    · exact State.onPool_field _ _ _ State.grantQ fun _ _ _ => rfl
    · exact (State.dwin_onPool _ _ _ _).trans ((State.dwin_setDwin _ _ _ _).trans (if_pos rfl))
    · exact congrArg (fun x : State => { x with grantQ := s.grantQ, dstWin := s.dstWin }) (State.onPool_rest _ _ _)
    · exact (State.dwin_onPool _ _ _ _).trans ((State.dwin_setDwin _ _ _ _).trans (if_neg hk))
  case updateSend => exact fun src cls s h => exec_wupdateSend rfl h
  case giveback => exact fun dest cls s huse hw hx => exec_windowIdleGiveback rfl huse hw hx
  case gap => exact fun src cls s d p hheld hgap => exec_wseqGapSkip_single rfl hheld rfl hgap
  case give =>
    intro p s h hn
    refine ⟨_, exec_wgive_some h hn rfl, ?_, ?_, by simp, fun k hk => by simp [hk], ?_⟩
    · simp only [State.setDwin_pool1, State.onPool_pool1, State.consume_pool1]
      split <;> rfl
    · simp only [State.setDwin_pool3, State.onPool_pool3, State.consume_pool3]
      split <;> rfl
    · exact congrArg (fun x : State => { x with dstWin := s.dstWin, net := s.net }) (State.onPool_rest _ _ _)
  case giveAll =>
    intro p s h hn
    refine ⟨_, exec_wgive_all h hn rfl rfl, ?_, ?_, by simp, ?_⟩
    · simp only [State.askWindow_pool1, State.setSwin_pool1, State.setDwin_pool1, State.onPool_pool1, State.consume_pool1]
      split <;> rfl
    · simp only [State.askWindow_pool3, State.setSwin_pool3, State.setDwin_pool3, State.onPool_pool3, State.consume_pool3]
      split <;> rfl
    · obtain ⟨b, hb⟩ := State.swin_askWindow _ (epPkg p.src) (bodyTc p) (winKey (epPkg p.src) (bodyTc p))
      rw [hb]
      simp [SrcWin.init]
  case failed =>
    intro p s h
    refine ⟨?_, exec_wupdate_failed h, exec_wgive_failed h, exec_advice_failed h, exec_harvestReq_failed h⟩
    rw [exec_wreq, if_pos h]

end Sys2Proof.Machine
end

section
/-! PROOFS. Course advice, congestion counters and harvests (spec/09 R219, R234, R236 to R238). -/
namespace Sys2Proof.Machine

/-! Course advice (R219, R236). -/

/-- R236: the alternative `e` begins with hops 0 to `h` of `course`. -/
def courseBegins (course h e : Nat) : Bool :=
  courseValid e && decide (h < courseHops e) && (List.range (h + 1)).all fun i =>
    decide (coursePort (coursePorts e) i = coursePort course i)

theorem courseBegins_iff (course h e : Nat) : courseBegins course h e = true ↔
    courseValid e = true ∧ h < courseHops e ∧ ∀ i, i ≤ h → coursePort (coursePorts e) i = coursePort course i := by
  simp only [courseBegins, Bool.and_eq_true, decide_eq_true_eq, List.all_eq_true, List.mem_range, Nat.lt_add_one_iff, and_assoc]

/-- The live alternatives at the `n` entries from `b` on that begin with the course have DOWN set. -/
def markDown (course h b n : Nat) (m : Map Nat) : Map Nat :=
  (List.range n).foldl (fun t a =>
    if courseBegins course h (tget 0 t (b + a)) ∧ !courseDown (tget 0 t (b + a)) then tset 0 t (b + a) (tget 0 t (b + a) + 2 ^ 46) else t) m

theorem markDown_succ (course h b n : Nat) (m : Map Nat) : markDown course h b (n + 1) m =
    if courseBegins course h (tget 0 (markDown course h b n m) (b + n)) ∧ !courseDown (tget 0 (markDown course h b n m) (b + n)) then
      tset 0 (markDown course h b n m) (b + n) (tget 0 (markDown course h b n m) (b + n) + 2 ^ 46)
    else markDown course h b n m := by
  unfold markDown
  rw [List.range_succ, List.foldl_append]
  rfl

theorem tget_markDown (course h b n : Nat) (m : Map Nat) (k : Nat) : tget 0 (markDown course h b n m) k =
    if b ≤ k ∧ k < b + n ∧ courseBegins course h (tget 0 m k) = true ∧ courseDown (tget 0 m k) = false then tget 0 m k + 2 ^ 46
    else tget 0 m k := by
  induction n generalizing k with
  | zero => exact (if_neg (by omega)).symm
  | succ n ih =>
    rw [markDown_succ, (ih (b + n)).trans (if_neg (by omega))]
    by_cases hk : k = b + n
    · subst hk
      split <;> simp_all
    · have hlt : k < b + (n + 1) ↔ k < b + n := by omega
      refine Eq.trans ?_ ((ih k).trans (by simp only [hlt]))
      split
      · exact tget_tset_of_ne _ _ _ hk
      · rfl

theorem exec_advice_taken {p : Pkt} {s : State} (h : p.taken = true) : exec (.advice p) s = .next { s.consume p with
    courses := markDown (leVal (p.payload.take 6)) (leVal ((p.payload.drop 8).take 1)) (4 * (p.addr % 32768)) 4 s.courses } := by
  change execAdvice p s = _
  unfold execAdvice
  rw [h]
  rfl

/-! The congestion counters (R237, Table 9-11). -/

theorem State.port_foldl_setPort (s : State) (P : Nat → Bool) (f : Nat → EdgePort) (n r : Nat) :
    ((List.range n).foldl (fun (t : State) p => if P p then t.setPort p (f p) else t) s).port r = if r < n ∧ P r = true then f r else s.port r := by
  induction n with
  | zero => simp
  | succ n ih =>
    rw [List.range_succ, List.foldl_append, List.foldl_cons, List.foldl_nil]
    by_cases hP : P n = true
    · rw [if_pos hP, State.port_setPort, ih]
      by_cases hr : r = n
      · simp [hr, hP]
      · have hlt : r < n + 1 ↔ r < n := by omega
        simp [hr, hlt]
    · rw [if_neg hP, ih]
      by_cases hr : r = n
      · simp [hr, hP]
      · have hlt : r < n + 1 ↔ r < n := by omega
        simp [hlt]

theorem exec_congestionSample (s : State) : exec .congestionSample s = .next ((List.range 72).foldl (fun (t : State) p =>
    if portFitted s.variant p then t.setPort p { s.port p with cong := s.sampleOf p } else t) s) := rfl

theorem State.sampleOf_occ (s : State) (p : Nat) : (s.sampleOf p).occ =
    (bump16 (s.port p).cong.occ (binOf ((s.port p).queue.foldl (fun a q => a + q.pkt.units) 0))).1 := rfl

/-! Harvests (R238). -/

theorem exec_harvestReq_taken {p : Pkt} {s : State} (h : p.taken = true) : exec (.harvestReq p) s = .next (sendMap 20
    { (s.consume p).closeMap with hseq := (s.hseq + 1) % 2 ^ 32 } p 0 (State.congMap { s.consume p with hseq := (s.hseq + 1) % 2 ^ 32 })) := by
  change execHarvestReq p s = _
  unfold execHarvestReq
  rw [h]
  rfl

/-- Settles O30: an ADVICE marks the entries of its destination one by one (`tget_markDown`), and a sample writes the ports one by one
(`State.port_foldl_setPort`). The layout of ADVICE is log 18's (DESIGN CHOICE). -/
theorem adviceAndCongestion : Obligations.AdviceAndCongestion := by
  unfold Obligations.AdviceAndCongestion
  refine ⟨?advice, ?sample, ?idle, ?harvest⟩
  case advice =>
    intro p s h
    refine ⟨_, exec_advice_taken h, fun k hk => ?_, fun a ha => ?_, rfl⟩
    · refine (tget_markDown _ _ _ _ _ _).trans (if_neg ?_)
      rintro ⟨hge, hlt, -⟩
      exact hk (k - 4 * (p.addr % 32768)) (by omega) (by omega)
    · dsimp only
      rw [tget_markDown]
      constructor
      · rintro ⟨hv, hd, hh, hports⟩
        exact if_pos ⟨by omega, by omega, (courseBegins_iff _ _ _).2 ⟨hv, hh, hports⟩, hd⟩
      · intro hnot
        refine if_neg ?_
        rintro ⟨-, -, hb, hd⟩
        obtain ⟨hv, hh, hports⟩ := (courseBegins_iff _ _ _).1 hb
        exact hnot ⟨hv, hd, hh, hports⟩
  case sample =>
    intro s
    refine ⟨_, exec_congestionSample s, fun p hp hfit => ?_, fun p hfit => ?_⟩
    · rw [s.port_foldl_setPort (portFitted s.variant), if_pos ⟨hp, hfit⟩]
      exact ⟨rfl, rfl⟩
    · rw [s.port_foldl_setPort (portFitted s.variant), if_neg (by simp [hfit])]
  case idle =>
    intro s p hq hocc
    rw [State.sampleOf_occ, hq, hocc]
    rfl
  case harvest => exact fun p s h => exec_harvestReq_taken h

end Sys2Proof.Machine
end

section
/-! PROOFS. Frames that a port sends, and the loss and salvage of a port (spec/09 R233; spec/11 R277, R286, R287). -/
namespace Sys2Proof.Machine

/-! Frames (R277, R278) and the entry into a state (Table 11-6). -/

@[simp] theorem State.port_onPort (s : State) (p : Nat) (f : EdgePort → EdgePort) (r : Nat) :
    (s.onPort p f).port r = if r = p then f (s.port p) else s.port r := s.port_setPort p _ r

@[simp] theorem State.port_report (s : State) (kind unit detail r : Nat) : (s.report kind unit detail).port r = s.port r := rfl

/-- `t` with the ports and the light of `s`. -/
def State.unlit (t s : State) : State := { t with ports := s.ports, out := s.out }

/-- What the frames of port `p` leave unchanged: all but its own record and the light. -/
structure State.framesAt (p : Nat) (s t : State) : Prop where
  rest : t.unlit s = s
  ports : ∀ r, r ≠ p → t.port r = s.port r

theorem State.framesAt.trans {p : Nat} {s t u : State} (h : s.framesAt p t) (h' : t.framesAt p u) : s.framesAt p u where
  rest := (congrArg (State.unlit · s) h'.rest).trans h.rest
  ports r hr := (h'.ports r hr).trans (h.ports r hr)

theorem State.framesAt.field {α : Type} {p : Nat} {s t : State} (f : State → α) (hf : ∀ a b, f (State.unlit a b) = f a)
    (h : s.framesAt p t) : f t = f s :=
  (hf t s).symm.trans (congrArg f h.rest)

theorem State.framesAt.report {p : Nat} {s t : State} (h : s.framesAt p t) (kind unit detail : Nat) :
    (s.report kind unit detail).framesAt p (t.report kind unit detail) where
  rest := congrArg (State.report · kind unit detail) h.rest
  ports := h.ports

section
variable (s : State) (p : Nat)

theorem State.framesAt_out (l : List OutMsg) : s.framesAt p { s with out := l } := ⟨rfl, fun _ _ => rfl⟩

theorem State.framesAt_setPort (x : EdgePort) : s.framesAt p (s.setPort p x) :=
  ⟨rfl, fun r hr => (s.port_setPort p x r).trans (if_neg hr)⟩

theorem State.framesAt_train (l tkind mask : Nat) (ack : Bool) : s.framesAt p (s.train l tkind mask ack) := s.framesAt_out p _

theorem State.framesAt_sendFrame (kind seq start : Nat) (payload : List Byte) : s.framesAt p (s.sendFrame p kind seq start payload) :=
  (s.framesAt_setPort p _).trans (State.framesAt_out _ p _)

theorem State.framesAt_keepFrame (kind start : Nat) (payload : List Byte) (pkts : List QPkt) :
    s.framesAt p (s.keepFrame p kind start payload pkts) :=
  (s.framesAt_setPort p _).trans (State.framesAt_sendFrame _ p _ _ _ _)

theorem State.framesAt_control (kind : Nat) (payload : List Byte) : s.framesAt p (s.control p kind payload) := by
  unfold State.control
  split
  · exact s.framesAt_setPort p _
  · exact (s.framesAt_setPort p _).trans (State.framesAt_keepFrame _ p _ _ _ _)

theorem State.framesAt_enter (st : PortState) : s.framesAt p (s.enter p st) := by
  have hset := s.framesAt_setPort p { s.port p with st := st }
  cases st
  case ident => exact hset.trans (State.framesAt_control _ p _ _)
  case keying => exact hset.trans (State.framesAt_control _ p _ _)
  case disagree => exact hset.trans (State.framesAt_sendFrame _ p _ _ _ _)
  case dark | probe | up | lost => exact hset
  all_goals exact hset.trans (State.framesAt_train _ p _ _ _ _)

/-- What a frame changes of its port: a NAK and the count of one channel go out with it, and the keys' place moves on. -/
theorem State.port_sendFrame (kind seq start : Nat) (payload : List Byte) : ∃ k m c, (s.sendFrame p kind seq start payload).port p =
    { s.port p with nakDue := false, keys := k, freedSent := m, credPtr := c } :=
  ⟨_, _, _, (s.port_setPort p _ p).trans (if_pos rfl)⟩

/-- A port that enters DISAGREE, LOCK or PROBE keeps all but what the frame of DISAGREE moves. -/
theorem State.port_enter_down {st : PortState} (h : st = .disagree ∨ st = .lock ∨ st = .probe) : ∃ b k m c, (s.enter p st).port p =
    { s.port p with st := st, nakDue := b, keys := k, freedSent := m, credPtr := c } := by
  obtain rfl | rfl | rfl := h
  · obtain ⟨k, m, c, hp⟩ := State.port_sendFrame (s.onPort p fun x => { x with st := .disagree }) p 0 0 63 []
    exact ⟨false, k, m, c, hp.trans (by simp)⟩
  · exact ⟨_, _, _, _, (s.port_setPort p { s.port p with st := .lock } p).trans (if_pos rfl)⟩
  · exact ⟨_, _, _, _, (s.port_setPort p { s.port p with st := .probe } p).trans (if_pos rfl)⟩
end

/-! What a partner's LAST_COMPLETE releases (R233). -/

section
variable (last : Nat)

theorem releaseTo_of_missing {l : List TxFrame} (h : ∀ f ∈ l, f.seq ≠ last) : releaseTo last l = l := by
  refine if_neg ?_
  simpa using h

theorem releaseTo_append_cons {a : List TxFrame} {f : TxFrame} (b : List TxFrame) (hf : f.seq = last) (ha : ∀ g ∈ a, g.seq ≠ last) :
    releaseTo last (a ++ f :: b) = b := by
  have hany : (a ++ f :: b).any (fun f => decide (f.seq = last)) = true := by simp [hf]
  have hdrop : (a ++ f :: b).dropWhile (fun f => decide (f.seq ≠ last)) = f :: b := by
    rw [List.dropWhile_append_of_pos (by simpa using ha), List.dropWhile_cons_of_neg (by simp [hf])]
  rw [releaseTo, if_pos hany, hdrop]
  rfl

theorem releaseTo_suffix (l : List TxFrame) : releaseTo last l <:+ l := by
  unfold releaseTo
  split
  · exact (List.drop_suffix 1 _).trans (List.dropWhile_suffix _)
  · exact List.suffix_refl l
end

/-! The loss of a port (R286). -/

/-- A port as its loss leaves it. -/
def EdgePort.lost (x : EdgePort) : EdgePort := { x with
  st := .lost, lossSeen := true, held := true, keyed := false, maint := none, discarding := false, nakDue := false, drain := false
  keys := { PortKeys.init with txGen := x.keys.txGen + 1, rxGen := x.keys.rxGen + 1 } }

theorem State.opFin_ops (s : State) (n st result : Nat) : ∃ m, s.opFin n st result = { s with ops := m } := by
  unfold State.opFin
  split
  · exact ⟨s.ops, rfl⟩
  · split
    · exact ⟨s.ops, rfl⟩
    · exact ⟨_, rfl⟩

theorem opFinAll_ops (s : State) (st result : Nat) (l : List Nat) : ∃ m, opFinAll s st result l = { s with ops := m } := by
  induction l generalizing s with
  | nil => exact ⟨s.ops, rfl⟩
  | cons n l ih =>
    obtain ⟨m, hm⟩ := s.opFin_ops n st result
    obtain ⟨m', hm'⟩ := ih (s.opFin n st result)
    exact ⟨m', by rw [opFinAll, hm', hm]⟩

/-- The operations of a maintenance that the loss of the port ends are over (R289). -/
def State.maintEnded (s : State) (p : Nat) : State := match (s.port p).maint with
  | some m => opFinAll s 3 0x24 m.ops
  | none => s

theorem State.maintEnded_ops (s : State) (p : Nat) : ∃ m, s.maintEnded p = { s with ops := m } := by
  unfold State.maintEnded
  split
  · exact opFinAll_ops s 3 0x24 _
  · exact ⟨s.ops, rfl⟩

/-- The port is lost, and its partner is told what was received last. -/
def State.salvageAsked (s : State) (p : Nat) : State :=
  if (s.port p).peerValid then
    ((s.maintEnded p).setPort p (s.port p).lost).dispatchAround
      (mkPkt 0x34 4 (helmEp (s.port p).peer) (helmEp s.selfNum) 0 0 p (leBytes 16 ((s.port p).lastDone.getD noFrame))).seal p
  else (s.maintEnded p).setPort p (s.port p).lost

theorem State.sends_salvageAsked (s : State) (p : Nat) :
    ∃ m, State.sends ({ s with ops := m }.setPort p (s.port p).lost) (s.salvageAsked p) := by
  obtain ⟨m, h⟩ := s.maintEnded_ops p
  refine ⟨m, ?_⟩
  rw [← h]
  exact .ite (State.sends_dispatchAround _ _ _) (.refl _)

theorem State.portLost_of_up {s : State} {p : Nat} (hst : (s.port p).st = .up) : s.portLost p = match (s.port p).early with
    | some last => (s.salvageAsked p).salvageTake p last
    | none => s.salvageAsked p :=
  if_neg (by simp [hst])

theorem exec_portLoss (p : PortId) (s : State) :
    exec (.portLoss p) s = .next (if (s.port p.val).st = .up then s.portLost p.val else s) := by
  change execPortLoss p s = _
  rw [apply_ite Host.Outcome.next]
  rfl

/-! The end of a salvage (R233, R287). -/

/-- Where a port goes once its salvage has ended. -/
def EdgePort.afterSalvage (x : EdgePort) : PortState := if x.shut then .disagree else if x.light then .lock else .probe

theorem EdgePort.afterSalvage_down (x : EdgePort) : x.afterSalvage = .disagree ∨ x.afterSalvage = .lock ∨ x.afterSalvage = .probe := by
  unfold EdgePort.afterSalvage
  (repeat' split) <;> simp

/-- A port whose salvage is over. -/
def EdgePort.salvaged (x : EdgePort) : EdgePort := { x with held := false, early := none, lightOff := x.lightOff || !x.light }

section
variable (s : State) (p n : Nat)

theorem State.salvageEnd_eq : s.salvageEnd p n =
    ((s.onPort p EdgePort.salvaged).enter p (s.port p).afterSalvage).report (if n = 0 then 0x16 else 0x17) p 0 := by
  unfold State.salvageEnd
  dsimp only
  split <;> rfl

theorem State.port_salvageEnd : ∃ b k m c, (s.salvageEnd p n).port p = { (s.port p).salvaged with
    st := (s.port p).afterSalvage, nakDue := b, keys := k, freedSent := m, credPtr := c } := by
  obtain ⟨b, k, m, c, h⟩ := (s.onPort p EdgePort.salvaged).port_enter_down p (s.port p).afterSalvage_down
  refine ⟨b, k, m, c, ?_⟩
  rw [State.salvageEnd_eq, State.port_report, h, State.port_onPort, if_pos rfl]

theorem State.framesAt_salvageEnd : (s.report (if n = 0 then 0x16 else 0x17) p 0).framesAt p (s.salvageEnd p n) := by
  rw [State.salvageEnd_eq]
  exact ((s.framesAt_setPort p _).trans (State.framesAt_enter _ p _)).report _ _ _

theorem State.salvageEnd_reports : (s.salvageEnd p n).reports = s.reports ++ [⟨if n = 0 then 0x16 else 0x17, p, 0, s.reckon, none⟩] :=
  (s.framesAt_salvageEnd p n).field State.reports fun _ _ => rfl
end

/-! The partner's report, and its absence (R233). -/

/-- The port whose partner names it in a SALVAGE. -/
def State.salvagePort (s : State) (p : Pkt) : Option Nat := (List.range 72).find? fun q =>
  (s.port q).peerValid && decide ((s.port q).peer = epPkg p.src) && decide ((s.port q).peerPort = p.addr % 128)

theorem exec_salvage {p : Pkt} {s : State} {q : Nat} (h : p.taken = true) (hq : s.salvagePort p = some q) : exec (.salvage p) s = .next (
    if (s.port q).st = .lost ∧ (s.port q).held = true then (s.consume p).salvageTake q (leVal p.payload)
    else if (s.port q).st = .up ∨ (s.port q).st = .width then (s.consume p).setPort q { s.port q with early := some (leVal p.payload) }
    else s.consume p) := by
  have hfind : (List.range 72).find? (fun q => ((s.consume p).port q).peerValid && decide (((s.consume p).port q).peer = epPkg p.src)
      && decide (((s.consume p).port q).peerPort = p.addr % 128)) = some q := hq
  change execSalvage p s = _
  unfold execSalvage
  rw [h, apply_ite Host.Outcome.next, apply_ite Host.Outcome.next]
  simp only [hfind]
  rfl

/-- A port that sends nothing again and holds nothing. -/
def EdgePort.emptied (x : EdgePort) : EdgePort := { x with replay := [], ctlQ := [], queue := [] }

/-- A port that holds no packet empties, and nothing of it ends. -/
theorem State.salvageTake_of_nothing {s : State} {p last : Nat} (hrest : releaseTo last (s.port p).replay = []) (hqueue : (s.port p).queue = []) :
    s.salvageTake p last = (s.onPort p EdgePort.emptied).salvageEnd p 0 := by
  unfold State.salvageTake
  dsimp only
  rw [hrest, hqueue]
  rfl

/-- The packets of unacknowledged frames end, and nothing is known of what arrived. -/
def State.doubtEnded (s : State) (p : Nat) : State :=
  (framePkts (s.port p).replay).foldl (fun s q => (s.endPkt q.pkt 0x0A).onCong p CongRec.drop)
    (s.onPort p EdgePort.emptied)

theorem State.sendsByWindow_doubtEnded (s : State) (p : Nat) :
    State.sendsByWindow (s.onPort p EdgePort.emptied) (s.doubtEnded p) :=
  State.sendsByWindow_foldl (fun t (q : QPkt) => (t.sendsByWindow_endPkt q.pkt 0x0A).trans (State.sends_onCong _ _ _).byWindow) _

theorem exec_salvageTimeout {p : PortId} {s : State} (hst : (s.port p.val).st = .lost) (hheld : (s.port p.val).held = true)
    (hqueue : (s.port p.val).queue = []) :
    exec (.salvageTimeout p) s = .next ((s.doubtEnded p.val).salvageEnd p.val (framePkts (s.port p.val).replay).length) := by
  have hwaits : ¬((s.port p.val).st ≠ .lost ∨ (!(s.port p.val).held) = true) := by simp [hst, hheld]
  change execSalvageTimeout p s = _
  simp only [execSalvageTimeout, if_neg hwaits, hqueue, reCourseAll, Nat.zero_add]
  rfl

/-- Settles O32: the loss, the partner's report and its absence are the lemmas above about their rows; what packets on their way out change of
a port is its queue and its congestion record alone (`State.sends`). LAST_COMPLETE as the whole payload is log 18's (DESIGN CHOICE). -/
theorem portLossAndSalvage : Obligations.PortLossAndSalvage := by
  unfold Obligations.PortLossAndSalvage
  refine ⟨?loss, ?noLoss, ?report, ?reportLast, ?early, ?timeout, ?release⟩
  case loss =>
    intro p s hst hearly
    have hlost : s.portLost p.val = s.salvageAsked p.val := (State.portLost_of_up hst).trans (by rw [hearly])
    obtain ⟨m, h⟩ := s.sends_salvageAsked p.val
    rw [← hlost] at h
    have hport {α : Type} (f : EdgePort → α) (hf : ∀ x, f (EdgePort.unloaded x) = f x) :
        f ((s.portLost p.val).port p.val) = f (s.port p.val).lost :=
      (h.port_field f hf p.val).trans (congrArg f ((State.port_setPort _ _ _ _).trans (if_pos rfl)))
    exact ⟨_, (exec_portLoss p s).trans (by rw [if_pos hst]), hport EdgePort.st fun _ => rfl, hport EdgePort.held fun _ => rfl,
      hport EdgePort.lossSeen fun _ => rfl, hport EdgePort.keyed fun _ => rfl, hport (fun x => x.keys.txGen) fun _ => rfl,
      hport (fun x => x.keys.rxGen) fun _ => rfl, hport EdgePort.maint fun _ => rfl, hport EdgePort.replay fun _ => rfl,
      fun c => (h.field (State.core · c) fun _ _ => rfl).trans rfl, (h.field State.hbm fun _ _ => rfl).trans rfl⟩
  case noLoss => exact fun p s hst => (exec_portLoss p s).trans (by rw [if_neg hst])
  case report => exact fun p s q h hst hheld hq => (exec_salvage h hq).trans (by rw [if_pos ⟨hst, hheld⟩])
  case reportLast =>
    intro p s q h hst hheld hq hrest hqueue hshut
    refine ⟨_, (exec_salvage h hq).trans (by rw [if_pos ⟨hst, hheld⟩, State.salvageTake_of_nothing (s := s.consume p) hrest hqueue]), ?_⟩
    obtain ⟨b, k, m, c, hport⟩ := ((s.consume p).onPort q EdgePort.emptied).port_salvageEnd q 0
    have hframes := ((s.consume p).onPort q EdgePort.emptied).framesAt_salvageEnd q 0
    have hempty : ((s.consume p).onPort q EdgePort.emptied).port q = (s.port q).emptied := (State.port_onPort _ _ _ _).trans (if_pos rfl)
    have hafter : (s.port q).emptied.afterSalvage = if (s.port q).light = true then .lock else .probe :=
      if_neg (by simp [EdgePort.emptied, hshut])
    rw [hempty, hafter] at hport
    refine ⟨by rw [hport]; rfl, by rw [hport]; rfl, by rw [hport]; rfl, by rw [hport]; rfl, by rw [hport], ?_, fun r hr => ?_, ?_⟩
    · exact State.salvageEnd_reports _ q 0
    · exact (hframes.ports r hr).trans ((State.port_onPort _ _ _ _).trans (if_neg hr))
    · exact congrArg (fun x : State => { x with ports := s.ports, reports := s.reports, net := s.net, out := s.out }) hframes.rest
  case early =>
    intro p s q h hst hq
    rw [exec_salvage h hq, if_neg (by simp [hst]), if_pos (.inl hst)]
  case timeout =>
    intro p s hst hheld hqueue
    refine ⟨_, exec_salvageTimeout hst hheld hqueue, ?_⟩
    have hsends := s.sendsByWindow_doubtEnded p.val
    have hempty : (s.onPort p.val EdgePort.emptied).port p.val = (s.port p.val).emptied := (State.port_onPort _ _ _ _).trans (if_pos rfl)
    have hdoubt {α : Type} (f : EdgePort → α) (hf : ∀ x, f (EdgePort.unloaded x) = f x) :
        f ((s.doubtEnded p.val).port p.val) = f (s.port p.val).emptied := (hsends.port_field f hf p.val).trans (congrArg f hempty)
    obtain ⟨b, k, m, c, hport⟩ := (s.doubtEnded p.val).port_salvageEnd p.val (framePkts (s.port p.val).replay).length
    rw [hport, State.salvageEnd_reports, hdoubt EdgePort.afterSalvage fun _ => rfl, hsends.field State.reports (fun _ _ => rfl) fun _ _ => rfl,
      hsends.field State.reckon (fun _ _ => rfl) fun _ _ => rfl]
    exact ⟨rfl, hdoubt EdgePort.replay fun _ => rfl, rfl, rfl⟩
  case release =>
    refine fun last l => ⟨⟨_, List.suffix_iff_eq_drop.1 (releaseTo_suffix last l)⟩, releaseTo_of_missing last, ?_⟩
    rintro a f b rfl hf ha
    exact releaseTo_append_cons last b hf ha

end Sys2Proof.Machine
end

section
/-! PROOFS. What the helm takes from peers, harvests and pair checks (spec/09 R232, R235, R238; spec/12 R307, R310; spec/13 R339). -/
namespace Sys2Proof.Machine

/-! Messages as they arrive (R232, R235). -/

section
variable {p : Pkt} {s : State}

theorem exec_helmMsg_arrived (hnet : p ∈ s.net) : exec (.helmMsg p) s = .next (
    if p.taken = false then (s.consume p).endTc0 p
    else if s.helmServes = true then (s.consume p).helmTake p
    else if s.inbox.length < 4096 then { s.consume p with inbox := s.inbox ++ [p] }
    else State.helmAnswer { s.consume p with inboxLost := s.inboxLost + 1 } p 0x10 []) := by
  have hin : s.net.contains p = true := by simpa using hnet
  change execHelmMsg p s = _
  unfold execHelmMsg
  rw [if_pos hin]
  cases p.taken with
  | false => rfl
  | true =>
    simp only [Bool.not_true, Bool.false_eq_true, if_false, reduceCtorEq]
    by_cases hserve : s.helmServes = true
    · rw [if_pos hserve, if_pos hserve]
    · rw [if_neg hserve, if_neg hserve]
      by_cases hroom : s.inbox.length < 4096
      · rw [if_neg (Nat.not_le.2 hroom), if_pos hroom]
        rfl
      · rw [if_pos (Nat.not_lt.1 hroom), if_neg hroom]
        rfl

theorem exec_helmMsg_inbox (hnet : p ∉ s.net) : exec (.helmMsg p) s = .next (
    if p ∈ s.inbox ∧ p.op = 0x3C ∧ s.helmServes = true then State.helmTake { s with inbox := removeFirst p s.inbox } p else s) := by
  have hout : ¬s.net.contains p = true := by simpa using hnet
  change execHelmMsg p s = _
  unfold execHelmMsg
  rw [if_neg hout, apply_ite Host.Outcome.next]
  simp only [List.contains_iff_mem]
end

/-! Messages as the helm takes them (R339). -/

section
variable {p : Pkt} {s : State}

theorem State.helmTake_refused {bop : Nat} (hbop : leVal (p.payload.take 1) = bop) (h : bop = 1 ∨ bop = 2 ∨ bop = 3)
    (hwho : leVal ((p.payload.drop 2).take 2) ≠ 257 ∨ epPkg p.src ∉ s.fmPeers) : s.helmTake p = s.helmAnswer p 0x05 [] := by
  have hfreeze : bop ≠ 0x11 := by omega
  have hwho' : leVal ((p.payload.drop 2).take 2) ≠ 257 ∨ (!s.fmPeers.contains (epPkg p.src)) = true := by simpa using hwho
  simp only [State.helmTake, List.drop_zero, hbop, if_neg hfreeze, if_pos h, if_pos hwho']

section
variable (hberth : leVal ((p.payload.drop 2).take 2) = 257) (hwho : epPkg p.src ∈ s.fmPeers) {n : Nat} {d : List Byte}
  (hn : n = min 48 (leVal ((p.payload.drop 6).take 1))) (hd : d = (p.payload.drop 16).take n)
include hberth hwho hn hd

/-- A message of a fabric manager for berth 0x101: a write, a ring or a read. -/
theorem State.helmTake_heard {bop : Nat} (hbop : leVal (p.payload.take 1) = bop) (h : bop = 1 ∨ bop = 2 ∨ bop = 3) : s.helmTake p =
    if bop = 1 then s.berthWrite 257 (idPeer (epPkg p.src)) (leVal ((p.payload.drop 4).take 2) % 4096) d
    else if bop = 2 then s.berthRingWrite 257 (idPeer (epPkg p.src)) (leVal (d.take 4) / 65536) (leVal (d.take 4))
    else State.helmAnswer (s.berthRead 257 (idPeer (epPkg p.src)) (leVal ((p.payload.drop 4).take 2) % 4096) n).2 p 0x04
      (s.berthRead 257 (idPeer (epPkg p.src)) (leVal ((p.payload.drop 4).take 2) % 4096) n).1 := by
  have hfreeze : bop ≠ 0x11 := by omega
  have hwho' : ¬(leVal ((p.payload.drop 2).take 2) ≠ 257 ∨ (!s.fmPeers.contains (epPkg p.src)) = true) := by simp [hberth, hwho]
  subst hn hd
  simp only [State.helmTake, List.drop_zero, hbop, if_neg hfreeze, if_pos h, if_neg hwho']
end

theorem State.helmTake_freeze (hbop : leVal (p.payload.take 1) = 0x11) (hn : leVal ((p.payload.drop 1).take 1) < 16) :
    s.helmTake p = s.pairFault (leVal ((p.payload.drop 1).take 1)) true := by
  simp only [State.helmTake, List.drop_zero, hbop, if_pos hn, if_true]

theorem State.helmTake_other {bop : Nat} (hbop : leVal (p.payload.take 1) = bop) (h : ¬(bop = 1 ∨ bop = 2 ∨ bop = 3))
    (hn : bop ≠ 0x11 ∨ 16 ≤ leVal ((p.payload.drop 1).take 1)) : s.helmTake p = s := by
  simp only [State.helmTake, List.drop_zero, hbop, if_neg h]
  by_cases hfreeze : bop = 0x11
  · rw [if_pos hfreeze, if_neg (by omega)]
  · rw [if_neg hfreeze]
end

/-! Segments of a congestion map (R238). -/

/-- The harvest that a segment of package `src`'s map belongs to. -/
def State.harvestOf (s : State) (src : Nat) : Option Op :=
  s.ops.find? fun o => decide (o.opcode = 0x0405) && o.fin.isNone && decide (o.work.headD 0 = src)

/-- A segment at offset `off` in the buffer of its harvest. -/
def State.harvestPut (s : State) (o : Op) (src off : Nat) (bs : List Byte) : State :=
  (s.putAt o.akind o.who o.barn (o.bufAddr + off) (bs.take (o.bufLen - off))).setOp { o with
    work := [src, o.work.getD 1 0 + bs.length]
    partialBytes := if off = o.partialBytes then off + (bs.take (o.bufLen - off)).length else o.partialBytes }

theorem exec_harvestData_elsewhere {p : Pkt} {s : State} (hnet : p ∉ s.net) : exec (.harvestData p) s = .next s := by
  have hout : (!s.net.contains p) = true := by simpa using hnet
  change execHarvestData p s = _
  exact if_pos hout

theorem exec_harvestData {p : Pkt} {s u : State} (hnet : p ∈ s.net) (hu : u = (s.consume p).freed p) : exec (.harvestData p) s = .next (
    if p.taken = false then u.endTc0 p
    else match u.harvestOf (epPkg p.src) with
      | none => u
      | some o =>
        if 4672 ≤ o.work.getD 1 0 + p.payload.length then (u.harvestPut o (epPkg p.src) (p.addr % 2 ^ 32) p.payload).opFin o.num 2 0x00
        else u.harvestPut o (epPkg p.src) (p.addr % 2 ^ 32) p.payload) := by
  have hin : ¬(!s.net.contains p) = true := by simpa using hnet
  change execHarvestData p s = _
  unfold execHarvestData
  rw [if_neg hin]
  subst hu
  cases p.taken with
  | false => rfl
  | true =>
    unfold State.harvestOf
    simp only [Bool.not_true, Bool.false_eq_true, if_false, reduceCtorEq]
    cases List.find? _ ((s.consume p).freed p).ops with
    | none => rfl
    | some o => rfl

/-! The outcome of pair checks (R310, Tables 12-5 and 12-6). -/

/-- The outcome is kept. -/
def State.pairOutcome (s : State) (n code : Nat) : State := s.onPairRec n fun x => { x with outcome := code, checking := false }
/-- The outcome is told at the fabric manager's berth and at the pair's barn. -/
def State.tellOutcome (s : State) (barn n code : Nat) : State :=
  (s.postNotice 257 0x04 (leBytes 1 n ++ leBytes 1 code)).postNotice barn 0x04 (leBytes 1 n ++ leBytes 1 code)

theorem State.faultyOut_nil (s : State) (f : FaultyUnits) : s.faultyOut [] f = s := by
  have hnone {α : Type} (l : List α) : l.filter (fun _ => false) = [] := List.filter_eq_nil_iff.2 fun _ _ h => nomatch h
  simp [State.faultyOut, hnone]

theorem exec_pairChecksComplete_idle {n : Fin 16} {s : State} (h : (s.pairRec n.val).checking = false) (a b : Bool) (f : FaultyUnits) :
    exec (.pairChecksComplete n a b f) s = .next s := by
  change execPairChecksComplete n a b f s = _
  unfold execPairChecksComplete
  exact if_pos (by simp [h])

section
variable {n : Fin 16} {s : State} {d : PairDesc} (hrun : (s.pairRec n.val).checking = true) (hd : d = pairDesc (tget 0 s.pairTable n.val))
include hrun hd

theorem exec_pairChecksComplete_good (f : FaultyUnits) (hA : s.memberBad n.val false = false) (hB : s.memberBad n.val true = false) :
    exec (.pairChecksComplete n false false f) s = .next ((s.pairOutcome n.val 3).tellOutcome d.barn n.val 3) := by
  change execPairChecksComplete n false false f s = _
  unfold execPairChecksComplete
  rw [if_neg (by simp [hrun])]
  simp [hA, hB, State.faultyOut_nil, hd, State.pairOutcome, State.tellOutcome]

theorem exec_pairChecksComplete_bad {a b : Bool} (f : FaultyUnits) (hA : (a || s.memberBad n.val false) = true)
    (hB : (b || s.memberBad n.val true) = true) : exec (.pairChecksComplete n a b f) s = .next (
      ((((s.pairOutcome n.val 4).faultyOut (s.memberDies d false ++ s.memberDies d true) f).report 0x1D s.selfNum n.val).tellOutcome d.barn n.val 4)) := by
  change execPairChecksComplete n a b f s = _
  unfold execPairChecksComplete
  rw [if_neg (by simp [hrun])]
  simp [hA, hB, hd, State.pairOutcome, State.tellOutcome]

/-- Exactly one member fails (Table 12-6): the pair is dropped, and where the value was the survivor's (`code` 1) the survivor runs on. -/
theorem exec_pairChecksComplete_split {a b failA : Bool} {code : Nat} (f : FaultyUnits) (hA : (a || s.memberBad n.val false) = failA)
    (hB : (b || s.memberBad n.val true) = !failA)
    (hcode : code = if (if failA = true then (s.pairRec n.val).fromA else (s.pairRec n.val).fromB) = true then 2 else 1) {u : State}
    (hu : u = (s.pairOutcome n.val code).faultyOut (s.memberDies d !failA) f) : exec (.pairChecksComplete n a b f) s = .next (
      State.tellOutcome (if code = 2 then u.dropPair n.val
        else { u.dropPair n.val with frozen := u.frozen.filter fun x => !(s.memberDies d failA).contains x }) d.barn n.val code) := by
  change execPairChecksComplete n a b f s = _
  unfold execPairChecksComplete
  rw [if_neg (by simp [hrun])]
  subst hu hcode hd
  simp only [hA, hB]
  cases failA
  case false => cases (s.pairRec n.val).fromB <;> simp [State.pairOutcome, State.tellOutcome]
  case true => cases (s.pairRec n.val).fromA <;> simp [State.pairOutcome, State.tellOutcome]
end

/-! An entry that has held one copy for its time (R307). -/

theorem exec_unpairTimeout {g : ClusterId} {n m : Fin 16} {q : BitVec 14} {s : State} {k : Nat} {e : ChaffEntry} (hk : k = chaffKey g.val n.val m.val)
    (he : e = (s.chaffWin k).at q.toNat) : exec (.unpairTimeout g n m q) s = .next (
      if e.state = 2 then answerAll (State.unpairedEvent
        (s.setChaff k ((s.chaffWin k).put q.toNat { ChaffEntry.resolved with unpaired := true })) n.val e.memberB) 0x05 [] e.waiting
      else if e.state = 1 ∧ e.waiting ≠ [] then answerAll (State.overrunEvent
        (s.setChaff k ((s.chaffWin k).put q.toNat ChaffEntry.resolved)) n.val) 0x05 [] e.waiting
      else s) := by
  change execUnpairTimeout g n m q s = _
  unfold execUnpairTimeout
  subst hk
  simp only [← he]
  by_cases hpaired : e.state = 2
  · simp only [hpaired, if_true]
  · rw [if_neg hpaired]
    by_cases hone : e.state = 1
    · simp only [hone, true_and, List.isEmpty_iff, ite_not]
      split <;> rfl
    · rw [if_neg (c := e.state = 1 ∧ e.waiting ≠ []) fun h => hone h.1]
      split
      case h_1 h => exact absurd h hpaired
      case h_2 h => exact absurd h hone
      case h_3 => rfl

/-- Settles O49: what the helm takes from peers (BOP 0x10 and 0x11 are log 17's choice), the segments of a congestion map, the outcome of pair checks
(the corners are log 25's, the notices' bodies log 35's) and the end of an entry that holds one copy. -/
theorem helmMessages : Obligations.HelmMessages := by
  unfold Obligations.HelmMessages
  refine ⟨?nothing, fun p s => exec_helmMsg_arrived, ?inbox, fun _ _ => rfl, fun _ _ _ hbop => State.helmTake_refused hbop, ?heard,
    fun _ _ => State.helmTake_freeze, ?other, fun p s => exec_harvestData_elsewhere, ?lostData, ?noHarvest, ?harvest,
    fun n a b f s h => exec_pairChecksComplete_idle h a b f, ?good, ?bad, ?split, ?unpair⟩
  case nothing =>
    intro p s hnet hnot
    rw [exec_helmMsg_inbox hnet, if_neg fun h => hnot.elim (fun hout => hout h.1) fun hop => hop h.2.1]
  case inbox =>
    intro p s hnet hin hop
    rw [exec_helmMsg_inbox hnet]
    simp only [hin, hop, true_and]
  case heard =>
    intro p s n d hberth hwho hn hd
    have htake := fun {bop} => State.helmTake_heard hberth hwho hn hd (bop := bop)
    exact ⟨fun h => by rw [htake h (by omega)]; rfl, fun h => by rw [htake h (by omega)]; rfl, fun h => by rw [htake h (by omega)]; rfl⟩
  case other =>
    intro p s bop hbop h1 h2 h3
    exact State.helmTake_other hbop (by omega)
  case lostData =>
    intro p s hnet htaken
    rw [exec_harvestData hnet rfl, if_pos htaken]
  case noHarvest =>
    intro p s u hnet htaken hu hfind
    have hof : u.harvestOf (epPkg p.src) = none := hfind
    rw [exec_harvestData hnet hu, if_neg (by simp [htaken]), hof]
  case harvest =>
    intro p s u w o hnet htaken hu hfind hw
    have hof : u.harvestOf (epPkg p.src) = some o := hfind
    rw [exec_harvestData hnet hu, if_neg (by simp [htaken]), hof, hw]
    rfl
  case good =>
    intro n f s u d hrun hd hA hB hu
    rw [exec_pairChecksComplete_good hrun hd f hA hB, hu]
    rfl
  case bad =>
    intro n a b f s u d hrun hd hA hB hu
    rw [exec_pairChecksComplete_bad hrun hd f (by simpa using hA) (by simpa using hB), hu]
    rfl
  case split =>
    intro n a b f s u w d code hrun hd hB hcode hu hw
    rw [exec_pairChecksComplete_split hrun hd f rfl hB hcode hu, hw]
    rfl
  case unpair =>
    intro g n m q s k e hk he
    rw [exec_unpairTimeout hk he]
    refine ⟨fun h => by rw [if_pos h], fun h hw => ?_, fun h hw => ?_, fun h1 h2 => ?_⟩
    · rw [if_neg (by omega), if_pos ⟨h, hw⟩]
    · rw [if_neg (by omega), if_neg fun h => h.2 hw]
    · rw [if_neg h2, if_neg fun h => h1 h.1]

end Sys2Proof.Machine
end

section
/-! PROOFS. What reset leaves (spec/09 R222, R225; spec/15 R384; spec/16 R392). -/
namespace Sys2Proof.Machine

/-! The tables of a package in reset list nothing. -/

theorem State.core_reset (c : Nat) : State.reset.core c = Core.init := rfl
theorem State.barnExists_reset (b : Nat) : State.reset.barnExists b = false := rfl
theorem State.port_reset (p : Nat) : State.reset.port p = EdgePort.init := rfl
theorem State.berth_reset (b : Nat) : State.reset.berth b = Berth.init := rfl

/-- The slices of a package in reset fill the buffer of 8,192 units (R222). -/
theorem State.slices_reset_sum : State.reset.slices.foldl (· + ·) 0 = 8192 := by decide

/-- Settles O56: a table that lists nothing reads the reset value everywhere, and every other clause names one field of the reset state. That
every core equals `Core.init` is log 6's (DESIGN CHOICE). -/
theorem resetLeaves : Obligations.ResetLeaves := by
  unfold Obligations.ResetLeaves
  exact ⟨rfl, rfl, rfl, State.core_reset, rfl, rfl, rfl, rfl, rfl, rfl, rfl, rfl, rfl, State.barnExists_reset, rfl, rfl, rfl, rfl, rfl, rfl, rfl, rfl,
    rfl, rfl, State.slices_reset_sum, fun p => congrArg EdgePort.st (State.port_reset p), fun b => congrArg Berth.rseq (State.berth_reset b)⟩

end Sys2Proof.Machine
end

section
/-! PROOFS. The record of a pair that a load forms (spec/12 R300, R310). -/
namespace Sys2Proof.Machine

/-- Pair 0 loaded at reckoner 1: what the load answers for it. -/
theorem loadPairs_formedAt : ((({ State.reset with reckon := 1 } : State).loadPairs [1]).pairRec 0).formedAt = 1 := by
  decide

/-- Refutes O46: its clause on `loadPairs` says that a pair newly formed has the record `PairRec.init`, but forming it notes the reckoner in
`formedAt`, which a reckoner other than 0 makes another record. Every other field of the record is `PairRec.init`'s. -/
theorem not_fabricCommands : ¬ Obligations.FabricCommands := by
  unfold Obligations.FabricCommands
  rintro ⟨-, -, -, -, -, -, -, -, -, -, -, -, -, -, -, hload, -⟩
  obtain ⟨-, hnew, -⟩ := hload { State.reset with reckon := 1 } [1] 0 (by decide)
  have hinit := congrArg PairRec.formedAt (hnew (by decide) (by decide))
  rw [loadPairs_formedAt] at hinit
  exact absurd hinit (by decide)

end Sys2Proof.Machine
end

section
/-! PROOFS. The numbers of the frames that a port sends (spec/11 R277). -/
namespace Sys2Proof.Machine

/-- A packet of traffic class 0 that crosses the package on its way to another. -/
def transitPkt : QPkt := ⟨mkPkt 0x3C 4 0 0 0 0 0 [], some (1, 12)⟩
/-- Port 0, a span port that is up, with that packet in its queue and the next frame number past 4,095. -/
def portAt4096 : EdgePort :=
  { EdgePort.init with st := .up, txSeq := 4096, credit := [(0, 16)], queue := [transitPkt] }
/-- The package with that port. -/
def stateAt4096 : State := { State.reset with plan := memWrite [] 64 [1], ports := [(0, portAt4096)] }
/-- The arbitration's state once the packet is picked. -/
def arbAfter : ArbState := { EdgePort.init.arb with lastTransit := tset false [] 0 true }
/-- The numbers of the frames in the replay buffer of port 0 after an outcome. -/
def replaySeqs : Out → List Nat
  | .next t => (t.port 0).replay.map TxFrame.seq
  | _ => []

theorem txPick_stateAt4096 : stateAt4096.txPick 0 = some (transitPkt, arbAfter) := by decide
theorem replaySeqs_edgeTxPick : replaySeqs (exec (.edgeTxPick 0) stateAt4096) = [4096] := by decide

/-- Refutes O31: its first clause gives the first frame the number `txSeq % 4096`, but the port stores the `txSeq` it stands at, and no hypothesis
of the clause bounds it (the conjunct on the next number alone asks `txSeq < 4096`, which holds of every port that starts at reset). -/
theorem not_edgeTransmission : ¬ Obligations.EdgeTransmission := by
  unfold Obligations.EdgeTransmission
  rintro ⟨hsend, -⟩
  obtain ⟨t, l, hexec, -, -, -, -, -, hreplay, -⟩ := hsend 0 stateAt4096 transitPkt arbAfter (by decide) (by decide) (by decide) (by decide)
    (by decide) (by decide) txPick_stateAt4096 (by decide) (by decide)
  have hmodel : (t.port 0).replay.map TxFrame.seq = [4096] := by
    rw [← replaySeqs_edgeTxPick, hexec]
    rfl
  have hclaim : (t.port 0).replay.map TxFrame.seq = [0] := by
    rw [show (t.port 0).replay = _ from hreplay]
    decide
  exact absurd (hmodel.symm.trans hclaim) (by decide)

end Sys2Proof.Machine
end

section
/-! PROOFS. The canonical form of HBM (log 8): what an outcome and an instruction's body must leave, and the operations that write HBM: a queue's
entries, the helm's writes and an operation's records (spec/10 R246, R260, R266; spec/13 R333). -/
namespace Sys2Proof.Machine

/-- HBM is canonical in the state that an outcome leaves. -/
def Out.Canonical (o : Out) : Prop := ∀ t, o = .next t → memWf t.hbm = true
@[simp] theorem Out.canonical_next (t : State) : Out.Canonical (.next t) ↔ memWf t.hbm = true := by simp [Out.Canonical]

/-- HBM is canonical in the state that an instruction's body leaves. -/
def Body.Canonical : Body → Prop
  | .done t => memWf t.hbm = true
  | .jump t _ => memWf t.hbm = true
  | .refused t _ _ => memWf t.hbm = true
  | .raise _ _ => True
  | .notReady => True
@[simp] theorem Body.canonical_done (t : State) : (Body.done t).Canonical ↔ memWf t.hbm = true := Iff.rfl
@[simp] theorem Body.canonical_jump (t : State) (pc : Nat) : (Body.jump t pc).Canonical ↔ memWf t.hbm = true := Iff.rfl
@[simp] theorem Body.canonical_refused (t : State) (st a : Nat) : (Body.refused t st a).Canonical ↔ memWf t.hbm = true := Iff.rfl
@[simp] theorem Body.canonical_raise (code a : Nat) : (Body.raise code a).Canonical := trivial
@[simp] theorem Body.canonical_notReady : Body.notReady.Canonical := trivial

@[simp] theorem memWf_nil : memWf [] = true := rfl

section
variable {s : State} (h : memWf s.hbm = true)
include h

@[simp] theorem memWf_enqueue (p : Pkt) (q : Nat) : memWf (s.enqueue p q).2.hbm = true := by
  unfold State.enqueue
  dsimp only
  split
  · split <;> simp [h]
  · split
    · split <;> simp [h]
    · split <;> simp [memWf_hbmStore, h]

@[simp] theorem memWf_localWrite (l : Nat) (bs : List Byte) : memWf (s.localWrite l bs).hbm = true := by
  unfold State.localWrite
  split <;> simp [memWf_hbmStore, h]

@[simp] theorem memWf_putAt (k who barn a : Nat) (bs : List Byte) : memWf (s.putAt k who barn a bs).hbm = true := by
  unfold State.putAt
  split
  · exact h
  · split
    · exact h
    · exact memWf_localWrite h a bs

@[simp] theorem memWf_opWrite (o : Op) : memWf (s.opWrite o).hbm = true := by
  unfold State.opWrite
  dsimp only
  repeat' split
  all_goals simp (disch := simp [h]) [h]

@[simp] theorem memWf_opChange (n : Nat) (f : Op → Op) : memWf (s.opChange n f).hbm = true := by
  unfold State.opChange
  split <;> simp [h]

@[simp] theorem memWf_opState (n st r : Nat) : memWf (s.opState n st r).hbm = true := memWf_opChange h n _

@[simp] theorem memWf_opBuffer (n : Nat) (bs : List Byte) : memWf (s.opBuffer n bs).hbm = true := by
  unfold State.opBuffer
  split <;> simp [h]

@[simp] theorem memWf_bufOut (c : Cmd) (bs : List Byte) : memWf (s.bufOut c bs).hbm = true := memWf_putAt h _ _ _ _ _

/-- Every operation of a list moves to running. -/
theorem memWf_opsRunning (l : List Nat) : memWf (l.foldl (fun s n => s.opState n 1 0) s).hbm = true := by
  induction l generalizing s with
  | nil => exact h
  | cons n l ih => exact ih (memWf_opState h n 1 0)
end

end Sys2Proof.Machine
end

section
/-! PROOFS. What the helm's operations, fault records, calibration and requests at their target leave of HBM (spec/08, spec/10, spec/13, spec/18). -/
namespace Sys2Proof.Machine

/-- What each step of a fold keeps, the fold keeps. -/
theorem foldl_memWf {α : Type} {f : State → α → State} {l : List α} {s : State} (h : memWf s.hbm = true)
    (hf : ∀ u x, memWf u.hbm = true → memWf (f u x).hbm = true) : memWf (l.foldl f s).hbm = true := by
  induction l generalizing s with
  | nil => exact h
  | cons a l ih => exact ih (hf s a h)

@[simp] theorem hbm_survivors (s : State) : s.survivors.hbm = [] := rfl

@[simp] theorem hbm_packageReset (s : State) : s.packageReset.hbm = [] := by
  simp [State.packageReset]

@[simp] theorem hbm_vinReset (s : State) : s.vinReset.hbm = [] := by
  simp [State.vinReset]

@[simp] theorem foldl_report_hbm {α : Type} (k : Nat) (u d : α → Nat) (l : List α) (s : State) :
    (l.foldl (fun s x => State.report s k (u x) (d x)) s).hbm = s.hbm := foldl_hbm _ _ _ fun _ _ => rfl

section
variable {s : State} (h : memWf s.hbm = true)
include h

@[simp] theorem memWf_deferCal (l : Nat) (retrain : Bool) (op : Nat) (force : Bool) : memWf (s.deferCal l retrain op force).hbm = true := by
  unfold State.deferCal
  split
  · next hj =>
    have hk := State.joinDeferred_getD_hbm s l op force s rfl
    rw [hj] at hk
    simp_all
  · split <;> simp [h]

@[simp] theorem memWf_portCalAsk (p : Nat) (retrain : Bool) (op : Nat) (force : Bool) : memWf (s.portCalAsk p retrain op force).hbm = true := by
  unfold State.portCalAsk
  dsimp only
  (repeat' split) <;> simp [h, memWf_opsRunning]

@[simp] theorem memWf_startDrained (d : Nat) : memWf (s.startDrained d).hbm = true := by
  unfold State.startDrained
  exact foldl_memWf h fun u y hu => by dsimp only; (repeat' split) <;> simp [hu, memWf_opsRunning]

@[simp] theorem memWf_calStart (l : Nat) (retrain : Bool) (ops : List Nat) : memWf (s.calStart l retrain ops).hbm = true := by
  unfold State.calStart
  dsimp only
  (repeat' split) <;> simp [h, memWf_opsRunning]

@[simp] theorem memWf_calAsk (l : Nat) (retrain : Bool) (op : Nat) (force : Bool) : memWf (s.calAsk l retrain op force).hbm = true := by
  unfold State.calAsk
  dsimp only
  (repeat' split) <;> simp [h]

@[simp] theorem memWf_deferredStart (l : Nat) : memWf (s.deferredStart l).hbm = true := by
  unfold State.deferredStart
  dsimp only
  (repeat' split) <;> simp [h, memWf_opsRunning]

@[simp] theorem memWf_act (kind cls unit detail : Nat) : memWf (s.act kind cls unit detail).hbm = true := by
  unfold State.act
  dsimp only
  (repeat' split) <;> simp [h, foldl_hbm]

@[simp] theorem memWf_record (kind ut unit detail at_ : Nat) (rule : Option Nat) (inj : Bool) :
    memWf (s.record kind ut unit detail at_ rule inj).hbm = true := by
  unfold State.record
  extract_lets _ before
  split
  extract_lets r g1 g2 s1 s2
  have hact : memWf s1.hbm = true := memWf_act (s := { s with gleaner := g2 }) h _ _ _ _
  have hs2 : memWf s2.hbm = true := by
    change memWf (State.thermFollow _).hbm = true
    split <;> simp [hact]
  split
  · exact hs2
  · simp [hs2]

@[simp] theorem memWf_judgeLane (n k bit : Nat) (warn act : Bool) : memWf (s.judgeLane n k bit warn act).hbm = true := by
  unfold State.judgeLane
  dsimp only
  (repeat' split) <;> simp [h]

@[simp] theorem memWf_laneFigure (n k bit : Nat) (warn act : Bool) (f : Lane → Lane) : memWf (s.laneFigure n k bit warn act f).hbm = true := by
  unfold State.laneFigure
  dsimp only
  (repeat' split) <;> simp [h]

@[simp] theorem memWf_ringRelock (r : Nat) : memWf (s.ringRelock r).hbm = true := by
  unfold State.ringRelock
  split
  · exact h
  · split <;> simp [h]

@[simp] theorem memWf_judgeRing (r res : Nat) : memWf (s.judgeRing r res).hbm = true := by
  unfold State.judgeRing
  dsimp only
  (repeat' split) <;> simp [h]

@[simp] theorem memWf_calProcedure (c : Cmd) (cores : List Nat) (n : Nat) : memWf (s.calProcedure c cores n).hbm = true := by
  unfold State.calProcedure
  dsimp only
  (repeat' split) <;> simp [h]

@[simp] theorem memWf_performLoad (p : Pkt) (e : List HbmErr) : memWf (s.performLoad p e).hbm = true := by
  unfold State.performLoad
  dsimp only
  (repeat' split) <;> simp [h, memWf_hbmErrors]

@[simp] theorem memWf_performStore (p : Pkt) (e : List HbmErr) : memWf (s.performStore p e).hbm = true := by
  unfold State.performStore
  dsimp only
  (repeat' split) <;> simp [h, memWf_hbmErrors, memWf_hbmStore]

@[simp] theorem memWf_performAtomic (p : Pkt) (e : List HbmErr) : memWf (s.performAtomic p e).hbm = true := by
  unfold State.performAtomic
  dsimp only
  (repeat' split) <;> simp [h, memWf_hbmErrors, memWf_hbmStore]

@[simp] theorem memWf_performCopyWrite (p : Pkt) (e : List HbmErr) : memWf (s.performCopyWrite p e).hbm = true := by
  unfold State.performCopyWrite
  dsimp only
  (repeat' split) <;> simp [h, memWf_hbmErrors, memWf_hbmStore]

@[simp] theorem memWf_performPull (p : Pkt) (e : List HbmErr) : memWf (s.performPull p e).hbm = true := by
  unfold State.performPull
  dsimp only
  (repeat' split) <;> simp [h, memWf_hbmErrors]

@[simp] theorem memWf_performMessage (p : Pkt) : memWf (s.performMessage p).hbm = true := by
  unfold State.performMessage
  dsimp only
  (repeat' split) <;> simp [h]

/-- A berth row keeps HBM canonical where its own work does. -/
theorem canonical_serve {b k opcode need : Nat} {berths : Nat → Bool} {f : Cmd → State → Rep × State}
    (hf : ∀ c, memWf (f c s).2.hbm = true) : Out.Canonical (serve b k opcode berths need f s) := by
  unfold serve
  split
  · exact (Out.canonical_next s).2 h
  · dsimp only
    (repeat' split) <;> simp [h, hf]

theorem memWf_newOp {c : Cmd} {total n : Nat} {w : List Nat} {t : State} (ht : s.newOp c total w = .inr (n, t)) : memWf t.hbm = true := by
  obtain ⟨-, -, -, hbm⟩ := State.newOp_keep ht
  rw [hbm]; exact h

section
variable {c : Cmd} {f : Nat → State → State} (hf : ∀ n u, memWf u.hbm = true → memWf (f n u).hbm = true)
include hf

@[simp] theorem memWf_runOp {total : Nat} {w : List Nat} : memWf (s.runOp c total w f).2.hbm = true := by
  unfold State.runOp
  split
  · exact h
  · next hn => exact hf _ _ (memWf_opState (memWf_newOp h hn) _ _ _)

@[simp] theorem memWf_quickOp : memWf (s.quickOp c f).2.hbm = true :=
  memWf_runOp h fun n u hu => by simp [hf n u hu]

@[simp] theorem memWf_barnOp {b : Nat} {units : List Nat} : memWf (s.barnOp c b units f).2.hbm = true := memWf_runOp h hf
end

end

end Sys2Proof.Machine
end

section
/-! PROOFS. Thread instructions keep HBM canonical: a body changes its core, and what it asks of HBM leaves as a packet (spec/04 R100 to R104). -/
namespace Sys2Proof.Machine

@[simp] theorem IssueA.put_hbm (i : IssueA) (s : State) (f : Thread → Thread) : (i.put s f).hbm = s.hbm := rfl
@[simp] theorem IssueA.setD_hbm (i : IssueA) (s : State) (v : BitVec 64) : (i.setD s v).hbm = s.hbm := rfl

section
variable {s : State} (h : memWf s.hbm = true)
include h

/-- An instruction leaves HBM canonical where its body does. -/
theorem canonical_issue {x : Site} {body : State → Body} (hb : (body s).Canonical) : Out.Canonical (issue x body s) := by
  unfold issue
  dsimp only
  generalize body s = r at hb
  (repeat' split) <;> simp_all

theorem canonical_issueV {i : IssueV} {op fn : Nat} {u : VUse} {vbReg ok : Bool} {body : State → Body} (hb : (body s).Canonical) :
    Out.Canonical (issueV i op fn u vbReg ok body s) := by
  refine canonical_issue h ?_
  split
  · exact hb
  · trivial
  · trivial

omit h in
theorem canonical_privileged (i : IssueA) (op fn : Nat) {body : State → Body} (hb : (body s).Canonical) :
    (privileged i op fn body s).Canonical := by
  unfold privileged
  split
  · trivial
  · exact hb

/-! Integer, predicate and vector arithmetic. -/

theorem canonical_alu {i : IssueA} {fn : Nat} {f : BitVec 64 → BitVec 64 → BitVec 64} : Out.Canonical (i.alu fn f s) := canonical_issue h h
theorem canonical_alu1 {i : IssueA} {fn : Nat} {f : BitVec 64 → BitVec 64} : Out.Canonical (i.alu1 fn f s) := canonical_issue h h
theorem canonical_aluI {i : IssueI} {op : Nat} {ok : Bool} {f : BitVec 64 → BitVec 64 → BitVec 64} : Out.Canonical (i.alu op ok f s) :=
  canonical_issue h h
theorem canonical_pred {i : IssueA} {fn : Nat} {f : Bool → Bool → Bool} : Out.Canonical (i.pred fn f s) := canonical_issue h h

theorem canonical_arith {i : IssueV} {fn : Nat} {u : VUse} {typeOk : Nat → Bool} {round : Bool}
    {ff : RMode → FVal → FVal → FVal → FVal × FFlags} {fi : Nat → Int → Int → Int → Int} :
    Out.Canonical (arith i fn u typeOk round ff fi s) := by
  refine canonical_issueV h ?_
  dsimp only
  (repeat' split) <;> simp [h]

theorem canonical_bitwise {i : IssueV} {fn : Nat} {f : Nat → Nat → Nat → Nat} : Out.Canonical (bitwise i fn f s) :=
  canonical_issueV h (by simp [h])

theorem canonical_vext (i : IssueV) : Out.Canonical (execVext i s) := by
  refine canonical_issueV h ?_
  split
  · dsimp only; split <;> simp [h]
  · trivial

/-! Accesses: to the core's own store, and to the span as requests. -/

theorem canonical_spanRead (c t : Nat) (who : Waiter) (op a : Nat) (payload : List Byte) : (spanRead s c t who op a payload).Canonical := by
  unfold spanRead
  split
  · trivial
  · split
    all_goals next hreq => obtain rfl := pair_snd hreq; simp [h]

theorem canonical_spanStore (c t a : Nat) (bytes : List Byte) : (spanStore s c t a bytes).Canonical := by
  unfold spanStore
  dsimp only
  (repeat' split) <;> simp [h]

theorem canonical_lds (i : IssueM) : Out.Canonical (execLds i s) := by
  refine canonical_issue h ?_
  dsimp only
  split
  · trivial
  · exact canonical_spanRead h _ _ _ _ _ _

theorem canonical_sts (i : IssueM) : Out.Canonical (execSts i s) := by
  refine canonical_issue h ?_
  dsimp only
  split
  · trivial
  · exact canonical_spanStore h _ _ _ _

theorem canonical_fence {i : IssueA} {fn : Nat} {all : Bool} : Out.Canonical (fence i fn all s) := by
  refine canonical_issue h ?_
  (repeat' split) <;> simp [h]

theorem canonical_atoms (i : IssueA) (fn : BitVec 7) : Out.Canonical (execAtoms i fn s) := by
  refine canonical_issue h ?_
  dsimp only
  split
  · trivial
  · exact canonical_spanRead h _ _ _ _ _ _

theorem canonical_vlds (i : IssueV) : Out.Canonical (execVlds i s) := by
  refine canonical_issueV h ?_
  dsimp only
  split
  · trivial
  · exact canonical_spanRead h _ _ _ _ _ _

theorem canonical_vsts (i : IssueV) : Out.Canonical (execVsts i s) := by
  refine canonical_issueV h ?_
  dsimp only
  split
  · trivial
  · exact canonical_spanStore h _ _ _ _

theorem canonical_mbpoll (i : IssueA) : Out.Canonical (execMbpoll i s) := canonical_issue h (by simp [h])

/-! Phases, counters, reductions, barriers, markers, the vector pool and thread control. -/

theorem canonical_ctrAdd {i : IssueA} {fn : Nat} {credit : Bool} : Out.Canonical (ctrAdd i fn credit s) := by
  refine canonical_issue h ?_
  dsimp only
  (repeat' split) <;> simp [h]

theorem canonical_ctrRead {i : IssueA} {fn : Nat} {credit : Bool} : Out.Canonical (ctrRead i fn credit s) := by
  refine canonical_issue h ?_
  dsimp only
  (repeat' split) <;> simp [h]

theorem canonical_ctrWait {i : IssueA} {fn : Nat} {credit take : Bool} : Out.Canonical (ctrWait i fn credit take s) := by
  refine canonical_issue h ?_
  dsimp only
  (repeat' split) <;> simp [h]

theorem canonical_tkill (i : IssueA) : Out.Canonical (execTkill i s) := by
  refine canonical_issue h (canonical_privileged i _ _ ?_)
  dsimp only
  split <;> simp [h]

theorem canonical_trestart (i : IssueA) : Out.Canonical (execTrestart i s) := by
  refine canonical_issue h (canonical_privileged i _ _ ?_)
  dsimp only
  (repeat' split) <;> simp [h]

theorem canonical_tfwait (i : IssueA) : Out.Canonical (execTfwait i s) := by
  refine canonical_issue h (canonical_privileged i _ _ ?_)
  dsimp only
  split <;> simp [h]

theorem canonical_srdt (i : IssueA) (fn : BitVec 7) : Out.Canonical (execSrdt i fn s) := by
  refine canonical_issue h (canonical_privileged i _ _ ?_)
  dsimp only
  split <;> simp [h]
end

end Sys2Proof.Machine
end

section
/-! PROOFS. Every event keeps HBM canonical (log 8). -/
namespace Sys2Proof.Machine

section
variable {s : State} (h : memWf s.hbm = true)
include h

/-! Copies, reductions, requests at their targets and completions, the mesh (spec/03, spec/06, spec/10). -/

theorem memWf_submit {p : Pkt} {e : Bool} {ps : List Pkt} {t : State} (ht : s.submit p e = .inr (ps, t)) : memWf t.hbm = true := by
  obtain ⟨-, -, -, hbm⟩ := State.submit_keep ht
  rw [hbm]; exact h

theorem canonical_copySegmentSend (g : ClusterId) (k : Fin 256) (e : ReadErr) : Out.Canonical (execCopySegmentSend g k e s) := by
  unfold execCopySegmentSend
  extract_lets gw trk put
  split
  · simp [h]
  next t ht =>
    split
    · next src dst len t' slot hnext hslot =>
      extract_lets d tag fail home
      have hfail : ∀ u st, memWf u.hbm = true → Out.Canonical (fail u st) := fun u st hu => by simp [fail, put, hu]
      split
      · exact hfail _ _ h
      · split
        · simp [h]
        · split
          next st s1 hrange =>
            have hs1 : memWf s1.hbm = true := by
              obtain rfl := pair_snd hrange
              split <;> simp [h]
            split
            · exact hfail _ _ hs1
            · split
              next ok s2 hread =>
                have hs2 : memWf s2.hbm = true := by
                  obtain rfl := pair_snd hread
                  split <;> simp [hs1, memWf_readCheck]
                split
                · exact hfail _ _ hs2
                · extract_lets p
                  split
                  · split
                    · simp [hs2]
                    · exact hfail _ _ (by simp [hs2])
                  next ps s3 hsub =>
                    have hs3 : memWf s3.hbm = true := memWf_submit hs2 hsub
                    extract_lets x s4
                    have hs4 : memWf s4.hbm = true := by
                      dsimp only [s4]
                      split <;> simp [hs3]
                    simp [put, hs4]
    · simp [h]
    · simp [h]

/-- A request at its target: what performs it keeps HBM canonical, and so does its answer where it is not performed. -/
theorem memWf_chaffTake (p : Pkt) (bad : Bool) {f : State → State} (hf : ∀ u, memWf u.hbm = true → memWf (f u).hbm = true) :
    memWf (s.chaffTake p bad f).hbm = true := by
  unfold State.chaffTake
  split
  · split <;> simp [hf, h]
  · extract_lets q w0 ahead late s1 w e
    have hlate : ∀ u, (late u).hbm = u.hbm := by intro u; simp [late]
    have hs1 : s1.hbm = s.hbm := by dsimp only [s1]; split <;> simp
    clear_value late w e s1
    split
    · simp [hlate, h]
    · (repeat' split) <;> simp +zetaDelta [hf, hs1, hlate, h]

theorem memWf_arrive (p : Pkt) {f : State → State} (hf : ∀ u, memWf u.hbm = true → memWf (f u).hbm = true) :
    memWf (s.arrive p f).hbm = true := by
  unfold State.arrive
  dsimp only
  split
  · exact h
  · split
    · simp [h]
    · split
      · exact memWf_chaffTake (by simp [h]) _ _ hf
      · split
        · simp [h]
        · exact hf _ (by simp [h])

theorem canonical_arrive (p : Pkt) {f : State → State} (hf : ∀ u, memWf u.hbm = true → memWf (f u).hbm = true) :
    Out.Canonical (.next (s.arrive p f)) := (Out.canonical_next _).2 (memWf_arrive h p hf)

theorem canonical_unpairTimeout (gateway : ClusterId) (pair : Fin 16) (member : Fin 16) (pseq : BitVec 14) :
    Out.Canonical (execUnpairTimeout gateway pair member pseq s) := by
  unfold execUnpairTimeout
  dsimp only
  (repeat' split) <;> simp [h]

theorem canonical_sheafWord (p : Pkt) : Out.Canonical (execSheafWord p s) := by
  unfold execSheafWord
  split <;> simp [h]

theorem canonical_sheafNodeFold (node : Nat) (ctx : CtxRef) (es : List Ecc) : Out.Canonical (execSheafNodeFold node ctx es s) := by
  unfold execSheafNodeFold
  split
  · simp [h]
  · extract_lets d nb ch
    split
    · simp [h]
    · split
      next ok s1 hcheck =>
        have hs1 : s1.hbm = s.hbm := by
          obtain rfl := pair_snd hcheck
          split <;> simp
        split
        · simp [hs1, h]
        · extract_lets k up blk els hdr hs bytes x1 word ws
          have hup : ∀ u st bs, Out.Canonical (up u st bs) := fun u st bs => by simp [up, hs1, h]
          split
          · split
            · simp [hs1, h]
            · exact hup _ _ _
          · split
            · split
              · split
                · split
                  next x2 s2 hfold =>
                    have hs2 : s2.hbm = s.hbm := by
                      obtain rfl := pair_snd hfold
                      rw [foldl_snd State.hbm _ _ _ fun y e => by simp]
                      simp [hs1]
                    simp [hs2, h]
                · simp [hs1, h]
              · split
                · simp [hs1, h]
                · exact hup _ _ _
            · split
              · split <;> simp [hs1, h]
              · split
                · simp [hs1, h]
                · exact hup _ _ _

theorem canonical_rootWritesComplete (node : Nat) (ctx : CtxRef) : Out.Canonical (execRootWritesComplete node ctx s) := by
  unfold execRootWritesComplete
  (repeat' split) <;> simp [h]

theorem canonical_sheafTimeout (node : Nat) (ctx : CtxRef) : Out.Canonical (execSheafTimeout node ctx s) := by
  unfold execSheafTimeout
  (repeat' split) <;> simp [h]

theorem canonical_sheafBusyResend (node : Nat) (ctx : CtxRef) : Out.Canonical (execSheafBusyResend node ctx s) := by
  unfold execSheafBusyResend
  dsimp only
  (repeat' split) <;> simp [h]

theorem canonical_sheafFormComplete (core : CoreId) (handle : Fin 16) (es : List Ecc) : Out.Canonical (execSheafFormComplete core handle es s) := by
  unfold execSheafFormComplete
  dsimp only
  (repeat' split) <;> simp [h]

theorem canonical_sheafFinishComplete (core : CoreId) (handle : Fin 16) (es : List Ecc) :
    Out.Canonical (execSheafFinishComplete core handle es s) := by
  unfold execSheafFinishComplete
  dsimp only
  (repeat' split) <;> simp [h]

theorem canonical_qcfgWrite (queue : QueueId) (barn : BarnId) (v : BitVec 64) : Out.Canonical (execQcfgWrite queue barn v s) := by
  unfold execQcfgWrite
  split <;> simp [h]

theorem canonical_qheadWrite (queue : QueueId) (barn : BarnId) (v : BitVec 64) : Out.Canonical (execQheadWrite queue barn v s) := by
  unfold execQheadWrite
  split <;> simp [h]

theorem canonical_steer {core : CoreId} {set : Fin 256} {stage : Bool} {tally : BitVec 16} {en : Bool} :
    Out.Canonical (steerRow core set stage tally en s) := by
  unfold steerRow
  dsimp only
  split <;> simp [h]

theorem canonical_inboundDelivery (core : CoreId) (es : List Ecc) : Out.Canonical (execInboundDelivery core es s) := by
  unfold execInboundDelivery
  dsimp only
  (repeat' split) <;> simp [h]

theorem canonical_dynamicBeatForward (core : CoreId) (link : Fin 6) (src : Fin 6) (e : Ecc) :
    Out.Canonical (execDynamicBeatForward core link src e s) := by
  unfold execDynamicBeatForward
  dsimp only
  (repeat' split) <;> simp [h]

theorem canonical_orderedStoreIssue (gateway : ClusterId) (core : CoreId) (tag : BitVec 12) :
    Out.Canonical (execOrderedStoreIssue gateway core tag s) := by
  unfold execOrderedStoreIssue
  dsimp only
  (repeat' split) <;> simp [h]

theorem canonical_loadCpl (p : Pkt) : Out.Canonical (execLoadCpl p s) := by simp [execLoadCpl, h]

theorem canonical_storeCpl (p : Pkt) : Out.Canonical (execStoreCpl p s) := by simp [execStoreCpl, h]

theorem canonical_atomicCpl (p : Pkt) : Out.Canonical (execAtomicCpl p s) := by simp [execAtomicCpl, h]

/-! Windows, congestion and the upkeep of HBM (spec/09, spec/10). -/

theorem canonical_windowAdmit (dest : Fin 32768) (cls : Bool) : Out.Canonical (execWindowAdmit dest cls s) := by
  unfold execWindowAdmit
  dsimp only
  (repeat' split) <;> simp [h]

theorem canonical_wupdate (p : Pkt) : Out.Canonical (execWupdate p s) := by
  unfold execWupdate
  split <;> simp [h]

theorem canonical_windowIdleGiveback (dest : Fin 32768) (cls : Bool) : Out.Canonical (execWindowIdleGiveback dest cls s) := by
  unfold execWindowIdleGiveback
  dsimp only
  split <;> simp [h]

theorem canonical_wreq (p : Pkt) : Out.Canonical (execWreq p s) := by
  unfold execWreq
  dsimp only
  (repeat' split) <;> simp [h]

theorem canonical_windowGrant : Out.Canonical (execWindowGrant s) := by
  unfold execWindowGrant
  dsimp only
  (repeat' split) <;> simp [h]

theorem canonical_wupdateSend (src : Fin 32768) (cls : Bool) : Out.Canonical (execWupdateSend src cls s) := by
  unfold execWupdateSend
  dsimp only
  split <;> simp [h]

theorem canonical_wseqGapSkip (src : Fin 32768) (cls : Bool) : Out.Canonical (execWseqGapSkip src cls s) := by
  unfold execWseqGapSkip
  dsimp only
  (repeat' split) <;> simp [h]

theorem canonical_wgive (p : Pkt) : Out.Canonical (execWgive p s) := by
  unfold execWgive
  dsimp only
  (repeat' split) <;> simp [h]

theorem canonical_advice (p : Pkt) : Out.Canonical (execAdvice p s) := by
  unfold execAdvice
  split <;> simp [h]

theorem canonical_congestionSample : Out.Canonical (execCongestionSample s) := by simp [execCongestionSample, foldl_hbm, h]

theorem canonical_harvestReq (p : Pkt) : Out.Canonical (execHarvestReq p s) := by
  unfold execHarvestReq
  split <;> simp [h]

theorem canonical_readAheadFetch (g : Fin 1073741824) (k : Fin 256) (e : HbmErr) : Out.Canonical (execReadAheadFetch g k e s) := by
  unfold execReadAheadFetch
  dsimp only
  (repeat' split) <;> simp [h, memWf_hbmError]

theorem canonical_patrolRead (line : Nat) (e : HbmErr) : Out.Canonical (execPatrolRead line e s) := by
  unfold execPatrolRead
  split <;> simp [h, memWf_hbmError]

theorem canonical_rowRepairComplete (granule : GranuleId) (detail : BitVec 32) (spare : Bool) :
    Out.Canonical (execRowRepairComplete granule detail spare s) := by
  unfold execRowRepairComplete
  dsimp only
  (repeat' split) <;> simp [h]

theorem canonical_granuleScrubComplete (g : GranuleId) : Out.Canonical (execGranuleScrubComplete g s) :=
  fun t ht => memWf_granuleScrubComplete s t g h ht

theorem canonical_hbmChannelRetrainStart (die : DieId) (channel : Fin 32) : Out.Canonical (execHbmChannelRetrainStart die channel s) := by
  unfold execHbmChannelRetrainStart
  dsimp only
  split <;> simp [h]

theorem canonical_hbmChannelRetrainComplete (die : DieId) (channel : Fin 32) (good : Bool) :
    Out.Canonical (execHbmChannelRetrainComplete die channel good s) := by
  unfold execHbmChannelRetrainComplete
  dsimp only
  (repeat' split) <;> simp [foldl_hbm, h]

/-! Long operations and the edge ports (spec/11, spec/13). -/

theorem canonical_operationEnd (op : Nat) : Out.Canonical (execOperationEnd op s) := by
  unfold execOperationEnd
  (repeat' split) <;> simp [h]

theorem canonical_opStatusPeriodic (op : Nat) : Out.Canonical (execOpStatusPeriodic op s) := by
  unfold execOpStatusPeriodic
  split <;> simp [h]

theorem canonical_portLoss (port : PortId) : Out.Canonical (execPortLoss port s) := by
  unfold execPortLoss
  split <;> simp [h]

theorem canonical_salvage (p : Pkt) : Out.Canonical (execSalvage p s) := by
  unfold execSalvage
  dsimp only
  (repeat' split) <;> simp [h]

theorem canonical_salvageTimeout (port : PortId) : Out.Canonical (execSalvageTimeout port s) := by
  unfold execSalvageTimeout
  dsimp only
  split <;> simp [foldl_hbm, h]

theorem canonical_edgeTxPick (port : PortId) : Out.Canonical (execEdgeTxPick port s) := by
  unfold execEdgeTxPick
  dsimp only
  (repeat' split) <;> simp [h]

theorem canonical_edgeFrameRx (port : PortId) (f : EdgeFrame) (errs : List (Fin 256 × Byte)) (tag : Fin 3) :
    Out.Canonical (execEdgeFrameRx port f errs tag s) := by
  unfold execEdgeFrameRx
  extract_lets p sc s0 s1 authOk s2 s3
  split
  · simp [h]
  · have hs1 : s1.hbm = s.hbm := by simp [s1, s0]
    split
    · simp [hs1, h]
    · split
      · simp [hs1, h]
      · split
        · simp [hs1, h]
        · have hs2 : s2.hbm = s.hbm := by
            dsimp only [s2]
            split <;> simp [hs1]
          (repeat' split) <;> simp [s3, hs2, h]

theorem canonical_edgeReplayTimeout (port : PortId) : Out.Canonical (execEdgeReplayTimeout port s) := by
  unfold execEdgeReplayTimeout
  dsimp only
  (repeat' split) <;> simp [h]

theorem canonical_probeBurst (port : PortId) : Out.Canonical (execProbeBurst port s) := by
  unfold execProbeBurst
  split <;> simp [h]

theorem canonical_partnerLightDetect (port : PortId) (power : BitVec 16) : Out.Canonical (execPartnerLightDetect port power s) := by
  unfold execPartnerLightDetect
  dsimp only
  split <;> simp [h]

theorem canonical_portLockAchieved (port : PortId) (mask : BitVec 16) : Out.Canonical (execPortLockAchieved port mask s) := by
  unfold execPortLockAchieved
  dsimp only
  (repeat' split) <;> simp [h]

theorem canonical_portDeskewDone (port : PortId) (cycles : BitVec 16) : Out.Canonical (execPortDeskewDone port cycles s) := by
  unfold execPortDeskewDone
  dsimp only
  split <;> simp [h]

theorem canonical_portEyeDone (port : PortId) : Out.Canonical (execPortEyeDone port s) := by
  unfold execPortEyeDone
  dsimp only
  split <;> simp [h]

theorem canonical_portWidthAgreed (port : PortId) (mask : BitVec 16) : Out.Canonical (execPortWidthAgreed port mask s) := by
  unfold execPortWidthAgreed
  dsimp only
  (repeat' split) <;> simp [h]

theorem canonical_rxLightLoss (port : PortId) (power : BitVec 16) : Out.Canonical (execRxLightLoss port power s) := by
  unfold execRxLightLoss
  split <;> simp [h]

theorem canonical_modulatedLightStop (port : PortId) : Out.Canonical (execModulatedLightStop port s) := by
  unfold execModulatedLightStop
  dsimp only
  split <;> simp [h]

theorem canonical_returnToProbe (port : PortId) : Out.Canonical (execReturnToProbe port s) := by
  unfold execReturnToProbe
  dsimp only
  (repeat' split) <;> simp [h]

theorem canonical_portUp (port : PortId) : Out.Canonical (execPortUp port s) := by
  unfold execPortUp
  dsimp only
  split <;> simp [h]

theorem canonical_maintEnd (port : PortId) (done : MaintDone) : Out.Canonical (execMaintEnd port done s) := by
  unfold execMaintEnd
  dsimp only
  (repeat' split) <;> simp [h]

theorem canonical_linkControlFrameRx (port : PortId) (seq : BitVec 12) (lc : LinkControl) (verified : Bool) :
    Out.Canonical (execLinkControlFrameRx port seq lc verified s) := by
  unfold execLinkControlFrameRx
  dsimp only
  (repeat' split) <;> simp [h]

theorem canonical_keyUpdateStart (port : PortId) : Out.Canonical (execKeyUpdateStart port s) := by
  unfold execKeyUpdateStart
  dsimp only
  split <;> simp [h]

theorem canonical_keyUpdateTimeout (port : PortId) : Out.Canonical (execKeyUpdateTimeout port s) := by
  unfold execKeyUpdateTimeout
  dsimp only
  split <;> simp [h]

/-! The photonic network and steering (spec/07). -/

theorem canonical_linkSubstitution (link : LinkId) : Out.Canonical (execLinkSubstitution link s) := by simp [execLinkSubstitution, h]

theorem canonical_linkFrameRx (link : LinkId) (f : LinkFrame) : Out.Canonical (execLinkFrameRx link f s) := by
  unfold execLinkFrameRx
  dsimp only
  (repeat' split) <;> simp [h]

theorem canonical_candidateSetChange (die peer : DieId) : Out.Canonical (execCandidateSetChange die peer s) := by
  unfold execCandidateSetChange
  dsimp only
  (repeat' split) <;> simp [h]

theorem canonical_deferredCalStart (link : Fin 584) : Out.Canonical (execDeferredCalStart link s) := by simp [execDeferredCalStart, h]

theorem canonical_linkSweepComplete (link : LinkId) (mask cycles : BitVec 16) (trims : List (BitVec 32 × Byte)) :
    Out.Canonical (execLinkSweepComplete link mask cycles trims s) := by simp [execLinkSweepComplete, h]

theorem canonical_linkRetrainComplete (link : LinkId) (mask cycles : BitVec 16) (trims : List (BitVec 32 × Byte)) :
    Out.Canonical (execLinkRetrainComplete link mask cycles trims s) := by simp [execLinkRetrainComplete, h]

theorem canonical_laneExclusion (link : Fin 584) (lane : Fin 16) : Out.Canonical (execLaneExclusion link lane s) := by simp [execLaneExclusion, h]

theorem canonical_widthChangeComplete (link : Fin 584) : Out.Canonical (execWidthChangeComplete link s) := by
  unfold execWidthChangeComplete
  dsimp only
  (repeat' split) <;> simp [h]

theorem canonical_laneRetrainComplete (link : Fin 584) (lane : Fin 16) : Out.Canonical (execLaneRetrainComplete link lane s) := by
  simp [execLaneRetrainComplete, h]

theorem canonical_lighthouseModuleFailure (m : ModuleId) (trims : List (BitVec 32 × Byte)) :
    Out.Canonical (execLighthouseModuleFailure m trims s) := by simp [execLighthouseModuleFailure, h]

theorem canonical_steerRequestStart (barn : BarnId) : Out.Canonical (execSteerRequestStart barn s) := by
  unfold execSteerRequestStart
  dsimp only
  (repeat' split) <;> simp [foldl_hbm, h]

theorem canonical_steerStageEnd (barn : BarnId) : Out.Canonical (execSteerStageEnd barn s) := by
  unfold execSteerStageEnd
  dsimp only
  (repeat' split) <;> simp [h]

theorem canonical_linkDrainComplete (link : LinkId) : Out.Canonical (execLinkDrainComplete link s) := by
  unfold execLinkDrainComplete
  dsimp only
  (repeat' split) <;> simp [h]

theorem canonical_steerEntryLive (link : LinkId) : Out.Canonical (execSteerEntryLive link s) := by
  unfold execSteerEntryLive
  dsimp only
  (repeat' split) <;> simp [h]

theorem canonical_steerCommitEnd (barn : BarnId) : Out.Canonical (execSteerCommitEnd barn s) := by
  unfold execSteerCommitEnd
  dsimp only
  (repeat' split) <;> simp [h]

/-! The sequencer, resets of cores and clusters, the gleaner and the governor (spec/05, spec/15, spec/18). -/

theorem canonical_phaseFire (core : CoreId) : Out.Canonical (execPhaseFire core s) := by
  unfold execPhaseFire
  dsimp only
  (repeat' split) <;> simp [h]

theorem canonical_gangFire (die : DieId) (line : Fin 32) : Out.Canonical (execGangFire die line s) := by
  unfold execGangFire
  dsimp only
  split <;> simp [foldl_hbm, h]

theorem canonical_gangLost (die : DieId) (line : Fin 32) : Out.Canonical (execGangLost die line s) := by
  unfold execGangLost
  dsimp only
  split <;> simp [foldl_hbm, h]

theorem canonical_phaseStep (core : CoreId) (sram : List (Fin 24 × Ecc)) (mesh : List (Fin 4 × Ecc)) :
    Out.Canonical (execPhaseStep core sram mesh s) := by
  unfold execPhaseStep
  extract_lets c k
  split
  · simp [h]
  · extract_lets d w e dirs due first xs rows
    clear_value d w e dirs due first xs rows
    split
    · simp [h]
    · split
      next okRows s1 hrows =>
        split
        next okBeats s2 hbeats =>
          have hs2 : s2.hbm = s.hbm := by
            obtain rfl := pair_snd hbeats
            obtain rfl := pair_snd hrows
            simp
          split
          · simp [hs2, h]
          · split
            · simp [hs2, h]
            · extract_lets k macd next
              split
              · simp [hs2, h]
              · clear_value macd
                split
                · simp [hs2, h]
                · extract_lets k2
                  split
                  extract_lets k3 r2 k4 s3 s4 s5
                  have hs3 : s3.hbm = s.hbm := by simp [s3, hs2]
                  have hs4 : s4.hbm = s.hbm := by
                    dsimp only [s4]
                    (repeat' split) <;> simp [hs3]
                  have hs5 : s5.hbm = s.hbm := by
                    dsimp only [s5]
                    split <;> simp [hs4]
                  split <;> simp [hs5, h]

theorem canonical_phaseEnd (core : CoreId) : Out.Canonical (execPhaseEnd core s) := by
  unfold execPhaseEnd
  dsimp only
  (repeat' split) <;> simp [h]

theorem canonical_holdCountApply (die : DieId) : Out.Canonical (execHoldCountApply die s) := by
  unfold execHoldCountApply
  (repeat' split) <;> simp [h]

theorem canonical_coreReset (core : CoreId) : Out.Canonical (execCoreReset core s) := by simp [execCoreReset, h]

theorem canonical_clusterReset (cluster : ClusterId) : Out.Canonical (execClusterReset cluster s) := by simp [execClusterReset, h]

theorem canonical_orphanTagTimeout (gateway : ClusterId) (who : Nat) (tag : BitVec 12) : Out.Canonical (execOrphanTagTimeout gateway who tag s) := by
  unfold execOrphanTagTimeout
  dsimp only
  split <;> simp [h]

theorem canonical_faultReport : Out.Canonical (execFaultReport s) := by
  unfold execFaultReport
  split <;> simp [h]

theorem canonical_countWindowEnd (kind : BitVec 16) (unit : Nat) : Out.Canonical (execCountWindowEnd kind unit s) := by
  unfold execCountWindowEnd
  dsimp only
  (repeat' split) <;> simp [h]

theorem canonical_faultAck (cls : Fin 4) : Out.Canonical (execFaultAck cls s) := by simp [execFaultAck, h]

theorem canonical_faultNPulseEnd : Out.Canonical (execFaultNPulseEnd s) := by
  unfold execFaultNPulseEnd
  dsimp only
  split <;> simp [h]

theorem canonical_faultNoticePost : Out.Canonical (execFaultNoticePost s) := by
  unfold execFaultNoticePost
  (repeat' split) <;> simp [h]

theorem canonical_rngHealthFailure : Out.Canonical (execRngHealthFailure s) := by
  unfold execRngHealthFailure
  split <;> simp [h]

theorem canonical_governorTick (die : DieId) : Out.Canonical (execGovernorTick die s) := by
  unfold execGovernorTick
  dsimp only
  (repeat' split) <;> simp [h]

/-! Light control, calibration, clocks and meters (spec/08, spec/16). -/

theorem canonical_sensorSample (sensor : SensorId) (temp : BitVec 16) : Out.Canonical (execSensorSample sensor temp s) := by
  unfold execSensorSample
  dsimp only
  (repeat' split) <;> simp [h]

theorem canonical_sensorResidualCheck (sensor : Fin 576) (residual : BitVec 16) : Out.Canonical (execSensorResidualCheck sensor residual s) := by
  unfold execSensorResidualCheck
  dsimp only
  split <;> simp [h]

theorem canonical_eyeWidthMeasure (link : Fin 584) (lane : Fin 16) (width : Fin 65) : Out.Canonical (execEyeWidthMeasure link lane width s) := by
  simp [execEyeWidthMeasure, h]

theorem canonical_eyeHeightMeasure (link : Fin 584) (lane : Fin 16) (height : BitVec 8) :
    Out.Canonical (execEyeHeightMeasure link lane height s) := by simp [execEyeHeightMeasure, h]

theorem canonical_berWindowEnd (link : Fin 584) (lane : Fin 16) (exp : BitVec 8) : Out.Canonical (execBerWindowEnd link lane exp s) := by
  simp [execBerWindowEnd, h]

theorem canonical_exclusionWindowEnd (link : Fin 584) (corrected : List (Fin 16 × Nat)) :
    Out.Canonical (execExclusionWindowEnd link corrected s) := by
  unfold execExclusionWindowEnd
  dsimp only
  (repeat' split) <;> simp [foldl_hbm, h]

theorem canonical_lockLoopUpdate (ring : Fin 212888) (residual : BitVec 16) (move : Fin 3) :
    Out.Canonical (execLockLoopUpdate ring residual move s) := by
  unfold execLockLoopUpdate
  dsimp only
  split <;> simp [h]

theorem canonical_ringRelockComplete (ring : Fin 17536) (offset : BitVec 12) : Out.Canonical (execRingRelockComplete ring offset s) := by
  unfold execRingRelockComplete
  dsimp only
  (repeat' split) <;> simp [h]

theorem canonical_zoneRetrimComplete (zone : Fin 64) (trims : List (BitVec 32 × Byte)) : Out.Canonical (execZoneRetrimComplete zone trims s) := by
  unfold execZoneRetrimComplete
  dsimp only
  (repeat' split) <;> simp [h]

theorem canonical_analogueRecheck (rcal : BitVec 32) (currentSense offsets : List Byte) :
    Out.Canonical (execAnalogueRecheck rcal currentSense offsets s) := by
  unfold execAnalogueRecheck
  dsimp only
  (repeat' split) <;> simp [h]

theorem canonical_handshake (l : Nat) : Out.Canonical (s.handshake l) := by
  unfold State.handshake
  split
  · simp [h]
  · split
    · split
      · split
        · exact canonical_steerEntryLive h _
        · simp [h]
      · simp [h]
    · simp [h]

theorem canonical_trainingFrameRx (link : Fin 584) (f : TrainFrame) : Out.Canonical (execTrainingFrameRx link f s) := by
  unfold execTrainingFrameRx
  dsimp only
  split
  · split
    · exact canonical_handshake h _
    · split <;> simp [h]
  · (repeat' split) <;> simp [h]

theorem canonical_coreBistComplete (op : Nat) (failed : List (Fin 16384)) : Out.Canonical (execCoreBistComplete op failed s) := by
  unfold execCoreBistComplete
  split
  · simp [h]
  · split
    · simp [h]
    · extract_lets s1
      have hs1 : s1.hbm = s.hbm := foldl_hbm _ _ _ fun u c => by dsimp only; (repeat' split) <;> simp
      simp [hs1, h]

theorem canonical_calCaptureComplete (op : Nat) : Out.Canonical (execCalCaptureComplete op s) := by
  unfold execCalCaptureComplete
  (repeat' split) <;> simp [h]

theorem canonical_timeExchPeriod : Out.Canonical (execTimeExchPeriod s) := by
  unfold execTimeExchPeriod
  dsimp only
  (repeat' split) <;> simp [h]

theorem canonical_timeExch (p : Pkt) (stamp : BitVec 64) (replayed : Bool) : Out.Canonical (execTimeExch p stamp replayed s) := by
  unfold execTimeExch
  dsimp only
  (repeat' split) <;> simp [h]

theorem canonical_refclkFault : Out.Canonical (execRefclkFault s) := by
  unfold execRefclkFault
  split <;> simp [h]

theorem canonical_meterBoundary : Out.Canonical (execMeterBoundary s) := by
  unfold execMeterBoundary
  dsimp only
  split <;> simp [foldl_hbm, h]

theorem canonical_almanacSet (v : BitVec 32) : Out.Canonical (execAlmanacSet v s) := by simp [execAlmanacSet, h]

theorem canonical_ppsEdge (sub : Fin 20) : Out.Canonical (execPpsEdge sub s) := by simp [execPpsEdge, h]

/-! The helm and its berths (spec/13). -/

theorem canonical_helmOutputMismatch : Out.Canonical (execHelmOutputMismatch s) := by
  unfold execHelmOutputMismatch
  split <;> simp [h]

theorem canonical_helmSelfCheckEnd (aBad bBad : Bool) : Out.Canonical (execHelmSelfCheckEnd aBad bBad s) := by
  unfold execHelmSelfCheckEnd
  dsimp only
  (repeat' split) <;> simp [h]

theorem canonical_helmReform (passed : Bool) : Out.Canonical (execHelmReform passed s) := by
  unfold execHelmReform
  dsimp only
  (repeat' split) <;> simp [h]

theorem canonical_fwUpdateSplit : Out.Canonical (execFwUpdateSplit s) := by
  unfold execFwUpdateSplit
  dsimp only
  (repeat' split) <;> simp [h]

theorem canonical_fwUpdateTakeover (verified : Bool) : Out.Canonical (execFwUpdateTakeover verified s) := by
  unfold execFwUpdateTakeover
  dsimp only
  (repeat' split) <;> simp [h]

theorem canonical_berthSlotClaim (berth : BerthId) (path : BerthPath) (off : Fin 4096) (bytes : List Byte) :
    Out.Canonical (execBerthSlotClaim berth path off bytes s) := by
  unfold execBerthSlotClaim
  split <;> simp [h]

theorem canonical_berthRing (berth : BerthId) (path : BerthPath) (v : BitVec 32) : Out.Canonical (execBerthRing berth path v s) := by
  unfold execBerthRing
  split <;> simp [h]

theorem canonical_berthTake (berth : BerthId) : Out.Canonical (execBerthTake berth s) := by
  unfold execBerthTake
  dsimp only
  (repeat' split) <;> simp [h]

theorem canonical_berthReply (berth : BerthId) (slot : Fin 7) : Out.Canonical (execBerthReply berth slot s) := by
  unfold execBerthReply
  dsimp only
  (repeat' split) <;> simp [h]

theorem canonical_berthReplyClear (berth : BerthId) (path : BerthPath) (v : BitVec 32) : Out.Canonical (execBerthReplyClear berth path v s) := by
  unfold execBerthReplyClear
  (repeat' split) <;> simp [h]

theorem canonical_helmBeatTick : Out.Canonical (execHelmBeatTick s) := by
  unfold execHelmBeatTick
  split
  · simp [h]
  · exact (Out.canonical_next _).2 (foldl_memWf h fun _ _ hu => hu)

theorem canonical_helmMsg (p : Pkt) : Out.Canonical (execHelmMsg p s) := by
  unfold execHelmMsg
  (repeat' split) <;> simp [h]

theorem canonical_sheafCtrl (p : Pkt) : Out.Canonical (execSheafCtrl p s) := by
  unfold execSheafCtrl
  (repeat' split) <;> simp [h]

theorem canonical_harvestData (p : Pkt) : Out.Canonical (execHarvestData p s) := by
  unfold execHarvestData
  dsimp only
  (repeat' split) <;> simp [h]

theorem canonical_pairChecksComplete (pair : Fin 16) (failA failB : Bool) (faulty : FaultyUnits) :
    Out.Canonical (execPairChecksComplete pair failA failB faulty s) := by
  unfold execPairChecksComplete
  dsimp only
  split <;> simp [h]

/-! Host accesses, bring-up and power (spec/14, spec/15). -/

theorem canonical_threadBankAccess (core : CoreId) (thread : ThreadId) (e : Ecc) : Out.Canonical (execThreadBankAccess core thread e s) := by
  unfold execThreadBankAccess
  dsimp only
  (repeat' split) <;> simp [h]

theorem canonical_phaseValidationComplete (op : Nat) : Out.Canonical (execPhaseValidationComplete op s) := by
  unfold execPhaseValidationComplete
  split
  · simp [h]
  · split
    · simp [h]
    · extract_lets first pass all s0 s1 bytes s2 s3
      have hs0 : s0.hbm = s.hbm := foldl_hbm _ _ _ fun u x => by simp
      have hs1 : s1.hbm = s0.hbm := foldl_hbm _ _ _ fun u c => by simp
      simp [s3, s2, hs1, hs0, h]

/-- A bring-up stage keeps HBM canonical where its work does. -/
theorem canonical_stageEnd {n : Nat} {f : State → State} (hf : memWf (f s).hbm = true) : Out.Canonical (stageEnd n f s) := by
  unfold stageEnd
  (repeat' split) <;> simp [hf, h]

theorem canonical_buGo (v : BitVec 32) : Out.Canonical (execBuGo v s) := by simp [execBuGo, h]

theorem canonical_buAccept (v : BitVec 32) : Out.Canonical (execBuAccept v s) := by simp [execBuAccept, h]

theorem canonical_buAbort (v : BitVec 32) : Out.Canonical (execBuAbort v s) := by simp [execBuAbort, h]

theorem canonical_standbyDomainSelfCheck (railBad refBad : Bool) (rcal : BitVec 32) (aBad bBad : Bool) :
    Out.Canonical (execStandbyDomainSelfCheck railBad refBad rcal aBad bBad s) := by
  refine canonical_stageEnd h ?_
  dsimp only
  (repeat' split) <;> simp [h]

theorem canonical_firmwareAuthentication (host : Option FwImage) : Out.Canonical (execFirmwareAuthentication host s) := by
  refine canonical_stageEnd h ?_
  dsimp only
  (repeat' split) <;> simp [h]

theorem canonical_vin48SoftStart (vinOk converterBad : Bool) (regulators : List ClusterId) :
    Out.Canonical (execVin48SoftStart vinOk converterBad regulators s) := by
  unfold execVin48SoftStart
  split
  · simp [h]
  · refine canonical_stageEnd h ?_
    dsimp only
    (repeat' split) <;> simp [h]

theorem canonical_clockDistribution (pllLost : Bool) (generators : List ClusterId) (crossings : List (DieId × Fin 192)) :
    Out.Canonical (execClockDistribution pllLost generators crossings s) := by
  refine canonical_stageEnd h ?_
  dsimp only
  (repeat' split) <;> simp [foldl_hbm, h]

theorem canonical_lightCalibration (fit : List (ModuleId × BitVec 128)) (opened : List (Fin 4)) (abandoned unlocked : Bool)
    (trims : List (BitVec 32 × Byte)) : Out.Canonical (execLightCalibration fit opened abandoned unlocked trims s) := by
  unfold execLightCalibration
  split
  · simp [h]
  · exact canonical_stageEnd h (by simp [h])

theorem canonical_calImageWaitTimeout : Out.Canonical (execCalImageWaitTimeout s) := by simp [execCalImageWaitTimeout, h]

theorem canonical_dieBringup (cores : List CoreId) (regulators : List ClusterId) (links : List (Fin 32768)) (fuseBad : List DieId) :
    Out.Canonical (execDieBringup cores regulators links fuseBad s) := by
  refine canonical_stageEnd h ?_
  dsimp only
  (repeat' split) <;> simp [foldl_hbm, h]

theorem canonical_hbmBringup (stackBad repairBad : Bool) (retired : List GranuleId) :
    Out.Canonical (execHbmBringup stackBad repairBad retired s) := by
  refine canonical_stageEnd h ?_
  dsimp only
  (repeat' split) <;> simp [foldl_hbm, h]

theorem canonical_inPackageLinkTraining (trained : List (LinkId × BitVec 16 × BitVec 16)) :
    Out.Canonical (execInPackageLinkTraining trained s) := by
  refine canonical_stageEnd h ?_
  dsimp only
  (repeat' split) <;> simp [foldl_hbm, h]

theorem canonical_edgeTrainingSighting : Out.Canonical (execEdgeTrainingSighting s) := by
  refine canonical_stageEnd h ?_
  dsimp only
  (repeat' split) <;> simp [h]

theorem canonical_ready : Out.Canonical (execReady s) := by
  refine canonical_stageEnd h ?_
  dsimp only
  (repeat' split) <;> simp [foldl_hbm, h]

theorem canonical_packageReset : Out.Canonical (execPackageReset s) := by
  unfold execPackageReset
  split <;> simp [h]

theorem canonical_perstAssert : Out.Canonical (execPerstAssert s) := by
  unfold execPerstAssert
  split <;> simp [h]

theorem canonical_perstRelease : Out.Canonical (execPerstRelease s) := by simp [execPerstRelease, h]

theorem canonical_vauxLoss : Out.Canonical (execVauxLoss s) := by
  unfold execVauxLoss
  split <;> simp [h]

theorem canonical_vauxPowerOn (vbat : Bool) : Out.Canonical (execVauxPowerOn vbat s) := by
  unfold execVauxPowerOn
  split <;> simp [h]

theorem canonical_strapSample (testmode sris : Bool) (i3cAddr : Fin 4) : Out.Canonical (execStrapSample testmode sris i3cAddr s) := by
  unfold execStrapSample
  split <;> simp [h]

theorem canonical_vbatLoss : Out.Canonical (execVbatLoss s) := by simp [execVbatLoss, h]

theorem canonical_vin48Loss : Out.Canonical (execVin48Loss s) := by
  unfold execVin48Loss
  (repeat' split) <;> simp [h]

theorem canonical_vin48DischargeEnd : Out.Canonical (execVin48DischargeEnd s) := by simp [execVin48DischargeEnd, h]

theorem canonical_interlockOpen (block : Fin 4) (trims : List (BitVec 32 × Byte)) : Out.Canonical (execInterlockOpen block trims s) := by
  unfold execInterlockOpen
  dsimp only
  split <;> simp [foldl_hbm, h]

theorem canonical_indDataRead (eight : Bool) : Out.Canonical (execIndDataRead eight s) := by
  unfold execIndDataRead
  split <;> simp [h]

theorem canonical_indDataWrite (v : BitVec 64) (eight : Bool) : Out.Canonical (execIndDataWrite v eight s) := by simp [execIndDataWrite, h]

theorem canonical_registerWrite (fn : FnId) (off : Fin 1048576) (bytes : List Byte) : Out.Canonical (execRegisterWrite fn off bytes s) := by
  unfold execRegisterWrite
  dsimp only
  (repeat' split) <;> simp [h]

theorem canonical_registerLowHalfRead (fn : FnId) (off : Fin 1048576) : Out.Canonical (execRegisterLowHalfRead fn off s) := by
  unfold execRegisterLowHalfRead
  dsimp only
  (repeat' split) <;> simp [h]

theorem canonical_apertureRead (fn : FnId) (off : Fin 268435456) (len : Fin 4097) : Out.Canonical (execApertureRead fn off len s) := by
  simp [execApertureRead, h]

theorem canonical_apertureWrite (fn : FnId) (off : Fin 268435456) (bytes : List Byte) : Out.Canonical (execApertureWrite fn off bytes s) := by
  simp [execApertureWrite, foldl_hbm, h]

theorem canonical_functionLevelReset (fn : FnId) : Out.Canonical (execFunctionLevelReset fn s) := by
  unfold execFunctionLevelReset
  split <;> simp [h]

theorem canonical_vfEnableChange (en : Bool) (num : Fin 256) : Out.Canonical (execVfEnableChange en num s) := by
  simp [execVfEnableChange, foldl_hbm, h]

theorem canonical_calRequest (berth : BerthId) (slot : Fin 7) : Out.Canonical (execCalRequest berth slot s) := by
  refine canonical_serve h fun c => ?_
  extract_lets p t range stage cores
  split
  · exact h
  · split
    · exact h
    · split
      · exact h
      · next hop => exact memWf_calProcedure (memWf_newOp h hop) _ _ _

theorem canonical_standbyTestComplete (op : Nat) (cores : List CoreId) (granules : List GranuleId) (links : List LinkId) (ports : List PortId)
    (modules : List ModuleId) : Out.Canonical (execStandbyTestComplete op cores granules links ports modules s) := by
  unfold execStandbyTestComplete
  split
  · simp [h]
  · simp [foldl_hbm]

theorem canonical_launchWaitEnd (core : CoreId) (thread : ThreadId) : Out.Canonical (execLaunchWaitEnd core thread s) := by
  unfold execLaunchWaitEnd
  dsimp only
  (repeat' split) <;> simp [h]

theorem canonical_tallyWaitMet (core : CoreId) (thread : ThreadId) : Out.Canonical (execTallyWaitMet core thread s) := by
  unfold execTallyWaitMet
  dsimp only
  (repeat' split) <;> simp [h]

theorem canonical_counterWaitMet (core : CoreId) (thread : ThreadId) : Out.Canonical (execCounterWaitMet core thread s) := by
  unfold execCounterWaitMet
  dsimp only
  (repeat' split) <;> simp [h]

theorem canonical_phaseWaitEnd (core : CoreId) (thread : ThreadId) : Out.Canonical (execPhaseWaitEnd core thread s) := by
  unfold execPhaseWaitEnd
  dsimp only
  (repeat' split) <;> simp [h]

theorem canonical_reductionWaitEnd (core : CoreId) (handle : Fin 16) : Out.Canonical (execReductionWaitEnd core handle s) := by
  unfold execReductionWaitEnd
  dsimp only
  (repeat' split) <;> simp [h]

theorem canonical_mailboxWaitMet (core : CoreId) (thread : ThreadId) : Out.Canonical (execMailboxWaitMet core thread s) := by
  unfold execMailboxWaitMet
  dsimp only
  (repeat' split) <;> simp [h]

theorem canonical_waituntilMet (core : CoreId) (thread : ThreadId) : Out.Canonical (execWaituntilMet core thread s) := by
  unfold execWaituntilMet
  dsimp only
  (repeat' split) <;> simp [h]

theorem canonical_faultWaitMet (core : CoreId) (thread : ThreadId) : Out.Canonical (execFaultWaitMet core thread s) := by
  unfold execFaultWaitMet
  dsimp only
  (repeat' split) <;> simp [h]

theorem canonical_fenceComplete (core : CoreId) (thread : ThreadId) : Out.Canonical (execFenceComplete core thread s) := by
  unfold execFenceComplete
  dsimp only
  (repeat' split) <;> simp [h]

theorem canonical_sramWriteBack (w : WriteBack) : Out.Canonical (execSramWriteBack w s) := by
  unfold execSramWriteBack
  dsimp only
  (repeat' split) <;> simp [h]

theorem canonical_vectorRegisterZeroed (core : CoreId) (reg : Fin 256) : Out.Canonical (execVectorRegisterZeroed core reg s) := by
  simp [execVectorRegisterZeroed, h]

theorem canonical_coreZeroingComplete (core : CoreId) (badRows : List (Fin 6144)) : Out.Canonical (execCoreZeroingComplete core badRows s) := by
  unfold execCoreZeroingComplete
  dsimp only
  split
  · simp [h]
  · simp [h]

end

end Sys2Proof.Machine
end

section
/-! PROOFS. Every step keeps HBM canonical (log 8; spec/10 R241). -/
namespace Sys2Proof.Machine

theorem canonical_shi {s : State} (h : memWf s.hbm = true) (i : IssueI) : Out.Canonical (execShi i s) := by
  unfold execShi
  exact canonical_aluI h

/-- Whatever comes next leaves HBM canonical: a thread instruction by what its body does, a berth row by its own work, an event by its lemma. -/
theorem canonical_exec {s : State} (h : memWf s.hbm = true) (c : Instr) : Out.Canonical (exec c s) := by
  cases c <;> dsimp only [exec]
  case add | sub | and | or | xor | shl | shr | sra | mul | mulhs | mulhu | div | divu | rem | remu | min | minu | max | maxu => exact canonical_alu h
  case clz | popc => exact canonical_alu1 h
  case addi | andi | ori | xori => exact canonical_aluI h
  case shi => exact canonical_shi h _
  case pand | por | pxor | pandn => exact canonical_pred h
  case vadd | vsub | vmul | vfma | vdiv | vsqrt | vmin | vmax => exact canonical_arith h
  case vand | vor | vxor | vshl | vshr => exact canonical_bitwise h
  case fenceS | fenceA => exact canonical_fence h
  case tkadd | ccadd => exact canonical_ctrAdd h
  case tkrd | ccrd => exact canonical_ctrRead h
  case tkwait | ccwait | tktake | cctake => exact canonical_ctrWait h
  case steerStage | steerCommit => exact canonical_steer h
  case movi | movhi | cmp | cmpi | ptog | gtop | br | brl | pclr | time | tstop | brk | srd | swr =>
    exact canonical_issue h (by simp [h])
  case jr | ldl | stl | stsb | synci | atoml | copy | shsubmit | twait | trd | tset | mbput | mbget | mbring | mbwait | plaunch | pwait | pstat |
      pcancel | shwait | shabort | shstat | barinit | barwait | waituntil | imarkS | imarkE | valloc | tstart =>
    refine canonical_issue h ?_
    dsimp only
    (repeat' split) <;> simp [h]
  case vfree =>
    refine canonical_issue h ?_
    split <;> simp [h]
  case vmxpack | vmxunpack | vbcast =>
    refine canonical_issueV h ?_
    split <;> simp [h]
  case vcvt | vldl | vstl =>
    refine canonical_issueV h ?_
    dsimp only
    (repeat' split) <;> simp [h]
  case nop | opStatus | opCancel | opForce | berthInfo | helmStatus | fwUpdate | fmDesignate | measureExtend | barnPeers | svnAdvance | peerMinSvn
      | pathsetDrop | calSave | standbyTest | floorplanRead | gleanerRead | gleanerAck | countConfig | thermalRead | faultInject =>
    refine canonical_serve h fun c => ?_
    (repeat' split) <;> simp [h]
  case certChain | keyImport | sighting =>
    refine canonical_serve h fun c => ?_
    (repeat' split) <;> simp +contextual [h]
  case attest | barnCreate | barnDestroy | barnClusters | granuleAssign | granuleRelease | queueAssign | barnLimits | barnReset | barnInfo |
      tagRead | tagWrite | release | thread0 | phaseLoad | pathsetLoad | courseLoad | planUpload | portRelease | harvest | pairLoad | pairStatus |
      twinSet | fabricConfig | moduleRelease | moduleAdmit | calRestore | countRead | timeConfig | meterConfig | meterRead =>
    refine canonical_serve h fun c => ?_
    dsimp only
    (repeat' split) <;> simp +contextual [foldl_hbm, h]
  case lds => exact canonical_lds h _
  case sts => exact canonical_sts h _
  case atoms => exact canonical_atoms h _ _
  case vlds => exact canonical_vlds h _
  case vsts => exact canonical_vsts h _
  case vext => exact canonical_vext h _
  case mbpoll => exact canonical_mbpoll h _
  case tkill => exact canonical_tkill h _
  case trestart => exact canonical_trestart h _
  case tfwait => exact canonical_tfwait h _
  case srdt => exact canonical_srdt h _ _
  case launchWaitEnd => exact canonical_launchWaitEnd h _ _
  case tallyWaitMet => exact canonical_tallyWaitMet h _ _
  case counterWaitMet => exact canonical_counterWaitMet h _ _
  case phaseWaitEnd => exact canonical_phaseWaitEnd h _ _
  case reductionWaitEnd => exact canonical_reductionWaitEnd h _ _
  case mailboxWaitMet => exact canonical_mailboxWaitMet h _ _
  case waituntilMet => exact canonical_waituntilMet h _ _
  case faultWaitMet => exact canonical_faultWaitMet h _ _
  case fenceComplete => exact canonical_fenceComplete h _ _
  case threadBankAccess => exact canonical_threadBankAccess h _ _ _
  case sramWriteBack => exact canonical_sramWriteBack h _
  case vectorRegisterZeroed => exact canonical_vectorRegisterZeroed h _ _
  case inboundDelivery => exact canonical_inboundDelivery h _ _
  case coreZeroingComplete => exact canonical_coreZeroingComplete h _ _
  case phaseFire => exact canonical_phaseFire h _
  case gangFire => exact canonical_gangFire h _ _
  case gangLost => exact canonical_gangLost h _ _
  case phaseStep => exact canonical_phaseStep h _ _ _
  case phaseEnd => exact canonical_phaseEnd h _
  case holdCountApply => exact canonical_holdCountApply h _
  case dynamicBeatForward => exact canonical_dynamicBeatForward h _ _ _ _
  case sheafWord => exact canonical_sheafWord h _
  case sheafNodeFold => exact canonical_sheafNodeFold h _ _ _
  case rootWritesComplete => exact canonical_rootWritesComplete h _ _
  case sheafCtrl => exact canonical_sheafCtrl h _
  case sheafTimeout => exact canonical_sheafTimeout h _ _
  case sheafBusyResend => exact canonical_sheafBusyResend h _ _
  case sheafFormComplete => exact canonical_sheafFormComplete h _ _ _
  case sheafFinishComplete => exact canonical_sheafFinishComplete h _ _ _
  case linkFrameRx => exact canonical_linkFrameRx h _ _
  case candidateSetChange => exact canonical_candidateSetChange h _ _
  case steerRequestStart => exact canonical_steerRequestStart h _
  case steerStageEnd => exact canonical_steerStageEnd h _
  case linkDrainComplete => exact canonical_linkDrainComplete h _
  case steerEntryLive => exact canonical_steerEntryLive h _
  case steerCommitEnd => exact canonical_steerCommitEnd h _
  case lighthouseModuleFailure => exact canonical_lighthouseModuleFailure h _ _
  case laneExclusion => exact canonical_laneExclusion h _ _
  case widthChangeComplete => exact canonical_widthChangeComplete h _
  case laneRetrainComplete => exact canonical_laneRetrainComplete h _ _
  case linkSubstitution => exact canonical_linkSubstitution h _
  case sensorSample => exact canonical_sensorSample h _ _
  case zoneRetrimComplete => exact canonical_zoneRetrimComplete h _ _
  case lockLoopUpdate => exact canonical_lockLoopUpdate h _ _ _
  case eyeWidthMeasure => exact canonical_eyeWidthMeasure h _ _ _
  case eyeHeightMeasure => exact canonical_eyeHeightMeasure h _ _ _
  case berWindowEnd => exact canonical_berWindowEnd h _ _ _
  case exclusionWindowEnd => exact canonical_exclusionWindowEnd h _ _
  case sensorResidualCheck => exact canonical_sensorResidualCheck h _ _
  case analogueRecheck => exact canonical_analogueRecheck h _ _ _
  case trainingFrameRx => exact canonical_trainingFrameRx h _ _
  case ringRelockComplete => exact canonical_ringRelockComplete h _ _
  case deferredCalStart => exact canonical_deferredCalStart h _
  case linkSweepComplete => exact canonical_linkSweepComplete h _ _ _ _
  case linkRetrainComplete => exact canonical_linkRetrainComplete h _ _ _ _
  case coreBistComplete => exact canonical_coreBistComplete h _ _
  case calCaptureComplete => exact canonical_calCaptureComplete h _
  case load => exact canonical_arrive h _ fun _ hu => memWf_performLoad hu _ _
  case store => exact canonical_arrive h _ fun _ hu => memWf_performStore hu _ _
  case counterStore => exact canonical_arrive h _ fun _ hu => by simp [hu]
  case atomic => exact canonical_arrive h _ fun _ hu => memWf_performAtomic hu _ _
  case loadCpl => exact canonical_loadCpl h _
  case storeCpl => exact canonical_storeCpl h _
  case atomicCpl => exact canonical_atomicCpl h _
  case message => exact canonical_arrive h _ fun _ hu => memWf_performMessage hu _
  case copyWrite => exact canonical_arrive h _ fun _ hu => memWf_performCopyWrite hu _ _
  case copyPull => exact canonical_arrive h _ fun _ hu => memWf_performPull hu _ _
  case wreq => exact canonical_wreq h _
  case wupdate => exact canonical_wupdate h _
  case wgive => exact canonical_wgive h _
  case salvage => exact canonical_salvage h _
  case advice => exact canonical_advice h _
  case timeExch => exact canonical_timeExch h _ _ _
  case harvestReq => exact canonical_harvestReq h _
  case harvestData => exact canonical_harvestData h _
  case helmMsg => exact canonical_helmMsg h _
  case unpairTimeout => exact canonical_unpairTimeout h _ _ _ _
  case pairChecksComplete => exact canonical_pairChecksComplete h _ _ _ _
  case edgeTxPick => exact canonical_edgeTxPick h _
  case windowAdmit => exact canonical_windowAdmit h _ _
  case windowGrant => exact canonical_windowGrant h
  case wupdateSend => exact canonical_wupdateSend h _ _
  case windowIdleGiveback => exact canonical_windowIdleGiveback h _ _
  case wseqGapSkip => exact canonical_wseqGapSkip h _ _
  case portLoss => exact canonical_portLoss h _
  case salvageTimeout => exact canonical_salvageTimeout h _
  case congestionSample => exact canonical_congestionSample h
  case orderedStoreIssue => exact canonical_orderedStoreIssue h _ _ _
  case copySegmentSend => exact canonical_copySegmentSend h _ _ _
  case readAheadFetch => exact canonical_readAheadFetch h _ _ _
  case patrolRead => exact canonical_patrolRead h _ _
  case rowRepairComplete => exact canonical_rowRepairComplete h _ _ _
  case granuleScrubComplete => exact canonical_granuleScrubComplete h _
  case hbmChannelRetrainStart => exact canonical_hbmChannelRetrainStart h _ _
  case hbmChannelRetrainComplete => exact canonical_hbmChannelRetrainComplete h _ _ _
  case qcfgWrite => exact canonical_qcfgWrite h _ _ _
  case qheadWrite => exact canonical_qheadWrite h _ _ _
  case edgeFrameRx => exact canonical_edgeFrameRx h _ _ _ _
  case edgeReplayTimeout => exact canonical_edgeReplayTimeout h _
  case linkControlFrameRx => exact canonical_linkControlFrameRx h _ _ _ _
  case portLockAchieved => exact canonical_portLockAchieved h _ _
  case portDeskewDone => exact canonical_portDeskewDone h _ _
  case portEyeDone => exact canonical_portEyeDone h _
  case portWidthAgreed => exact canonical_portWidthAgreed h _ _
  case portUp => exact canonical_portUp h _
  case maintEnd => exact canonical_maintEnd h _ _
  case probeBurst => exact canonical_probeBurst h _
  case partnerLightDetect => exact canonical_partnerLightDetect h _ _
  case rxLightLoss => exact canonical_rxLightLoss h _ _
  case modulatedLightStop => exact canonical_modulatedLightStop h _
  case returnToProbe => exact canonical_returnToProbe h _
  case keyUpdateStart => exact canonical_keyUpdateStart h _
  case keyUpdateTimeout => exact canonical_keyUpdateTimeout h _
  case helmOutputMismatch => exact canonical_helmOutputMismatch h
  case helmSelfCheckEnd => exact canonical_helmSelfCheckEnd h _ _
  case helmReform => exact canonical_helmReform h _
  case fwUpdateTakeover => exact canonical_fwUpdateTakeover h _
  case berthSlotClaim => exact canonical_berthSlotClaim h _ _ _ _
  case berthRing => exact canonical_berthRing h _ _ _
  case berthTake => exact canonical_berthTake h _
  case berthReply => exact canonical_berthReply h _ _
  case berthReplyClear => exact canonical_berthReplyClear h _ _ _
  case helmBeatTick => exact canonical_helmBeatTick h
  case opStatusPeriodic => exact canonical_opStatusPeriodic h _
  case operationEnd => exact canonical_operationEnd h _
  case phaseValidationComplete => exact canonical_phaseValidationComplete h _
  case calRequest => exact canonical_calRequest h _ _
  case standbyTestComplete => exact canonical_standbyTestComplete h _ _ _ _ _ _
  case registerWrite => exact canonical_registerWrite h _ _ _
  case registerLowHalfRead => exact canonical_registerLowHalfRead h _ _
  case apertureRead => exact canonical_apertureRead h _ _ _
  case apertureWrite => exact canonical_apertureWrite h _ _ _
  case functionLevelReset => exact canonical_functionLevelReset h _
  case buGo => exact canonical_buGo h _
  case buAccept => exact canonical_buAccept h _
  case buAbort => exact canonical_buAbort h _
  case standbyDomainSelfCheck => exact canonical_standbyDomainSelfCheck h _ _ _ _ _
  case firmwareAuthentication => exact canonical_firmwareAuthentication h _
  case vin48SoftStart => exact canonical_vin48SoftStart h _ _ _
  case clockDistribution => exact canonical_clockDistribution h _ _ _
  case lightCalibration => exact canonical_lightCalibration h _ _ _ _ _
  case calImageWaitTimeout => exact canonical_calImageWaitTimeout h
  case dieBringup => exact canonical_dieBringup h _ _ _ _
  case hbmBringup => exact canonical_hbmBringup h _ _ _
  case inPackageLinkTraining => exact canonical_inPackageLinkTraining h _
  case edgeTrainingSighting => exact canonical_edgeTrainingSighting h
  case ready => exact canonical_ready h
  case coreReset => exact canonical_coreReset h _
  case clusterReset => exact canonical_clusterReset h _
  case orphanTagTimeout => exact canonical_orphanTagTimeout h _ _ _
  case packageReset => exact canonical_packageReset h
  case perstAssert => exact canonical_perstAssert h
  case refclkFault => exact canonical_refclkFault h
  case ppsEdge => exact canonical_ppsEdge h _
  case timeExchPeriod => exact canonical_timeExchPeriod h
  case almanacSet => exact canonical_almanacSet h _
  case meterBoundary => exact canonical_meterBoundary h
  case indDataRead => exact canonical_indDataRead h _
  case indDataWrite => exact canonical_indDataWrite h _ _
  case faultAck => exact canonical_faultAck h _
  case faultNPulseEnd => exact canonical_faultNPulseEnd h
  case faultReport => exact canonical_faultReport h
  case countWindowEnd => exact canonical_countWindowEnd h _ _
  case faultNoticePost => exact canonical_faultNoticePost h
  case governorTick => exact canonical_governorTick h _
  case rngHealthFailure => exact canonical_rngHealthFailure h
  case vauxPowerOn => exact canonical_vauxPowerOn h _
  case strapSample => exact canonical_strapSample h _ _ _
  case vauxLoss => exact canonical_vauxLoss h
  case vin48Loss => exact canonical_vin48Loss h
  case vin48DischargeEnd => exact canonical_vin48DischargeEnd h
  case interlockOpen => exact canonical_interlockOpen h _ _
  case vbatLoss => exact canonical_vbatLoss h
  case perstRelease => exact canonical_perstRelease h
  case fwUpdateSplit => exact canonical_fwUpdateSplit h
  case vfEnableChange => exact canonical_vfEnableChange h _ _

/-- Settles O59: STEP is EXEC of the front event over the rest of the queue, and the clock's tick where none waits. -/
theorem hbmStaysCanonical : Obligations.HbmStaysCanonical := by
  unfold Obligations.HbmStaysCanonical
  intro s t h hstep
  unfold step at hstep
  split at hstep
  · cases hstep
    simpa using h
  · exact canonical_exec (by simpa using h) _ t hstep

end Sys2Proof.Machine
end

section
/-! PROOFS. Queues, scrubs, errors, repairs and retrains of HBM (spec/10 R259 to R262, R266 to R268; spec/15 R386). -/
namespace Sys2Proof.Machine

/-! Granules and channels read back. -/

@[simp] theorem State.granule_setGranule (s : State) (n : Nat) (x : Granule) (j : Nat) :
    (s.setGranule n x).granule j = if j = n then x else s.granule j := by simp [State.granule, State.setGranule]
@[simp] theorem State.granule_report (s : State) (k u d j : Nat) : (s.report k u d).granule j = s.granule j := rfl
@[simp] theorem State.channel_setChannel_same (s : State) (d c : Nat) (x : HbmChan) : (s.setChannel d c x).channel d c = x := by
  simp [State.channel, State.setChannel]
@[simp] theorem State.channel_report (s : State) (k u d e c : Nat) : (s.report k u d).channel e c = s.channel e c := rfl
@[simp] theorem State.granule_setChannel (s : State) (d c : Nat) (x : HbmChan) (j : Nat) : (s.setChannel d c x).granule j = s.granule j := rfl

/-! Queue registers (R259, R260). -/

theorem bitAt_zero_mod (v : Nat) : bitAt (v % 2 ^ 23) 0 = bitAt v 0 := by
  unfold bitAt
  rw [Nat.testBit_mod_two_pow]
  simp

theorem State.writeQcfg_disabled {s : State} {q : Nat} (b v : Nat) (hen : (s.queue q).en = false) (hv : bitAt v 0 = false) :
    s.writeQcfg b q v = s.setQueue q { s.queue q with cfg := v % 2 ^ 23 } := by
  have hbit : ¬ bitAt (v % 2 ^ 23) 0 = true := Bool.eq_false_iff.1 ((bitAt_zero_mod v).trans hv)
  unfold State.writeQcfg
  dsimp only
  rw [if_neg (by simp [hen]), if_neg (fun h => hbit h.1), if_neg (fun h => hbit h.1)]

theorem State.writeQcfg_enable {s : State} {q v : Nat} (b : Nat) (hen : (s.queue q).en = false) (hv : bitAt v 0 = true)
    (hsize : bitsAt (v % 2 ^ 23) 1 3 ≠ 7) (hentries : bitsAt (v % 2 ^ 23) 4 4 ≠ 15) :
    s.writeQcfg b q v = if s.qbaseOk b (v % 2 ^ 23) (s.queue q).base = true
      then s.setQueue q { s.queue q with cfg := v % 2 ^ 23 } else s := by
  have hbit : bitAt (v % 2 ^ 23) 0 = true := (bitAt_zero_mod v).trans hv
  unfold State.writeQcfg
  dsimp only
  rw [if_neg (by simp [hen]), if_neg (fun h => h.2.elim hsize hentries), hbit]
  cases s.qbaseOk b (v % 2 ^ 23) (s.queue q).base <;> rfl

section
variable {s : State} {q : QueueId} {b : BarnId} (v : BitVec 64)

theorem exec_qcfgWrite (h : s.queueBarn q.val = some b.val) : exec (.qcfgWrite q b v) s = .next (s.writeQcfg b.val q.val v.toNat) :=
  if_pos h
theorem exec_qheadWrite (h : s.queueBarn q.val = some b.val) :
    exec (.qheadWrite q b v) s = .next (s.setQueue q.val { s.queue q.val with head := v.toNat % 2 ^ 32 }) := if_pos h
theorem exec_queueWrite_otherBarn (h : s.queueBarn q.val ≠ some b.val) :
    exec (.qcfgWrite q b v) s = .next s ∧ exec (.qheadWrite q b v) s = .next s := ⟨if_neg h, if_neg h⟩
end

/-! Scrubs and the patrol (R262, R267). -/

/-- The first byte of a granule, as a local offset of HBM. -/
def granuleBase (g : Nat) : Nat := g / 64 * 2 ^ 36 + g % 64 * 2 ^ 30

/-- A scrubbed granule is its barn's, its bytes unlisted and its lines without poison. -/
def State.scrubbed (s : State) (g b : Nat) : State :=
  { s.setGranule g { s.granule g with st := .owned b } with
    hbm := memClear s.hbm (granuleBase g) (2 ^ 30)
    poison := s.poison.filter fun w => decide (64 * w < granuleBase g) || decide (2 ^ 30 + granuleBase g ≤ 64 * w) }

theorem exec_granuleScrubComplete {s : State} {g : GranuleId} {b : Nat} (hst : (s.granule g.val).st = .scrubbing b)
    (hw : s.hbmWaits (granuleBase g.val) (2 ^ 30) = false) : exec (.granuleScrubComplete g) s = .next (s.scrubbed g.val b) := by
  change execGranuleScrubComplete g s = _
  unfold execGranuleScrubComplete
  simp only [hst]
  exact if_neg (by rw [← granuleBase, hw]; exact Bool.false_ne_true)

theorem State.granule_scrubbed (s : State) (g b j : Nat) :
    (s.scrubbed g b).granule j = if j = g then { s.granule g with st := .owned b } else s.granule j :=
  s.granule_setGranule g { s.granule g with st := .owned b } j

theorem State.poison_scrubbed (s : State) (g b w : Nat) :
    (s.scrubbed g b).poison.contains w =
      (s.poison.contains w && !(decide (granuleBase g ≤ 64 * w) && decide (64 * w < granuleBase g + 2 ^ 30))) := by
  rw [Bool.eq_iff_iff]
  simp only [State.scrubbed, List.contains_iff_mem, List.mem_filter, Bool.and_eq_true, Bool.or_eq_true, Bool.not_eq_true', decide_eq_true_eq,
    Bool.and_eq_false_iff, decide_eq_false_iff_not, Nat.not_le, Nat.not_lt, Nat.add_comm (2 ^ 30)]

theorem exec_patrolRead {s : State} {line b : Nat} (e : HbmErr) (hl : line < 2 ^ 34) (hb : s.granuleBarn (granuleOf (64 * line)) = some b)
    (hp : s.poison.contains line = false) (hw : s.hbmWaits (64 * line) 64 = false) :
    exec (.patrolRead line e) s = .next (s.hbmError (64 * line) e).2 := by
  refine if_neg ?_
  rw [hb, hp, hw]
  simpa using hl

/-! Errors of a line (R266) and the rows that wait for a repair (R268). -/

theorem mem_insertSorted {x w : Nat} {l : List Nat} : w ∈ insertSorted x l ↔ w = x ∨ w ∈ l := by
  induction l with
  | nil => simp [insertSorted]
  | cons y l ih =>
    unfold insertSorted
    split
    · exact List.mem_cons
    · split
      · next hxy => subst hxy; simp
      · simp only [List.mem_cons, ih]
        exact or_left_comm

theorem State.hbmError_corrected {s : State} {l b : Nat} {e : HbmErr} {w : Fin 8} (hb : s.granuleBarn (granuleOf l) = some b)
    (he : hbmOutcome e = .corrected w) :
    s.hbmError l e = (true, (s.onMctr b fun m => { m with ce := (m.ce + 1) % 2 ^ 64 }).report 0x20 (granuleOf l) (hbmRowDetail l)) := by
  simp only [State.hbmError, he, hb]

/-- What an uncorrectable error counts and reports, and the row whose repair it asks for. -/
def State.lineLost (s : State) (l b : Nat) : State :=
  ((s.onMctr b fun m => { m with ue := (m.ue + 1) % 2 ^ 64 }).report 0x21 (granuleOf l) (hbmRowDetail l)).wantRepair (granuleOf l) (hbmRowDetail l)

theorem State.hbmError_uncorrectable {s : State} {l b : Nat} {e : HbmErr} (hb : s.granuleBarn (granuleOf l) = some b)
    (he : hbmOutcome e = .uncorrectable) :
    s.hbmError l e = (false, { s.lineLost l b with
      poison := insertSorted (l / 64) s.poison, hbm := memClear s.hbm (l / 64 * 64) 64 }) := by
  simp only [State.hbmError, he, hb]
  rfl

theorem State.rowWait_wantRepair (s : State) (g d : Nat) : (s.wantRepair g d).rowWait.contains (g, d) = true := by
  unfold State.wantRepair
  split
  · assumption
  · simp

theorem State.mctr_lineLost (s : State) (l b : Nat) : (s.lineLost l b).mctr b = { s.mctr b with ue := ((s.mctr b).ue + 1) % 2 ^ 64 } := by
  have hcounted : ((s.onMctr b fun m => { m with ue := (m.ue + 1) % 2 ^ 64 }).report 0x21 (granuleOf l) (hbmRowDetail l)).mctr b
    = { s.mctr b with ue := ((s.mctr b).ue + 1) % 2 ^ 64 } := (s.mctr_onMctr b (fun m => { m with ue := (m.ue + 1) % 2 ^ 64 }) b).trans (if_pos rfl)
  unfold State.lineLost State.wantRepair
  split <;> exact hcounted

/-! Repairs and retired granules (R268). -/

section
variable {s : State} {g : GranuleId} {d : BitVec 32}

theorem exec_rowRepairComplete (spare : Bool) (hrow : s.rowWait.contains (g.val, d.toNat) = true)
    (hch : (tget HbmChan.init s.channels (32 * (g.val / 64) + d.toNat % 32)).training = false) :
    exec (.rowRepairComplete g d spare) s =
      if spare = true then .next { s with rowWait := removeFirst (g.val, d.toNat) s.rowWait, repairs := s.repairs ++ [(g.val, d.toNat)] }
      else .next (State.retireGranule { s with rowWait := removeFirst (g.val, d.toNat) s.rowWait } g.val) := by
  refine if_neg ?_
  simp only [hrow, hch]
  decide
end

theorem State.granule_retireGranule (s : State) (g j : Nat) :
    (s.retireGranule g).granule j = if j = g then { s.granule g with retired := true } else s.granule j := by
  unfold State.retireGranule
  split
  · next h =>
    split
    · next hj => rw [hj, ← h]
    · rfl
  · simp

@[simp] theorem State.channel_retireGranule (s : State) (g d c : Nat) : (s.retireGranule g).channel d c = s.channel d c := by
  unfold State.retireGranule
  split <;> rfl

section
variable (f : Nat → Nat) (l : List Nat) (s : State)

theorem State.channel_retireGranules (d c : Nat) : (l.foldl (fun s g => s.retireGranule (f g)) s).channel d c = s.channel d c := by
  induction l generalizing s with
  | nil => rfl
  | cons a l ih => rw [List.foldl_cons, ih, State.channel_retireGranule]

/-- Granules retired one after another: each of them is retired, and no other field of any granule changes. -/
theorem State.granule_retireGranules (j : Nat) : (l.foldl (fun s g => s.retireGranule (f g)) s).granule j =
    { s.granule j with retired := (s.granule j).retired || (l.map f).contains j } := by
  induction l generalizing s with
  | nil => simp
  | cons a l ih =>
    rw [List.foldl_cons, ih, State.granule_retireGranule]
    by_cases hj : j = f a <;> simp [hj]
end

/-! Channels that retrain (R386). -/

section
variable {s : State} {d : DieId} {c : Fin 32}

theorem exec_hbmChannelRetrainStart (hin : (s.channel d.val c.val).outOfService = false)
    (hidle : ∀ k, k < 32 → (s.channel d.val k).training = false) :
    exec (.hbmChannelRetrainStart d c) s = .next (s.setChannel d.val c.val { s.channel d.val c.val with training := true }) := by
  refine if_neg ?_
  simpa [hin] using hidle

theorem exec_hbmChannelRetrainComplete_good (htr : (s.channel d.val c.val).training = true) :
    exec (.hbmChannelRetrainComplete d c true) s = .next (s.setChannel d.val c.val HbmChan.init) := by
  change execHbmChannelRetrainComplete d c true s = _
  simp [execHbmChannelRetrainComplete, htr]

theorem exec_hbmChannelRetrainComplete_retry (htr : (s.channel d.val c.val).training = true) (honce : (s.channel d.val c.val).failedOnce = false) :
    exec (.hbmChannelRetrainComplete d c false) s = .next (s.setChannel d.val c.val { s.channel d.val c.val with failedOnce := true }) := by
  change execHbmChannelRetrainComplete d c false s = _
  simp [execHbmChannelRetrainComplete, htr, honce]

theorem exec_hbmChannelRetrainComplete_twice (htr : (s.channel d.val c.val).training = true) (htwice : (s.channel d.val c.val).failedOnce = true) :
    exec (.hbmChannelRetrainComplete d c false) s = .next ((List.range 64).foldl (fun s g => s.retireGranule (64 * d.val + g))
      ((s.setChannel d.val c.val ⟨false, false, true⟩).report 0x23 d.val c.val)) := by
  change execHbmChannelRetrainComplete d c false s = _
  simp [execHbmChannelRetrainComplete, htr, htwice]
end

/-- Settles O28: each event by the lemma of its row; what a scrub, a lost line and a failed channel leave is read back field by field. -/
theorem hbmUpkeep : Obligations.HbmUpkeep := by
  unfold Obligations.HbmUpkeep
  refine ⟨?qcfgOff, ?qcfgOn, fun q b v s h => exec_qheadWrite v h, fun q b v s h => exec_queueWrite_otherBarn v h, ?scrub,
    fun line e s b hl hb hp hw => exec_patrolRead e hl hb hp hw, fun s l b e w hb he => State.hbmError_corrected hb he, ?lost, ?repair,
    fun s g h => if_neg (by simp [h]), fun d c s hin hidle => exec_hbmChannelRetrainStart hin hidle, ?retrain⟩
  case qcfgOff =>
    intro q b v s hq hen hv
    rw [exec_qcfgWrite v hq, State.writeQcfg_disabled b.val v.toNat hen hv]
  case qcfgOn =>
    intro q b v s hq hen hv hsize hentries
    rw [exec_qcfgWrite v hq, State.writeQcfg_enable b.val hen hv hsize hentries]
  case scrub =>
    intro g s b hst hw
    refine ⟨_, exec_granuleScrubComplete hst hw, ?_, memGet_memClear s.hbm _ _, s.poison_scrubbed g.val b, ?_, rfl⟩
    · rw [State.granule_scrubbed, if_pos rfl]
    · intro j hj
      rw [State.granule_scrubbed, if_neg hj]
  case lost =>
    intro s l b e hb he
    rw [State.hbmError_uncorrectable hb he]
    refine ⟨rfl, ?_, ?_, State.rowWait_wantRepair _ _ _, congrArg MemCtr.ue (s.mctr_lineLost l b), ?_, ?_⟩
    · simp [mem_insertSorted]
    · intro w hw
      simp [mem_insertSorted, hw]
    · intro w hlo hhi
      exact (memGet_memClear _ _ _ _).trans (if_pos ⟨hlo, hhi⟩)
    · intro w hout
      exact (memGet_memClear _ _ _ _).trans (if_neg (by omega))
  case repair =>
    intro g d s hrow hch
    exact ⟨exec_rowRepairComplete true hrow hch, exec_rowRepairComplete false hrow hch⟩
  case retrain =>
    intro d c s htr
    refine ⟨exec_hbmChannelRetrainComplete_good htr, exec_hbmChannelRetrainComplete_retry htr, fun htwice => ?_⟩
    refine ⟨_, exec_hbmChannelRetrainComplete_twice htr htwice, ?_, ?_, ?_⟩
    · simp [State.channel_retireGranules]
    · intro j hj
      simp [State.granule_retireGranules (64 * d.val + ·), hj]
    · intro j
      rw [State.granule_retireGranules (64 * d.val + ·)]
      rfl

end Sys2Proof.Machine
end

section
/-! PROOFS. The events at a gateway: ordered stores, copies and their ends, lines read ahead (spec/10 R249 to R257; spec/12 R303). -/
namespace Sys2Proof.Machine

/-- R249: a store that its path holds no longer is issued: it leaves the gateway's list and is marked sent at its core. -/
theorem exec_orderedStoreIssue {g : ClusterId} {c : CoreId} {tag : BitVec 12} {s : State} {o : OrdStore}
    (ho : (s.gw g.val).ordered.find? (fun o => decide (o.core = c.val) && decide (o.tag = tag.toNat)) = some o)
    (hheld : (s.core c.val).orderHeld o.pkt.dst o.tag = false) :
    exec (.orderedStoreIssue g c tag) s = .next (State.egress ((s.setGw g.val { s.gw g.val with
      ordered := removeFirst o (s.gw g.val).ordered }).onCore c.val fun k => k.markSent o.pkt.dst o.tag) o.pkt) := by
  change execOrderedStoreIssue g c tag s = _
  unfold execOrderedStoreIssue
  dsimp only
  rw [ho]
  exact if_neg (by simp [hheld])

theorem copyRanges_assigned {k src dst len : Nat} (hsrc : rangeAssigned src len = true) (hdst : k = 3 ∨ rangeAssigned dst len = true) :
    (!rangeAssigned src len || (true && k != 3 && !rangeAssigned dst len)) = false := by
  rcases hdst with h | h <;> simp [hsrc, h]

/-! Segments of a copy whose source is this package's (R252, R253). -/

section
variable {g : ClusterId} {k : Fin 256} {e : ReadErr} {s : State} {t t' : Tracker} {src dst len slot : Nat}
  (ht : tget none (s.gw g.val).trackers k.val = some t) (hnext : t.next (s.copyP t.desc) = some (src, dst, len, t'))
  (hslot : (List.range 15).find? (fun n => s.segTagFree g.val t (16 * k.val + n)) = some slot) (hhome : cdSrcPkg t.desc = s.selfNum)
  (hsrc : rangeAssigned src len = true) (hdst : cdKind t.desc = 3 ∨ rangeAssigned dst len = true) (hwait : s.hbmWaits src len = false)
include ht hnext hslot hhome hsrc hdst hwait

theorem exec_copySegmentSend {s2 s3 : State} {ps : List Pkt} (hrange : s.rangeCheck s.selfNum t.barn .load src len = (0, s))
    (hread : s.readCheck src len e = (true, s2))
    (hsub : s2.submit (s2.segPkt g.val k.val (16 * k.val + slot) t.barn t.desc src dst len (s2.sourceBytes t.barn src len)) true = .inr (ps, s3)) :
    exec (.copySegmentSend g k e) s = .next (
      let u := s3.served (gatewayEp s.selfNum g.val) k.val t.barn src len (decide (cdKind t.desc = 0))
      let p := s2.segPkt g.val k.val (16 * k.val + slot) t.barn t.desc src dst len (s2.sourceBytes t.barn src len)
      egressAll (u.setGw g.val { u.gw g.val with trackers := tset none (u.gw g.val).trackers k.val (some {
        t' with segs := t.segs ++ [⟨16 * k.val + slot, len, offUnits s2 ps, p.tc, segAwaits t.desc dst ps, 0⟩] }) }) ps) := by
  change execCopySegmentSend g k e s = _
  unfold execCopySegmentSend
  simp only [ht, hnext, hslot, copyRanges_assigned hsrc hdst, hhome, hwait, hrange, hread, hsub, decide_true, Bool.and_false, Bool.not_true, ne_eq,
    not_true, Bool.false_eq_true, if_false, if_true]

theorem exec_copySegmentSend_denied {st : Nat} (hst : st ≠ 0) (hrange : s.rangeCheck s.selfNum t.barn .load src len = (st, s)) :
    exec (.copySegmentSend g k e) s = .next (State.copyEnd (s.setGw g.val { s.gw g.val with
      trackers := tset none (s.gw g.val).trackers k.val (some { t' with status := if t.status = 0 then st else t.status }) }) g.val k.val) := by
  change execCopySegmentSend g k e s = _
  unfold execCopySegmentSend
  simp only [ht, hnext, hslot, copyRanges_assigned hsrc hdst, hhome, hwait, hrange, hst, decide_true, Bool.and_false, ne_eq, not_false_eq_true,
    Bool.false_eq_true, if_false, if_true]
end

/-! Lines read ahead of a linear copy (R257). -/

theorem State.hbmError_none (s : State) (l : Nat) : s.hbmError l [] = (true, s) := rfl

section
variable {g : Fin 1073741824} {k : Fin 256} {s : State} {r : ReadAhead} (hr : s.aheadOf g.val k.val = some r) (hlin : r.linear = true)
  (hpast : ∀ last, s.homeCopy g.val k.val = some last → 64 * (r.next + r.lines.length) ≤ last) (hlines : r.lines.length < 64)
  (hbytes : r.bytes < 16384)
include hr hlin hpast hlines hbytes

/-- A fetch that may start: its record stands, is linear, has room, and its line is not past the copy's last source byte. -/
theorem exec_readAheadFetch (e : HbmErr) :
    exec (.readAheadFetch g k e) s =
      if 2 ^ 34 ≤ r.next + r.lines.length ∨ s.granuleBarn (granuleOf (64 * (r.next + r.lines.length))) ≠ some r.barn
          ∨ s.poison.contains (r.next + r.lines.length) = true ∨ hbmLimit s.variant ≤ 64 * (r.next + r.lines.length) % 2 ^ 36 then
        .next (s.onMctr r.barn fun m => { m with raDropped := (m.raDropped + 1) % 2 ^ 64 })
      else if s.hbmWaits (64 * (r.next + r.lines.length)) 64 = true then .next s
      else if (s.hbmError (64 * (r.next + r.lines.length)) e).1 = true then
        .next (((s.hbmError (64 * (r.next + r.lines.length)) e).2.putAhead
          { r with bytes := r.bytes + 64, lines := r.lines ++ [r.next + r.lines.length] }).onMctr r.barn fun m =>
            { m with raBytes := (m.raBytes + 64) % 2 ^ 64 })
      else .next ((s.hbmError (64 * (r.next + r.lines.length)) e).2.onMctr r.barn fun m => { m with raDropped := (m.raDropped + 1) % 2 ^ 64 }) := by
  change execReadAheadFetch g k e s = _
  unfold execReadAheadFetch
  simp only [hr]
  refine (if_neg fun hstop => ?_).trans ?_
  · cases hlast : s.homeCopy g.val k.val with
    | none =>
      simp only [hlin, hlast, Bool.not_true, Bool.false_eq_true, false_or] at hstop
      omega
    | some last =>
      have hle := hpast last hlast
      simp only [hlin, hlast, Bool.not_true, Bool.false_eq_true, false_or, decide_eq_true_eq] at hstop
      omega
  · cases (s.hbmError (64 * (r.next + r.lines.length)) e).1 <;> rfl
end

/-! The end of a copy (R254 to R256), in its four steps. -/

/-- The tracker of a copy and its read-ahead record are given up. -/
def State.trackerFreed (s : State) (g k : Nat) : State :=
  { s.setGw g { s.gw g with trackers := tset none (s.gw g).trackers k none } with
    readAhead := s.readAhead.filter fun r => !r.of (gatewayEp s.selfNum g) k }
/-- The completion record of a copy is written, where its descriptor asks for one and its core runs. -/
def State.recordWritten (s : State) (t : Tracker) (st : Nat) : State :=
  if bitAt t.desc 30 then
    s.onCore t.core fun k => if k.power ≠ .running then k else k.sramWrite (cdStat t.desc) (leBytes 4 st ++ leBytes 4 t.done)
  else s
/-- The source tally of a copy counts it, where its descriptor names one. -/
def State.sourceTallied (s : State) (g : Nat) (t : Tracker) : State := if bitAt t.desc 31 then s.addTally g (bitsAt t.desc 32 10) 1 else s
/-- A copy that ends with an error is counted for its barn. -/
def State.copyErrCounted (s : State) (t : Tracker) (st : Nat) : State :=
  if st = 0 then s else s.onMctr t.barn fun m => { m with copyErr := (m.copyErr + 1) % 2 ^ 64 }

theorem State.copyOver_eq (s : State) (g k : Nat) (t : Tracker) (st : Nat) :
    s.copyOver g k t st = (((s.trackerFreed g k).recordWritten t st).sourceTallied g t).copyErrCounted t st := rfl

section
variable (s : State) (t : Tracker) (st g k : Nat)

theorem State.gw_trackerFreed : (s.trackerFreed g k).gw g = { s.gw g with trackers := tset none (s.gw g).trackers k none } :=
  (s.gw_setGw g { s.gw g with trackers := tset none (s.gw g).trackers k none } g).trans (if_pos rfl)

@[simp] theorem State.gw_recordWritten (j : Nat) : (s.recordWritten t st).gw j = s.gw j := by
  unfold State.recordWritten
  split <;> rfl
@[simp] theorem State.mctr_recordWritten (b : Nat) : (s.recordWritten t st).mctr b = s.mctr b := by
  unfold State.recordWritten
  split <;> rfl
theorem State.core_recordWritten (h : bitAt t.desc 30 = true) (hrun : (s.core t.core).power = .running) :
    (s.recordWritten t st).core t.core = (s.core t.core).sramWrite (cdStat t.desc) (leBytes 4 st ++ leBytes 4 t.done) := by
  simp [State.recordWritten, h, State.onCore, hrun]
theorem State.recordWritten_of_none (h : bitAt t.desc 30 = false) : s.recordWritten t st = s := if_neg (by simp [h])

@[simp] theorem State.core_sourceTallied (c : Nat) : (s.sourceTallied g t).core c = s.core c := by
  unfold State.sourceTallied
  split <;> rfl
@[simp] theorem State.mctr_sourceTallied (b : Nat) : (s.sourceTallied g t).mctr b = s.mctr b := by
  unfold State.sourceTallied
  split <;> rfl
@[simp] theorem State.trackers_sourceTallied : ((s.sourceTallied g t).gw g).trackers = (s.gw g).trackers := by
  unfold State.sourceTallied
  split <;> simp [State.addTally, State.setTally]

@[simp] theorem State.gw_copyErrCounted (j : Nat) : (s.copyErrCounted t st).gw j = s.gw j := by
  unfold State.copyErrCounted
  split <;> rfl
@[simp] theorem State.core_copyErrCounted (c : Nat) : (s.copyErrCounted t st).core c = s.core c := by
  unfold State.copyErrCounted
  split <;> rfl
theorem State.mctr_copyErrCounted (b : Nat) : (s.copyErrCounted t st).mctr b =
    if st ≠ 0 ∧ b = t.barn then { s.mctr b with copyErr := ((s.mctr b).copyErr + 1) % 2 ^ 64 } else s.mctr b := by
  unfold State.copyErrCounted
  by_cases hst : st = 0
  · simp [hst]
  · by_cases hb : b = t.barn <;> simp [hst, hb]

/-! What each part of the state keeps of a copy that is over. -/

theorem State.trackers_copyOver : ((s.copyOver g k t st).gw g).trackers = tset none (s.gw g).trackers k none := by
  simp [State.copyOver_eq, State.gw_trackerFreed]

theorem State.tally_copyOver (h : bitAt t.desc 31 = true) :
    (s.copyOver g k t st).tally g (bitsAt t.desc 32 10) = (s.tally g (bitsAt t.desc 32 10) + 1) % 2 ^ 32 := by
  have hkept : ((s.trackerFreed g k).recordWritten t st).tally g (bitsAt t.desc 32 10) = s.tally g (bitsAt t.desc 32 10) := by
    simp [State.tally, State.gw_trackerFreed]
  rw [← hkept, ← State.tally_addTally]
  simp [State.copyOver_eq, State.tally, State.sourceTallied, h]

theorem State.core_copyOver (c : Nat) : (s.copyOver g k t st).core c = ((s.trackerFreed g k).recordWritten t st).core c := by
  simp [State.copyOver_eq]

theorem State.mctr_copyOver (b : Nat) : (s.copyOver g k t st).mctr b =
    if st ≠ 0 ∧ b = t.barn then { s.mctr b with copyErr := ((s.mctr b).copyErr + 1) % 2 ^ 64 } else s.mctr b := by
  have hkept : (s.trackerFreed g k).mctr b = s.mctr b := rfl
  simp only [State.copyOver_eq, State.mctr_copyErrCounted, State.mctr_sourceTallied, State.mctr_recordWritten, hkept]
end

/-- A copy that is cut, has no segment outstanding and posts no counter is over with its status. -/
theorem State.copyEnd_cut {s : State} {g k : Nat} {t : Tracker} (ht : tget none (s.gw g).trackers k = some t) (hcut : t.cut = true)
    (hsegs : t.segs = []) (hctr : cdCtrEn t.desc = false) : s.copyEnd g k = s.copyOver g k t t.status := by
  unfold State.copyEnd
  simp [ht, hcut, hsegs, hctr]

/-- The last completion that a segment of a gateway's one tracker awaits: the segment leaves the tracker and returns its units (R255). -/
theorem State.segDone_last {s : State} {g src tag n : Nat} {t : Tracker} {x : Seg} (b st : Nat) (htr : (s.gw g).trackers = [(n, some t)])
    (hx : t.segs.find? (fun x => x.want.any fun a => a.is src tag) = some x) (hleft : dropAwait src tag x.want = []) :
    s.segDone g b src tag st = State.copyEnd (State.onFctr (s.setGw g { s.gw g with
      trackers := tset none (s.gw g).trackers n (some { t with
        segs := t.segs.filter fun y => decide (y.tag ≠ x.tag)
        done := if (if x.st = 0 then st else x.st) = 0 then t.done + x.bytes else t.done
        status := if t.status = 0 then (if x.st = 0 then st else x.st) else t.status }) }) t.barn fun f => f.subUse x.tc x.units) g n := by
  have hany : (t.segs.any fun x => x.want.any fun a => a.is src tag) = true :=
    List.any_eq_true.2 ⟨x, List.mem_of_find?_eq_some hx, List.find?_some (p := fun x : Seg => x.want.any fun a => a.is src tag) hx⟩
  unfold State.segDone
  simp only [htr, List.find?_cons, hany, hx, hleft, List.isEmpty_nil, Bool.not_true, Bool.false_eq_true, if_false]

/-- Settles O27: each event by the lemma of its row; a copy's end is read back field by field. -/
theorem gatewayEvents : Obligations.GatewayEvents := by
  unfold Obligations.GatewayEvents
  refine ⟨fun g c tag s o ho hheld => exec_orderedStoreIssue ho hheld, ?sent, ?denied, ?fetched, ?dropped, ?ended, ?segment⟩
  case sent =>
    intro g k e s s2 s3 t t' src dst len slot ps ht hnext hslot hhome hsrc hdst hwait hrange hread hsub
    exact exec_copySegmentSend ht hnext hslot hhome hsrc hdst hwait hrange hread hsub
  case denied =>
    intro g k e s t t' src dst len slot st ht hnext hslot hhome hsrc hdst hst hwait hrange
    exact exec_copySegmentSend_denied ht hnext hslot hhome hsrc hdst hwait hst hrange
  case fetched =>
    intro g k s r hr hlin hpast hlines hbytes hline hbarn hpoison hlimit hwait
    rw [exec_readAheadFetch hr hlin hpast hlines hbytes, if_neg, if_neg (by simp [hwait]), State.hbmError_none, if_pos rfl]
    rintro (h | h | h | h)
    · omega
    · exact h hbarn
    · exact Bool.false_ne_true (hpoison.symm.trans h)
    · omega
  case dropped =>
    intro g k e s r hr hlin hpast hlines hbytes hpoison
    rw [exec_readAheadFetch hr hlin hpast hlines hbytes, if_pos (.inr (.inr (.inl hpoison)))]
  case ended =>
    intro s g k t ht hcut hsegs hctr hrun
    rw [State.copyEnd_cut ht hcut hsegs hctr]
    refine ⟨?_, s.tally_copyOver t t.status g k, fun hrec => ?_, fun hrec a => ?_, s.mctr_copyOver t t.status g k⟩
    · rw [State.trackers_copyOver, tget_tset_self]
    · rw [State.core_copyOver, (s.trackerFreed g k).core_recordWritten t t.status hrec hrun]
      exact memRead_memWrite _ _ _
    · rw [State.core_copyOver, State.recordWritten_of_none _ _ _ hrec]
      rfl
  case segment =>
    intro s g b src tag st n t x htr hx hleft
    exact State.segDone_last b st htr hx hleft

end Sys2Proof.Machine
end

section
/-! PROOFS. What no command changes: the queue that the step has taken its command from (log 1), the variant and the fuses (R375), and of the
non-volatile stores all but what a firmware or calibration image, a revocation and an asset tag write (R412, R413, R432, R475). -/
namespace Sys2Proof.Machine

/-- The parts of the fuses and the non-volatile stores that no row but SVN_ADVANCE writes. -/
def NonVol.fixed (nv : NonVol) : NonVol :=
  { nv with revoked := 0, tags := [], tagWrites := [], fw0 := none, fw1 := none, cal0 := none, cal1 := none }
@[simp] theorem NonVol.fixed_revoked (nv : NonVol) (v : Nat) : NonVol.fixed { nv with revoked := v } = nv.fixed := rfl
@[simp] theorem NonVol.fixed_tags (nv : NonVol) (m : Mem) (w : Map Nat) : NonVol.fixed { nv with tags := m, tagWrites := w } = nv.fixed := rfl
@[simp] theorem NonVol.fixed_putFw (nv : NonVol) (boot : Nat) (i : FwImage) : (nv.putFw boot i).fixed = nv.fixed := by
  unfold NonVol.putFw
  extract_lets v slot
  split <;> rfl
@[simp] theorem NonVol.fixed_putCal (nv : NonVol) (i : CalImage) : (nv.putCal i).fixed = nv.fixed := by
  unfold NonVol.putCal
  extract_lets t
  split <;> rfl

/-- State `t` has the queue, the variant and the fixed stores of `s`. -/
@[simp] def State.Keeps (s t : State) : Prop := t.pending = s.pending ∧ t.variant = s.variant ∧ t.nv.fixed = s.nv.fixed
/-- An outcome is a next state that keeps them. -/
def Out.Keeps (s : State) (o : Out) : Prop := ∃ t, o = .next t ∧ s.Keeps t
@[simp] theorem Out.keeps_next (s t : State) : Out.Keeps s (.next t) ↔ s.Keeps t := by simp [Out.Keeps]
/-- The state that an instruction's body leaves keeps them. -/
def Body.Keeps (s : State) : Body → Prop
  | .done t => s.Keeps t
  | .jump t _ => s.Keeps t
  | .refused t _ _ => s.Keeps t
  | .raise _ _ => True
  | .notReady => True
@[simp] theorem Body.keeps_done (s t : State) : (Body.done t).Keeps s ↔ s.Keeps t := Iff.rfl
@[simp] theorem Body.keeps_jump (s t : State) (pc : Nat) : (Body.jump t pc).Keeps s ↔ s.Keeps t := Iff.rfl
@[simp] theorem Body.keeps_refused (s t : State) (st a : Nat) : (Body.refused t st a).Keeps s ↔ s.Keeps t := Iff.rfl
@[simp] theorem Body.keeps_raise (s : State) (code a : Nat) : (Body.raise code a).Keeps s := trivial
@[simp] theorem Body.keeps_notReady (s : State) : Body.notReady.Keeps s := trivial

/-- An instruction keeps them where its body does. -/
theorem keeps_issue {s : State} {x : Site} {body : State → Body} (hb : (body s).Keeps s) : Out.Keeps s (issue x body s) := by
  unfold issue
  dsimp only
  generalize body s = r at hb
  (repeat' split) <;> simp_all

theorem keeps_issueV {s : State} {i : IssueV} {op fn : Nat} {u : VUse} {vbReg ok : Bool} {body : State → Body} (hb : (body s).Keeps s) :
    Out.Keeps s (issueV i op fn u vbReg ok body s) := by
  refine keeps_issue ?_
  split
  · exact hb
  · trivial
  · trivial

theorem keeps_privileged {s : State} {i : IssueA} {op fn : Nat} {body : State → Body} (hb : (body s).Keeps s) :
    (privileged i op fn body s).Keeps s := by
  unfold privileged
  split
  · trivial
  · exact hb

/-- A berth row keeps them where its own work does. -/
theorem keeps_serve {s : State} {b k opcode need : Nat} {berths : Nat → Bool} {f : Cmd → State → Rep × State}
    (hf : ∀ c, s.Keeps (f c s).2) : Out.Keeps s (serve b k opcode berths need f s) := by
  unfold serve
  split
  · simp
  · next c _ =>
    obtain ⟨hp, hv, hn⟩ := hf c
    dsimp only
    (repeat' split) <;> simp [hp, hv, hn]

/-- A bring-up stage keeps them where its work does. -/
theorem keeps_stageEnd {s : State} {n : Nat} {f : State → State} (hf : s.Keeps (f s)) : Out.Keeps s (stageEnd n f s) := by
  obtain ⟨hp, hv, hn⟩ := hf
  unfold stageEnd
  (repeat' split) <;> simp [hp, hv, hn]

/-- A state with the queue, the variant and the stores of another keeps what that one keeps. -/
theorem State.Keeps.of_eq {s t : State} (hp : t.pending = s.pending) (hv : t.variant = s.variant) (hn : t.nv = s.nv) : s.Keeps t :=
  ⟨hp, hv, congrArg NonVol.fixed hn⟩

end Sys2Proof.Machine
end

section
/-! PROOFS. Shared operations and longer rows keep the queue, the variant and the fixed stores. -/
namespace Sys2Proof.Machine

/-- Reports of a list's units keep them. -/
@[simp] theorem foldl_report_keep {α : Type} (k : Nat) (u d : α → Nat) (l : List α) (s : State) :
    (l.foldl (fun s x => State.report s k (u x) (d x)) s).pending = s.pending
    ∧ (l.foldl (fun s x => State.report s k (u x) (d x)) s).variant = s.variant
    ∧ (l.foldl (fun s x => State.report s k (u x) (d x)) s).nv = s.nv :=
  ⟨foldl_pending _ _ _ fun _ _ => rfl, foldl_variant _ _ _ fun _ _ => rfl, foldl_nv _ _ _ fun _ _ => rfl⟩

@[simp] theorem State.record_pending (s : State) (kind ut unit detail at_ : Nat) (rule : Option Nat) (inj : Bool) :
    (s.record kind ut unit detail at_ rule inj).pending = s.pending := by
  simp only [State.record]
  split <;> split <;> simp

@[simp] theorem State.writeHalf_pending (s : State) (f off v : Nat) : (s.writeHalf f off v).pending = s.pending := by
  unfold State.writeHalf
  split
  · simp
  · split
    · next hput =>
      split at hput
      · simp [(State.wideReg_keep hput _).1]
      · simp at hput
    · simp

@[simp] theorem State.writeWide_pending (s : State) (f off v : Nat) : (s.writeWide f off v).pending = s.pending := by
  unfold State.writeWide
  split
  · next hput => simp [(State.wideReg_keep hput _).1]
  · split <;> simp

/-- A long command keeps them where its work does. -/
theorem keeps_runOp {s : State} {c : Cmd} {total : Nat} {work : List Nat} {f : Nat → State → State} (hf : ∀ n (u : State), u.Keeps (f n u)) :
    s.Keeps (s.runOp c total work f).2 := by
  unfold State.runOp
  split
  · simp
  · next n s1 hop =>
    obtain ⟨hp, hv, hn, -⟩ := State.newOp_keep hop
    obtain ⟨fp, fv, fn⟩ := hf n (s1.opState n 1 0)
    simp [fp, fv, fn, hp, hv, hn]

theorem keeps_quickOp {s : State} {c : Cmd} {f : Nat → State → State} (hf : ∀ n (u : State), u.Keeps (f n u)) : s.Keeps (s.quickOp c f).2 := by
  refine keeps_runOp fun n u => ?_
  obtain ⟨fp, fv, fn⟩ := hf n u
  simp [fp, fv, fn]

section
variable (s : State)

@[simp] theorem keeps_phaseStep (core : CoreId) (sram : List (Fin 24 × Ecc)) (mesh : List (Fin 4 × Ecc)) :
    Out.Keeps s (execPhaseStep core sram mesh s) := by
  unfold execPhaseStep
  extract_lets c k
  split
  · simp
  · extract_lets d w e dirs due first xs rows
    clear_value d w e dirs due first xs rows
    split
    · simp
    · split
      next okRows s1 hrows =>
        split
        next okBeats s2 hbeats =>
          obtain ⟨hp, hv, hn⟩ : s.Keeps s2 := by
            obtain rfl := pair_snd hbeats
            obtain rfl := pair_snd hrows
            simp
          split
          · simp [hp, hv, hn]
          · split
            · simp [hp, hv, hn]
            · extract_lets k macd next
              split
              · simp [hp, hv, hn]
              · clear_value macd
                split
                · simp [hp, hv, hn]
                · extract_lets k2
                  split
                  extract_lets k3 r2 k4 s3 s4 s5
                  obtain ⟨hp3, hv3, hn3⟩ : s.Keeps s3 := by simp [s3, hp, hv, hn]
                  obtain ⟨hp4, hv4, hn4⟩ : s.Keeps s4 := by
                    dsimp only [s4]
                    (repeat' split) <;> simp [hp3, hv3, hn3]
                  obtain ⟨hp5, hv5, hn5⟩ : s.Keeps s5 := by
                    dsimp only [s5]
                    split <;> simp [hp4, hv4, hn4]
                  split <;> simp [hp5, hv5, hn5]

@[simp] theorem keeps_sheafNodeFold (node : Nat) (ctx : CtxRef) (es : List Ecc) : Out.Keeps s (execSheafNodeFold node ctx es s) := by
  unfold execSheafNodeFold
  split
  · simp
  · extract_lets d nb ch
    split
    · simp
    · split
      next ok s1 hcheck =>
        obtain ⟨hp, hv, hn⟩ : s.Keeps s1 := by
          obtain rfl := pair_snd hcheck
          split <;> simp
        split
        · simp [hp, hv, hn]
        · extract_lets k up blk els hdr hs bytes x1 word ws
          have hup : ∀ u st bs, Out.Keeps s (up u st bs) := fun u st bs => by simp [up, hp, hv, hn]
          split
          · split
            · simp [hp, hv, hn]
            · exact hup _ _ _
          · split
            · split
              · split
                · split
                  next x2 s2 hfold =>
                    obtain ⟨hp2, hv2, hn2⟩ : s1.Keeps s2 := by
                      obtain rfl := pair_snd hfold
                      exact .of_eq (foldl_snd State.pending _ _ _ fun y e => by simp) (foldl_snd State.variant _ _ _ fun y e => by simp)
                        (foldl_snd State.nv _ _ _ fun y e => by simp)
                    simp [hp2, hv2, hn2, hp, hv, hn]
                · simp [hp, hv, hn]
              · split
                · simp [hp, hv, hn]
                · exact hup _ _ _
            · split
              · split <;> simp [hp, hv, hn]
              · split
                · simp [hp, hv, hn]
                · exact hup _ _ _

@[simp] theorem keeps_copySegmentSend (g : ClusterId) (k : Fin 256) (e : ReadErr) : Out.Keeps s (execCopySegmentSend g k e s) := by
  unfold execCopySegmentSend
  extract_lets gw trk put
  split
  · simp
  next t ht =>
    split
    · next src dst len t' slot hnext hslot =>
      extract_lets d tag fail home
      have hfail : ∀ u st, s.Keeps u → Out.Keeps s (fail u st) := by
        rintro u st ⟨hp, hv, hn⟩
        simp [fail, put, hp, hv, hn]
      split
      · exact hfail _ _ (by simp)
      · split
        · simp
        · split
          next st s1 hrange =>
            obtain ⟨hp, hv, hn⟩ : s.Keeps s1 := by
              obtain rfl := pair_snd hrange
              split <;> simp
            split
            · exact hfail _ _ (by simp [hp, hv, hn])
            · split
              next ok s2 hread =>
                obtain ⟨hp2, hv2, hn2⟩ : s.Keeps s2 := by
                  obtain rfl := pair_snd hread
                  split <;> simp [hp, hv, hn]
                split
                · exact hfail _ _ (by simp [hp2, hv2, hn2])
                · extract_lets p
                  split
                  · split
                    · simp [hp2, hv2, hn2]
                    · exact hfail _ _ (by simp [hp2, hv2, hn2])
                  next ps s3 hsub =>
                    obtain ⟨hp3, hv3, hn3, -⟩ := State.submit_keep hsub
                    extract_lets x s4
                    obtain ⟨hp4, hv4, hn4⟩ : s.Keeps s4 := by
                      dsimp only [s4]
                      split <;> simp [hp3, hv3, hn3, hp2, hv2, hn2]
                    simp [put, hp4, hv4, hn4]
    · simp
    · simp

@[simp] theorem keeps_edgeFrameRx (port : PortId) (f : EdgeFrame) (errs : List (Fin 256 × Byte)) (tag : Fin 3) :
    Out.Keeps s (execEdgeFrameRx port f errs tag s) := by
  unfold execEdgeFrameRx
  extract_lets p sc s0 s1 authOk s2 s3
  split
  · simp
  · obtain ⟨hp, hv, hn⟩ : s.Keeps s1 := by simp [s1, s0]
    split
    · simp [hp, hv, hn]
    · split
      · simp [hp, hv, hn]
      · split
        · simp [hp, hv, hn]
        · obtain ⟨hp2, hv2, hn2⟩ : s.Keeps s2 := by
            dsimp only [s2]
            split <;> simp [hp, hv, hn]
          (repeat' split) <;> simp [s3, hp2, hv2, hn2]

theorem keeps_handshake (l : Nat) : Out.Keeps s (s.handshake l) := by
  unfold State.handshake
  dsimp only [execSteerEntryLive]
  (repeat' split) <;> simp

@[simp] theorem keeps_trainingFrameRx (link : Fin 584) (f : TrainFrame) : Out.Keeps s (execTrainingFrameRx link f s) := by
  unfold execTrainingFrameRx
  dsimp only
  split
  · split
    · exact keeps_handshake s _
    · split <;> simp
  · (repeat' split) <;> simp

@[simp] theorem keeps_coreBistComplete (op : Nat) (failed : List (Fin 16384)) : Out.Keeps s (execCoreBistComplete op failed s) := by
  unfold execCoreBistComplete
  split
  · simp
  · split
    · simp
    · extract_lets s1
      have hp : s1.pending = s.pending := foldl_pending _ _ _ fun u c => by dsimp only; (repeat' split) <;> simp
      have hv : s1.variant = s.variant := foldl_variant _ _ _ fun u c => by dsimp only; (repeat' split) <;> simp
      have hn : s1.nv = s.nv := foldl_nv _ _ _ fun u c => by dsimp only; (repeat' split) <;> simp
      simp [hp, hv, hn]

@[simp] theorem keeps_helmBeatTick : Out.Keeps s (execHelmBeatTick s) := by
  unfold execHelmBeatTick
  split
  · simp
  · exact (Out.keeps_next _ _).2 (State.Keeps.of_eq (foldl_pending _ _ _ fun _ _ => rfl) (foldl_variant _ _ _ fun _ _ => rfl)
      (foldl_nv _ _ _ fun _ _ => rfl))

theorem keeps_calRequest (berth : BerthId) (slot : Fin 7) : Out.Keeps s (execCalRequest berth slot s) := by
  refine keeps_serve fun c => ?_
  extract_lets p t range stage cores
  split
  · simp
  · split
    · simp
    · split
      · simp
      · next hop =>
        obtain ⟨hp, hv, hn, -⟩ := State.newOp_keep hop
        simp [hp, hv, hn]

@[simp] theorem keeps_lightCalibration (fit : List (ModuleId × BitVec 128)) (opened : List (Fin 4)) (abandoned unlocked : Bool)
    (trims : List (BitVec 32 × Byte)) : Out.Keeps s (execLightCalibration fit opened abandoned unlocked trims s) := by
  unfold execLightCalibration
  split
  · simp
  · exact keeps_stageEnd (by simp)

@[simp] theorem keeps_vin48SoftStart (vinOk converterBad : Bool) (regulators : List ClusterId) :
    Out.Keeps s (execVin48SoftStart vinOk converterBad regulators s) := by
  unfold execVin48SoftStart
  split
  · simp
  · refine keeps_stageEnd ?_
    dsimp only
    (repeat' split) <;> simp

end

end Sys2Proof.Machine
end

section
/-! PROOFS. Every event keeps the queue, the variant and the fixed stores: by the shared operations that its branches name. -/
namespace Sys2Proof.Machine

section
variable {s : State}

/-! Waits, banks and cores (spec/03, spec/04). -/

@[simp] theorem keeps_launchWaitEnd {core thread} : Out.Keeps s (execLaunchWaitEnd core thread s) := by
  dsimp only [execLaunchWaitEnd]
  (repeat' split) <;> simp
@[simp] theorem keeps_tallyWaitMet {core thread} : Out.Keeps s (execTallyWaitMet core thread s) := by
  dsimp only [execTallyWaitMet]
  (repeat' split) <;> simp
@[simp] theorem keeps_counterWaitMet {core thread} : Out.Keeps s (execCounterWaitMet core thread s) := by
  dsimp only [execCounterWaitMet]
  (repeat' split) <;> simp
@[simp] theorem keeps_phaseWaitEnd {core thread} : Out.Keeps s (execPhaseWaitEnd core thread s) := by
  dsimp only [execPhaseWaitEnd]
  (repeat' split) <;> simp
@[simp] theorem keeps_reductionWaitEnd {core handle} : Out.Keeps s (execReductionWaitEnd core handle s) := by
  dsimp only [execReductionWaitEnd]
  (repeat' split) <;> simp
@[simp] theorem keeps_mailboxWaitMet {core thread} : Out.Keeps s (execMailboxWaitMet core thread s) := by
  dsimp only [execMailboxWaitMet]
  (repeat' split) <;> simp
@[simp] theorem keeps_waituntilMet {core thread} : Out.Keeps s (execWaituntilMet core thread s) := by
  dsimp only [execWaituntilMet]
  (repeat' split) <;> simp
@[simp] theorem keeps_faultWaitMet {core thread} : Out.Keeps s (execFaultWaitMet core thread s) := by
  dsimp only [execFaultWaitMet]
  (repeat' split) <;> simp
@[simp] theorem keeps_fenceComplete {core thread} : Out.Keeps s (execFenceComplete core thread s) := by
  dsimp only [execFenceComplete]
  (repeat' split) <;> simp
@[simp] theorem keeps_threadBankAccess {core thread e} : Out.Keeps s (execThreadBankAccess core thread e s) := by
  dsimp only [execThreadBankAccess]
  (repeat' split) <;> simp
@[simp] theorem keeps_sramWriteBack {w} : Out.Keeps s (execSramWriteBack w s) := by
  dsimp only [execSramWriteBack]
  (repeat' split) <;> simp
@[simp] theorem keeps_vectorRegisterZeroed {core reg} : Out.Keeps s (execVectorRegisterZeroed core reg s) := by simp [execVectorRegisterZeroed]
@[simp] theorem keeps_inboundDelivery {core es} : Out.Keeps s (execInboundDelivery core es s) := by
  dsimp only [execInboundDelivery]
  (repeat' split) <;> simp
@[simp] theorem keeps_coreZeroingComplete {core badRows} : Out.Keeps s (execCoreZeroingComplete core badRows s) := by
  dsimp only [execCoreZeroingComplete]
  (repeat' split) <;> simp

/-! The sequencer, the mesh and reductions (spec/05, spec/06). -/

@[simp] theorem keeps_phaseFire {core} : Out.Keeps s (execPhaseFire core s) := by
  dsimp only [execPhaseFire]
  (repeat' split) <;> simp
@[simp] theorem keeps_gangFire {die line} : Out.Keeps s (execGangFire die line s) := by
  dsimp only [execGangFire]
  (repeat' split) <;> simp [foldl_pending, foldl_variant, foldl_nv]
@[simp] theorem keeps_gangLost {die line} : Out.Keeps s (execGangLost die line s) := by
  dsimp only [execGangLost]
  (repeat' split) <;> simp [foldl_pending, foldl_variant, foldl_nv]
@[simp] theorem keeps_phaseEnd {core} : Out.Keeps s (execPhaseEnd core s) := by
  dsimp only [execPhaseEnd]
  (repeat' split) <;> simp
@[simp] theorem keeps_holdCountApply {die} : Out.Keeps s (execHoldCountApply die s) := by
  dsimp only [execHoldCountApply]
  (repeat' split) <;> simp
@[simp] theorem keeps_dynamicBeatForward {core link src e} : Out.Keeps s (execDynamicBeatForward core link src e s) := by
  dsimp only [execDynamicBeatForward]
  (repeat' split) <;> simp
@[simp] theorem keeps_sheafWord {p} : Out.Keeps s (execSheafWord p s) := by
  dsimp only [execSheafWord]
  (repeat' split) <;> simp
@[simp] theorem keeps_rootWritesComplete {node ctx} : Out.Keeps s (execRootWritesComplete node ctx s) := by
  dsimp only [execRootWritesComplete]
  (repeat' split) <;> simp
@[simp] theorem keeps_sheafCtrl {p} : Out.Keeps s (execSheafCtrl p s) := by
  dsimp only [execSheafCtrl]
  (repeat' split) <;> simp
@[simp] theorem keeps_sheafTimeout {node ctx} : Out.Keeps s (execSheafTimeout node ctx s) := by
  dsimp only [execSheafTimeout]
  (repeat' split) <;> simp
@[simp] theorem keeps_sheafBusyResend {node ctx} : Out.Keeps s (execSheafBusyResend node ctx s) := by
  dsimp only [execSheafBusyResend]
  (repeat' split) <;> simp
@[simp] theorem keeps_sheafFormComplete {core handle es} : Out.Keeps s (execSheafFormComplete core handle es s) := by
  dsimp only [execSheafFormComplete]
  (repeat' split) <;> simp
@[simp] theorem keeps_sheafFinishComplete {core handle es} : Out.Keeps s (execSheafFinishComplete core handle es s) := by
  dsimp only [execSheafFinishComplete]
  (repeat' split) <;> simp

/-! Links and steering (spec/07). -/

@[simp] theorem keeps_linkFrameRx {link f} : Out.Keeps s (execLinkFrameRx link f s) := by
  dsimp only [execLinkFrameRx]
  (repeat' split) <;> simp
@[simp] theorem keeps_candidateSetChange {die peer} : Out.Keeps s (execCandidateSetChange die peer s) := by
  dsimp only [execCandidateSetChange]
  (repeat' split) <;> simp
@[simp] theorem keeps_steerRow {core set stage tally en} : Out.Keeps s (steerRow core set stage tally en s) := by
  dsimp only [steerRow]
  (repeat' split) <;> simp
@[simp] theorem keeps_steerRequestStart {barn} : Out.Keeps s (execSteerRequestStart barn s) := by
  dsimp only [execSteerRequestStart]
  (repeat' split) <;> simp [foldl_pending, foldl_variant, foldl_nv]
@[simp] theorem keeps_steerStageEnd {barn} : Out.Keeps s (execSteerStageEnd barn s) := by
  dsimp only [execSteerStageEnd]
  (repeat' split) <;> simp
@[simp] theorem keeps_linkDrainComplete {link} : Out.Keeps s (execLinkDrainComplete link s) := by
  dsimp only [execLinkDrainComplete]
  (repeat' split) <;> simp
@[simp] theorem keeps_steerEntryLive {link} : Out.Keeps s (execSteerEntryLive link s) := by
  dsimp only [execSteerEntryLive]
  (repeat' split) <;> simp
@[simp] theorem keeps_steerCommitEnd {barn} : Out.Keeps s (execSteerCommitEnd barn s) := by
  dsimp only [execSteerCommitEnd]
  (repeat' split) <;> simp
@[simp] theorem keeps_lighthouseModuleFailure {m trims} : Out.Keeps s (execLighthouseModuleFailure m trims s) := by
  simp [execLighthouseModuleFailure]
@[simp] theorem keeps_laneExclusion {link lane} : Out.Keeps s (execLaneExclusion link lane s) := by simp [execLaneExclusion]
@[simp] theorem keeps_widthChangeComplete {link} : Out.Keeps s (execWidthChangeComplete link s) := by
  dsimp only [execWidthChangeComplete]
  (repeat' split) <;> simp
@[simp] theorem keeps_laneRetrainComplete {link lane} : Out.Keeps s (execLaneRetrainComplete link lane s) := by simp [execLaneRetrainComplete]
@[simp] theorem keeps_linkSubstitution {link} : Out.Keeps s (execLinkSubstitution link s) := by simp [execLinkSubstitution]

/-! Light control and calibration (spec/08). -/

@[simp] theorem keeps_sensorSample {sensor temp} : Out.Keeps s (execSensorSample sensor temp s) := by
  dsimp only [execSensorSample]
  (repeat' split) <;> simp
@[simp] theorem keeps_zoneRetrimComplete {zone trims} : Out.Keeps s (execZoneRetrimComplete zone trims s) := by
  dsimp only [execZoneRetrimComplete]
  (repeat' split) <;> simp
@[simp] theorem keeps_lockLoopUpdate {ring residual move} : Out.Keeps s (execLockLoopUpdate ring residual move s) := by
  dsimp only [execLockLoopUpdate]
  (repeat' split) <;> simp
@[simp] theorem keeps_eyeWidthMeasure {link lane width} : Out.Keeps s (execEyeWidthMeasure link lane width s) := by simp [execEyeWidthMeasure]
@[simp] theorem keeps_eyeHeightMeasure {link lane height} : Out.Keeps s (execEyeHeightMeasure link lane height s) := by simp [execEyeHeightMeasure]
@[simp] theorem keeps_berWindowEnd {link lane exp} : Out.Keeps s (execBerWindowEnd link lane exp s) := by simp [execBerWindowEnd]
@[simp] theorem keeps_exclusionWindowEnd {link corrected} : Out.Keeps s (execExclusionWindowEnd link corrected s) := by
  dsimp only [execExclusionWindowEnd]
  (repeat' split) <;> simp [foldl_pending, foldl_variant, foldl_nv]
@[simp] theorem keeps_sensorResidualCheck {sensor residual} : Out.Keeps s (execSensorResidualCheck sensor residual s) := by
  dsimp only [execSensorResidualCheck]
  (repeat' split) <;> simp
@[simp] theorem keeps_analogueRecheck {rcal currentSense offsets} : Out.Keeps s (execAnalogueRecheck rcal currentSense offsets s) := by
  dsimp only [execAnalogueRecheck]
  (repeat' split) <;> simp
@[simp] theorem keeps_ringRelockComplete {ring offset} : Out.Keeps s (execRingRelockComplete ring offset s) := by
  dsimp only [execRingRelockComplete]
  (repeat' split) <;> simp
@[simp] theorem keeps_deferredCalStart {link} : Out.Keeps s (execDeferredCalStart link s) := by simp [execDeferredCalStart]
@[simp] theorem keeps_linkSweepComplete {link mask cycles trims} : Out.Keeps s (execLinkSweepComplete link mask cycles trims s) := by
  simp [execLinkSweepComplete]
@[simp] theorem keeps_linkRetrainComplete {link mask cycles trims} : Out.Keeps s (execLinkRetrainComplete link mask cycles trims s) := by
  simp [execLinkRetrainComplete]
@[simp] theorem keeps_calCaptureComplete {op} : Out.Keeps s (execCalCaptureComplete op s) := by
  dsimp only [execCalCaptureComplete]
  (repeat' split) <;> simp

/-! Packets at their targets (spec/09, spec/10). -/

@[simp] theorem keeps_load {p e} : Out.Keeps s (execLoad p e s) := by simp [execLoad]
@[simp] theorem keeps_store {p e} : Out.Keeps s (execStore p e s) := by simp [execStore]
@[simp] theorem keeps_counterStore {p} : Out.Keeps s (execCounterStore p s) := by simp [execCounterStore]
@[simp] theorem keeps_atomic {p e} : Out.Keeps s (execAtomic p e s) := by simp [execAtomic]
@[simp] theorem keeps_loadCpl {p} : Out.Keeps s (execLoadCpl p s) := by simp [execLoadCpl]
@[simp] theorem keeps_storeCpl {p} : Out.Keeps s (execStoreCpl p s) := by simp [execStoreCpl]
@[simp] theorem keeps_atomicCpl {p} : Out.Keeps s (execAtomicCpl p s) := by simp [execAtomicCpl]
@[simp] theorem keeps_message {p} : Out.Keeps s (execMessage p s) := by simp [execMessage]
@[simp] theorem keeps_copyWrite {p e} : Out.Keeps s (execCopyWrite p e s) := by simp [execCopyWrite]
@[simp] theorem keeps_copyPull {p e} : Out.Keeps s (execCopyPull p e s) := by simp [execCopyPull]
@[simp] theorem keeps_wreq {p} : Out.Keeps s (execWreq p s) := by
  dsimp only [execWreq]
  (repeat' split) <;> simp
@[simp] theorem keeps_wupdate {p} : Out.Keeps s (execWupdate p s) := by
  dsimp only [execWupdate]
  (repeat' split) <;> simp
@[simp] theorem keeps_wgive {p} : Out.Keeps s (execWgive p s) := by
  dsimp only [execWgive]
  (repeat' split) <;> simp
@[simp] theorem keeps_salvage {p} : Out.Keeps s (execSalvage p s) := by
  dsimp only [execSalvage]
  (repeat' split) <;> simp
@[simp] theorem keeps_advice {p} : Out.Keeps s (execAdvice p s) := by
  dsimp only [execAdvice]
  (repeat' split) <;> simp
@[simp] theorem keeps_timeExch {p stamp replayed} : Out.Keeps s (execTimeExch p stamp replayed s) := by
  dsimp only [execTimeExch]
  (repeat' split) <;> simp
@[simp] theorem keeps_harvestReq {p} : Out.Keeps s (execHarvestReq p s) := by
  dsimp only [execHarvestReq]
  (repeat' split) <;> simp
@[simp] theorem keeps_harvestData {p} : Out.Keeps s (execHarvestData p s) := by
  dsimp only [execHarvestData]
  (repeat' split) <;> simp
@[simp] theorem keeps_helmMsg {p} : Out.Keeps s (execHelmMsg p s) := by
  dsimp only [execHelmMsg]
  (repeat' split) <;> simp
@[simp] theorem keeps_unpairTimeout {gateway pair member pseq} : Out.Keeps s (execUnpairTimeout gateway pair member pseq s) := by
  dsimp only [execUnpairTimeout]
  (repeat' split) <;> simp
@[simp] theorem keeps_pairChecksComplete {pair failA failB faulty} : Out.Keeps s (execPairChecksComplete pair failA failB faulty s) := by
  dsimp only [execPairChecksComplete]
  (repeat' split) <;> simp
@[simp] theorem keeps_edgeTxPick {port} : Out.Keeps s (execEdgeTxPick port s) := by
  dsimp only [execEdgeTxPick]
  (repeat' split) <;> simp

/-! Windows, copies and the upkeep of HBM (spec/09, spec/10). -/

@[simp] theorem keeps_windowAdmit {dest cls} : Out.Keeps s (execWindowAdmit dest cls s) := by
  dsimp only [execWindowAdmit]
  (repeat' split) <;> simp
@[simp] theorem keeps_windowGrant : Out.Keeps s (execWindowGrant s) := by
  dsimp only [execWindowGrant]
  (repeat' split) <;> simp
@[simp] theorem keeps_wupdateSend {src cls} : Out.Keeps s (execWupdateSend src cls s) := by
  dsimp only [execWupdateSend]
  (repeat' split) <;> simp
@[simp] theorem keeps_windowIdleGiveback {dest cls} : Out.Keeps s (execWindowIdleGiveback dest cls s) := by
  dsimp only [execWindowIdleGiveback]
  (repeat' split) <;> simp
@[simp] theorem keeps_wseqGapSkip {src cls} : Out.Keeps s (execWseqGapSkip src cls s) := by
  dsimp only [execWseqGapSkip]
  (repeat' split) <;> simp
@[simp] theorem keeps_portLoss {port} : Out.Keeps s (execPortLoss port s) := by
  dsimp only [execPortLoss]
  (repeat' split) <;> simp
@[simp] theorem keeps_salvageTimeout {port} : Out.Keeps s (execSalvageTimeout port s) := by
  dsimp only [execSalvageTimeout]
  (repeat' split) <;> simp [foldl_pending, foldl_variant, foldl_nv]
@[simp] theorem keeps_congestionSample : Out.Keeps s (execCongestionSample s) := by
  dsimp only [execCongestionSample]
  (repeat' split) <;> simp [foldl_pending, foldl_variant, foldl_nv]
@[simp] theorem keeps_orderedStoreIssue {gateway core tag} : Out.Keeps s (execOrderedStoreIssue gateway core tag s) := by
  dsimp only [execOrderedStoreIssue]
  (repeat' split) <;> simp
@[simp] theorem keeps_readAheadFetch {gateway tracker e} : Out.Keeps s (execReadAheadFetch gateway tracker e s) := by
  dsimp only [execReadAheadFetch]
  (repeat' split) <;> simp
@[simp] theorem keeps_patrolRead {line e} : Out.Keeps s (execPatrolRead line e s) := by
  dsimp only [execPatrolRead]
  (repeat' split) <;> simp
@[simp] theorem keeps_rowRepairComplete {granule detail spare} : Out.Keeps s (execRowRepairComplete granule detail spare s) := by
  dsimp only [execRowRepairComplete]
  (repeat' split) <;> simp
@[simp] theorem keeps_granuleScrubComplete {granule} : Out.Keeps s (execGranuleScrubComplete granule s) := by
  dsimp only [execGranuleScrubComplete]
  (repeat' split) <;> simp
@[simp] theorem keeps_hbmChannelRetrainStart {die channel} : Out.Keeps s (execHbmChannelRetrainStart die channel s) := by
  dsimp only [execHbmChannelRetrainStart]
  (repeat' split) <;> simp
@[simp] theorem keeps_hbmChannelRetrainComplete {die channel good} : Out.Keeps s (execHbmChannelRetrainComplete die channel good s) := by
  dsimp only [execHbmChannelRetrainComplete]
  (repeat' split) <;> simp [foldl_pending, foldl_variant, foldl_nv]
@[simp] theorem keeps_qcfgWrite {queue barn v} : Out.Keeps s (execQcfgWrite queue barn v s) := by
  dsimp only [execQcfgWrite]
  (repeat' split) <;> simp
@[simp] theorem keeps_qheadWrite {queue barn v} : Out.Keeps s (execQheadWrite queue barn v s) := by
  dsimp only [execQheadWrite]
  (repeat' split) <;> simp

/-! Edge ports (spec/11). -/

@[simp] theorem keeps_edgeReplayTimeout {port} : Out.Keeps s (execEdgeReplayTimeout port s) := by
  dsimp only [execEdgeReplayTimeout]
  (repeat' split) <;> simp
@[simp] theorem keeps_linkControlFrameRx {port seq lc verified} : Out.Keeps s (execLinkControlFrameRx port seq lc verified s) := by
  dsimp only [execLinkControlFrameRx]
  (repeat' split) <;> simp
@[simp] theorem keeps_portLockAchieved {port mask} : Out.Keeps s (execPortLockAchieved port mask s) := by
  dsimp only [execPortLockAchieved]
  (repeat' split) <;> simp
@[simp] theorem keeps_portDeskewDone {port cycles} : Out.Keeps s (execPortDeskewDone port cycles s) := by
  dsimp only [execPortDeskewDone]
  (repeat' split) <;> simp
@[simp] theorem keeps_portEyeDone {port} : Out.Keeps s (execPortEyeDone port s) := by
  dsimp only [execPortEyeDone]
  (repeat' split) <;> simp
@[simp] theorem keeps_portWidthAgreed {port mask} : Out.Keeps s (execPortWidthAgreed port mask s) := by
  dsimp only [execPortWidthAgreed]
  (repeat' split) <;> simp
@[simp] theorem keeps_portUp {port} : Out.Keeps s (execPortUp port s) := by
  dsimp only [execPortUp]
  (repeat' split) <;> simp
@[simp] theorem keeps_maintEnd {port trims} : Out.Keeps s (execMaintEnd port trims s) := by
  dsimp only [execMaintEnd]
  (repeat' split) <;> simp
@[simp] theorem keeps_probeBurst {port} : Out.Keeps s (execProbeBurst port s) := by
  dsimp only [execProbeBurst]
  (repeat' split) <;> simp
@[simp] theorem keeps_partnerLightDetect {port power} : Out.Keeps s (execPartnerLightDetect port power s) := by
  dsimp only [execPartnerLightDetect]
  (repeat' split) <;> simp
@[simp] theorem keeps_rxLightLoss {port power} : Out.Keeps s (execRxLightLoss port power s) := by
  dsimp only [execRxLightLoss]
  (repeat' split) <;> simp
@[simp] theorem keeps_modulatedLightStop {port} : Out.Keeps s (execModulatedLightStop port s) := by
  dsimp only [execModulatedLightStop]
  (repeat' split) <;> simp
@[simp] theorem keeps_returnToProbe {port} : Out.Keeps s (execReturnToProbe port s) := by
  dsimp only [execReturnToProbe]
  (repeat' split) <;> simp
@[simp] theorem keeps_keyUpdateStart {port} : Out.Keeps s (execKeyUpdateStart port s) := by
  dsimp only [execKeyUpdateStart]
  (repeat' split) <;> simp
@[simp] theorem keeps_keyUpdateTimeout {port} : Out.Keeps s (execKeyUpdateTimeout port s) := by
  dsimp only [execKeyUpdateTimeout]
  (repeat' split) <;> simp

/-! The helm and its berths (spec/13). -/

@[simp] theorem keeps_helmOutputMismatch : Out.Keeps s (execHelmOutputMismatch s) := by
  dsimp only [execHelmOutputMismatch]
  (repeat' split) <;> simp
@[simp] theorem keeps_helmSelfCheckEnd {aBad bBad} : Out.Keeps s (execHelmSelfCheckEnd aBad bBad s) := by
  dsimp only [execHelmSelfCheckEnd]
  (repeat' split) <;> simp
@[simp] theorem keeps_helmReform {passed} : Out.Keeps s (execHelmReform passed s) := by
  dsimp only [execHelmReform]
  (repeat' split) <;> simp
@[simp] theorem keeps_fwUpdateTakeover {verified} : Out.Keeps s (execFwUpdateTakeover verified s) := by
  dsimp only [execFwUpdateTakeover]
  (repeat' split) <;> simp
@[simp] theorem keeps_berthSlotClaim {berth path off bytes} : Out.Keeps s (execBerthSlotClaim berth path off bytes s) := by
  dsimp only [execBerthSlotClaim]
  (repeat' split) <;> simp
@[simp] theorem keeps_berthRing {berth path v} : Out.Keeps s (execBerthRing berth path v s) := by
  dsimp only [execBerthRing]
  (repeat' split) <;> simp
@[simp] theorem keeps_berthTake {berth} : Out.Keeps s (execBerthTake berth s) := by
  dsimp only [execBerthTake]
  (repeat' split) <;> simp
@[simp] theorem keeps_berthReply {berth slot} : Out.Keeps s (execBerthReply berth slot s) := by
  dsimp only [execBerthReply]
  (repeat' split) <;> simp
@[simp] theorem keeps_berthReplyClear {berth path v} : Out.Keeps s (execBerthReplyClear berth path v s) := by
  dsimp only [execBerthReplyClear]
  (repeat' split) <;> simp
@[simp] theorem keeps_opStatusPeriodic {op} : Out.Keeps s (execOpStatusPeriodic op s) := by
  dsimp only [execOpStatusPeriodic]
  (repeat' split) <;> simp
@[simp] theorem keeps_operationEnd {op} : Out.Keeps s (execOperationEnd op s) := by
  dsimp only [execOperationEnd]
  (repeat' split) <;> simp
@[simp] theorem keeps_phaseValidationComplete {op} : Out.Keeps s (execPhaseValidationComplete op s) := by
  dsimp only [execPhaseValidationComplete]
  (repeat' split) <;> simp [foldl_pending, foldl_variant, foldl_nv]
@[simp] theorem keeps_standbyTestComplete {op cores granules links ports modules} : Out.Keeps s (execStandbyTestComplete op cores granules links ports modules s) := by
  dsimp only [execStandbyTestComplete]
  (repeat' split) <;> simp [foldl_pending, foldl_variant, foldl_nv]

/-! Registers and bring-up (spec/14, spec/15). -/

@[simp] theorem keeps_registerWrite {fn off bytes} : Out.Keeps s (execRegisterWrite fn off bytes s) := by
  dsimp only [execRegisterWrite]
  (repeat' split) <;> simp
@[simp] theorem keeps_registerLowHalfRead {fn off} : Out.Keeps s (execRegisterLowHalfRead fn off s) := by
  dsimp only [execRegisterLowHalfRead]
  (repeat' split) <;> simp
@[simp] theorem keeps_apertureRead {fn off len} : Out.Keeps s (execApertureRead fn off len s) := by simp [execApertureRead]
@[simp] theorem keeps_apertureWrite {fn off bytes} : Out.Keeps s (execApertureWrite fn off bytes s) := by
  dsimp only [execApertureWrite]
  (repeat' split) <;> simp [foldl_pending, foldl_variant, foldl_nv]
@[simp] theorem keeps_functionLevelReset {fn} : Out.Keeps s (execFunctionLevelReset fn s) := by
  dsimp only [execFunctionLevelReset]
  (repeat' split) <;> simp
@[simp] theorem keeps_buGo {v} : Out.Keeps s (execBuGo v s) := by simp [execBuGo]
@[simp] theorem keeps_buAccept {v} : Out.Keeps s (execBuAccept v s) := by simp [execBuAccept]
@[simp] theorem keeps_buAbort {v} : Out.Keeps s (execBuAbort v s) := by simp [execBuAbort]
@[simp] theorem keeps_calImageWaitTimeout : Out.Keeps s (execCalImageWaitTimeout s) := by simp [execCalImageWaitTimeout]

/-! Resets (spec/15). -/

@[simp] theorem keeps_coreReset {core} : Out.Keeps s (execCoreReset core s) := by simp [execCoreReset]
@[simp] theorem keeps_clusterReset {cluster} : Out.Keeps s (execClusterReset cluster s) := by simp [execClusterReset]
@[simp] theorem keeps_orphanTagTimeout {gateway who tag} : Out.Keeps s (execOrphanTagTimeout gateway who tag s) := by
  dsimp only [execOrphanTagTimeout]
  (repeat' split) <;> simp
@[simp] theorem keeps_packageReset : Out.Keeps s (execPackageReset s) := by simp [execPackageReset]
@[simp] theorem keeps_perstAssert : Out.Keeps s (execPerstAssert s) := by simp [execPerstAssert]

/-! Clocks and the gleaner (spec/16, spec/18). -/

@[simp] theorem keeps_refclkFault : Out.Keeps s (execRefclkFault s) := by
  dsimp only [execRefclkFault]
  (repeat' split) <;> simp
@[simp] theorem keeps_ppsEdge {sub} : Out.Keeps s (execPpsEdge sub s) := by simp [execPpsEdge]
@[simp] theorem keeps_timeExchPeriod : Out.Keeps s (execTimeExchPeriod s) := by
  dsimp only [execTimeExchPeriod]
  (repeat' split) <;> simp
@[simp] theorem keeps_almanacSet {v} : Out.Keeps s (execAlmanacSet v s) := by simp [execAlmanacSet]
@[simp] theorem keeps_meterBoundary : Out.Keeps s (execMeterBoundary s) := by
  dsimp only [execMeterBoundary]
  (repeat' split) <;> simp [foldl_pending, foldl_variant, foldl_nv]
@[simp] theorem keeps_indDataRead {eight} : Out.Keeps s (execIndDataRead eight s) := by
  dsimp only [execIndDataRead]
  (repeat' split) <;> simp
@[simp] theorem keeps_indDataWrite {v eight} : Out.Keeps s (execIndDataWrite v eight s) := by simp [execIndDataWrite]
@[simp] theorem keeps_faultAck {cls} : Out.Keeps s (execFaultAck cls s) := by simp [execFaultAck]
@[simp] theorem keeps_faultNPulseEnd : Out.Keeps s (execFaultNPulseEnd s) := by
  dsimp only [execFaultNPulseEnd]
  (repeat' split) <;> simp
@[simp] theorem keeps_faultReport : Out.Keeps s (execFaultReport s) := by
  dsimp only [execFaultReport]
  (repeat' split) <;> simp
@[simp] theorem keeps_countWindowEnd {kind unit} : Out.Keeps s (execCountWindowEnd kind unit s) := by
  dsimp only [execCountWindowEnd]
  (repeat' split) <;> simp
@[simp] theorem keeps_faultNoticePost : Out.Keeps s (execFaultNoticePost s) := by
  dsimp only [execFaultNoticePost]
  (repeat' split) <;> simp
@[simp] theorem keeps_governorTick {die} : Out.Keeps s (execGovernorTick die s) := by
  dsimp only [execGovernorTick]
  (repeat' split) <;> simp
@[simp] theorem keeps_rngHealthFailure : Out.Keeps s (execRngHealthFailure s) := by
  dsimp only [execRngHealthFailure]
  (repeat' split) <;> simp

/-! Supplies and pins (spec/19). -/

@[simp] theorem keeps_vauxPowerOn {vbat} : Out.Keeps s (execVauxPowerOn vbat s) := by
  dsimp only [execVauxPowerOn]
  (repeat' split) <;> simp
@[simp] theorem keeps_strapSample {testmode sris i3cAddr} : Out.Keeps s (execStrapSample testmode sris i3cAddr s) := by
  dsimp only [execStrapSample]
  (repeat' split) <;> simp
@[simp] theorem keeps_vauxLoss : Out.Keeps s (execVauxLoss s) := by
  dsimp only [execVauxLoss]
  (repeat' split) <;> simp
@[simp] theorem keeps_vin48Loss : Out.Keeps s (execVin48Loss s) := by
  dsimp only [execVin48Loss]
  (repeat' split) <;> simp
@[simp] theorem keeps_vin48DischargeEnd : Out.Keeps s (execVin48DischargeEnd s) := by simp [execVin48DischargeEnd]
@[simp] theorem keeps_interlockOpen {block trims} : Out.Keeps s (execInterlockOpen block trims s) := by
  dsimp only [execInterlockOpen]
  (repeat' split) <;> simp [foldl_pending, foldl_variant, foldl_nv]
@[simp] theorem keeps_vbatLoss : Out.Keeps s (execVbatLoss s) := by simp [execVbatLoss]
@[simp] theorem keeps_perstRelease : Out.Keeps s (execPerstRelease s) := by simp [execPerstRelease]
@[simp] theorem keeps_fwUpdateSplit : Out.Keeps s (execFwUpdateSplit s) := by
  dsimp only [execFwUpdateSplit]
  (repeat' split) <;> simp
@[simp] theorem keeps_vfEnableChange {en num} : Out.Keeps s (execVfEnableChange en num s) := by
  dsimp only [execVfEnableChange]
  (repeat' split) <;> simp [foldl_pending, foldl_variant, foldl_nv]
@[simp] theorem keeps_standbyDomainSelfCheck {railBad refBad rcal aBad bBad} : Out.Keeps s (execStandbyDomainSelfCheck railBad refBad rcal aBad bBad s) := by
  refine keeps_stageEnd ?_
  dsimp only
  (repeat' split) <;> simp [foldl_pending, foldl_variant, foldl_nv]
@[simp] theorem keeps_firmwareAuthentication {host} : Out.Keeps s (execFirmwareAuthentication host s) := by
  refine keeps_stageEnd ?_
  dsimp only
  (repeat' split) <;> simp [foldl_pending, foldl_variant, foldl_nv]
@[simp] theorem keeps_clockDistribution {pllLost generators crossings} : Out.Keeps s (execClockDistribution pllLost generators crossings s) := by
  refine keeps_stageEnd ?_
  dsimp only
  (repeat' split) <;> simp [foldl_pending, foldl_variant, foldl_nv]
@[simp] theorem keeps_dieBringup {cores regulators links fuseBad} : Out.Keeps s (execDieBringup cores regulators links fuseBad s) := by
  refine keeps_stageEnd ?_
  dsimp only
  (repeat' split) <;> simp [foldl_pending, foldl_variant, foldl_nv]
@[simp] theorem keeps_hbmBringup {stackBad repairBad retired} : Out.Keeps s (execHbmBringup stackBad repairBad retired s) := by
  refine keeps_stageEnd ?_
  dsimp only
  (repeat' split) <;> simp [foldl_pending, foldl_variant, foldl_nv]
@[simp] theorem keeps_inPackageLinkTraining {trained} : Out.Keeps s (execInPackageLinkTraining trained s) := by
  refine keeps_stageEnd ?_
  dsimp only
  (repeat' split) <;> simp [foldl_pending, foldl_variant, foldl_nv]
@[simp] theorem keeps_edgeTrainingSighting : Out.Keeps s (execEdgeTrainingSighting s) := by
  refine keeps_stageEnd ?_
  dsimp only
  (repeat' split) <;> simp [foldl_pending, foldl_variant, foldl_nv]
@[simp] theorem keeps_ready : Out.Keeps s (execReady s) := by
  refine keeps_stageEnd ?_
  dsimp only
  (repeat' split) <;> simp [foldl_pending, foldl_variant, foldl_nv]
end

end Sys2Proof.Machine
end

section
/-! PROOFS. Every command completes and leaves the queue alone (logs 1 and 2); the variant and the fuses never change (R375); only SVN_ADVANCE moves
the anti-rollback counter (R413). -/
namespace Sys2Proof.Machine

section
variable {s : State}

theorem keeps_alu {i : IssueA} {fn : Nat} {f : BitVec 64 → BitVec 64 → BitVec 64} : Out.Keeps s (i.alu fn f s) := keeps_issue (by simp)
theorem keeps_alu1 {i : IssueA} {fn : Nat} {f : BitVec 64 → BitVec 64} : Out.Keeps s (i.alu1 fn f s) := keeps_issue (by simp)
theorem keeps_aluI {i : IssueI} {op : Nat} {ok : Bool} {f : BitVec 64 → BitVec 64 → BitVec 64} : Out.Keeps s (i.alu op ok f s) :=
  keeps_issue (by simp)
theorem keeps_pred {i : IssueA} {fn : Nat} {f : Bool → Bool → Bool} : Out.Keeps s (i.pred fn f s) := keeps_issue (by simp)

theorem keeps_arith {i : IssueV} {fn : Nat} {u : VUse} {typeOk : Nat → Bool} {round : Bool} {ff : RMode → FVal → FVal → FVal → FVal × FFlags}
    {fi : Nat → Int → Int → Int → Int} : Out.Keeps s (arith i fn u typeOk round ff fi s) := by
  refine keeps_issueV ?_
  dsimp only
  (repeat' split) <;> simp

theorem keeps_bitwise {i : IssueV} {fn : Nat} {f : Nat → Nat → Nat → Nat} : Out.Keeps s (bitwise i fn f s) := keeps_issueV (by simp)

theorem keeps_fence {i : IssueA} {fn : Nat} {all : Bool} : Out.Keeps s (fence i fn all s) := by
  refine keeps_issue ?_
  (repeat' split) <;> simp

theorem keeps_ctrAdd {i : IssueA} {fn : Nat} {credit : Bool} : Out.Keeps s (ctrAdd i fn credit s) := by
  refine keeps_issue ?_
  dsimp only
  (repeat' split) <;> simp

theorem keeps_ctrRead {i : IssueA} {fn : Nat} {credit : Bool} : Out.Keeps s (ctrRead i fn credit s) := by
  refine keeps_issue ?_
  dsimp only
  (repeat' split) <;> simp

theorem keeps_ctrWait {i : IssueA} {fn : Nat} {credit take : Bool} : Out.Keeps s (ctrWait i fn credit take s) := by
  refine keeps_issue ?_
  dsimp only
  (repeat' split) <;> simp

theorem keeps_spanRead {c t : Nat} {who : Waiter} {op a : Nat} {payload : List Byte} : (spanRead s c t who op a payload).Keeps s := by
  unfold spanRead
  split
  · trivial
  · split
    all_goals next hreq => obtain rfl := pair_snd hreq; simp

theorem keeps_spanStore {c t a : Nat} {bytes : List Byte} : (spanStore s c t a bytes).Keeps s := by
  unfold spanStore
  dsimp only
  (repeat' split) <;> simp

end

/-- SVN_ADVANCE (R413): on its conditions the fixed stores change in the counter alone, else they stay. -/
theorem exec_svnAdvance_fixed (b : BerthId) (k : Fin 7) (s : State) :
    Out.Keeps s (exec (.svnAdvance b k) s)
    ∨ ∃ i t, b.val = 256 ∧ s.helm.st = .paired ∧ s.helm.image = some i ∧ s.helm.fwA = i.version ∧ s.helm.fwB = i.version
      ∧ exec (.svnAdvance b k) s = .next t ∧ t.pending = s.pending ∧ t.variant = s.variant
      ∧ t.nv = { s.nv with rollback := max s.nv.rollback (min 64 i.svn) } := by
  have hstays : ∀ c r, Out.Keeps s (.next (s.setRep b.val k.val (Cmd.reply c r))) := by simp
  change Out.Keeps s (execSvnAdvance b k s) ∨ ∃ i t, _ ∧ _ ∧ _ ∧ _ ∧ _ ∧ execSvnAdvance b k s = .next t ∧ _
  unfold execSvnAdvance serve
  split
  · exact .inl (by simp)
  next c _ =>
  dsimp only
  split
  · exact .inl (hstays _ _)
  split
  · exact .inl (hstays _ _)
  next hberth =>
  split
  · exact .inl (hstays _ _)
  cases himage : s.helm.image with
  | none => exact .inl (hstays _ _)
  | some i =>
    dsimp only
    split
    · exact .inl (hstays _ _)
    next hrun =>
    obtain ⟨hpaired, ha, hb⟩ : s.helm.st = .paired ∧ s.helm.fwA = i.version ∧ s.helm.fwB = i.version := by simpa using hrun
    unfold State.quickOp State.runOp
    cases hop : s.newOp c 0 [] with
    | inl r => exact .inl (hstays _ _)
    | inr p =>
      obtain ⟨hp, hv, hn, -⟩ := State.newOp_keep hop
      exact .inr ⟨i, _, by simpa [at256] using hberth, hpaired, rfl, ha, hb, rfl, by simp [hp], by simp [hv], by simp [hn]⟩

/-- Every row but SVN_ADVANCE keeps the queue, the variant and the fixed stores: a thread instruction by what its body does, a berth row and a stage of
bring-up by their own work, an event by the shared operations that its branches name. -/
theorem keeps_exec {c : Instr} (hc : ∀ b k, c ≠ .svnAdvance b k) (s : State) : Out.Keeps s (exec c s) := by
  cases c <;> dsimp only [exec]
  case svnAdvance b k => exact absurd rfl (hc b k)
  case add | sub | and | or | xor | shl | shr | sra | mul | mulhs | mulhu | div | divu | rem | remu | min | minu | max | maxu => exact keeps_alu
  case clz | popc => exact keeps_alu1
  case addi | andi | ori | xori => exact keeps_aluI
  case shi => unfold execShi; exact keeps_aluI
  case pand | por | pxor | pandn => exact keeps_pred
  case vadd | vsub | vmul | vfma | vdiv | vsqrt | vmin | vmax => exact keeps_arith
  case vand | vor | vxor | vshl | vshr => exact keeps_bitwise
  case fenceS | fenceA => exact keeps_fence
  case tkadd | ccadd => exact keeps_ctrAdd
  case tkrd | ccrd => exact keeps_ctrRead
  case tkwait | ccwait | tktake | cctake => exact keeps_ctrWait
  case movi | movhi | cmp | cmpi | ptog | gtop | br | brl | pclr | time | tstop | brk | srd | swr => exact keeps_issue (by simp)
  case mbpoll => exact keeps_issue (by simp)
  case jr | ldl | stl | stsb | synci | atoml | copy | shsubmit | twait | trd | tset | mbput | mbget | mbring | mbwait | plaunch | pwait | pstat |
      pcancel | shwait | shabort | shstat | barinit | barwait | waituntil | imarkS | imarkE | valloc | tstart =>
    refine keeps_issue ?_
    dsimp only
    (repeat' split) <;> simp
  case vfree =>
    refine keeps_issue ?_
    split <;> simp
  case lds | atoms =>
    refine keeps_issue ?_
    dsimp only
    split
    · trivial
    · exact keeps_spanRead
  case sts =>
    refine keeps_issue ?_
    dsimp only
    split
    · trivial
    · exact keeps_spanStore
  case vlds =>
    refine keeps_issueV ?_
    dsimp only
    split
    · trivial
    · exact keeps_spanRead
  case vsts =>
    refine keeps_issueV ?_
    dsimp only
    split
    · trivial
    · exact keeps_spanStore
  case tkill | trestart | tfwait | srdt =>
    refine keeps_issue (keeps_privileged ?_)
    dsimp only
    (repeat' split) <;> simp
  case vmxpack | vmxunpack | vbcast | vcvt | vldl | vstl | vext =>
    refine keeps_issueV ?_
    dsimp only
    (repeat' split) <;> simp
  case nop | berthInfo | helmStatus | fwUpdate | fmDesignate | attest | certChain | barnPeers | keyImport | barnCreate | barnDestroy |
      barnClusters | granuleAssign | granuleRelease | queueAssign | barnLimits | barnReset | barnInfo | tagRead | release | thread0 | phaseLoad |
      pathsetLoad | courseLoad | planUpload | portRelease | harvest | pairLoad | pairStatus | twinSet | fabricConfig | moduleRelease | moduleAdmit |
      calRestore | standbyTest | gleanerRead | gleanerAck | countConfig | countRead | timeConfig | meterConfig | meterRead | faultInject =>
    refine keeps_serve fun c => ?_
    dsimp only
    (repeat' split) <;> simp +contextual [foldl_pending, foldl_variant, foldl_nv]
  case opStatus | opCancel | opForce | measureExtend | peerMinSvn | pathsetDrop | sighting | calSave | floorplanRead | thermalRead =>
    refine keeps_serve fun c => ?_
    (repeat' split) <;> simp +contextual
  case tagWrite =>
    refine keeps_serve fun c => ?_
    extract_lets area block k n
    split
    · simp
    · split
      · simp
      · exact keeps_quickOp fun n u => by simp
  case calRequest => exact keeps_calRequest s _ _
  case steerStage | steerCommit => exact keeps_steerRow
  all_goals simp

end Sys2Proof.Machine
end

section
/-! PROOFS. The queue and the fuses (logs 1 and 2; R375, Table 15-5; R413). -/
namespace Sys2Proof.Machine

/-- Every command completes and leaves the queue, the variant and, but for the anti-rollback counter, the fixed stores. -/
theorem exec_completes (c : Instr) (s : State) : ∃ t, exec c s = .next t ∧ t.pending = s.pending ∧ t.variant = s.variant
    ∧ { t.nv.fixed with rollback := 0 } = { s.nv.fixed with rollback := 0 } := by
  by_cases hc : ∀ b k, c ≠ .svnAdvance b k
  · obtain ⟨t, hexec, hp, hv, hn⟩ := keeps_exec hc s
    exact ⟨t, hexec, hp, hv, by rw [hn]⟩
  · push Not at hc
    obtain ⟨b, k, rfl⟩ := hc
    obtain ⟨t, hexec, hp, hv, hn⟩ | ⟨i, t, -, -, -, -, -, hexec, hp, hv, hn⟩ := exec_svnAdvance_fixed b k s
    · exact ⟨t, hexec, hp, hv, by rw [hn]⟩
    · exact ⟨t, hexec, hp, hv, by rw [hn]; rfl⟩

/-- Settles O60: each row by what its meaning leaves of the queue. -/
theorem noCommandStops : Obligations.NoCommandStops := by
  unfold Obligations.NoCommandStops
  intro c s
  obtain ⟨t, hexec, hp, -⟩ := exec_completes c s
  exact ⟨t, hexec, hp⟩

/-- A step runs the command at the front of the queue over the queue's rest (log 1). -/
theorem step_front {c : Instr} {rest : List Instr} {s : State} (h : s.pending = c :: rest) : step s = exec c { s with pending := rest } := by
  unfold step
  rw [h]

/-- Settles O1: by the step's own match on the queue. -/
theorem stepRunsFront : Obligations.StepRunsFront := by
  unfold Obligations.StepRunsFront
  exact fun c rest s h => step_front h

theorem step_idle {s : State} (h : s.pending = []) : step s = .next s.tick := by
  unfold step
  rw [h]

/-- No step changes the variant or, but for the anti-rollback counter, the fixed stores. -/
theorem step_fixed {s t : State} (h : step s = .next t) : t.variant = s.variant
    ∧ { t.nv.fixed with rollback := 0 } = { s.nv.fixed with rollback := 0 } := by
  cases hq : s.pending with
  | nil =>
    obtain rfl : s.tick = t := Host.Outcome.next.inj ((step_idle hq).symm.trans h)
    simp
  | cons c rest =>
    rw [step_front hq] at h
    obtain ⟨u, hexec, -, hv, hn⟩ := exec_completes c { s with pending := rest }
    obtain rfl : u = t := Host.Outcome.next.inj (hexec.symm.trans h)
    exact ⟨hv, hn⟩

/-! What the variant fixes (Tables 14-4, 15-3 and 15-5; R271). -/

/-- ID_PART: the part code in bits 15:0, the variant in bits 19:16. -/
theorem idReg_part (s : State) (hv : s.variant < 16) :
    ∃ v, s.idReg 0 = some (4, v) ∧ bitsAt v 16 4 = s.variant ∧ v % 65536 = 0xF072 := by
  refine ⟨_, rfl, ?_, ?_⟩
  · simp only [packFields, bitsAt, Nat.shiftRight_eq_div_pow]
    omega
  · simp only [packFields]
    omega

/-- ID_RESOURCES: the edge ports in bits 33:27. -/
theorem idReg_resources (s : State) : ∃ v, s.idReg 0x30 = some (8, v) ∧ bitsAt v 27 7 = if s.variant = 3 then 40 else 72 := by
  refine ⟨_, rfl, ?_⟩
  have hports : (if s.variant = 3 then 40 else 72) < 2 ^ 7 := by split <;> decide
  simp only [State.idResources, packFields, bitsAt, Nat.shiftRight_eq_div_pow]
  omega

/-- Byte 2 of the map's header is the variant. -/
theorem floorPlan_variant (s : State) (hv : s.variant < 256) : leVal ((s.floorPlan.drop 2).take 1) = s.variant := by
  simp [State.floorPlan, padTo, leBytes, leVal, Nat.mod_eq_of_lt hv]

/-- The granules of a die that the variant fits. -/
theorem length_granulesFitted (s : State) (d : Nat) :
    ((List.range 64).filter fun g => s.granuleFitted (64 * d + g)).length = if s.variant = 2 then 48 else 64 := by
  have hmod : ∀ g ∈ List.range 64, s.granuleFitted (64 * d + g) = (decide (s.variant ≠ 2) || decide (g < 48)) := by
    intro g hg
    have := List.mem_range.1 hg
    simp only [State.granuleFitted, Nat.mul_add_mod, Nat.mod_eq_of_lt this]
  rw [List.filter_congr hmod]
  split
  · next h => simp only [h]; decide
  · next h => simp [h]

/-- A plan one of whose checks fails is refused (R272). -/
theorem find_check_ne_none {checks : List Bool} (h : true ∈ checks) :
    (checks.zipIdx.find? (·.1)).map (fun x => x.2 + 1) ≠ none := by
  obtain ⟨i, hi, htrue⟩ := List.mem_iff_getElem.1 h
  have hsome : (checks.zipIdx.find? (·.1)).isSome := List.find?_isSome.2 ⟨(true, i), by simp [List.mem_zipIdx_iff_getElem?, hi, htrue], rfl⟩
  rw [Ne, Option.map_eq_none_iff, ← Option.isNone_iff_eq_none]
  simp [Option.isSome_iff_ne_none.1 hsome]

theorem plan_refusal_spans {p : Plan} {v : Nat} (h : 512 < p.at 8 2) : p.refusal v ≠ none :=
  find_check_ne_none (by simp [h])

theorem plan_refusal_small {p : Plan} (h : 1 < p.at 8 2 ∨ 32 < p.at 10 1) : p.refusal 3 ≠ none :=
  find_check_ne_none (by simp [h])

/-- Settles O57: the steps by what every row keeps, the rest by the registers' and the map's own layout. -/
theorem variantIsFused : Obligations.VariantIsFused := by
  unfold Obligations.VariantIsFused
  refine ⟨fun s t h => ?_, fun s hv _ => idReg_part s hv, fun s => ?_, floorPlan_variant, rfl, rfl, rfl, length_granulesFitted, by decide, by decide,
    by decide, fun p h => plan_refusal_small h, fun p v h => plan_refusal_spans h⟩
  · obtain ⟨hvar, hnv⟩ := step_fixed h
    have field {α : Type} (f : NonVol → α) : f { t.nv.fixed with rollback := 0 } = f { s.nv.fixed with rollback := 0 } := congrArg f hnv
    exact ⟨hvar, field NonVol.stepping, field NonVol.serial, field NonVol.idDigest, field NonVol.rom, field NonVol.fusedCores,
      field NonVol.factoryClosed⟩
  · obtain ⟨v, hreg, hports⟩ := idReg_resources s
    exact ⟨v, hreg, fun _ _ => hports⟩

/-! The anti-rollback counter (R413). -/

/-- A command moves the counter only as SVN_ADVANCE does, on its conditions. -/
theorem exec_rollback {c : Instr} {s t : State} (h : exec c s = .next t) : t.nv.rollback = s.nv.rollback ∨
    ∃ b k i, c = .svnAdvance b k ∧ b.val = 256 ∧ s.helm.st = .paired ∧ s.helm.image = some i ∧ s.helm.fwA = i.version ∧ s.helm.fwB = i.version
      ∧ t.nv.rollback = max s.nv.rollback (min 64 i.svn) := by
  have of_keeps : Out.Keeps s (exec c s) → t.nv.rollback = s.nv.rollback := by
    rintro ⟨u, hexec, -, -, hn⟩
    obtain rfl : u = t := Host.Outcome.next.inj (hexec.symm.trans h)
    exact (congrArg NonVol.rollback hn :)
  by_cases hc : ∀ b k, c ≠ .svnAdvance b k
  · exact .inl (of_keeps (keeps_exec hc s))
  · push Not at hc
    obtain ⟨b, k, rfl⟩ := hc
    obtain hkeeps | ⟨i, u, hb, hpaired, himage, ha, hb', hexec, -, -, hn⟩ := exec_svnAdvance_fixed b k s
    · exact .inl (of_keeps hkeeps)
    · obtain rfl : u = t := Host.Outcome.next.inj (hexec.symm.trans h)
      exact .inr ⟨b, k, i, rfl, hb, hpaired, himage, ha, hb', by rw [hn]⟩

theorem step_rollback {s t : State} (hle : s.nv.rollback ≤ 64) (h : step s = .next t) : t.nv.rollback ≤ 64 ∧ s.nv.rollback ≤ t.nv.rollback := by
  cases hq : s.pending with
  | nil =>
    obtain rfl : s.tick = t := Host.Outcome.next.inj ((step_idle hq).symm.trans h)
    simp [hle]
  | cons c rest =>
    rw [step_front hq] at h
    obtain hsame | ⟨b, k, i, -, -, -, -, -, -, hmax⟩ := exec_rollback h
    · simp only at hsame
      omega
    · simp only at hmax
      omega

theorem NonVol.fwRefusal_below {nv : NonVol} {i : FwImage} (htyp : i.typ = 1) (hsigned : i.signed = true)
    (hkey : bitAt nv.revoked i.keySlot.val = false) (hbelow : i.svn < nv.rollback) : nv.fwRefusal i = some 0x02 := by
  simp [NonVol.fwRefusal, htyp, hsigned, hkey, hbelow]

/-- An update whose image is refused ends failed, which is reported for the standby half (R413, Table 13-2, step 2). -/
theorem exec_fwUpdateSplit_refused {s : State} {u : FwUpdate} {e : Nat} (hu : s.helm.update = some u) (hst : s.helm.st = .paired)
    (hgoes : s.helm.stopped = false) (htyp : u.image.typ ≠ 2) (he : s.nv.fwRefusal u.image = some e) :
    exec .fwUpdateSplit s = .next ((s.updateFail e).report 0x30 1 0) := by
  change execFwUpdateSplit s = _
  simp [execFwUpdateSplit, hu, hst, hgoes, htyp, he, State.updateReject]

/-- An update that ends failed is over for the pair; of the rest only its operation changes. -/
theorem State.updateFail_eq {s : State} {u : FwUpdate} (hu : s.helm.update = some u) (e : Nat) :
    ∃ m, s.updateFail e = { s with helm := { s.helm with update := none }, ops := m } := by
  simp only [State.updateFail, hu]
  exact State.opFin_ops { s with helm := { s.helm with update := none } } u.op 3 e

@[simp] theorem State.msix_bu (s : State) (f vec : Nat) : (s.msix f vec).bu = s.bu := by
  unfold State.msix
  (repeat' split) <;> rfl

@[simp] theorem State.buSet_bu (s : State) (st : BuSt) (r : Nat) : (s.buSet st r).bu = { s.bu with st := st, result := r } := by
  unfold State.buSet
  dsimp only
  split <;> simp
@[simp] theorem State.buSet_helm (s : State) (st : BuSt) (r : Nat) : (s.buSet st r).helm = s.helm := by
  unfold State.buSet
  dsimp only
  split <;> simp

/-- Stage 2 with the image of the host buffer, which is refused (R413, R475). -/
theorem exec_firmwareAuthentication_refused {i : FwImage} {e : Nat} {s : State} (hstage : s.inStage 2) (hsource : s.bu.took.getD 4 0 = 1)
    (hlen : s.bu.took.getD 1 0 ≠ 0) (haligned : s.bu.took.getD 0 0 % 64 = 0) (he : s.nv.fwRefusal i = some e) :
    exec (.firmwareAuthentication (some i)) s = .next (s.buSet .failed e) := by
  obtain ⟨hn, hrun, hfatal⟩ := hstage
  change execFirmwareAuthentication (some i) s = _
  simp only [execFirmwareAuthentication, stageEnd, hn, hrun, hfatal, and_self, if_true, Bool.false_eq_true, if_false, hsource, hlen, haligned,
    one_ne_zero, ne_eq, not_true_eq_false, or_self, List.find?_cons, he, Option.isNone_some, List.find?_nil, Option.getD_some]

/-- Settles O58: every row by what it keeps, SVN_ADVANCE by its own conditions; a refused image by its two readers. -/
theorem rollbackCounter : Obligations.RollbackCounter := by
  unfold Obligations.RollbackCounter
  refine ⟨fun c s t h => exec_rollback h, fun s t hle h => step_rollback hle h, Nat.zero_le _,
    fun nv i htyp hsigned hkey hbelow => NonVol.fwRefusal_below htyp hsigned hkey hbelow, ?_, ?_⟩
  · intro s u e hu hst hgoes htyp he
    obtain ⟨m, hm⟩ := State.updateFail_eq hu e
    exact ⟨_, exec_fwUpdateSplit_refused hu hst hgoes htyp he, rfl, by simp [hm, hst], by simp [hm]⟩
  · intro i e s hn hrun hfatal hsource hlen haligned he
    exact ⟨_, exec_firmwareAuthentication_refused ⟨hn, hrun, hfatal⟩ hsource hlen haligned he, by simp, by simp, by simp⟩

end Sys2Proof.Machine
end

section
/-! PROOFS. The reckoning counter (R392 to R394): what a package reset, a tick and a correction leave in it. -/
namespace Sys2Proof.Machine

/-! Folds that leave a field of the state as it is. -/

theorem foldl_field {α β : Type} (g : State → β) (f : State → α → State) (hf : ∀ s a, g (f s a) = g s) (l : List α) (s : State) :
    g (l.foldl f s) = g s := by
  induction l generalizing s with
  | nil => rfl
  | cons a l ih => rw [List.foldl_cons, ih, hf]

/-- The clock and the reckoning counter. -/
def State.time (s : State) : Nat × Clock := (s.reckon, s.clock)

@[simp] theorem State.time_dieTick (s : State) (d : Nat) : (s.dieTick d).time = s.time :=
  foldl_field State.time (fun s c => s.onCore c fun k => k.slotsPass _) (fun _ _ => rfl) _ s

@[simp] theorem State.time_onMeter (s : State) (b : Nat) (f : MeterOpen → MeterOpen) : (s.onMeter b f).time = s.time := rfl

@[simp] theorem State.time_meterTick (s : State) (inc : Nat) : (s.meterTick inc).time = s.time := by
  unfold State.meterTick
  dsimp only
  rw [apply_ite State.time, State.time_onMeter, ite_self, foldl_field State.time, foldl_field State.time]
  · exact fun _ _ => rfl
  · intro s b
    split <;> rfl

theorem State.time_tick {s : State} (h : s.pins.vaux = true) :
    s.tick.time = ((s.reckon + s.clock.tick.1) % 2 ^ 64, s.clock.tick.2) := by
  simp only [State.tick, h, Bool.not_true, Bool.false_eq_true, if_false, State.time_meterTick]
  split
  · exact foldl_field State.time (fun s d => s.dieTick d) State.time_dieTick _ _
  · rfl

theorem State.reckon_tick {s : State} (h : s.pins.vaux = true) : s.tick.reckon = (s.reckon + s.clock.tick.1) % 2 ^ 64 :=
  congrArg Prod.fst (State.time_tick h)

theorem State.clock_tick {s : State} (h : s.pins.vaux = true) : s.tick.clock = s.clock.tick.2 :=
  congrArg Prod.snd (State.time_tick h)

theorem Clock.tick_inc (c : Clock) : c.tick.1 = if c.owed = 0 ∨ c.sinceSlew < 127 then 20 else if 0 < c.owed then 21 else 19 := by
  unfold Clock.tick
  by_cases ho : c.owed = 0
  · simp [ho]
  · by_cases hs : 127 ≤ c.sinceSlew
    · by_cases hp : 0 < c.owed <;> simp [ho, hs, hp]
    · simp [hs]

/-- A tick that slews takes one unit off what is owed. -/
theorem Clock.tick_slews {c : Clock} (ho : c.owed ≠ 0) (hs : 127 ≤ c.sinceSlew) :
    c.tick.2.sinceSlew = 0 ∧ c.tick.2.owed.natAbs + 1 = c.owed.natAbs := by
  by_cases hp : 0 < c.owed
  · simp [Clock.tick, ho, hs, hp]
    omega
  · simp [Clock.tick, ho, hs, hp]
    omega

@[simp] theorem State.thermFollow_reckon (s : State) : s.thermFollow.reckon = s.reckon := by
  unfold State.thermFollow
  split <;> rfl

@[simp] theorem State.packageReset_reckon (s : State) : s.packageReset.reckon = 0 := by
  simp [State.packageReset]
  rfl

/-- Settles O55: a tick's increment is its clock's, and no die or meter moves the counter. -/
theorem reckoningCounter : Obligations.ReckoningCounter := by
  unfold Obligations.ReckoningCounter
  refine ⟨rfl, ?_, ?_, ?_, ?_, ?_⟩
  · exact fun s hv => ⟨s.packageReset, by simp [exec, execPackageReset, hv], s.packageReset_reckon⟩
  · exact fun s hv => by rw [State.reckon_tick hv, Clock.tick_inc]
  · exact fun s hv ho hs => by rw [State.clock_tick hv]; exact Clock.tick_slews ho hs
  · intro s θ hl hθ
    simp [State.timeCorrect, hl, hθ]
  · intro s θ h
    have hno : ¬((!s.clock.locked) = true ∧ θ < -16000000) := by
      rintro ⟨hl, hθ⟩
      rcases h with h | h
      · simp [h] at hl
      · omega
    rw [State.timeCorrect, if_neg hno]
    exact ⟨rfl, rfl⟩

end Sys2Proof.Machine
end

section
/-! PROOFS. The flags of the sensors (R455, R456, Table 18-7). -/
namespace Sys2Proof.Machine

/-- The report of each flag that a sample sets, WARN's first. -/
theorem State.judgeFlags_reports_eq (s : State) (n : Nat) (x : Int) : (s.judgeFlags n x).reports = s.reports
    ++ (if ((s.judgeFlags n x).sensor n).warn = true ∧ (s.sensor n).warn = false then [⟨0x40, n, wrapTo 16 x, s.reckon, none⟩] else [])
    ++ (if ((s.judgeFlags n x).sensor n).throttle = true ∧ (s.sensor n).throttle = false then
      [⟨0x41, n, wrapTo 16 x, s.reckon, none⟩] else []) := by
  simp only [State.judgeFlags_sensor, if_true]
  simp only [State.judgeFlags, State.thermFollow_reports, apply_ite State.reports, State.msix_reports, ite_self, State.report_reports,
    State.setSensor_reports, Bool.not_eq_eq_eq_not, Bool.not_true]
  split <;> split <;> simp [State.report, State.setSensor]

/-- The reports of a sample's flags depend on those flags alone. -/
theorem State.judgeFlags_setSensor_reports {s : State} {n : Nat} {y : Sensor} (hw : y.warn = (s.sensor n).warn)
    (ht : y.throttle = (s.sensor n).throttle) (x : Int) :
    ((s.setSensor n y).judgeFlags n x).reports = (s.judgeFlags n x).reports := by
  simp only [State.judgeFlags_reports_eq, State.judgeFlags_sensor, State.sensor_setSensor, State.setSensor_reports,
    State.setSensor_reckon, if_true, hw, ht]

@[simp] theorem State.zoneBand_reports (s : State) (z : Nat) (x : Int) : (s.zoneBand z x).reports = s.reports := by
  unfold State.zoneBand
  dsimp only
  split <;> rfl

@[simp] theorem State.judgeFlags_reckon (s : State) (n : Nat) (x : Int) : (s.judgeFlags n x).reckon = s.reckon := by
  have hm : ∀ (s : State) f v, (s.msix f v).reckon = s.reckon := by
    intro s f v
    unfold State.msix
    (repeat' split) <;> rfl
  simp only [State.judgeFlags, State.thermFollow_reckon, apply_ite State.reckon, hm, ite_self, State.report, State.setSensor]

/-- The second sample in a row at the shutdown value is reported after its flags (R456). -/
theorem State.validSample_reports {s : State} {n : Nat} (h : (s.sensor n).retired = false) (x : Int) :
    (s.validSample n x).reports = (s.judgeFlags n x).reports
      ++ if (thresholds n).shutdown ≤ x ∧ (s.sensor n).run = 1 then [⟨0x42, n, wrapTo 16 x, s.reckon, none⟩] else [] := by
  have hflags : ∀ y : Sensor, y.warn = (s.sensor n).warn → y.throttle = (s.sensor n).throttle →
      ((s.setSensor n y).judgeFlags n x).reports = (s.judgeFlags n x).reports := fun _ hw ht =>
    State.judgeFlags_setSensor_reports hw ht x
  by_cases hx : (thresholds n).shutdown ≤ x
  · by_cases hr : (s.sensor n).run = 1
    · simp [State.validSample, apply_ite State.reports, h, hx, hr, hflags]
    · simp [State.validSample, apply_ite State.reports, h, hr, hflags]
  · simp [State.validSample, apply_ite State.reports, hx, hflags]

@[simp] theorem State.anyWarn_singleton (s : State) (n : Nat) : s.anyWarn [n] = (s.sensor n).warn := by simp [State.anyWarn]
@[simp] theorem State.anyThrottle_singleton (s : State) (n : Nat) : s.anyThrottle [n] = (s.sensor n).throttle := by simp [State.anyThrottle]

/-- Settles O39: a valid sample moves the flags by the table's values and reports each that becomes set. -/
theorem sensorFlags : Obligations.SensorFlags := by
  unfold Obligations.SensorFlags
  refine ⟨fun n h => by simp [thresholds, h], fun n h h' => by simp [thresholds, h', Nat.not_lt.mpr h],
    fun n h => by simp [thresholds, Nat.not_lt.mpr h, show ¬n < 512 by omega], ?_, ?_⟩
  · intro s n x
    refine ⟨?_, ?_, State.judgeFlags_reports_eq s n x, fun k hk => ?_⟩
    · simp [State.judgeFlags_sensor, flagAt]
    · simp [State.judgeFlags_sensor, flagAt]
    · simp [State.judgeFlags_sensor, hk]
  · intro n w s hon hin hv htaken
    have htake : ¬((s.sensor n.val).fast = false ∧ (s.sensor n.val).phase ≠ 0) := by
      rintro ⟨hf, hp⟩
      rcases htaken with h | h
      · simp [h] at hf
      · exact hp h
    refine ⟨_, by rw [exec_sensorSample_valid w hon hin hv, if_neg htake], ?_, ?_, ?_⟩
    · rw [State.validSample_sensor (by simpa using hin)]
      simp [State.judgeFlags_sensor]
    · rw [State.validSample_sensor (by simpa using hin)]
      simp [State.judgeFlags_sensor]
    · rw [State.validSample_reports (by simpa using hin), State.judgeFlags_setSensor_reports (by simp) (by simp)]
      simp

end Sys2Proof.Machine
end

section
/-! PROOFS. The life of a request slot (R324 to R331, R337, R338). -/
namespace Sys2Proof.Machine

/-! Slots of a berth. -/

@[simp] theorem Berth.slot_setSlot (h : Berth) (k : Nat) (x : Slot) (j : Nat) :
    (h.setSlot k x).slot j = if j = k then x else h.slot j := by
  simp [Berth.slot, Berth.setSlot]

/-- A write within one slot's part of the request area is one part. -/
theorem berthParts_within {k off : Nat} {bs : List Byte} (hk : k < 7) (hlo : 0x200 * k ≤ off) (hhi : off + bs.length ≤ 0x200 * (k + 1))
    (hne : bs ≠ []) (f : Nat) : berthParts (f + 2) off bs = [(off, bs)] := by
  have hlen : 0 < bs.length := List.length_pos_of_ne_nil hne
  have hcut : bs.length ≤ 0x200 - off % 0x200 := by omega
  simp [berthParts, show off < 0xE00 by omega, hne, List.take_of_length_le hcut, List.drop_of_length_le hcut]

/-- What a write of an admitted sender within slot `k` makes of the berth. -/
def Berth.slotWrite (h : Berth) (who k off : Nat) (bytes : List Byte) : Berth := match (h.slot k).st with
  | .free => { h.setSlot k { Slot.init with st := .claimed, who := who } with reqArea := memWrite h.reqArea off bytes }
  | .claimed => if (h.slot k).who = who then { h with reqArea := memWrite h.reqArea off bytes } else h.deny
  | _ => h

section
variable {s : State} {b : BerthId} {path : BerthPath} {who : Nat} (hp : s.pathId path = some who)
include hp

theorem exec_berthSlotClaim_denied (ha : s.admits b.val who = false) (off : Fin 4096) (bytes : List Byte) :
    exec (.berthSlotClaim b path off bytes) s = .next (s.setBerth b.val { s.berth b.val with denied := (s.berth b.val).denied + 1 }) := by
  simp [exec, execBerthSlotClaim, hp, State.berthWrite, ha, Berth.deny]

theorem exec_berthRing_denied (ha : s.admits b.val who = false) (v : BitVec 32) :
    exec (.berthRing b path v) s = .next (s.setBerth b.val { s.berth b.val with denied := (s.berth b.val).denied + 1 }) := by
  simp [exec, execBerthRing, hp, State.berthRingWrite, ha, Berth.deny]

theorem exec_berthReplyClear_denied (ha : s.admits b.val who = false) (v : BitVec 32) :
    exec (.berthReplyClear b path v) s = .next (s.setBerth b.val { s.berth b.val with denied := (s.berth b.val).denied + 1 }) := by
  simp [exec, execBerthReplyClear, hp, ha, Berth.deny]

variable (ha : s.admits b.val who = true)
include ha

/-- An admitted write within slot `k` is judged by that slot alone. -/
theorem exec_berthSlotClaim_within {off : Fin 4096} {bytes : List Byte} {k : Nat} (hk : k < 7) (hlo : 0x200 * k ≤ off.val)
    (hhi : off.val + bytes.length ≤ 0x200 * (k + 1)) (hne : bytes ≠ []) :
    exec (.berthSlotClaim b path off bytes) s = .next (s.setBerth b.val ((s.berth b.val).slotWrite who k off.val bytes)) := by
  have hall : bytes.take (4096 - off.val) = bytes := List.take_of_length_le (by omega)
  have hslot : off.val / 0x200 = k := by
    have := List.length_pos_of_ne_nil hne
    omega
  simp only [exec, execBerthSlotClaim, hp, hall, State.berthWrite, ha, Bool.not_true, Bool.false_eq_true, if_false,
    berthParts_within hk hlo hhi hne 298, List.foldl_cons, List.foldl_nil, Berth.writePart, show off.val < 0xE00 by omega, if_true, hslot]
  rfl

theorem exec_berthRing_admitted (v : BitVec 32) :
    exec (.berthRing b path v) s = .next (s.setBerth b.val ((s.berth b.val).ring who (v.toNat / 65536) v.toNat)) := by
  simp [exec, execBerthRing, hp, State.berthRingWrite, ha]

theorem exec_berthReplyClear_admitted (v : BitVec 32) :
    exec (.berthReplyClear b path v) s = .next (s.setBerth b.val ((s.berth b.val).clearIn who v.toNat)) := by
  simp [exec, execBerthReplyClear, hp, ha]
end

/-- A path that stamps no identity reaches no berth. -/
theorem exec_berth_noPath {s : State} {path : BerthPath} (hp : s.pathId path = none) (b : BerthId) (off : Fin 4096) (bytes : List Byte)
    (v : BitVec 32) : exec (.berthSlotClaim b path off bytes) s = .next s ∧ exec (.berthRing b path v) s = .next s
      ∧ exec (.berthReplyClear b path v) s = .next s := by
  simp [exec, execBerthSlotClaim, execBerthRing, execBerthReplyClear, hp]

/-! Rings (R327, R328). -/

/-- Bit `j` of a doorbell word that holds bit `k` alone. -/
theorem bitAt_two_pow (k j : Nat) : bitAt (2 ^ k) j = decide (k = j) := Nat.testBit_two_pow

/-- The doorbell write that selects bit `k` alone, with value 1 or 0. -/
theorem Berth.ring_single (h : Berth) (who : Nat) {k : Nat} (hk : k < 7) (val : Nat) : h.ring who (2 ^ k) val =
    if bitAt val k = true then (if h.rings.contains (k, who) then h else { h with rings := h.rings ++ [(k, who)] })
    else { h with rings := h.rings.filter fun r => decide (r.1 ≠ k) } := by
  have hrange : List.range 7 = [0, 1, 2, 3, 4, 5, 6] := by decide
  simp only [Berth.ring, bitAt_two_pow, hrange, List.foldl_cons, List.foldl_nil]
  interval_cases k <;> simp

/-- A ring: SELECT and RING name the one bit. -/
theorem Berth.ring_set (h : Berth) {who k : Nat} (hk : k < 7) (hnew : (k, who) ∉ h.rings) :
    h.ring who (65537 * 2 ^ k / 65536) (65537 * 2 ^ k) = { h with rings := h.rings ++ [(k, who)] } := by
  have hsel : 65537 * 2 ^ k / 65536 = 2 ^ k := by
    have : 2 ^ k < 2 ^ 7 := Nat.pow_lt_pow_right (by norm_num) hk
    omega
  have hval : bitAt (65537 * 2 ^ k) k = true := by interval_cases k <;> decide
  rw [hsel, Berth.ring_single h who hk, if_pos hval, if_neg (by simpa using hnew)]

/-- A withdrawal: SELECT names the bit, RING does not. -/
theorem Berth.ring_clear (h : Berth) (who : Nat) {k : Nat} (hk : k < 7) :
    h.ring who (65536 * 2 ^ k / 65536) (65536 * 2 ^ k) = { h with rings := h.rings.filter fun r => decide (r.1 ≠ k) } := by
  have hsel : 65536 * 2 ^ k / 65536 = 2 ^ k := Nat.mul_div_cancel_left _ (by norm_num)
  have hval : ¬bitAt (65536 * 2 ^ k) k = true := by interval_cases k <;> decide
  rw [hsel, Berth.ring_single h who hk, if_neg hval]

/-! The helm takes a request and replies (R328, R329, R331, R337). -/

theorem exec_berthTake_idle {b : BerthId} {s : State}
    (h : s.helmServesBerth b.val = false ∨ ∃ x ∈ (s.berth b.val).slots, x.2.st = .serving) : exec (.berthTake b) s = .next s := by
  have hwait : (!s.helmServesBerth b.val) = true ∨ ((s.berth b.val).slots.any fun x => decide (x.2.st = .serving)) = true := by
    rcases h with h | ⟨x, hx, hst⟩
    · exact .inl (by simp [h])
    · exact .inr (List.any_eq_true.mpr ⟨x, hx, by simpa using hst⟩)
  change execBerthTake b s = _
  unfold execBerthTake
  exact if_pos hwait

section
variable {b : BerthId} {s : State} {k who : Nat} {l : List (Nat × Nat)} (hs : s.helmServesBerth b.val = true)
  (hfree : ∀ x ∈ (s.berth b.val).slots, x.2.st ≠ .serving) (hr : (s.berth b.val).rings = (k, who) :: l)
include hs hfree hr

/-- The take looks at the ring at the head where its slot is not claimed, or claimed by the ringer. -/
theorem exec_berthTake_head (hact : ((s.berth b.val).slot k).st ≠ .claimed ∨ ((s.berth b.val).slot k).who = who) {h1 : Berth}
    (hh : h1 = { s.berth b.val with rings := l.filter fun r => decide (r.1 ≠ k) }) :
    exec (.berthTake b) s = if ((s.berth b.val).slot k).st = .claimed ∧ ((s.berth b.val).slot k).who = who then
      .next (s.setBerth b.val (h1.setSlot k { (s.berth b.val).slot k with
        st := .serving
        req := memRead (s.berth b.val).reqArea (0x200 * k) 512
        rep := if opcodes.contains (parseCmd b.val who (memRead (s.berth b.val).reqArea (0x200 * k) 512)).opcode then none
          else some ((parseCmd b.val who (memRead (s.berth b.val).reqArea (0x200 * k) 512)).reply ⟨0x02, 0, 0, []⟩) }))
      else .next (s.setBerth b.val h1) := by
  have hno : ¬((!s.helmServesBerth b.val) = true ∨ ((s.berth b.val).slots.any fun x => decide (x.2.st = .serving)) = true) := by
    simp only [hs, Bool.not_true, Bool.false_eq_true, false_or, List.any_eq_true, decide_eq_true_eq, not_exists, not_and]
    exact hfree
  have hfind : (s.berth b.val).rings.find? (fun r => decide (((s.berth b.val).slot r.1).st ≠ .claimed)
      || decide (((s.berth b.val).slot r.1).who = r.2)) = some (k, who) := by
    rw [hr]
    exact List.find?_cons_of_pos (by simpa using hact)
  have hrings : (s.berth b.val).rings.filter (fun r => decide (r.1 ≠ k)) = l.filter fun r => decide (r.1 ≠ k) := by
    rw [hr]
    exact List.filter_cons_of_neg (by simp)
  subst hh
  rw [← hrings]
  change execBerthTake b s = _
  unfold execBerthTake
  refine (if_neg hno).trans ?_
  rw [hfind]
end

/-! The claimer's clear (R327, R328). -/

/-- What a clear of one REPLY bit does to its slot. -/
def Berth.clearSlot (who bits : Nat) (h : Berth) (k : Nat) : Berth :=
  if bitAt bits k ∧ (h.slot k).st = .served ∧ (h.slot k).who = who then h.setSlot k Slot.init else h

theorem Berth.clearIn_eq (h : Berth) (who bits : Nat) :
    h.clearIn who bits = (List.range 7).foldl (Berth.clearSlot who bits) { h with bin := h.bin &&& ~~~(BitVec.ofNat 32 bits) } := rfl

theorem Berth.slot_clearSlot (who bits : Nat) (h : Berth) (i k : Nat) : (h.clearSlot who bits i).slot k =
    if k = i ∧ bitAt bits k = true ∧ (h.slot k).st = .served ∧ (h.slot k).who = who then Slot.init else h.slot k := by
  unfold Berth.clearSlot
  by_cases hk : k = i
  · subst hk
    rw [apply_ite (Berth.slot · k)]
    simp
  · rw [apply_ite (Berth.slot · k)]
    simp [hk]

theorem Berth.slot_foldl_clearSlot (who bits : Nat) (l : List Nat) (h : Berth) (k : Nat) :
    (l.foldl (Berth.clearSlot who bits) h).slot k =
      if k ∈ l ∧ bitAt bits k = true ∧ (h.slot k).st = .served ∧ (h.slot k).who = who then Slot.init else h.slot k := by
  induction l generalizing h with
  | nil => simp
  | cons i l ih =>
    rw [List.foldl_cons, ih, Berth.slot_clearSlot]
    by_cases hc : k = i ∧ bitAt bits k = true ∧ (h.slot k).st = .served ∧ (h.slot k).who = who
    · obtain ⟨rfl, hb, hst, hw⟩ := hc
      simp [hb, hst, hw, Slot.init]
    · rw [if_neg hc]
      refine if_congr ?_ rfl rfl
      rw [List.mem_cons]
      tauto

/-- Beside its doorbell word and its slots a clear leaves the berth as it is. -/
theorem Berth.clearIn_frame (h : Berth) (who bits : Nat) : (h.clearIn who bits).bin = h.bin &&& ~~~(BitVec.ofNat 32 bits)
    ∧ { h.clearIn who bits with bin := h.bin, slots := h.slots } = h := by
  have hkeep : ∀ (h : Berth) k, { h.clearSlot who bits k with slots := [] } = { h with slots := [] } := by
    intro h k
    unfold Berth.clearSlot
    split <;> rfl
  have hfold : ∀ (l : List Nat) (h : Berth), { l.foldl (Berth.clearSlot who bits) h with slots := [] } = { h with slots := [] } := by
    intro l
    induction l with
    | nil => exact fun _ => rfl
    | cons k l ih => exact fun h => (ih _).trans (hkeep h k)
  have hall := hfold (List.range 7) { h with bin := h.bin &&& ~~~(BitVec.ofNat 32 bits) }
  rw [← Berth.clearIn_eq] at hall
  exact ⟨congrArg Berth.bin hall, congrArg (fun x : Berth => { x with bin := h.bin, slots := h.slots }) hall⟩

/-! The helm's beat (R377). -/

/-- HELM_BEAT of one berth counts. -/
def Berth.beat (h : Berth) : Berth :=
  { h with repArea := memWrite h.repArea 0xF00 (leBytes 8 (leVal (memRead h.repArea 0xF00 8) + 1)) }

theorem foldl_beat (l : List Nat) (hl : l.Nodup) (s : State) :
    (∀ b, (l.foldl (fun s b => s.setBerth b (s.berth b).beat) s).berth b = if b ∈ l then (s.berth b).beat else s.berth b)
      ∧ { l.foldl (fun s b => s.setBerth b (s.berth b).beat) s with berths := s.berths } = s := by
  induction l generalizing s with
  | nil => exact ⟨fun b => by simp, rfl⟩
  | cons c l ih =>
    obtain ⟨hc, hl⟩ := List.nodup_cons.mp hl
    obtain ⟨hb, hf⟩ := ih hl (s.setBerth c (s.berth c).beat)
    refine ⟨fun b => ?_, congrArg (fun t : State => { t with berths := s.berths }) hf⟩
    rw [List.foldl_cons, hb, State.berth_setBerth]
    by_cases hbc : b = c
    · subst hbc
      simp [hc]
    · simp [hbc]

theorem exec_helmBeatTick {s : State} (hr : s.ready = true) (hh : s.helmServes = true) :
    exec .helmBeatTick s = .next ((tkeys s.barns ++ [256, 257, 258]).foldl (fun s b => s.setBerth b (s.berth b).beat) s) := by
  change execHelmBeatTick s = _
  simp only [execHelmBeatTick, hr, hh, Bool.not_true, Bool.false_eq_true, or_self, if_false]
  rfl

/-- Settles O40: each access is judged by its one slot, each take by the first ring. -/
theorem berthSlots : Obligations.BerthSlots := by
  unfold Obligations.BerthSlots
  refine ⟨?_, ?_, ?_, ?_, ?_, ?_, ?_, ?_, ?_, ?_, ?_, ?_, ?_, ?_, ?_, ?_⟩
  · intro b path off bytes s who k hp ha hk hlo hhi hne hst
    rw [exec_berthSlotClaim_within hp ha hk hlo hhi hne, Berth.slotWrite, hst]
  · intro b path off bytes s who k hp ha hk hlo hhi hne hst hw
    rw [exec_berthSlotClaim_within hp ha hk hlo hhi hne, Berth.slotWrite, hst]
    exact congrArg (fun h => Host.Outcome.next (s.setBerth b.val h)) (if_pos hw)
  · intro b path off bytes s who k hp ha hk hlo hhi hne hst hw
    rw [exec_berthSlotClaim_within hp ha hk hlo hhi hne, Berth.slotWrite, hst]
    exact congrArg (fun h => Host.Outcome.next (s.setBerth b.val h)) (if_neg hw)
  · intro b path off bytes s who k hp ha hk hlo hhi hne hst
    rw [exec_berthSlotClaim_within hp ha hk hlo hhi hne, Berth.slotWrite]
    rcases List.mem_pair.mp hst with h | h <;> rw [h]
  · exact fun b path off bytes s who hp ha => exec_berthSlotClaim_denied hp ha off bytes
  · exact fun b path v s who hp ha => ⟨exec_berthRing_denied hp ha v, exec_berthReplyClear_denied hp ha v⟩
  · exact fun b path off bytes v s hp => exec_berth_noPath hp b off bytes v
  · intro b path v s who k hp ha hk hv hnew
    rw [exec_berthRing_admitted hp ha, hv, Berth.ring_set _ hk hnew]
  · intro b path v s who k hp ha hk hv
    rw [exec_berthRing_admitted hp ha, hv, Berth.ring_clear _ _ hk]
  · intro b s k who l hs hfree hr hst hw
    exact ⟨_, (exec_berthTake_head hs hfree hr (.inr hw) rfl).trans (if_pos ⟨hst, hw⟩), rfl, hw, by dsimp only, rfl, by dsimp only⟩
  · intro b s k who l hs hfree hr hst
    exact (exec_berthTake_head hs hfree hr (.inl hst) rfl).trans (if_neg fun h => hst h.1)
  · exact fun b s h => exec_berthTake_idle h
  · intro b k s rep bytes hst hrep hd hb
    simp [exec, execBerthReply, hst, hrep, hd, hb]
  · intro b k s rep hst hrep hd
    simp [exec, execBerthReply, hst, hrep, hd]
  · intro b path v s who hp ha
    obtain ⟨hbin, hframe⟩ := Berth.clearIn_frame (s.berth b.val) who v.toNat
    refine ⟨_, exec_berthReplyClear_admitted hp ha v, by simpa using hbin, fun k => ?_, hframe⟩
    rw [Berth.clearIn_eq, Berth.slot_foldl_clearSlot]
    exact if_congr (by rw [List.mem_range]; rfl) rfl rfl
  · intro s hr hh hlt hnd
    have hfresh : (tkeys s.barns ++ [256, 257, 258]).Nodup := by
      refine List.Nodup.append hnd (by decide) fun b hb hb' => ?_
      have := hlt b hb
      simp at hb'
      omega
    obtain ⟨hb, hf⟩ := foldl_beat _ hfresh s
    refine ⟨_, exec_helmBeatTick hr hh, fun b hm => ?_, fun b hm hout => ?_, hf⟩
    · rw [hb, if_pos (by simpa using hm)]
      rfl
    · rw [hb, if_neg (by simp [hm]; omega)]

end Sys2Proof.Machine
end

section
/-! PROOFS. Long operations (R332 to R335). -/
namespace Sys2Proof.Machine

/-! Operations by number. -/

theorem State.op_num {s : State} {n : Nat} {o : Op} (h : s.op n = some o) : o.num = n := by
  simpa using List.find?_some h

/-- An operation that stands in the list is found as it was last set. -/
theorem State.op_setOp {s : State} {n : Nat} {o o1 : Op} (h : s.op n = some o) (hn : o1.num = o.num) :
    (s.setOp o1).op n = some o1 := by
  have hnum := State.op_num h
  have hkeep : ((fun x : Op => decide (x.num = n)) ∘ fun x => if x.num = o.num then o1 else x) = fun x => decide (x.num = n) := by
    funext x
    by_cases hx : x.num = o.num
    · simp [hx, hn]
    · simp [hx]
  unfold State.op at h ⊢
  simp only [State.setOp, List.find?_map, hn, hkeep, h, Option.map_some, if_true]

/-- Where no operation has the number, setting one changes nothing. -/
theorem map_setOp_of_absent {l : List Op} {o : Op} (h : ∀ x ∈ l, x.num ≠ o.num) : l.map (fun x => if x.num = o.num then o else x) = l :=
  (List.map_congr_left fun x hx => if_neg (h x hx)).trans (List.map_id l)

theorem State.op_eq_none {s : State} {n : Nat} : s.op n = none ↔ ∀ x ∈ s.ops, x.num ≠ n := by
  simp [State.op]

/-- The operation set last is not among the others. -/
theorem State.setOp_filter (s : State) (o : Op) :
    (s.setOp o).ops.filter (fun x => decide (x.num ≠ o.num)) = s.ops.filter fun x => decide (x.num ≠ o.num) := by
  simp only [State.setOp]
  induction s.ops with
  | nil => rfl
  | cons x l ih =>
    by_cases hx : x.num = o.num
    · simp only [List.map_cons, hx, if_true]
      rw [List.filter_cons_of_neg (by simp), List.filter_cons_of_neg (by simp [hx]), ih]
    · simp only [List.map_cons, hx, if_false]
      rw [List.filter_cons_of_pos (by simp [hx]), List.filter_cons_of_pos (by simp [hx]), ih]

theorem State.opWrite_unasked {s : State} {o : Op} (h : o.statusAddr = 0) : s.opWrite o = s := if_pos h

theorem State.opState_unasked {s : State} {n st result : Nat} {o : Op} (h : s.op n = some o) (hs : o.statusAddr = 0) :
    s.opState n st result = s.setOp { o with st := st, result := result } := by
  simp only [State.opState, State.opChange, h]
  exact State.opWrite_unasked hs

/-! Acceptance (R332). -/

/-- Operation number `opNext` as a long command makes it. -/
def State.opOf (s : State) (c : Cmd) (total : Nat) (work : List Nat) : Op :=
  { num := s.opNext, opcode := c.opcode, berth := c.berth, who := c.who, st := 0, result := 0, progress := 0, total := total
    partialBytes := 0, updates := 0, akind := c.akind, sdb := c.sdb, statusAddr := c.statusAddr, bufAddr := c.bufAddr
    bufLen := c.bufLen, barn := c.barn, args := c.payload, work := work, fin := none }
/-- The state with one more operation, which has taken the next number. -/
def State.opAdded (s : State) (o : Op) : State :=
  { s with ops := s.ops ++ [o], opNext := if s.opNext + 1 = 2 ^ 32 then 1 else s.opNext + 1 }

section
variable {s : State} {c : Cmd} (total : Nat) (work : List Nat)

theorem State.newOp_accepted (hroom : s.ops.length < 256) (hok : s.statusOk c = true) :
    s.newOp c total work = .inr (s.opNext, s.opAdded (s.opOf c total work)) := by
  unfold State.newOp
  rw [if_neg (by omega), if_neg (by simp [hok])]
  rfl

theorem State.newOp_full (hfull : 256 ≤ s.ops.length) : s.newOp c total work = .inl (Rep.err 0x08) := if_pos hfull

theorem State.newOp_badStatus (hroom : s.ops.length < 256) (hbad : s.statusOk c = false) : s.newOp c total work = .inl (Rep.err 0x09) := by
  unfold State.newOp
  rw [if_neg (by omega), if_pos (by simp [hbad])]

/-- A long command whose number is free and that asked for no status record runs as the last operation. -/
theorem State.started_unasked (hroom : s.ops.length < 256) (hok : s.statusOk c = true) (hstatus : c.statusAddr = 0)
    (hfree : s.op s.opNext = none) : s.started c total work = s.opAdded { s.opOf c total work with st := 1 } := by
  have hnew : (s.opAdded (s.opOf c total work)).op s.opNext = some (s.opOf c total work) := by
    have hnone := hfree
    unfold State.op at hnone
    simp [State.op, State.opAdded, hnone, State.opOf]
  simp only [State.started, State.newOp_accepted total work hroom hok, State.opState_unasked hnew hstatus]
  have hold := map_setOp_of_absent (o := { s.opOf c total work with st := 1 }) (State.op_eq_none.mp hfree)
  have hops : (s.ops ++ [s.opOf c total work]).map
      (fun x => if x.num = s.opNext then { s.opOf c total work with st := 1 } else x) = s.ops ++ [{ s.opOf c total work with st := 1 }] := by
    rw [List.map_append]
    exact congr (congrArg _ hold) (by simp [State.opOf])
  exact congrArg (fun l => { s.opAdded (s.opOf c total work) with ops := l }) hops
end

/-! The status record (R333). -/

/-- Bytes 20 to 23 of the record are UPDATES. -/
theorem Op.record_updates (o : Op) (reckon : Nat) : ((o.record reckon).drop 20).take 4 = leBytes 4 o.updates := by
  simp [Op.record, leBytes]

/-- A write into the host memory of a PCIe physical function. -/
theorem State.putAt_host {s : State} {who : Nat} (hwho : idKind who = 1) (barn a : Nat) (bs : List Byte) :
    s.putAt 1 who barn a bs = { s with out := s.out ++ [.hostWrite 0 a bs] } := by
  simp [State.putAt, State.addrOk, hwho, idFnNum]

theorem State.opWrite_host {s : State} {o o1 : Op} (ha : o.statusAddr ≠ 0) (hk : o.akind = 1) (hwho : idKind o.who = 1) (hdb : o.sdb = false)
    (ho1 : o1 = { o with updates := (o.updates + 1) % 2 ^ 32 }) : s.opWrite o = { s.setOp o1 with
      out := s.out ++ [.hostWrite 0 o.statusAddr ((o1.record s.reckon).take 20), .hostWrite 0 (o.statusAddr + 24) ((o1.record s.reckon).drop 24),
        .hostWrite 0 (o.statusAddr + 20) (leBytes 4 o1.updates)] } := by
  subst ho1
  have hok : s.addrOk 1 o.who o.barn o.statusAddr 32 = true := by simp [State.addrOk, hwho]
  simp only [State.opWrite, if_neg ha, hk, hok, hdb, State.putAt_host hwho, Op.record_updates, Bool.not_true, Bool.false_eq_true, if_false,
    List.append_assoc, List.cons_append, List.nil_append, Nat.add_zero]
  rfl

theorem exec_opStatusPeriodic {s : State} {n : Nat} {o : Op} (h : s.op n = some o) : exec (.opStatusPeriodic n) s = .next (s.opWrite o) := by
  change execOpStatusPeriodic n s = _
  simp only [execOpStatusPeriodic, h]

/-! The end (R332, R335). -/

/-- The operation leaves those that run and joins the 1,024 ended last. -/
def State.opGone (s : State) (n : Nat) (o : Op) : State :=
  { s with ops := s.ops.filter fun x => decide (x.num ≠ n), opsEnded := lastN 1024 (s.opsEnded ++ [o]) }

theorem exec_operationEnd_runs {s : State} {n : Nat} {o : Op} (h : s.op n = some o) (hov : s.opOver o = none) :
    exec (.operationEnd n) s = .next s := by
  change execOperationEnd n s = _
  simp only [execOperationEnd, h, hov]

/-- An operation that asked for no status record: its end is what it changes, its place among the ended ones, and its notice. -/
theorem exec_operationEnd_over {s s1 : State} {n st r : Nat} {o o1 : Op} (h : s.op n = some o) (hov : s.opOver o = some (st, r))
    (hs : o.statusAddr = 0) (ho : o1 = { o with st := st, result := r }) (hrel : (s.setOp o1).opReleased o st = s1.setOp o1)
    (hop : s1.op n = some o) :
    exec (.operationEnd n) s = .next ((s1.opGone n o1).postNotice o.berth 0x02 (leBytes 4 n ++ leBytes 1 st ++ leBytes 1 r)) := by
  have hnum := State.op_num h
  have hstate : (s.opState n st r).opReleased o st = s1.setOp o1 := by rw [State.opState_unasked h hs, ← ho, hrel]
  have hfilter : (s1.setOp o1).ops.filter (fun x => decide (x.num ≠ n)) = s1.ops.filter fun x => decide (x.num ≠ n) := by
    have := s1.setOp_filter o1
    rwa [show o1.num = n by rw [ho, ← hnum]] at this
  have hfound : (s1.setOp o1).op n = some o1 := State.op_setOp hop (by rw [ho])
  change execOperationEnd n s = _
  unfold execOperationEnd
  simp only [h, hov, hstate, hfound, Option.getD_some, hfilter]
  rw [hnum]
  rfl

/-- Settles O42: each clause is the lemma above about the acceptance, the record or the end. -/
theorem longOperations : Obligations.LongOperations := by
  unfold Obligations.LongOperations
  refine ⟨?_, ?_, ?_, ?_, ?_, ?_, ?_, ?_, ?_, ?_, ?_, ?_⟩
  · exact fun s c total work hroom hok => ⟨s.opOf c total work, State.newOp_accepted total work hroom hok, rfl, rfl, rfl, rfl, rfl, rfl, rfl,
      rfl, rfl, rfl, rfl, rfl, rfl, rfl, rfl, rfl, rfl, rfl⟩
  · exact fun s c total work hfull => State.newOp_full total work hfull
  · exact fun s c total work hroom hbad => State.newOp_badStatus total work hroom hbad
  · exact fun s c total work hroom hok hstatus hfree => ⟨{ s.opOf c total work with st := 1 },
      State.started_unasked total work hroom hok hstatus hfree, rfl, rfl, rfl, rfl, rfl, rfl⟩
  · intro n s o h ha hk hwho hdb
    refine ⟨_, _, (exec_opStatusPeriodic h).trans (congrArg _ (State.opWrite_host ha hk hwho hdb rfl)), rfl, ?_, rfl, rfl⟩
    exact State.op_setOp h rfl
  · intro n s o h ha hbad
    rw [exec_opStatusPeriodic h]
    simp [State.opWrite, ha, hbad]
  · exact fun n s o h hs => (exec_opStatusPeriodic h).trans (by rw [State.opWrite_unasked hs])
  · intro n s o st r h hov hs h3 h4
    exact exec_operationEnd_over h hov hs rfl (by simp [State.opReleased, h3, h4]) h
  · intro n s o r b g gs h hop hw hov hs
    refine exec_operationEnd_over (s1 := s.configChanged b) h hov hs rfl ?_ h
    have hgrant : o.opcode = 0x0204 ∧ (2 : Nat) = 2 ∧ o.work.tail ≠ [] := by simp [hop, hw]
    rw [State.opReleased, if_pos hgrant, hw]
    rfl
  · exact fun n s o h hov => exec_operationEnd_runs h hov
  · intro s o x hx
    simp only [State.opOver, hx]
  · intro s o b gs hx hop hw
    simp [State.opOver, hx, hop, hw]

end Sys2Proof.Machine
end

section
/-! PROOFS. The helm pair (R319 to R323, R412, R413, R475). -/
namespace Sys2Proof.Machine

/-! What is posted reports nothing. -/

@[simp] theorem State.berthRaise_reports (s : State) (b n : Nat) : (s.berthRaise b n).reports = s.reports := by
  unfold State.berthRaise State.berthNotify
  (repeat' split) <;> simp

@[simp] theorem State.postNotice_reports (s : State) (b nkind : Nat) (body : List Byte) : (s.postNotice b nkind body).reports = s.reports := by
  unfold State.postNotice
  dsimp only
  (repeat' split) <;> simp

@[simp] theorem State.helmNotice_reports (s : State) : s.helmNotice.reports = s.reports := by simp [State.helmNotice]

@[simp] theorem State.repostNotice_reports (s : State) (b : Nat) (bytes : List Byte) : (s.repostNotice b bytes).reports = s.reports := by
  unfold State.repostNotice
  dsimp only
  split <;> simp

@[simp] theorem State.repostReply_reports (s : State) (b k : Nat) (bytes : List Byte) : (s.repostReply b k bytes).reports = s.reports := by
  unfold State.repostReply
  dsimp only
  split <;> simp

@[simp] theorem State.repostAll_reports (s : State) : s.repostAll.reports = s.reports :=
  foldl_field State.reports _ (fun s p => by (repeat' split) <;> simp) s.posted s

/-! Retirement (R320). -/

/-- One half is out: a count, SINGLE, and the report of class 1. -/
def State.halfRetired (s : State) (half : Nat) : State := { s with
  helm := { s.helm with st := .single, retired := some half, hold := false, retireA := s.helm.retireA + (1 - half), retireB := s.helm.retireB + half }
  reports := s.reports ++ [⟨0x30, half, 0, s.reckon, none⟩] }

theorem Helm.oneHalf_eq (h : Helm) {half : Nat} (hh : half < 2) : h.oneHalf half =
    { h with st := .single, retired := some half, hold := false, retireA := h.retireA + (1 - half), retireB := h.retireB + half } := by
  interval_cases half <;> rfl

theorem State.retireHalf_eq (s : State) {half : Nat} (hh : half < 2) : s.retireHalf half = (s.halfRetired half).helmNotice.repostAll := by
  have hu : { s.report 0x30 half 0 with helm := (s.report 0x30 half 0).helm.oneHalf half } = s.halfRetired half := by
    rw [Helm.oneHalf_eq _ hh]
    rfl
  rw [State.retireHalf, State.halfOut, hu]

theorem State.retireHalf_helm (s : State) {half : Nat} (hh : half < 2) : (s.retireHalf half).helm = (s.halfRetired half).helm := by
  rw [State.retireHalf, State.halfOut_helm, Helm.oneHalf_eq _ hh]
  rfl

/-! What the halves find of themselves (R319, R320, R322). -/

section
variable {s : State} (a b : Bool)

theorem exec_helmSelfCheckEnd_still (h : s.helm.st = .rom ∨ s.helm.stopped = true) : exec (.helmSelfCheckEnd a b) s = .next s := by
  change execHelmSelfCheckEnd a b s = _
  rcases h with h | h <;> simp [execHelmSelfCheckEnd, h]

variable (hgo : s.helm.stopped = false)
include hgo

theorem exec_helmSelfCheckEnd_paired (hst : s.helm.st = .paired) : exec (.helmSelfCheckEnd a b) s = .next (
    if s.helm.hold = false then s else if a = b then s.helmStop else s.retireHalf (if a = true then 0 else 1)) := by
  change execHelmSelfCheckEnd a b s = _
  by_cases hab : a = b
  · simp [execHelmSelfCheckEnd, hst, hgo, hab, apply_ite Host.Outcome.next]
  · simp [execHelmSelfCheckEnd, hst, hgo, hab, apply_ite Host.Outcome.next]

theorem exec_helmSelfCheckEnd_single (hst : s.helm.st = .single) {half : Nat} (hr : s.helm.retired = some half) (hh : half < 2) :
    exec (.helmSelfCheckEnd a b) s = .next (if (if half = 0 then b else a) = true then s.helmStop else s) := by
  change execHelmSelfCheckEnd a b s = _
  interval_cases half <;> simp [execHelmSelfCheckEnd, hst, hgo, hr, apply_ite Host.Outcome.next]

theorem exec_helmSelfCheckEnd_split (hst : s.helm.st = .split) : exec (.helmSelfCheckEnd a b) s = .next (
    if a = true ∧ b = true then s.helmStop
    else if a = true ∨ b = true then (s.updateFail 0x03).retireHalf (if a = true then 0 else 1) else s) := by
  change execHelmSelfCheckEnd a b s = _
  simp [execHelmSelfCheckEnd, hst, hgo, apply_ite Host.Outcome.next]
end

/-! The pair forms again (R321, step 6 of Table 13-2). -/

section
variable {s : State} (p : Bool)

theorem exec_helmReform_final (hst : s.helm.st = .single) (hf : s.helm.final = true) : exec (.helmReform p) s = .next s := by
  change execHelmReform p s = _
  cases hr : s.helm.retired <;> simp [execHelmReform, hst, hf, hr]

variable (hgo : s.helm.stopped = false)
include hgo

theorem exec_helmReform_single (hst : s.helm.st = .single) {half : Nat} (hr : s.helm.retired = some half) (hf : s.helm.final = false) :
    exec (.helmReform p) s = .next (if p = true ∧ (if half = 0 then s.helm.retireA else s.helm.retireB) < 3 then
      State.helmNotice { s with
        helm := { s.helm with
          st := .paired, retired := none
          fwA := if half = 0 then s.helm.fwB else s.helm.fwA, fwB := if half = 0 then s.helm.fwB else s.helm.fwA }
        reports := s.reports ++ [⟨0x30, half, 0, s.reckon, some 0⟩] }
    else { s with helm := { s.helm with final := true }, reports := s.reports ++ [⟨0x30, half, 0, s.reckon, some 2⟩] }) := by
  change execHelmReform p s = _
  unfold execHelmReform
  simp only [hst, hr, hgo, hf, Bool.false_eq_true, if_false, apply_ite Host.Outcome.next]
  rfl

theorem exec_helmReform_split (hst : s.helm.st = .split) {u : FwUpdate} (hu : s.helm.update = some u) (ht : u.takenOver = true) :
    exec (.helmReform p) s = .next (if p = true then
      State.helmNotice (State.opFin { s with
        helm := { s.helm with st := .paired, fwA := u.image.version, fwB := u.image.version, update := none }
        nv := s.nv.putFw s.helm.bootSlot u.image } u.op 2 0x00)
    else (s.updateFail 0x03).retireHalf 0) := by
  change execHelmReform p s = _
  unfold execHelmReform
  simp only [hst, hu, hgo, ht, Bool.not_true, Bool.false_eq_true, if_false, apply_ite Host.Outcome.next]
end

/-! An update (R322, R412, R413, Table 13-2). -/

theorem exec_fwUpdateSplit_still {s : State} (h : s.helm.update = none ∨ s.helm.st ≠ .paired ∨ s.helm.stopped = true) :
    exec .fwUpdateSplit s = .next s := by
  change execFwUpdateSplit s = _
  cases hu : s.helm.update with
  | none => simp only [execFwUpdateSplit, hu]
  | some u =>
    have hout : s.helm.st ≠ .paired ∨ s.helm.stopped = true := by simpa [hu] using h
    simp only [execFwUpdateSplit, hu, if_pos hout]

theorem exec_fwUpdateSplit_runs {s : State} {u : FwUpdate} (hu : s.helm.update = some u) (hst : s.helm.st = .paired)
    (hgo : s.helm.stopped = false) : exec .fwUpdateSplit s = .next (
      if u.image.typ = 2 then
        if s.nv.revokeOk u.image = true then
          State.opFin { s with
            helm := { s.helm with update := none }, nv := { s.nv with revoked := s.nv.revoked ||| 2 ^ u.image.revokes.val } } u.op 2 0x00
        else (State.opFin { s with helm := { s.helm with update := none } } u.op 3 0x01).report 0x30 1 0
      else if s.nv.fwRefusal u.image = none then State.helmNotice { s with helm := { s.helm with st := .split } }
      else (s.updateFail ((s.nv.fwRefusal u.image).getD 0)).report 0x30 1 0) := by
  have hin : ¬(s.helm.st ≠ .paired ∨ s.helm.stopped = true) := by simp [hst, hgo]
  change execFwUpdateSplit s = _
  simp only [execFwUpdateSplit, hu, if_neg hin]
  cases s.nv.fwRefusal u.image <;> simp [apply_ite Host.Outcome.next, State.updateReject]

theorem exec_fwUpdateTakeover {s : State} {u : FwUpdate} (v : Bool) (hst : s.helm.st = .split) (hu : s.helm.update = some u) :
    exec (.fwUpdateTakeover v) s = .next (
      if u.takenOver = true ∨ s.helm.stopped = true then s
      else if v = false then State.helmNotice { (s.updateFail 0x04).report 0x30 1 0 with helm := { s.helm with st := .paired, update := none } }
      else if ∃ x ∈ s.berths, ∃ y ∈ x.2.slots, y.2.st = .serving then s
      else State.repostAll { s with
        helm := { s.helm with fwB := u.image.version, image := some u.image, update := some { u with takenOver := true } } }) := by
  have hbusy : (s.berths.any fun x => x.2.slots.any fun y => decide (y.2.st = .serving)) = true
      ↔ ∃ x ∈ s.berths, ∃ y ∈ x.2.slots, y.2.st = .serving := by simp
  change execFwUpdateTakeover v s = _
  unfold execFwUpdateTakeover
  simp only [hst, hu, apply_ite Host.Outcome.next, hbusy, Bool.not_eq_true']
  rfl

theorem NonVol.fwRefusal_eq_none (nv : NonVol) (i : FwImage) : nv.fwRefusal i = none ↔
    i.typ = 1 ∧ i.signed = true ∧ bitAt nv.revoked i.keySlot.val = false ∧ nv.rollback ≤ i.svn := by
  unfold NonVol.fwRefusal
  by_cases hauth : i.typ ≠ 1 ∨ (!i.signed) = true ∨ bitAt nv.revoked i.keySlot.val = true
  · rw [if_pos hauth]
    simp only [Bool.not_eq_true'] at hauth
    simp only [reduceCtorEq, false_iff]
    rintro ⟨ht, hs, hk, -⟩
    simp [ht, hs, hk] at hauth
  · rw [if_neg hauth]
    push Not at hauth
    obtain ⟨ht, hs, hk⟩ := hauth
    simp only [Bool.not_eq_true', ne_eq, Bool.not_eq_false, Bool.not_eq_true] at hs hk
    simp [ht, hs, hk]

theorem NonVol.revokeOk_iff (nv : NonVol) (i : FwImage) : nv.revokeOk i = true ↔
    i.signed = true ∧ bitAt nv.revoked i.keySlot.val = false ∧ i.keySlot ≠ i.revokes ∧ ∃ k, k < 4 ∧ k ≠ i.revokes.val ∧ bitAt nv.revoked k = false := by
  simp [NonVol.revokeOk, and_assoc]

/-- Settles O48: each clause is the lemma above about its row. -/
theorem helmPair : Obligations.HelmPair := by
  unfold Obligations.HelmPair
  refine ⟨?_, ?_, ?_, ?_, ?_, ?_, ?_, ?_, ?_, ?_, ?_, ?_, ?_, ?_, ?_⟩
  · intro s
    change execHelmOutputMismatch s = _
    simp [execHelmOutputMismatch, apply_ite Host.Outcome.next]
  · exact fun a b s hst hgo => exec_helmSelfCheckEnd_paired a b hgo hst
  · exact fun a b s half hst hgo hr hh => exec_helmSelfCheckEnd_single a b hgo hst hr hh
  · exact fun a b s hst hgo => exec_helmSelfCheckEnd_split a b hgo hst
  · exact fun a b s h => exec_helmSelfCheckEnd_still a b h
  · exact fun half s hh => ⟨s.halfRetired half, s.retireHalf_eq hh, rfl, s.retireHalf_helm hh, by rw [s.retireHalf_eq hh]; simp,
      (s.retireHalf_keep half).2.2.1⟩
  · exact fun s => rfl
  · exact fun p s half hgo hst hr hf => exec_helmReform_single p hgo hst hr hf
  · exact fun p s hst hf => exec_helmReform_final p hst hf
  · exact fun p s u hst hu ht hgo => exec_helmReform_split p hgo hst hu ht
  · exact fun s h => exec_fwUpdateSplit_still h
  · exact fun s u hu hst hgo => exec_fwUpdateSplit_runs hu hst hgo
  · exact fun v s u hst hu => exec_fwUpdateTakeover v hst hu
  · exact fun nv i => nv.fwRefusal_eq_none i
  · exact fun nv i => nv.revokeOk_iff i

end Sys2Proof.Machine
end

section
/-! PROOFS. The commands of operations, helm, attestation and keys (R323, R334, R339, R342, R412 to R422, R205, R206). -/
namespace Sys2Proof.Machine

/-! Long commands that are accepted (R332). -/

theorem State.started_accepted {s : State} {c : Cmd} (total : Nat) (work : List Nat) (hroom : s.ops.length < 256) (hok : s.statusOk c = true) :
    s.started c total work = (s.opAdded (s.opOf c total work)).opState s.opNext 1 0 := by
  simp only [State.started, State.newOp_accepted total work hroom hok]

section
variable {s : State} {b k opcode need : Nat} {c : Cmd} (h : s.askedLong b k opcode need c)
include h

theorem State.runOp_accepted (total : Nat) (work : List Nat) (f : Nat → State → State) :
    s.runOp c total work f = (Rep.accepted s.opNext, f s.opNext (s.started c total work)) := by
  obtain ⟨-, hroom, hok⟩ := h
  simp only [State.runOp, State.newOp_accepted total work hroom hok, State.started_accepted total work hroom hok]

theorem State.quickOp_accepted (f : Nat → State → State) :
    s.quickOp c f = (Rep.accepted s.opNext, (f s.opNext (s.started c 0 [])).opFin s.opNext 2 0) := State.runOp_accepted h 0 [] _

end

/-- A command answered at once, without an effect. -/
theorem serve_answers {s : State} {b k opcode need : Nat} {c : Cmd} (h : s.asked b k opcode need c) {berths : Nat → Bool}
    (hb : berths b = true) {f : Cmd → State → Rep × State} {r : Rep} (hf : f c s = (r, s)) :
    serve b k opcode berths need f s = .next (s.answered b k c r) := by
  rw [serve_of_asked h hb, hf]

/-! OP_CANCEL (R205, R206, R334). -/

/-- An operation under BIST gives its cores to the zeroing. -/
def State.bistStop (s : State) (c : Nat) : State := s.onCore c fun k => if k.power = .bist then { k with power := .zeroing } else k

theorem State.core_bistStop (s : State) (c n : Nat) : (s.bistStop c).core n =
    if n = c ∧ (s.core n).power = .bist then { s.core n with power := .zeroing } else s.core n := by
  unfold State.bistStop State.onCore
  rw [State.core_setCore]
  by_cases hn : n = c
  · subst hn
    simp
  · simp [hn]

theorem State.core_foldl_bistStop (l : List Nat) (s : State) (n : Nat) : (l.foldl State.bistStop s).core n =
    if n ∈ l ∧ (s.core n).power = .bist then { s.core n with power := .zeroing } else s.core n := by
  induction l generalizing s with
  | nil => simp
  | cons c l ih =>
    rw [List.foldl_cons, ih, State.core_bistStop]
    by_cases hc : n = c ∧ (s.core n).power = .bist
    · obtain ⟨rfl, hp⟩ := hc
      simp [hp]
    · rw [if_neg hc]
      refine if_congr ?_ rfl rfl
      rw [List.mem_cons]
      tauto

/-- What a cancelled operation's requests and tests leave: its requests are withdrawn, then its cores stop their test. -/
def State.withdrawn (s : State) (o : Op) : State :=
  (((s.calQueue.map fun r => { r with ops := r.ops.filter fun n => decide (n ≠ o.num) }).filter fun r => r.ops.isEmpty).foldl
    (fun s r => if 512 ≤ r.link then s.onPort (r.link - 512) fun x => { x with maintDeferred := false } else s)
    { s with
      calQueue := (s.calQueue.map fun r => { r with ops := r.ops.filter fun n => decide (n ≠ o.num) }).filter fun r => !r.ops.isEmpty
      zones := s.zones.map fun (z, x) => (z, { x with ops := x.ops.filter fun n => decide (n ≠ o.num) })
      bist := s.bist.filter fun c => !o.work.contains c
      standby := if s.standby = some o.num then none else s.standby })

theorem State.cancelOp_eq (s : State) (o : Op) :
    s.cancelOp o = ((o.work.filter fun c => s.bist.contains c).foldl State.bistStop (s.withdrawn o)).opFin o.num 5 0x25 := rfl

/-- A field that neither ports nor cores hold is as the withdrawal sets it. -/
theorem State.withdrawn_field {β : Type} (g : State → β) (hport : ∀ s p f, g (State.onPort s p f) = g s) (s : State) (o : Op) :
    g (s.withdrawn o) = g { s with
      calQueue := (s.calQueue.map fun r => { r with ops := r.ops.filter fun n => decide (n ≠ o.num) }).filter fun r => !r.ops.isEmpty
      zones := s.zones.map fun (z, x) => (z, { x with ops := x.ops.filter fun n => decide (n ≠ o.num) })
      bist := s.bist.filter fun c => !o.work.contains c
      standby := if s.standby = some o.num then none else s.standby } := by
  unfold State.withdrawn
  refine foldl_field g _ (fun s r => ?_) _ _
  rw [apply_ite g, hport, ite_self]

theorem State.cancelOp_field {β : Type} (g : State → β) (hcore : ∀ s c f, g (State.onCore s c f) = g s)
    (hops : ∀ (s : State) l, g { s with ops := l } = g s) (s : State) (o : Op) : g (s.cancelOp o) = g (s.withdrawn o) := by
  obtain ⟨m, hm⟩ := ((o.work.filter fun c => s.bist.contains c).foldl State.bistStop (s.withdrawn o)).opFin_ops o.num 5 0x25
  rw [State.cancelOp_eq, hm, hops]
  exact foldl_field g State.bistStop (fun s c => hcore s c _) _ _

/-- The end of an operation that runs is noted in it. -/
theorem State.op_opFin {s : State} {n st r : Nat} {o : Op} (h : s.op n = some o) (hf : o.fin = none) :
    (s.opFin n st r).op n = some { o with fin := some (st, r) } := by
  simp only [State.opFin, h, hf, Option.isSome_none, Bool.false_eq_true, if_false]
  exact State.op_setOp h rfl

theorem State.cancelOp_op {s : State} {o : Op} (h : s.op o.num = some o) (hf : o.fin = none) :
    (s.cancelOp o).op o.num = some { o with fin := some (5, 0x25) } := by
  rw [State.cancelOp_eq]
  refine State.op_opFin ?_ hf
  have hops : ((o.work.filter fun c => s.bist.contains c).foldl State.bistStop (s.withdrawn o)).ops = s.ops :=
    (foldl_field State.ops State.bistStop (fun _ _ => rfl) _ _).trans (State.withdrawn_field State.ops (fun _ _ _ => rfl) s o)
  simp only [State.op, hops]
  exact h

theorem State.cancelOp_core (s : State) (o : Op) (c : Nat) : (s.cancelOp o).core c =
    if c ∈ o.work ∧ c ∈ s.bist ∧ (s.core c).power = .bist then { s.core c with power := .zeroing } else s.core c := by
  have hcore : (s.withdrawn o).core c = s.core c := State.withdrawn_field (State.core · c) (fun _ _ _ => rfl) s o
  obtain ⟨m, hm⟩ := ((o.work.filter fun c => s.bist.contains c).foldl State.bistStop (s.withdrawn o)).opFin_ops o.num 5 0x25
  have hfin : (s.cancelOp o).core c = ((o.work.filter fun c => s.bist.contains c).foldl State.bistStop (s.withdrawn o)).core c := by
    rw [State.cancelOp_eq, hm]
    rfl
  rw [hfin, State.core_foldl_bistStop, hcore]
  refine if_congr ?_ rfl rfl
  simp [and_assoc]

/-- Settles O43: each row is `serve` with its own work, whose branch the conditions name. -/
theorem helmCommands : Obligations.HelmCommands := by
  unfold Obligations.HelmCommands
  refine ⟨?nop, ?status, ?noStatus, ?cancel, ?cancelOp, ?cancelOther, ?noCancel, ?force, ?noForce, ?info, ?helm, ?update, ?noUpdate, ?designate,
    ?attest, ?attestOther, ?chain, ?extend, ?peers, ?key, ?svn, ?noSvn, ?minSvn, ?noMinSvn⟩
  case nop =>
    intro b k s c h
    change execNop b k s = _
    unfold execNop
    exact serve_answers h rfl rfl
  case status =>
    intro b k s c o h ho
    change execOpStatus b k s = _
    unfold execOpStatus
    exact serve_answers h rfl (by simp only [ho])
  case noStatus =>
    intro b k s c h ho
    change execOpStatus b k s = _
    unfold execOpStatus
    exact serve_answers h rfl (by simp only [ho])
  case cancel =>
    intro b k s c o h ho hmay hop hf
    change execOpCancel b k s = _
    unfold execOpCancel
    refine (serve_of_asked h rfl _).trans ?_
    simp only [ho, hmay, Bool.not_true, Bool.false_eq_true, if_false, hf, Option.isNone_none, and_true, if_pos hop]
  case cancelOp =>
    exact fun s o h hf => ⟨by rw [State.cancelOp_op h hf]; rfl,
      (State.cancelOp_field State.bist (fun _ _ _ => rfl) (fun _ _ => rfl) s o).trans (State.withdrawn_field State.bist (fun _ _ _ => rfl) s o),
      (State.cancelOp_field State.calQueue (fun _ _ _ => rfl) (fun _ _ => rfl) s o).trans
        (State.withdrawn_field State.calQueue (fun _ _ _ => rfl) s o), State.cancelOp_core s o⟩
  case cancelOther =>
    intro b k s c o h ho hmay
    change execOpCancel b k s = _
    unfold execOpCancel
    exact serve_answers h rfl (by simp [ho, hmay])
  case noCancel =>
    intro b k s c h hno
    change execOpCancel b k s = _
    unfold execOpCancel
    refine serve_answers h rfl ?_
    rcases hno with ho | ⟨o, ho, hmay, hend⟩
    · simp only [ho]
    · have hnot : ¬((o.opcode = 0x0503 ∨ o.opcode = 0x0601) ∧ o.fin.isNone = true) := by
        rw [Option.isNone_iff_eq_none]
        tauto
      simp only [ho, hmay, Bool.not_true, Bool.false_eq_true, if_false, if_neg hnot]
  case force =>
    intro b k s c o r h hb ho hmay hr
    change execOpForce b k s = _
    unfold execOpForce
    refine (serve_of_asked h hb _).trans ?_
    simp only [ho, hmay, Bool.not_true, Bool.false_eq_true, if_false, hr]
  case noForce =>
    intro b k s c o h hb ho hmay hr
    change execOpForce b k s = _
    unfold execOpForce
    have hnone : (s.calQueue.find? fun r => r.ops.contains o.num) = none := by simpa using hr
    exact serve_answers h hb (by simp only [ho, hmay, Bool.not_true, Bool.false_eq_true, if_false, hnone])
  case info =>
    rintro b k s c n hb h rfl hn
    change execBerthInfo b k s = _
    unfold execBerthInfo
    exact serve_answers h (by simp [at256, hb]) (by simp only [if_neg (Nat.not_le.mpr hn)])
  case helm =>
    intro b k s c hb h
    change execHelmStatus b k s = _
    unfold execHelmStatus
    exact serve_answers h (by rcases hb with hb | hb | hb <;> simp [hb]) rfl
  case update =>
    rintro b k i s s1 c hb h hst hu hbuf rfl
    change execFwUpdate b k i s = _
    unfold execFwUpdate
    rw [serve_of_asked h.1 (by simp [at256, hb])]
    simp only [hst, hu, hbuf, ne_eq, not_true_eq_false, Option.isSome_none, Bool.not_true, Bool.false_eq_true, or_self, if_false, State.runOp_accepted h]
    rfl
  case noUpdate =>
    intro b k i s c hb h hno
    change execFwUpdate b k i s = _
    unfold execFwUpdate
    have hbusy : s.helm.st ≠ .paired ∨ s.helm.update.isSome = true := by rwa [Option.isSome_iff_ne_none]
    exact serve_answers h (by simp [at256, hb]) (by simp only [if_pos hbusy])
  case designate =>
    rintro b k s c l hb h hA hB rfl
    change execFmDesignate b k s = _
    unfold execFmDesignate
    refine (serve_of_asked h (by simp [at256, hb]) _).trans ?_
    simp only [if_neg (show ¬(0x8000 < c.at 0 2 ∨ 0x8000 < c.at 2 2) by omega)]
  case attest =>
    rintro b k s c body hb h hown hex hbuf rfl
    change execAttest b k s = _
    unfold execAttest
    have hnamed : ¬(c.at 0 2 ≠ 0xFFFF ∧ (!s.barnExists (c.at 0 2)) = true) := by
      rintro ⟨hA, hB⟩
      rcases hex with h | h
      · exact hA h
      · simp [h] at hB
    rw [serve_of_asked h.1 hb]
    simp only [hown, Bool.not_true, Bool.false_eq_true, if_false, if_neg hnamed, hbuf, State.quickOp_accepted h]
    rfl
  case attestOther =>
    intro b k s c hb h hown
    change execAttest b k s = _
    unfold execAttest
    exact serve_answers h hb (by simp [hown])
  case chain =>
    intro b k s c i hb h hbuf hi
    change execCertChain b k s = _
    unfold execCertChain
    rw [serve_of_asked h.1 hb]
    simp only [hbuf, hi, Bool.not_true, Bool.false_eq_true, if_false, State.quickOp_accepted h]
    rfl
  case extend =>
    intro b k s c hb h
    change execMeasureExtend b k s = _
    unfold execMeasureExtend
    rw [serve_of_asked h.1 (by simp [atBarn, hb])]
    simp only [State.quickOp_accepted h]
    rfl
  case peers =>
    intro b k s c hb h hk hbuf
    change execBarnPeers b k s = _
    unfold execBarnPeers
    rw [serve_of_asked h.1 (by simp [atBarn, hb])]
    simp only [hk, hbuf, State.bufIn, ne_eq, not_true_eq_false, Bool.not_true, Bool.false_eq_true, OfNat.ofNat_ne_one, if_false, State.quickOp_accepted h]
    rfl
  case key =>
    intro b k s c x hb h hk hbuf hok hx
    change execKeyImport b k s = _
    unfold execKeyImport
    rw [serve_of_asked h.1 (by simp [atBarn, hb])]
    simp only [hk, hbuf, hok, hx, State.bufIn, ne_eq, not_true_eq_false, Bool.not_true, Bool.false_eq_true, or_self, OfNat.ofNat_ne_one, if_false, State.quickOp_accepted h]
    rfl
  case svn =>
    intro b k s c i hb h hi hst hA hB
    change execSvnAdvance b k s = _
    unfold execSvnAdvance
    rw [serve_of_asked h.1 (by simp [at256, hb])]
    simp only [hi, hst, hA, hB, ne_eq, not_true_eq_false, or_self, if_false, State.quickOp_accepted h]
    rfl
  case noSvn =>
    intro b k s c i hb h hi hno
    change execSvnAdvance b k s = _
    unfold execSvnAdvance
    exact serve_answers h (by simp [at256, hb]) (by simp only [hi, if_pos hno])
  case minSvn =>
    intro b k s c hb h hA hB
    change execPeerMinSvn b k s = _
    unfold execPeerMinSvn
    rw [serve_of_asked h.1 (by simp [at256, hb])]
    simp only [if_neg (show ¬(64 < c.at 0 4 ∨ c.at 0 4 < s.peerMinSvn) by omega), State.quickOp_accepted h]
    rfl
  case noMinSvn =>
    intro b k s c hb h hno
    change execPeerMinSvn b k s = _
    unfold execPeerMinSvn
    exact serve_answers h (by simp [at256, hb]) (by simp only [if_pos hno])

end Sys2Proof.Machine
end

section
/-! PROOFS. What packets on their way, resets and operations leave alone: bring-up, the helm, the gleaner, sensors, pins and the units in service. -/
namespace Sys2Proof.Machine

/-- The reports of cores that failed their self-test. -/
def State.bistReports (s : State) : List Report := s.reports.filter fun r => decide (r.kind = 0x04)

/-- What no traffic of packets and no reset of a core touches. -/
def State.steady (s : State) : State := { State.reset with
  ready := s.ready, coreDown := s.coreDown, dieDown := s.dieDown, clusterDown := s.clusterDown, clusterUp := s.clusterUp
  clusterOwner := s.clusterOwner, barns := s.barns, meshDown := s.meshDown, dieCause := s.dieCause, sensors := s.sensors, helm := s.helm
  gleaner := s.gleaner, pins := s.pins, bu := s.bu, cross := s.cross, plan := s.plan, selfNum := s.selfNum, reckon := s.reckon, clock := s.clock
  reports := s.bistReports }

/-! Tables that the projection leaves out. -/

@[simp] theorem steady_withOut (s : State) (x) : ({ s with out := x } : State).steady = s.steady := rfl
@[simp] theorem steady_net (s : State) (x) : ({ s with net := x } : State).steady = s.steady := rfl
@[simp] theorem steady_ops (s : State) (x) : ({ s with ops := x } : State).steady = s.steady := rfl
@[simp] theorem steady_shLate (s : State) (x) : ({ s with shLate := x } : State).steady = s.steady := rfl
@[simp] theorem steady_sheaf (s : State) (x) : ({ s with sheaf := x } : State).steady = s.steady := rfl
@[simp] theorem steady_sheafEarly (s : State) (x) : ({ s with sheafEarly := x } : State).steady = s.steady := rfl
@[simp] theorem steady_aptReqs (s : State) (x) : ({ s with aptReqs := x } : State).steady = s.steady := rfl
@[simp] theorem steady_aptReads (s : State) (x) : ({ s with aptReads := x } : State).steady = s.steady := rfl
@[simp] theorem steady_aptWait (s : State) (x) : ({ s with aptWait := x } : State).steady = s.steady := rfl
@[simp] theorem steady_advised (s : State) (x) : ({ s with advised := x } : State).steady = s.steady := rfl
@[simp] theorem steady_readAhead (s : State) (x) : ({ s with readAhead := x } : State).steady = s.steady := rfl
@[simp] theorem steady_calQueue (s : State) (x) : ({ s with calQueue := x } : State).steady = s.steady := rfl
@[simp] theorem steady_dieWait (s : State) (x) : ({ s with dieWait := x } : State).steady = s.steady := rfl
@[simp] theorem steady_berths (s : State) (x) : ({ s with berths := x } : State).steady = s.steady := rfl

theorem foldl_steady {α : Type} (f : State → α → State) (l : List α) (s : State) (hf : ∀ s a, (f s a).steady = s.steady) :
    (l.foldl f s).steady = s.steady := foldl_field State.steady f hf l s

/-! One lemma per operation on the state, in the order of the model. -/

@[simp] theorem steady_setCore (s : State) (c : Nat) (k : Core) : (s.setCore c k).steady = s.steady := rfl
@[simp] theorem steady_onCore (s : State) (c : Nat) (f : Core → Core) : (s.onCore c f).steady = s.steady := rfl
@[simp] theorem steady_setTh (s : State) (c t : Nat) (h : Thread) : (s.setTh c t h).steady = s.steady := rfl
@[simp] theorem steady_setGw (s : State) (g : Nat) (w : Gateway) : (s.setGw g w).steady = s.steady := rfl
@[simp] theorem steady_setBerth (s : State) (b : Nat) (h : Berth) : (s.setBerth b h).steady = s.steady := rfl
@[simp] theorem steady_setPort (s : State) (p : Nat) (e : EdgePort) : (s.setPort p e).steady = s.steady := rfl
@[simp] theorem steady_setFn (s : State) (f : Nat) (x : Fn) : (s.setFn f x).steady = s.steady := rfl
@[simp] theorem steady_onMctr (s : State) (b : Nat) (f : MemCtr → MemCtr) : (s.onMctr b f).steady = s.steady := rfl
@[simp] theorem steady_onFctr (s : State) (b : Nat) (f : FabCtr → FabCtr) : (s.onFctr b f).steady = s.steady := rfl
@[simp] theorem steady_free (s : State) (w : Nat) : (s.free w).2.steady = s.steady := rfl
@[simp] theorem steady_report (s : State) {kind : Nat} (hk : kind ≠ 0x04) (unit detail : Nat) : (s.report kind unit detail).steady = s.steady := by
  simp [State.steady, State.bistReports, State.report, hk]
@[simp] theorem steady_msix (s : State) (f vec : Nat) : (s.msix f vec).steady = s.steady := by
  unfold State.msix
  dsimp only
  (repeat' split) <;> rfl
@[simp] theorem steady_berthNotify (s : State) (b n : Nat) : (s.berthNotify b n).steady = s.steady := by
  simp [State.berthNotify, apply_ite State.steady]
@[simp] theorem steady_berthRaise (s : State) (b n : Nat) : (s.berthRaise b n).steady = s.steady := by
  simp [State.berthRaise]
@[simp] theorem steady_postNotice (s : State) (b nkind : Nat) (body : List Byte) : (s.postNotice b nkind body).steady = s.steady := by
  unfold State.postNotice
  dsimp only
  split
  · split
    · simp
    · exact steady_berthRaise _ _ _
  · rfl
@[simp] theorem steady_thread0Notice (s : State) (c : Nat) : (s.thread0Notice c).steady = s.steady := by
  unfold State.thread0Notice
  dsimp only
  (repeat' split) <;> simp
@[simp] theorem steady_raise (s : State) (c t code status extra pc addr : Nat) : (s.raise c t code status extra pc addr).steady = s.steady := by
  simp [State.raise, apply_ite State.steady]
@[simp] theorem steady_gangLose (s : State) (c line : Nat) (hit : Bool) : (s.gangLose c line hit).steady = s.steady := by
  unfold State.gangLose
  dsimp only
  (repeat' split) <;> rfl
@[simp] theorem steady_onMeter (s : State) (b : Nat) (f : MeterOpen → MeterOpen) : (s.onMeter b f).steady = s.steady := rfl
@[simp] theorem steady_setTally (s : State) (g n v : Nat) : (s.setTally g n v).steady = s.steady := rfl
@[simp] theorem steady_addTally (s : State) (g n v : Nat) : (s.addTally g n v).steady = s.steady := rfl
@[simp] theorem steady_setLink (s : State) (l : Nat) (x : Link) : (s.setLink l x).steady = s.steady := rfl
@[simp] theorem steady_setLane (s : State) (n : Nat) (x : Lane) : (s.setLane n x).steady = s.steady := rfl
@[simp] theorem steady_toPort (s : State) (port : Nat) (p : Pkt) (arr : Option (Nat × Nat)) : (s.toPort port p arr).steady = s.steady := rfl
@[simp] theorem steady_linkPut (s : State) (l : Nat) (q : LinkPkt) : (s.linkPut l q).steady = s.steady := rfl
theorem steady_linkSend {s : State} {d : Nat} {q : LinkPkt} {t : State} (h : (State.linkSend s d q) = some t) : t.steady = s.steady := by
  unfold State.linkSend at h
  dsimp only at h
  (repeat' split at h) <;> cases h
  · rfl
  · simp
@[simp] theorem steady_unreachedAt (s : State) (d : Nat) (p : Pkt) : (s.unreachedAt d p).steady = s.steady := by
  unfold State.unreachedAt
  dsimp only
  (repeat' split) <;> rfl
@[simp] theorem steady_inside (s : State) (d : Nat) (p : Pkt) : (s.inside d p).steady = s.steady := by
  unfold State.inside
  split
  · rfl
  · cases hsend : s.linkSend d ⟨p, none, none⟩ with
    | none => simp
    | some t => simpa using steady_linkSend hsend
@[simp] theorem steady_towardPort (s : State) (d port : Nat) (p : Pkt) (arr : Option (Nat × Nat)) :
    (s.towardPort d port p arr).steady = s.steady := by
  unfold State.towardPort
  split
  · simp
  · cases hsend : s.linkSend d ⟨p, arr, some port⟩ with
    | none => simp
    | some t => simpa using steady_linkSend hsend
@[simp] theorem steady_setSwin (s : State) (k : Nat) (w : SrcWin) : (s.setSwin k w).steady = s.steady := rfl
@[simp] theorem steady_meterTx (s : State) (p : Pkt) : (s.meterTx p).steady = s.steady := by
  simp [State.meterTx, apply_ite State.steady]
@[simp] theorem steady_dispatch (s : State) (p : Pkt) : (s.dispatch p).steady = s.steady := by
  unfold State.dispatch
  dsimp only
  (repeat' split) <;> simp
@[simp] theorem steady_askWindow (s : State) (dest tc : Nat) : (s.askWindow dest tc).steady = s.steady := by
  simp [State.askWindow, apply_ite State.steady]
@[simp] theorem steady_serve (s : State) (k : Nat) (p : Pkt) : (s.serve k p).steady = s.steady := by
  simp [State.serve]
@[simp] theorem steady_atWindow (s : State) (p : Pkt) : (s.atWindow p).steady = s.steady := by
  simp [State.atWindow, apply_ite State.steady]
@[simp] theorem steady_egress (s : State) (p : Pkt) : (s.egress p).steady = s.steady := by
  simp [State.egress, apply_ite State.steady]
@[simp] theorem steady_stampPair (s : State) (p : Pkt) : (s.stampPair p).2.steady = s.steady := by
  unfold State.stampPair
  dsimp only
  (repeat' split) <;> rfl
@[simp] theorem steady_stampAll (s : State) (l : List Pkt) : (stampAll s l).2.steady = s.steady := by
  induction l generalizing s with
  | nil => rfl
  | cons a l ih => simp [stampAll, ih]
theorem steady_submit {s : State} {p : Pkt} {e : Bool} {l : List Pkt} {t : State} (h : s.submit p e = .inr (l, t)) : t.steady = s.steady := by
  unfold State.submit at h
  (repeat' split at h) <;> cases h
  next hall => rw [steady_onFctr, ← steady_stampAll s, hall]
@[simp] theorem steady_coreSend (s : State) (c : Nat) (p : Pkt) : (s.coreSend c p).steady = s.steady := rfl
@[simp] theorem steady_coreSendAll (s : State) (c : Nat) (l : List Pkt) : (coreSendAll s c l).steady = s.steady := by
  induction l generalizing s with
  | nil => rfl
  | cons a l ih => simp [coreSendAll, ih]
@[simp] theorem steady_egressAll (s : State) (l : List Pkt) : (egressAll s l).steady = s.steady := by
  induction l generalizing s with
  | nil => rfl
  | cons a l ih => simp [egressAll, ih]
@[simp] theorem steady_orphanReply (s : State) (g who src tag : Nat) : (s.orphanReply g who src tag).steady = s.steady := by
  unfold State.orphanReply
  dsimp only
  (repeat' split) <;> simp
@[simp] theorem steady_setDwin (s : State) (k : Nat) (w : DstWin) : (s.setDwin k w).steady = s.steady := rfl
@[simp] theorem steady_pump (s : State) (k : Nat) : (s.pump k).steady = s.steady := by
  unfold State.pump
  dsimp only
  (repeat' split) <;> simp
@[simp] theorem steady_freed (s : State) (p : Pkt) : (s.freed p).steady = s.steady := by
  simp [State.freed, apply_ite State.steady]
@[simp] theorem steady_setGranule (s : State) (n : Nat) (g : Granule) : (s.setGranule n g).steady = s.steady := rfl
@[simp] theorem steady_wantRepair (s : State) (g detail : Nat) : (s.wantRepair g detail).steady = s.steady := by
  unfold State.wantRepair
  split <;> rfl
@[simp] theorem steady_hbmStore (s : State) (l : Nat) (bs : List Byte) : (s.hbmStore l bs).steady = s.steady := rfl
@[simp] theorem steady_copyOver (s : State) (g trk : Nat) (t : Tracker) (st : Nat) : (s.copyOver g trk t st).steady = s.steady := by
  unfold State.copyOver
  dsimp only
  (repeat' split) <;> simp <;> rfl
@[simp] theorem steady_copyEnd (s : State) (g trk : Nat) : (s.copyEnd g trk).steady = s.steady := by
  unfold State.copyEnd
  dsimp only
  split
  · rfl
  · split
    · split
      · split <;> simp
      · next s1 h =>
        have hs1 : s1.steady = s.steady := by
          (repeat' split at h) <;> cases h
          · next hsub => simp [steady_submit hsub]
          · rfl
          · rfl
        rw [steady_copyOver, hs1]
    · rfl
@[simp] theorem steady_segDone (s : State) (g barn src tag status : Nat) : (s.segDone g barn src tag status).steady = s.steady := by
  unfold State.segDone
  dsimp only
  (repeat' split) <;> simp
@[simp] theorem steady_storeFailed (s : State) (c t addr status : Nat) : (s.storeFailed c t addr status).steady = s.steady := rfl
@[simp] theorem steady_stampCpl (s : State) (p : Pkt) (op st : Nat) (data : List Byte) : (s.stampCpl p op st data).2.steady = s.steady := by
  simp [State.stampCpl]
@[simp] theorem steady_answer (s : State) (p : Pkt) (op st : Nat) (data : List Byte) : (s.answer p op st data).steady = s.steady := by
  simp [State.answer]
@[simp] theorem steady_onPairRec (s : State) (n : Nat) (f : PairRec → PairRec) : (s.onPairRec n f).steady = s.steady := rfl
@[simp] theorem steady_freezePair (s : State) (r : PairDesc) : (s.freezePair r).steady = s.steady := rfl
@[simp] theorem steady_helmSend (s : State) (pkg : Nat) (what : Nat) (body : List Byte) : (s.helmSend pkg what body).steady = s.steady := by
  simp [State.helmSend]
@[simp] theorem steady_pairFault (s : State) (n : Nat) (report : Bool) : (s.pairFault n report).steady = s.steady := by
  unfold State.pairFault
  dsimp only
  (repeat' split) <;> simp (disch := (intros; (repeat' split) <;> simp)) [foldl_steady]
@[simp] theorem steady_setChaff (s : State) (k : Nat) (w : ChaffWin) : (s.setChaff k w).steady = s.steady := rfl
@[simp] theorem steady_answerAll (s : State) (st : Nat) (data : List Byte) (l : List Pkt) : (answerAll s st data l).steady = s.steady := by
  induction l generalizing s with
  | nil => rfl
  | cons a l ih => simp [answerAll, ih]
@[simp] theorem steady_chaffDone (s : State) (p : Pkt) (st : Nat) (data : List Byte) : (s.chaffDone p st data).steady = s.steady := by
  unfold State.chaffDone
  dsimp only
  (repeat' split) <;> simp
@[simp] theorem steady_reply (s : State) (p : Pkt) (op st : Nat) (data : List Byte) : (s.reply p op st data).steady = s.steady := by
  simp [State.reply]
@[simp] theorem steady_putCtx (s : State) (x : ShCtx) : (s.putCtx x).steady = s.steady := rfl
@[simp] theorem steady_shLeave (s : State) (n : NodeId) (barn : Nat) (l : List ShSent) : (shLeave s n barn l).steady = s.steady := by
  induction l generalizing s with
  | nil => rfl
  | cons a l ih => simp [shLeave, ih, apply_ite State.steady]
@[simp] theorem steady_dropCtxs (s : State) (hit : ShCtx → Bool) : (s.dropCtxs hit).steady = s.steady := foldl_steady _ _ _ fun _ _ => by simp
@[simp] theorem steady_endCtx (s : State) (x : ShCtx) (aborted : Bool) : (s.endCtx x aborted).steady = s.steady := by
  simp [State.endCtx]
@[simp] theorem steady_nodeSend (s : State) (n : NodeId) (ps : List Pkt) : (s.nodeSend n ps).steady = s.steady := by
  simp [State.nodeSend, apply_ite State.steady]
@[simp] theorem steady_shCtrl (s : State) (x : ShCtx) (dst what : Nat) : (s.shCtrl x dst what).steady = s.steady := by
  simp [State.shCtrl, apply_ite State.steady]
@[simp] theorem steady_ctrlAll (s : State) (x : ShCtx) (what : Nat) (l : List Nat) : (ctrlAll s x what l).steady = s.steady := by
  induction l generalizing s with
  | nil => rfl
  | cons a l ih => simp [ctrlAll, ih]
@[simp] theorem steady_shAbort (s : State) (x : ShCtx) : (s.shAbort x).steady = s.steady := by
  simp [State.shAbort, apply_ite State.steady]
@[simp] theorem steady_shCpl (s : State) (n : NodeId) (src rtag status : Nat) : (s.shCpl n src rtag status).steady = s.steady := by
  unfold State.shCpl
  dsimp only
  (repeat' split) <;> simp
@[simp] theorem steady_reqDone (s : State) (c src tag st : Nat) (data : List Byte) : (s.reqDone c src tag st data).steady = s.steady := by
  unfold State.reqDone
  dsimp only
  (repeat' split) <;> simp
@[simp] theorem steady_aptError (s : State) (f addr st : Nat) : (s.aptError f addr st).steady = s.steady := rfl
@[simp] theorem steady_aptReadDone (s : State) (id : Nat) : (s.aptReadDone id).steady = s.steady := by
  unfold State.aptReadDone
  dsimp only
  (repeat' split) <;> rfl
@[simp] theorem steady_aptPiece (s : State) (id off : Nat) (bs : Option (List Byte)) : (s.aptPiece id off bs).steady = s.steady := by
  unfold State.aptPiece
  dsimp only
  (repeat' split) <;> simp
@[simp] theorem steady_aptPump (kept : List (Nat × Pkt)) (s : State) (l : List (Nat × Pkt)) : (aptPump kept s l).steady = s.steady := by
  induction l generalizing s kept with
  | nil => rfl
  | cons a l ih =>
    unfold aptPump
    split
    · exact ih _ _
    · exact (ih _ _).trans (steady_egress _ _)
@[simp] theorem steady_bridgeDone (s : State) (src tag st : Nat) (data : List Byte) : (s.bridgeDone src tag st data).steady = s.steady := by
  unfold State.bridgeDone
  dsimp only
  (repeat' split) <;> simp
@[simp] theorem steady_deliverCpl (s : State) (p : Pkt) (st : Nat) (data : List Byte) : (s.deliverCpl p st data).steady = s.steady := by
  unfold State.deliverCpl
  dsimp only
  (repeat' split) <;> simp
@[simp] theorem steady_calWrite (s : State) (sec off : Nat) (bs : List Byte) : (s.calWrite sec off bs).steady = s.steady := rfl
@[simp] theorem steady_setLatency (s : State) (l cycles : Nat) : (s.setLatency l cycles).steady = s.steady := by
  simp [State.setLatency, apply_ite State.steady]
@[simp] theorem steady_releaseClaims (s : State) (p : Nat → Bool) : (s.releaseClaims p).steady = s.steady := rfl
@[simp] theorem steady_localWrite (s : State) (l : Nat) (bs : List Byte) : (s.localWrite l bs).steady = s.steady := by
  unfold State.localWrite
  split <;> rfl
@[simp] theorem steady_putAt (s : State) (akind who barn a : Nat) (bs : List Byte) : (s.putAt akind who barn a bs).steady = s.steady := by
  simp [State.putAt, apply_ite State.steady]
@[simp] theorem steady_setOp (s : State) (o : Op) : (s.setOp o).steady = s.steady := rfl
@[simp] theorem steady_opWrite (s : State) (o : Op) : (s.opWrite o).steady = s.steady := by
  simp [State.opWrite, apply_ite State.steady]
@[simp] theorem steady_opChange (s : State) (n : Nat) (f : Op → Op) : (s.opChange n f).steady = s.steady := by
  unfold State.opChange
  split <;> simp
@[simp] theorem steady_opState (s : State) (n st result : Nat) : (s.opState n st result).steady = s.steady := by
  simp [State.opState]
@[simp] theorem steady_opFin (s : State) (n st result : Nat) : (s.opFin n st result).steady = s.steady := by
  unfold State.opFin
  (repeat' split) <;> simp
@[simp] theorem steady_opFinAll (s : State) (st result : Nat) (l : List Nat) : (opFinAll s st result l).steady = s.steady := by
  induction l generalizing s with
  | nil => rfl
  | cons a l ih => simp [opFinAll, ih]
@[simp] theorem steady_onPort (s : State) (p : Nat) (f : EdgePort → EdgePort) : (s.onPort p f).steady = s.steady := rfl
@[simp] theorem steady_onCong (s : State) (p : Nat) (f : CongRec → CongRec) : (s.onCong p f).steady = s.steady := rfl
@[simp] theorem steady_train (s : State) (l tkind mask : Nat) (ack : Bool) : (s.train l tkind mask ack).steady = s.steady := rfl
@[simp] theorem steady_sendFrame (s : State) (p kind seq start : Nat) (payload : List Byte) :
    (s.sendFrame p kind seq start payload).steady = s.steady := rfl
@[simp] theorem steady_keepFrame (s : State) (p kind start : Nat) (payload : List Byte) (pkts : List QPkt) :
    (s.keepFrame p kind start payload pkts).steady = s.steady := by
  simp [State.keepFrame]
@[simp] theorem steady_sendIdles (s : State) (p : Nat) (l : Nat) : (sendIdles s p l).steady = s.steady := by
  induction l generalizing s with
  | zero => rfl
  | succ n ih => simp [sendIdles, ih]
@[simp] theorem steady_closeSuper (s : State) (p : Nat) : (s.closeSuper p).steady = s.steady := by
  simp [State.closeSuper, apply_ite State.steady]
@[simp] theorem steady_advise (s : State) (p : Pkt) : (s.advise p).steady = s.steady := by
  unfold State.advise
  by_cases h : epPkg p.src = s.selfNum ∨ s.reckon < tget 0 s.advised (epPkg p.dst)
  · rw [if_pos h]
  · rw [if_neg h, steady_dispatch, steady_advised]
theorem steady_reCourse {s : State} {q : QPkt} {die at_ : Nat} {advice : Bool} {t : State} (h : (State.reCourse s q die at_ advice) = some t) :
    t.steady = s.steady := by
  unfold State.reCourse at h
  dsimp only at h
  split at h
  · cases h
  · rw [← Option.some.inj h]
    simp [apply_ite State.steady]
@[simp] theorem steady_reCourseQuiet (s : State) (at_ : Nat) (l : List QPkt) : (reCourseQuiet s at_ l).steady = s.steady := by
  induction l generalizing s with
  | nil => rfl
  | cons q l ih =>
    unfold reCourseQuiet
    split
    · next h => rw [ih, steady_reCourse h]
    · simp [ih]
@[simp] theorem steady_drainQuiet (s : State) (p : Nat) : (s.drainQuiet p).steady = s.steady := by
  simp [State.drainQuiet]
@[simp] theorem steady_control (s : State) (p kind : Nat) (payload : List Byte) : (s.control p kind payload).steady = s.steady := by
  simp [State.control, apply_ite State.steady]
@[simp] theorem steady_sendControl (s : State) (p kind mtype : Nat) : (s.sendControl p kind mtype).steady = s.steady := by
  simp [State.sendControl]
@[simp] theorem steady_enter (s : State) (p : Nat) (st : PortState) : (s.enter p st).steady = s.steady := by
  unfold State.enter
  dsimp only
  (repeat' split) <;> simp
@[simp] theorem steady_maintReady (s : State) (p : Nat) : (s.maintReady p).steady = s.steady := by
  simp [State.maintReady, apply_ite State.steady]
@[simp] theorem steady_maintStart (s : State) (p : Nat) (retrain notice : Bool) (ops : List Nat) :
    (s.maintStart p retrain notice ops).steady = s.steady := by
  simp [State.maintStart, apply_ite State.steady]
theorem steady_joinDeferred {s : State} {l op : Nat} {force : Bool} {t : State} (h : (State.joinDeferred s l op force) = some t) :
    t.steady = s.steady := by
  unfold State.joinDeferred at h
  split at h <;> cases h
  rfl
@[simp] theorem steady_deferCal (s : State) (l : Nat) (retrain : Bool) (op : Nat) (force : Bool) :
    (s.deferCal l retrain op force).steady = s.steady := by
  unfold State.deferCal
  split
  · next h => rw [steady_opState, steady_joinDeferred h]
  · split <;> simp
@[simp] theorem steady_takeDeferred (s : State) (l op : Nat) : (s.takeDeferred l op).2.steady = s.steady := rfl
@[simp] theorem steady_portCalAsk (s : State) (p : Nat) (retrain : Bool) (op : Nat) (force : Bool) :
    (s.portCalAsk p retrain op force).steady = s.steady := by
  unfold State.portCalAsk
  dsimp only
  (repeat' split) <;> simp (disch := (intros; (repeat' split) <;> simp)) [foldl_steady]
@[simp] theorem steady_setModule (s : State) (m : Nat) (x : Module) : (s.setModule m x).steady = s.steady := rfl
@[simp] theorem steady_waitFirst (s : State) (d : Nat) (l : List LinkPkt) : (s.waitFirst d l).steady = s.steady := by
  induction l with
  | nil => rfl
  | cons q l ih => exact ih
@[simp] theorem steady_evict (s : State) (l : Nat) : (s.evict l).steady = s.steady := by
  simp [State.evict]
@[simp] theorem steady_goDark (s : State) (l : Nat) : (s.goDark l).steady = s.steady := by
  simp [State.goDark]
@[simp] theorem steady_newLatency (s : State) (l : Nat) : (s.newLatency l).steady = s.steady := by
  simp [State.newLatency]
@[simp] theorem steady_dropSub (s : State) (w : LinkWork) : (s.dropSub w).steady = s.steady := by
  unfold State.dropSub
  split <;> simp
@[simp] theorem steady_endWork (s : State) (l r : Nat) : (s.endWork l r).steady = s.steady := by
  simp [State.endWork]
@[simp] theorem steady_calStart (s : State) (l : Nat) (retrain : Bool) (ops : List Nat) : (s.calStart l retrain ops).steady = s.steady := by
  unfold State.calStart
  dsimp only
  (repeat' split) <;> simp (disch := (intros; (repeat' split) <;> simp)) [foldl_steady]
@[simp] theorem steady_calAsk (s : State) (l : Nat) (retrain : Bool) (op : Nat) (force : Bool) : (s.calAsk l retrain op force).steady = s.steady := by
  unfold State.calAsk
  dsimp only
  (repeat' split) <;> simp
@[simp] theorem steady_portWidth (s : State) (p mask : Nat) : (s.portWidth p mask).steady = s.steady := by
  simp [State.portWidth, apply_ite State.steady]
@[simp] theorem steady_excludeLane (s : State) (l k : Nat) (fault : Bool) : (s.excludeLane l k fault).steady = s.steady := by
  unfold State.excludeLane
  dsimp only
  (repeat' split) <;> simp
@[simp] theorem steady_mapChange (s : State) : s.mapChange.steady = s.steady := by
  unfold State.mapChange
  split <;> rfl
@[simp] theorem steady_answerReset (st : Nat) (s : State) (c : Nat) (l : List Beat) : (answerReset st s c l).steady = s.steady := by
  induction l generalizing s with
  | nil => rfl
  | cons a l ih =>
    unfold answerReset
    dsimp only
    (repeat' split) <;> simp [ih]
@[simp] theorem steady_dropWaiting (s : State) (hit : Pkt → Bool) : (s.dropWaiting hit).steady = s.steady := rfl
@[simp] theorem steady_orphan (s : State) (g : Nat) (gone : List Pkt) (o : Orphan) : (s.orphan g gone o).steady = s.steady := rfl
@[simp] theorem steady_dropTrackers (s : State) (g : Nat) (gone : List Pkt) (mine : Tracker → Bool) :
    (s.dropTrackers g gone mine).steady = s.steady := foldl_steady _ _ _ fun _ _ => by simp
@[simp] theorem steady_gangsLose (s : State) (c : Nat) : (s.gangsLose c).steady = s.steady := foldl_steady _ _ _ fun _ _ => by simp
@[simp] theorem steady_forgetTraffic (s : State) (c : Nat) :
    (s.forgetTraffic c).steady = s.steady := (steady_setGw _ _ _).trans (foldl_steady _ _ _ fun _ _ => steady_onCore _ _ _)
@[simp] theorem steady_forgetRequests (s : State) (c : Nat) (gone : List Pkt) : (s.forgetRequests c gone).steady = s.steady := by
  rw [State.forgetRequests, steady_dropTrackers, steady_dropWaiting]
  exact foldl_steady _ _ _ fun _ _ => steady_orphan _ _ _ _
@[simp] theorem steady_forgetUnits (s : State) (c : Nat) :
    (s.forgetUnits c).steady = s.steady := (steady_releaseClaims _ _).trans (steady_dropCtxs _ _)
@[simp] theorem steady_resetCore (s : State) (c : Nat) (p : CorePower) : (s.resetCore c p).steady = s.steady := by
  unfold State.resetCore
  dsimp only
  split <;> simp
@[simp] theorem steady_resetCores (p : CorePower) (s : State) (l : List Nat) : (resetCores p s l).steady = s.steady := by
  induction l generalizing s with
  | nil => rfl
  | cons a l ih => simp [resetCores, ih]
@[simp] theorem steady_steerForget (s : State) (g : Nat) : (s.steerForget g).steady = s.steady := rfl
@[simp] theorem steady_resetCluster (s : State) (g : Nat) (p : CorePower) : (s.resetCluster g p).steady = s.steady := by
  unfold State.resetCluster
  extract_lets u mine gone s0 s1 s2 w s3
  have h0 : s0.steady = s.steady := by simp [s0, u]
  have h1 : s1.steady = s0.steady := foldl_steady _ _ _ fun _ _ => steady_orphan _ _ _ _
  have h2 : s2.steady = s1.steady := steady_resetCores p s1 _
  have h3 : s3.steady = s2.steady := (steady_dropCtxs _ _).trans (steady_setGw _ _ _)
  clear_value s3
  rw [steady_sheafEarly, h3, h2, h1, h0]
@[simp] theorem steady_resetClusters (p : CorePower) (s : State) (l : List Nat) : (resetClusters p s l).steady = s.steady := by
  induction l generalizing s with
  | nil => rfl
  | cons a l ih =>
    rw [resetClusters.eq_def]
    exact Eq.trans (ih (s.resetCluster a p)) (steady_resetCluster s a p)

end Sys2Proof.Machine
end

section
/-! PROOFS. Fault records, counting, acknowledgement and the governor (R359, R416, R434 to R448, R457). -/
namespace Sys2Proof.Machine

/-! Units that leave service, and the actions of Table 18-4. -/

/-- What no unit that leaves service touches. -/
def State.fixtures (s : State) : State :=
  { s.steady with coreDown := [], dieDown := [], clusterDown := [], meshDown := [], dieCause := [], cross := [], sensors := [] }

theorem fixtures_of_steady {s t : State} (h : t.steady = s.steady) : t.fixtures = s.fixtures :=
  congrArg (fun x : State => { x with coreDown := [], dieDown := [], clusterDown := [], meshDown := [], dieCause := [], cross := [], sensors := [] }) h

@[simp] theorem fixtures_coreDown (s : State) (x) : ({ s with coreDown := x } : State).fixtures = s.fixtures := rfl
@[simp] theorem fixtures_clusterDown (s : State) (x) : ({ s with clusterDown := x } : State).fixtures = s.fixtures := rfl
@[simp] theorem fixtures_meshDown (s : State) (x) : ({ s with meshDown := x } : State).fixtures = s.fixtures := rfl
@[simp] theorem fixtures_cross (s : State) (x) : ({ s with cross := x } : State).fixtures = s.fixtures := rfl
@[simp] theorem fixtures_resetCore (s : State) (c : Nat) (p : CorePower) : (s.resetCore c p).fixtures = s.fixtures :=
  fixtures_of_steady (steady_resetCore s c p)
@[simp] theorem fixtures_resetCluster (s : State) (g : Nat) (p : CorePower) : (s.resetCluster g p).fixtures = s.fixtures :=
  fixtures_of_steady (steady_resetCluster s g p)
@[simp] theorem fixtures_mapChange (s : State) : s.mapChange.fixtures = s.fixtures := fixtures_of_steady (steady_mapChange s)
@[simp] theorem fixtures_dieOut (s : State) (d cause : Nat) : (s.dieOut d cause).fixtures = s.fixtures := rfl
@[simp] theorem fixtures_report (s : State) {k : Nat} (hk : k ≠ 0x04) (u d : Nat) : (s.report k u d).fixtures = s.fixtures :=
  fixtures_of_steady (steady_report s hk u d)
@[simp] theorem fixtures_dieCheck (s : State) (n d : Nat) : (s.dieCheck n d).fixtures = s.fixtures := by
  simp [State.dieCheck, apply_ite State.fixtures]

@[simp] theorem fixtures_retireCore (s : State) (c : Nat) : (s.retireCore c).fixtures = s.fixtures := by
  unfold State.retireCore
  split
  · rfl
  · rw [fixtures_dieCheck, fixtures_mapChange, fixtures_coreDown, fixtures_resetCore]

@[simp] theorem fixtures_retireCluster (s : State) (g : Nat) : (s.retireCluster g).fixtures = s.fixtures := by
  unfold State.retireCluster
  split
  · rfl
  · rw [fixtures_dieCheck, fixtures_mapChange, fixtures_clusterDown, fixtures_resetCluster]

@[simp] theorem fixtures_retireMeshLink (s : State) (l : Nat) : (s.retireMeshLink l).fixtures = s.fixtures := by
  unfold State.retireMeshLink
  extract_lets c dir
  simp only [apply_ite State.fixtures, fixtures_retireCluster, fixtures_mapChange, fixtures_meshDown, ite_self]

@[simp] theorem fixtures_retireCrossing (s : State) (u : Nat) : (s.retireCrossing u).fixtures = s.fixtures :=
  fixtures_retireMeshLink _ _

@[simp] theorem steady_linkOut (s : State) (l : Nat) : (s.linkOut l).steady = s.steady := by
  unfold State.linkOut
  dsimp only
  split
  · exact steady_mapChange s
  · exact (steady_mapChange _).trans ((steady_setLink _ _ _).trans (steady_endWork _ _ _))

theorem steady_retireStack (s : State) (d : Nat) :
    ((List.range 64).foldl (fun s g => s.setGranule (64 * (d % 16) + g) { s.granule (64 * (d % 16) + g) with retired := true }) s).steady
      = s.steady := foldl_steady _ _ _ fun _ _ => steady_setGranule _ _ _

/-- An action takes units out of service and starts procedures; the gleaner is not its business. -/
@[simp] theorem fixtures_act (s : State) (kind cls unit detail : Nat) : (s.act kind cls unit detail).fixtures = s.fixtures := by
  unfold State.act
  split
  case h_1 | h_2 | h_3 => exact fixtures_retireCore _ _
  case h_4 => exact fixtures_retireMeshLink _ _
  case h_5 => exact fixtures_retireCrossing _ _
  case h_6 => exact fixtures_of_steady ((steady_setLane _ _ _).trans (steady_excludeLane _ _ _ _))
  case h_7 | h_8 => exact fixtures_of_steady (steady_linkOut _ _)
  case h_9 => exact fixtures_of_steady (steady_setModule _ _ _)
  case h_10 =>
    split
    · exact fixtures_of_steady (steady_calAsk _ _ _ _ _)
    · rfl
  case h_11 => exact fixtures_of_steady (steady_onPort _ _ _)
  case h_12 | h_13 => exact fixtures_of_steady (steady_pairFault _ _ _)
  case h_14 | h_15 => exact fixtures_of_steady (steady_wantRepair _ _ _)
  case h_16 => exact fixtures_of_steady ((steady_mapChange _).trans (steady_setGranule _ _ _))
  case h_17 => exact fixtures_of_steady ((steady_mapChange _).trans (steady_retireStack _ _))
  case h_18 | h_19 | h_21 => rfl
  case h_20 => exact fixtures_retireCluster _ _

/-! Fields that are steady, and fixtures. -/

theorem gleaner_of_steady {s t : State} (h : t.steady = s.steady) : t.gleaner = s.gleaner :=
  (congrArg State.gleaner h : t.steady.gleaner = s.steady.gleaner)
theorem gleaner_of_fixtures {s t : State} (h : t.fixtures = s.fixtures) : t.gleaner = s.gleaner :=
  (congrArg State.gleaner h : t.fixtures.gleaner = s.fixtures.gleaner)
theorem thermN_of_steady {s t : State} (h : t.steady = s.steady) : t.pins.thermN = s.pins.thermN :=
  (congrArg (fun x : State => x.pins.thermN) h : t.steady.pins.thermN = s.steady.pins.thermN)
theorem thermWant_of_steady {s t : State} (h : t.steady = s.steady) : t.thermWant = s.thermWant :=
  (congrArg State.thermWant h : t.steady.thermWant = s.steady.thermWant)

/-! Class 4 (R439) and THERM_N (R448). -/

/-- A package whose clusters have stopped, with FATAL set: every die is down. -/
def State.fatalStop (s : State) : State :=
  { s.lightStop with
    gleaner := { s.lightStop.gleaner with fatal := true }, clusterUp := [], dieDown := List.range 16
    dieCause := (List.range 16).map fun d => (d, 5) }

theorem State.latchFatal_eq (s : State) :
    s.latchFatal = if s.gleaner.fatal = true then s else (resetClusters .off s (List.range 256)).fatalStop := rfl

theorem State.fatalStop_gleaner (s : State) : s.fatalStop.gleaner = { s.gleaner with fatal := true } := rfl

theorem State.latchFatal_gleaner (s : State) : s.latchFatal.gleaner = { s.gleaner with fatal := true } := by
  rw [State.latchFatal_eq]
  split
  · next h => rw [← h]
  · rw [State.fatalStop_gleaner, gleaner_of_steady (steady_resetClusters .off s _)]

@[simp] theorem State.thermFollow_gleaner (s : State) : s.thermFollow.gleaner = s.gleaner := by
  unfold State.thermFollow
  split <;> rfl

theorem State.thermFollow_follows (s : State) : s.thermFollow.pins.thermN = s.thermFollow.thermWant := by
  unfold State.thermFollow
  split
  · next h => exact h
  · rfl

@[simp] theorem State.msix_gleaner (s : State) (f vec : Nat) : (s.msix f vec).gleaner = s.gleaner :=
  gleaner_of_steady (steady_msix s f vec)

/-! What an event is judged to be (R441 to R445). -/

theorem Gleaner.judgeCounter_rest (g : Gleaner) (c : Counter) (base now : Nat) :
    ∃ cs, (g.judgeCounter c base now).2 = { g with counters := cs } := ⟨_, rfl⟩

/-- Judging an event touches its counters alone. -/
theorem Gleaner.judge_rest (g : Gleaner) (kind key base now : Nat) :
    ∃ ks cs, (g.judge kind key base now).2 = { g with kinds := ks, counters := cs } := by
  unfold Gleaner.judge
  split
  · exact ⟨_, _, rfl⟩
  · dsimp only
    split
    · exact ⟨_, _, rfl⟩
    · exact ⟨_, _, rfl⟩

section
variable {g : Gleaner} {c : Counter} {base now : Nat}

theorem Gleaner.judgeCounter_promotes (hb : base < 4) (hn : (g.cfg c.kind).n ≠ 0) (ho : c.windowOpen now (g.cfg c.kind).window = true)
    (hc : c.count + 1 = (g.cfg c.kind).n) (hlim : c.count < 65535) (hm : c.marks = []) :
    (g.judgeCounter c base now).1.promoted = true ∧ (g.judgeCounter c base now).1.cls = base + 1 := by
  have hmin : min 65535 (c.count + 1) = (g.cfg c.kind).n := by omega
  have hcls : min 4 (base + 1) = base + 1 := by omega
  simp [Gleaner.judgeCounter, ho, hn, hmin, hm, hcls]

variable (hn : (g.cfg c.kind).n = 0) (ho : c.windowOpen now (g.cfg c.kind).window = false)
include hn ho

theorem Gleaner.judgeCounter_escalates (hlo : 1 ≤ base) (hhi : base ≤ 3) (hm : base ∈ c.marks) :
    (g.judgeCounter c base now).1.escalated = true ∧ (g.judgeCounter c base now).1.cls = base + 1 := by
  have hcls : min 4 base = base := by omega
  simp [Gleaner.judgeCounter, hn, ho, hcls, hm, hlo, hhi]

theorem Gleaner.judgeCounter_plain (hhi : base ≤ 4) (hm : base ∉ c.marks) :
    (g.judgeCounter c base now).1 = ⟨base, false, false, false, false⟩ := by
  have hcls : min 4 base = base := by omega
  simp [Gleaner.judgeCounter, hn, ho, hcls, hm]
end

theorem Gleaner.judge_overflows {g : Gleaner} {kind key base now : Nat} (hnew : g.counter kind key = none) (hfull : 8192 ≤ (g.live now).length)
    (hov : (g.cfg kind).overflow < 65534) (hb : base ≤ 4) : (g.judge kind key base now).1 = ⟨base, false, false, false, true⟩ := by
  have hcfg : Gleaner.cfg { g with counters := g.live now } kind = g.cfg kind := rfl
  have hcls : min 4 base = base := by omega
  have hsat : ¬min 65535 ((g.cfg kind).overflow + 1) = 65535 := by omega
  simp [Gleaner.judge, hnew, hfull, Gleaner.judgeOverflow, hcfg, hsat, hcls]

/-! Records (R434 to R436, R448, R359). -/

/-- The base class of a report: the reporting rule's, or the table's. -/
def baseClass (kind : Nat) (rule : Option Nat) : Nat := rule.getD (match kindRow kind with
  | some (b, _, _, _) => b
  | none => 0)

/-- The record that a report becomes. -/
def State.faultRec (s : State) (kind ut unit detail at_ : Nat) (rule : Option Nat) (injected : Bool) : FaultRec :=
  let (j, g) := s.gleaner.judge kind (unitKey ut unit) (baseClass kind rule) at_
  ⟨(g.seq + 1) % 2 ^ 32, j.cls, baseClass kind rule, j.promoted, j.escalated, j.saturation, injected, j.noCounter, kind,
    unitKey ut unit, actionCode kind j.cls, s.unitBarn ut unit, at_, detail⟩

/-- The gleaner with a record in its ring, its latched store, its summary and its notices. -/
def Gleaner.recorded (g : Gleaner) (r : FaultRec) (unit : Nat) : Gleaner :=
  let g1 : Gleaner := { g with
    seq := r.seq, lastSeq := r.seq, lastClass := r.cls, ring := lastN 4096 (g.ring ++ [r])
    latched := if 3 ≤ r.cls then lastN 16 (g.latched ++ [r]) else g.latched
    counts := listSet g.counts r.cls (min (2 ^ 32 - 1) (g.counts.getD r.cls 0 + 1))
    pending := if r.cls < 4 then insertSorted r.cls g.pending else g.pending
    pulse := g.pulse || decide (g.minClass ≤ r.cls)
    notices := if 1 ≤ r.cls then g.notices ++ [r] else g.notices }
  if r.kind = 0x42 then { g1 with shutdown := true, shutWhere := if g1.shutdown then g1.shutWhere else Machine.shutWhere unit } else g1

section
variable (s : State) (kind ut unit detail at_ : Nat) (rule : Option Nat) (injected : Bool)

/-- The action of a class, the stop where it is class 4, and THERM_N. -/
def State.actOn (kind cls unit detail : Nat) : State :=
  (if cls = 4 then (s.act kind cls unit detail).latchFatal else s.act kind cls unit detail).thermFollow

/-- The state with the record of a report in its gleaner, after the record's action. -/
def State.recordActs (r : FaultRec) (unit : Nat) : State :=
  State.actOn { s with gleaner := (s.gleaner.judge kind (unitKey ut unit) (baseClass kind rule) at_).2.recorded r unit } kind r.cls unit detail

theorem State.record_eq {r : FaultRec} (hr : r = s.faultRec kind ut unit detail at_ rule injected) {t : State}
    (ht : t = s.recordActs kind ut detail at_ rule r unit) : s.record kind ut unit detail at_ rule injected
      = if (t.gleaner.pending, t.gleaner.fatal, t.gleaner.shutdown) = (s.gleaner.pending, s.gleaner.fatal, s.gleaner.shutdown) then t
        else t.msix 0 4 := by
  subst hr ht
  rfl
end

/-! What a record leaves in the gleaner (R435, R436, R359). -/

theorem getLast?_lastN_append {α : Type} {n : Nat} (hn : 1 ≤ n) (l : List α) (x : α) : (lastN n (l ++ [x])).getLast? = some x := by
  simp [lastN, List.getLast?_drop, hn]

section
variable (g : Gleaner) (r : FaultRec) (unit : Nat)

theorem Gleaner.recorded_fields : (g.recorded r unit).lastSeq = r.seq ∧ (g.recorded r unit).lastClass = r.cls
    ∧ (g.recorded r unit).ring = lastN 4096 (g.ring ++ [r])
    ∧ (g.recorded r unit).latched = (if 3 ≤ r.cls then lastN 16 (g.latched ++ [r]) else g.latched)
    ∧ (g.recorded r unit).pending = (if r.cls < 4 then insertSorted r.cls g.pending else g.pending)
    ∧ (g.recorded r unit).pulse = (g.pulse || decide (g.minClass ≤ r.cls))
    ∧ (g.recorded r unit).notices = (if 1 ≤ r.cls then g.notices ++ [r] else g.notices)
    ∧ (r.kind = 0x42 → (g.recorded r unit).shutdown = true) := by
  unfold Gleaner.recorded
  dsimp only
  generalize 4096 = ringSize, 16 = storeSize
  split
  · exact ⟨rfl, rfl, rfl, rfl, rfl, rfl, rfl, fun _ => rfl⟩
  · next h => exact ⟨rfl, rfl, rfl, rfl, rfl, rfl, rfl, fun hk => absurd hk h⟩
end

section
variable (s : State) (kind ut unit detail at_ : Nat) (rule : Option Nat) (injected : Bool) (r : FaultRec)

/-- The action and what follows it leave the gleaner alone, but for FATAL of class 4. -/
theorem State.actOn_gleaner (cls : Nat) :
    (s.actOn kind cls unit detail).gleaner = if cls = 4 then { s.gleaner with fatal := true } else s.gleaner := by
  rw [State.actOn, State.thermFollow_gleaner, apply_ite State.gleaner, State.latchFatal_gleaner,
    gleaner_of_fixtures (fixtures_act s kind cls unit detail)]

theorem State.recordActs_gleaner {g : Gleaner}
    (hg : g = (s.gleaner.judge kind (unitKey ut unit) (baseClass kind rule) at_).2.recorded r unit) :
    (s.recordActs kind ut detail at_ rule r unit).gleaner = if r.cls = 4 then { g with fatal := true } else g := by
  rw [hg]
  exact State.actOn_gleaner _ kind unit detail r.cls

/-- A record leaves the gleaner and the sensors as its action does, and THERM_N as they want it. -/
theorem State.record_follows (hr : r = s.faultRec kind ut unit detail at_ rule injected) :
    (s.record kind ut unit detail at_ rule injected).gleaner = (s.recordActs kind ut detail at_ rule r unit).gleaner
      ∧ (s.record kind ut unit detail at_ rule injected).pins.thermN = (s.record kind ut unit detail at_ rule injected).thermWant := by
  have hsteady : (s.record kind ut unit detail at_ rule injected).steady = (s.recordActs kind ut detail at_ rule r unit).steady := by
    rw [State.record_eq s kind ut unit detail at_ rule injected hr rfl, apply_ite State.steady, steady_msix, ite_self]
  refine ⟨gleaner_of_steady hsteady, ?_⟩
  rw [thermN_of_steady hsteady, thermWant_of_steady hsteady]
  exact State.thermFollow_follows _
end

theorem State.faultRec_seq (s : State) (kind ut unit detail at_ : Nat) (rule : Option Nat) (injected : Bool) :
    (s.faultRec kind ut unit detail at_ rule injected).seq = (s.gleaner.seq + 1) % 2 ^ 32 := by
  obtain ⟨ks, cs, hg⟩ := s.gleaner.judge_rest kind (unitKey ut unit) (baseClass kind rule) at_
  have hseq := congrArg Gleaner.seq hg
  exact congrArg (fun n => (n + 1) % 2 ^ 32) hseq

/-- What the record of a report leaves. -/
theorem State.record_leaves (s : State) (kind ut unit detail at_ : Nat) (rule : Option Nat) (injected : Bool) {t : State}
    (ht : t = s.record kind ut unit detail at_ rule injected) {f : FaultRec} (hf : f = s.faultRec kind ut unit detail at_ rule injected) :
    t.gleaner.ring.getLast? = some f ∧ t.gleaner.lastSeq = f.seq ∧ t.gleaner.lastClass = f.cls
      ∧ (f.cls < 4 → f.cls ∈ t.gleaner.pending) ∧ (f.cls = 4 → t.gleaner.fatal = true) ∧ (3 ≤ f.cls → t.gleaner.latched.getLast? = some f)
      ∧ (s.gleaner.minClass ≤ f.cls → t.gleaner.pulse = true) ∧ (1 ≤ f.cls → t.gleaner.notices = s.gleaner.notices ++ [f])
      ∧ (kind = 0x42 → t.gleaner.shutdown = true) ∧ t.pins.thermN = t.thermWant := by
  obtain ⟨hgleaner, htherm⟩ := s.record_follows kind ut unit detail at_ rule injected f hf
  obtain ⟨ks, cs, hjudge⟩ := s.gleaner.judge_rest kind (unitKey ut unit) (baseClass kind rule) at_
  rw [← ht] at hgleaner htherm
  rw [State.recordActs_gleaner s kind ut unit detail at_ rule f rfl, hjudge] at hgleaner
  have hkind : f.kind = kind := by rw [hf]; rfl
  obtain ⟨hseq, hcls, hring, hlatched, hpending, hpulse, hnotices, hshut⟩ :=
    Gleaner.recorded_fields { s.gleaner with kinds := ks, counters := cs } f unit
  have hfield {β : Type} (p : Gleaner → β) (hp : ∀ g : Gleaner, p { g with fatal := true } = p g) :
      p t.gleaner = p (Gleaner.recorded { s.gleaner with kinds := ks, counters := cs } f unit) := by
    rw [hgleaner, apply_ite p, hp, ite_self]
  refine ⟨?_, ?_, ?_, ?_, ?_, ?_, ?_, ?_, ?_, htherm⟩
  · rw [hfield Gleaner.ring fun _ => rfl, hring, getLast?_lastN_append (by norm_num)]
  · rw [hfield Gleaner.lastSeq fun _ => rfl, hseq]
  · rw [hfield Gleaner.lastClass fun _ => rfl, hcls]
  · intro h
    rw [hfield Gleaner.pending fun _ => rfl, hpending, if_pos h]
    exact mem_insertSorted.mpr (.inl rfl)
  · intro h
    rw [hgleaner, if_pos h]
  · intro h
    rw [hfield Gleaner.latched fun _ => rfl, hlatched, if_pos h, getLast?_lastN_append (by norm_num)]
  · intro h
    rw [hfield Gleaner.pulse fun _ => rfl, hpulse]
    simp [h]
  · intro h
    rw [hfield Gleaner.notices fun _ => rfl, hnotices, if_pos h]
  · intro h
    rw [hfield Gleaner.shutdown fun _ => rfl, hshut (hkind.trans h)]

/-! Reports become records in order (R434, R445). -/

theorem exec_faultReport_one {s : State} {r : Report} (h : s.reports = [r]) : exec .faultReport s = .next (
    State.record { s with reports := [] } r.kind (reportUnit r.kind r.unit).1 (reportUnit r.kind r.unit).2 r.detailOf r.at_ r.base false) := by
  change execFaultReport s = _
  simp only [execFaultReport, h, List.filter_nil, leastReport, removeFirst, if_true]

theorem reportLess_irrefl (r : Report) : reportLess r r = false := by simp [reportLess]

theorem exec_faultReport_two {s : State} {a b : Report} (h : s.reports = [a, b]) (hat : a.at_ = b.at_) : exec .faultReport s = .next (
      if reportLess b a = true then State.record { s with reports := [a] } b.kind (reportUnit b.kind b.unit).1 (reportUnit b.kind b.unit).2
        b.detailOf b.at_ b.base false
      else State.record { s with reports := [b] } a.kind (reportUnit a.kind a.unit).1 (reportUnit a.kind a.unit).2 a.detailOf a.at_ a.base false) := by
  have hsame : [b].filter (fun x => decide (x.at_ = a.at_)) = [b] := by simp [hat]
  change execFaultReport s = _
  by_cases hl : reportLess b a = true
  · have hne : a ≠ b := by
      rintro rfl
      simp [reportLess_irrefl] at hl
    simp only [execFaultReport, h, hsame, leastReport, hl, if_true, removeFirst, if_neg hne]
  · simp only [execFaultReport, h, hsame, leastReport, if_neg hl, removeFirst, if_true]

/-! Acknowledgement, windows and notices (R442, R446, R447). -/

theorem State.ackClasses_gleaner (s : State) (mask : Nat) : (s.ackClasses mask).gleaner = (
    let g1 : Gleaner := { s.gleaner with
      pending := s.gleaner.pending.filter fun c => !(bitAt mask c)
      counters := s.gleaner.counters.map fun c => { c with marks := c.marks.filter fun c => !(bitAt mask c) } }
    { g1 with counters := g1.live s.reckon }) := by
  unfold State.ackClasses
  dsimp only
  rw [apply_ite State.gleaner, State.msix_gleaner, ite_self]

theorem bitAt_two_pow_not (k c : Nat) : (!(bitAt (2 ^ k) c)) = decide (c ≠ k) := by
  rw [bitAt_two_pow]
  simp [eq_comm]

theorem exec_faultAck_leaves (cls : Fin 4) (s : State) {t : State} (ht : t = s.ackClasses (2 ^ cls.val)) :
    t.gleaner.pending = s.gleaner.pending.filter (fun c => decide (c ≠ cls.val)) ∧ (∀ c ∈ t.gleaner.counters, cls.val ∉ c.marks)
      ∧ t.gleaner.ring = s.gleaner.ring ∧ t.gleaner.latched = s.gleaner.latched ∧ t.gleaner.fatal = s.gleaner.fatal := by
  subst ht
  rw [State.ackClasses_gleaner]
  simp only [bitAt_two_pow_not, true_and, and_true]
  intro c hc
  obtain ⟨c0, -, rfl⟩ := List.mem_map.mp (List.mem_filter.mp hc).1
  simp

theorem State.faultNotice_below {s : State} {r : FaultRec} (h : r.cls < 3) : s.faultNotice r = match r.barn with
      | some b => if 2 ≤ r.cls ∧ ((s.postNotice 256 0x03 r.bytes).postNotice 258 0x03 r.bytes).barnExists b = true then
          ((s.postNotice 256 0x03 r.bytes).postNotice 258 0x03 r.bytes).postNotice b 0x03 r.bytes
        else (s.postNotice 256 0x03 r.bytes).postNotice 258 0x03 r.bytes
      | none => (s.postNotice 256 0x03 r.bytes).postNotice 258 0x03 r.bytes := by
  unfold State.faultNotice
  exact if_neg (by omega)

/-! The governor (R457). -/

/-- The hold count that stands at a die, or the one that waits for its frame boundary. -/
def State.holdAhead (s : State) (d : Nat) : Nat := match tget 0 s.holdNotice d with
  | 0 => s.holdOf d
  | n + 1 => n

/-- The inputs of a die's governor whose THROTTLE flag is set. -/
def State.throttled (s : State) (d : Nat) : List Nat := (governorInputs d).filter fun n => (s.sensor n).throttle

/-- An input whose last sample stands at its THROTTLE set value. -/
def State.hotInput (s : State) (n : Nat) : Bool := match (s.sensor n).last with
  | some t => decide (throttleSet n ≤ t)
  | none => false

theorem State.hotInput_eq (s : State) (n : Nat) : s.hotInput n = (s.sensor n).last.any fun t => decide (throttleSet n ≤ t) := by
  unfold State.hotInput
  cases (s.sensor n).last <;> rfl

theorem State.throttled_any (s : State) (d : Nat) (p : Nat → Bool) :
    (s.throttled d).any p = (governorInputs d).any fun n => (s.sensor n).throttle && p n := List.any_filter

theorem State.throttled_ne_nil (s : State) (d : Nat) : s.throttled d ≠ [] ↔ (governorInputs d).any (fun n => (s.sensor n).throttle) = true := by
  rw [Ne, State.throttled, List.filter_eq_nil_iff, List.any_eq_true]
  simp

/-- The hold count that a millisecond brings a die. -/
def State.holdNext (s : State) (d : Nat) : Nat :=
  if (s.throttled d).any s.hotInput = true then min 48 (s.holdAhead d + 8) else if s.throttled d ≠ [] then s.holdAhead d else s.holdAhead d - 4

theorem exec_governorTick_next (d : DieId) (s : State) : exec (.governorTick d) s = if s.holdNext d.val = s.holdAhead d.val then .next s
    else .next { s with holdNotice := tset 0 s.holdNotice d.val (s.holdNext d.val + 1) } := rfl

theorem exec_governorTick (d : DieId) (s : State) {n : Nat} (hn : n =
      if (governorInputs d.val).any (fun n => (s.sensor n).throttle && (s.sensor n).last.any fun t => decide (throttleSet n ≤ t)) = true then
        min 48 (s.holdAhead d.val + 8)
      else if (governorInputs d.val).any (fun n => (s.sensor n).throttle) = true then s.holdAhead d.val else s.holdAhead d.val - 4) :
    exec (.governorTick d) s = .next (if n = s.holdAhead d.val then s else { s with holdNotice := tset 0 s.holdNotice d.val (n + 1) }) := by
  have hnext : s.holdNext d.val = n := by
    simp only [State.holdNext, State.throttled_any, State.throttled_ne_nil, State.hotInput_eq, hn]
  rw [exec_governorTick_next, hnext]
  split <;> rfl

theorem exec_faultReport_record {s : State} {r : Report} (h : s.reports = [r]) :
    ∃ t f, exec .faultReport s = .next t ∧ t.gleaner.ring.getLast? = some f ∧ f.kind = r.kind ∧ f.detail = r.detailOf ∧ f.reckon = r.at_
      ∧ f.injected = false ∧ f.unit = unitKey (reportUnit r.kind r.unit).1 (reportUnit r.kind r.unit).2
      ∧ f.seq = (s.gleaner.seq + 1) % 2 ^ 32 ∧ t.gleaner.lastSeq = f.seq ∧ t.gleaner.lastClass = f.cls
      ∧ (f.cls < 4 → f.cls ∈ t.gleaner.pending) ∧ (f.cls = 4 → t.gleaner.fatal = true) ∧ (3 ≤ f.cls → t.gleaner.latched.getLast? = some f)
      ∧ (s.gleaner.minClass ≤ f.cls → t.gleaner.pulse = true) ∧ (1 ≤ f.cls → t.gleaner.notices = s.gleaner.notices ++ [f])
      ∧ (r.kind = 0x42 → t.gleaner.shutdown = true) ∧ t.pins.thermN = t.thermWant := by
  obtain ⟨hring, hrest⟩ := State.record_leaves { s with reports := [] } r.kind (reportUnit r.kind r.unit).1 (reportUnit r.kind r.unit).2
    r.detailOf r.at_ r.base false rfl rfl
  exact ⟨_, _, exec_faultReport_one h, hring, rfl, rfl, rfl, rfl, rfl, State.faultRec_seq { s with reports := [] } .., hrest⟩

theorem exec_faultNoticePost_none {s : State} (h : s.gleaner.notices = [] ∨ s.helmServes = false) : exec .faultNoticePost s = .next s := by
  change execFaultNoticePost s = _
  obtain h | h := h
  · simp [execFaultNoticePost, h]
  · cases hn : s.gleaner.notices <;> simp [execFaultNoticePost, h, hn]

theorem exec_faultNoticePost_first {s : State} {r : FaultRec} {l : List FaultRec} (h : s.gleaner.notices = r :: l) (hs : s.helmServes = true) :
    exec .faultNoticePost s = .next (State.faultNotice { s with gleaner := { s.gleaner with notices := l } } r) := by
  change execFaultNoticePost s = _
  simp [execFaultNoticePost, h, hs]

theorem exec_countWindowEnd_none {k : BitVec 16} {u : Nat} {s : State} (h : s.gleaner.counter k.toNat u = none) :
    exec (.countWindowEnd k u) s = .next s := by
  change execCountWindowEnd k u s = _
  simp [execCountWindowEnd, h]

theorem exec_countWindowEnd_some {k : BitVec 16} {u : Nat} {s : State} {c : Counter} (h : s.gleaner.counter k.toNat u = some c) :
    exec (.countWindowEnd k u) s = .next (if s.reckon < 16000000 * (s.gleaner.cfg c.kind).window + c.opened then s else { s with
      gleaner := { s.gleaner with counters := (s.gleaner.counters.filter fun x => decide (x ≠ c))
        ++ if c.marks = [] then [] else [{ c with count := 0, sat := false }] } }) := by
  change execCountWindowEnd k u s = _
  simp only [execCountWindowEnd, h]
  split
  · rfl
  · split <;> simp

/-- Settles O54: a record by its fields and what it leaves, the judging of an event case by case, and the events of the gleaner. -/
theorem faultHandling : Obligations.FaultHandling := by
  unfold Obligations.FaultHandling
  refine ⟨fun s h => ?_, fun s r h => exec_faultReport_record h, fun s a b h hat => exec_faultReport_two h hat, fun s => rfl,
    fun g c base now hb hn ho hc hlim hm => Gleaner.judgeCounter_promotes hb hn ho hc hlim hm,
    fun g c base now hlo hhi hn ho hm => Gleaner.judgeCounter_escalates hn ho hlo hhi hm,
    fun g c base now hhi hn ho hm => Gleaner.judgeCounter_plain hn ho hhi hm,
    fun g kind key base now hnew hfull hov hb => Gleaner.judge_overflows hnew hfull hov hb, fun cls s => rfl,
    fun cls s => ⟨_, rfl, exec_faultAck_leaves cls s rfl⟩, fun s => ?_, fun s h => exec_faultNoticePost_none h,
    fun s r l h hs => exec_faultNoticePost_first h hs, fun s r h => State.faultNotice_below h,
    fun k u s h => exec_countWindowEnd_none h, fun k u s c h => exec_countWindowEnd_some h, fun d s h n hot hh hhot hn => ?_, fun s => ?_⟩
  · change execFaultReport s = _
    simp [execFaultReport, h]
  · change (if s.gleaner.pulse = true then _ else _) = _
    split <;> rfl
  · subst hh hhot
    exact exec_governorTick d s hn
  · change execRngHealthFailure s = _
    unfold execRngHealthFailure
    split <;> rfl

end Sys2Proof.Machine
end

section
/-! PROOFS. BU_CTL, and how a stage starts and ends (R355 to R357, R366, R370). -/
namespace Sys2Proof.Machine

/-! BU_CTL (R356). -/

theorem State.buCtl_reserved {s : State} {v : Nat} (h : bitsAt (v / 65536) 10 6 ≠ 0) : s.buCtl v = s := by
  simp [State.buCtl, h]

theorem State.buCtl_go (s : State) {t : Nat} (ht : t < 16) : s.buCtl (0x001F0010 + t) =
    if s.bu.st = .running then { s with bu := { s.bu with refused := true, why := 1 } }
    else if s.bu.st = .ready ∨ min 10 t < s.bu.next then { s with bu := { s.bu with refused := true, why := 2 } }
    else State.stageStart { s with
      bu := { s.bu with target := t, calSource := s.bu.calSource &&& 3, fwSource := s.bu.fwSource &&& 1, goal := min 10 t, accepting := false } } s.bu.next := by
  have hsel : (0x001F0010 + t) / 65536 = 0x1F := by omega
  have htarget : bitsAt (0x001F0010 + t) 0 4 = t := by
    rw [bitsAt, Nat.shiftRight_zero]
    omega
  have hgo : bitAt (0x001F0010 + t) 4 = true := by interval_cases t <;> rfl
  have hmask : t &&& 15 = t := by rw [Nat.and_two_pow_sub_one_eq_mod t 4, Nat.mod_eq_of_lt ht]
  have hfields : bitsAt 31 10 6 = 0 ∧ bitsAt 31 0 4 = 15 ∧ bitsAt 31 6 2 = 0 ∧ bitsAt 31 8 1 = 0 ∧ bitAt 31 4 = true ∧ bitAt 31 5 = false
      ∧ bitAt 31 9 = false := by decide
  obtain ⟨hres, h0, h6, h8, hb4, hb5, hb9⟩ := hfields
  simp [State.buCtl, hsel, htarget, hgo, hmask, hres, h0, h6, h8, hb4, hb5, hb9, State.buRefuse]
  rfl

theorem State.buCtl_accept (s : State) : s.buCtl 0x00200020 =
    if s.bu.st ≠ .disagree then { s with bu := { s.bu with refused := true, why := 3 } }
    else State.acceptReport { s with
      bu := { s.bu with target := s.bu.target &&& 15, calSource := s.bu.calSource &&& 3, fwSource := s.bu.fwSource &&& 1 } } := by
  have hfields : bitsAt 32 10 6 = 0 ∧ bitsAt 32 0 4 = 0 ∧ bitsAt 32 6 2 = 0 ∧ bitsAt 32 8 1 = 0 ∧ bitAt 32 5 = true ∧ bitAt 0x00200020 5 = true
      ∧ bitAt 32 9 = false := by decide
  obtain ⟨hres, h0, h6, h8, hb5, hv5, hb9⟩ := hfields
  simp [State.buCtl, hres, h0, h6, h8, hb5, hv5, hb9, State.buRefuse]

theorem State.buCtl_abort (s : State) {u : State} (hu : u = { s with
      bu := { s.bu with target := s.bu.target &&& 15, calSource := s.bu.calSource &&& 3, fwSource := s.bu.fwSource &&& 1 } }) :
    s.buCtl 0x02000200 = if s.bu.st = .running then u.buSet .aborted 0x80 else u := by
  have hfields : bitsAt 512 10 6 = 0 ∧ bitsAt 512 0 4 = 0 ∧ bitsAt 512 6 2 = 0 ∧ bitsAt 512 8 1 = 0 ∧ bitAt 512 4 = false ∧ bitAt 512 5 = false
      ∧ bitAt 512 9 = true ∧ bitAt 0x02000200 9 = true := by decide
  obtain ⟨hres, h0, h6, h8, hb4, hb5, hb9, hv9⟩ := hfields
  subst hu
  simp [State.buCtl, hres, h0, h6, h8, hb4, hb5, hb9, hv9]

theorem BringUp.next_eq (b : BringUp) : b.next = match b.st with
    | .idle => b.stage + 1
    | .done => b.stage + 1
    | .disagree => 9
    | .running => b.stage
    | .failed => b.stage
    | .aborted => b.stage
    | .ready => b.stage := by
  unfold BringUp.next
  cases b.st <;> rfl

/-! The start of a stage (R357, R370). -/

/-- A change of bring-up's state, and the interrupt that tells of it, leave all but the functions, the output and bring-up alone. -/
theorem State.buSet_eq (s : State) (st : BuSt) (r : Nat) :
    ∃ fns out, s.buSet st r = { s with bu := { s.bu with st := st, result := r }, fns := fns, out := out } := by
  unfold State.buSet State.msix
  dsimp only
  (repeat' split) <;> exact ⟨_, _, rfl⟩

theorem State.buSet_cases (s : State) (st : BuSt) (r : Nat) : s.buSet st r =
    if s.bu.st = st then { s with bu := { s.bu with result := r } } else State.msix { s with bu := { s.bu with st := st, result := r } } 0 3 := by
  unfold State.buSet
  dsimp only
  split
  · next h => subst h; rfl
  · rfl

theorem State.stageStart_ten (s : State) (h : s.gleaner.fatal = false) : s.stageStart 10 = State.buSet { s with
      bu := { s.bu with
        stage := 10, start := s.reckon, done := 0, total := 0, repBytes := 0
        took := [s.bu.bufAddr, s.bu.bufLen, s.bu.repAddr, s.bu.repLen, s.bu.fwSource, s.bu.calSource] } } .running 0 := by
  simp [State.stageStart, h, State.stageEnter]

theorem State.stageStart_ten_eq {s : State} (h : s.gleaner.fatal = false) : ∃ b fns out, s.stageStart 10 = { s with bu := b, fns := fns, out := out }
    ∧ b = { s.bu with
        stage := 10, start := s.reckon, done := 0, total := 0, repBytes := 0, st := .running, result := 0
        took := [s.bu.bufAddr, s.bu.bufLen, s.bu.repAddr, s.bu.repLen, s.bu.fwSource, s.bu.calSource] } := by
  rw [State.stageStart_ten s h]
  obtain ⟨fns, out, heq⟩ := State.buSet_eq { s with bu := { s.bu with
        stage := 10, start := s.reckon, done := 0, total := 0, repBytes := 0
        took := [s.bu.bufAddr, s.bu.bufLen, s.bu.repAddr, s.bu.repLen, s.bu.fwSource, s.bu.calSource] } } .running 0
  exact ⟨_, fns, out, heq, rfl⟩

theorem State.acceptReport_starts {s : State} (h : s.gleaner.fatal = false) : s.acceptReport.bu.stage = 10 ∧ s.acceptReport.bu.st = .running
    ∧ s.acceptReport.accepted = true ∧ s.acceptReport.bu.accepting = true := by
  unfold State.acceptReport
  extract_lets bad s1
  have hfatal : s1.gleaner.fatal = false := by
    have hsteady : s1.steady = s.steady := foldl_steady _ _ _ fun s p => by simp
    rw [gleaner_of_steady hsteady, h]
  obtain ⟨b, fns, out, heq, hb⟩ := State.stageStart_ten_eq (s := { s1 with
    accepted := true, bu := { s1.bu with accepting := true, goal := 10 } }) hfatal
  dsimp only at heq ⊢
  rw [heq, hb]
  exact ⟨rfl, rfl, rfl, rfl⟩

theorem State.stageEnter_nine {s : State} (h : s.selfValid = false) : s.stageEnter 9 = s.buSet .failed 0x01 := by
  simp [State.stageEnter, h]

/-! The end of a stage. -/

theorem stageEnd_inside {s : State} {n : Nat} (h : s.inStage n) (f : State → State) : stageEnd n f s = .next (f s) := by
  obtain ⟨hn, hrun, hfatal⟩ := h
  simp [stageEnd, hn, hrun, hfatal]

theorem stageEnd_outside {s : State} {n : Nat} (h : ¬ s.inStage n) (f : State → State) : stageEnd n f s = .next (s.outOfStage n) := by
  unfold stageEnd State.outOfStage
  by_cases hrun : s.bu.stage = n ∧ s.bu.st = .running
  · have hfatal : s.gleaner.fatal = true := by
      by_contra hc
      exact h ⟨hrun.1, hrun.2, by simpa using hc⟩
    rw [if_pos hrun, if_pos hrun, if_pos hfatal]
  · rw [if_neg hrun, if_neg hrun]

theorem exec_lightCalibration_outside {s : State} (h : ¬ s.inStage 5) (fit : List (ModuleId × BitVec 128)) (op : List (Fin 4)) (a u : Bool)
    (tr : List (BitVec 32 × Byte)) : exec (.lightCalibration fit op a u tr) s = .next (s.outOfStage 5) := by
  change execLightCalibration fit op a u tr s = _
  unfold execLightCalibration
  split
  · next hwait =>
    have hidle : ¬(s.bu.stage = 5 ∧ s.bu.st = .running) := fun hr => h ⟨hr.1, hr.2, by simpa using hwait.2⟩
    rw [State.outOfStage, if_neg hidle]
  · exact stageEnd_outside h _

theorem exec_lightCalibration_waits {s : State} (hwait : s.calWaits = true) (hfatal : s.gleaner.fatal = false) (fit : List (ModuleId × BitVec 128))
    (op : List (Fin 4)) (a u : Bool) (tr : List (BitVec 32 × Byte)) : exec (.lightCalibration fit op a u tr) s = .next s := by
  change execLightCalibration fit op a u tr s = _
  simp [execLightCalibration, hwait, hfatal]

/-- The rows of bring-up's stages outside their stage. -/
theorem exec_stages_outside (b1 b2 b3 b4 : Bool) (v : BitVec 32) (h : Option FwImage) (k1 k2 : List ClusterId) (x : List (DieId × Fin 192))
    (s : State) : (¬ s.inStage 1 → exec (.standbyDomainSelfCheck b1 b2 v b3 b4) s = .next (s.outOfStage 1))
    ∧ (¬ s.inStage 2 → exec (.firmwareAuthentication h) s = .next (s.outOfStage 2))
    ∧ (s.pins.discharging = true → exec (.vin48SoftStart b1 b2 k1) s = .next s)
    ∧ (s.pins.discharging = false → ¬ s.inStage 3 → exec (.vin48SoftStart b1 b2 k1) s = .next (s.outOfStage 3))
    ∧ (¬ s.inStage 4 → exec (.clockDistribution b1 k2 x) s = .next (s.outOfStage 4)) := by
  refine ⟨fun ho => ?_, fun ho => ?_, fun hd => ?_, fun hd ho => ?_, fun ho => ?_⟩
  · change execStandbyDomainSelfCheck b1 b2 v b3 b4 s = _
    exact stageEnd_outside ho _
  · change execFirmwareAuthentication h s = _
    exact stageEnd_outside ho _
  · exact if_pos hd
  · exact (if_neg (by simp [hd])).trans (stageEnd_outside ho _)
  · change execClockDistribution b1 k2 x s = _
    exact stageEnd_outside ho _

/-! Stages 1, 2, 3, 7, 9 (Table 14-6). -/

section
variable {s : State}

theorem exec_standbyDomainSelfCheck (rail ref a b : Bool) (v : BitVec 32) {u : State} (hs : s.inStage 1)
    (hu : u = { s with rcalBoot := v.toNat, rcalHeld := false }) : exec (.standbyDomainSelfCheck rail ref v a b) s = .next (
      if rail = true then s.buSet .failed 0x01 else if ref = true then s.buSet .failed 0x02
      else if v.toNat < 1960000 ∨ 2040000 < v.toNat then s.buSet .failed 0x03
      else if a = true ∧ b = true then s.buSet .failed 0x04
      else if a = true then State.stagePass { u with
        helm := { s.helm with st := .single, retired := some 0, retireA := s.helm.retireA + 1 }
        reports := s.reports ++ [⟨0x30, 0, 0, s.reckon, none⟩] } 0
      else if b = true then State.stagePass { u with
        helm := { s.helm with st := .single, retired := some 1, retireB := s.helm.retireB + 1 }
        reports := s.reports ++ [⟨0x30, 1, 0, s.reckon, none⟩] } 0
      else State.stagePass { u with helm := { s.helm with st := .paired, retired := none } } 0) := by
  subst hu
  change execStandbyDomainSelfCheck rail ref v a b s = _
  refine (stageEnd_inside hs _).trans (congrArg Host.Outcome.next ?_)
  refine ite_congr rfl (fun _ => rfl) fun _ => ite_congr rfl (fun _ => rfl) fun _ => ite_congr rfl (fun _ => rfl) fun _ =>
    ite_congr rfl (fun _ => rfl) fun _ => ?_
  cases a
  · cases b <;> rfl
  · rfl

/-- Stage 2 with its images: the first one that authenticates is loaded, else the first image's result stands. -/
def State.fwLoad (s : State) (imgs : List (Nat × FwImage)) : State :=
  match imgs.find? fun x => (s.nv.fwRefusal x.2).isNone with
  | some (slot, i) => State.stagePass { s with helm := { s.helm with image := some i, fwA := i.version, fwB := i.version, bootSlot := slot } } 0
  | none => s.buSet .failed (match imgs with
    | (_, i) :: _ => (s.nv.fwRefusal i).getD 0x01
    | [] => 0x81)

theorem exec_firmwareAuthentication (host : Option FwImage) {imgs : List (Nat × FwImage)} (hs : s.inStage 2)
    (himgs : imgs = if s.bu.took.getD 4 0 = 0 then s.nv.fwOrder
      else if s.bu.took.getD 1 0 = 0 ∨ s.bu.took.getD 0 0 % 64 ≠ 0 then [] else host.toList.map fun i => (2, i)) :
    exec (.firmwareAuthentication host) s = .next (s.fwLoad imgs) := by
  subst himgs
  change execFirmwareAuthentication host s = _
  refine (stageEnd_inside hs _).trans (congrArg Host.Outcome.next ?_)
  cases host <;> rfl

theorem State.fwLoad_found {imgs : List (Nat × FwImage)} {slot : Nat} {i : FwImage}
    (h : imgs.find? (fun x => (s.nv.fwRefusal x.2).isNone) = some (slot, i)) : s.fwLoad imgs =
      State.stagePass { s with helm := { s.helm with image := some i, fwA := i.version, fwB := i.version, bootSlot := slot } } 0 := by
  simp only [State.fwLoad, h]

theorem State.fwLoad_nil : s.fwLoad [] = s.buSet .failed 0x81 := rfl

theorem State.fwLoad_refused {x : Nat × FwImage} {l : List (Nat × FwImage)} {e : Nat} (he : s.nv.fwRefusal x.2 = some e)
    (h : (x :: l).find? (fun x => (s.nv.fwRefusal x.2).isNone) = none) : s.fwLoad (x :: l) = s.buSet .failed e := by
  simp only [State.fwLoad, h, he, Option.getD_some]

theorem exec_vin48SoftStart (ok bad : Bool) (ks : List ClusterId) {u : State} (hd : s.pins.discharging = false) (hs : s.inStage 3)
    (hu : u = { s with pins := { s.pins with vin48 := ok } }) :
    exec (.vin48SoftStart ok bad ks) s = .next (if ok = false then u.buSet .failed 0x01 else if bad = true then u.buSet .failed 0x02
      else State.stagePass (State.clusterFails { u with pins := { u.pins with vinOpen := false } } 4 (ks.map fun k => k.val)) 0) := by
  subst hu
  change execVin48SoftStart ok bad ks s = _
  refine ((if_neg (by simp [hd])).trans (stageEnd_inside hs _)).trans (congrArg Host.Outcome.next ?_)
  cases ok <;> rfl

theorem NonVol.fwOrder_eq (nv : NonVol) (a b : FwImage) : (nv.fw0 = some a → nv.fw1 = some b →
      nv.fwOrder = if a.version < b.version then [(1, b), (0, a)] else [(0, a), (1, b)])
    ∧ (nv.fw0 = some a → nv.fw1 = none → nv.fwOrder = [(0, a)]) ∧ (nv.fw0 = none → nv.fw1 = some b → nv.fwOrder = [(1, b)])
    ∧ (nv.fw0 = none → nv.fw1 = none → nv.fwOrder = []) := by
  unfold NonVol.fwOrder
  refine ⟨?_, ?_, ?_, ?_⟩ <;> (intro h0 h1; rw [h0, h1])

theorem exec_hbmBringup_bad {stack repair : Bool} (r : List GranuleId) (hs : s.inStage 7) (hbad : stack = true ∨ repair = true) :
    exec (.hbmBringup stack repair r) s = .next (s.buSet .failed (if stack = true then 0x01 else 0x02)) := by
  change execHbmBringup stack repair r s = _
  refine (stageEnd_inside hs _).trans (congrArg Host.Outcome.next ?_)
  cases stack
  · have hrepair : repair = true := by simpa using hbad
    subst hrepair
    rfl
  · rfl

theorem exec_edgeTrainingSighting (hs : s.inStage 9) : exec .edgeTrainingSighting s = .next (
      if (List.range 72).any (fun p => portFitted (s.stageReport s.sightReport).2.variant p
          && sightDisagrees ((s.stageReport s.sightReport).2.sightResult p)) = true then
        (s.stageReport s.sightReport).2.buSet .disagree 0x02
      else (s.stageReport s.sightReport).2.stagePass (s.stageReport s.sightReport).1) := by
  change execEdgeTrainingSighting s = _
  exact stageEnd_inside hs _

theorem exec_ready_below (hs : s.inStage 10) (h : 3 ∈ s.gleaner.pending ∨ ∃ d, d < 16 ∧ s.usableOn d < coreMinimum s.variant) :
    exec .ready s = .next (s.buSet .failed 0x01) := by
  change execReady s = _
  refine (stageEnd_inside hs _).trans (congrArg Host.Outcome.next (if_pos ?_))
  simpa using h
end

end Sys2Proof.Machine
end

section
/-! PROOFS. Stages 4 and 5 of bring-up: clocks, crossings and the calibration of the light (R368, R389, R390). -/
namespace Sys2Proof.Machine

/-! Tables that a stage writes whole. -/

theorem tget_of_mem {β : Type} {d : β} {m : Map β} {k : Nat} {v : β} (hmem : (k, v) ∈ m) (huniq : ∀ w, (k, w) ∈ m → w = v) : tget d m k = v := by
  induction m with
  | nil => simp at hmem
  | cons x m ih =>
    obtain ⟨j, w⟩ := x
    by_cases hj : j = k
    · subst hj
      simp only [tget, if_true]
      exact huniq w List.mem_cons_self
    · simp only [tget, if_neg hj]
      refine ih ?_ fun w hw => huniq w (List.mem_cons_of_mem _ hw)
      simpa [Ne.symm hj] using hmem

theorem tget_of_not_mem {β : Type} {d : β} {m : Map β} {k : Nat} (h : ∀ w, (k, w) ∉ m) : tget d m k = d := by
  induction m with
  | nil => rfl
  | cons x m ih =>
    obtain ⟨j, w⟩ := x
    have hj : j ≠ k := by
      rintro rfl
      exact h w List.mem_cons_self
    simp only [tget, if_neg hj]
    exact ih fun w hw => h w (List.mem_cons_of_mem _ hw)

theorem tget_crossings (v : Nat → Nat → Nat) {d i : Nat} (hd : d < 16) (hi : i < 192) :
    tget 0 ((List.range 16).flatMap fun d => (List.range 192).map fun i => (256 * d + i, v d i)) (256 * d + i) = v d i := by
  refine tget_of_mem ?_ fun w hw => ?_
  · simp only [List.mem_flatMap, List.mem_map, List.mem_range]
    exact ⟨d, hd, i, hi, rfl⟩
  · simp only [List.mem_flatMap, List.mem_map, List.mem_range, Prod.mk.injEq] at hw
    obtain ⟨d', -, i', hi', hkey, rfl⟩ := hw
    obtain ⟨rfl, rfl⟩ : d' = d ∧ i' = i := by omega
    rfl

/-! Stage 4. -/

@[simp] theorem steady_alignDie (s : State) (d : Nat) : (s.alignDie d).steady = s.steady := rfl

theorem State.crossDown_of_steady {s t : State} (h : t.steady = s.steady) (d i : Nat) : t.crossDown d i = s.crossDown d i :=
  (congrArg (fun x => x.crossDown d i) h : t.steady.crossDown d i = s.steady.crossDown d i)

section
variable {s : State}

theorem exec_clockDistribution_lost (ks : List ClusterId) (xs : List (DieId × Fin 192)) (hs : s.inStage 4) :
    exec (.clockDistribution true ks xs) s = .next (s.buSet .failed 0x01) := by
  change execClockDistribution true ks xs s = _
  exact stageEnd_inside hs _

theorem exec_clockDistribution_locked (ks : List ClusterId) (xs : List (DieId × Fin 192)) {a u w : State} (hs : s.inStage 4)
    (ha : a = (List.range 16).foldl (fun s d => s.alignDie d) s)
    (hu : u = { a with cross := (List.range 16).flatMap fun d => (List.range 192).map fun i => (256 * d + i, if a.crossDown d i then 0xFFFF else 0x0303) })
    (hw : w = xs.foldl (fun s x => (s.retireCrossing (256 * x.1.val + x.2.val)).report 0x08 (256 * x.1.val + x.2.val) 0) u) :
    exec (.clockDistribution false ks xs) s = .next (State.stagePass (w.clusterFails 3 (ks.map fun k => k.val)) 0) := by
  subst hw hu ha
  change execClockDistribution false ks xs s = _
  exact stageEnd_inside hs _

theorem State.stagePass_last {n : Nat} (hn : s.bu.stage = n) (hgoal : s.bu.goal = n) (r : Nat) : s.stagePass r = s.buSet .done r := by
  simp [State.stagePass, hn, hgoal]

theorem exec_clockDistribution_clean (hs : s.inStage 4) (hgoal : s.bu.goal = 4) :
    ∃ t : State, exec (.clockDistribution false [] []) s = .next t ∧ t.bu.st = .done
      ∧ ∀ d i, d < 16 → i < 192 → tget 0 t.cross (256 * d + i) = if s.crossDown d i = true then 0xFFFF else 0x0303 := by
  have halign : ((List.range 16).foldl (fun s d => s.alignDie d) s).steady = s.steady := foldl_steady _ _ _ steady_alignDie
  have hexec := exec_clockDistribution_locked [] [] hs rfl rfl rfl
  generalize (List.range 16).foldl (fun s d => s.alignDie d) s = a at halign hexec
  have hbu : a.bu = s.bu := (congrArg State.bu halign : a.steady.bu = s.steady.bu)
  simp only [List.foldl_nil, List.map_nil, State.clusterFails] at hexec
  rw [State.stagePass_last (n := 4) (hbu ▸ hs.1) (hbu ▸ hgoal)] at hexec
  obtain ⟨fns, out, heq⟩ := State.buSet_eq { a with
    cross := (List.range 16).flatMap fun d => (List.range 192).map fun i => (256 * d + i, if a.crossDown d i then 0xFFFF else 0x0303) } .done 0
  rw [heq] at hexec
  refine ⟨_, hexec, rfl, fun d i hd hi => ?_⟩
  rw [← State.crossDown_of_steady halign]
  exact tget_crossings (fun d i => if a.crossDown d i = true then 0xFFFF else 0x0303) hd hi
end

/-! The modules that stage 5 finds (R187). -/

/-- The place of a module after stage 5 has looked at it. -/
def State.moduleFound (s : State) (fit : List (Fin 12 × Nat)) (m : Nat) : Module :=
  match fit.find? fun x => decide (x.1.val = m) with
  | none => { Module.init with retired := (s.module m).retired }
  | some (_, serial) =>
    { fitted := true, admitted := bitAt s.pins.intlk (m / 3) && !decide ((s.module m).retired = some serial), failed := false, released := false
      serial := serial, retired := if (s.module m).retired = some serial then some serial else none }

/-- One module of stage 5. -/
def State.admitOne (fit : List (Fin 12 × Nat)) (s : State) (m : Nat) : State :=
  match fit.find? fun x => decide (x.1.val = m) with
  | none => s.setModule m { Module.init with retired := (s.module m).retired }
  | some (_, serial) =>
    let ok := bitAt s.pins.intlk (m / 3) && !decide ((s.module m).retired = some serial)
    let s1 := s.setModule m { fitted := true, admitted := ok, failed := false, released := false, serial := serial
                              retired := if (s.module m).retired = some serial then some serial else none }
    let s2 := s1.calWrite 7 (1536 + 16 * m) (leBytes 16 serial)
    if ok then { s2 with pins := { s2.pins with lhEn := s2.pins.lhEn ||| 2 ^ m } } else s2

theorem State.admitFitted_eq (s : State) (fit : List (Fin 12 × Nat)) : s.admitFitted fit = (List.range 12).foldl (State.admitOne fit) s := rfl

section
variable (fit : List (Fin 12 × Nat)) (s : State) (m : Nat)

theorem State.admitOne_modules : (s.admitOne fit m).modules = tset Module.init s.modules m (s.moduleFound fit m) := by
  unfold State.admitOne State.moduleFound
  split
  · rfl
  · dsimp only
    split <;> rfl

theorem State.module_admitOne (j : Nat) : (s.admitOne fit m).module j = if j = m then s.moduleFound fit m else s.module j := by
  rw [State.module, State.admitOne_modules, tget_tset]
  rfl

theorem State.admitOne_intlk : (s.admitOne fit m).pins.intlk = s.pins.intlk := by
  unfold State.admitOne
  split
  · rfl
  · dsimp only
    split <;> rfl

theorem State.admitOne_bu : (s.admitOne fit m).bu = s.bu := by
  unfold State.admitOne
  split
  · rfl
  · dsimp only
    split <;> rfl

theorem State.moduleFound_congr {t : State} (hp : t.pins.intlk = s.pins.intlk) (hm : t.module m = s.module m) :
    t.moduleFound fit m = s.moduleFound fit m := by
  simp only [State.moduleFound, hp, hm]

theorem State.module_admitAll {l : List Nat} (hl : l.Nodup) {j : Nat} (hj : j ∈ l) :
    (l.foldl (State.admitOne fit) s).module j = s.moduleFound fit j := by
  have hkeep : ∀ (l : List Nat) (s : State), j ∉ l → (l.foldl (State.admitOne fit) s).module j = s.module j := by
    intro l
    induction l with
    | nil => exact fun _ _ => rfl
    | cons m l ih =>
      intro s hn
      rw [List.mem_cons, not_or] at hn
      rw [List.foldl_cons, ih _ hn.2, State.module_admitOne, if_neg hn.1]
  induction l generalizing s with
  | nil => simp at hj
  | cons m l ih =>
    rw [List.nodup_cons] at hl
    rw [List.foldl_cons]
    by_cases hm : j = m
    · subst hm
      rw [hkeep l _ hl.1, State.module_admitOne, if_pos rfl]
    · have hjl : j ∈ l := by simpa [hm] using hj
      rw [ih (s.admitOne fit m) hl.2 hjl]
      exact State.moduleFound_congr fit s j (State.admitOne_intlk fit s m) (by rw [State.module_admitOne, if_neg hm])

theorem State.module_admitFitted {m : Nat} (hm : m < 12) : (s.admitFitted fit).module m = s.moduleFound fit m :=
  State.module_admitAll fit s List.nodup_range (List.mem_range.mpr hm)
theorem State.admitFitted_intlk : (s.admitFitted fit).pins.intlk = s.pins.intlk :=
  foldl_field (fun t : State => t.pins.intlk) (State.admitOne fit) (State.admitOne_intlk fit) _ s
theorem State.admitFitted_bu : (s.admitFitted fit).bu = s.bu := foldl_field State.bu (State.admitOne fit) (State.admitOne_bu fit) _ s
end

/-! The calibration values that stage 5 writes. -/

/-- The machine without its calibration values, sensors and counter of free values. -/
def State.uncal (s : State) : State :=
  { s with cal := State.reset.cal, calHeld := [], freeCtr := 0, sensors := [] }

theorem foldl_uncal {α : Type} (f : State → α → State) (l : List α) (s : State) (hf : ∀ s a, (f s a).uncal = s.uncal) :
    (l.foldl f s).uncal = s.uncal := foldl_field State.uncal f hf l s

section
variable {s t : State} (h : t.uncal = s.uncal)
include h

theorem bu_of_uncal : t.bu = s.bu := (congrArg State.bu h : t.uncal.bu = s.uncal.bu)
theorem intlk_of_uncal : t.pins.intlk = s.pins.intlk := (congrArg (fun x : State => x.pins.intlk) h : t.uncal.pins.intlk = s.uncal.pins.intlk)
theorem module_of_uncal (m : Nat) : t.module m = s.module m := (congrArg (fun x : State => x.module m) h : t.uncal.module m = s.uncal.module m)
end

@[simp] theorem uncal_calWrite (s : State) (sec off : Nat) (bs : List Byte) : (s.calWrite sec off bs).uncal = s.uncal := rfl
@[simp] theorem uncal_calPut (s : State) (sec off : Nat) (bs : List Byte) : (s.calPut sec off bs).uncal = s.uncal := by
  unfold State.calPut
  split <;> rfl
@[simp] theorem uncal_calApply (s : State) (may : Nat → Nat → Bool) (trims : List (BitVec 32 × Byte)) : (s.calApply may trims).uncal = s.uncal := by
  refine foldl_uncal _ _ _ fun s x => ?_
  obtain ⟨a, v⟩ := x
  dsimp only
  split
  · split
    · exact uncal_calPut _ _ _ _
    · rfl
  · rfl
@[simp] theorem uncal_centreBands (s : State) : s.centreBands.uncal = s.uncal := by
  refine foldl_uncal _ _ _ fun s z => ?_
  split <;> rfl
@[simp] theorem uncal_syncSensors (s : State) (l : List Nat) : (s.syncSensors l).uncal = s.uncal := foldl_uncal _ _ _ fun _ _ => rfl
@[simp] theorem uncal_resync (s : State) (old : List Byte) : (s.resync old).uncal = s.uncal := uncal_syncSensors _ _

/-! Stage 5. -/

/-- The calibration image that stage 5 restores, if it restores one. -/
def State.calSourceImage (s : State) : Option CalImage :=
  if s.bu.took.getD 5 0 = 1 then s.nv.calPick
  else if s.bu.took.getD 5 0 = 2 then s.calImage.filter (fun i => decide (i.reason = 0)) else none

/-- Whether stage 5 runs warm. -/
def State.warmRun (s : State) (abandoned : Bool) : Bool := s.calSourceImage.isSome && !abandoned

/-- The package with its modules admitted, before the values of its light are restored and trimmed. -/
def State.lightFitted (s : State) (fit : List (ModuleId × BitVec 128)) (opened : List (Fin 4)) (abandoned : Bool) : State :=
  State.admitFitted { s with
    cal := match s.calSourceImage with
      | some i => if s.warmRun abandoned then i.cells else s.cal
      | none => s.cal
    calImage := none
    pins := { s.pins with intlk := 15 - opened.foldl (fun a b => a ||| 2 ^ b.val) 0, lhEn := 0 } } (fit.map fun (m, v) => (m, v.toNat))

/-- A module with the serial number that it has in the restored image. -/
def State.sameModule (s : State) (t : State) (m : Nat) : Bool := match s.calSourceImage with
  | some i => decide (i.serials.getD m 0 = (t.module m).serial)
  | none => false

/-- The package at the end of stage 5's trimming. -/
def State.lightTrimmed (s : State) (fit : List (ModuleId × BitVec 128)) (opened : List (Fin 4)) (abandoned : Bool)
    (trims : List (BitVec 32 × Byte)) : State :=
  let s0 := s.lightFitted fit opened abandoned
  let s1 := s0.calApply (fun sec off => !s.warmRun abandoned || s0.warmTrim (s.sameModule s0) sec off) trims
  (if s.warmRun abandoned then s1 else s1.centreBands).resync (memRead s.cal (calBase 6) 1152)

section
variable {s : State} (fit : List (ModuleId × BitVec 128)) (op : List (Fin 4)) (a u : Bool) (tr : List (BitVec 32 × Byte))

theorem exec_lightCalibration_inside (hs : s.inStage 5) (hwait : s.calWaits = false) {t : State} (ht : t = s.lightTrimmed fit op a tr) :
    exec (.lightCalibration fit op a u tr) s = .next (if t.availModules.length < 10 then t.buSet .failed 0x01
      else if u = true then t.buSet .failed 0x02
      else State.stagePass { t with bu := { t.bu with warm := s.warmRun a } } 0) := by
  change execLightCalibration fit op a u tr s = _
  rw [execLightCalibration, if_neg (by simp [hwait]), stageEnd_inside hs, ht]
  unfold State.lightTrimmed State.lightFitted State.sameModule State.warmRun State.calSourceImage
  generalize (if s.bu.took.getD 5 0 = 1 then s.nv.calPick
    else if s.bu.took.getD 5 0 = 2 then s.calImage.filter (fun i => decide (i.reason = 0)) else none) = img
  cases img <;> dsimp only

theorem uncal_lightTrimmed : (s.lightTrimmed fit op a tr).uncal = (s.lightFitted fit op a).uncal := by
  unfold State.lightTrimmed
  dsimp only
  rw [uncal_resync]
  split <;> simp

theorem State.lightTrimmed_bu : (s.lightTrimmed fit op a tr).bu = s.bu := by
  rw [bu_of_uncal (uncal_lightTrimmed fit op a tr), State.lightFitted, State.admitFitted_bu]

theorem State.lightTrimmed_intlk : (s.lightTrimmed fit op a tr).pins.intlk = 15 - op.foldl (fun a b => a ||| 2 ^ b.val) 0 := by
  rw [intlk_of_uncal (uncal_lightTrimmed fit op a tr), State.lightFitted, State.admitFitted_intlk]

/-- A module of stage 5, by the interlocks and by what was found fitted. -/
theorem State.lightTrimmed_module {m : Nat} (hm : m < 12) {w : State} (hmod : w.module m = s.module m)
    (hpins : w.pins.intlk = 15 - op.foldl (fun a b => a ||| 2 ^ b.val) 0) :
    (s.lightTrimmed fit op a tr).module m = w.moduleFound (fit.map fun (m, v) => (m, v.toNat)) m := by
  rw [module_of_uncal (uncal_lightTrimmed fit op a tr), State.lightFitted, State.module_admitFitted _ _ hm]
  exact State.moduleFound_congr _ _ _ hpins.symm hmod.symm
end

/-! Modules behind interlocks (R187, R482). -/

theorem State.moduleFound_closed {s : State} {m : Nat} (h : bitAt s.pins.intlk (m / 3) = false) (fit : List (Fin 12 × Nat)) :
    (s.moduleFound fit m).admitted = false := by
  unfold State.moduleFound
  split
  · rfl
  · simp [h]

theorem State.moduleFound_open {s : State} {m : Nat} {fit : List (Fin 12 × Nat)} (hfit : ∃ v, ∃ k : Fin 12, k.val = m ∧ (k, v) ∈ fit)
    (h : bitAt s.pins.intlk (m / 3) = true) (hret : (s.module m).retired = none) :
    (s.moduleFound fit m).admitted = true ∧ (s.moduleFound fit m).available = true := by
  obtain ⟨v, k, hk, hmem⟩ := hfit
  have hfound : (fit.find? fun x => decide (x.1.val = m)).isSome = true := List.find?_isSome.mpr ⟨(k, v), hmem, by simpa using hk⟩
  obtain ⟨x, hx⟩ := Option.isSome_iff_exists.mp hfound
  simp [State.moduleFound, Module.available, hx, h, hret]

section
variable {s : State} (fit : List (ModuleId × BitVec 128)) (a u : Bool) (tr : List (BitVec 32 × Byte))

/-- Stage 5 with every module fitted and every interlock closed. -/
theorem exec_lightCalibration_fitted (hs : s.inStage 5) (hgoal : s.bu.goal = 5) (hwait : s.calWaits = false)
    (hfit : ∀ m : ModuleId, ∃ v, (m, v) ∈ fit) (hret : ∀ m, m < 12 → (s.module m).retired = none) :
    ∃ t : State, exec (.lightCalibration fit [] a u tr) s = .next t ∧ t.bu.st = (if u = true then .failed else .done)
      ∧ t.bu.result = (if u = true then 0x02 else 0x00) ∧ t.pins.intlk = 15 ∧ (∀ m, m < 12 → (t.module m).admitted = true)
      ∧ (∀ i, s.calImage = some i → i.reason = 0 → s.bu.took.getD 5 0 = 2 → a = false → u = false → t.bu.warm = true)
      ∧ (s.bu.took.getD 5 0 = 0 → s.bu.warm = false → t.bu.warm = false) := by
  have hexec := exec_lightCalibration_inside fit [] a u tr hs hwait rfl
  have hbu := State.lightTrimmed_bu (s := s) fit [] a tr
  have hintlk := State.lightTrimmed_intlk (s := s) fit [] a tr
  have hbits : ∀ m, m < 12 → bitAt 15 (m / 3) = true := by decide
  have hmod : ∀ m, m < 12 → ((s.lightTrimmed fit [] a tr).module m).admitted = true
      ∧ ((s.lightTrimmed fit [] a tr).module m).available = true := by
    intro m hm
    rw [State.lightTrimmed_module fit [] a tr (s := s) hm (w := { s with pins := { s.pins with intlk := 15 } }) rfl rfl]
    refine State.moduleFound_open ?_ (hbits m hm) (hret m hm)
    obtain ⟨v, hv⟩ := hfit ⟨m, hm⟩
    exact ⟨v.toNat, ⟨m, hm⟩, rfl, List.mem_map.mpr ⟨_, hv, rfl⟩⟩
  generalize s.lightTrimmed fit [] a tr = t at hexec hbu hintlk hmod
  have havail : ¬t.availModules.length < 10 := by
    have hall : t.availModules = List.range 12 := List.filter_eq_self.mpr fun m hm => (hmod m (List.mem_range.mp hm)).2
    simp [hall]
  rw [if_neg havail] at hexec
  cases u
  case true =>
    obtain ⟨fns, out, heq⟩ := t.buSet_eq .failed 0x02
    rw [if_pos rfl, heq] at hexec
    refine ⟨_, hexec, rfl, rfl, hintlk, fun m hm => (hmod m hm).1, fun i _ _ _ _ h => absurd h (by simp), fun _ h => ?_⟩
    exact (congrArg BringUp.warm hbu).trans h
  case false =>
    obtain ⟨fns, out, heq⟩ := State.buSet_eq { t with bu := { t.bu with warm := s.warmRun a } } .done 0
    rw [if_neg (by simp), State.stagePass_last (n := 5) (hbu ▸ hs.1) (hbu ▸ hgoal), heq] at hexec
    refine ⟨_, hexec, rfl, rfl, hintlk, fun m hm => (hmod m hm).1, fun i hi hr htook ha _ => ?_, fun htook _ => ?_⟩
    · change s.warmRun a = true
      rw [State.warmRun, State.calSourceImage, htook, hi]
      simp [hr, ha]
    · change s.warmRun a = false
      rw [State.warmRun, State.calSourceImage, htook]
      simp

/-- Stage 5 with one interlock open: its block's modules are not there, and too few are left. -/
theorem exec_lightCalibration_opened (k : Fin 4) (hs : s.inStage 5) (hwait : s.calWaits = false) :
    ∃ t : State, exec (.lightCalibration fit [k] a u tr) s = .next t ∧ t.bu.st = .failed ∧ t.bu.result = 0x01 ∧ bitAt t.pins.intlk k.val = false
      ∧ ∀ i, i < 3 → (t.module (3 * k.val + i)).admitted = false := by
  have hexec := exec_lightCalibration_inside fit [k] a u tr hs hwait rfl
  have hintlk := State.lightTrimmed_intlk (s := s) fit [k] a tr
  have hclosed : bitAt (15 - [k].foldl (fun a b => a ||| 2 ^ b.val) 0) k.val = false := by fin_cases k <;> rfl
  have hmod : ∀ m, m < 12 → m / 3 = k.val → ((s.lightTrimmed fit [k] a tr).module m).admitted = false := by
    intro m hm hk
    rw [State.lightTrimmed_module fit [k] a tr (s := s) hm
      (w := { s with pins := { s.pins with intlk := 15 - [k].foldl (fun a b => a ||| 2 ^ b.val) 0 } }) rfl rfl]
    exact State.moduleFound_closed (by rw [hk]; exact hclosed) _
  generalize s.lightTrimmed fit [k] a tr = t at hexec hintlk hmod
  have havail : t.availModules.length < 10 := by
    have hle : t.availModules.length ≤ ((List.range 12).filter fun m => decide (m / 3 ≠ k.val)).length := by
      simp only [State.availModules, ← List.countP_eq_length_filter]
      refine List.countP_mono_left fun m hm hav => ?_
      by_contra hk
      simp [Module.available, hmod m (List.mem_range.mp hm) (by simpa using hk)] at hav
    have hnine : ((List.range 12).filter fun m => decide (m / 3 ≠ k.val)).length = 9 := by fin_cases k <;> rfl
    omega
  obtain ⟨fns, out, heq⟩ := t.buSet_eq .failed 0x01
  rw [if_pos havail, heq] at hexec
  refine ⟨_, hexec, rfl, rfl, ?_, fun i hi => hmod _ (by omega) (by omega)⟩
  change bitAt t.pins.intlk k.val = false
  rw [hintlk, hclosed]

theorem exec_calImageWaitTimeout (s : State) : exec .calImageWaitTimeout s = .next (if s.bu.stage = 5 ∧ s.bu.st = .running ∧ s.calWaits = true then
      { s with bu := { s.bu with took := listSet s.bu.took 5 0 } } else s) := rfl
end

end Sys2Proof.Machine
end

section
/-! PROOFS. Stage 6 of bring-up: the dies, their cores and the units that fail (R370 to R373). -/
namespace Sys2Proof.Machine

/-! Units that leave service keep the cores' list, and take no die back. -/

theorem coreDown_of_steady {s t : State} (h : t.steady = s.steady) : t.coreDown = s.coreDown :=
  (congrArg State.coreDown h : t.steady.coreDown = s.steady.coreDown)
theorem dieDown_of_steady {s t : State} (h : t.steady = s.steady) : t.dieDown = s.dieDown :=
  (congrArg State.dieDown h : t.steady.dieDown = s.steady.dieDown)
theorem bistReports_of_fixtures {s t : State} (h : t.fixtures = s.fixtures) : t.bistReports = s.bistReports :=
  (congrArg State.reports h : t.fixtures.reports = s.fixtures.reports)
theorem bu_of_fixtures {s t : State} (h : t.fixtures = s.fixtures) : t.bu = s.bu :=
  (congrArg State.bu h : t.fixtures.bu = s.fixtures.bu)

/-- A later state with the same cores out, and with every die out that was out. -/
structure State.DiesShrink (s t : State) : Prop where
  cores : t.coreDown = s.coreDown
  dies : ∀ d ∈ s.dieDown, d ∈ t.dieDown
  fixtures : t.fixtures = s.fixtures

section
variable {s t u : State}

theorem State.DiesShrink.refl (s : State) : s.DiesShrink s := ⟨rfl, fun _ h => h, rfl⟩

theorem State.DiesShrink.trans (h : s.DiesShrink t) (h' : t.DiesShrink u) : s.DiesShrink u :=
  ⟨h'.cores.trans h.cores, fun d hd => h'.dies d (h.dies d hd), h'.fixtures.trans h.fixtures⟩

theorem State.DiesShrink.of_steady (h : t.steady = s.steady) : s.DiesShrink t :=
  ⟨coreDown_of_steady h, fun d hd => by rwa [dieDown_of_steady h], fixtures_of_steady h⟩

theorem State.DiesShrink.foldl {α : Type} {f : State → α → State} (hf : ∀ (s : State) a, s.DiesShrink (f s a)) (l : List α) (s : State) :
    s.DiesShrink (l.foldl f s) := by
  induction l generalizing s with
  | nil => exact .refl s
  | cons a l ih => exact (hf s a).trans (ih _)
end

section
variable (s : State)

theorem State.diesShrink_report {k : Nat} (hk : k ≠ 0x04) (u d : Nat) : s.DiesShrink (s.report k u d) :=
  .of_steady (steady_report s hk u d)

theorem State.diesShrink_dieOut (d cause : Nat) : s.DiesShrink (s.dieOut d cause) :=
  ⟨rfl, fun _ hx => mem_insertSorted.mpr (.inr hx), rfl⟩

theorem State.diesShrink_dieCheck (n d : Nat) : s.DiesShrink (s.dieCheck n d) := by
  unfold State.dieCheck
  extract_lets m s1
  have h1 : s.DiesShrink s1 := by
    unfold s1
    split
    · exact s.diesShrink_dieOut d 5
    · exact .refl s
  split
  · exact h1.trans (s1.diesShrink_report (by decide) _ _)
  · exact h1

theorem State.diesShrink_clusterDown (x : List Nat) : s.DiesShrink { s with clusterDown := x } := ⟨rfl, fun _ h => h, rfl⟩
theorem State.diesShrink_meshDown (x : List Nat) : s.DiesShrink { s with meshDown := x } := ⟨rfl, fun _ h => h, rfl⟩
theorem State.diesShrink_dieCause (x : Map Nat) : s.DiesShrink { s with dieCause := x } := ⟨rfl, fun _ h => h, rfl⟩
theorem State.diesShrink_mapChange : s.DiesShrink s.mapChange := .of_steady (steady_mapChange s)

theorem State.diesShrink_retireCluster (g : Nat) : s.DiesShrink (s.retireCluster g) := by
  unfold State.retireCluster
  split
  · exact .refl s
  · exact (((State.DiesShrink.of_steady (steady_resetCluster s g .off)).trans (State.diesShrink_clusterDown _ _)).trans
      (State.diesShrink_mapChange _)).trans (State.diesShrink_dieCheck _ _ _)

theorem State.diesShrink_retireMeshLink (l : Nat) : s.DiesShrink (s.retireMeshLink l) := by
  unfold State.retireMeshLink
  extract_lets c dir
  split
  · exact s.diesShrink_retireCluster _
  · split
    · exact .refl s
    · exact (s.diesShrink_meshDown _).trans (State.diesShrink_mapChange _)

theorem State.diesShrink_clusterFails (cause : Nat) (ks : List Nat) : s.DiesShrink (s.clusterFails cause ks) :=
  .foldl (fun s k => ((s.diesShrink_dieCause _).trans (State.diesShrink_retireCluster _ k)).trans
    (State.diesShrink_report _ (k := 0x44) (by decide) _ _)) ks s
end

/-! Stage 6, step by step. -/

/-- The cores of a list that fail their self-test: a fused one is not tested. -/
def State.bistFailed (s : State) (cores : List CoreId) : List Nat := (cores.map (·.val)).filter fun c => !s.nv.fusedCores.contains c

/-- The package with the cores that failed their self-test out and reported. -/
def State.bistOut (s : State) (bist : List Nat) : State :=
  bist.foldl (fun (s : State) c => s.report 0x04 c 0) { s with coreDown := mergeSorted s.coreDown bist }

/-- The cluster regulators and mesh links that fail. -/
def State.unitsOut (s : State) (regulators : List ClusterId) (links : List (Fin 32768)) : State :=
  links.foldl (fun (s : State) l => (s.retireMeshLink l.val).report 0x07 l.val 0) (s.clusterFails 4 (regulators.map (·.val)))

/-- The clusters that have not failed are up. -/
def State.clustersOn (s : State) : State := { s with clusterUp := (List.range 256).filter fun k => !s.clusterOut k }

/-- The usable cores, running and zeroed. -/
def State.runningCores (s : State) : Map Core :=
  ((List.range 16384).filter s.coreUsable).map fun c => (c, { Core.init with power := .running })

/-- Cores as they come up, with the next generation of the map. -/
def State.coresOn (s : State) (cores : Map Core) : State :=
  { s with cores := cores, generation := (s.generation + 1) % 2 ^ 32, changed := s.reckon }

/-- The package of stage 6 before its map is built. -/
def State.diesTested (s : State) (cores : List CoreId) (regulators : List ClusterId) (links : List (Fin 32768)) : State :=
  ((s.bistOut (s.bistFailed cores)).unitsOut regulators links).clustersOn

/-- The dies without a usable core are out. -/
def State.emptyDiesOut (s : State) (bist : List Nat) : State :=
  ((List.range 16).filter fun d => decide (s.usableOn d = 0)).foldl (fun (s : State) d =>
    s.dieOut d (if tget 0 s.dieCause d ≠ 0 then tget 0 s.dieCause d else if bist.any (fun c => decide (coreDie c = d)) then 2 else 1)) s

/-- The package when its cores have come up. -/
def State.diesUpBy (s : State) (cores : List CoreId) (regulators : List ClusterId) (links : List (Fin 32768)) : State :=
  ((s.diesTested cores regulators links).coresOn (s.diesTested cores regulators links).runningCores).emptyDiesOut (s.bistFailed cores)

/-- The end of stage 6: its report, the fuse load and the minimum of cores of every die. -/
def State.diesReport (s : State) (fuseBad : List DieId) : State :=
  let (r, u) := s.stageReport s.floorPlan
  if !fuseBad.isEmpty then u.buSet .failed 0x02
  else if (List.range 16).any fun d => decide (u.usableOn d < coreMinimum u.variant) then u.buSet .failed 0x01
  else u.stagePass r

section
variable {s : State} (cs : List CoreId) (ks : List ClusterId) (ls : List (Fin 32768)) (ds : List DieId)

theorem exec_dieBringup (hs : s.inStage 6) : exec (.dieBringup cs ks ls ds) s = .next ((s.diesUpBy cs ks ls).diesReport ds) := by
  change execDieBringup cs ks ls ds s = _
  rw [execDieBringup, stageEnd_inside hs]
  extract_lets bist s1 s2 s3 running s4 s5
  have h5 : s5 = s4.emptyDiesOut bist := rfl
  clear_value s5
  have h4 : s4 = s3.coresOn s3.runningCores := rfl
  clear_value s4
  have h3 : s3 = s2.clustersOn := rfl
  clear_value s3
  have h2 : s2 = s1.unitsOut ks ls := rfl
  clear_value s2
  have h1 : s1 = s.bistOut bist := rfl
  clear_value s1
  have h0 : bist = s.bistFailed cs := rfl
  clear_value bist
  rw [State.diesUpBy, State.diesTested, ← h0, ← h1, ← h2, ← h3, ← h4, ← h5]
  rfl

theorem State.stageReport_eq (s : State) (bs : List Byte) :
    ∃ out n, (s.stageReport bs).2 = { s with out := out, bu := { s.bu with repBytes := n } } := by
  unfold State.stageReport
  dsimp only
  split
  · exact ⟨_, _, rfl⟩
  · split <;> exact ⟨_, _, rfl⟩
end

/-! Cores in service. -/

theorem coreMinimum_pos (v : Nat) : 0 < coreMinimum v := by
  unfold coreMinimum
  split <;> norm_num
theorem coreMinimum_le (v : Nat) : coreMinimum v ≤ 1024 := by
  unfold coreMinimum
  split <;> norm_num

theorem State.usableOn_dieDown {s : State} {d : Nat} (h : d ∈ s.dieDown) : s.usableOn d = 0 := by
  rw [State.usableOn, List.length_eq_zero_iff, List.filter_eq_nil_iff]
  intro i hi
  have hdie : coreDie (1024 * d + i) = d := by
    rw [List.mem_range] at hi
    rw [coreDie]
    omega
  simp [State.coreUsable, hdie, h]

theorem State.coreUsable_coreDown {s : State} {c : Nat} (h : c ∈ s.coreDown) : s.coreUsable c = false := by
  simp [State.coreUsable, State.coreOut, h]

theorem coreCluster_lt {c : Nat} (h : c < 16384) : coreCluster c < 256 := by
  simp only [coreCluster, coreDie, coreX, coreY]
  omega

theorem State.coreUsable_all {s : State} (hc : s.coreDown = []) (hk : s.clusterDown = []) (hd : s.dieDown = []) (hf : s.nv.fusedCores = [])
    (hup : s.clusterUp = List.range 256) {c : Nat} (h : c < 16384) : s.coreUsable c = true := by
  simp [State.coreUsable, State.coreOut, State.clusterOut, hc, hk, hd, hf, hup, coreCluster_lt h]

theorem State.usableOn_all {s : State} (h : ∀ c, c < 16384 → s.coreUsable c = true) {d : Nat} (hd : d < 16) : s.usableOn d = 1024 := by
  have hall : (List.range 1024).filter (fun i => s.coreUsable (1024 * d + i)) = List.range 1024 :=
    List.filter_eq_self.mpr fun i hi => h _ (by rw [List.mem_range] at hi; omega)
  rw [State.usableOn, hall, List.length_range]

theorem tget_map_filter {β : Type} (d v : β) (p : Nat → Bool) (l : List Nat) (c : Nat) :
    tget d ((l.filter p).map fun c => (c, v)) c = if c ∈ l ∧ p c = true then v else d := by
  split
  · next h =>
    refine tget_of_mem (List.mem_map.mpr ⟨c, List.mem_filter.mpr h, rfl⟩) fun w hw => ?_
    obtain ⟨x, -, hx⟩ := List.mem_map.mp hw
    exact (Prod.mk.inj hx).2.symm
  · next h =>
    refine tget_of_not_mem fun w hw => h ?_
    obtain ⟨x, hx, heq⟩ := List.mem_map.mp hw
    rw [(Prod.mk.inj heq).1] at hx
    exact List.mem_filter.mp hx

theorem State.runningCores_at (s : State) {c : Nat} (hc : c < 16384) :
    tget Core.init s.runningCores c = if s.coreUsable c = true then { Core.init with power := .running } else Core.init := by
  rw [State.runningCores, tget_map_filter]
  simp only [List.mem_range, hc, true_and]

theorem mem_mergeSorted {l xs : List Nat} {x : Nat} : x ∈ mergeSorted l xs ↔ x ∈ l ∨ x ∈ xs := by
  unfold mergeSorted
  induction xs generalizing l with
  | nil => simp
  | cons y xs ih =>
    rw [List.foldl_cons, ih, mem_insertSorted, List.mem_cons]
    tauto

/-! What the steps of stage 6 leave. -/

section
variable (s : State) (bist : List Nat)

theorem foldl_report_reports (l : List Nat) (s : State) : (l.foldl (fun (s : State) c => s.report 0x04 c 0) s).reports
    = s.reports ++ l.map fun c => ⟨0x04, c, 0, s.reckon, none⟩ := by
  induction l generalizing s with
  | nil => simp
  | cons c l ih => rw [List.foldl_cons, ih, State.report_reports, List.append_assoc]; rfl

theorem State.bistOut_reports : (s.bistOut bist).reports = s.reports ++ bist.map fun c => ⟨0x04, c, 0, s.reckon, none⟩ :=
  foldl_report_reports bist { s with coreDown := mergeSorted s.coreDown bist }
theorem State.bistOut_coreDown : (s.bistOut bist).coreDown = mergeSorted s.coreDown bist :=
  foldl_field State.coreDown (fun (s : State) c => s.report 0x04 c 0) (fun _ _ => rfl) bist { s with coreDown := mergeSorted s.coreDown bist }
theorem State.bistOut_dieDown : (s.bistOut bist).dieDown = s.dieDown :=
  foldl_field State.dieDown (fun (s : State) c => s.report 0x04 c 0) (fun _ _ => rfl) bist { s with coreDown := mergeSorted s.coreDown bist }
theorem State.bistOut_bu : (s.bistOut bist).bu = s.bu :=
  foldl_field State.bu (fun (s : State) c => s.report 0x04 c 0) (fun _ _ => rfl) bist { s with coreDown := mergeSorted s.coreDown bist }

theorem State.diesShrink_unitsOut (ks : List ClusterId) (ls : List (Fin 32768)) : s.DiesShrink (s.unitsOut ks ls) :=
  (s.diesShrink_clusterFails 4 _).trans
    (.foldl (fun s l => (s.diesShrink_retireMeshLink l.val).trans (State.diesShrink_report _ (k := 0x07) (by decide) _ _)) ls _)

/-- Dies that go out leave all but the dies' own lists alone. -/
theorem State.emptyDiesOut_eq : ∃ dies causes, s.emptyDiesOut bist = { s with dieDown := dies, dieCause := causes } ∧ ∀ d ∈ s.dieDown, d ∈ dies := by
  have hfold : ∀ (l : List Nat) (t : State), (∃ dies causes, t = { s with dieDown := dies, dieCause := causes } ∧ ∀ d ∈ s.dieDown, d ∈ dies) →
      ∃ dies causes, l.foldl (fun (s : State) d => s.dieOut d (if tget 0 s.dieCause d ≠ 0 then tget 0 s.dieCause d
        else if bist.any (fun c => decide (coreDie c = d)) then 2 else 1)) t = { s with dieDown := dies, dieCause := causes }
        ∧ ∀ d ∈ s.dieDown, d ∈ dies := by
    intro l
    induction l with
    | nil => exact fun t h => h
    | cons d l ih =>
      rintro t ⟨dies, causes, rfl, hdies⟩
      exact ih _ ⟨_, _, rfl, fun x hx => mem_insertSorted.mpr (.inr (hdies x hx))⟩
  exact hfold _ s ⟨_, _, rfl, fun _ h => h⟩
end

end Sys2Proof.Machine
end

section
/-! PROOFS. How stage 6 of bring-up ends (R370 to R373, R377). -/
namespace Sys2Proof.Machine

/-! What a stage's end and the next one's start leave alone. -/

/-- The machine without what tells of bring-up, and without its sensors. -/
def State.unstaged (s : State) : State := { s with bu := BringUp.init, fns := [], out := [], sensors := [] }

theorem unstaged_buSet (s : State) (st : BuSt) (r : Nat) : (s.buSet st r).unstaged = s.unstaged := by
  obtain ⟨fns, out, h⟩ := s.buSet_eq st r
  rw [h]
  rfl

theorem unstaged_stageReport (s : State) (bs : List Byte) : (s.stageReport bs).2.unstaged = s.unstaged := by
  obtain ⟨out, n, h⟩ := s.stageReport_eq bs
  rw [h]
  rfl

theorem unstaged_syncSensors (s : State) (l : List Nat) : (s.syncSensors l).unstaged = s.unstaged :=
  foldl_field State.unstaged (fun (s : State) n => s.setSensor n { s.sensor n with invalid := 3, phase := 0, last := none }) (fun _ _ => rfl) l s

/-- The start of stage 7 touches sensors alone. -/
theorem unstaged_stageStart_seven (s : State) : (s.stageStart 7).unstaged = s.unstaged := by
  unfold State.stageStart
  extract_lets b s1
  have h1 : s1.unstaged = s.unstaged := unstaged_buSet _ _ _
  split
  · rw [unstaged_buSet, h1]
  · exact (unstaged_syncSensors _ _).trans h1

theorem unstaged_stagePass_six {s : State} (h : s.bu.stage = 6) (r : Nat) : (s.stagePass r).unstaged = s.unstaged := by
  unfold State.stagePass
  split
  · rw [h]
    exact unstaged_stageStart_seven s
  · exact unstaged_buSet _ _ _

section
variable {s t : State} (h : t.unstaged = s.unstaged)
include h

theorem core_of_unstaged (c : Nat) : t.core c = s.core c := (congrArg (fun x => x.core c) h : t.unstaged.core c = s.unstaged.core c)
theorem coreDown_of_unstaged : t.coreDown = s.coreDown := (congrArg State.coreDown h : t.unstaged.coreDown = s.unstaged.coreDown)
theorem reports_of_unstaged : t.reports = s.reports := (congrArg State.reports h : t.unstaged.reports = s.unstaged.reports)
theorem dieDown_of_unstaged : t.dieDown = s.dieDown := (congrArg State.dieDown h : t.unstaged.dieDown = s.unstaged.dieDown)
end

/-! The end of stage 6. -/

section
variable (s : State)

theorem State.diesReport_fuses (d : DieId) (ds : List DieId) : s.diesReport (d :: ds) = (s.stageReport s.floorPlan).2.buSet .failed 0x02 := rfl

theorem State.diesReport_nil : s.diesReport [] = if (List.range 16).any (fun d => decide ((s.stageReport s.floorPlan).2.usableOn d
      < coreMinimum (s.stageReport s.floorPlan).2.variant)) = true then (s.stageReport s.floorPlan).2.buSet .failed 0x01
    else (s.stageReport s.floorPlan).2.stagePass (s.stageReport s.floorPlan).1 := rfl

theorem unstaged_diesReport (h : s.bu.stage = 6) (ds : List DieId) : (s.diesReport ds).unstaged = s.unstaged := by
  have hrep := unstaged_stageReport s s.floorPlan
  cases ds with
  | cons d ds => rw [State.diesReport_fuses, unstaged_buSet, hrep]
  | nil =>
    rw [State.diesReport_nil]
    split
    · rw [unstaged_buSet, hrep]
    · obtain ⟨out, n, heq⟩ := s.stageReport_eq s.floorPlan
      have hstage : (s.stageReport s.floorPlan).2.bu.stage = 6 := by rw [heq]; exact h
      rw [unstaged_stagePass_six hstage, hrep]
end

/-! The map that stage 6 builds. -/

section
variable (s : State) (m : Map Core)

theorem State.coresOn_bu : (s.coresOn m).bu = s.bu := rfl
theorem State.coresOn_core (c : Nat) : (s.coresOn m).core c = tget Core.init m c := rfl
theorem State.coreUsable_coresOn (c : Nat) : (s.coresOn m).coreUsable c = s.coreUsable c := rfl
end

section
variable (s : State) (cs : List CoreId) (ks : List ClusterId) (ls : List (Fin 32768))

theorem State.diesUpBy_eq : ∃ dies causes, s.diesUpBy cs ks ls
      = { (s.diesTested cs ks ls).coresOn (s.diesTested cs ks ls).runningCores with dieDown := dies, dieCause := causes }
    ∧ ∀ d ∈ (s.diesTested cs ks ls).dieDown, d ∈ dies := by
  rw [State.diesUpBy]
  generalize (s.diesTested cs ks ls).runningCores = m
  exact State.emptyDiesOut_eq ((s.diesTested cs ks ls).coresOn m) _

theorem State.diesTested_bu : (s.diesTested cs ks ls).bu = s.bu :=
  (bu_of_fixtures (State.diesShrink_unitsOut _ ks ls).fixtures).trans (s.bistOut_bu _)
theorem State.diesTested_coreDown : (s.diesTested cs ks ls).coreDown = mergeSorted s.coreDown (s.bistFailed cs) :=
  (State.diesShrink_unitsOut _ ks ls).cores.trans (s.bistOut_coreDown _)
theorem State.diesTested_dieDown {d : Nat} (h : d ∈ s.dieDown) : d ∈ (s.diesTested cs ks ls).dieDown :=
  (State.diesShrink_unitsOut _ ks ls).dies d (by rwa [State.bistOut_dieDown])
theorem State.diesTested_bistReports : (s.diesTested cs ks ls).bistReports = (s.bistOut (s.bistFailed cs)).bistReports :=
  (bistReports_of_fixtures (State.diesShrink_unitsOut _ ks ls).fixtures : ((s.bistOut (s.bistFailed cs)).unitsOut ks ls).bistReports = _)
end

section
variable {s : State} (cs : List CoreId) (ks : List ClusterId) (ls : List (Fin 32768)) (ds : List DieId)

/-- A core that fails its self-test is out, off and reported. -/
theorem exec_dieBringup_bist {c : CoreId} (hs : s.inStage 6) (hc : c ∈ cs) (hfused : c.val ∉ s.nv.fusedCores) :
    ∃ t : State, exec (.dieBringup cs ks ls ds) s = .next t ∧ c.val ∈ t.coreDown ∧ (t.core c.val).power = .off
      ∧ (⟨0x04, c.val, 0, s.reckon, none⟩ : Report) ∈ t.reports := by
  have hbist : c.val ∈ s.bistFailed cs :=
    List.mem_filter.mpr ⟨List.mem_map.mpr ⟨c, hc, rfl⟩, by simpa using hfused⟩
  have hbu := s.diesTested_bu cs ks ls
  have hdown : c.val ∈ (s.diesTested cs ks ls).coreDown := by
    rw [State.diesTested_coreDown]
    exact mem_mergeSorted.mpr (.inr hbist)
  have hreport : (⟨0x04, c.val, 0, s.reckon, none⟩ : Report) ∈ (s.diesTested cs ks ls).bistReports := by
    rw [State.diesTested_bistReports, State.bistReports, State.bistOut_reports]
    simp [hbist]
  have hcore : tget Core.init (s.diesTested cs ks ls).runningCores c.val = Core.init := by
    rw [State.runningCores_at _ c.isLt, State.coreUsable_coreDown hdown, if_neg (by simp)]
  obtain ⟨dies, causes, heq, -⟩ := s.diesUpBy_eq cs ks ls
  have hexec := exec_dieBringup cs ks ls ds hs
  rw [heq] at hexec
  generalize s.diesTested cs ks ls = u at hexec hbu hdown hreport hcore
  generalize u.runningCores = m at hexec hcore
  have hstage : (u.coresOn m).bu.stage = 6 := by rw [State.coresOn_bu, hbu, hs.1]
  have hrest := unstaged_diesReport { u.coresOn m with dieDown := dies, dieCause := causes } hstage ds
  refine ⟨_, hexec, ?_, ?_, ?_⟩
  · rw [coreDown_of_unstaged hrest]
    exact hdown
  · have hoff : (State.core { u.coresOn m with dieDown := dies, dieCause := causes } c.val).power = .off := congrArg Core.power hcore
    rw [core_of_unstaged hrest, hoff]
  · rw [reports_of_unstaged hrest]
    exact (List.mem_filter.mp hreport).1

/-- A die that was out stays out, and stage 6 fails. -/
theorem exec_dieBringup_dieDown {d : DieId} (hs : s.inStage 6) (hd : d.val ∈ s.dieDown) :
    ∃ t : State, exec (.dieBringup cs ks ls []) s = .next t ∧ t.bu.st = .failed ∧ t.bu.result = 0x01 := by
  obtain ⟨dies, causes, heq, hdies⟩ := s.diesUpBy_eq cs ks ls
  have hout : d.val ∈ (s.diesUpBy cs ks ls).dieDown := by
    rw [heq]
    exact hdies _ (s.diesTested_dieDown cs ks ls hd)
  have hexec := exec_dieBringup cs ks ls [] hs
  generalize s.diesUpBy cs ks ls = t at hexec hout
  have hout' : d.val ∈ (t.stageReport t.floorPlan).2.dieDown := by
    rwa [dieDown_of_unstaged (unstaged_stageReport t t.floorPlan)]
  have hbelow : (List.range 16).any (fun d => decide ((t.stageReport t.floorPlan).2.usableOn d
      < coreMinimum (t.stageReport t.floorPlan).2.variant)) = true := by
    rw [List.any_eq_true]
    refine ⟨d.val, List.mem_range.mpr d.isLt, ?_⟩
    rw [State.usableOn_dieDown hout', decide_eq_true_eq]
    exact coreMinimum_pos _
  rw [State.diesReport_nil, if_pos hbelow] at hexec
  exact ⟨_, hexec, by rw [State.buSet_bu], by rw [State.buSet_bu]⟩

theorem exec_dieBringup_fuses (d : DieId) (hs : s.inStage 6) :
    ∃ t : State, exec (.dieBringup cs ks ls (d :: ds)) s = .next t ∧ t.bu.st = .failed ∧ t.bu.result = 0x02 :=
  ⟨_, (exec_dieBringup cs ks ls (d :: ds) hs).trans (congrArg Host.Outcome.next (State.diesReport_fuses _ d ds)), by rw [State.buSet_bu],
    by rw [State.buSet_bu]⟩
end

/-! Stage 6 in which nothing fails. -/

section
variable {s : State}

/-- A package all of whose cores are usable passes stage 6. -/
theorem State.diesReport_all {n : Nat} (hstage : s.bu.stage = n) (hgoal : s.bu.goal = n) (htook : s.bu.took.getD 2 0 = 0)
    (hall : ∀ c, c < 16384 → s.coreUsable c = true) : s.diesReport [] = s.buSet .done 0 := by
  have hreport : s.stageReport s.floorPlan = (0, s) := by
    rw [State.stageReport]
    exact if_pos htook
  have henough : ¬(List.range 16).any (fun d => decide (s.usableOn d < coreMinimum s.variant)) = true := by
    rw [List.any_eq_true]
    rintro ⟨d, h, hlt⟩
    rw [State.usableOn_all hall (List.mem_range.mp h), decide_eq_true_eq] at hlt
    exact absurd (coreMinimum_le s.variant) (by omega)
  rw [State.diesReport_nil, hreport, if_neg henough]
  exact State.stagePass_last hstage hgoal 0

theorem State.emptyDiesOut_all (hall : ∀ c, c < 16384 → s.coreUsable c = true) (bist : List Nat) : s.emptyDiesOut bist = s := by
  have hnone : (List.range 16).filter (fun d => decide (s.usableOn d = 0)) = [] := by
    rw [List.filter_eq_nil_iff]
    intro d h
    rw [State.usableOn_all hall (List.mem_range.mp h)]
    decide
  rw [State.emptyDiesOut, hnone, List.foldl_nil]

theorem exec_dieBringup_clean (hs : s.inStage 6) (hgoal : s.bu.goal = 6) (htook : s.bu.took.getD 2 0 = 0) (hc : s.coreDown = [])
    (hk : s.clusterDown = []) (hd : s.dieDown = []) (hf : s.nv.fusedCores = []) :
    ∃ t : State, exec (.dieBringup [] [] [] []) s = .next t ∧ t.bu.st = .done ∧ t.generation = (s.generation + 1) % 2 ^ 32
      ∧ t.changed = s.reckon ∧ ∀ c, c < 16384 → t.core c = { Core.init with power := .running } := by
  have htested : s.diesTested [] [] [] = s.clustersOn := rfl
  have hup : s.clustersOn.clusterUp = List.range 256 := List.filter_eq_self.mpr fun k _ => by simp [State.clusterOut, hk]
  have husable : ∀ c, c < 16384 → s.clustersOn.coreUsable c = true :=
    fun c h => State.coreUsable_all (s := s.clustersOn) hc hk hd hf hup h
  have hcore : ∀ c, c < 16384 → tget Core.init s.clustersOn.runningCores c = { Core.init with power := .running } := by
    intro c h
    rw [State.runningCores_at _ h, if_pos (husable c h)]
  have hexec := exec_dieBringup [] [] [] [] hs
  rw [State.diesUpBy, htested] at hexec
  generalize s.clustersOn.runningCores = m at hexec hcore
  have hall : ∀ c, c < 16384 → (s.clustersOn.coresOn m).coreUsable c = true :=
    fun c h => (State.coreUsable_coresOn _ m c).trans (husable c h)
  rw [State.emptyDiesOut_all hall, State.diesReport_all (s := s.clustersOn.coresOn m) (n := 6) hs.1 hgoal htook hall] at hexec
  obtain ⟨fns, out, heq⟩ := (s.clustersOn.coresOn m).buSet_eq .done 0
  rw [heq] at hexec
  exact ⟨_, hexec, rfl, rfl, rfl, hcore⟩
end

end Sys2Proof.Machine
end

section
/-! PROOFS. Stages 7, 8 and 10 of bring-up, and bring-up as a whole (R374, R377). -/
namespace Sys2Proof.Machine

/-! Stage 7: the granules (R374). -/

/-- A granule that stage 7 has returned: a retired one stays retired. -/
def Granule.returned (g : Granule) : Granule := ⟨.free, g.retired, g.epoch⟩

/-- The granules that stage 7 returns. -/
def granulesReturned (m : Map Granule) : Map Granule :=
  m.filterMap fun (n, g) =>
    let g1 : Granule := ⟨.free, g.retired, g.epoch⟩
    if g1 = Granule.init then none else some (n, g1)

theorem granulesReturned_cons (x : Nat × Granule) (m : Map Granule) : granulesReturned (x :: m) =
    if x.2.returned = Granule.init then granulesReturned m else (x.1, x.2.returned) :: granulesReturned m := by
  obtain ⟨n, g⟩ := x
  by_cases h : g.returned = Granule.init
  · rw [if_pos h]
    exact List.filterMap_cons_none (if_pos h)
  · rw [if_neg h]
    exact List.filterMap_cons_some (if_neg h)

theorem granulesReturned_free (m : Map Granule) (k : Nat) : (tget Granule.init (granulesReturned m) k).st = .free := by
  induction m with
  | nil => rfl
  | cons x m ih =>
    rw [granulesReturned_cons]
    split
    · exact ih
    · unfold tget
      split
      · rfl
      · exact ih

theorem granulesReturned_retired {m : Map Granule} {k : Nat} (h : (tget Granule.init m k).retired = true) :
    (tget Granule.init (granulesReturned m) k).retired = true := by
  induction m with
  | nil => simp [tget, Granule.init] at h
  | cons x m ih =>
    obtain ⟨n, g⟩ := x
    rw [granulesReturned_cons]
    by_cases hn : n = k
    · have hg : g.retired = true := by simpa [tget, hn] using h
      have hkept : g.returned ≠ Granule.init := by
        intro hi
        exact absurd ((congrArg Granule.retired hi : g.retired = false).symm.trans hg) (by decide)
      rw [if_neg hkept]
      simpa [tget, hn, Granule.returned] using hg
    · have hm : (tget Granule.init m k).retired = true := by simpa [tget, hn] using h
      split
      · exact ih hm
      · simpa [tget, hn] using ih hm

/-- A granule that fails is retired and reported. -/
def State.granuleOut (s : State) (g : GranuleId) : State := (s.setGranule g.val { s.granule g.val with retired := true }).report 0x22 g.val 0

section
variable (s : State) (g : GranuleId)

theorem State.granule_granuleOut (k : Nat) :
    (s.granuleOut g).granule k = if k = g.val then { s.granule g.val with retired := true } else s.granule k :=
  (tget_tset _ _ _ _ _).trans (by rfl)

theorem State.granule_granulesOut (k : Nat) (l : List GranuleId) (s : State) :
    ((l.foldl State.granuleOut s).granule k).st = (s.granule k).st
      ∧ ((s.granule k).retired = true ∨ (∃ g ∈ l, g.val = k) → ((l.foldl State.granuleOut s).granule k).retired = true) := by
  induction l generalizing s with
  | nil => exact ⟨rfl, fun h => h.elim id fun ⟨_, hg, _⟩ => absurd hg (List.not_mem_nil)⟩
  | cons x l ih =>
    obtain ⟨hst, hret⟩ := ih (s.granuleOut x)
    rw [List.foldl_cons]
    refine ⟨hst.trans ?_, fun h => hret ?_⟩
    · rw [State.granule_granuleOut]
      split
      · next hk => rw [hk]
      · rfl
    · rw [State.granule_granuleOut]
      by_cases hk : k = x.val
      · exact .inl (by rw [if_pos hk])
      · rw [if_neg hk]
        refine h.imp_right ?_
        rintro ⟨g, hg, rfl⟩
        obtain rfl | hg := List.mem_cons.mp hg
        · exact absurd rfl hk
        · exact ⟨g, hg, rfl⟩

theorem State.granulesOut_reports (l : List GranuleId) (s : State) : (l.foldl State.granuleOut s).reports
    = s.reports ++ l.map fun g => ⟨0x22, g.val, 0, s.reckon, none⟩ := by
  induction l generalizing s with
  | nil => simp
  | cons g l ih =>
    rw [List.foldl_cons, ih]
    simp [State.granuleOut, State.report, State.setGranule]
end

/-- The package whose memory stage 7 has cleared. -/
def State.hbmCleared (s : State) : State :=
  { s with granules := granulesReturned s.granules, hbm := [], poison := [], repairs := [], channels := [], readAhead := [] }

section
variable {s : State}

theorem exec_hbmBringup_good (r : List GranuleId) (hs : s.inStage 7) :
    exec (.hbmBringup false false r) s = .next (State.stagePass { r.foldl State.granuleOut s.hbmCleared with resValid := true } 0) := by
  change execHbmBringup false false r s = _
  exact stageEnd_inside hs _

theorem exec_hbmBringup_passes (r : List GranuleId) (hs : s.inStage 7) (hgoal : s.bu.goal = 7) :
    ∃ t : State, exec (.hbmBringup false false r) s = .next t ∧ t.bu.st = .done ∧ t.hbm = [] ∧ t.poison = [] ∧ t.resValid = true
      ∧ (∀ g, (t.granule g).st = .free) ∧ (∀ g ∈ r, (t.granule g.val).retired = true)
      ∧ (∀ g, (s.granule g).retired = true → (t.granule g).retired = true)
      ∧ t.reports = s.reports ++ r.map fun g => ⟨0x22, g.val, 0, s.reckon, none⟩ := by
  have hexec := exec_hbmBringup_good r hs
  have hkeep {β : Type} (p : State → β) (hp : ∀ s g, p (State.granuleOut s g) = p s) :
      p (r.foldl State.granuleOut s.hbmCleared) = p s.hbmCleared := foldl_field p State.granuleOut hp r _
  have hbu : (r.foldl State.granuleOut s.hbmCleared).bu = s.bu := hkeep State.bu fun _ _ => rfl
  have hhbm : (r.foldl State.granuleOut s.hbmCleared).hbm = [] := hkeep State.hbm fun _ _ => rfl
  have hpoison : (r.foldl State.granuleOut s.hbmCleared).poison = [] := hkeep State.poison fun _ _ => rfl
  have hst : ∀ g, ((r.foldl State.granuleOut s.hbmCleared).granule g).st = .free :=
    fun g => (State.granule_granulesOut g r _).1.trans (granulesReturned_free s.granules g)
  have hret : ∀ g, (s.granule g).retired = true ∨ (∃ x ∈ r, x.val = g) →
      ((r.foldl State.granuleOut s.hbmCleared).granule g).retired = true :=
    fun g h => (State.granule_granulesOut g r _).2 (h.imp_left granulesReturned_retired)
  have hreports := State.granulesOut_reports r s.hbmCleared
  generalize r.foldl State.granuleOut s.hbmCleared = u at hexec hbu hhbm hpoison hst hret hreports
  rw [State.stagePass_last (n := 7) (hbu ▸ hs.1) (hbu ▸ hgoal)] at hexec
  obtain ⟨fns, out, heq⟩ := State.buSet_eq { u with resValid := true } .done 0
  rw [heq] at hexec
  exact ⟨_, hexec, rfl, hhbm, hpoison, rfl, hst, fun g hg => hret g.val (.inr ⟨g, hg, rfl⟩), fun g hg => hret g (.inl hg), hreports⟩
end

/-! Stage 8: the links (R173, R190). -/

/-- A table whose entries a list of steps writes one by one, each step its own: after the steps every entry is as its own step writes it. -/
theorem foldl_at {β : Type} {view : State → Nat → β} {f : State → Nat → State} {p : β → Prop} {j : Nat} {l : List Nat}
    (hother : ∀ s, ∀ a ∈ l, a ≠ j → view (f s a) j = view s j) (hself : ∀ s, p (view (f s j) j)) (hj : j ∈ l) (s : State) :
    p (view (l.foldl f s) j) := by
  induction l using List.reverseRecOn with
  | nil => exact absurd hj List.not_mem_nil
  | append_singleton l a ih =>
    rw [List.foldl_concat]
    by_cases ha : a = j
    · rw [ha]
      exact hself _
    · rw [hother _ a (by simp) ha]
      refine ih (fun s b hb => hother s b (by simp [hb])) ?_
      simpa [Ne.symm ha] using hj

theorem foldl_of_fixed {α β : Type} {f : β → α → β} {b : β} {l : List α} (h : ∀ a ∈ l, f b a = b) : l.foldl f b = b := by
  induction l with
  | nil => rfl
  | cons a l ih =>
    rw [List.foldl_cons, h a List.mem_cons_self]
    exact ih fun x hx => h x (List.mem_cons_of_mem _ hx)

section
variable (s : State) (trained : List (LinkId × BitVec 16 × BitVec 16)) {l : Nat}

theorem State.setLink_link (x : Link) (j : Nat) : (s.setLink l x).link j = if j = l then x else s.link j := by
  simp [State.link, State.setLink]

theorem State.setLatency_link (hl : l < 512) (c j : Nat) :
    (s.setLatency l c).link j = if j = l then { s.link l with latency := c } else s.link j := by
  rw [State.setLatency]
  dsimp only
  rw [if_neg (by omega), State.setLink_link]
  rfl

theorem State.trainLink_other (hl : l < 512) {j : Nat} (hj : l ≠ j) : (s.trainLink trained l).link j = s.link j := by
  unfold State.trainLink
  extract_lets rx
  split
  · rw [State.setLink_link, if_neg hj.symm]
  · split
    · rw [State.setLatency_link _ hl, if_neg hj.symm, State.setLink_link, if_neg hj.symm]
    · exact (State.setLink_link (l := l) s { Link.init with st := .lost, rx := rx } j).trans (if_neg hj.symm)

/-- A standing link that trained is live, towards its partner. -/
theorem State.trainLink_standing (hl : l < 512) {i : Nat} (hrole : linkRole l = .standing i) {x : LinkId × BitVec 16 × BitVec 16}
    (hx : trained.find? (fun x => decide (x.1.val = l) && decide (8 ≤ maskWidth x.2.1.toNat)) = some x) :
    ((s.trainLink trained l).link l).st = .live ∧ ((s.trainLink trained l).link l).rx = some (standingRx l) := by
  simp only [State.trainLink, hrole, hx, reduceCtorEq, if_false]
  rw [State.setLatency_link _ hl, if_pos rfl, State.setLink_link, if_pos rfl]
  exact ⟨rfl, rfl⟩

theorem State.trainLink_bu : (s.trainLink trained l).bu = s.bu := by
  unfold State.trainLink
  extract_lets rx
  have hlatency : ∀ (t : State) c, (t.setLatency l c).bu = t.bu := by
    intro t c
    unfold State.setLatency
    dsimp only
    split <;> rfl
  split
  · rfl
  · split
    · exact hlatency _ _
    · rfl

theorem linkRole_standing (h : (linkRole l).code = 0) : ∃ i, linkRole l = .standing i := by
  cases hrole : linkRole l with
  | standing i => exact ⟨i, rfl⟩
  | attachment k => simp [hrole, LinkRole.code] at h
  | pool => simp [hrole, LinkRole.code] at h
  | spare => simp [hrole, LinkRole.code] at h

theorem State.substitute_live {s : State} {l : Nat} (h : (s.link l).st = .live) : s.substitute l = s := by
  simp [State.substitute, h]
end

section
variable {s : State} {trained : List (LinkId × BitVec 16 × BitVec 16)}

theorem exec_inPackageLinkTraining {stand : List Nat} {u : State} (hs : s.inStage 8)
    (hstand : stand = (List.range 512).filter (fun l => decide ((linkRole l).code = 0)))
    (hu : u = stand.foldl (fun s l => s.substitute l) ((List.range 512).foldl (fun s l => s.trainLink trained l) s)) :
    exec (.inPackageLinkTraining trained) s = .next (if stand.all u.pathStands = true then u.stagePass 0 else u.buSet .failed 0x01) := by
  change execInPackageLinkTraining trained s = _
  rw [execInPackageLinkTraining, stageEnd_inside hs, hu, hstand]

/-- Stage 8 in which every link trains. -/
theorem exec_inPackageLinkTraining_all (hs : s.inStage 8) (hgoal : s.bu.goal = 8)
    (hall : ∀ l : LinkId, ∃ x, trained.find? (fun x => decide (x.1.val = l.val) && decide (8 ≤ maskWidth x.2.1.toNat)) = some x) :
    ∃ t : State, exec (.inPackageLinkTraining trained) s = .next t ∧ t.bu.st = .done
      ∧ ∀ l i, l < 512 → linkRole l = .standing i → (t.link l).st = .live ∧ (t.link l).rx = some (standingRx l) := by
  have hexec := exec_inPackageLinkTraining (trained := trained) hs rfl rfl
  have hlinks : ∀ l i, l < 512 → linkRole l = .standing i →
      (((List.range 512).foldl (fun s l => s.trainLink trained l) s).link l).st = .live
        ∧ (((List.range 512).foldl (fun s l => s.trainLink trained l) s).link l).rx = some (standingRx l) := by
    intro l i hl hrole
    obtain ⟨x, hx⟩ := hall ⟨l, hl⟩
    exact foldl_at (view := State.link) (p := fun x => x.st = .live ∧ x.rx = some (standingRx l))
      (fun s a ha hne => s.trainLink_other trained (List.mem_range.mp ha) hne) (fun s => s.trainLink_standing trained hl hrole hx)
      (List.mem_range.mpr hl) s
  have hbu : ((List.range 512).foldl (fun s l => s.trainLink trained l) s).bu = s.bu :=
    foldl_field State.bu _ (fun s l => s.trainLink_bu trained) _ s
  generalize (List.range 512).foldl (fun s l => s.trainLink trained l) s = a at hexec hlinks hbu
  have hlive : ∀ l ∈ (List.range 512).filter (fun l => decide ((linkRole l).code = 0)), (a.link l).st = .live := by
    intro l hl
    obtain ⟨hrange, hcode⟩ := List.mem_filter.mp hl
    obtain ⟨i, hrole⟩ := linkRole_standing (of_decide_eq_true hcode)
    exact (hlinks l i (List.mem_range.mp hrange) hrole).1
  generalize (List.range 512).filter (fun l => decide ((linkRole l).code = 0)) = stand at hexec hlive
  have hsame : stand.foldl (fun s l => s.substitute l) a = a := foldl_of_fixed fun l hl => State.substitute_live (hlive l hl)
  have hpaths : stand.all a.pathStands = true := by
    rw [List.all_eq_true]
    intro l hl
    simp [State.pathStands, hlive l hl]
  rw [hsame, if_pos hpaths, State.stagePass_last (n := 8) (hbu ▸ hs.1) (hbu ▸ hgoal)] at hexec
  obtain ⟨fns, out, heq⟩ := a.buSet_eq .done 0
  rw [heq] at hexec
  exact ⟨_, hexec, rfl, hlinks⟩
end

/-! Stage 10: barn 0 and READY (R377). -/

section
variable (s : State)

theorem State.sends_foldl {α : Type} {f : State → α → State} (hf : ∀ s a, State.sends s (f s a)) (l : List α) : s.sends (l.foldl f s) :=
  List.foldlRecOn l f (State.sends.refl s) fun t ht a _ => ht.trans (hf t a)

theorem State.sends_giveAll (dest : Nat) : s.sends (s.giveAll dest) := s.sends_foldl (fun s _ => s.sends_dispatch _) _

theorem State.barnExists_createBarn (b weight q1 q3 : Nat) : (s.createBarn b weight q1 q3).barnExists b = true := by
  simp [State.barnExists, State.barn, State.createBarn, State.meterOpenAt, State.onMeter]

/-- The package with barn 0, its counts begun and its windows granted. -/
def State.opened (s : State) : State :=
  let s1 := State.createBarn { s with clusterOwner := [], queueOwner := [] } 0 16 0 0
  s1.planReaches.foldl (fun (s : State) d => s.giveAll d) { s1 with ready := true, hseq := 0 }

theorem State.sends_opened : State.sends
    { State.createBarn { s with clusterOwner := [], queueOwner := [] } 0 16 0 0 with ready := true, hseq := 0 } s.opened :=
  State.sends_foldl _ (fun s d => s.sends_giveAll d) _

theorem exec_ready_passes {s : State} (hs : s.inStage 10) (hpending : 3 ∉ s.gleaner.pending)
    (hcores : ∀ d, d < 16 → coreMinimum s.variant ≤ s.usableOn d) :
    ∃ t : State, exec .ready s = .next t ∧ t.bu.st = .ready ∧ t.bu.result = 0 ∧ t.accepted = s.accepted ∧ t.bu.accepted = s.bu.accepting
      ∧ t.ready = true ∧ t.hseq = 0 ∧ t.barnExists 0 = true ∧ t.clusterOwner = [] ∧ t.queueOwner = [] ∧ ∀ c, t.core c = s.core c := by
  have hstands : ¬(s.gleaner.pending.contains 3 = true ∨ (List.range 16).any (fun d => decide (s.usableOn d < coreMinimum s.variant)) = true) := by
    rintro (h | h)
    · exact hpending (by simpa using h)
    · obtain ⟨d, hd, hlt⟩ := List.any_eq_true.mp h
      exact absurd (hcores d (List.mem_range.mp hd)) (by simpa using hlt)
  have hexec : exec .ready s = .next (State.buSet { s.opened with bu := { s.opened.bu with accepted := s.opened.bu.accepting } } .ready 0) := by
    change execReady s = _
    exact (stageEnd_inside hs _).trans (congrArg Host.Outcome.next (if_neg hstands))
  have hsends := s.sends_opened
  have hbarn := State.barnExists_createBarn { s with clusterOwner := [], queueOwner := [] } 0 16 0 0
  have haccepted := hsends.field State.accepted fun _ _ => rfl
  have hbu := hsends.field State.bu fun _ _ => rfl
  have hready := hsends.field State.ready fun _ _ => rfl
  have hhseq := hsends.field State.hseq fun _ _ => rfl
  have hbarns := hsends.field (fun s => s.barnExists 0) fun _ _ => rfl
  have howners := hsends.field State.clusterOwner fun _ _ => rfl
  have hqueues := hsends.field State.queueOwner fun _ _ => rfl
  have hcore := fun c => hsends.field (fun s => s.core c) fun _ _ => rfl
  obtain ⟨fns, out, heq⟩ := State.buSet_eq { s.opened with bu := { s.opened.bu with accepted := s.opened.bu.accepting } } .ready 0
  rw [heq] at hexec
  exact ⟨_, hexec, rfl, rfl, haccepted, congrArg BringUp.accepting hbu, hready, hhseq, hbarns.trans hbarn, howners, hqueues, hcore⟩
end

/-! Bring-up as a whole. -/

/-- Settles O51: BU_CTL by the fields that a write selects, each stage by what it leaves inside its stage and outside it. -/
theorem bringUpStages : Obligations.BringUpStages := by
  unfold Obligations.BringUpStages
  refine ⟨fun v s => ⟨rfl, rfl, rfl⟩, fun s v h => State.buCtl_reserved h, fun s t ht => s.buCtl_go ht, BringUp.next_eq, State.buCtl_accept,
    fun s h => State.acceptReport_starts h, fun s u hu => s.buCtl_abort hu, State.buSet_cases, ?_, fun s r => rfl,
    fun s h => State.stageEnter_nine h, exec_stages_outside, ?_, ?_, ?_, NonVol.fwOrder_eq, ?_, fun ks xs s hs => exec_clockDistribution_lost ks xs hs,
    ?_, fun s hs hgoal => exec_clockDistribution_clean hs hgoal, ?_, ?_, ?_, exec_calImageWaitTimeout, ?_, ?_, ?_, ?_, ?_, ?_, ?_, ?_, ?_, ?_, ?_, ?_⟩
  · rintro s u n rfl
    rfl
  · intro b1 b2 fit op tr cs ks ls ds gs tl s
    refine ⟨fun ho => exec_lightCalibration_outside ho fit op b1 b2 tr, fun ho => ?_, fun ho => ?_, fun ho => ?_, fun ho => ?_, fun ho => ?_⟩
    · change execDieBringup cs ks ls ds s = _
      exact stageEnd_outside ho _
    · change execHbmBringup b1 b2 gs s = _
      exact stageEnd_outside ho _
    · change execInPackageLinkTraining tl s = _
      exact stageEnd_outside ho _
    · change execEdgeTrainingSighting s = _
      exact stageEnd_outside ho _
    · change execReady s = _
      exact stageEnd_outside ho _
  · exact fun rail ref a b v s u hs hu => exec_standbyDomainSelfCheck rail ref a b v hs hu
  · intro host s imgs hs himgs
    rw [exec_firmwareAuthentication host hs himgs]
    refine ⟨fun slot i h => ?_, fun h => ?_, fun x l e h he hfind => ?_⟩
    · rw [State.fwLoad_found h]
    · rw [h, State.fwLoad_nil]
    · subst h
      rw [State.fwLoad_refused he hfind]
  · exact fun ok bad ks s u hd hs hu => exec_vin48SoftStart ok bad ks hd hs hu
  · exact fun ks xs s a u w hs ha hu hw => exec_clockDistribution_locked ks xs hs ha hu hw
  · exact fun fit a u tr s hs hgoal hwait hfit hret => exec_lightCalibration_fitted fit a u tr hs hgoal hwait hfit hret
  · exact fun fit k a u tr s hs hwait => exec_lightCalibration_opened fit a u tr k hs hwait
  · exact fun fit op a u tr s hwait hfatal => exec_lightCalibration_waits hwait hfatal fit op a u tr
  · exact fun s hs hgoal htook hc hk hd hf => exec_dieBringup_clean hs hgoal htook hc hk hd hf
  · exact fun c cs ks ls ds s hs hc hfused => exec_dieBringup_bist cs ks ls ds hs hc hfused
  · exact fun d cs ks ls s hs hd => exec_dieBringup_dieDown cs ks ls hs hd
  · exact fun d cs ks ls ds s hs => exec_dieBringup_fuses cs ks ls ds d hs
  · exact fun stack repair r s hs hbad => exec_hbmBringup_bad r hs hbad
  · exact fun r s hs hgoal => exec_hbmBringup_passes r hs hgoal
  · exact fun s trained hs hgoal hall => exec_inPackageLinkTraining_all hs hgoal hall
  · exact fun s u trained stand hs hstand hu => exec_inPackageLinkTraining hs hstand hu
  · exact fun s hs => exec_edgeTrainingSighting hs
  · exact fun s bs => rfl
  · exact fun s hs hpending hcores => exec_ready_passes hs hpending hcores
  · exact fun s hs h => exec_ready_below hs h

end Sys2Proof.Machine
end
